-- ==== Sys2Proof/Word.lean ====
section
/-!
DEFINITION. The words of the SLN-4810 and their plainest arithmetic: bytes, 64-bit registers (R547), 256-byte lines
(2,048 bits), and bit fields of a register read as numbers.
-/
namespace Sys2Proof

/-- A byte. -/
abbrev Byte := BitVec 8

/-- A register is 64 bits wide (R547). -/
abbrev Word := BitVec 64

/-- A 256-byte line; byte `i` is bits `8 i` to `8 i + 7`. -/
abbrev LineBits := BitVec 2048

/-- The number held in bits `[hi:lo]` of `v`. -/
def Word.field (v : Word) (hi lo : Nat) : Nat := (v.toNat / 2 ^ lo) % 2 ^ (hi + 1 - lo)

/-- `v` with bits `[hi:lo]` holding `n` (cut to the width of the field). -/
def Word.withField (v : Word) (hi lo n : Nat) : Word :=
  BitVec.ofNat 64 (v.toNat - v.field hi lo * 2 ^ lo + (n % 2 ^ (hi + 1 - lo)) * 2 ^ lo)

/-- Bit `i` of `v`. -/
def Word.bit (v : Word) (i : Nat) : Bool := v.getLsbD i

end Sys2Proof
end

