-- ==== Sys2Proof/Syntax.lean ====
section
/-!
DEFINITION. The commands of the block, one constructor of `Instr` per row of spec/opcode_table.json, and the data they
carry: received frames, stitches, mailbox numbers, outcomes of analogue work. A command is an arrival at a ball, an
arrival inside the device (a fragment sense returns, a timer expires) or an interface access.
-/
namespace Sys2Proof

/-! ### Host Ethernet frames (02) -/

/-- An IPv4 (`v6 = false`) or IPv6 address, as a number. -/
structure IpAddr where
  v6 : Bool
  addr : Nat
  deriving DecidableEq, Repr

/-- The SecTAG of a received frame (R37): the SCI when the frame carries one, the AN, the packet number, and whether the
integrity check value is right under the SA's key (the cipher is IEEE 802.1AE's). -/
structure SecTag where
  sci : Option Nat
  an : Nat
  pn : Nat
  icvOk : Bool
  deriving DecidableEq, Repr

/-- What follows the IP header of a received packet. `csum` of a UDP datagram: `none` for a zero checksum, else whether
it is right. -/
inductive L4 where
  | udp (srcPort dstPort lenField : Nat) (csum : Option Bool) (payload : List Byte)
  | echo (payload : List Byte)
  | solicit (target : Nat)
  | icmpOther
  | other
  deriving DecidableEq, Repr

/-- The IP packet of a received frame (R580): `hdrOk` says that version, IHL and header checksum are right, `ipLen` is the IPv4
total length or 40 plus the IPv6 payload length, `span` the bytes the packet spans in the frame, `frag` that it is a
fragment (IPv4 MF or offset, IPv6 Next Header 44), `ext` that another IPv6 extension header follows. -/
structure IpPacket where
  v6 : Bool
  hdrOk : Bool
  ipLen : Nat
  span : Nat
  frag : Bool
  ext : Bool
  src : Nat
  dst : Nat
  ce : Bool
  l4 : L4
  deriving DecidableEq, Repr

/-- What the EtherType of a received frame selects. -/
inductive EthBody where
  | lace
  | arpRequest (target : Nat)
  | arpOther
  | ip (p : IpPacket)
  | other
  deriving DecidableEq, Repr

/-- A MAC Control frame: a PFC frame (opcode 0x0101) with the classes it names and the quanta of the eight classes, or one of another
opcode. -/
inductive MacCtrl where
  | pfc (classes : BitVec 8) (quanta : List Nat)
  | other (opcode : Nat)
  deriving DecidableEq, Repr

/-- What the FEC decoder made of a codeword (R27): the corrected symbols by lane of the port, lowest lane first, or beyond correction. -/
inductive FecWord where
  | corrected (symbols : List Nat)
  | uncorrectable
  deriving DecidableEq, Repr

/-- A received Ethernet frame (Table 02-2). `len` is counted from the destination address to the FCS (R31); `fecUncorr` says that part of it
lies in an uncorrectable codeword; `tag` holds the PCP and VID of the 802.1Q tag; `fec` the codewords decoded on the port since its
previous frame. -/
structure EthFrame where
  len : Nat
  fecUncorr : Bool
  fcsOk : Bool
  da : Nat
  sa : Nat
  ctrl : Option MacCtrl
  tag : Option (Nat × Nat)
  secondTag : Bool
  secTag : Option SecTag
  body : EthBody
  fec : List FecWord := []
  deriving DecidableEq, Repr

/-- Why a lane takes its port down (Table 17-2). -/
inductive LinkLoss where
  | signal | blockLock | alignment
  deriving DecidableEq, Repr

/-- The value of event PORT_DOWN (Table 17-2). -/
def LinkLoss.cause : LinkLoss → Nat
  | .signal => 1 | .blockLock => 2 | .alignment => 3

/-- What PORT_DOWN reports of a port's lanes: the loss that took it down, and the lanes that keep block lock (Tables 02-5, 17-2). -/
structure LaneLoss where
  loss : LinkLoss
  locked : BitVec 4
  deriving DecidableEq, Repr

/-- The pause times of a PFC frame by class, in quanta, and the frame's length as received (R34). -/
structure PfcPause where
  quanta : List Nat
  len : Nat
  deriving DecidableEq, Repr

/-- What a die check found: whether it passed, and the histogram of the last witness group that it swept (R316). -/
structure DieCheck where
  ok : Bool
  hist : List Nat
  deriving DecidableEq, Repr

/-! ### Status codes (04) -/

/-- The status codes of Table 04-1, carried in response stitches, mailbox responses and journal entries. -/
inductive Status where
  | ok | okPoison | retry | okTruncated | denied | address | length | align | opcode | key | writeProtected
  | journalFull | keepWorn | integrity | uncorrectable | lost | poisoned | readOnly | noCredit | throttled
  | unavailable | held | internal
  deriving DecidableEq, Repr

/-- The value of a status (Table 04-1). -/
def Status.code : Status → Nat
  | .ok => 0x00 | .okPoison => 0x01 | .retry => 0x02 | .okTruncated => 0x03 | .denied => 0x10 | .address => 0x11
  | .length => 0x12 | .align => 0x13 | .opcode => 0x14 | .key => 0x15 | .writeProtected => 0x16 | .journalFull => 0x17
  | .keepWorn => 0x18 | .integrity => 0x20 | .uncorrectable => 0x21 | .lost => 0x22 | .poisoned => 0x23
  | .readOnly => 0x24 | .noCredit => 0x30 | .throttled => 0x31 | .unavailable => 0x32 | .held => 0x33 | .internal => 0x3F

/-! ### Outcomes of analogue and physical work -/

/-- What the local decode of a fragment gives (R136, R159): the fragment, with the number of bits corrected; or a failure. -/
inductive FragOutcome where
  | decoded (corrected : Nat) (frag : BitVec 272)
  | failed
  deriving DecidableEq, Repr

/-- A witness sweep (R154): die, label, plane, and the cells counted in each of its 64 bins. -/
structure Sweep where
  die : Nat
  label : Nat
  plane : Nat
  hist : List Nat
  deriving DecidableEq, Repr

/-- How the codewords of a DRAM burst decode (R375); `corrected` lists channels with their corrected bytes. -/
inductive BurstOutcome where
  | clean
  | corrected (bytes : List (Nat × Nat))
  | erasure
  | uncorrectable
  deriving DecidableEq, Repr

/-- What a DRAM burst belongs to (Table 11-2): the DRAM-tier slot of a line, by the line's key, or the store at another
address. -/
inductive DramTarget where
  | tier (line : Nat)
  | other (addr : Nat)
  deriving DecidableEq, Repr

/-- How a word of the cell pool reads (R391, R392): clean, corrected or beyond correction, in a quarter of the pool; or its link-array
word beyond correction. -/
inductive CellOutcome where
  | clean
  | corrected (quarter : Nat)
  | uncorrectable (quarter : Nat)
  | linkLost
  deriving DecidableEq, Repr

/-! ### Register access paths (18) -/

/-- By which path a register access comes (Table 18-3); `reg` names the connection, `lace` the manager that forwards a REG stitch and
the connection there. -/
inductive Path where
  | hkp
  | jtag
  | smbus
  | reg (conn : Nat)
  | lace (dev conn : Nat)
  deriving DecidableEq, Repr

/-- How a POLL or an ABORT comes to a mailbox (R438, R440, R442): in an MBX stitch, by its operation, or by the doorbell of SMBus. -/
inductive MbxVia where
  | stitch (op : Nat)
  | smbus
  deriving DecidableEq, Repr

/-! ### The hoop: its tables and its lace frames (04, 08) -/

/-- A region (R93); its panels are entries of the directory. -/
structure Region where
  keyId : Nat
  mirrored : Bool
  base : Nat
  size : Nat
  deriving DecidableEq, Repr

/-- A grant (R94). `entries` are (REGION_ID, RIGHTS). -/
structure Grant where
  cls : Nat
  ctr : Bool
  ctrFirst : Nat
  ctrCount : Nat
  v6 : Bool
  prefixLen : Nat
  netPrefix : Nat
  entries : List (Nat × Nat)
  deriving DecidableEq, Repr

/-- A directory entry (Table 08-7), of the hoop panel that keys it, with its directory index (R277), and the key ID of its region, which a
worker knows from its panels' lines (log entry 53). `move` is a
move of one copy under way (R279): the target device and local panel, a RESYNC copy, and whether it replaces copy B. -/
structure DirEntry where
  index : Nat
  devA : Nat
  lpA : Nat
  devB : Nat
  lpB : Nat
  mirrored : Bool
  st : Nat
  region : Nat
  keyId : Nat
  copyA : Nat
  copyB : Nat
  move : Option (Nat × Nat × Bool)
  deriving DecidableEq, Repr

/-- A change to the directory, the region table, the grants, the matrix table or the member list, as it goes to the standby
(R267, R278); `none` removes the entry. A matrix is named by its MATRIX_LOAD request, a member by its serial number. `only` stands at the front of the tables that a joining
device gets: entries of other panels, regions and grants are no longer in force. -/
inductive TableChange where
  | region (id : Nat) (r : Option Region)
  | grant (id : Nat) (g : Option Grant)
  | dir (panel : Nat) (e : Option DirEntry)
  | matrix (id : Nat) (request : Option (List Byte))
  | member (dev : Nat) (serial : Option Nat)
  | only (panels regions grants : List Nat)
  deriving DecidableEq, Repr

/-- An ANNOUNCE: serial number, strap role, device number, epoch record and address of host port 0 (Table 08-3). -/
structure Announce where
  serial : Nat
  strap : Nat
  dev : Nat
  epoch : Nat
  exit : Nat
  ip : IpAddr
  deriving DecidableEq, Repr

/-- What a CONTROL frame carries (Table 08-3): reports, LEAVE, epoch changes, directory sync, fork lists. `slow` of a throttling member
carries the share of the rates in % as its stitch rate. The spec gives CONTROL no
byte layout, so the contents stand decoded (log entry 30). -/
inductive Control where
  | leave (dev why : Nat)
  | epoch
  | link (dev peer : Nat) (up : Bool)
  | keys (dev : Nat) (bad : List Nat)
  | lock (keyId : Nat) (on : Bool)
  | spare (dev : Nat) (readOnly : Bool)
  | slow (dev cause graceMs stitchRate byteRate : Nat)
  | alarm (dev code keyId addr range : Nat)
  | sync (changes : List TableChange)
  | current
  | forks (dev : Nat) (ranges : List (Nat × Nat))
  | role
  | form (hoopId : Nat)
  | schedule (id at' devices action : Nat)
  | cancel (id : Nat)
  | ran (dev id : Nat)
  | resync (panel target : Nat) (chunks : Option (List Nat))
  | copied (dev panel chunks : Nat)
  | filet (dev matrix : Nat) (st : Status)
  | refresh (matrix : Nat)
  | hint (base size hint : Nat)
  | hints (l : List (Nat × Nat))
  deriving DecidableEq, Repr

/-- A line image of a resync (R290, R422): its panel and line within it, key ID, data in clear, poison marks and cause. -/
structure ResyncLine where
  panel : Nat
  line : Nat
  keyId : Nat
  data : LineBits
  poison : BitVec 4
  cause : Nat
  deriving DecidableEq, Repr

/-- A received lace frame up to its payload's decoding (R259, R261): whether an uncorrectable codeword held part of it, its FCS,
its length from the destination address to the FCS, its destination, whether its EtherType is 0x88B5 without a tag, and the
bytes from the lace header on (Table 08-2); and the codewords decoded on the link's lane since its previous frame. -/
structure LaceIn where
  fecUncorr : Bool
  fcsOk : Bool
  len : Nat
  da : Nat
  etypeOk : Bool
  bytes : List Byte
  fec : List FecWord := []
  deriving DecidableEq, Repr

/-! ### Power and start-up (15, 16) -/

/-- What the hold-up measurement reads (R487): bank voltages v1 and v2 in mV, mean package input power in mW, elapsed time in µs. -/
structure HoldTest where
  v1 : Nat
  v2 : Nat
  power : Nat
  time : Nat
  deriving DecidableEq, Repr

/-- What the self-test finds (Table 16-4, R509): whether the LK area or the update record has no valid copy, and how many keep pages are
unsealed; the (slice, way) pairs whose pattern test fails, and whether an uncorrectable word persists in an SRAM store; whether DRAM
densities differ, whether they are of 64 GiB, the channels that fail training; the stack-port links that stay down, the dies that fail their
check; whether a table is unreadable from both places, and the lines poisoned for want of their table entry; the tree nodes and lines of the
save generation whose records fail their check; the witness sweeps of the refit before SERVICE (R157); the tiles that fail, and the key IDs whose persisted key fails its KCV. -/
structure SelfTest where
  keepBad : Bool
  unsealed : Nat
  ways : List (Nat × Nat)
  sramBad : Bool
  densitiesDiffer : Bool
  dram64 : Bool
  channels : List Nat
  links : List Nat
  dies : List Nat
  tablesBad : Bool
  poisoned : List Nat
  badNodes : List Nat
  badLines : List Nat
  sweeps : List Sweep := []
  tiles : List Nat
  badKeys : List Nat
  deriving DecidableEq, Repr

/-- What the work of a sequencer step yields: nothing; the straps (STBY_OK); sensor readings in 1/16 °C (AUX); the self-test's findings; how
many records of a save were written. -/
inductive StepOut where
  | plain
  | straps (role haddr sa : Nat) (testEn : Bool)
  | sweep (readings : List Int)
  | selftest (t : SelfTest)
  | flushed (records : Nat)
  deriving DecidableEq, Repr

/-! ### The commands -/

/-- The commands of the block, one constructor per row of spec/opcode_table.json. -/
inductive Instr where
  /-- FRAME_RECEIVE (R30). A received host Ethernet frame is checked in the order of Table 02-2 and is dropped, answered as neighbour traffic, or delivered to a transport engine. -/
  | frameReceive (port : Nat) (f : EthFrame)
  /-- PFC_RECEIVE (R34). A received PFC frame pauses the classes it names for the quanta given. -/
  | pfcReceive (port : Nat) (classes : BitVec 8) (pause : PfcPause)
  /-- PFC_PAUSE_EXPIRE (R34). The pause timer of a class expires and the class is released. -/
  | pfcPauseExpire (port : Nat) (cls : Nat)
  /-- PFC_XOFF_REPEAT (R35). 32,768 quanta pass while the XOFF condition still holds, and the XOFF is repeated. -/
  | pfcXoffRepeat (port : Nat) (cls : Nat)
  /-- FRAME_TRANSMIT (R32). A port begins transmitting a queued frame, tagged with its VID and PCP, once its class is not paused. -/
  | frameTransmit (port : Nat)
  /-- TRAIN_TIMEOUT (R28). A port has not reached LINK_UP within 3 s of starting negotiation or training, so the attempt restarts and TRAIN_FAIL counts. -/
  | trainTimeout (port : Nat)
  /-- PORT_LINK_UP (R46). A host port completes link training and comes up without taking connections back. -/
  | portLinkUp (port : Nat)
  /-- PORT_DOWN (R43). Loss of signal, block lock or alignment on a lane takes the port down, and sampler event PORT_DOWN is raised. -/
  | portDown (port : Nat) (lanes : LaneLoss)
  /-- ETH_PORT_CFG_WRITE (R47). A write to ETH_PORT_CFG changes port settings, or is ignored with CFG_IGNORED while ENABLE is 1. -/
  | ethPortCfgWrite (path : Path) (port : Nat) (value : Word)
  /-- PORT_ADMIN_DOWN (R47). After ENABLE is cleared, the port goes down at the next frame boundary with cause ADMIN. -/
  | portAdminDown (port : Nat)
  /-- OPEN (R65). A host OPEN frame is checked and either accepted into HALF_OPEN or refused. -/
  | openRx (engine : Nat)
  /-- OPEN_TIMEOUT (R67). A HALF_OPEN connection receives no valid frame within OPEN_TIMEOUT and is released. -/
  | openTimeout (conn : Nat)
  /-- DATA_FRAME (R75). A transport engine takes or holds a host DATA frame and issues its stitches in order. -/
  | dataFrame (engine : Nat)
  /-- ACK_FRAME (R79). A host ACK frame updates DONE and ACK, releases credits and replay entries, and can complete CLOSING. -/
  | ackFrame (engine : Nat)
  /-- CLOSE (R70). A host CLOSE is accepted and the connection enters CLOSING. -/
  | close (engine : Nat)
  /-- CLOSE_ACK_SEND (R70). Once every earlier stitch has had its response sent, CLOSE_ACK is sent. -/
  | closeAckSend (conn : Nat)
  /-- CLOSE_LINGER_EXPIRE (R69). CLOSE_LINGER expires in CLOSING and the connection becomes FREE. -/
  | closeLingerExpire (conn : Nat)
  /-- RESET_RECEIVE (R71). A host RESET makes the connection FREE at once, and its responses are not sent. -/
  | resetReceive (engine : Nat)
  /-- IDLE_TIMEOUT (R73). No valid frame arrives for IDLE_TIMEOUT and the connection is reset. -/
  | idleTimeout (conn : Nat)
  /-- ACK_DELAY_EXPIRE (R78). ACK_DELAY passes after a SEQ-consuming host frame with nothing else sent, so an ACK frame is sent. -/
  | ackDelayExpire (conn : Nat)
  /-- COAL_WAIT_EXPIRE (R76). COAL_WAIT ends and the coalesced response frame is sent. -/
  | coalWaitExpire (conn : Nat)
  /-- STITCH_COMPLETE (R76). A stitch's execution completes, its response is built and queued, and stitches waiting on FENCE or FLUSH may begin. -/
  | stitchComplete (op : Nat)
  /-- NOTICE_RTO_EXPIRE (R88). The retransmission timer of an unacknowledged NOTICE frame expires and the frame is resent. -/
  | noticeRtoExpire (conn : Nat)
  /-- SHT_CONN_CTL_RESET (R91). A write of RESET to SHT_CONN_CTL resets the selected connection with reason ADMIN. -/
  | shtConnCtlReset (path : Path) (value : Word)
  /-- READ (R99). A READ stitch is checked and executed through the LLC, the DRAM tier or the medium. -/
  | read (op : Nat)
  /-- WRITE (R101). A WRITE stitch is checked and its sectors are written into the persistence domain. -/
  | write (op : Nat)
  /-- WRITE_WAIT_TIMEOUT (R189). A write stitch waiting at the dirty ceiling reaches WAIT_MAX and is refused with THROTTLED. -/
  | writeWaitTimeout (op : Nat)
  /-- FLUSH (R102). A FLUSH stitch acts as a barrier, completing after every earlier stitch of the connection. -/
  | flush (op : Nat)
  /-- FETCH_ADD (R103). ATOMIC FETCH_ADD adds the operand modulo 2^(8 × LENGTH) and returns the old value. -/
  | fetchAdd (op : Nat)
  /-- SWAP (R103). ATOMIC SWAP stores the operand and returns the old value. -/
  | swap (op : Nat)
  /-- CMP_SWAP (R104). ATOMIC CMP_SWAP stores the new value when memory equals the compare value, and reports whether it did. -/
  | cmpSwap (op : Nat)
  /-- FETCH_AND (R103). ATOMIC FETCH_AND stores memory AND operand and returns the old value. -/
  | fetchAnd (op : Nat)
  /-- FETCH_OR (R103). ATOMIC FETCH_OR stores memory OR operand and returns the old value. -/
  | fetchOr (op : Nat)
  /-- FETCH_XOR (R103). ATOMIC FETCH_XOR stores memory XOR operand and returns the old value. -/
  | fetchXor (op : Nat)
  /-- FETCH_MIN_S (R103). ATOMIC FETCH_MIN_S stores the signed minimum and returns the old value. -/
  | fetchMinS (op : Nat)
  /-- FETCH_MAX_S (R103). ATOMIC FETCH_MAX_S stores the signed maximum and returns the old value. -/
  | fetchMaxS (op : Nat)
  /-- FETCH_MIN_U (R103). ATOMIC FETCH_MIN_U stores the unsigned minimum and returns the old value. -/
  | fetchMinU (op : Nat)
  /-- FETCH_MAX_U (R103). ATOMIC FETCH_MAX_U stores the unsigned maximum and returns the old value. -/
  | fetchMaxU (op : Nat)
  /-- COPY (R105). A COPY stitch verifies the whole source, then writes the destination re-encrypted under its key. -/
  | copy (op : Nat)
  /-- FILL (R106). A FILL stitch writes the 8-byte pattern over the range. -/
  | fill (op : Nat)
  /-- REG_READ (R108). A REG read stitch reads LENGTH / 8 consecutive registers and stops at the first one refused. -/
  | regRead (op : Nat)
  /-- REG_WRITE (R108). A REG write stitch writes consecutive registers, stops at the first one refused, and journals each completed write. -/
  | regWrite (op : Nat)
  /-- CTR (R109). A CTR stitch reads performance counters within the grant's counter window. -/
  | ctr (op : Nat)
  /-- MBX (R110). An MBX stitch delivers one mailbox request segment and returns one response segment. -/
  | mbx (op : Nat)
  /-- FILET_SUBMIT_SCORE (R238). FILET_SUBMIT of KIND SCORE queues a job that returns one entry per column. -/
  | filetSubmitScore (op : Nat)
  /-- FILET_SUBMIT_TOPK (R238). FILET_SUBMIT of KIND TOPK queues a job that selects the K largest keys, optionally verified. -/
  | filetSubmitTopk (op : Nat)
  /-- FILET_SUBMIT_THRESHOLD (R238). FILET_SUBMIT of KIND THRESHOLD queues a job that returns the columns at or above the key limit. -/
  | filetSubmitThreshold (op : Nat)
  /-- FILET_RESULT_READ (R242). FILET_RESULT READ returns bytes of the result area, or the job's state before DONE. -/
  | filetResultRead (op : Nat)
  /-- FILET_RESULT_STATUS (R242). FILET_RESULT STATUS returns the job summary. -/
  | filetResultStatus (op : Nat)
  /-- FILET_RESULT_RELEASE (R242). FILET_RESULT RELEASE frees a job's result. -/
  | filetResultRelease (op : Nat)
  /-- FILET_RESULT_CANCEL (R242). FILET_RESULT CANCEL drops a job's remaining passes and marks the job CANCELLED. -/
  | filetResultCancel (op : Nat)
  /-- REGION_CREATE (R124). The REGION_CREATE command creates a region and places its panels. -/
  | regionCreate (m : Nat)
  /-- REGION_DELETE (R125). The REGION_DELETE command removes a region from every grant and clears its panels. -/
  | regionDelete (m : Nat)
  /-- REGION_LIST (R124). The REGION_LIST command returns region entries. -/
  | regionList (m : Nat)
  /-- GRANT_SET (R125). The GRANT_SET command creates or replaces a grant and may reset connections under it. -/
  | grantSet (m : Nat)
  /-- GRANT_DELETE (R125). The GRANT_DELETE command deletes a grant and resets its connections. -/
  | grantDelete (m : Nat)
  /-- GRANT_LIST (R124). The GRANT_LIST command returns one grant body. -/
  | grantList (m : Nat)
  /-- SENSE_COMPLETE (R159). A fragment sense returns, is decoded, and leads to a re-sense, an erasure or the rebuild of the line. -/
  | senseComplete (p : Nat) (f : Nat) (cells : List Int) (epochCells : List Int)
  /-- ROW_OPEN_TIMEOUT (R159). A slot row held open for 1 µs is released. -/
  | rowOpenTimeout (p : Nat) (f : Nat)
  /-- PROGRAM_COMPLETE (R140). A slot program ends after its pulses and passes or fails. -/
  | programComplete (p : Nat) (f : Nat) (outside : List Nat) (pulses : Nat)
  /-- EPOCH_PERIOD_END (R150). EPOCH_PERIOD ends and the advance of CURRENT starts, unless LIVE of the next label is still set. -/
  | epochPeriodEnd
  /-- EPOCH_RECHECK (R150). During an extension, the LIVE check is repeated every 1 s. -/
  | epochRecheck
  /-- WITNESS_PROGRAM_DONE (R150). The witness programs verify, the AGE entry is set, the advance is recorded, and CURRENT becomes the new label. -/
  | witnessProgramDone
  /-- LADDER_REFIT (R155). Every WITNESS_PERIOD, the AGE entry of each live label is refitted from witness sweeps. -/
  | ladderRefit (sweeps : List Sweep)
  /-- BAND_UPDATE (R147). Every 100 µs, each die's temperature estimate moves its band by at most one step. -/
  | bandUpdate
  /-- FLIT_CRC_FAIL (R164). A stack-port flit fails its CRC and is replayed. -/
  | flitCrcFail (stack : Nat) (same : Bool)
  /-- STACK_LINK_RETRAIN (R164). A stack link that is down is retrained every 1 s, and its dies may start to rejoin. -/
  | stackLinkRetrain (stack : Nat) (ok : Bool)
  /-- BAS_READ (R169). A read of STK_BAS_DATA fetches the BAS register at STK_BAS_ADDR and advances the address when AUTO_INC is set. -/
  | basRead (path : Path) (stack : Nat)
  /-- LINE_EVICT (R182). A line leaves the LLC and is placed in the DRAM tier, programmed to the medium, or dropped. -/
  | lineEvict (line : Nat)
  /-- MAPPING_FILL_DONE (R173). The zero fill of a new physical swatch completes and the pricking entry becomes MAPPED. -/
  | mappingFillDone (lsw : Nat)
  /-- HEAT_HALVE (R179). Every HEAT_HALF seconds, a walker halves the heat counters of every ledger entry. -/
  | heatHalve
  /-- LEVEL_PERIOD (R197). Every LEVEL_PERIOD, the free pool is re-sorted and leveling moves are started. -/
  | levelPeriod
  /-- MOVE_COPY_DONE (R192). All 512 lines of a move are copied, so the new pricking entry is programmed and the move switches. -/
  | moveCopyDone (slot : Nat) (bad : List Nat) (recopied : Nat)
  /-- MOVE_FINISH (R192). Reads on the source drain, and the ledger sets the destination MAPPED and the source FREE or RETIRED. -/
  | moveFinish (slot : Nat)
  /-- MOVE_TIMEOUT (R193). A move's map has not filled within MOVE_TIMEOUT, so the move is abandoned. -/
  | moveTimeout (slot : Nat) (copied : Nat)
  /-- TABLE_CHECKPOINT (R175). Every 60 s, ledger fields and the governor's day buckets are written to the table area. -/
  | tableCheckpoint
  /-- GOV_DAY_START (R201). A day bucket begins and the governor sets that day's allowance. -/
  | govDayStart
  /-- GOV_TOKEN_TICK (R201). Every 1 ms, the governor recomputes its rate and adds tokens. -/
  | govTokenTick
  /-- SLOW_GRACE_EXPIRE (R204). GRACE_MS after a NOTICE SLOW, a connection above its rate has its credit halved by NOTICE CREDIT. -/
  | slowGraceExpire (conn : Nat)
  /-- CREDIT_CUT_REPEAT (R498). While the excess lasts, the credit cut repeats on its period. -/
  | creditCutRepeat (conn : Nat)
  /-- GOV_RELEASE (R204). After 10 s without LIMITING, the device lifts SLOW and restores credit limits. -/
  | govRelease
  /-- HINT_SET (R213). The HINT_SET command sets the hint of the swatches in a range. -/
  | hintSet (m : Nat)
  /-- HINT_GET (R213). The HINT_GET command returns one hint per swatch. -/
  | hintGet (m : Nat)
  /-- WEAR_STATUS (R212). The WEAR_STATUS command returns wear and governor state. -/
  | wearStatus (m : Nat)
  /-- TIER_STATUS (R212). The TIER_STATUS command returns tier and dirty-ceiling state. -/
  | tierStatus (m : Nat)
  /-- SWATCH_RETIRE (R213). The SWATCH_RETIRE command starts the retirement of a physical swatch with cause ADMIN. -/
  | swatchRetire (m : Nat)
  /-- PASS_DONE (R226). A filet tile pass completes and is calibrated into column partial scores. -/
  | passDone (port : Nat) (codes : List (List Int)) (ok : Bool)
  /-- AUDIT (R229). Every AUDIT_PERIOD, each tile in use is audited against its shadow and its trims are updated. -/
  | audit (tile : Nat) (codes : List (List Int))
  /-- TILE_PROGRAM_DONE (R233). A tile program completes and the group switches to the new tiles, or a load progresses. -/
  | tileProgramDone (tile : Nat) (ok : Bool)
  /-- JOB_COMPLETE (R241). A filet job completes with its verification and results, and a pending response is sent. -/
  | jobComplete (job : Nat)
  /-- RESULT_HOLD_EXPIRE (R244). RESULT_HOLD passes after a job completes and its result is discarded. -/
  | resultHoldExpire (job : Nat)
  /-- MATRIX_LOAD (R251). The MATRIX_LOAD command creates a matrix and programs its tiles. -/
  | matrixLoad (m : Nat)
  /-- MATRIX_UNLOAD (R126). The MATRIX_UNLOAD command lets accepted jobs finish, then frees the matrix's tiles. -/
  | matrixUnload (m : Nat)
  /-- MATRIX_REFRESH (R232). The MATRIX_REFRESH command refreshes every group of a matrix. -/
  | matrixRefresh (m : Nat)
  /-- MATRIX_STATUS (R250). The MATRIX_STATUS command returns the state of a matrix. -/
  | matrixStatus (m : Nat)
  /-- MATRIX_LIST (R250). The MATRIX_LIST command returns matrix IDs. -/
  | matrixList (m : Nat)
  /-- FILET_STATUS (R250). The FILET_STATUS command returns tile and job counts for a device. -/
  | filetStatus (m : Nat)
  /-- TILE_RETURN (R235). The TILE_RETURN command returns a tile to service after an audit. -/
  | tileReturn (m : Nat)
  /-- HEARTBEAT (R262). A lace HEARTBEAT is received, which restarts the link's failure timer and carries hoop time and flags. -/
  | heartbeat (link : Nat) (f : LaceIn)
  /-- FORWARD (R271). A FORWARD route frame brings a stitch or segment to the holding device, with the PREPARE, COMMIT, ABORT or MIRROR flags. -/
  | forward (link : Nat) (f : LaceIn)
  /-- COMPLETE (R271). A COMPLETE route frame returns a stitch's response to the manager. -/
  | complete (link : Nat) (f : LaceIn)
  /-- ROUTE_ACK (R270). A ROUTE_ACK advances RACK and frees frames from the route store. -/
  | routeAck (link : Nat) (f : LaceIn)
  /-- DISCOVER (R266). A DISCOVER frame is received and answered with ANNOUNCE. -/
  | discover (link : Nat) (f : LaceIn)
  /-- ANNOUNCE (R289). An ANNOUNCE from a device is received for membership or rejoin. -/
  | announce (link : Nat) (f : LaceIn) (a : Announce)
  /-- CONTROL (R278). A CONTROL frame carries reports, LEAVE, epoch changes, directory sync or fork lists. -/
  | control (link : Nat) (f : LaceIn) (c : Control)
  /-- RESYNC (R290). A RESYNC frame delivers line images to a RESYNC copy, which becomes CURRENT when all its chunks are done. -/
  | resync (link : Nat) (f : LaceIn) (r : ResyncLine)
  /-- HEARTBEAT_SEND (R262). Every 2 µs, the device sends a HEARTBEAT on each up link. -/
  | heartbeatSend (link : Nat)
  /-- HEARTBEAT_TIMEOUT (R262). 6 µs pass with no heartbeat on a link, and the link is declared failed. -/
  | heartbeatTimeout (link : Nat)
  /-- LACE_LINK_LOSS (R262). A loss of signal, block lock or alignment fails a lace link within 4 µs. -/
  | laceLinkLoss (link : Nat)
  /-- LACE_LINK_TRAINED (R263). A lace link completes training and enters PROBATION. -/
  | laceLinkTrained (link : Nat)
  /-- PROBATION_END (R263). 1 ms of stable heartbeats makes a link UP and usable for routing. -/
  | probationEnd (link : Nat)
  /-- DISCOVER_WAIT_EXPIRE (R266). DISCOVER_WAIT ends, and the manager fixes membership, routes and directory, then sets ACCEPTING. -/
  | discoverWaitExpire
  /-- HANDOVER_GRACE_EXPIRE (R287). The handover grace passes, and the manager completes its stitches, resets its connections and passes the role. -/
  | handoverGraceExpire
  /-- SCHEDULE_RUN (R294). Hoop time reaches AT, and each present named device runs the scheduled action. -/
  | scheduleRun (id : Nat)
  /-- LCE_CFG_WRITE (R298). A write to LCE_CFG enables links or takes links down. -/
  | lceCfgWrite (path : Path) (value : Word)
  /-- HOOP_STATUS (R295). The HOOP_STATUS command returns hoop state. -/
  | hoopStatus (m : Nat)
  /-- MEMBER_LIST (R295). The MEMBER_LIST command returns member entries. -/
  | memberList (m : Nat)
  /-- PANEL_MAP (R295). The PANEL_MAP command returns panel placement for a region. -/
  | panelMap (m : Nat)
  /-- HOOP_FORM (R267). The HOOP_FORM command creates the member list from the devices that answered discovery. -/
  | hoopForm (m : Nat)
  /-- MEMBER_ADMIT (R267). The MEMBER_ADMIT command admits a STRANGER. -/
  | memberAdmit (m : Nat)
  /-- MEMBER_REMOVE (R279). The MEMBER_REMOVE command moves a member's panels away and removes the member. -/
  | memberRemove (m : Nat)
  /-- PANEL_RELEASE (R291). The PANEL_RELEASE command sets a LOST panel to NORMAL. -/
  | panelRelease (m : Nat)
  /-- HANDOVER (R287). The HANDOVER command starts moving the acting role to the standby. -/
  | handover (m : Nat)
  /-- SCHEDULE (R294). The SCHEDULE command arms an action at hoop time AT. -/
  | schedule (m : Nat)
  /-- SCHEDULE_CANCEL (R294). The SCHEDULE_CANCEL command cancels an armed schedule. -/
  | scheduleCancel (m : Nat)
  /-- SCHEDULE_STATUS (R295). The SCHEDULE_STATUS command returns a schedule's state and RAN. -/
  | scheduleStatus (m : Nat)
  /-- SCRUB_PASS_START (R306). Every PASS_PERIOD, a scrub pass starts, and BEHIND is set when the previous pass left lines. -/
  | scrubPassStart
  /-- SCRUB_PACE (R309). Every 1 s, the scrubber resets its pace. -/
  | scrubPace
  /-- SCRUB_VISIT (R308). The scrubber visits one line and re-programs or poisons it as R308 decides. -/
  | scrubVisit
  /-- DRAM_PATROL (R312). The DRAM patrol reads and corrects every codeword once per DRAM_PATROL. -/
  | dramPatrol (corrected : Nat) (bad : List Nat)
  /-- DIE_FAIL (R327). An SCR_DIE_CTL write with ACTION FAIL marks a die FAILED. -/
  | dieFail (path : Path) (value : Word)
  /-- DIE_RETURN (R316). An SCR_DIE_CTL write with ACTION RETURN starts the die check of a FAILED die. -/
  | dieReturn (path : Path) (value : Word)
  /-- DIE_CHECK_DONE (R316). A die check completes, and the die becomes REJOINING, or stays FAILED with DIE_REFUSED set. -/
  | dieCheckDone (d : Nat) (check : DieCheck)
  /-- RESILVER_SWATCH (R317). The resilver handles the next swatch of a REJOINING die and sets its resilver bit. -/
  | resilverSwatch (bad : List Nat)
  /-- DRAM_ACCESS_DONE (R375). A DRAM burst completes and its codewords decode as clean, corrected, erasure or uncorrectable. -/
  | dramAccessDone (t : DramTarget) (codeword : Nat) (out : BurstOutcome)
  /-- CHANNEL_PROBE_DONE (R319). The probe ends, a failing channel is erased and the held accesses are decoded again. -/
  | channelProbeDone (group : Nat) (failed : List Nat)
  /-- CHANNEL_ERASE (R327). An SCR_DRAM_CTL write with ACTION ERASE marks a channel erased. -/
  | channelErase (path : Path) (value : Word)
  /-- CHANNEL_RETURN (R322). An SCR_DRAM_CTL write with ACTION RETURN starts the return and re-fill of an erased channel. -/
  | channelReturn (path : Path) (value : Word)
  /-- REFILL_DONE (R322). The refill pointer passes the last codeword, so ERASED clears and CHANNEL_RETURNED is raised. -/
  | refillDone
  /-- DRAM_PAUSE (R366). A group's retraining pause runs every 64 ms. -/
  | dramPause (group : Nat) (retrained : List Nat) (failed : List Nat)
  /-- IDLE_FILL_DONE (R373). The refill of DRAM segments 1 to 7 after IDLE completes. -/
  | idleFillDone
  /-- LLC_CFG_WRITE (R334). A write to LLC_CFG changes WAYS_OFF and starts cleaning or returning ways. -/
  | llcCfgWrite (path : Path) (value : Word)
  /-- WAY_CLEAN_DONE (R334). A way finishes cleaning and is powered down or disabled. -/
  | wayCleanDone (slice : Nat) (w : Nat)
  /-- WAY_JOIN_DONE (R335). The way-join barrier completes and the JOINING way becomes ON. -/
  | wayJoinDone (slice : Nat) (w : Nat)
  /-- WAY_LOCK (R337). An LLC_WAY_CTL write with ACTION LOCK locks a way. -/
  | wayLock (path : Path) (value : Word)
  /-- WAY_UNLOCK (R337). An LLC_WAY_CTL write with ACTION UNLOCK unlocks a way and leaves its lines in place. -/
  | wayUnlock (path : Path) (value : Word)
  /-- WAY_RETURN (R336). An LLC_WAY_CTL write with ACTION RETURN starts the pattern test of a disabled way. -/
  | wayReturn (path : Path) (value : Word)
  /-- WAY_DISABLE (R336). An LLC_WAY_CTL write with ACTION DISABLE cleans and disables a way. -/
  | wayDisable (path : Path) (value : Word)
  /-- WAY_TEST_DONE (R336). The pattern test ends, and the way goes JOINING, or stays DISABLED with RETURN_REFUSED set. -/
  | wayTestDone (slice : Nat) (w : Nat) (ok : Bool)
  /-- RD_SHARED (R342). An RD_SHARED message asks the home for a readable copy of a line. -/
  | rdShared (agent : Nat) (line : Nat)
  /-- RD_OWN (R342). An RD_OWN message asks the home for E with data. -/
  | rdOwn (agent : Nat) (line : Nat)
  /-- OWN_NODATA (R342). An OWN_NODATA message asks the home for E without data. -/
  | ownNodata (agent : Nat) (line : Nat)
  /-- UPGRADE (R342). An UPGRADE message asks the home to turn S into E. -/
  | upgrade (agent : Nat) (line : Nat)
  /-- WB (R346). A WB message writes back M or O data to the home. -/
  | wb (agent : Nat) (line : Nat) (data : LineBits)
  /-- EVICT_CLEAN (R341). An EVICT_CLEAN message reports that an agent drops S or E. -/
  | evictClean (agent : Nat) (line : Nat)
  /-- WR (R343). A WR message makes the home write sectors under exclusive ownership, marking them VALID and DIRTY. -/
  | wr (agent : Nat) (line : Nat) (mask : BitVec 4) (data : LineBits)
  /-- ATOM (R345). An ATOM message makes the home run an atomic in one transaction. -/
  | atom (agent : Nat) (line : Nat) (f : Nat) (off : Nat) (len : Nat) (operand : Nat) (cmp : Nat)
  /-- WHINT (R344). A WHINT message makes the home write the line and offer it to a target agent. -/
  | whint (agent : Nat) (line : Nat) (mask : BitVec 4) (data : LineBits) (target : Option Nat)
  /-- SNP_SHARE (R341). An SNP_SHARE message makes the owner forward data and keep a shared copy. -/
  | snpShare (agent : Nat) (line : Nat) (wrote : Option LineBits)
  /-- SNP_OWN (R341). An SNP_OWN message makes the owner forward data and go I. -/
  | snpOwn (agent : Nat) (line : Nat) (wrote : Option LineBits)
  /-- SNP_INV (R341). An SNP_INV message makes a holder go I, returning dirty data. -/
  | snpInv (agent : Nat) (line : Nat) (wrote : Option LineBits)
  /-- FWD_DATA (R341). An FWD_DATA message delivers a forwarded line to the requester. -/
  | fwdData (agent : Nat) (line : Nat)
  /-- GRANT (R341). A GRANT message gives the requester data and state from the home. -/
  | grant (agent : Nat) (line : Nat)
  /-- ACK (R341). An ACK message reports to the home that a snoop is done. -/
  | ack (agent : Nat) (line : Nat)
  /-- EVICTING (R347). An EVICTING answer makes the home take the data from the in-flight WB. -/
  | evicting (agent : Nat) (line : Nat)
  /-- PUSH (R344). A PUSH message offers a write-hint copy in E to the target, which may decline. -/
  | push (agent : Nat) (line : Nat)
  /-- SNOOP_TIMEOUT (R350). An agent does not answer a snoop within SNOOP_TIMEOUT. -/
  | snoopTimeout (agent : Nat) (line : Nat)
  /-- SALVAGE_WALK_DONE (R351). The salvage walker has written every dirty sector out, and agents and caches are reset. -/
  | salvageWalkDone
  /-- DOMAIN_UP (R351). The firmware warm restart ends, the domain is UP and the device rejoins, or it enters HELD after a second failure. -/
  | domainUp
  /-- CLEAN (R349). Maintenance operation CLEAN writes the dirty lines in range to the tier below. -/
  | clean (path : Path) (value : Word)
  /-- CLEAN_INV (R349). Maintenance operation CLEAN_INV cleans, then invalidates, the range. -/
  | cleanInv (path : Path) (value : Word)
  /-- DISCARD (R349). Maintenance operation DISCARD invalidates without writing, or is refused for a user range. -/
  | discard (path : Path) (value : Word)
  /-- LOCK_FILL (R337). Maintenance operation LOCK_FILL fills the range into locked ways. -/
  | lockFill (path : Path) (value : Word)
  /-- MAINT_DONE (R349). A maintenance operation completes and DONE is set. -/
  | maintDone
  /-- PACKET_START (R384). A BOB_PUSH_HDR write starts a packet, which reserves cells or is refused. -/
  | packetStart (core : Nat) (value : Word)
  /-- PUSH_DATA (R385). A BOB_PUSH_DATA write stores one word of a packet. -/
  | pushData (core : Nat) (value : Word)
  /-- POP (R386). A read of BOB_POP returns the next word and frees cells as they empty. -/
  | pop (core : Nat) (out : CellOutcome)
  /-- DROP (R387). A BOB_POP_CTL DROP discards the packet that has been begun, or the oldest one. -/
  | drop (core : Nat) (value : Word)
  /-- BOBBIN_RESET (R392). A BOB_DESC_CTL RESET starts the sweep that frees a bobbin's cells. -/
  | bobbinReset (path : Path) (value : Word)
  /-- BOBBIN_RESET_DONE (R392). The sweep ends and the bobbin is DISABLED with empty counts. -/
  | bobbinResetDone (bob : Nat)
  /-- STALE_TAIL_EXPIRE (R390). A non-empty bobbin goes STALE_TIME without a pop, so STALE_PEND is set and the HKP is interrupted. -/
  | staleTailExpire (bob : Nat)
  /-- BOB_MODE_WRITE (R389). A write to BOB_MODE changes the manager mode and arms level or stale warnings. -/
  | bobModeWrite (path : Path) (value : Word)
  /-- KEY_LOAD (R401). The KEY_LOAD command unwraps and loads a tenant key version. -/
  | keyLoad (m : Nat)
  /-- KEY_ERASE (R403). The KEY_ERASE command clears both versions and KCVs of a key ID. -/
  | keyErase (m : Nat)
  /-- KEY_STATUS (R430). The KEY_STATUS command returns a key slot's state. -/
  | keyStatus (m : Nat)
  /-- KEY_ROTATE (R418). The KEY_ROTATE command loads the new version and starts the rekey walker. -/
  | keyRotate (m : Nat)
  /-- KEY_UNLOCK (R429). The KEY_UNLOCK command clears a lockdown and restarts the window. -/
  | keyUnlock (m : Nat)
  /-- MACSEC_SA_INSTALL (R427). The MACSEC_SA_INSTALL command installs a MACsec SA. -/
  | macsecSaInstall (m : Nat)
  /-- MACSEC_SA_DELETE (R427). The MACSEC_SA_DELETE command deletes an SA. -/
  | macsecSaDelete (m : Nat)
  /-- MACSEC_TX_ACTIVATE (R426). The MACSEC_TX_ACTIVATE command activates a transmit SA from the next frame boundary. -/
  | macsecTxActivate (m : Nat)
  /-- MACSEC_SA_STATUS (R430). The MACSEC_SA_STATUS command returns an SA's state. -/
  | macsecSaStatus (m : Nat)
  /-- JTAG_UNLOCK (R425). The JTAG_UNLOCK command unlocks a JTAG scope. -/
  | jtagUnlock (m : Nat)
  /-- JTAG_LOCK (R425). The JTAG_LOCK command locks JTAG. -/
  | jtagLock (m : Nat)
  /-- JTAG_NONCE_READ (R425). A read of UNLOCK_NONCE returns a fresh nonce. -/
  | jtagNonceRead
  /-- JTAG_UNLOCK_SIG (R425). A write to UNLOCK_SIG checks the signature and opens a scope, or counts a failure. -/
  | jtagUnlockSig (scope : Nat) (key : Nat) (sig : List Byte)
  /-- JTAG_CLOSE_EXPIRE (R425). The 60 s closure after three failed signatures ends. -/
  | jtagCloseExpire
  /-- DMA_REFUSED (R423). A JTAG memory or HKP DMA access to a key ID other than 0 is refused and journaled. -/
  | dmaRefused (master : Nat) (addr : Nat)
  /-- REKEY_NODE (R419). The rekey walker converts one L0 node to the new key version and advances the selvedge. -/
  | rekeyNode
  /-- SELVEDGE_CHECKPOINT (R421). Every 1 s, the selvedge is checkpointed in the table area. -/
  | selvedgeCheckpoint
  /-- NOTICE_GAP_END (R428). A NOTICE_GAP ends and one NOTICE ALARM carries the latest alarm that fell inside it. -/
  | noticeGapEnd (conn : Nat) (code : Nat) (keyId : Nat)
  /-- MBX_POLL (R438). A POLL, or SMBus NEXT, returns PENDING or the next response segment. -/
  | mbxPoll (via : MbxVia)
  /-- MBX_ABORT (R440). An ABORT returns the mailbox to IDLE and discards what it holds, except while BUSY. -/
  | mbxAbort (via : MbxVia)
  /-- MBX_EARLY_EXPIRE (R438). MBX_EARLY passes with the command still running, so PENDING is answered. -/
  | mbxEarlyExpire (m : Nat)
  /-- MBX_TIMEOUT (R436). MBX_TIMEOUT passes without the owner, so the mailbox returns to IDLE. -/
  | mbxTimeout (m : Nat)
  /-- MBX_COMMAND_DONE (R438). A long-running mailbox command completes and its response is held in DONE. -/
  | mbxCommandDone (m : Nat)
  /-- IDENTITY (R451). The IDENTITY command returns the serial number, part and firmware identity. -/
  | identity (m : Nat)
  /-- DEVICE_STATUS (R451). The DEVICE_STATUS command returns power state, alerts and the time stamp. -/
  | deviceStatus (m : Nat)
  /-- NONCE_GET (R449). The NONCE_GET command returns a fresh signing nonce for the mailbox. -/
  | nonceGet (m : Nat)
  /-- CERT_GET (R451). The CERT_GET command returns the identity key and certificate chain. -/
  | certGet (m : Nat)
  /-- PROVISION_LOCK (R450). The PROVISION_LOCK command ends the factory state for good. -/
  | provisionLock (m : Nat)
  /-- ADMIN_KEY_SET (R450). The ADMIN_KEY_SET command installs or clears an admin key. -/
  | adminKeySet (m : Nat)
  /-- ADMIN_KEY_LIST (R451). The ADMIN_KEY_LIST command lists the admin keys. -/
  | adminKeyList (m : Nat)
  /-- CONSOLE_UNLOCK (R445). The CONSOLE_UNLOCK command unlocks the console. -/
  | consoleUnlock (m : Nat)
  /-- CONSOLE_LOCK (R445). The CONSOLE_LOCK command locks the console. -/
  | consoleLock (m : Nat)
  /-- CONSOLE_LINE (R445). An unlocked console accepts a diagnostic line. -/
  | consoleLine (line : List Byte)
  /-- CONSOLE_TIMEOUT (R445). 30 min without input locks the console. -/
  | consoleTimeout
  /-- SIG_CLOSE_EXPIRE (R449). The 60 s SIG_CLOSED period ends. -/
  | sigCloseExpire
  /-- MBX_SEL (R442). The SMBus MBX_SEL command selects a mailbox, buffer and offset. -/
  | mbxSel (mailbox : Nat) (buffer : Nat) (offset : Nat) (pecOk : Bool)
  /-- MBX_DATA_WRITE (R442). An SMBus MBX_DATA write stores request bytes and may claim an IDLE mailbox. -/
  | mbxDataWrite (bytes : List Byte) (pecOk : Bool)
  /-- MBX_DATA_READ (R442). An SMBus MBX_DATA read returns response bytes and delivers a segment at its end. -/
  | mbxDataRead (n : Nat)
  /-- MBX_SUBMIT (R442). An SMBus MBX_DOORBELL SUBMIT submits the segment in the request buffer. -/
  | mbxSubmit (pecOk : Bool)
  /-- MBX_STATE (R442). An SMBus MBX_STATE read returns the mailbox state and flags. -/
  | mbxState
  /-- REG_ADDR (R442). The SMBus REG_ADDR command sets the register offset. -/
  | regAddr (off : Nat) (pecOk : Bool)
  /-- REG_DATA_WRITE (R443). An SMBus REG_DATA write writes a register and advances the offset by 8. -/
  | regDataWrite (value : Word) (pecOk : Bool)
  /-- REG_DATA_READ (R443). An SMBus REG_DATA read reads a register, even in STANDBY for permitted blocks, and advances the offset. -/
  | regDataRead
  /-- REG_STATUS (R442). An SMBus REG_STATUS read returns the status of the latest REG_DATA access. -/
  | regStatus
  /-- ALERT_CAUSE (R442). An SMBus ALERT_CAUSE read returns ALERT_CAUSES. -/
  | alertCause
  /-- ALERT_RESPONSE (R444). The device answers the SMBus Alert Response Address with its own address while it holds ALERT_N. -/
  | alertResponse
  /-- SMBUS_TIMEOUT (R573). SCL stays low for more than 35 ms, so the transaction is abandoned. -/
  | smbusTimeout
  /-- KEEP_PAGE_WRITE_DONE (R453). A keep page write seals, and the next queued page write begins. -/
  | keepPageWriteDone
  /-- OPERATING_TIME_SLOT (R457). At each 6-minute point of operating time, the time stamp is written to the next slot pair. -/
  | operatingTimeSlot
  /-- REGISTER_WRITE (R550). A write to a register without a row of its own is applied, checked and journaled, or acknowledges status. -/
  | registerWrite (path : Path) (off : Nat) (value : Word)
  /-- FWP_WRITE (R554). A write to a firmware parameter is checked by the firmware and stored in the settings store. -/
  | fwpWrite (path : Path) (idx : Nat) (value : Word)
  /-- PMC_VALUE_READ (R538). A read of PMC_VALUE returns a counter and its island time, and updates PMC_LAST_TIME. -/
  | pmcValueRead (path : Path) (idx : Nat)
  /-- RAIL_FAULT (R486). A rail has been out of its window or without power-good for 10 µs, so a fault is recorded and a local sequence starts. -/
  | railFault (rail : Nat)
  /-- STEP_WORK_DONE (R477). A device finishes its work in a sequencer step and releases SEQSYNC. -/
  | stepWorkDone (out : StepOut)
  /-- SEQ_ADVANCE (R477). SEQSYNC has been high for 10 µs, so every device of the group advances to the next step. -/
  | seqAdvance
  /-- STEP_TIMEOUT (R477). SEQSYNC is still low at the step timeout, so the device aborts with a local sequence. -/
  | stepTimeout
  /-- SEQ_REST_LEAVE (R479). SEQSYNC has been low for 5 µs in a rest step, so the device advances from 12 or 0. -/
  | seqRestLeave
  /-- OFF_TIME_END (R479). The 50 ms minimum off time at step 0 ends and SEQSYNC is heeded again. -/
  | offTimeEnd
  /-- RAIL_DOWN_NEXT (R475). The previous rail falls below 10 % or 20 ms pass, so the next EN output is driven low. -/
  | railDownNext
  /-- PB_RELEASE (R480). A PB_N press of 50 ms to 4 s is released and acts as an on or off request. -/
  | pbRelease (held : Nat)
  /-- PB_FORCED_OFF (R480). A PB_N press reaches 8 s and acts as a forced off. -/
  | pbForcedOff
  /-- MRST (R481). MRST_N held low for 1 ms acts as a forced off and an on request, or resets the management island in STANDBY. -/
  | mrst
  /-- HOLD_SAVE (R488). HOLD_N has been low for 2 µs, so the hold-up save flushes dirty data to the save area. -/
  | holdSave
  /-- HOLD_RISE (R482). HOLD_N rises, and the running sequence continues to step 0. -/
  | holdRise
  /-- QUIESCE_GRACE_EXPIRE (R483). QUIESCE_GRACE ends, and new stitches are refused with UNAVAILABLE. -/
  | quiesceGraceExpire
  /-- AUTO_RESTART (R485). 200 ms after step 0 is reached from a hold-up save, the device makes an on request. -/
  | autoRestart
  /-- VSTBY_LOSS (R490). VSTBY is lost and the device goes OFF. -/
  | vstbyLoss (saved : Nat)
  /-- VSTBY_ON (R553). VSTBY enters its window, so POR registers reset and the device enters STANDBY. -/
  | vstbyOn
  /-- IDLE_AFTER_EXPIRE (R491). IDLE_AFTER seconds pass without a stitch or filet job, and the device enters IDLE. -/
  | idleAfterExpire
  /-- CAP_CONTROL_TICK (R493). Every 10 ms, package power is compared with the cap and L_cap is adjusted. -/
  | capControlTick (power : Nat) (mean : Nat) (rails : List (Nat × Nat))
  /-- THERMAL_LEVEL_TICK (R497). Every 100 ms, L_th rises or falls, and throttling and NOTICE SLOW follow. -/
  | thermalLevelTick
  /-- THERMAL_MODEL_UPDATE (R494). Every 100 µs, the thermal model updates each point and rates and limits are checked. -/
  | thermalModelUpdate (model : List Int)
  /-- SENSOR_SWEEP (R495). A periodic sweep of all 30 sensors starts. -/
  | sensorSweep
  /-- SWEEP_DONE (R495). A sweep completes and the model is corrected to the readings. -/
  | sweepDone (readings : List Int)
  /-- THM_SWEEP_START (R495). A write of START to THM_SWEEP requests a sweep. -/
  | thmSweepStart (path : Path) (value : Word)
  /-- HOLDUP_TEST_END (R487). The hold-up test load stops at 50 ms or 0.9 × v1 and T_h is computed. -/
  | holdupTestEnd (test : HoldTest)
  /-- POWER_STATUS (R501). The POWER_STATUS command returns power state and measurements. -/
  | powerStatus (m : Nat)
  /-- POWER_MODE_SET_FULL (R490). POWER_MODE_SET with MODE FULL selects the full data path. -/
  | powerModeSetFull (m : Nat)
  /-- POWER_MODE_SET_ECONOMY (R493). POWER_MODE_SET with MODE ECONOMY applies ECON_WAYS and the power cap. -/
  | powerModeSetEconomy (m : Nat)
  /-- POWER_MODE_SET_IDLE (R491). POWER_MODE_SET with MODE IDLE puts the device in IDLE. -/
  | powerModeSetIdle (m : Nat)
  /-- POWER_CAP_SET (R493). The POWER_CAP_SET command sets or clears the power cap. -/
  | powerCapSet (m : Nat)
  /-- SHUTDOWN_ORDERLY (R482). SHUTDOWN with KIND ORDERLY acts as an orderly off request. -/
  | shutdownOrderly (m : Nat)
  /-- SHUTDOWN_FORCED (R482). SHUTDOWN with KIND FORCED acts as a forced off. -/
  | shutdownForced (m : Nat)
  /-- SHUTDOWN_RESTART (R482). SHUTDOWN with KIND RESTART acts as an orderly off followed by an on request. -/
  | shutdownRestart (m : Nat)
  /-- THERMAL_STATUS (R501). The THERMAL_STATUS command returns temperatures and throttle state. -/
  | thermalStatus (m : Nat)
  /-- THERMAL_SWEEP (R501). The THERMAL_SWEEP command runs a sweep and returns its readings. -/
  | thermalSweep (m : Nat)
  /-- THROTTLE_SET (R501). The THROTTLE_SET command writes THM_CFG. -/
  | throttleSet (m : Nat)
  /-- HOLDUP_STATUS (R501). The HOLDUP_STATUS command returns the hold-up measurement. -/
  | holdupStatus (m : Nat)
  /-- BOOT_LOAD (R505). The boot ROM loads and checks the slot the update record names, falling back or entering ROM recovery. -/
  | bootLoad (copiesA : List Bool) (copiesB : List Bool) (alive : Bool)
  /-- HKP_RESTART (R433). An unplanned HKP restart, from a memory error or the watchdog, pauses firmware service. -/
  | hkpRestart (cause : Nat)
  /-- LIVE_SWAP_BUSY_TIMEOUT (R520). A command is still BUSY 1 s into a live swap, so the activation ends with UNAVAILABLE. -/
  | liveSwapBusyTimeout
  /-- BOOT_OK_TIMEOUT (R520). The new firmware has not written BOOT_OK within 1.5 s, so the ROM loads RUNNING_SLOT with cause LIVE_FAIL. -/
  | bootOkTimeout
  /-- CONFIRM_TIMEOUT (R524). The pending slot runs 72 h unconfirmed, so the device swaps back with cause TIMEOUT. -/
  | confirmTimeout
  /-- FW_STATUS (R526). The FW_STATUS command returns update state. -/
  | fwStatus (m : Nat)
  /-- FW_DOWNLOAD (R516). The FW_DOWNLOAD command writes package bytes into staging. -/
  | fwDownload (m : Nat)
  /-- FW_VERIFY (R517). The FW_VERIFY command verifies the staged package. -/
  | fwVerify (m : Nat)
  /-- FW_ACTIVATE_LIVE (R520). FW_ACTIVATE with MODE LIVE copies the package, seals PENDING and runs a live swap. -/
  | fwActivateLive (m : Nat)
  /-- FW_ACTIVATE_RESTART (R518). FW_ACTIVATE with MODE RESTART seals PENDING, then runs an orderly off and an on request. -/
  | fwActivateRestart (m : Nat)
  /-- FW_ACTIVATE_NEXT_START (R518). FW_ACTIVATE with MODE NEXT_START seals PENDING for the next start. -/
  | fwActivateNextStart (m : Nat)
  /-- FW_CONFIRM (R522). The FW_CONFIRM command commits the pending slot and raises SVN_FLOOR. -/
  | fwConfirm (m : Nat)
  /-- FW_DISCARD (R524). The FW_DISCARD command discards staging, or falls back from the pending slot. -/
  | fwDiscard (m : Nat)
  /-- SELFTEST_REPORT (R526). The SELFTEST_REPORT command returns the self-test results. -/
  | selftestReport (m : Nat)
  /-- RETEST (R511). The RETEST command reruns items 2 to 10 in HELD and may continue to SERVICE. -/
  | retest (m : Nat) (t : SelfTest) (test : HoldTest)
  /-- DIAG_RUN (R527). The DIAG_RUN command starts one diagnostic test. -/
  | diagRun (m : Nat)
  /-- DIAG_DONE (R527). A diagnostic test completes and its result is held. -/
  | diagDone (ok : Bool) (detail : Nat)
  /-- DIAG_RESULT (R527). The DIAG_RESULT command returns a test's state and result. -/
  | diagResult (m : Nat)
  /-- KEEP_STATUS (R469). The KEEP_STATUS command returns the keep and journal status registers. -/
  | keepStatus (m : Nat)
  /-- KEEP_WEAR_LIST (R465). The KEEP_WEAR_LIST command returns the write counts of keep registers. -/
  | keepWearList (m : Nat)
  /-- SAMPLER_OCCURRENCE (R534). A sampler occurrence enters the keep island, updates its record and may commit it. -/
  | samplerOccurrence (island : Nat)
  /-- SAMPLER_GAP_EXPIRE (R534). GAP elapses for a record with waiting occurrences and a deferred commit is made. -/
  | samplerGapExpire (slot : Nat)
  /-- SAMPLER_READ (R544). The SAMPLER_READ command returns matching records. -/
  | samplerRead (m : Nat)
  /-- SAMPLER_CLEAR (R537). The SAMPLER_CLEAR command clears every record and writes SAMPLER_CLEARED. -/
  | samplerClear (m : Nat)
  /-- JOURNAL_READ (R545). The JOURNAL_READ command returns journal entries. -/
  | journalRead (m : Nat)
  /-- JOURNAL_ARCHIVE (R467). The JOURNAL_ARCHIVE command frees entries whose digest matches. -/
  | journalArchive (m : Nat)
  /-- COUNTER_READ (R545). The COUNTER_READ command returns counters, or pops sample records. -/
  | counterRead (m : Nat)
  /-- SAMPLING_SET (R545). The SAMPLING_SET command configures request sampling. -/
  | samplingSet (m : Nat)
  /-- STACK_LINK_TRAINING_LOSS (R164). A stack-port link loses its link training, is declared down, and every die of its stack becomes FAILED. -/
  | stackLinkTrainingLoss (stack : Nat)
  /-- ROUTE_ACK_SEND (R270). When no route frame has carried RACK back within 2 µs of taking a route frame, the destination sends a ROUTE_ACK. -/
  | routeAckSend (dev : Nat)
  /-- RESYNC_SEND (R290). Paced at RESYNC_SHARE of medium read bandwidth, the source of a resync reads the next line image of a chunk and sends it in a RESYNC frame. -/
  | resyncSend (panel : Nat)
  /-- REFRESH_AGE (R232). The tiles of a column group reach REFRESH_AGE of operating time since programming, and an auto-refresh of the group starts. -/
  | refreshAge (matrix : Nat) (group : Nat)
  deriving DecidableEq, Repr

end Sys2Proof
end

