-- ==== Sys2Proof/Decode.lean ====
section
/-!
DEFINITION. The commands that the table's words spell: no row of spec/opcode_table.json gives bits, so no word spells one.
-/
namespace Sys2Proof

/-- The command a word spells by the table's bits: none, since no row gives any. -/
def decodeTableWord (_nbits _w : Nat) : Option Instr := none

end Sys2Proof
end

