-- ==== Sys2Proof/Config.lean ====
section
/-!
DEFINITION. What one part fixes and the spec leaves open or names by reference: the free values (R66 and the entries of the
assumption log), and the standard cryptographic functions that the spec names and does not restate (AES-256, GHASH, SHA-384,
HKDF, ECDSA, ECDH, AES key wrap). Each is opaque: it has no body, so no proof can see a value of it.
-/
namespace Sys2Proof

/-- An error that the code of a store finds in a word of it (Table 09-1), where no command of its own reports it: in the LLC's data, or in its
directory; in an agent's cache or on a coherence message (R350); in the tree (Table 13-6); in a table entry, a filet result, a frame of a
route store or an entry of the operation table (Table 09-2); in the keep (R452). -/
inductive StoreFault where
  | llcCorrected (slice way : Nat)
  | llcWord (line sector : Nat)
  | directory
  | agent (n : Nat)
  | message (agent : Nat)
  | treeCorrected
  | treeWord (level node word : Nat)
  | rootCopy
  | nodeCopy
  | nodeCopies (level node : Nat)
  | nodeUnreadable (node : Nat)
  | pricking (swatch : Nat) (readable : Bool)
  | ledger (swatch : Nat) (readable : Bool)
  | result (job : Nat)
  | routeFrame (dev : Nat)
  | opEntry (op : Nat)
  | keepGroup (corrected : Bool)
  deriving DecidableEq, Repr

namespace Config

/-- The error that a store's code finds in microsecond number `n` of a run, if there is one: nothing constrains it (R300, R301; log entry 23). -/
opaque storeFault : Nat → Option StoreFault

/-- Free value number `n` of a run: nothing constrains it (log entry 2). -/
opaque free64 : Nat → BitVec 64

/-- Free value number `n` of 256 bits, for nonces and drawn keys (log entry 2). -/
opaque free256 : Nat → BitVec 256

/-- The byte `i` that free value `n` gives for data the spec leaves without a defined value (R99; log entry 2). -/
opaque freeByte : Nat → Nat → Byte

/-- Where island `i` counts device tick `t`: 0 for a tick early, 1 for on time, 2 for a tick late (R16; log entry 154). -/
opaque islandSkew : (island tick : Nat) → BitVec 2

/-- AES-256 encryption of one block (R404). -/
opaque aes256 : BitVec 256 → BitVec 128 → BitVec 128

/-- GHASH of NIST SP 800-38D under hash key `h` (R405). -/
opaque ghash : BitVec 128 → List (BitVec 128) → BitVec 128

/-- SHA-384 of a byte string (R448, R464, R467), as 48 bytes. -/
opaque sha384 : List Byte → List Byte

/-- HKDF-SHA-384 of RFC 5869: input key material, salt, info, output length in bytes (R399). -/
opaque hkdf384 : List Byte → List Byte → List Byte → Nat → List Byte

/-- HMAC-SHA-384 under a key (R399). -/
opaque hmac384 : List Byte → List Byte → List Byte

/-- Does the ECDSA P-384 signature (r then s, 96 bytes) of the message verify under the 96-byte public key? (R425, R448) -/
opaque ecdsaOk : (key message signature : List Byte) → Bool

/-- The ECDH P-384 shared secret of the device's identity private key and a public key, `none` where the public key is not on
the curve (R400, R401). -/
opaque ecdh : List Byte → Option (List Byte)

/-- AES Key Wrap of RFC 3394, unwrapping under a 32-byte key; `none` where its integrity check fails (R400, R401). -/
opaque unwrap : List Byte → List Byte → Option (List Byte)

/-- The fused serial number (Table 18-6). -/
opaque serial : BitVec 64

/-- The identity public key (96 bytes) and DER certificate chain that CERT_GET returns (Table 14-5). -/
opaque identityCert : List Byte

/-- The device integrity key, created at provisioning and never exported (R395). -/
opaque integrityKey : BitVec 256

/-- NODE_TAG of a tree node (R408): the MAC under the device integrity key over bytes 0 to 55, its level and its index, masked with MAJOR
and MINOR of its parent; the spec does not say how they fill the blocks (log entry 173). -/
opaque nodeMac : (bytes : List Byte) → (level index parentMajor parentMinor : Nat) → BitVec 64

/-- The unicast MAC address provisioned for host port `p` (Table 02-3). -/
opaque provisionedMac : Nat → BitVec 48

/-- VERSION of the firmware a part is delivered with, in both slots (Table 16-5). -/
opaque factoryVersion : BitVec 32
/-- SVN of that firmware. -/
opaque factorySvn : BitVec 32
/-- SETTINGS_FORMAT of that firmware. -/
opaque factoryFormat : BitVec 16

/-- GLB_FWP_DESC of a firmware parameter, by the version of the firmware that runs (Table 18-9). -/
opaque fwpDesc : (version i : Nat) → BitVec 64
/-- GLB_FWP_MIN of a firmware parameter. -/
opaque fwpMin : (version i : Nat) → BitVec 64
/-- GLB_FWP_MAX of a firmware parameter. -/
opaque fwpMax : (version i : Nat) → BitVec 64
/-- The value of a firmware parameter that was never written. -/
opaque fwpDefault : (version i : Nat) → BitVec 64
/-- Can a settings format express a value of a firmware parameter (R523)? -/
opaque fwpFits : (format i : Nat) → BitVec 64 → Bool

/-- CAUSE and DETAIL of a self-test item's result, whose codes the spec does not list (R526). -/
opaque itemCause : (item kind : Nat) → BitVec 16
/-- DETAIL of a self-test item's result. -/
opaque itemDetail : (item kind : Nat) → BitVec 32

/-- The host ports that the firmware's settings enable at start-up, one bit per port (Table 02-5). -/
opaque portSettings : BitVec 8

/-- The values of SHT_CFG and SHT_CREDIT_CFG that the firmware's settings hold (R91). -/
opaque shtSettings : BitVec 64 × BitVec 64

/-- Trim revision of a stack base (BAS_ID). -/
opaque trimRevision : (stack : Nat) → BitVec 16

/-- The fused VDD_CORE target, mV (R472). -/
opaque coreTarget : BitVec 16

/-- The 56-bit threshold word of a die's ladder, by die, band and index, trimmed at manufacture (R146, Table 05-22). -/
opaque ladder : (die band index : Nat) → BitVec 56

/-- The 24-bit epoch ladder of a die and band (R146). -/
opaque epochLadder : (die band : Nat) → BitVec 24

/-- Spare slot rows a bank of a die starts with, about 534,000 or 546,000 (R129). -/
opaque spareRows : (die bank : Nat) → BitVec 20

/-- The free receive buffer of a lace link, in 256-byte units (LCREDIT, Table 08-2). -/
opaque laceBuffer : BitVec 16

/-- The payload length of the lace frame types whose layout the spec does not give, by LTYPE (log entry 30). -/
opaque laceLen : Nat → BitVec 13

end Config
end Sys2Proof
end

