-- ==== Sys2Proof/Machine/Sparse.lean ====
section
/-!
DEFINITION. Tables keyed by a number, held as lists of (key, value) pairs with keys strictly rising, so that equal
tables are equal data. Every keyed table of the state (registers, lines, connections, regions, …) is one of these.
-/
namespace Sys2Proof.Machine

/-- A table keyed by a number. -/
abbrev Table (α : Type) := List (Nat × α)

/-- The entry at key `k`. -/
def Table.find {α : Type} : Table α → Nat → Option α
  | [], _ => none
  | (j, v) :: t, k => if j = k then some v else Table.find t k

/-- The entry at key `k`, or `d` where the table lists none. -/
def Table.get {α : Type} (t : Table α) (k : Nat) (d : α) : α := (t.find k).getD d

/-- The table with `v` at key `k`. -/
def Table.put {α : Type} : Table α → Nat → α → Table α
  | [], k, v => [(k, v)]
  | (j, w) :: t, k, v =>
    if k < j then (k, v) :: (j, w) :: t
    else if k = j then (k, v) :: t
    else (j, w) :: Table.put t k v

/-- The table without key `k`. -/
def Table.drop {α : Type} : Table α → Nat → Table α
  | [], _ => []
  | (j, w) :: t, k => if j = k then t else (j, w) :: Table.drop t k

/-- The table with `v` at key `k`, listing nothing where `v` is what an unlisted key reads as. -/
def Table.set {α : Type} [DecidableEq α] (t : Table α) (k : Nat) (v d : α) : Table α :=
  if v = d then t.drop k else t.put k v

/-- The entry at `k`, if there is one, changed by `f`. -/
def Table.modify {α : Type} (t : Table α) (k : Nat) (f : α → α) : Table α :=
  match t.find k with
  | none => t
  | some v => t.put k (f v)

/-- Does the table list key `k`? -/
def Table.has {α : Type} (t : Table α) (k : Nat) : Bool := (t.find k).isSome

/-- The entries, without their keys. -/
def Table.values {α : Type} (t : Table α) : List α := t.map (·.2)

/-- The keys. -/
def Table.keys {α : Type} (t : Table α) : List Nat := t.map (·.1)

/-- Keys above `lo` and strictly rising. -/
def Table.risingFrom {α : Type} : Nat → Table α → Bool
  | _, [] => true
  | lo, (j, _) :: t => decide (lo ≤ j) && Table.risingFrom (j + 1) t

/-- The canonical form: keys strictly rising. -/
def Table.wf {α : Type} (t : Table α) : Bool := Table.risingFrom 0 t

/-- The canonical form of a table in which an unlisted key reads as `d`: keys strictly rising, no entry equal to `d`. -/
def Table.wfD {α : Type} [DecidableEq α] (t : Table α) (d : α) : Bool :=
  t.wf && t.all (fun e => !decide (e.2 = d))

/-- The lowest key from `lo` upward, below `lo + fuel`, that the table does not list. -/
def Table.firstFree {α : Type} (t : Table α) : Nat → Nat → Option Nat
  | _, 0 => none
  | lo, fuel + 1 => if t.has lo then Table.firstFree t (lo + 1) fuel else some lo

/-- The least listed key at or above `k`. -/
def Table.nextKey {α : Type} (t : Table α) (k : Nat) : Option Nat := (t.keys.filter (fun j => k ≤ j)).head?

end Sys2Proof.Machine
end

