-- ==== Sys2Proof/Machine/State.lean ====
section
/-!
DEFINITION. The state of the block as plain data: every register (one sparse map of the 16 MiB register space), every
buffer, queue, table, mode, pin and timer the spec names, and the queue of commands that wait. Times are in ns on the
model's own clock `now`; a timer is the moment at which it expires. INVENTORY.md lists each field with its rule.
-/
namespace Sys2Proof.Machine

/-! ### Shuttle (03) -/

/-- A stitch, in the fields of Table 03-3; `addr` holds bytes 8 to 15 as a big-endian number. -/
structure Stitch where
  opcode : Nat
  resp : Bool
  fence : Bool
  more : Bool
  cont : Bool
  subop : Nat
  length : Nat
  tag : Nat
  addr : Nat
  payload : List Byte
  deriving DecidableEq, Repr

/-- A frame header, in the fields of Table 03-1. -/
structure FrameHdr where
  ver : Nat
  ftype : Nat
  ece : Bool
  cwr : Bool
  ackReq : Bool
  connId : Nat
  seq : Nat
  ack : Nat
  sack : Nat
  done : Nat
  credit : Nat
  count : Nat
  deriving DecidableEq, Repr

/-- Where a connection's frames go: the source of its latest valid frame (R44). -/
structure Peer where
  mac : Nat
  ip : IpAddr
  udp : Nat
  deriving DecidableEq, Repr

/-- A UDP payload delivered to a transport engine (R89), with the port, source, PCP and frame length it came
with, whether it lies in its class's PFC headroom (R35), and its CE mark. -/
structure Delivered where
  port : Nat
  peer : Peer
  pcp : Nat
  len : Nat
  inHeadroom : Bool
  ce : Bool
  bytes : List Byte
  deriving DecidableEq, Repr

/-- The contents of a frame a port transmits. -/
inductive TxBody where
  | shuttle (bytes : List Byte)
  | pfc (cls quanta : Nat)
  | arpReply
  | gratuitousArp
  | ndAdvert (solicited : Bool)
  | echoReply (payload : List Byte)
  deriving DecidableEq, Repr

/-- A frame queued for transmission: its connection (0 for none), its PCP (R32), its addressee and its contents, and whether
it was counted in TX_HELD (R38). -/
structure TxFrame where
  conn : Nat
  pcp : Nat
  peer : Peer
  body : TxBody
  held : Bool := false
  deriving DecidableEq, Repr

/-- The SecTAG of a transmitted frame (R37): the SA's SCI and AN, and the packet number. -/
structure TxTag where
  sci : Nat
  an : Nat
  pn : Nat
  deriving DecidableEq, Repr

/-- The UDP header of a transmitted Shuttle frame (R40, R74): ports and checksum. -/
structure UdpHdr where
  src : Nat
  dst : Nat
  csum : Nat
  deriving DecidableEq, Repr

/-- A frame that left the device: port, VID, DSCP, ECN, TTL, the DF bit, source address, UDP header, SecTAG and the frame (R32, R37, R39 to
R41). -/
structure Sent where
  port : Nat
  vid : Nat
  dscp : Nat
  ect : Bool
  ttl : Nat
  df : Bool
  srcIp : IpAddr
  udp : Option UdpHdr
  secTag : Option TxTag
  frame : TxFrame
  deriving DecidableEq, Repr

/-- A response: the request's opcode, SUBOP, LENGTH and TAG, its STATUS, RESULT bytes 9 to 15 and payload. -/
structure Response where
  opcode : Nat
  subop : Nat
  length : Nat
  tag : Nat
  status : Status
  result : List Byte
  payload : List Byte
  deriving DecidableEq, Repr

/-- A replay cache entry (R84): the frame and stitch it answers, the response once there is one, and whether it came from
the reserve of R82. -/
structure Replay where
  seq : Nat
  idx : Nat
  resp : Option Response
  reserve : Bool
  deriving DecidableEq, Repr

/-- A NOTICE frame not yet acknowledged (R88): its SEQ, its stitch, how often it was retransmitted, when its timer
expires and the timer's present length in ns. -/
structure Notice where
  seq : Nat
  stitch : Stitch
  retx : Nat
  due : Nat
  rto : Nat
  deriving DecidableEq, Repr

/-- A segmented stitch whose last segment has not arrived (R61, R62): its frame and place, the next OFFSET, the SEQ that
must carry the next segment, and whether it was already refused (R80). -/
structure Pending where
  seq : Nat
  idx : Nat
  st : Stitch
  nextSeq : Nat
  refused : Bool
  deriving DecidableEq, Repr

/-- Connection states (R69); FREE is a CONN_ID the table does not list. -/
inductive ConnSt where
  | halfOpen | opened | closing
  deriving DecidableEq, Repr

/-- A connection. -/
structure Conn where
  st : ConnSt
  gen : Nat                      -- which use of the CONN_ID this is
  grant : Nat
  cls : Nat                      -- AUTH_CLASS, Table 03-6
  tclass : Nat
  nonce : Nat
  openSrc : Peer
  peer : Peer
  home : Nat
  waiting : Bool                 -- R45
  maxFrame : Nat                 -- MAX_FRAME of the OPEN
  credit : Nat
  lowers : List (Nat × Nat)      -- SEQs of NOTICE CREDITs not yet acknowledged and the limits they announce (R81)
  ack : Nat
  ackSent : Nat                  -- the ACK of the latest frame sent (Table 03-16)
  openAck : List Byte            -- the OPEN_ACK, as it is repeated (R67)
  held : List (Nat × List Byte)  -- frames held out of order, by SEQ (R75)
  done : Nat
  devSeq : Nat
  noticeTag : Nat
  notices : List Notice
  ece : Bool
  seg : Option Pending
  dupSeg : Option Pending        -- a segmented stitch of duplicate frames that is executed again (R83)
  counted : List (Nat × Nat)     -- frame and place of each stitch counted against credit (R80)
  replays : List Replay
  ready : List Response          -- responses built and not yet in a frame (R76)
  coalDue : Option Nat
  ackDue : Option Nat
  openDue : Nat
  idleDue : Nat                  -- end of IDLE_TIMEOUT from the latest valid frame (R73)
  lastTick : Nat                 -- device time of the latest valid frame (Table 03-16)
  lingerDue : Nat
  closeSeq : Nat
  closeAcked : Bool
  slowDue : Option Nat           -- end of GRACE_MS of a NOTICE SLOW, or the next cut (R204, R498)
  slowCause : Nat                -- its CAUSE
  slowStitch : Nat               -- its STITCH_RATE
  slowByte : Nat                 -- its BYTE_RATE
  slowRepeat : Bool              -- the cut repeats
  baseStitch : Nat               -- its rates before throttling began: stitches per ms, MB/s (R498)
  baseByte : Nat
  preCut : Option Nat            -- the credit limit before the cuts (R204)
  traffic : List (Nat × Nat × Nat) -- stitches completed: moment, payload bytes written, bytes read
  deriving DecidableEq, Repr

/-! ### Regions, grants, operations (04) -/

/-- Who issued a stitch: a connection (and the use of its CONN_ID), another device of the hoop by a FORWARD frame (device, OPREF), or
this manager for a part of a stitch that it holds itself. -/
inductive Origin where
  | conn (id gen : Nat)
  | lace (dev seq : Nat)
  | part (op k : Nat)
  deriving DecidableEq, Repr

/-- How far an operation has come: queued; begun and waiting for lines to fill; waiting on another engine (the write gate
of R189, a mailbox, a filet job, another device) until a moment; its keep pages sealing (R458); done with its response. -/
inductive OpPhase where
  | queued
  | filling
  | waiting (due : Nat)
  | sealing (r : Response)
  | done (r : Response)
  deriving DecidableEq, Repr

/-- Whether an operation runs, only prepares (R274), or is prepared and holds its lines until COMMIT or ABORT. -/
inductive OpMode where
  | normal | prepare | prepared
  deriving DecidableEq, Repr

/-- An operation table entry (R92 onward): its stitch, the frame it came in, and the grant, class and regions it was
issued under (R125). -/
structure Op where
  origin : Origin
  mode : OpMode
  conn : Nat                     -- the connection it was issued on, here or at the acting manager, and its class
  cls : Nat
  engine : Nat
  seq : Nat
  idx : Nat
  st : Stitch
  grant : Grant
  regions : List (Nat × Region)
  phase : OpPhase
  fails : List (Nat × Status)    -- lines it needs that could not be read, with the status each gives (R100)
  reexec : Bool
  started : Nat
  gate : Option Nat              -- when its wait at the dirty ceiling ends (R189)
  admitted : Bool := false       -- it has passed check 12, and its lines count toward the dirty total (R189)
  sample : Option Nat := none    -- chosen for request sampling: the least TOTAL that is recorded, ns (R541)
  late : Bool := false           -- issued after QUIESCE_GRACE (R483)
  segmented : Bool := false      -- it came in several segments (Table 17-6)
  deriving DecidableEq, Repr

/-! ### Keep, journal, sampler (14, 17) -/

/-- A time stamp (R457): power-cycle count, operating hours, seconds within the hour. -/
structure Stamp where
  cycle : Nat
  hours : Nat
  seconds : Nat
  deriving DecidableEq, Repr

/-- A sampler occurrence (R532). -/
structure Occ where
  code : Nat
  src : Nat
  val : Nat
  time : Stamp
  deriving DecidableEq, Repr

/-- The contents of a sampler record (Tables 17-3 and 17-4). -/
structure SmpRec where
  code : Nat
  src : Nat
  first : Option Stamp
  page0Lost : Bool
  min : Nat
  minTime : Option Stamp
  max : Nat
  maxTime : Option Stamp
  count : Nat
  rep : Nat
  last : Stamp
  hist : List Nat
  lastValue : Nat
  deriving DecidableEq, Repr

/-- A record slot (R531): the keep image, the image before the last commit (none before its first) and the pages which that commit writes, the
working copy, the occurrences that wait, the moment of the last commit, and the commits made in which day bucket (R534). -/
structure SmpSlot where
  keep : SmpRec
  before : Option SmpRec
  pages : Nat
  work : SmpRec
  waiting : Nat
  lastCommit : Nat
  day : Nat
  commits : Nat
  deriving DecidableEq, Repr

/-- A journal entry (Table 14-10), less its reserved bytes. -/
structure JEntry where
  seq : Nat
  time : Stamp
  iface : Nat
  port : Nat
  form : Nat
  connId : Nat
  cred : Nat
  object : Nat
  result : Nat
  newLen : Nat
  old : List Byte
  new : List Byte
  deriving DecidableEq, Repr

/-- A page write waiting for the keep (R453): a journal entry, or a keep register page with its value. `op` names who waits for the
pages: an operation table entry, 2^62 for SMBus, 2^63 plus a mailbox, 0 for none. -/
inductive KeepWrite where
  | journal (e : JEntry) (op : Nat)
  | regPage (off : Nat) (v : Word) (op : Nat)
  deriving DecidableEq, Repr

/-- Who holds a mailbox (R435); `lace` is a connection of the acting manager, with its class (R276). -/
inductive MbxOwner where
  | none | conn (id gen : Nat) | lace (dev conn cls : Nat) | smbus | console
  deriving DecidableEq, Repr

/-- Mailbox states (Table 14-3). -/
inductive MbxSt where
  | idle | receiving | busy | done | delivering
  deriving DecidableEq, Repr

/-- A mailbox (R434): its state, owner, command and last segment number, the request data received, whether the request
is signed, whether the command has begun, the response data still to deliver with its status and next segment, the
progress, when MBX_TIMEOUT and MBX_EARLY pass, the waiting MBX operation (0 for none), the frame that carried the last
segment, the nonce with its expiry (R449), and the two SMBus buffers. -/
structure Mailbox where
  st : MbxSt
  owner : MbxOwner
  claimed : Bool
  code : Nat
  seg : Nat
  req : List Byte
  mixed : Bool
  signed : Bool
  keyIndex : Option Nat
  begun : Bool
  status : Status
  resp : List Byte
  respSeg : Nat
  progress : Nat
  due : Nat
  early : Option Nat
  op : Nat
  sentSeq : Nat
  nonce : Option (List Byte × Nat)
  reqBuf : List Byte
  respBuf : List Byte
  deriving DecidableEq, Repr

/-- An idle mailbox. -/
def Mailbox.idle : Mailbox :=
  { st := .idle, owner := .none, claimed := false, code := 0, seg := 0, req := [], mixed := false, signed := false, keyIndex := none,
    begun := false, status := .ok, resp := [], respSeg := 0, progress := 0, due := 0, early := none, op := 0, sentSeq := 0,
    nonce := none, reqBuf := [], respBuf := [] }

/-- The SMBus target of the management island (R442): the selections, the register offset and status, and the bytes
the device has answered. -/
structure Smbus where
  mailbox : Nat
  buffer : Nat
  offset : Nat
  regAddr : Nat
  regStatus : Status
  out : List (List Byte)
  deriving DecidableEq, Repr

/-! ### Cache and coherence (10) -/

/-- Way states (Table 10-2). -/
inductive WaySt where
  | on | cleaning | off | disabled | joining
  deriving DecidableEq, Repr

/-- A way of a slice: its state, the LOCKED attribute (R333), whether it is cleaned to be disabled and then why (0: to be powered
down, else the value of WAY_DISABLED), and whether its pattern test runs (R336). -/
structure Way where
  st : WaySt
  locked : Bool
  why : Nat
  testing : Bool
  deriving DecidableEq, Repr

/-- Agent cache line states but I (Table 10-4). -/
inductive CohSt where
  | s | e | m | o
  deriving DecidableEq, Repr

/-- A line in the LLC (R328): its way, its data in clear, the VALID, DIRTY and POISON bits of its sectors, the cause of
its poison, whether its next program counts as a retirement (R317, R419), and its directory entry: which agents hold it, in which state. -/
structure LlcLine where
  way : Nat
  data : LineBits
  valid : BitVec 4
  dirty : BitVec 4
  poison : BitVec 4
  cause : Nat
  unpaid : Bool
  dir : List (Nat × CohSt)
  deriving DecidableEq, Repr

/-- A line in an agent's cache (R339). -/
structure AgentLine where
  st : CohSt
  data : LineBits
  poison : BitVec 4
  deriving DecidableEq, Repr

/-- Requests to a home (Table 10-5); `wr`, `atom` and `whint` carry data and sector mask, and a push target. -/
inductive CohReq where
  | rdShared | rdOwn | ownNoData | upgrade
  | wr (mask : BitVec 4) (data : LineBits)
  | atom (f : Nat) (off len : Nat) (operand : Nat) (cmp : Nat)
  | whint (mask : BitVec 4) (data : LineBits) (target : Option Nat)
  deriving DecidableEq, Repr

/-- A coherence message in flight (Table 10-5). `agent` is the agent it goes to or comes from. -/
inductive CohMsg where
  | req (agent : Nat) (line : Nat) (r : CohReq)
  | wb (agent : Nat) (line : Nat) (data : LineBits) (poison : BitVec 4)
  | evictClean (agent : Nat) (line : Nat)
  | snpShare (agent : Nat) (line : Nat) (requester : Nat)
  | snpOwn (agent : Nat) (line : Nat) (requester : Nat)
  | snpInv (agent : Nat) (line : Nat)
  | fwdData (agent : Nat) (line : Nat) (st : CohSt) (data : LineBits) (poison : BitVec 4)
  | grant (agent : Nat) (line : Nat) (st : CohSt) (data : Option LineBits) (poison : BitVec 4)
  | ack (agent : Nat) (line : Nat) (st : Option CohSt) (data : Option (LineBits × BitVec 4))
  | evicting (agent : Nat) (line : Nat)
  | push (agent : Nat) (line : Nat) (data : LineBits) (poison : BitVec 4)
  deriving DecidableEq, Repr

/-- A transaction a home has open on a line (R342): the requester and request, the agents whose snoop answers are awaited
and until when (R350), and whether the snooped owner forwards. -/
structure CohTxn where
  agent : Nat
  req : CohReq
  await : List Nat
  due : Nat
  forward : Bool
  deriving DecidableEq, Repr

/-- A maintenance operation in progress (R349): OP of Table 10-8 and its range. -/
structure Maint where
  op : Nat
  addr : Nat
  size : Nat
  deriving DecidableEq, Repr

/-! ### Medium, DRAM, integrity (05, 09, 11, 13) -/

/-- The 272-byte line image (R133): data as stored, tag, metadata. -/
structure LineImg where
  cipher : LineBits
  tag : BitVec 64
  metadata : BitVec 64
  deriving DecidableEq, Repr

/-- A stripe on the medium: its line image and its program epoch label (R137). -/
structure MedLine where
  img : LineImg
  label : Nat
  deriving DecidableEq, Repr

/-- A ladder set of a stack base (R146, R148): its band, the band's 16 ladders, and its epoch ladder. -/
structure LadderSet where
  band : Nat
  ladders : List (BitVec 56)
  epoch : BitVec 24
  deriving DecidableEq, Repr

/-- An AGE entry (Table 05-22), less LIVE, which follows from the labels in use. -/
structure Age where
  index : Nat
  early : Bool
  residual : Nat
  fitTime : Nat
  deriving DecidableEq, Repr

/-- A fragment of a read in flight (R148, R155, R158, R159): re-senses made so far, until when its row stays open, the ladder set and the AGE
entries in force when its first sense began, the ladder index n that this sense selected, and its outcome once it has ended. -/
structure FragState where
  attempts : Nat
  rowOpen : Option Nat
  set : LadderSet
  ages : Table Age
  index : Nat
  ended : Option FragOutcome
  deriving DecidableEq, Repr

/-- Who reads a line from the medium. -/
inductive Reader where
  | stitch | scrub | node | maint | rescore
  deriving DecidableEq, Repr

/-- A medium read in flight (R158 to R162): the line, the stripe that stood there when its senses began, its readers, and its nine
fragments. -/
structure Sense where
  line : Nat
  stripe : MedLine
  readers : List Reader
  frags : List FragState
  deriving DecidableEq, Repr

/-- A node whose 64 lines are taken into the LLC to be encrypted anew: on the overflow of a MINOR (R411), or by the rekey
walker to a new version (R419). `first` is the node's first line. -/
structure NodeConv where
  first : Nat
  ver : Bool
  rekey : Bool
  deriving DecidableEq, Repr

/-- Pricking STATE (Table 06-2). -/
inductive PrkSt where
  | unwritten | mapping | mapped | moving
  deriving DecidableEq, Repr

/-- A pricking entry (Table 06-1). -/
structure Prk where
  ps : Nat
  rot : Nat
  st : PrkSt
  hint : Nat
  slot : Nat
  deriving DecidableEq, Repr

/-- The entry of a logical swatch never written. -/
def Prk.unwritten : Prk := { ps := 0, rot := 0, st := .unwritten, hint := 0, slot := 0 }

/-- Ledger STATE (Table 06-4). -/
inductive LdgSt where
  | free | mapped | moveDst | retired
  deriving DecidableEq, Repr

/-- A ledger entry (Table 06-3), and the label its zero lines carry (R149, R173). -/
structure Ldg where
  st : LdgSt
  lsw : Nat
  progs : Nat
  heatR : Nat
  heatW : Nat
  cause : Nat
  zeroLabel : Nat
  deriving DecidableEq, Repr

/-- The entry of a physical swatch that was never used. -/
def Ldg.unused : Ldg := { st := .free, lsw := 0, progs := 0, heatR := 0, heatW := 0, cause := 0, zeroLabel := 0 }

/-- Why a swatch moves (R191): retirement with a CAUSE of Table 06-5, wear leveling, or a filet rearrangement. -/
inductive MoveWhy where
  | retire (cause : Nat) | level | filet
  deriving DecidableEq, Repr

/-- A move in progress (R192): logical swatch, source, destination, new rotation, when it times out, why it runs, the 512-bit map of the
lines copied, the lines that were copied once or more, how often a line was copied again (R193), and whether it has switched. -/
structure Move where
  lsw : Nat
  src : Nat
  dst : Nat
  rot : Nat
  due : Nat
  why : MoveWhy
  map : BitVec 512
  once : BitVec 512
  again : Nat
  switched : Bool
  deriving DecidableEq, Repr

/-- The wear governor (R200, R201): the 29 buckets before today's, latest first, today's count and allowance in lines, the
rate in thousandths of a line per second, the tokens in millionths of a line, when the day ends, the latest moment an
eviction waited for a token, when the rate was last reported to the manager, when a NOTICE SLOW of R204 was last sent to a connection for a
device (key 64 × connection + device), and the day of the present bucket. -/
structure Governor where
  days : List Nat
  used : Nat
  allow : Nat
  rate : Nat
  tokens : Nat
  dayEnd : Nat
  lastWait : Option Nat
  lastSlow : Option Nat
  slowAt : Table Nat
  day : Nat
  deriving DecidableEq, Repr

/-- What the table area holds of the fields written every 60 s (R175, R202) and every 1 s (R421): LINE_PROGS, the day
buckets with today's, and the selvedge. -/
structure TableCopy where
  progs : Table Nat
  used : Nat
  days : List Nat
  selvedge : Nat
  deriving DecidableEq, Repr

/-- A stripe program in progress (R139): the line and stripe it writes, whether it is a user program (R200), for each fragment
whether it has verified (`none`: still programming), the fragments programmed again in a spare row (R141), and whether its fragments
are programmed one after another (R151). -/
structure Program where
  line : Nat
  stripe : MedLine
  user : Bool
  frags : List (Option Bool)
  retried : List Nat
  serial : Bool
  deriving DecidableEq, Repr

/-- Medium die states (R165). -/
inductive DieSt where
  | online | failed | rejoining
  deriving DecidableEq, Repr

/-- A medium die: its state, why it failed (Table 09-6), the moments of its latest erasures (R313), the swatches its
resilver has made current (R317), whether a die check runs, and the ladder set in force with the other that the stack base holds (R148). -/
structure Die where
  st : DieSt
  cause : Nat
  erasures : List Nat
  current : List Nat
  checking : Bool
  set : LadderSet
  spare : LadderSet
  filling : Option Nat := none
  deriving DecidableEq, Repr

/-- A line in the DRAM tier: its slot, its stored image and its dirty sectors. -/
structure TierLine where
  slot : Nat
  img : LineImg
  dirty : BitVec 4
  unpaid : Bool := false
  deriving DecidableEq, Repr

/-- A DRAM-tier read: its line, whether its codeword is beyond correction and waits for the channel probe (R319), whether its port has been
served, whether it was from the write queue (R371), and whether the patrol alone asks for it (R312). -/
structure DramRead where
  line : Nat
  bad : Bool
  issued : Bool
  fwd : Bool
  patrol : Bool := false
  deriving DecidableEq, Repr

/-- A request that a DRAM port holds (R368, R369): its port, whether it writes, its burst, the tier line that it reads, and when it came. -/
structure DramReq where
  port : Nat
  write : Bool
  addr : Nat
  line : Option Nat
  since : Nat
  deriving DecidableEq, Repr

/-- The DRAM controller (R368 to R370): the requests that wait at its ports, the write queue of each group, the writes left in the slice of a
group that drains, and the bytes that the bucket of a regulated port lacks of BURST. -/
structure DramCtl where
  reqs : List DramReq
  wq : Table (List Nat)
  drain : Table Nat
  spent : Table Nat
  deriving DecidableEq, Repr

/-- The controller with nothing to do. -/
def DramCtl.idle : DramCtl := { reqs := [], wq := [], drain := [], spent := [] }

/-- A counter tree node (R408), less its NODE_TAG, which stands beside it. -/
structure TreeNode where
  major : Nat
  ver : Bool
  minors : Table Nat
  deriving DecidableEq, Repr

/-- Tenant slot states (Table 13-2). -/
inductive KeySt where
  | empty | loaded | absent | rekey
  deriving DecidableEq, Repr

/-- A tenant key slot (R396): its keys and KCVs by version, the keys' keep copies with PERSIST (R402), the lockdown of R429. -/
structure KeySlot where
  st : KeySt
  key0 : Option (List Byte)
  key1 : Option (List Byte)
  kcv0 : Option (List Byte)
  kcv1 : Option (List Byte)
  kept0 : Option (List Byte)
  kept1 : Option (List Byte)
  active : Bool
  persist : Bool
  locked : Bool
  alarms : Nat
  windowEnd : Nat
  deriving DecidableEq, Repr

/-- An empty slot. -/
def KeySlot.empty : KeySlot :=
  { st := .empty, key0 := none, key1 := none, kcv0 := none, kcv1 := none, kept0 := none, kept1 := none, active := false, persist := false, locked := false,
    alarms := 0, windowEnd := 0 }

/-- The rekey walker (R419). -/
structure Rekey where
  keyId : Nat
  next : Nat
  left : Nat
  checkpoint : Nat
  started : Nat
  deriving DecidableEq, Repr

/-- A MACsec security association (R37, R427). -/
structure MacSa where
  tx : Bool
  an : Nat
  xpn : Bool
  sci : Nat
  pn : Nat
  key : List Byte
  ssci : Nat
  salt : List Byte
  active : Bool
  warned : Bool
  deriving DecidableEq, Repr

/-- The count window of an alarm code and key ID (R428). -/
structure AlarmWin where
  windowEnd : Nat
  count : Nat
  deriving DecidableEq, Repr

/-- A NOTICE_GAP of a connection, alarm code and key ID (R428), and the latest alarm that fell inside it: device, address, range. -/
structure NoticeGap where
  conn : Nat
  code : Nat
  keyId : Nat
  due : Nat
  latest : Option (Nat × Nat × Nat)
  deriving DecidableEq, Repr


/-! ### The hoop (08) -/

/-- What a lace frame carries (Table 08-3). -/
inductive LaceBody where
  | heartbeat (time echo hold role flags : Nat)
  | forward (opref conn : Nat) (st : Stitch)
  | complete (opref conn : Nat) (st : Stitch)
  | routeAck
  | discover
  | announce (a : Announce)
  | control (c : Control)
  | resync (r : ResyncLine)
  deriving DecidableEq, Repr

/-- A lace frame from its originating to its final device, with its route sequence (0: link only) and the FORWARD flags
(Table 08-2). -/
structure LaceFrame where
  src : Nat
  dst : Nat
  rseq : Nat := 0
  prepare : Bool := false
  commit : Bool := false
  abort : Bool := false
  mirror : Bool := false
  /-- HOOP_EPOCH, RACK and FDONE of a frame of another device that this one passes on (R265). -/
  carried : Option (Nat × Nat × Nat) := none
  body : LaceBody
  deriving DecidableEq, Repr

/-- A lace frame that left the device: its link, the header fields that the link and the route fill in, and the frame. -/
structure LaceSent where
  link : Nat
  nak : Bool
  hoopId : Nat
  epoch : Nat
  lseq : Nat
  lack : Nat
  rack : Nat
  fdone : Nat
  frame : LaceFrame
  deriving DecidableEq, Repr

/-- Lace link states (Table 08-15). -/
inductive LinkSt where
  | down | training | probation | up | idle
  deriving DecidableEq, Repr

/-- A lace link: its state, its peer as the peer's heartbeats name it (device, link, acting role, MGR_LINK), the last LSEQ sent and
the last taken, whether the next frame carries NAK, the frames sent and not acknowledged with how often the oldest was replayed,
the frames that wait for credit, the credit left in bytes, when it is declared failed (R262), when its last heartbeat came, when
PROBATION began or restarted, when the next heartbeat is sent, and the last heartbeat's time with the moment it came. -/
structure LaceLink where
  st : LinkSt
  peerDev : Nat
  peerLink : Nat
  peerRole : Nat
  mgrLink : Bool
  txSeq : Nat
  rxSeq : Nat
  nak : Bool
  store : List (Nat × LaceFrame)
  replays : Nat
  queue : List LaceFrame
  credit : Nat
  failDue : Option Nat
  lastBeat : Nat
  probation : Nat
  sendDue : Nat
  echo : Nat
  echoAt : Nat
  delay : Nat
  deriving DecidableEq, Repr

/-- A link that is down. -/
def LaceLink.off : LaceLink :=
  { st := .down, peerDev := 0, peerLink := 0, peerRole := 3, mgrLink := false, txSeq := 0, rxSeq := 0, nak := false, store := [],
    replays := 0, queue := [], credit := 0, failDue := none, lastBeat := 0, probation := 0, sendDue := 0, echo := 0, echoAt := 0,
    delay := 0 }

/-- The routes to and from another device (R270): the last RSEQ given, the frames RACK does not cover and those that wait for room
in the route store, the last RSEQ taken, when its RACK is due, and FDONE as received. -/
structure Route where
  tx : Nat
  store : List LaceFrame
  waiting : List LaceFrame
  rx : Nat
  ackDue : Option Nat
  fdone : Nat
  deriving DecidableEq, Repr

/-- A route without a frame. -/
def Route.empty : Route := { tx := 0, store := [], waiting := [], rx := 0, ackDue := none, fdone := 0 }

/-- A member of the hoop (R267, R284): its serial number, whether it is PRESENT, the devices whose up links reach it, what it
announced, whether its spare state is READ_ONLY (R279), the key IDs it cannot use (R397), and whether its resync maps were kept
since it left (R289). -/
structure Member where
  serial : Nat
  present : Bool
  parents : List Nat
  said : Option Announce
  readOnly : Bool
  badKeys : List Nat
  deriving DecidableEq, Repr

/-- A fork record (R282). -/
structure Fork where
  dev : Nat
  rseq : Nat
  addr : Nat
  len : Nat
  deriving DecidableEq, Repr

/-- How far a part of a forwarded stitch has come (R274). -/
inductive PartPh where
  | sent
  | prepared (st : Status)
  | done (r : Response)
  deriving DecidableEq, Repr

/-- A part of a stitch that the manager forwards (R273 to R280): the device, the panel, whether it is the first of a panel's two
copies, the stitch sent, its RSEQ, whether its repair from the other copy was tried (R281), and how far it has come. -/
structure Part where
  dev : Nat
  panel : Nat
  first : Bool
  st : Stitch
  mirror : Bool
  rseq : Nat
  tried : Bool
  ph : PartPh
  deriving DecidableEq, Repr

/-- What the parts of a stitch are doing: run as sent; prepared, then committed (R274); reading the source of a COPY (R275);
reading the good copy's lines for a repair of part `bad`, and writing them to the bad one (R281). -/
inductive SplitSt where
  | run
  | prepare
  | commit
  | copyRead
  | goodRead (bad : Nat)
  | rewrite (bad : Nat)
  deriving DecidableEq, Repr

/-- A stitch that the manager carries out in parts. -/
structure Split where
  st : SplitSt
  parts : List Part
  deriving DecidableEq, Repr

/-- A schedule (R294): STATE 0 ARMED, 1 DONE, 2 CANCELLED. -/
structure Sched where
  at' : Nat
  devices : Nat
  action : Nat
  st : Nat
  ran : Nat
  deriving DecidableEq, Repr

/-- A resync that this device sends (R290): panel, target, the chunks still to copy, the next line of the first of them, and the
chunks copied. -/
structure ResyncOut where
  panel : Nat
  target : Nat
  chunks : List Nat
  line : Nat
  copied : Nat
  deriving DecidableEq, Repr

/-- What follows a change of tables once the standby has applied it (R278). -/
inductive SyncAct where
  | none
  | mailbox (m : Nat)
  | standby
  | failover (panels : List Nat)
  | restored (panels : List Nat)
  | lost (panels : List Nat)
  deriving DecidableEq, Repr

/-- A change that waits until the standby has applied it: the RSEQ of its CONTROL frame. -/
structure SyncJob where
  rseq : Nat
  changes : List TableChange
  act : SyncAct
  deriving DecidableEq, Repr

/-- A handover under way (R287): when the grace ends, and the mailbox whose command completes at step 3. -/
structure Handover where
  due : Nat
  mailbox : Option Nat
  deriving DecidableEq, Repr

/-! ### Filet compute (07) -/

/-- Tile states (Table 07-21). -/
inductive TileSt where
  | free | inUse | programming | failed | rejoining
  deriving DecidableEq, Repr

/-- A tile (R223, R228, R254): its state, the matrix, group and row tile it serves, tile.g and tile.resid in the units of the
conversion codes, trim by column, the passes in a row whose residual exceeded FAIL_RESID (R234), the columns that failed the
latest audit (R232), the operating time of its program and of its latest audit, the audits it must pass before a job uses it
(R235), and the weights of its 256 pairs on its rows: with the reference pairs they give the level of every cell. -/
structure Tile where
  st : TileSt
  matrix : Nat
  group : Nat
  row : Nat
  g : Rat
  resid : Rat
  trim : List Int
  badRuns : Nat
  colFails : List Nat
  since : Nat
  audited : Nat
  proofs : Nat
  pairs : List (List Int)
  deriving DecidableEq, Repr

/-- A FREE tile. -/
def Tile.empty : Tile :=
  { st := .free, matrix := 0, group := 0, row := 0, g := 1, resid := 0, trim := [], badRuns := 0, colFails := [], since := 0,
    audited := 0, proofs := 0, pairs := [] }

/-- A column group (R225): the scales s_j as FP16 words and the full scales FS_j of its columns, its row tiles, and whether it is
STALE and is scored by fallback. -/
structure FGroup where
  scales : List Nat
  full : List Nat
  tiles : List Nat
  stale : Bool
  fallback : Bool
  deriving DecidableEq, Repr

/-- A matrix (R218): its MATRIX_LOAD request, STATE of Table 07-15, its groups held on this device, the tiles of the whole hoop, the
devices that have yet to finish what was asked of them, and the mailbox whose command waits for it. -/
structure Matrix where
  request : List Byte
  st : Nat
  groups : Table FGroup
  hoopTiles : Nat
  waits : List Nat
  mailbox : Option Nat
  deriving DecidableEq, Repr

/-- Why a group is programmed: a load, a refresh, or a failed tile (R218, R232, R234). -/
inductive ProgWhy where
  | load | refresh | failed
  deriving DecidableEq, Repr

/-- A group that is being programmed (R232 to R234): its new tiles, those not yet programmed, the new scales, full scales and weights of its
columns once its shadow has been read, the lines of the shadow that could not be read, why it is programmed, whether in place, and
whether its shadow was written again since it began (R232). -/
structure FProg where
  matrix : Nat
  group : Nat
  tiles : List Nat
  left : List Nat
  quant : Option (List Nat × List Nat × List (List Int))
  fails : List (Nat × Status)
  why : ProgWhy
  inPlace : Bool
  again : Bool
  deriving DecidableEq, Repr

/-- A sub-job of another device (R248, R292): the device, the panels it scores, its columns, its job ID once it has ended there, the size
of its result area, and the part of it fetched. -/
structure SubJob where
  dev : Nat
  panels : List Nat
  first : Nat
  count : Nat
  job : Option Nat
  size : Nat
  got : List Byte
  verified : Nat
  passes : Nat
  finished : Bool
  deriving DecidableEq, Repr

/-- A filet job (R236 to R244): its place in the order of acceptance, who submitted it, the operation that waits for it (0 for none), its
matrix and key ID, SUBOP, descriptor and queries, STATE and status, the panels scored here, the passes left as (tile, query), the sums
Ŝ by query and column (key query × 2^28 + column), the groups whose passes have begun, those scored by fallback and those STALE, the
passes run, the candidates re-scored, the lines whose reads failed, when it was accepted and ended, its flags, result area and
sub-jobs. -/
structure FJob where
  order : Nat
  owner : Origin
  op : Nat
  matrix : Nat
  keyId : Nat
  subop : Nat
  desc : List Byte
  queries : List (List Int)
  st : Nat
  status : Status
  mine : List Nat
  todo : List (Nat × Nat)
  acc : Table Int
  begun : List Nat
  fallback : List Nat
  stale : List Nat
  passes : Nat
  verified : Nat
  fails : List (Nat × Status)
  started : Nat
  ended : Nat
  flags : Nat
  result : List Byte
  spoiled : Bool
  subs : List SubJob
  deriving DecidableEq, Repr

/-! ### Bobbins (12) -/

/-- A committed packet: its length and its words, as 7 payload bytes and POISON (R382). -/
structure BobPkt where
  len : Nat
  words : List (BitVec 56 × Bool)
  deriving DecidableEq, Repr

/-- A bobbin (R380): ENABLE, BROKEN, its configuration (Tables 12-5 and 12-7), its committed packets, oldest first, the words of the
oldest already popped, since when its stale-tail timer runs and whether it fired (R390), and when its sweep ends (R392). -/
structure Bob where
  enabled : Bool
  broken : Bool
  cellLimit : Nat
  level : Nat
  pktLimit : Nat
  staleTime : Nat
  pkts : List BobPkt
  popped : Nat
  staleFrom : Option Nat
  fired : Bool
  sweep : Option Nat
  deriving DecidableEq, Repr

/-- A bobbin at reset (Tables 12-6 and 12-7). -/
def Bob.off : Bob :=
  { enabled := false, broken := false, cellLimit := 0, level := 0, pktLimit := 0, staleTime := 0, pkts := [], popped := 0,
    staleFrom := none, fired := false, sweep := none }

/-- A push window (R384, R385): the status of its latest start, the bobbin and length of the packet in progress with the words
written, and how many are left (0: none in progress). -/
structure PushWin where
  status : Nat
  bob : Nat
  len : Nat
  words : List (BitVec 56 × Bool)
  left : Nat
  deriving DecidableEq, Repr

/-- A push window before its first start. -/
def PushWin.idle : PushWin := { status := 0, bob := 0, len := 0, words := [], left := 0 }

/-! ### Power, start-up, update (15, 16) -/

/-- A save generation in the save area (R413, R488, R508): its number, whether its commit record was written, the tree nodes and the
dirty lines it holds, as the DRAM tier would hold them, and what was dirty and is missing. -/
structure SaveGen where
  gen : Nat
  commit : Bool
  nodes : Table TreeNode
  lines : Table TierLine
  lostNodes : List Nat
  lostLines : List Nat
  deriving DecidableEq, Repr

/-- How the device goes down outside the stepping of SEQSYNC (R478, R488), or lowers its rails at step 15: the hold-up save runs, or
the EN outputs fall one by one (R475). -/
inductive Descent where
  | none
  | saving
  | rails (due : Nat)
  deriving DecidableEq, Repr

/-- The power sequencer and its measurements (15). -/
structure PowerSide where
  /-- TEST_EN, as sampled at step STBY_OK (R563). -/
  testEn : Bool
  /-- This device holds SEQSYNC low (R477, R479). -/
  hold : Bool
  /-- When the present step was entered. -/
  stepAt : Nat
  /-- The end of the minimum off time (R479). -/
  deaf : Option Nat
  /-- An on request waits for the end of the minimum off time (R482). -/
  onReq : Bool
  /-- An off request, as a CAUSE of Table 18-8, that waits for the end of the step (R482). -/
  stop : Option Nat
  /-- Why the device is on its way to step 0, and the step at which the path began (Table 18-8). -/
  cause : Nat
  causeStep : Nat
  /-- QUIESCE and SAVE run as forced (R483, R484). -/
  forced : Bool
  /-- The end of QUIESCE_GRACE while it runs, and the moment it ended: stitches issued from then on are refused (R483). -/
  graceDue : Option Nat
  refuse : Option Nat
  descent : Descent
  /-- EN outputs that are high: EN_0 to EN_(n − 1). -/
  rails : Nat
  /-- When the restart of R485 is due. -/
  autoDue : Option Nat
  /-- THERM_N stays low after a thermal shutdown until step 1 (R500). -/
  thermHeld : Bool
  /-- A thermal shutdown record whose event has yet to be raised: the point (R500). -/
  shutdownNew : Option Nat
  /-- L_th and L_cap (R493, R497), when L_cap last changed, and since when both temperatures are 3 °C below their limits. -/
  lth : Nat
  lcap : Nat
  capAt : Nat
  coolFrom : Option Nat
  /-- The thermal points (R494): model values and latest sweep readings, in 1/16 °C, and when that sweep ended. -/
  model : List Int
  sensor : List Int
  sweepAt : Option Nat
  /-- A sweep runs; one further sweep is queued (R495); the mailboxes that wait for the sweep, and for the queued one. -/
  sweeping : Bool
  sweepMore : Bool
  sweepBoxes : List Nat
  moreBoxes : List Nat
  /-- Governing temperatures of the past 1 s, latest first, with their moments (R496). -/
  temps : List (Nat × List Int)
  /-- Points with an active rate warning, and with an active rate action. -/
  warn : List Nat
  action : List Nat
  /-- IDLE is to be entered once the cleaner has no dirty line left (R190, R491). -/
  idling : Bool
  /-- The mode before IDLE, and WAYS_OFF before ECONOMY (R491, R493). -/
  prevMode : Nat
  waysOff : Nat
  /-- When a NOTICE SLOW of R498 was last sent to a connection. -/
  slowAt : Table Nat
  /-- The outputs HOLD_TEST, high during the hold-up measurement (R564), and DRAM_RST0_N and DRAM_RST1_N, which move together (R566). -/
  holdTest : Bool
  dramRst : Bool
  /-- The hold-up measurement (R487): whether it has ended, T_h in ms, its failure as in HOLDUP_FAIL (0: none), C_BANK in µF, v1 and v2 in
  mV, the test's length in ms. -/
  held : Bool
  tH : Nat
  holdFail : Nat
  cBank : Nat
  v1 : Nat
  v2 : Nat
  testMs : Nat
  /-- The save area's newest generation, the last number used, CONSUMED_GEN, and the save key (R413, R507). -/
  save : Option SaveGen
  gen : Nat
  consumed : Nat
  saveKey : Option (BitVec 256)
  deriving DecidableEq, Repr

/-- A valid Flagetal package in a slot (Table 16-5): VERSION, SVN, SETTINGS_FORMAT, LIVE_OK. -/
structure FwPkg where
  version : Nat
  svn : Nat
  format : Nat
  liveOk : Bool
  deriving DecidableEq, Repr

/-- A live swap in progress (R520, R524): the mailbox whose FW_ACTIVATE it answers, if one does, until when commands that are BUSY are
waited for, whether the state has been handed over, and the fall-back cause where it goes back to RUNNING_SLOT (0: it does not). -/
structure Swap where
  mailbox : Option Nat
  due : Nat
  handed : Bool
  back : Nat
  deriving DecidableEq, Repr

/-- A self-test item's result (R526): RESULT 0 PASS, 1 DEGRADED, 2 FAILED, with its CAUSE and DETAIL. -/
structure ItemResult where
  result : Nat
  cause : Nat
  detail : Nat
  deriving DecidableEq, Repr

/-- The latest diagnostic test (R527): its number, TEST and TARGET, when it began, and its end: result, elapsed ms and DETAIL. -/
structure Diag where
  id : Nat
  test : Nat
  target : Nat
  began : Nat
  ended : Option (Nat × Nat × Nat)
  deriving DecidableEq, Repr

/-- Firmware, its update and the start-up results (16). -/
structure BootSide where
  /-- Valid packages of slots A (0) and B (1); a slot not listed is bad. -/
  slots : Table FwPkg
  /-- The staging slot: bytes received, and the TOTAL_LEN given at OFFSET 0. -/
  staging : List Byte
  total : Nat
  /-- The update record (R505). -/
  stage : Nat
  running : Nat
  pendingSlot : Nat
  attempts : Nat
  svnFloor : Nat
  activatedAt : Option Nat
  /-- VERIFY_RESULT and LAST_FALLBACK. -/
  verify : Nat
  fallback : Nat
  /-- The slot whose firmware runs: 0 A, 1 B, 2 the ROM. -/
  active : Nat
  /-- The ROM has a slot to load: at start-up, after an HKP restart, in a live swap. -/
  loading : Bool
  /-- When BOOT_OK of the new firmware is overdue (R520). -/
  bootOkDue : Option Nat
  swap : Option Swap
  /-- Settings (R504, R554): firmware parameters by index as the active store holds them, the settings format in force, and whether the
  store of another format is kept beside it (R523). -/
  settings : Table Word
  /-- Firmware parameters of APPLY 1 as they are in force: those stored at the latest start. -/
  inForce : Table Word
  format : Nat
  twoStores : Bool
  /-- Self-test results by item. -/
  items : Table ItemResult
  diag : Option Diag
  nextDiag : Nat
  deriving DecidableEq, Repr

/-! ### The state -/

/-- A port's latest attempt of negotiation and training (R28, R47), with the settings in force when it began: AN_EN, LT_EN, the PHY type
(CR where MEDIA is 1, else KR) on the lanes of the mode, which is the one technology advertised; `due` is the end of its 3 s, `none` where
neither runs or the link is up. -/
structure Attempt where
  an : Bool
  lt : Bool
  cr : Bool
  lanes : Nat
  due : Option Nat
  deriving DecidableEq, Repr

/-- The host side: ports (02) and transport (03). -/
structure HostSide where
  /-- Frames queued for transmission, by port (R43, R44). -/
  txq : Table (List TxFrame)
  /-- The moment at which class `c` of port `p` (key `8 p + c`) is released from a received PFC pause (R34). -/
  pause : Table Nat
  /-- An XOFF sent for class `c` of port `p`, by `8 p + c` (R35): when it is repeated, and whether its condition held at the last look. -/
  xoff : Table (Nat × Bool)
  /-- UDP payloads delivered to an engine and not yet taken, by engine (R89). -/
  inbox : Table (List Delivered)
  /-- The latest attempt of negotiation and training of each port (R28). -/
  train : Table Attempt
  /-- Ports whose ENABLE was cleared while they were up, until PORT_ADMIN_DOWN takes them down (R47). -/
  closing : List Nat
  /-- The moment of a port's latest uncorrectable codeword (FEC_DEGRADED, Table 02-6). -/
  fecBad : Table Nat
  /-- Neighbour and echo frames of a port: start of its present second and the frames in it (R42). -/
  ctrlRate : Table (Nat × Nat)
  /-- SA slot `i` of port `p`, key `32 p + i` (R37). -/
  sas : Table MacSa
  /-- Frames that left the device, latest first: what the wire shows. -/
  sent : List Sent
  /-- Connections by CONN_ID (R69). -/
  conns : Table Conn
  /-- When a released CONN_ID may be assigned again (R66). -/
  quarantine : Table Nat
  /-- Start of the present second and the UNKNOWN_CONN resets in it (R72). -/
  unknownRate : Nat × Nat
  /-- The operation table (R92), by entry number. -/
  ops : Table Op
  /-- Number of the next operation and of the next use of a CONN_ID. -/
  nextOp : Nat
  nextGen : Nat
  /-- Largest number of operations in use by each engine (R556). -/
  peak : Table Nat
  /-- Request stitches counted for sampling by each engine (R541). -/
  sampled : Table Nat
  /-- Moment of the latest stitch or filet job (R491). -/
  lastWork : Nat
  deriving DecidableEq, Repr

/-- What the keep island holds (14, 17). -/
structure KeepSide where
  /-- Page writes in arrival order; the first one is in progress (R453). -/
  queue : List KeepWrite
  /-- Sealed values of the keep registers that were written, by offset (R458). -/
  kp : Table Word
  /-- Write counts of keep registers (R459). -/
  counts : Table Nat
  /-- Held journal entries, oldest first (R466). -/
  journal : List JEntry
  /-- SEQ of the next entry (R465). -/
  nextSeq : Nat
  /-- Sampler record slots (R531). -/
  slots : Table SmpSlot
  /-- Occurrences on their way from an island to the keep island (R540): (island, occurrence), oldest first. -/
  smpQ : List (Nat × Occ)
  /-- Occurrences held while a SAMPLER_CLEAR runs (R537), and those that need a new record while the keep is closed (R455). -/
  smpHeld : List Occ
  /-- Page 0 of the free slots below it was sealed with zero by a SAMPLER_CLEAR (R533, R537). -/
  smpZeroed : Nat
  /-- Two-copy records (R456): tree REBUILDS count (R416). -/
  hoopTime : Nat
  rebuilds : Nat
  /-- The OVERFLOW value committed last and the moment of that commit (R536). -/
  overflow : Nat
  overflowAt : Nat
  /-- The operating time in the newest slot pair, seconds (R457). -/
  timeSlot : Nat
  /-- WP_N is low (R460). -/
  wp : Bool
  /-- HOLD_N has fallen: until step 0 only the writes of the save sequence are accepted (R455). -/
  closed : Bool
  /-- The device is in its factory state (R450). -/
  factory : Bool
  /-- ETH_MAC_ADDR by port, as LK storage holds it; the provisioned address where unlisted (Table 02-3). -/
  macs : Table Nat
  /-- Admin public keys by index (R450). -/
  adminKeys : Table (List Byte)
  deriving DecidableEq, Repr

/-- Mailboxes, SMBus and console (14). -/
structure MbxSide where
  /-- The 16 mailboxes, idle where unlisted, and the SMBus target (R434, R442). -/
  boxes : Table Mailbox
  smb : Smbus
  /-- Signature failures of the last 60 s (R449) and the end of SIG_CLOSED. -/
  sigFails : List Nat
  sigClosed : Option Nat
  /-- The nonce in UNLOCK_NONCE, and the end of the closure of R425. -/
  jtagNonce : Option (List Byte)
  jtagClosed : Option Nat
  /-- Console: unlocked until (R445); the lines it accepted. -/
  console : Option Nat
  lines : List (List Byte)
  deriving DecidableEq, Repr

/-- Cache, coherence, tiers, medium and counter tree (05, 09, 10, 11, 13). Lines are keyed by
`keyId × 2^48 + line number` (R329). -/
structure MemSide where
  /-- The region table and the grants (R93, R94). -/
  regions : Table Region
  grants : Table Grant
  /-- Lines in the LLC, lines in the eviction buffer, ways by slice × 16 + way, and the replacement bits of a set (R328, R331, R333). -/
  llc : Table LlcLine
  evb : Table LlcLine
  ways : Table Way
  plru : Table Nat
  /-- Agents' cached lines, the transaction that a home has open on a line, messages in flight (R339 to R342). -/
  agents : Table AgentLine
  txns : Table CohTxn
  net : List CohMsg
  /-- The maintenance operation in progress (R349). -/
  maint : Option Maint
  /-- When the coherent domain failed, when it last returned to UP, and whether this is a second failure (R351, R353). -/
  domFailAt : Nat
  domUp : Option Nat
  domSecond : Bool
  /-- Stripes on the medium, reads and programs in flight, by physical line (R137, R139, R158). -/
  med : Table MedLine
  senses : Table Sense
  programs : Table Program
  /-- Dies by number, AGE entries by 64 × die + label, and the BAS registers of the stacks (R155, R165, R168). -/
  dies : Table Die
  ages : Table Age
  bas : Table Word
  /-- Spare rows used, by 64 × die + bank, and the spare row that stands for a slot row, by (64 × die + bank) × 2^22 + row (R141). -/
  spareUsed : Table Nat
  remap : Table Nat
  /-- The witness groups of the next label are programming (R150); the planes whose witness group of a label failed with no spare row left, by
  64 × die + label. -/
  epochAdvance : Bool
  noWitness : Table (List Nat)
  /-- Consecutive replays of one flit, by stack (R164); when a down link is retrained. -/
  flitReplays : Table Nat
  retrain : Table Nat
  /-- The scrubber (R306 to R311), less its repair queue, which is bobbin 2: the physical line at which the pass goes on, the
  deadline of the pass, and the pace set last in lines per second. -/
  scrubNext : Nat
  passEnd : Nat
  pace : Nat
  /-- The table area, the boot copies and the save area are still to be read in this pass (R311); boot copies that none other could mend. -/
  areasDue : Bool
  bootBad : List Nat
  /-- Lines in the DRAM tier (R178, R183), and DRAM reads in flight (R375). -/
  tier : Table TierLine
  dramReads : List DramRead
  dram : DramCtl
  /-- Lockstep groups that are stopped for a channel probe, with the DRAM address that caused it (R319). -/
  probing : Table Nat
  /-- Corrected bytes of a channel in its present second, with the second's start (R375). -/
  corrWin : Table (Nat × Nat)
  /-- The moments of the corrected errors of an LLC way in the last second, by 16 × slice + way (R336). -/
  wayCorr : Table (List Nat)
  /-- Consecutive failed retrainings of a channel (R367), and the channels whose RETURN is requested (R322). -/
  trainFails : Table Nat
  wantReturn : List Nat
  /-- L0 nodes of the counter tree, and its nodes of L1 to L4 by level × 2^32 + index (R407, R408). -/
  nodes : Table TreeNode
  upper : Table TreeNode
  /-- The NODE_TAGs of the nodes that were written out of the counter cache, by level × 2^32 + index (R408, R410). -/
  tags : Table (BitVec 64)
  /-- Nodes newer than their home (R412), and nodes under conversion (R411, R419). -/
  dirtyNodes : List Nat
  /-- L0 nodes whose newer contents are missing (R414). -/
  lost : List Nat
  conv : Table NodeConv
  /-- The 14 root counters (R407). -/
  root : Table Nat
  /-- Pricking, ledger, moves by slot, zero fills in progress by logical swatch, with the lines each has filled (06). -/
  prk : Table Prk
  ldg : Table Ldg
  moves : Table Move
  zeroFill : Table Nat
  filled : Table Nat
  /-- What moves and zero fills may yet copy of their share of the write bandwidth, in eighths of a line (R191). -/
  moveCredit : Nat
  /-- The buckets of the free pool (R184): the LINE_PROGS and number at which buckets 1 to 7 begin, as last sorted. -/
  buckets : List (Nat × Nat)
  /-- Swatches that wait to be retired, with the cause (R191). -/
  retireQ : List (Nat × Nat)
  /-- The table-area copy of what is written there periodically (R175). -/
  saved : TableCopy
  /-- Internal lines (key ID 255) in their DRAM home, by line number; zero where unlisted (R329). -/
  intern : Table LineBits
  /-- The wear governor (R200), the clock hand of the DRAM tier (R183), whether the cleaner is on its way down to CLEAN_LO (R188), and the place in
  the rotation of heat samples, by 2 × LLC group, 1 more for evictions (R178). -/
  gov : Governor
  tierHand : Nat
  cleaning : Bool
  rotation : Table Nat
  /-- The directory, by hoop panel (R277). -/
  dir : Table DirEntry
  /-- Key slots by key ID, the rekey walker, alarm windows and NOTICE_GAPs (R396, R419, R428). -/
  keys : Table KeySlot
  rekey : Option Rekey
  alarms : Table AlarmWin
  gaps : List NoticeGap
  deriving DecidableEq, Repr

/-- Lace links and the hoop (08). -/
structure LaceSide where
  /-- Links 0 to 15; off where unlisted. -/
  links : Table LaceLink
  /-- Lace frames that left the device, latest first. -/
  sent : List LaceSent
  /-- Routes by device. -/
  routes : Table Route
  /-- The member list, by device number (R267); empty on a device that stands alone. -/
  members : Table Member
  /-- Strangers by announced number (R267); before a hoop is formed, whoever answered discovery. -/
  strangers : Table Member
  /-- Segmented FORWARD and COMPLETE stitches whose last segment has not come, by source, type and OPREF. -/
  segments : Table Stitch
  /-- When a connection last used a device, and last wrote to it: key (CONN_ID × 64 + device) × 2, plus 1 for writes (R276). -/
  used : Table Nat
  /-- The standby holds the current tables, as the manager knows (R278). -/
  standbyCurrent : Bool
  /-- The member that MEMBER_REMOVE takes out, and the mailbox that waits. -/
  removing : Option (Nat × Nat)
  forks : List Fork
  /-- Forwarded stitches by operation. -/
  splits : Table Split
  /-- OPREFs in use: the operation and the part they name. -/
  refs : Table (Nat × Nat)
  nextRef : Nat
  scheds : Table Sched
  nextSched : Nat
  /-- Resync maps (R284) that this device keeps, by panel: the 1 MiB chunks written while the other copy is not CURRENT. -/
  maps : Table (List Nat)
  resyncs : List ResyncOut
  /-- By panel under resync here: 2^22 plus the chunk in progress, then the lines of it that a forked write has reached (R290). -/
  marks : Table (List Nat)
  jobs : List SyncJob
  /-- Hints of the hoop's 128 KiB swatches, by hoop address / 131,072 (R212); NONE where unlisted. -/
  hints : Table Nat
  /-- The end of DISCOVER_WAIT (R266). -/
  discover : Option Nat
  handover : Option Handover
  /-- The device that acts as manager, as far as this device knows, and the moment of its last heartbeat. -/
  mgr : Nat
  mgrBeat : Nat
  /-- The manager has stopped executing stitches (R286). -/
  stopped : Bool
  deriving DecidableEq, Repr

/-- Filet compute (07). -/
structure FiletSide where
  /-- Matrices by ID (R217). -/
  matrices : Table Matrix
  /-- Tiles by tile index (R223, R254); FREE where unlisted. -/
  tiles : Table Tile
  /-- Groups being programmed (R232), jobs by ID and the next ID (R236). -/
  progs : List FProg
  jobs : Table FJob
  nextJob : Nat
  deriving DecidableEq, Repr

/-- The bobbin manager (12): the bobbins and the push windows of the four HKP cores. -/
structure BobSide where
  /-- Bobbins by number, off where unlisted, and push windows by core (R380, R384). -/
  bobs : Table Bob
  wins : Table PushWin
  deriving DecidableEq, Repr

/-- Power states (Table 01-4), in the order DEVICE_STATUS numbers them. -/
inductive PowerSt where
  | off | standby | bringup | held | full | economy | idle | save | down
  deriving DecidableEq, Repr

/-- The number of a power state (Table 14-7). -/
def PowerSt.num : PowerSt → Nat
  | .off => 0 | .standby => 1 | .bringup => 2 | .held => 3 | .full => 4 | .economy => 5 | .idle => 6 | .save => 7 | .down => 8

/-- The state of the block. -/
structure State where
  /-- Commands that wait, first in first out. -/
  pending : List Instr
  /-- The model's clock, ns. -/
  now : Nat
  /-- Device time, µs ticks (GLB_TICK). -/
  tick : Nat
  /-- Registers whose value is not zero, by offset in the 16 MiB space (R547). -/
  regs : Table Word
  /-- How many free values the run has taken (log entry 2). -/
  free : Nat
  /-- Armed timers of periodic work, by the keys of `Timer` in Machine/Ops.lean: when each is due. -/
  timers : Table Nat
  /-- The power state (R19). -/
  power : PowerSt
  host : HostSide
  kept : KeepSide
  mbx : MbxSide
  mem : MemSide
  lace : LaceSide
  filet : FiletSide
  bob : BobSide
  pwr : PowerSide
  boot : BootSide
  /-- What the latest register read by the HKP or over JTAG returned. -/
  seen : Word
  deriving DecidableEq, Repr

/-! ### The faults and refusals of a step -/

/-- Why a step stops. Safe: the machine stops where the hardware has no such command. -/
inductive Fault where
  /-- Raised by a meaning whose operand names a unit the device does not have (port 9, mailbox 16, die 72): no such
  command can arrive. Safe. -/
  | noSuchUnit
  deriving DecidableEq, Repr

/-- Why a command has no meaning. -/
inductive Refusal where
  /-- Answered by `exec` for a command that has no meaning yet, with its mnemonic. Safe. -/
  | notModelled (mnemonic : String)
  deriving DecidableEq, Repr

/-! ### After reset -/

/-- The factory firmware, in both slots (log entry 8). -/
def factoryPkg : FwPkg :=
  { version := Config.factoryVersion.toNat, svn := Config.factorySvn.toNat, format := Config.factoryFormat.toNat, liveOk := true }

/-- The registers that are not zero when VSTBY has entered its window (R553): STANDBY_ONLY, FACTORY, PWR_CFG, PWR_HOLD_CFG and SMP_CFG from a
keep that was never written, SPARE of a part with no swatch retired (R205), and the CLEAN epoch record of a part as delivered (log entry 8). -/
def resetRegs : Table Word := [
  (0x000010, 8), (0x0A0058, 4194304), (0x0F0008, 2),
  (0x110010, 0x8000FA1F400), (0x110018, 0x5A75300FA0), (0x130008, 0x300A), (0x150030, 0x100000000)]

/-- The machine right after reset: a part as delivered, whose VSTBY has just entered its window: STANDBY at step 0, in its minimum off time
(R479, R490, R553; log entry 8 for every value the spec gives no reset value for). -/
def State.reset : State :=
  { pending := []
    now := 0
    tick := 0
    regs := resetRegs
    free := 0
    timers := []
    power := .standby
    host := {
      txq := [], pause := [], xoff := [], inbox := [], train := [], closing := [], fecBad := [], ctrlRate := [], sas := [], sent := [], conns := [], quarantine := []
      unknownRate := (0, 0), ops := [], nextOp := 0, nextGen := 0, peak := [], sampled := [], lastWork := 0 }
    kept := {
      queue := [], kp := [], counts := [], journal := [], nextSeq := 1, slots := [], smpQ := [], smpHeld := [], smpZeroed := 0, hoopTime := 0, rebuilds := 0
      overflow := 0, overflowAt := 0, timeSlot := 0, wp := false, closed := false, factory := true, macs := [], adminKeys := [] }
    mbx := {
      boxes := [], smb := { mailbox := 0, buffer := 0, offset := 0, regAddr := 0, regStatus := .ok, out := [] }
      sigFails := [], sigClosed := none, jtagNonce := none, jtagClosed := none, console := none, lines := [] }
    mem := {
      regions := [], grants := [], llc := [], evb := [], ways := [], plru := [], agents := [], txns := [], net := [], maint := none
      domFailAt := 0, domUp := none, domSecond := false, med := [], senses := [], programs := [], dies := [], ages := [], bas := []
      spareUsed := [], remap := [], epochAdvance := false, noWitness := [], flitReplays := [], retrain := [], scrubNext := 0, passEnd := 0, pace := 0, areasDue := false, bootBad := []
      tier := [], dramReads := [], dram := .idle, probing := [], corrWin := [], wayCorr := [], trainFails := [], wantReturn := [], nodes := [], upper := [], tags := [], dirtyNodes := []
      lost := [], conv := [], root := [], prk := [], ldg := [], moves := [], zeroFill := [], filled := []
      moveCredit := 0, buckets := (List.range 7).map (fun i => (0, 4194304 * (i + 1))), retireQ := []
      saved := { progs := [], used := 0, days := [], selvedge := 0 }
      intern := []
      gov := {
        days := [], used := 0, allow := 4509715660800, rate := 0, tokens := 0, dayEnd := 0, lastWait := none, lastSlow := none
        slowAt := [], day := 0 }
      tierHand := 0, cleaning := false, rotation := [], dir := [], keys := [], rekey := none, alarms := [], gaps := [] }
    lace := {
      links := [], sent := [], routes := [], members := [], strangers := [], segments := [], used := [], standbyCurrent := false
      removing := none, forks := [], splits := [], refs := [], nextRef := 0, scheds := [], nextSched := 0, maps := [], resyncs := []
      marks := [], jobs := [], hints := [], discover := none, handover := none, mgr := 0, mgrBeat := 0, stopped := false }
    filet := { matrices := [], tiles := [], progs := [], jobs := [], nextJob := 0 }
    bob := { bobs := [], wins := [] }
    pwr := {
      testEn := false, hold := false, stepAt := 0, deaf := some 50000000, onReq := false, stop := none, cause := 0, causeStep := 0, forced := false
      graceDue := none, refuse := none, descent := .none, rails := 0, autoDue := none, thermHeld := false, shutdownNew := none
      lth := 0, lcap := 0, capAt := 0, coolFrom := none, model := [], sensor := [], sweepAt := none, sweeping := false, sweepMore := false
      sweepBoxes := [], moreBoxes := [], temps := [], warn := [], action := [], idling := false, prevMode := 0, waysOff := 0, slowAt := []
      holdTest := false, dramRst := false, held := false, tH := 0, holdFail := 0, cBank := 0, v1 := 0, v2 := 0, testMs := 0, save := none, gen := 0, consumed := 0
      saveKey := none }
    boot := {
      slots := [(0, factoryPkg), (1, factoryPkg)], staging := [], total := 0, stage := 0, running := 0, pendingSlot := 0, attempts := 0
      svnFloor := 0, activatedAt := none, verify := 0, fallback := 0, active := 0, loading := false, bootOkDue := none, swap := none
      settings := [], inForce := [], format := Config.factoryFormat.toNat, twoStores := false, items := [], diag := none, nextDiag := 0 }
    seen := 0 }

end Sys2Proof.Machine
end

