-- ==== Sys2Proof/Machine/Regs.lean ====
section
/-!
DEFINITION. Reading and changing one register of the state's sparse register map (R547), its fields and its counters
(R48), and the names of the registers the meanings use (Table 18-1).
-/
namespace Sys2Proof.Machine

/-- The value a register holds. -/
def State.rd (s : State) (off : Nat) : Word := s.regs.get off 0

/-- The state with register `off` holding `v`. -/
def State.wr (s : State) (off : Nat) (v : Word) : State := { s with regs := s.regs.set off v 0 }

/-- Field `[hi:lo]` of a register. -/
def State.fld (s : State) (off hi lo : Nat) : Nat := (s.rd off).field hi lo

/-- The state with field `[hi:lo]` of a register holding `n`. -/
def State.setFld (s : State) (off hi lo n : Nat) : State := s.wr off ((s.rd off).withField hi lo n)

/-- Bit `b` of a register. -/
def State.flag (s : State) (off b : Nat) : Bool := s.fld off b b == 1

/-- The state with bit `b` of a register set. -/
def State.setFlag (s : State) (off b : Nat) : State := s.setFld off b b 1

/-- The state with bit `b` of a register clear. -/
def State.clrFlag (s : State) (off b : Nat) : State := s.setFld off b b 0

/-- The state with bit `b` of a register equal to `v`. -/
def State.putFlag (s : State) (off b : Nat) (v : Bool) : State := s.setFld off b b v.toNat

/-- A 48-bit counter advanced by `n`: it wraps to zero and then sets its sticky bit [63] (R48). -/
def counterAdd (v : Word) (n : Nat) : Word :=
  let t := v.field 47 0 + n
  let w := v.withField 47 0 t
  if t < 2 ^ 48 then w else w.withField 63 63 1

/-- The state with the counter at `off` advanced by `n`. -/
def State.count (s : State) (off n : Nat) : State := s.wr off (counterAdd (s.rd off) n)

/-- A field that saturates at its largest value, advanced by one. -/
def State.saturate (s : State) (off hi lo : Nat) : State :=
  let v := s.fld off hi lo
  if v + 1 < 2 ^ (hi + 1 - lo) then s.setFld off hi lo (v + 1) else s

/-- A Bool as bit `b`. -/
def bitAt (v : Bool) (b : Nat) : Nat := if v then 2 ^ b else 0

/-! Register offsets (Table 18-1 gives the bases). -/
namespace Reg
abbrev glbSerial : Nat := 0x000008
abbrev glbStatus : Nat := 0x000010
abbrev glbStrap : Nat := 0x000028
abbrev glbAlert : Nat := 0x000030
abbrev glbResetCause : Nat := 0x000038
abbrev glbFwpInfo : Nat := 0x000040
abbrev glbFwpSel : Nat := 0x000048
abbrev ethLaneMode : Nat := 0x010008
abbrev ethUdpPort : Nat := 0x010010
abbrev ethDropLast : Nat := 0x010018
abbrev ethPort (p : Nat) : Nat := 0x011000 + 0x1000 * p
abbrev ethPortCfg (p : Nat) : Nat := 0x011000 + 0x1000 * p
abbrev ethPortStatus (p : Nat) : Nat := 0x011008 + 0x1000 * p
abbrev ethMacAddr (p : Nat) : Nat := 0x011010 + 0x1000 * p
abbrev ethNexthopMac (p : Nat) : Nat := 0x011018 + 0x1000 * p
abbrev ethIpv4 (p : Nat) : Nat := 0x011020 + 0x1000 * p
abbrev ethIpv6Hi (p : Nat) : Nat := 0x011028 + 0x1000 * p
abbrev ethIpv6Lo (p : Nat) : Nat := 0x011030 + 0x1000 * p
abbrev ethIpTx (p : Nat) : Nat := 0x011038 + 0x1000 * p
abbrev ethPfcThr (p : Nat) : Nat := 0x011040 + 0x1000 * p
abbrev ethMsecCfg (p : Nat) : Nat := 0x011048 + 0x1000 * p
/-- Port counter `n` of R581. -/
abbrev ethCount (p n : Nat) : Nat := 0x011100 + 0x1000 * p + 8 * n
abbrev ethPfcRx (p c : Nat) : Nat := 0x011140 + 0x1000 * p + 8 * c
abbrev ethPfcTx (p c : Nat) : Nat := 0x011180 + 0x1000 * p + 8 * c
/-- Lane counter `n` of host lane `l` (R581): 0 FEC_CORR_CW, 1 FEC_UNCORR_CW, 2 FEC_SYM. -/
abbrev ethFec (l n : Nat) : Nat := 0x0111C0 + 0x1000 * l + 8 * n
abbrev ethDrop (p cause : Nat) : Nat := 0x011400 + 0x1000 * p + 8 * cause
abbrev shtCfg : Nat := 0x030008
abbrev shtCreditCfg : Nat := 0x030010
abbrev shtStatus : Nat := 0x030018
abbrev shtDropLast : Nat := 0x030020
abbrev shtDrop (cause : Nat) : Nat := 0x030100 + 8 * cause
abbrev shtEvent (n : Nat) : Nat := 0x030200 + 8 * n
abbrev shtConnSel : Nat := 0x031000
abbrev hopStatus : Nat := 0x150008
abbrev hopEpoch : Nat := 0x150010
abbrev hopHoopId : Nat := 0x150018
abbrev hopCfg : Nat := 0x150020
abbrev hopTime : Nat := 0x150028
abbrev hopExit : Nat := 0x150030
abbrev hopCount (n : Nat) : Nat := 0x150100 + 8 * n
abbrev lceCfg : Nat := 0x020008
abbrev lceDropLast : Nat := 0x020018
abbrev lceDrop (cause : Nat) : Nat := 0x020400 + 8 * cause
abbrev lceLinkStatus (n : Nat) : Nat := 0x021000 + 0x100 * n
abbrev lceCount (n m : Nat) : Nat := 0x021010 + 0x100 * n + 8 * m
abbrev kepStatus : Nat := 0x0F0008
abbrev kepCycle : Nat := 0x0F0010
abbrev kepTime : Nat := 0x0F0018
abbrev kepWearSel : Nat := 0x0F0020
abbrev kepCount (n : Nat) : Nat := 0x0F0100 + 8 * n
abbrev jnlStatus : Nat := 0x100008
abbrev jnlArchived : Nat := 0x100018
abbrev jnlCount (n : Nat) : Nat := 0x100100 + 8 * n
abbrev mbxCfg : Nat := 0x0E0008
abbrev mbxStatus : Nat := 0x0E0010
abbrev mbxCount (n : Nat) : Nat := 0x0E0100 + 8 * n
abbrev smpCfg : Nat := 0x130008
abbrev smpStatus : Nat := 0x130010
abbrev smpOverflow : Nat := 0x130018
abbrev smpSel : Nat := 0x130020
/-- Performance counter `i` where no block register holds it (R538). -/
abbrev pmcValue (i : Nat) : Nat := 0x141000 + 8 * i
abbrev pmcStatus : Nat := 0x140008
abbrev pmcLastTime : Nat := 0x140010
abbrev pmcSampleCfg : Nat := 0x140018
abbrev pmcSampleAddr : Nat := 0x140020
abbrev pmcSampleSize : Nat := 0x140028
abbrev pmcSampleMin : Nat := 0x140030
end Reg

/-! ### The firmware (R3, R433, R520) -/

/-- The firmware runs: HKP_UP (R433). -/
def State.hkpUp (s : State) : Bool := s.flag Reg.glbStatus 1

/-- A live swap runs: new requests wait (R520). -/
def State.swapping (s : State) : Bool := s.boot.swap.isSome

/-- Firmware placement work pauses: move starts, leveling, filet audits and refreshes, ladder refits (R3, R520). -/
def State.fwPaused (s : State) : Bool := !s.hkpUp || s.swapping

end Sys2Proof.Machine
end

