-- ==== Sys2Proof/Machine/Ops.lean ====
section
/-!
DEFINITION. The operations every family shares: timers, free values, time stamps, byte strings as numbers, raising a
sampler event (R540), the change journal (R463 to R466), the power state, and the answer of a meaning.
-/
namespace Sys2Proof.Machine

/-- What a meaning answers. -/
abbrev Result := Host.Outcome State Fault Refusal

/-- The answer of a meaning whose operands name units: a next state where the device has them, a fault otherwise. -/
def within (ok : Bool) (s : State) : Result := if ok then .next s else .fault .noSuchUnit

/-! ### Time -/

/-- One microsecond on the model's clock. -/
def us (n : Nat) : Nat := 1000 * n
/-- One millisecond. -/
def ms (n : Nat) : Nat := 1000000 * n
/-- One second. -/
def sec (n : Nat) : Nat := 1000000000 * n

/-- Has the moment `due` come? -/
def State.due (s : State) (due : Nat) : Bool := due ≤ s.now

/-- The device's time stamp (R457), from KEP_CYCLE and KEP_TIME. -/
def State.stamp (s : State) : Stamp :=
  { cycle := s.fld Reg.kepCycle 31 0, hours := s.fld Reg.kepTime 23 0, seconds := s.fld Reg.kepTime 35 24 }

/-- Does the expiry at `due` fall in the present microsecond, with an arrival that stops or restarts the timer waiting behind it in the
queue? Then the arrival wins (R18). -/
def State.overtaken (s : State) (due : Nat) (stops : Instr → Bool) : Bool := decide (s.now < due + us 1) && s.pending.any stops

/-- Does a timer that expires at `due` and that these arrivals stop or restart fire now (R18)? -/
def State.fires (s : State) (due : Nat) (stops : Instr → Bool) : Bool := s.due due && !s.overtaken due stops

/-- An island's own copy of device time, which differs from device time by at most one tick (R16). -/
def State.islandTick (s : State) (island : Nat) : Nat := s.tick + (Config.islandSkew island s.tick).toNat % 3 - 1

/-- The low 32 bits of an island's copy of device time, in ticks. -/
def State.tick32 (s : State) (island : Nat) : Nat := s.islandTick island % 2 ^ 32

/-! ### Timers of periodic work -/

/-! Keys of the timers of periodic work in `State.timers`. -/
namespace Timer
abbrev epoch : Nat := 0
abbrev epochRecheck : Nat := 1
abbrev refit : Nat := 2
abbrev band : Nat := 3
abbrev heat : Nat := 4
abbrev level : Nat := 5
abbrev table : Nat := 6
abbrev govDay : Nat := 7
abbrev govTick : Nat := 8
abbrev scrubPass : Nat := 9
abbrev scrubPace : Nat := 10
abbrev patrol : Nat := 11
/-- DRAM pause of group `g`. -/
abbrev pause (g : Nat) : Nat := 12 + g
abbrev audit : Nat := 14
abbrev selvedge : Nat := 15
abbrev timeSlot : Nat := 16
abbrev capTick : Nat := 17
abbrev thermTick : Nat := 18
abbrev thermModel : Nat := 19
abbrev sweep : Nat := 20
abbrev heartbeat : Nat := 21
abbrev holdTest : Nat := 22
end Timer

/-- Is the timer `k` armed and due? -/
def State.ripe (s : State) (k : Nat) : Bool :=
  match s.timers.find k with
  | some d => s.due d
  | none => false

/-- The timer `k` armed to expire in `ns`. -/
def State.arm (s : State) (k ns : Nat) : State := { s with timers := s.timers.put k (s.now + ns) }

/-- The timer `k` stopped. -/
def State.disarm (s : State) (k : Nat) : State := { s with timers := s.timers.drop k }

/-- The work `f` of a periodic timer: done when the timer is armed and due, and the timer then runs for another `ns`. -/
def State.periodic (s : State) (k ns : Nat) (f : State → State) : State :=
  if s.ripe k then (f s).arm k ns else s

/-! ### Free values (log entry 2) -/

/-- The next free value of 64 bits, and the state after it is taken. -/
def State.draw (s : State) : BitVec 64 × State := (Config.free64 s.free, { s with free := s.free + 1 })

/-- The next free value of 32 bytes. -/
def State.draw256 (s : State) : BitVec 256 × State := (Config.free256 s.free, { s with free := s.free + 1 })

/-! ### Byte strings -/

/-- A big-endian number of bytes (R50). -/
def beNat (l : List Byte) : Nat := l.foldl (fun a b => a * 256 + b.toNat) 0

/-- A little-endian number of bytes (R98). -/
def leNat : List Byte → Nat
  | [] => 0
  | b :: t => b.toNat + 256 * leNat t

/-- `n` bytes, little-endian, of a number. -/
def leBytes : Nat → Nat → List Byte
  | 0, _ => []
  | n + 1, v => BitVec.ofNat 8 v :: leBytes n (v / 256)

/-- `n` bytes, big-endian, of a number. -/
def beBytes (n v : Nat) : List Byte := (leBytes n v).reverse

/-- `n` zero bytes. -/
def zeros (n : Nat) : List Byte := List.replicate n 0

/-- `len` bytes of a string from offset `off`. -/
def slice (l : List Byte) (off len : Nat) : List Byte := (l.drop off).take len

/-- The little-endian number in bytes `off` to `off + len - 1`. -/
def leAt (l : List Byte) (off len : Nat) : Nat := leNat (slice l off len)

/-- The big-endian number in bytes `off` to `off + len - 1`. -/
def beAt (l : List Byte) (off len : Nat) : Nat := beNat (slice l off len)

/-- Are the bytes from `off`, `len` of them, all zero? -/
def zeroAt (l : List Byte) (off len : Nat) : Bool := (slice l off len).all (fun b => b == 0)

/-- Quotient rounded up. -/
def ceilDiv (a b : Nat) : Nat := (a + b - 1) / b

/-! ### Sampler events (R529, R540) -/

/-! Islands, numbered in the order of Table 01-3. -/
namespace Island
/-- The host MAC island of a lane. -/
abbrev host (lane : Nat) : Nat := lane / 2 % 4
/-- The MAC island of a lace link: links 8 to 15 use the host lanes (R256). -/
abbrev lace (link : Nat) : Nat := if link < 8 then 4 + link / 2 else host (link - 8)
/-- The transport island of an engine. -/
abbrev engine (e : Nat) : Nat := 8 + e % 8
/-- The LLC group of a slice. -/
abbrev llc (slice : Nat) : Nat := 16 + slice / 4 % 8
abbrev dram : Nat := 24
/-- The stack port of a stack. -/
abbrev stack (k : Nat) : Nat := 25 + k % 9
/-- The stack base of a stack. -/
abbrev base (k : Nat) : Nat := 34 + k % 9
abbrev hkp : Nat := 43
abbrev keep : Nat := 44
abbrev mgmt : Nat := 45
end Island

/-- The island of a host port: that of its lowest lane, which runs its MAC and MACsec in every mode (R24). -/
def State.portIsland (s : State) (p : Nat) : Nat :=
  Island.host (match s.fld Reg.ethLaneMode 9 8 with | 0 => 4 * p | 1 => 2 * p | _ => p)

/-- The island in which an event of a code and source arises (log entry 13). -/
def State.islandOf (s : State) (code src : Nat) : Nat :=
  match code / 0x1000 with
  | 1 => s.portIsland src
  | 2 => if code = 0x200C ∨ code = 0x200D then Island.dram else Island.stack (src / 8)
  | 4 => Island.stack 0
  | 5 => if code = 0x5001 ∨ code = 0x500A then Island.lace src else Island.engine 0
  | 7 => if code = 0x7001 ∨ code = 0x7002 then Island.llc (src / 16) else Island.llc 0
  | 6 | 0xA => Island.llc 0
  | 9 | 0xE | 0xF => Island.hkp
  | 0xB => Island.keep
  | 0xC | 0xD => Island.mgmt
  | _ => if code = 2 then Island.keep else Island.dram

/-- Raises a sampler event in an island: the occurrence, with its time stamp, joins its island's queue of 16 toward the keep island, or
is lost and counted in SMP_EVENTS_LOST (R540). -/
def State.raiseAt (s : State) (isl code src val : Nat) : State :=
  if (s.kept.smpQ.filter (fun e => e.1 == isl)).length < 16 then
    { s with kept := { s.kept with
        smpQ := s.kept.smpQ ++ [(isl, { code := code, src := src, val := val % 2 ^ 32, time := s.stamp })] } }
  else s.count (Reg.pmcValue 496) 1

/-- Raises a sampler event in the island where events of its code arise. -/
def State.raise (s : State) (code src val : Nat) : State := s.raiseAt (s.islandOf code src) code src val

/-- Raises a filet event of a tile, whose source is the tile index modulo 2^16, at its stack's filet shell (R252). -/
def State.raiseTile (s : State) (code tile val : Nat) : State := s.raiseAt (Island.stack (tile / 2 ^ 17)) code (tile % 65536) val

/-- The source of an event that concerns the device as a whole: its device number, HADDR. -/
def State.self (s : State) : Nat := s.fld Reg.glbStrap 7 2

/-! ### The change journal (R463 to R466) -/

/-- Entries held. -/
def State.jnlHeld (s : State) : Nat := s.kept.journal.length

/-- The journal is FULL: 8,176 entries are held (R466). -/
def State.jnlFull (s : State) : Bool := 8176 ≤ s.jnlHeld

/-- A value as a journal entry holds it: at most 16 bytes, or the first 16 of its SHA-384 (R464). -/
def jnlValue (l : List Byte) : List Byte × Bool :=
  if l.length ≤ 16 then (l ++ zeros (16 - l.length), false) else ((Config.sha384 l).take 16, true)

/-- What an entry says of who made the change: interface, port, connection and credential (Table 14-10). -/
structure Author where
  iface : Nat
  port : Nat := 0
  conn : Nat := 0
  cred : Nat := 0
  deriving DecidableEq, Repr

/-- The next journal entry for a change of `object` (a register where `cmd` is false). -/
def State.jEntry (s : State) (a : Author) (cmd : Bool) (object : Nat) (result : Status) (old new : List Byte) : JEntry :=
  let o := jnlValue old
  let n := jnlValue new
  { seq := s.kept.nextSeq % 2 ^ 32, time := s.stamp, iface := a.iface, port := a.port,
    form := o.2.toNat + 2 * n.2.toNat + 4 * cmd.toNat, connId := a.conn, cred := a.cred, object := object,
    result := result.code, newLen := min 16 new.length, old := o.1, new := n.1 }

/-- Appends a sealed entry to the ring, with the HIGH and FULL marks of R466. -/
def State.jAppend (s : State) (e : JEntry) : State :=
  let s1 := { s with kept := { s.kept with journal := s.kept.journal ++ [e], nextSeq := s.kept.nextSeq + 1 } }
  let s2 := (s1.count (Reg.jnlCount 0) 1).count (Reg.kepCount 0) 1
  let h := s2.jnlHeld
  if h = 7680 then s2.raise 0xB003 s2.self 0 else if h = 8176 then s2.raise 0xB004 s2.self 0 else s2

/-- A configuration change that is refused when the journal is FULL (R466): counted, not journaled. -/
def State.jRefuse (s : State) : State := s.count (Reg.jnlCount 1) 1

/-- Journals a change that is never refused: from the reserve, or lost and counted once the reserve is used up (R466). -/
def State.jAlways (s : State) (e : JEntry) : State :=
  if s.jnlHeld < 8192 then s.jAppend e else s.count (Reg.jnlCount 2) 1

/-- Journals what is never refused and has no place in the reserve (R463, R466): not recorded once the journal is FULL. -/
def State.jPlain (s : State) (e : JEntry) : State := if s.jnlFull then s else s.jAppend e

/-- Journals a configuration change that passed the FULL check. -/
def State.jChange (s : State) (a : Author) (cmd : Bool) (object : Nat) (old new : List Byte) : State :=
  s.jAppend (s.jEntry a cmd object .ok old new)

end Sys2Proof.Machine
end

