-- ==== Sys2Proof/Machine/Heat.lean ====
section
/-!
DEFINITION. What the thermal points show (R494, R496): governing temperatures, hub and stack temperature, rates, the level in force.
Temperatures are in 1/16 °C.
-/
namespace Sys2Proof.Machine

namespace Reg
abbrev drcStatus : Nat := 0x070010
abbrev pwrStatus : Nat := 0x110008
abbrev pwrCfg : Nat := 0x110010
abbrev pwrHoldCfg : Nat := 0x110018
abbrev pwrMode : Nat := 0x110028
abbrev pwrLastFault : Nat := 0x110038
abbrev pwrRail (r : Nat) : Nat := 0x110100 + 8 * r
abbrev pwrCount (n : Nat) : Nat := 0x110200 + 8 * n
abbrev thmCfg : Nat := 0x120008
abbrev thmStatus : Nat := 0x120010
abbrev thmSel : Nat := 0x120018
abbrev thmShutdownLast : Nat := 0x120030
abbrev thmCount (n : Nat) : Nat := 0x120100 + 8 * n
end Reg

/-- Does the latest sweep still count toward the governing temperature (R494)? -/
def State.sweepCounts (s : State) : Bool := match s.pwr.sweepAt with | some t => decide (s.now ≤ t + ms 50) | none => false

/-- The governing temperature of a point (R494). -/
def State.governing (s : State) (i : Nat) : Int :=
  let m := s.pwr.model.getD i 0
  if s.sweepCounts then max m (s.pwr.sensor.getD i 0) else m

/-- The governing temperatures of the 30 points. -/
def State.governingAll (s : State) : List Int := (List.range 30).map s.governing

/-- The largest of a list of temperatures. -/
def hottest (l : List Int) : Int := l.foldl max (l.headD 0)

/-- The hub temperature: points 0 to 11. -/
def State.hubTemp (s : State) : Int := hottest (s.governingAll.take 12)
/-- The stack temperature: points 12 to 29. -/
def State.stackTemp (s : State) : Int := hottest (s.governingAll.drop 12)

/-- The change of a point's governing temperature over the past `window` ns, as far as the history reaches back; 0 before (log entry 41). -/
def State.tempChange (s : State) (i window : Nat) : Int :=
  match s.pwr.temps.find? (fun e => decide (e.1 + window ≤ s.now)) with
  | some e => s.governing i - e.2.getD i 0
  | none => 0

/-- RATE of a point, 0.01 °C/s over 1 s. -/
def State.rate (s : State) (i : Nat) : Int := s.tempChange i (sec 1) * 100 / 16

/-- The level in force, L (R498). -/
def State.level (s : State) : Nat := max s.pwr.lth s.pwr.lcap

/-- A signed 16-bit field. -/
def field16 (i : Int) : Nat := (i % 65536).toNat

/-- RATE_MAX. -/
def State.rateMax (s : State) : Int := hottest ((List.range 30).map s.rate)

/-- Throttling is active: L_th or L_cap is above 0 (R497). -/
def State.throttling (s : State) : Bool := s.level != 0

/-! ### IDLE (R491, R373) -/

/-- The mode in service that PWR_MODE names: ECONOMY or FULL. -/
def State.serviceMode (s : State) : PowerSt := if s.fld Reg.pwrMode 1 0 = 1 then .economy else .full

/-- A stitch wakes the device from IDLE to the mode it had before (R491): the DRAM leaves self-refresh and is refilled (R373). One that arrives
before IDLE has begun ends the cleaner's work toward it (log entry 171). -/
def State.wake (s : State) : State :=
  if s.power = .idle then
    let s1 := if s.fld Reg.pwrMode 1 0 = 2 then s.setFld Reg.pwrMode 1 0 s.pwr.prevMode else s
    let s2 := (((s1.clrFlag Reg.drcStatus 1).setFld Reg.drcStatus 23 16 0).setFlag Reg.drcStatus 2)
    { s2 with power := s2.serviceMode }
  else if s.pwr.idling then
    let s1 := if s.fld Reg.pwrMode 1 0 = 2 then s.setFld Reg.pwrMode 1 0 s.pwr.prevMode else s
    { s1 with pwr := { s1.pwr with idling := false } }
  else s

end Sys2Proof.Machine
end

