-- ==== Sys2Proof/Machine/Bobbin.lean ====
section
/-!
DEFINITION. Bobbins: the hardware queues of the cell pool (12).
-/
namespace Sys2Proof.Machine

namespace Reg
abbrev bobMode : Nat := 0x0C0008
abbrev bobStatus : Nat := 0x0C0010
abbrev bobDescSel : Nat := 0x0C0018
abbrev bobPopSel (c : Nat) : Nat := 0x0C0118 + 0x40 * c
abbrev bobCount (n : Nat) : Nat := 0x0C0200 + 8 * n
abbrev bobLevelPend (b : Nat) : Nat := 0x0C2000 + 8 * (b / 64)
abbrev bobStalePend (b : Nat) : Nat := 0x0C4000 + 8 * (b / 64)
end Reg

/-! ### Cells -/

/-- Cells of a packet of `len` bytes (R382). -/
def cellsOf (len : Nat) : Nat := ceilDiv len 56
/-- Words of a packet of `len` bytes (R382). -/
def wordsOf (len : Nat) : Nat := ceilDiv len 7

/-- Bobbin `b`. -/
def State.bobbin (s : State) (b : Nat) : Bob := s.bob.bobs.get b .off
/-- The state with bobbin `b` holding `x`. -/
def State.putBob (s : State) (b : Nat) (x : Bob) : State := { s with bob := { s.bob with bobs := s.bob.bobs.set b x .off } }
/-- Push window `c`. -/
def State.pushWin (s : State) (c : Nat) : PushWin := s.bob.wins.get c .idle
/-- The state with push window `c` holding `w`. -/
def State.putWin (s : State) (c : Nat) (w : PushWin) : State := { s with bob := { s.bob with wins := s.bob.wins.set c w .idle } }

/-- Cells of a bobbin's committed packets: those of the oldest are free up to the last whole cell popped (R386). -/
def Bob.cells (x : Bob) : Nat :=
  match x.pkts with
  | [] => 0
  | p :: rest => rest.foldl (fun a q => a + cellsOf q.len) (cellsOf p.len - x.popped / 8)

/-- Packets in progress in a bobbin. -/
def State.openPkts (s : State) (b : Nat) : List PushWin := s.bob.wins.values.filter (fun w => w.bob == b && w.left != 0)

/-- Cells a bobbin holds, reservations included (Table 12-6). -/
def State.bobCells (s : State) (b : Nat) : Nat := (s.openPkts b).foldl (fun a w => a + cellsOf w.len) (s.bobbin b).cells

/-- FREE_CELLS of the shared part (R378). -/
def State.freeCells (s : State) : Nat :=
  131072 - ((s.bob.bobs.foldl (fun a e => a + e.2.cells) 0) +
    (s.bob.wins.values.foldl (fun a w => if w.left = 0 then a else a + cellsOf w.len) 0))

/-- MODE (Table 12-3). -/
def State.bobMode (s : State) : Nat := s.fld Reg.bobMode 1 0

/-- The packet limit of a bobbin; 0 means 65,536. -/
def Bob.maxPkts (x : Bob) : Nat := if x.pktLimit = 0 then 65536 else x.pktLimit

/-! ### Producing (R384, R385) -/

/-- Does a start of `len` bytes in bobbin `b` fail, and with which status (R384)? -/
def State.startRefused (s : State) (b len : Nat) : Option Status :=
  let x := s.bobbin b
  let n := cellsOf len
  if b = 0 || (3 ≤ b && b ≤ 0xFF) || !x.enabled || x.broken then some .address
  else if s.freeCells < n || x.cellLimit < s.bobCells b + n || x.maxPkts < x.pkts.length + (s.openPkts b).length + 1 then some .noCredit
  else none

/-- A refused start: NO_CREDIT is counted and raises its event (R384, R393). -/
def State.noCredit (s : State) (b len : Nat) (st : Status) : State :=
  if st = .noCredit then (s.count (Reg.bobCount 7) 1).raise 0x9004 b (cellsOf len) else s

/-- The stale-tail timer of a bobbin starts anew in the modes in which it runs, while it is non-empty (R390). -/
def State.restale (s : State) (x : Bob) : Bob :=
  { x with staleFrom := if s.bobMode != 0 && !x.pkts.isEmpty then some s.now else none, fired := false }

/-- The level interrupt of a bobbin (R390). -/
def State.levelIrq (s : State) (b : Nat) : State := (s.setFlag (Reg.bobLevelPend b) (b % 64)).count (Reg.bobCount 12) 1

/-- A packet is committed (R385): it becomes visible, and its level is evaluated (R390). -/
def State.commitPkt (s : State) (b : Nat) (p : BobPkt) : State :=
  let x := s.bobbin b
  let y : Bob := { x with pkts := x.pkts ++ [p] }
  let s1 := (s.putBob b (if x.pkts.isEmpty then s.restale y else y)).count (Reg.bobCount 5) 1
  if s.bobMode = 0 && x.level != 0 && y.pkts.length == x.level then s1.levelIrq b else s1

/-- The words of a packet's bytes (R382); bytes beyond the last are zero. -/
def pktWords (l : List Byte) : List (BitVec 56 × Bool) :=
  (List.range (wordsOf l.length)).map (fun w => (BitVec.ofNat 56 (leNat (slice l (7 * w) 7)), false))

/-- A hardware producer pushes a whole packet, or is refused (R384, R385). -/
def State.bobPush (s : State) (b : Nat) (l : List Byte) : Bool × State :=
  match s.startRefused b l.length with
  | some st => (false, s.noCredit b l.length st)
  | none => (true, s.commitPkt b { len := l.length, words := pktWords l })

/-- The bytes of a packet. -/
def BobPkt.bytes (p : BobPkt) : List Byte := (p.words.flatMap (fun w => leBytes 7 w.1.toNat)).take p.len

/-- A hardware consumer takes the oldest committed packet whole, as its bytes. -/
def State.bobTake (s : State) (b : Nat) : Option (List Byte × State) :=
  let x := s.bobbin b
  match x.pkts with
  | [] => none
  | p :: rest =>
    if x.broken then none
    else some (p.bytes, (s.putBob b (s.restale { x with pkts := rest, popped := 0 })).count (Reg.bobCount 6) 1)

/-- A write of BOB_PUSH_HDR by HKP core `core` (R384). -/
def State.packetStart (s : State) (core : Nat) (value : Word) : State :=
    let b := value.field 15 0
    let len := if value.field 31 16 = 0 then 65536 else value.field 31 16
    let w := s.pushWin core
    let s1 := if w.left = 0 then s else (s.putWin core .idle).count (Reg.bobCount 10) 1
    match s1.startRefused b len with
    | some st => (s1.noCredit b len st).putWin core { PushWin.idle with status := st.code }
    | none => s1.putWin core { status := 0, bob := b, len := len, words := [], left := wordsOf len }

/-- PACKET_START (R384). -/
def execPacketStart (core : Nat) (value : Word) (s : State) : Result := within (core < 4) (s.packetStart core value)

/-- A write of BOB_PUSH_DATA by HKP core `core` stores a word; the last one commits the packet (R385). -/
def State.pushData (s : State) (core : Nat) (value : Word) : State :=
    let w := s.pushWin core
    if w.left = 0 then s.count (Reg.bobCount 11) 1
    else
      let used := if w.left = 1 then 8 * (w.len - 7 * w.words.length) else 56
      let ws := w.words ++ [(BitVec.ofNat 56 (value.toNat % 2 ^ used), value.bit 60)]
      if w.left = 1 then (s.putWin core { w with words := [], left := 0 }).commitPkt w.bob { len := w.len, words := ws }
      else s.putWin core { w with words := ws, left := w.left - 1 }

/-- PUSH_DATA (R385). -/
def execPushData (core : Nat) (value : Word) (s : State) : Result := within (core < 4) (s.pushData core value)

/-! ### Consuming (R386, R387) -/

/-- The data word of a tag and payload (Table 12-2). -/
def dataWord (tag data : Nat) : Word := BitVec.ofNat 64 (tag * 2 ^ 56 + data)

/-- The word that is next in a bobbin, as it is read (R382, R391). -/
def BobPkt.word (p : BobPkt) (i : Nat) (lost : Bool) : Word :=
  let w := p.words.getD i (0, false)
  let n := p.words.length
  let cnt := if i + 1 = n then p.len - 7 * i else 7
  dataWord (128 + 64 * (i == 0).toNat + 32 * (i + 1 == n).toNat + 16 * (w.2 || lost).toNat + cnt) (if lost then 0 else w.1.toNat)

/-- A bobbin becomes BROKEN (R392). -/
def State.breakBob (s : State) (b : Nat) : State := (s.putBob b { s.bobbin b with broken := true }).raise 0x9002 b 0

/-- A pop of bobbin `b` (R383, R386, R391, R392): the data word, and the state after it. -/
def State.pop (s : State) (b : Nat) (out : CellOutcome) : Word × State :=
  let x := s.bobbin b
  if x.broken then (dataWord 8 0, s)
  else match x.pkts with
    | [] => (0, s.count (Reg.bobCount 8) 1)
    | p :: rest =>
      if out = .linkLost then (dataWord 8 0, s.breakBob b)
      else
        let (lost, s1) : Bool × State := match out with
          | .corrected q => (false, s.count (Reg.bobCount (q % 4)) 1)
          | .uncorrectable q => (true, (s.count (Reg.bobCount 4) 1).raise 0x9003 b q)
          | _ => (false, s)
        let last := x.popped + 1 == p.words.length
        let y : Bob := if last then { x with pkts := rest, popped := 0 } else { x with popped := x.popped + 1 }
        let s2 := s1.putBob b (s1.restale y)
        (p.word x.popped lost, if last then s2.count (Reg.bobCount 6) 1 else s2)

/-- POP (R386): a read of BOB_POP by HKP core `core`; `out` is how the cell pool's word reads. -/
def execPop (core : Nat) (out : CellOutcome) (s : State) : Result :=
  within (core < 4) <|
    let r := s.pop (s.fld (Reg.bobPopSel core) 15 0) out
    { r.2 with seen := r.1 }

/-- A write of BOB_POP_CTL by HKP core `core` discards the oldest committed packet, or what is left of it (R387). -/
def State.dropPkt (s : State) (core : Nat) (value : Word) : State :=
    let b := s.fld (Reg.bobPopSel core) 15 0
    let x := s.bobbin b
    match x.pkts with
    | [] => s
    | _ :: rest =>
      if !value.bit 0 || x.broken then s
      else (s.putBob b (s.restale { x with pkts := rest, popped := 0 })).count (Reg.bobCount 9) 1

/-- DROP (R387). -/
def execDrop (core : Nat) (value : Word) (s : State) : Result := within (core < 4) (s.dropPkt core value)

/-! ### Configuration, reset, modes (R389, R390, R392, R394) -/

/-- May the configuration of bobbin `b` be written (R394)? -/
def State.bobConfigurable (s : State) (b : Nat) : Bool := b != 0 && !(s.bobbin b).broken

/-- A write to BOB_DESC_CFG0 (Table 12-7); `none` where it is ignored. -/
def State.bobCfg0 (s : State) (v : Word) : Option State :=
  let b := s.fld Reg.bobDescSel 15 0
  let lim := v.field 25 8
  if !s.bobConfigurable b || lim = 0 || 131072 < lim then none
  else some (s.putBob b { s.bobbin b with enabled := v.bit 0, cellLimit := lim, level := v.field 47 32 })

/-- A write to BOB_DESC_CFG1; `none` where it is ignored. -/
def State.bobCfg1 (s : State) (v : Word) : Option State :=
  let b := s.fld Reg.bobDescSel 15 0
  if !s.bobConfigurable b then none
  else some (s.putBob b { s.bobbin b with pktLimit := v.field 15 0, staleTime := v.field 31 16 })

/-- A write to BOB_DESC_CTL (R392): RESET starts the sweep of the bobbin selected. -/
def State.bobCtl (s : State) (v : Word) : State :=
  let b := s.fld Reg.bobDescSel 15 0
  if v.bit 0 then s.putBob b { s.bobbin b with sweep := some (s.now + us 200) } else s

/-- BOB_DESC_VIEW (Table 12-6). -/
def State.bobView (s : State) : Word :=
  let b := s.fld Reg.bobDescSel 15 0
  let x := s.bobbin b
  BitVec.ofNat 64 ((if x.broken then 2 else x.enabled.toNat) + 4 * (x.popped != 0).toNat + 8 * x.fired.toNat + 2 ^ 8 * s.bobCells b +
    2 ^ 32 * x.pkts.length)

/-- BOB_PUSH_STATUS of window `core` (Table 12-5). -/
def State.pushStatus (s : State) (core : Nat) : Word :=
  let w := s.pushWin core
  BitVec.ofNat 64 (w.status + 2 ^ 8 * (w.left != 0).toNat + 2 ^ 32 * w.left)

/-- BOBBIN_RESET_DONE (R392): the sweep of bobbin `bob` has ended; its packets are gone and it is DISABLED. -/
def execBobbinResetDone (bob : Nat) (s : State) : Result :=
  within (bob < 65536) <|
    let x := s.bobbin bob
    if x.sweep.isNone then s
    else
      let s1 := s.putBob bob { x with enabled := false, broken := false, pkts := [], popped := 0, staleFrom := none, fired := false,
                                      sweep := none }
      (List.range 4).foldl (fun t c => if (t.pushWin c).bob = bob then t.putWin c { PushWin.idle with status := (t.pushWin c).status } else t) s1

/-- A mode is entered (R389, R390): in NORMAL every bobbin at its LEVEL interrupts once; in the others the timer of every non-empty
bobbin starts. -/
def State.bobEnter (s : State) (mode : Nat) : State :=
  let s1 := s.setFld Reg.bobMode 1 0 mode
  s1.bob.bobs.foldl (fun t e =>
    let u := t.putBob e.1 (t.restale e.2)
    if mode = 0 && e.2.level != 0 && decide (e.2.level ≤ e.2.pkts.length) then u.levelIrq e.1 else u) s1

/-- A write to BOB_MODE (R389): another mode is entered; the mode in force written again changes nothing. -/
def State.bobModeEffect (s : State) (v : Word) : State := if v.field 1 0 = s.bobMode then s else s.bobEnter (v.field 1 0)

/-- Is a command a pop or a DROP of bobbin `bob`? -/
def State.popsFrom (s : State) (bob : Nat) : Instr → Bool
  | .pop core _ => s.fld (Reg.bobPopSel core) 15 0 == bob
  | .drop core _ => s.fld (Reg.bobPopSel core) 15 0 == bob
  | _ => false

/-- STALE_TAIL_EXPIRE (R390): a non-empty bobbin's timer has run for STALE_TIME; it fires once. A pop in the same cycle prevents it (R18, R388). -/
def execStaleTailExpire (bob : Nat) (s : State) : Result :=
  within (bob < 65536) <|
    let x := s.bobbin bob
    match x.staleFrom with
    | none => s
    | some t =>
      if x.staleTime != 0 && s.fires (t + us (10 * x.staleTime)) (s.popsFrom bob) then
        (((s.putBob bob { x with staleFrom := none, fired := true }).setFlag (Reg.bobStalePend bob) (bob % 64)).count (Reg.bobCount 13) 1).raise
          0x9001 bob 0
      else s

/-- The firmware's configuration of bobbins 1 and 2 at start-up (R394), and STARTUP mode. -/
def State.bobStart (s : State) : State :=
  let x : Bob := { Bob.off with enabled := true, cellLimit := 4096, pktLimit := 4096 }
  ({ s with bob := { bobs := [(1, x), (2, x)], wins := [] } } : State).setFld Reg.bobMode 1 0 1

end Sys2Proof.Machine
end

