-- ==== Sys2Proof/Machine/Records.lean ====
section
/-!
DEFINITION. The sampler's records (17): an occurrence, its commit, floods, the full sampler and the clear (R531 to R537), and the
storage of the performance counters (R538).
-/
namespace Sys2Proof.Machine

/-- Operating time in seconds (R457). -/
def State.opSeconds (s : State) : Nat := s.fld Reg.kepTime 23 0 * 3600 + s.fld Reg.kepTime 35 24

/-- The day bucket of R200 that is current. -/
def State.dayBucket (s : State) : Nat := s.opSeconds / 86400

/-- GAP, ns. -/
def State.smpGap (s : State) : Nat := sec (s.fld Reg.smpCfg 7 0)
/-- DAY_BUDGET. -/
def State.smpBudget (s : State) : Nat := s.fld Reg.smpCfg 14 8

/-- The bin of a value (R532). -/
def binOf (v : Nat) : Nat := ((List.range 16).find? (fun b => decide (v < 2 ^ b))).getD 15

/-- A number that saturates at `2 ^ n − 1`, advanced by `k`. -/
def satAdd (n v k : Nat) : Nat := min (2 ^ n - 1) (v + k)

/-- One more in bin `b` of a histogram. -/
def histAdd (h : List Nat) (b : Nat) : List Nat := (List.range 16).map (fun i => if i = b then satAdd 16 (h.getD i 0) 1 else h.getD i 0)

/-- Is a time stamp later than another? -/
def Stamp.after (a b : Stamp) : Bool :=
  decide (b.cycle < a.cycle) || (a.cycle == b.cycle && decide (b.hours * 3600 + b.seconds < a.hours * 3600 + a.seconds))

/-- The first record of a code and source (R532). -/
def SmpRec.ofOcc (o : Occ) : SmpRec :=
  { code := o.code, src := o.src, first := some o.time, page0Lost := false, min := o.val, minTime := some o.time, max := o.val,
    maxTime := some o.time, count := 1, rep := 0, last := o.time, hist := histAdd [] (binOf o.val), lastValue := o.val }

/-- A record with one more occurrence (R532): equal values keep the earlier time; MIN and MAX of a record whose page 0 was lost restart
from the next occurrence (R533). -/
def SmpRec.add (r : SmpRec) (o : Occ) : SmpRec :=
  let fresh := r.minTime.isNone
  let lower := fresh || decide (o.val < r.min)
  let higher := fresh || decide (r.max < o.val)
  { r with min := if lower then o.val else r.min, minTime := if lower then some o.time else r.minTime
           max := if higher then o.val else r.max, maxTime := if higher then some o.time else r.maxTime
           count := satAdd 32 r.count 1, last := if r.last.after o.time then r.last else o.time
           hist := histAdd r.hist (binOf o.val), lastValue := o.val }

/-- The state with a record slot. -/
def State.putSlot (s : State) (i : Nat) (x : SmpSlot) : State := { s with kept := { s.kept with slots := s.kept.slots.put i x } }

/-- Commits a record's working copy (R534): page 1, and page 0 where MIN or MAX changed; the occurrences of a deferred commit add to
REPEAT. -/
def State.commitSlot (s : State) (i : Nat) (x : SmpSlot) (deferred : Nat) : State :=
  let w : SmpRec := { x.work with rep := satAdd 32 x.work.rep deferred }
  let pages := if w.min = x.keep.min && w.max == x.keep.max && w.minTime == x.keep.minTime then 1 else 2
  let day := s.dayBucket
  let y : SmpSlot := { keep := w, before := some x.keep, pages := pages, work := w, waiting := 0, lastCommit := s.now, day := day
                       commits := if x.day = day then x.commits + 1 else 1 }
  (((s.putSlot i y).count (Reg.pmcValue 494) 1).count (Reg.pmcValue 495) deferred).count (Reg.kepCount 0) pages

/-- May a record still be committed in this day bucket (R534)? -/
def State.inBudget (s : State) (x : SmpSlot) : Bool := x.day != s.dayBucket || decide (x.commits < s.smpBudget)

/-- Has GAP elapsed since a record's last commit? -/
def State.gapOver (s : State) (x : SmpSlot) : Bool := s.due (x.lastCommit + s.smpGap)

/-- OVERFLOW is committed, at most once per GAP (R536). -/
def State.commitOverflow (s : State) : State :=
  { s with kept := { s.kept with overflow := s.fld Reg.smpOverflow 31 0, overflowAt := s.now } }

/-- An occurrence updates its record (R534, R536); while the keep is closed nothing is committed, and one that needs a new record is held
(R455, R535). -/
def State.recordOcc (s : State) (o : Occ) : State :=
  match s.kept.slots.find? (fun e => e.2.keep.code == o.code && e.2.keep.src == o.src) with
  | some (i, x) =>
    let y : SmpSlot := { x with work := x.work.add o, waiting := x.waiting + 1 }
    if x.waiting = 0 && s.gapOver x && s.inBudget x && !s.kept.closed then s.commitSlot i y 0 else s.putSlot i y
  | none =>
    if s.kept.closed then { s with kept := { s.kept with smpHeld := s.kept.smpHeld ++ [o] } }
    else match s.kept.slots.firstFree 0 2048 with
    | some i =>
      let r := SmpRec.ofOcc o
      let y : SmpSlot := { keep := r, before := none, pages := 2, work := r, waiting := 0, lastCommit := s.now, day := s.dayBucket, commits := 1 }
      ((s.putSlot i y).count (Reg.pmcValue 494) 1).count (Reg.kepCount 0) 2
    | none =>
      let s1 := (s.setFld Reg.smpOverflow 31 0 (satAdd 32 (s.fld Reg.smpOverflow 31 0) 1)).count (Reg.pmcValue 497) 1
      if s1.due (s1.kept.overflowAt + s1.smpGap) then s1.commitOverflow else s1

/-- A SAMPLER_CLEAR runs: CLEARING. -/
def State.clearing (s : State) : Bool := s.flag Reg.smpStatus 13

/-- SAMPLER_OCCURRENCE (R534, R535, R537): the oldest occurrence in the queue of island `island` enters the keep island; while a clear
runs it is held. -/
def execSamplerOccurrence (island : Nat) (s : State) : Result :=
  within (island < 46) <|
    match s.kept.smpQ.find? (fun e => e.1 == island) with
    | none => s
    | some e =>
      let s1 := ({ s with kept := { s.kept with smpQ := s.kept.smpQ.erase e } } : State).count (Reg.pmcValue 493) 1
      if s1.clearing then { s1 with kept := { s1.kept with smpHeld := s1.kept.smpHeld ++ [e.2] } } else s1.recordOcc e.2

/-- Does a command bring an occurrence of the same code and source as a record into the keep island? It joins the commit (R18, R534). -/
def State.joins (s : State) (x : SmpSlot) : Instr → Bool
  | .samplerOccurrence island => match s.kept.smpQ.find? (fun e => e.1 == island) with
    | some e => e.2.code == x.keep.code && e.2.src == x.keep.src
    | none => false
  | _ => false

/-- SAMPLER_GAP_EXPIRE (R534, R536): the deferred commit of a record with waiting occurrences, or of OVERFLOW where `slot` is 2,048. -/
def execSamplerGapExpire (slot : Nat) (s : State) : Result :=
  within (slot ≤ 2048) <|
    if slot = 2048 then
      if s.kept.overflow ≠ s.fld Reg.smpOverflow 31 0 && s.due (s.kept.overflowAt + s.smpGap) && !s.kept.closed then s.commitOverflow else s
    else match s.kept.slots.find slot with
      | none => s
      | some x =>
        if x.waiting ≠ 0 && s.fires (x.lastCommit + s.smpGap) (s.joins x) && s.inBudget x && !s.clearing && !s.kept.closed then
          s.commitSlot slot x x.waiting
        else s

/-- Every waiting occurrence is committed, whatever GAP and DAY_BUDGET allow (R535). -/
def State.commitAll (s : State) : State :=
  let s1 := s.kept.slots.foldl (fun t e => if e.2.waiting = 0 then t else t.commitSlot e.1 e.2 e.2.waiting) s
  s1.commitOverflow

/-- The clear ends (R537): every record is gone, SAMPLER_CLEARED stands in slot 0, and the occurrences held create their records after
it. -/
def State.clearEnd (s : State) (src cleared : Nat) : State :=
  let held := s.kept.smpHeld
  let s1 := ({ s with kept := { s.kept with slots := [], smpHeld := [], smpZeroed := 2048, overflow := 0, overflowAt := s.now } } : State).setFld
    Reg.smpOverflow 31 0 0
  let s2 := (s1.clrFlag Reg.smpStatus 13).count (Reg.kepCount 0) 2048
  held.foldl (fun t o => t.recordOcc o) (s2.recordOcc { code := 0x0002, src := src, val := cleared, time := s2.stamp })

/-- The slots below `n` have been cleared (R537). -/
def State.clearBelow (s : State) (n : Nat) : State :=
  ({ s with kept := { s.kept with slots := s.kept.slots.filter (fun e => decide (n ≤ e.1)), smpZeroed := max s.kept.smpZeroed n } } : State).clrFlag
    Reg.smpStatus 13

/-- Occurrences that were held update their records. -/
def State.recordHeld (s : State) : State :=
  s.kept.smpHeld.foldl (fun t o => t.recordOcc o) { s with kept := { s.kept with smpHeld := [] } }

/-- A clear is cut short by a restart of its firmware: it has cleared a number of slots from slot 0 on, a free value, and what was held follows
(log entry 193). -/
def State.clearCut (s : State) : State :=
  if s.clearing then (s.draw.2.clearBelow (s.draw.1.toNat % 2049)).recordHeld else s

/-! ### A commit that the loss of VSTBY cuts (R454, R533, R535) -/

/-- A record whose page 0 is unsealed (R533): FIRST, MIN_TIME and MAX_TIME are unknown, and what MIN and MAX read before the next occurrence is a
free value. -/
def SmpRec.lost (r : SmpRec) (f : BitVec 64) : SmpRec :=
  { r with page0Lost := true, first := none, minTime := none, maxTime := none, min := f.toNat % 2 ^ 32, max := f.toNat / 2 ^ 32 }

/-- A record with page 0 as it is and page 1 as the new one has it: a commit cut between the two (R535). -/
def SmpRec.withPage0 (new old : SmpRec) : SmpRec :=
  { new with first := old.first, page0Lost := old.page0Lost, min := old.min, minTime := old.minTime, max := old.max, maxTime := old.maxTime }

/-- A record whose page 1 is unsealed while page 0 is sealed: the spec gives its counts no value, so they are free values (log entry 90). -/
def SmpRec.page1Lost (r : SmpRec) (f : BitVec 64) (g : BitVec 256) : SmpRec :=
  { r with count := f.toNat % 2 ^ 32, rep := f.toNat / 2 ^ 32, hist := (List.range 16).map (fun i => g.toNat / 2 ^ (16 * i) % 65536)
           lastValue := g.toNat % 2 ^ 32 }

/-- What a slot holds after its commit was cut at one of the points where it can be, by `k` modulo 5: not begun, in page 1, between the pages, in
page 0, complete. `zeroed` says that page 0 of the slot was sealed with zero before its first commit (R533). -/
def SmpSlot.cut (x : SmpSlot) (zeroed : Bool) (k : Nat) (f : BitVec 64) (g : BitVec 256) : Option SmpRec :=
  match k % 5, x.before with
  | 0, b => b
  | 1, some b => some (b.page1Lost f g)
  | 1, none => none
  | 2, some b => some (x.keep.withPage0 (if x.pages = 2 then b else x.keep))
  | 2, none => if zeroed then none else some (x.keep.lost f)
  | 3, _ => some (if x.pages = 2 then x.keep.lost f else x.keep)
  | _, _ => some x.keep

/-- Do the page writes of a slot's latest commit still run: at most 80 µs a page (R453), behind those of the commits of the same moment? -/
def State.commitRuns (s : State) (x : SmpSlot) : Bool :=
  decide (s.now < x.lastCommit + us (80 * (s.kept.slots.filter (fun e => e.2.lastCommit == x.lastCommit)).foldl (fun a e => a + e.2.pages) 0))

/-- A slot as the keep gives it back: a record, without occurrences that wait, or none. -/
def State.settleSlot (s : State) (i : Nat) (x : SmpSlot) : Option SmpRec → State
  | some k => s.putSlot i { x with keep := k, before := some k, pages := 0, work := k, waiting := 0 }
  | none => s

/-- VSTBY is lost with the device's sampler running (R535): the working copies and what was held are gone, the keep image of each slot stays, cut
where its commit was being written; of a clear that runs, the slots below a free number are cleared and the page 0 of the next is unsealed. -/
def State.loseWork (s : State) : State :=
  let f := s.draw.1
  let n := f.toNat % 2049
  let s1 := if s.clearing then s.draw.2.clearBelow n else s
  let hit (i : Nat) : Bool := s.clearing && i == n
  let s2 := s1.kept.slots.foldl (fun t e =>
    let g := t.draw256.1
    let h := t.draw256.2.draw
    if hit e.1 then t.settleSlot e.1 e.2 (some (e.2.keep.lost f))
    else if s.commitRuns e.2 then h.2.settleSlot e.1 e.2 (e.2.cut (decide (e.1 < s.kept.smpZeroed)) (g.toNat / 2 ^ 64) h.1 g)
    else t.settleSlot e.1 e.2 (some e.2.keep)) ({ s1 with kept := { s1.kept with slots := [] } } : State)
  { s2 with kept := { s2.kept with smpQ := [], smpHeld := [] } }

/-! ### Page images (Tables 17-3, 17-4) -/

/-- A time stamp as 9 bytes; all ones where there is none (R531). -/
def stampBytes : Option Stamp → List Byte
  | some t => leBytes 4 t.cycle ++ leBytes 3 t.hours ++ leBytes 2 (t.seconds % 4096)
  | none => List.replicate 9 0xFF

/-- Page 0 of a record. -/
def SmpRec.page0 (r : SmpRec) : List Byte :=
  leBytes 2 r.code ++ leBytes 2 r.src ++ stampBytes r.first ++ [BitVec.ofNat 8 r.page0Lost.toNat] ++ zeros 2 ++ leBytes 4 r.min ++
    stampBytes r.minTime ++ zeros 3 ++ leBytes 4 r.max ++ stampBytes r.maxTime ++ zeros 18 ++ [0xA5]

/-- Page 1 of a record. -/
def SmpRec.page1 (r : SmpRec) : List Byte :=
  leBytes 2 r.code ++ leBytes 2 r.src ++ leBytes 4 r.count ++ leBytes 4 r.rep ++ stampBytes (some r.last) ++ zeros 3 ++
    (List.range 16).flatMap (fun i => leBytes 2 (r.hist.getD i 0)) ++ leBytes 4 r.lastValue ++ zeros 4

/-- Both pages of the record in a slot as the keep holds them; zero where the slot is free. -/
def State.slotBytes (s : State) (i : Nat) : List Byte :=
  match s.kept.slots.find i with
  | some x => x.keep.page0 ++ x.keep.page1
  | none => zeros 128

/-! ### Performance counters (R538, R539) -/

/-- The block register that holds counter `i` (Table 17-5); `none` for a reserved index. -/
def counterReg (i : Nat) : Option Nat :=
  if i < 64 then some (if i % 8 < 6 then 0x011100 + 0x1000 * (i / 8) + 8 * (i % 8) else 0x0111C0 + 0x1000 * (i / 8) + 8 * (i % 8 - 6))
  else if i < 192 then some (Reg.lceCount ((i - 64) / 8) ((i - 64) % 8))
  else if i < 207 then some (Reg.shtEvent (i - 192))
  else if i = 207 then none
  else if i < 219 then some (0x050200 + 8 * (i - 208))
  else if i < 228 then some (0x060100 + 8 * (i - 219))
  else if i < 247 then some (0x070100 + 8 * (i - 228))
  else if i < 255 then some (0x070200 + 8 * (i - 247))
  else if i = 255 then none
  else if i < 382 then some (0x081100 + 0x1000 * ((i - 256) / 14) + 8 * ((i - 256) % 14))
  else if i < 394 then some (0x0B0100 + 8 * (i - 382))
  else if i < 406 then some (0x0A0100 + 8 * (i - 394))
  else if i < 419 then some (0x160100 + 8 * (i - 406))
  else if i < 431 then some (0x0D0100 + 8 * (i - 419))
  else if i < 445 then some (0x0C0200 + 8 * (i - 431))
  else if i < 455 then some (0x150100 + 8 * (i - 445))
  else if i < 465 then some (0x110200 + 8 * (i - 455))
  else if i < 471 then some (0x120100 + 8 * (i - 465))
  else if i < 479 then some (0x0E0100 + 8 * (i - 471))
  else if i < 486 then some (0x0F0100 + 8 * (i - 479))
  else if i < 491 then some (0x100100 + 8 * (i - 486))
  else if i < 498 then some (Reg.pmcValue i)
  else none

/-- A counter's value; 0 for a reserved index. -/
def State.counter (s : State) (i : Nat) : Word := match counterReg i with | some r => s.rd r | none => 0

/-- The island whose events counter `i` counts (R15, Tables 17-5 and 18-1); a counter that several islands of one kind feed is read in the
first of them. -/
def State.counterIsland (s : State) (i : Nat) : Nat :=
  if i < 64 then (if i % 8 < 6 then s.portIsland (i / 8) else Island.host (i / 8))
  else if i < 192 then Island.lace ((i - 64) / 8)
  else if i < 207 then Island.engine 0
  else if i < 228 then Island.llc 0
  else if i < 255 then Island.dram
  else if i < 382 then Island.stack ((i - 256) / 14)
  else if i < 394 then Island.stack 0
  else if i < 419 then Island.dram
  else if i < 431 then Island.llc 0
  else if i < 445 then Island.hkp
  else if i < 455 then Island.engine 0
  else if i < 471 then Island.mgmt
  else if i < 479 then Island.hkp
  else if i < 491 then Island.keep
  else if i < 493 then Island.hkp
  else Island.keep

/-- The local time that a counter read returns; 0 for a reserved index. -/
def State.counterTime (s : State) (i : Nat) : Nat := if (counterReg i).isSome then s.islandTick (s.counterIsland i) % 2 ^ 64 else 0

/-- Counter `i` as R109 returns it: value, then local time. -/
def State.counterBytes (s : State) (i : Nat) : List Byte := leBytes 8 (s.counter i).toNat ++ leBytes 8 (s.counterTime i)

end Sys2Proof.Machine
end

