-- ==== Sys2Proof/Machine/Wire.lean ====
section
/-!
DEFINITION. Sending on lace links (R259, R260, R265, R270): links, routes, the path to a device, and the CONTROL frames a device
sends.
-/
namespace Sys2Proof.Machine

/-! ### Links and routes -/

/-- Lace link `n`. -/
def State.link (s : State) (n : Nat) : LaceLink := s.lace.links.get n .off

/-- The state with a lace link changed. -/
def State.putLink (s : State) (n : Nat) (l : LaceLink) : State :=
  { s with lace := { s.lace with links := s.lace.links.set n l .off } }

/-- The routes to and from a device. -/
def State.route (s : State) (d : Nat) : Route := s.lace.routes.get d .empty

/-- The state with a route changed. -/
def State.putRoute (s : State) (d : Nat) (r : Route) : State :=
  { s with lace := { s.lace with routes := s.lace.routes.set d r .empty } }

/-- The acting role: 0 MANAGER, 1 STANDBY, 2 WORKER, 3 NONE (R256). -/
def State.actingRole (s : State) : Nat := s.fld Reg.hopStatus 3 2
/-- The device acts as manager. -/
def State.isManager (s : State) : Bool := s.actingRole == 0
/-- HOOP_EPOCH (R268). -/
def State.hoopEpoch (s : State) : Nat := s.fld Reg.hopEpoch 31 0
/-- HOOP_ID; 0 before the device has learned it (R259). -/
def State.hoopId (s : State) : Nat := s.fld Reg.hopHoopId 15 0

/-- Hoop time is saved with the epoch record (R293). -/
def State.saveHoopTime (s : State) : State := { s with kept := { s.kept with hoopTime := (s.rd Reg.hopTime).toNat } }

/-- Links that are UP. -/
def State.upLinks (s : State) : List Nat := (List.range 16).filter (fun n => (s.link n).st == .up)
/-- Up links to a device (a bundle, R264). -/
def State.linksTo (s : State) (d : Nat) : List Nat := s.upLinks.filter (fun n => (s.link n).peerDev == d)
/-- Does the device hold an up link to the acting manager (MGR_LINK, Table 08-3)? -/
def State.mgrLink (s : State) : Bool := s.isManager || s.upLinks.any (fun n => (s.link n).peerRole == 0)

/-- The link of a bundle to `via` that a frame for `dst` takes: the lowest-numbered up link plus DST_DEV mod their number (R265). -/
def State.bundle (s : State) (via dst : Nat) : Option Nat := let l := s.linksTo via; l[dst % l.length]?

/-- Insertion in an ascending list. -/
def insertNat (x : Nat) : List Nat → List Nat
  | [] => [x]
  | y :: t => if x ≤ y then x :: y :: t else y :: insertNat x t

/-- A list in ascending order. -/
def ascending (l : List Nat) : List Nat := l.foldr insertNat []

/-- The devices through which a frame for `dst` may go when no link leads there (Table 08-6): on the manager the devices whose up
links reach `dst`, lowest first; elsewhere a neighbour with a link to the manager, then the standby. -/
def State.viaDevs (s : State) (dst : Nat) : List Nat :=
  if s.isManager then ascending ((s.lace.members.find dst).map (·.parents) |>.getD [])
  else
    let peers (p : LaceLink → Bool) : List Nat := ascending ((s.upLinks.filter (fun n => p (s.link n))).map (fun n => (s.link n).peerDev))
    peers (fun l => l.mgrLink) ++ peers (fun l => l.peerRole == 1)

/-- The link on which a frame for `dst` leaves (R265). -/
def State.nextHop (s : State) (dst : Nat) : Option Nat :=
  match s.bundle dst dst with
  | some n => some n
  | none => ((s.viaDevs dst).filterMap (fun v => s.bundle v dst)).head?

/-! ### Frames -/

/-- LTYPE (Table 08-3). -/
def LaceBody.ltype : LaceBody → Nat
  | .heartbeat .. => 0 | .forward .. => 1 | .complete .. => 2 | .routeAck => 3 | .discover => 4 | .announce _ => 5
  | .control _ => 6 | .resync _ => 7

/-- Is an LTYPE a route type (Table 08-3)? -/
def routeType (n : Nat) : Bool := n == 1 || n == 2 || n == 3 || n == 6 || n == 7

/-- Bytes of a frame: 14 of Ethernet, the header, the payload and the FCS. -/
def LaceBody.bytes (b : LaceBody) : Nat :=
  50 + (match b with
    | .heartbeat .. => 32
    | .forward _ _ st => 24 + st.payload.length
    | .complete _ _ st => 24 + st.payload.length
    | .routeAck => 0
    | .discover => 0
    | b => (Config.laceLen b.ltype).toNat)

/-- FDONE on the route to a device: every mirrored write up to it is complete on both copies (Table 08-2). -/
def State.fdoneTo (s : State) (d : Nat) : Nat :=
  let opn := s.lace.splits.flatMap (fun e => (e.2.parts.filter (fun p => p.dev == d && p.mirror)).map (·.rseq))
  match opn with
  | [] => (s.route d).tx
  | x :: t => t.foldl min x - 1

/-- A frame leaves on a link with a link sequence (R260): the wire shows it, and it is counted. -/
def State.emitLace (s : State) (n lseq : Nat) (f : LaceFrame) : State :=
  let l := s.link n
  let own := f.carried.getD (s.hoopEpoch, (s.route f.dst).rx, s.fdoneTo f.dst)
  let out : LaceSent := { link := n, nak := l.nak, hoopId := s.hoopId, epoch := own.1, lseq := lseq, lack := l.rxSeq,
                          rack := own.2.1, fdone := own.2.2, frame := f }
  let s1 := if routeType f.body.ltype && f.carried.isNone then s.putRoute f.dst { s.route f.dst with ackDue := none } else s
  let s2 : State := { s1 with lace := { s1.lace with sent := out :: s1.lace.sent } }
  let s3 := (s2.putLink n { s2.link n with nak := false }).count (Reg.lceCount n 1) 1
  if l.nak then s3.count (Reg.lceCount n 5) 1 else s3

/-- Frames that wait on a link leave while the peer's credit and the replay buffer of 128 KiB take them (R260). -/
def State.pumpLink (s : State) (n : Nat) : Nat → State
  | 0 => s
  | fuel + 1 =>
    let l := s.link n
    match l.queue with
    | [] => s
    | f :: rest =>
      let size := f.body.bytes
      let held := (l.store.map (fun e => e.2.body.bytes)).foldl (· + ·) 0
      if size ≤ l.credit && decide (held + size ≤ 131072) then
        let q := (l.txSeq + 1) % 2 ^ 16
        State.pumpLink ((s.putLink n { l with
          queue := rest, txSeq := q, store := l.store ++ [(q, f)], credit := l.credit - size }).emitLace n q f) n fuel
      else s

/-- A frame goes out on a link. -/
def State.sendOn (s : State) (n : Nat) (f : LaceFrame) : State :=
  let l := s.link n
  let s1 := s.putLink n { l with queue := l.queue ++ [f] }
  s1.pumpLink n (l.queue.length + 1)

/-- A frame takes the path to its device, if there is one (R265). -/
def State.sendPath (s : State) (f : LaceFrame) : State :=
  match s.nextHop f.dst with
  | some n => s.sendOn n f
  | none => s

/-- A route frame to another device (R270): numbered, kept in the route store until RACK covers it, and sent; it waits while the
64 MiB store is full. -/
def State.sendRoute (s : State) (f : LaceFrame) : State :=
  let r := s.route f.dst
  let held := (r.store.map (fun x => x.body.bytes)).foldl (· + ·) 0
  if 67108864 < held + f.body.bytes then
    (s.putRoute f.dst { r with waiting := r.waiting ++ [f] }).count (Reg.hopCount 9) 1
  else
    let q := (r.tx + 1) % 2 ^ 32
    let f1 := { f with rseq := q }
    (s.putRoute f.dst { r with tx := q, store := r.store ++ [f1] }).sendPath f1

/-- Frames that waited for room in a route store are sent (R270). -/
def State.routeRoom (s : State) (d : Nat) : State :=
  let w := (s.route d).waiting
  w.foldl (fun t f => t.sendRoute f) (s.putRoute d { s.route d with waiting := [] })

/-- A CONTROL frame to a device. -/
def State.sendControl (s : State) (d : Nat) (c : Control) : State :=
  s.sendRoute { src := s.self, dst := d, body := .control c }

/-- Other members that are PRESENT. -/
def State.othersPresent (s : State) : List Nat :=
  (s.lace.members.filter (fun e => e.2.present && e.1 != s.self)).map (·.1)

/-- A CONTROL frame to every other member that is present. -/
def State.sendAll (s : State) (c : Control) : State := s.othersPresent.foldl (fun t d => t.sendControl d c) s

/-- A report of a device that is not the acting manager goes to the manager (R276). -/
def State.report (s : State) (c : Control) : State :=
  if s.isManager || s.lace.mgr = s.self then s else s.sendControl s.lace.mgr c

/-- LEAVE on every lace link, once to each neighbour (R284). -/
def State.sendLeave (s : State) (why : Nat) : State :=
  ((s.upLinks.map (fun n => (s.link n).peerDev)).eraseDups).foldl (fun t d => t.sendControl d (.leave s.self why)) s

/-- What this device announces (Table 08-3). -/
def State.announcement (s : State) : Announce :=
  let v4 := s.fld (Reg.ethIpv4 0) 31 0
  { serial := Config.serial.toNat, strap := s.fld Reg.hopStatus 1 0, dev := s.self, epoch := s.fld Reg.hopExit 31 0,
    exit := s.fld Reg.hopExit 33 32,
    ip := if v4 ≠ 0 then { v6 := false, addr := v4 }
      else { v6 := true, addr := (s.rd (Reg.ethIpv6Hi 0)).toNat * 2 ^ 64 + (s.rd (Reg.ethIpv6Lo 0)).toNat } }

/-- ANNOUNCE on every up link (R266, R351). -/
def State.sendAnnounce (s : State) : State :=
  s.upLinks.foldl (fun t n => t.sendOn n { src := s.self, dst := (s.link n).peerDev, body := .announce s.announcement }) s

end Sys2Proof.Machine
end

