-- ==== Sys2Proof/Machine/Eth.lean ====
section
/-!
DEFINITION. Host Ethernet ports (02): receive checks and delivery, priority flow control, transmission, link up and down,
and where a connection's frames go when its home port is lost.
-/
namespace Sys2Proof.Machine

/-! ### Ports and their registers -/

/-- Bits of ETH_PORT_CFG (Table 02-5). -/
def State.portEnabled (s : State) (p : Nat) : Bool := s.flag (Reg.ethPortCfg p) 0
/-- ACTIVE_MODE (Table 02-4). -/
def State.portMode (s : State) : Nat := s.fld Reg.ethLaneMode 9 8
/-- The device runs its host lanes as host ports: ROLE_MODE reads HOST (R25). -/
def State.hostRole (s : State) : Bool := s.fld (Reg.ethPortStatus 0) 11 10 == 0
/-- Number of host ports in the mode in effect (Table 02-1); none on a worker. -/
def State.portCount (s : State) : Nat :=
  if s.hostRole then (match s.portMode with | 0 => 2 | 1 => 4 | _ => 8) else 0
/-- Lanes of each port (Table 02-1). -/
def State.portLanes (s : State) : Nat := match s.portMode with | 0 => 4 | 1 => 2 | _ => 1
/-- LINK_UP of a port. -/
def State.portUp (s : State) (p : Nat) : Bool := s.flag (Reg.ethPortStatus p) 0
/-- Receive buffer of a port, bytes (Table 02-1). -/
def State.rxBuffer (s : State) : Nat := 1024 * (match s.portMode with | 0 => 1024 | 1 => 512 | _ => 256)
/-- Headroom of one lossless class, bytes (Table 02-1). -/
def State.headroom (s : State) : Nat := 1024 * (match s.portMode with | 0 => 72 | 1 => 48 | _ => 32)
/-- Duration of `q` quanta of 512 bit times at the port's rate, in ns rounded up (R34). -/
def State.quantaNs (s : State) (q : Nat) : Nat := ceilDiv (q * 128 * (match s.portMode with | 0 => 1 | 1 => 2 | _ => 4)) 100
/-- Is class `c` lossless on port `p`? -/
def State.lossless (s : State) (p c : Nat) : Bool := s.flag (Reg.ethPortCfg p) (8 + c)
/-- MAX_FRAME of a port (R31). -/
def State.maxFrame (s : State) (p : Nat) : Nat := s.fld (Reg.ethPortCfg p) 45 32
/-- MACSEC_EN of a port. -/
def State.macsec (s : State) (p : Nat) : Bool := s.flag (Reg.ethPortCfg p) 4
/-- The port's IPv4 address, 0 when disabled (R39). -/
def State.ipv4 (s : State) (p : Nat) : Nat := s.fld (Reg.ethIpv4 p) 31 0
/-- The port's IPv6 address, 0 when disabled (R39). -/
def State.ipv6 (s : State) (p : Nat) : Nat := (s.rd (Reg.ethIpv6Hi p)).toNat * 2 ^ 64 + (s.rd (Reg.ethIpv6Lo p)).toNat
/-- The port's address of one IP version. -/
def State.portIp (s : State) (p : Nat) (v6 : Bool) : Nat := if v6 then s.ipv6 p else s.ipv4 p
/-- The port's unicast address (LK register). -/
def State.portMac (s : State) (p : Nat) : Nat := s.kept.macs.get p (Config.provisionedMac p).toNat

/-- The solicited-node multicast address of an IPv6 address. -/
def solicitedNode (a : Nat) : Nat := 0xff0200000000000000000001ff000000 + a % 2 ^ 24

/-- The MAC address of the solicited-node multicast address of an IPv6 address. -/
def solicitedMac (a : Nat) : Nat := 0x3333ff000000 + a % 2 ^ 24

/-! ### Receive buffer (R35) -/

/-- Payloads of port `p` in the receive buffer. -/
def State.buffered (s : State) (p : Nat) : List Delivered :=
  (s.host.inbox.values.flatten).filter (fun d => d.port == p)

/-- Bytes of class `c` of port `p` in the shared part (`hr = false`) or in the headroom. -/
def State.occupancy (s : State) (p c : Nat) (hr : Bool) : Nat :=
  ((s.buffered p).filter (fun d => d.pcp == c && d.inHeadroom == hr)).foldl (fun a d => a + d.len) 0

/-- Size of the shared part of the port's buffer. -/
def State.sharedSize (s : State) (p : Nat) : Nat :=
  s.rxBuffer - s.headroom * ((List.range 8).filter (fun c => s.lossless p c)).length

/-- Bytes held in the shared part. -/
def State.sharedUsed (s : State) (p : Nat) : Nat :=
  ((s.buffered p).filter (fun d => !d.inHeadroom)).foldl (fun a d => a + d.len) 0

/-- Where a frame of class `c` and length `len` is placed: `some false` the shared part, `some true` the headroom, `none`
no buffer space. -/
def State.place (s : State) (p c len : Nat) : Option Bool :=
  let shared := s.sharedUsed p + len ≤ s.sharedSize p
  let head := s.lossless p c && s.occupancy p c true + len ≤ s.headroom
  if s.host.xoff.has (8 * p + c) then
    if head then some true else if shared then some false else none
  else if shared then some false
  else if head then some true else none

/-! ### Transmission -/

/-- Length of a transmitted frame under R31, at least 64 bytes; 32 bytes more with a SecTAG and ICV, which a PFC frame never has. -/
def TxFrame.len (f : TxFrame) (macsec : Bool) : Nat :=
  let ip := if f.peer.ip.v6 then 40 else 20
  let n := match f.body with
    | .shuttle b => 22 + ip + 8 + b.length
    | .pfc _ _ => 64
    | .arpReply => 64
    | .gratuitousArp => 64
    | .ndAdvert _ => 22 + 40 + 32
    | .echoReply b => 22 + ip + 8 + b.length
  max 64 n + (match f.body with | .pfc _ _ => 0 | _ => if macsec then 32 else 0)

/-- The sum of the 16-bit words of a byte string on top of `a`; an odd last byte stands for the high half of a word. -/
def wordSum : List Byte → Nat → Nat
  | [], a => a
  | [x], a => a + 256 * x.toNat
  | x :: y :: t, a => wordSum t (a + 256 * x.toNat + y.toNat)

/-- A sum of 16-bit words below 2^32 brought to 16 bits with its carries added in. -/
def foldCarries (n : Nat) : Nat := let m := n % 65536 + n / 65536; m % 65536 + m / 65536

/-- The UDP checksum of a datagram with its pseudo header (R40): the ones' complement of the ones' complement sum, 0xFFFF for 0. -/
def udpChecksum (src dst : IpAddr) (srcPort dstPort : Nat) (payload : List Byte) : Nat :=
  let w := if src.v6 then 16 else 4
  let n := 8 + payload.length
  let pseudo := beBytes w src.addr ++ beBytes w dst.addr ++ beBytes 4 n ++ beBytes 4 17
  let sum := foldCarries (wordSum (pseudo ++ beBytes 2 srcPort ++ beBytes 2 dstPort ++ beBytes 2 n ++ payload) 0)
  if sum = 65535 then 65535 else 65535 - sum

/-- The UDP header of a Shuttle frame that leaves port `p`: from ETH_UDP_PORT, always with a checksum (R40, R74). -/
def State.udpOf (s : State) (p : Nat) (f : TxFrame) : Option UdpHdr :=
  match f.body with
  | .shuttle b =>
    let src := s.fld Reg.ethUdpPort 15 0
    some { src := src, dst := f.peer.udp,
           csum := udpChecksum { v6 := f.peer.ip.v6, addr := s.portIp p f.peer.ip.v6 } f.peer.ip src f.peer.udp b }
  | _ => none

/-- The frame leaves port `p`, under a SecTAG where there is one: it is counted, and the wire shows it with the port's VID, DSCP, ECN and TTL
(R32, R37, R39 to R41). IPv4 has DF set. -/
def State.emit (s : State) (p : Nat) (f : TxFrame) (sec : Option TxTag) : State :=
  let out : Sent := {
    port := p, vid := s.fld (Reg.ethPortCfg p) 27 16, dscp := s.fld (Reg.ethIpTx p) 13 8,
    ect := s.flag (Reg.ethPortCfg p) 5, ttl := s.fld (Reg.ethIpTx p) 7 0, df := !f.peer.ip.v6
    srcIp := { v6 := f.peer.ip.v6, addr := s.portIp p f.peer.ip.v6 }, udp := s.udpOf p f, secTag := sec, frame := f }
  let s1 := { s with host := { s.host with sent := out :: s.host.sent } }
  let s2 := (s1.count (Reg.ethCount p 2) 1).count (Reg.ethCount p 3) (f.len (s.macsec p))
  match f.body with
  | .pfc c _ => s2.count (Reg.ethPfcTx p c) 1
  | .shuttle _ => s2.count (Reg.shtEvent 1) 1
  | _ => s2

/-- Queues a frame on a port. -/
def State.queueTx (s : State) (p : Nat) (f : TxFrame) : State :=
  { s with host := { s.host with txq := s.host.txq.put p (s.host.txq.get p [] ++ [f]) } }

/-- A PFC frame for one class, sent at once by the MAC, below MACsec: it carries no SecTAG, and leaves while R38 stops the port's other frames
(R35; log entry 12). A port that is down sends none (R43). -/
def State.sendPfc (s : State) (p c quanta : Nat) : State :=
  if s.portUp p then
    s.emit p { conn := 0, pcp := 0, peer := { mac := 0x0180C2000001, ip := { v6 := false, addr := 0 }, udp := 0 },
               body := .pfc c quanta } none
  else s

/-- XOFF of a class: PFC with quanta 0xFFFF, repeated every 32,768 quanta (R35). -/
def State.xoffClass (s : State) (p c : Nat) : State :=
  let s1 := s.sendPfc p c 0xFFFF
  { s1 with host := { s1.host with xoff := s1.host.xoff.put (8 * p + c) (s1.now + s1.quantaNs 32768, true) } }

/-- The condition of R35 under which a lossless class is XOFF: its shared occupancy has reached XOFF, or the shared part is full, which is
when a frame of MAX_FRAME no longer fits (log entry 155). -/
def State.xoffHolds (s : State) (p c : Nat) : Bool :=
  s.lossless p c &&
    (decide (1024 * s.fld (Reg.ethPfcThr p) 15 0 ≤ s.occupancy p c false) || decide (s.sharedSize p < s.sharedUsed p + s.maxFrame p))

/-- XOFF or XON of class `c` of a port after its buffer or settings changed (R35): XOFF when the condition begins to hold, XON once the
occupancy is at XON or below and the condition no longer holds. -/
def State.pfcClass (s : State) (p c : Nat) : State :=
  let holds := s.xoffHolds p c
  match s.host.xoff.find (8 * p + c) with
  | some (due, held) =>
    if holds then (if held then s else s.xoffClass p c)
    else if s.occupancy p c false ≤ 1024 * s.fld (Reg.ethPfcThr p) 31 16 then
      let s1 := s.sendPfc p c 0
      { s1 with host := { s1.host with xoff := s1.host.xoff.drop (8 * p + c) } }
    else { s with host := { s.host with xoff := s.host.xoff.put (8 * p + c) (due, false) } }
  | none => if holds then s.xoffClass p c else s

/-- PFC of every class of an up port after its receive buffer or its settings changed (R35). -/
def State.pfcUpdate (s : State) (p : Nat) : State :=
  if s.portUp p then (List.range 8).foldl (fun t c => t.pfcClass p c) s else s

/-! ### Receive checks (Table 02-2) -/

/-- Receive SAs of a port: slot and SA. -/
def State.rxSas (s : State) (p : Nat) : List (Nat × MacSa) :=
  s.host.sas.filter (fun e => e.1 / 32 == p && !e.2.tx)

/-- The receive SA of a SecTAG: that of its SCI and AN; without an SCI, only when exactly one receive channel is installed
(R37). -/
def State.rxSa (s : State) (p : Nat) (t : SecTag) : Option (Nat × MacSa) :=
  let sas := s.rxSas p
  let sci := match t.sci with
    | some x => some x
    | none => match (sas.map (fun e => e.2.sci)).eraseDups with
      | [x] => some x
      | _ => none
  match sci with
  | none => none
  | some x => sas.find? (fun e => e.2.sci == x && e.2.an == t.an)

/-- The MACsec check that fails, 0 for none (R37). -/
def State.macsecCause (s : State) (p : Nat) (f : EthFrame) : Nat :=
  if s.macsec p then
    match f.secTag with
    | none => 0x09
    | some t => match s.rxSa p t with
      | none => 0x0A
      | some (_, sa) =>
        if !t.icvOk then 0x0B
        else if t.pn + s.fld (Reg.ethMsecCfg p) 15 0 < sa.pn then 0x0C else 0
  else 0

/-- Is the destination address accepted (R33)? -/
def State.daOk (s : State) (p : Nat) (f : EthFrame) : Bool :=
  f.da == s.portMac p
  || (f.da == 0xFFFFFFFFFFFF && (match f.body with | .arpRequest _ => true | .arpOther => true | _ => false))
  || (f.da == 0x0180C2000001 && f.ctrl.isSome)
  || (f.da == solicitedMac (s.ipv6 p) && s.ipv6 p != 0 &&
      (match f.body with | .ip q => (match q.l4 with | .solicit _ => true | _ => false) | _ => false))

/-- Is there room under the rate limit of R42? -/
def State.ctrlRoom (s : State) (p : Nat) : Bool :=
  let w := s.host.ctrlRate.get p (0, 0)
  decide (w.1 + sec 1 ≤ s.now) || decide (w.2 < 1000)

/-- One more answered frame in the rate window of R42: a second that opens with the first frame answered after the last one ended (log
entry 158). -/
def State.ctrlUse (s : State) (p : Nat) : State :=
  let w := s.host.ctrlRate.get p (0, 0)
  let w' := if w.1 + sec 1 ≤ s.now then (s.now, 1) else (w.1, w.2 + 1)
  { s with host := { s.host with ctrlRate := s.host.ctrlRate.put p w' } }

/-- The check of an IP packet that fails, in the order of Table 02-2; 0 for none (R39, R40, R580). -/
def State.ipCause (s : State) (p : Nat) (flen : Nat) (q : IpPacket) : Nat :=
  let own := s.portIp p q.v6
  let consistent := q.ipLen == q.span || (flen == 64 && decide (q.ipLen ≤ q.span))
  let payload := q.ipLen - (if q.v6 then 40 else 20)
  let dstOk := own != 0 && (q.dst == own ||
    (match q.l4 with | .solicit _ => q.v6 && q.dst == solicitedNode own | _ => false))
  if !q.hdrOk || !consistent then (if q.v6 then 0x11 else 0x10)
  else if q.frag then 0x12
  else if q.v6 && q.ext then 0x13
  else if !dstOk then 0x14
  else match q.l4 with
    | .other => 0x15
    | .udp _ dst lenField csum _ =>
      if dst ≠ s.fld Reg.ethUdpPort 15 0 then 0x16
      else if lenField ≠ payload || csum == some false || (csum.isNone && q.v6) then 0x17 else 0
    | .echo _ => if s.ctrlRoom p then 0 else 0x18
    | .solicit t => if q.v6 && t == own && s.ctrlRoom p then 0 else 0x18
    | .icmpOther => 0x18

/-- The first check of Table 02-2 that a received frame fails, 0 when it passes all. A PFC frame is consumed at check PAUSE
and answers 0 (R30). -/
def State.rxCause (s : State) (p : Nat) (f : EthFrame) : Nat :=
  if f.fecUncorr then 0x01
  else if !f.fcsOk then 0x02
  else if f.len < 64 then 0x03
  else if s.maxFrame p < f.len then 0x04
  else if !s.daOk p f then 0x05
  else match f.ctrl with
  | some (.pfc _ _) => 0
  | some (.other _) => 0x06
  | none => match f.tag with
    | none => 0x07
    | some (pcp, vid) =>
      if f.secondTag then 0x07
      else if vid ≠ s.fld (Reg.ethPortCfg p) 27 16 then 0x08
      else
        let m := s.macsecCause p f
        if m ≠ 0 then m
        else if (s.place p pcp f.len).isNone then 0x0D
        else if !s.macsec p && f.secTag.isSome then 0x0F
        else match f.body with
          | .lace => 0x0E
          | .other => 0x0F
          | .arpRequest t => if s.ipv4 p ≠ 0 && t == s.ipv4 p && s.ctrlRoom p then 0 else 0x18
          | .arpOther => 0x18
          | .ip q => s.ipCause p f.len q

/-- The frame is dropped with a cause: its drop counter and ETH_DROP_LAST (R30, Table 02-7). -/
def State.rxDrop (s : State) (p cause : Nat) : State :=
  (s.count (Reg.ethDrop p cause) 1).wr Reg.ethDropLast
    (BitVec.ofNat 64 (cause + p * 2 ^ 8 + 2 ^ 11 + s.tick32 (s.portIsland p) * 2 ^ 32))

/-- The frame is counted as received (R581). -/
def State.rxCount (s : State) (p : Nat) (f : EthFrame) : State :=
  (s.count (Reg.ethCount p 0) 1).count (Reg.ethCount p 1) f.len

/-- The SA of a frame that passed the MACsec checks has seen its packet number, whatever later checks find (R37). -/
def State.sawPn (s : State) (p : Nat) (f : EthFrame) : State :=
  match f.secTag with
  | none => s
  | some t => match s.rxSa p t with
    | none => s
    | some (i, sa) => { s with host := { s.host with sas := s.host.sas.put i { sa with pn := max sa.pn (t.pn + 1) } } }

/-- The FEC counts of a codeword of port `p` (R27): each corrected symbol on its lane, a corrected codeword on every lane that carried one, an
uncorrectable codeword on the port's lowest lane, with its moment for FEC_DEGRADED. -/
def State.fecCount (s : State) (p : Nat) (w : FecWord) : State :=
  let low := s.portLanes * p
  match w with
  | .corrected l => (List.range s.portLanes).foldl (fun t i =>
      let n := l.getD i 0
      if n = 0 then t else (t.count (Reg.ethFec (low + i) 0) 1).count (Reg.ethFec (low + i) 2) n) s
  | .uncorrectable =>
    let s1 := s.count (Reg.ethFec low 1) 1
    { s1 with host := { s1.host with fecBad := s1.host.fecBad.put p s1.now } }

/-- At least one uncorrectable codeword in the last 1 ms (FEC_DEGRADED, Table 02-6). -/
def State.fecDegraded (s : State) (p : Nat) : Bool :=
  match s.host.fecBad.find p with
  | none => false
  | some d => decide (s.now < d + ms 1)

/-- The engine a UDP payload is delivered to: CONN_ID[2:0], or 0 for one shorter than 24 bytes (R89). -/
def engineOf (b : List Byte) : Nat := if b.length < 24 then 0 else beAt b 2 2 % 8

/-- A UDP payload is delivered to its engine, which counts it in FRAMES_RX. -/
def State.deliver (s : State) (d : Delivered) : State :=
  let e := engineOf d.bytes
  let s1 := { s with host := { s.host with inbox := s.host.inbox.put e (s.host.inbox.get e [] ++ [d]) } }
  (s1.count (Reg.shtEvent 0) 1).pfcUpdate d.port

/-- A neighbour answer: PCP 0, to the source of the frame served (R32, R42). -/
def State.answer (s : State) (p mac : Nat) (ip : IpAddr) (b : TxBody) : State :=
  (s.ctrlUse p).queueTx p { conn := 0, pcp := 0, peer := { mac := mac, ip := ip, udp := 0 }, body := b }

/-- A received PFC frame sets the pause of one class: to the quanta given, or off with quanta 0 (R34). -/
def State.pauseClass (s : State) (p c q : Nat) : State :=
  let k := 8 * p + c
  let s1 := s.count (Reg.ethPfcRx p c) 1
  { s1 with host := { s1.host with
      pause := if q = 0 then s1.host.pause.drop k else s1.host.pause.put k (s1.now + s1.quantaNs q) } }

/-- What a frame that passed every check does: a PFC frame pauses the classes it names, whatever LOSSLESS says (R34); the others are delivered
or answered. -/
def State.rxAccept (s : State) (p : Nat) (f : EthFrame) : State :=
  let s1 := s.rxCount p f
  match f.ctrl with
  | some (.pfc classes quanta) =>
    (List.range 8).foldl (fun t c => if classes.getLsbD c then t.pauseClass p c (quanta.getD c 0 % 2 ^ 16) else t) s1
  | some (.other _) => s1
  | none =>
    match f.body with
    | .ip q => match q.l4 with
      | .udp src _ _ _ payload =>
        let pcp := (f.tag.map (·.1)).getD 0
        s1.deliver { port := p, peer := { mac := f.sa, ip := { v6 := q.v6, addr := q.src }, udp := src }, pcp := pcp,
                     len := f.len, inHeadroom := (s.place p pcp f.len).getD false, ce := q.ce, bytes := payload }
      | .echo b => s1.answer p f.sa { v6 := q.v6, addr := q.src } (.echoReply b)
      | .solicit _ => s1.answer p f.sa { v6 := true, addr := q.src } (.ndAdvert true)
      | _ => s1
    | .arpRequest _ => s1.answer p f.sa { v6 := false, addr := 0 } .arpReply
    | _ => s1

/-- A frame that arrived on an up port, once its codewords are counted: the first check of Table 02-2 that fails drops it, else it is accepted
(R30). -/
def State.received (s : State) (p : Nat) (f : EthFrame) : State :=
  let c := s.rxCause p f
  let s1 := if s.macsec p && f.ctrl.isNone && (c == 0 || decide (0x0C < c)) then s.sawPn p f else s
  if c = 0 then s1.rxAccept p f else s1.rxDrop p c

/-- FRAME_RECEIVE (R30). -/
def execFrameReceive (port : Nat) (f : EthFrame) (s : State) : Result :=
  within (port < 8) <|
    if port < s.portCount && s.portUp port then (f.fec.foldl (fun t w => t.fecCount port w) s).received port f
    else s

/-! ### Priority flow control (R34, R35) -/

/-- A PFC frame whole and addressed to the MAC, as PFC_RECEIVE carries it. -/
def pfcFrame (classes : BitVec 8) (pause : PfcPause) : EthFrame :=
  { len := pause.len, fecUncorr := false, fcsOk := true, da := 0x0180C2000001, sa := 0, ctrl := some (.pfc classes pause.quanta), tag := none,
    secondTag := false, secTag := none, body := .other }

/-- PFC_RECEIVE (R34): a PFC frame that passes the checks up to PAUSE pauses the classes it names. -/
def execPfcReceive (port : Nat) (classes : BitVec 8) (pause : PfcPause) (s : State) : Result :=
  within (port < 8 && pause.quanta.length == 8) <|
    if port < s.portCount && s.portUp port then s.received port (pfcFrame classes pause) else s

/-- Does a command that waits bring a PFC frame that names class `c` of port `p`? -/
def State.pausing (s : State) (p c : Nat) : Instr → Bool
  | .pfcReceive q classes pause => q == p && classes.getLsbD c && s.rxCause p (pfcFrame classes pause) == 0
  | .frameReceive q f => q == p && s.rxCause p f == 0 && (match f.ctrl with | some (.pfc classes _) => classes.getLsbD c | _ => false)
  | _ => false

/-- PFC_PAUSE_EXPIRE (R34). -/
def execPfcPauseExpire (port cls : Nat) (s : State) : Result :=
  within (port < 8 && cls < 8) <|
    match s.host.pause.find (8 * port + cls) with
    | none => s
    | some d =>
      if s.fires d (s.pausing port cls) then { s with host := { s.host with pause := s.host.pause.drop (8 * port + cls) } } else s

/-- PFC_XOFF_REPEAT (R35): the XOFF is repeated where its condition still holds; the next look comes another 32,768 quanta later. -/
def execPfcXoffRepeat (port cls : Nat) (s : State) : Result :=
  within (port < 8 && cls < 8) <|
    match s.host.xoff.find (8 * port + cls) with
    | none => s
    | some (d, _) =>
      if s.due d then
        if s.xoffHolds port cls then s.xoffClass port cls
        else { s with host := { s.host with xoff := s.host.xoff.put (8 * port + cls) (s.now + s.quantaNs 32768, false) } }
      else s

/-! ### Transmission (R32, R34, R38) -/

/-- The active transmit SA of a port. -/
def State.txSa (s : State) (p : Nat) : Option (Nat × MacSa) :=
  s.host.sas.find? (fun e => e.1 / 32 == p && e.2.tx && e.2.active)

/-- May the active transmit SA number one more frame (R38)? -/
def MacSa.canSend (a : MacSa) : Bool := a.pn < (if a.xpn then 2 ^ 64 else 2 ^ 32)

/-- One frame's packet number is used; passing PN_WARN raises MACSEC_PN_WARN once (R38). -/
def State.usePn (s : State) (p slot : Nat) (a : MacSa) : State :=
  let top := if a.xpn then a.pn / 2 ^ 32 else a.pn
  let warn := !a.warned && decide (s.fld (Reg.ethMsecCfg p) 63 32 < top)
  let s1 := { s with host := { s.host with
    sas := s.host.sas.put slot { a with pn := a.pn + 1, warned := a.warned || warn } } }
  if warn then s1.raise 0x1002 p 0 else s1

/-- The first queued frame that nothing blocks, and the queue without it. -/
def pickTx (blocked : TxFrame → Bool) : List TxFrame → Option (TxFrame × List TxFrame)
  | [] => none
  | f :: t => if blocked f then (pickTx blocked t).map (fun r => (r.1, f :: r.2)) else some (f, t)

/-- Marks the queued frames of a port as held and counts those newly held in TX_HELD (R38). -/
def State.holdTx (s : State) (p : Nat) : State :=
  let q := s.host.txq.get p []
  let n := (q.filter (fun f => !f.held)).length
  { (s.count (Reg.ethCount p 4) n) with
      host := { (s.count (Reg.ethCount p 4) n).host with
        txq := s.host.txq.put p (q.map (fun f => { f with held := true })) } }

/-- Is the class of a frame paused on a port (R34)? -/
def State.paused (s : State) (p c : Nat) : Bool := s.host.pause.has (8 * p + c)

/-- Do the frames of a connection wait for its next valid frame (R45)? -/
def State.connWaits (s : State) (id : Nat) : Bool := match s.host.conns.find id with | some c => c.waiting | none => false

/-- Is a queued frame held back on port `p`: its class is paused (R34), or its connection waits for a port (R45)? -/
def State.txBlocked (s : State) (p : Nat) (f : TxFrame) : Bool := s.paused p f.pcp || s.connWaits f.conn

/-- May port `p` begin a frame: it is up, enabled, and not on its way down (R43, R47)? -/
def State.mayTransmit (s : State) (p : Nat) : Bool :=
  decide (p < s.portCount) && s.portUp p && s.portEnabled p && !s.host.closing.contains p

/-- FRAME_TRANSMIT (R32): the first frame that nothing blocks leaves the port, under the active transmit SA where MACSEC_EN is 1. A frame
moved here that is longer than this port's MAX_FRAME is discarded (R31; log entry 156). -/
def execFrameTransmit (port : Nat) (s : State) : Result :=
  within (port < 8) <|
    if s.mayTransmit port then
      match pickTx (s.txBlocked port) (s.host.txq.get port []) with
      | none => s
      | some (f, rest) =>
        let off (t : State) : State := { t with host := { t.host with txq := t.host.txq.put port rest } }
        if s.maxFrame port < f.len (s.macsec port) then off s
        else if s.macsec port then
          match s.txSa port with
          | none => s.holdTx port
          | some (i, a) =>
            if a.canSend then (off (s.usePn port i a)).emit port f (some { sci := a.sci, an := a.an, pn := a.pn }) else s.holdTx port
        else (off s).emit port f none
    else s

/-! ### Link up and down (R28, R43 to R47) -/

/-- The port starts (or restarts) an attempt with its present settings (R28): auto-negotiation where AN_EN is 1, advertising the one technology
of its mode and MEDIA; training where LT_EN is 1, else the transmitter runs with its preset coefficients. The 3 s of R28 run where either
runs. -/
def State.startTraining (s : State) (p : Nat) : State :=
  let an := s.flag (Reg.ethPortCfg p) 2
  let lt := s.flag (Reg.ethPortCfg p) 3
  let s1 := s.putFlag (Reg.ethPortStatus p) 1 (an || lt)
  { s1 with host := { s1.host with train := s1.host.train.put p {
      an := an, lt := lt, cr := s.flag (Reg.ethPortCfg p) 1, lanes := s.portLanes, due := if an || lt then some (s1.now + sec 3) else none } } }

/-- Does a command that waits bring port `p` up? -/
def linksUp (p : Nat) : Instr → Bool
  | .portLinkUp q => q == p
  | _ => false

/-- TRAIN_TIMEOUT (R28). -/
def execTrainTimeout (port : Nat) (s : State) : Result :=
  within (port < 8) <|
    match (s.host.train.find port).bind (·.due) with
    | none => s
    | some d => if s.fires d (linksUp port) && !s.portUp port then (s.count (Reg.ethCount port 5) 1).startTraining port else s

/-- The gratuitous ARP and the unsolicited neighbour advertisement of a port that has come up (R42), for the addresses it has. -/
def State.greet (s : State) (p : Nat) : State :=
  let own (v6 : Bool) : Peer := { mac := if v6 then 0x333300000001 else 0xFFFFFFFFFFFF, ip := { v6 := v6, addr := s.portIp p v6 }, udp := 0 }
  let s1 := if s.ipv4 p = 0 then s else s.queueTx p { conn := 0, pcp := 0, peer := own false, body := .gratuitousArp }
  if s.ipv6 p = 0 then s1 else s1.queueTx p { conn := 0, pcp := 0, peer := own true, body := .ndAdvert false }

/-- PORT_LINK_UP (R46, R42): the port comes up, sends its gratuitous ARP and advertisement, and takes no connection back. -/
def execPortLinkUp (port : Nat) (s : State) : Result :=
  within (port < 8) <|
    if port < s.portCount && s.portEnabled port && !s.portUp port then
      let s1 := ((s.setFlag (Reg.ethPortStatus port) 0).clrFlag (Reg.ethPortStatus port) 1).setFld
        (Reg.ethPortStatus port) 5 2 (2 ^ s.portLanes - 1)
      let s2 : State := { s1 with host := { s1.host with train := s1.host.train.modify port (fun a => { a with due := none }) } }
      (s2.greet port).pfcUpdate port
    else s

/-- May port `q` be the new home of a connection of port `p` whose latest frame used IP version `v6` (R44)? -/
def State.homeOk (s : State) (p q : Nat) (v6 : Bool) : Bool :=
  q != p && s.portUp q && s.fld (Reg.ethPortCfg q) 7 6 == s.fld (Reg.ethPortCfg p) 7 6
    && s.fld (Reg.ethNexthopMac q) 47 0 != 0 && s.portIp q v6 != 0

/-- The lowest-numbered port that qualifies under R44. -/
def State.newHome (s : State) (p : Nat) (v6 : Bool) : Option Nat :=
  (List.range s.portCount).find? (fun q => s.homeOk p q v6)

/-- The connection with its new home, addressed to ETH_NEXTHOP_MAC there (R44); where no port qualifies its frames wait (R45). -/
def State.rehomed (s : State) (c : Conn) : Conn :=
  match s.newHome c.home c.peer.ip.v6 with
  | none => { c with waiting := true }
  | some q => { c with home := q, peer := { c.peer with mac := s.fld (Reg.ethNexthopMac q) 47 0 } }

/-- Where a frame queued on port `p` goes: to the present home of its connection, when that is another port and up. -/
def State.frameHome (s : State) (p : Nat) (f : TxFrame) : Option Conn :=
  match s.host.conns.find f.conn with
  | some c => if c.home ≠ p && !c.waiting && s.portUp c.home then some c else none
  | none => none

/-- The frames queued on port `p` of connections whose home is elsewhere now move there, in order, addressed to the connection's peer (R44,
R45). -/
def State.moveFrames (s : State) (p : Nat) : State :=
  let old := s.host.txq.get p []
  let stay := s.host.txq.put p (old.filter (fun f => (s.frameHome p f).isNone))
  { s with host := { s.host with txq := old.foldl (fun t f => match s.frameHome p f with
    | none => t
    | some c => t.put c.home (t.get c.home [] ++ [{ f with peer := { f.peer with mac := c.peer.mac } }])) stay } }

/-- Moves every connection whose home is port `p`, which is down, and then the frames queued there (R44, R45). -/
def State.moveConns (s : State) (p : Nat) : State :=
  let off (c : Conn) : Bool := c.home == p && !c.waiting
  let moved := s.host.conns.any (fun e => off e.2 && !(s.rehomed e.2).waiting)
  let s1 := if moved then s.setFlag (Reg.ethPortStatus p) 7 else s
  ({ s1 with host := { s1.host with conns := s1.host.conns.map (fun e => if off e.2 then (e.1, s.rehomed e.2) else e) } } : State).moveFrames p

/-- A port goes down with a cause: LINK_UP clears, LINK_LOST is set, DOWN_COUNT advances, PORT_DOWN is raised, the
connections move (R43, R44); its XOFFs end with the link. -/
def State.portDown (s : State) (p cause locked : Nat) : State :=
  let st := Reg.ethPortStatus p
  let s1 := (((s.clrFlag st 0).setFld st 5 2 locked).setFlag st 9).saturate st 31 16
  let s2 : State := { s1 with host := { s1.host with
    train := s1.host.train.drop p, closing := s1.host.closing.filter (· != p), xoff := s1.host.xoff.filter (fun e => e.1 / 8 != p) } }
  (s2.raise 0x1001 p cause).moveConns p

/-- PORT_DOWN (R43): a lane loss takes an up port down, whatever its other lanes do; it then trains again while enabled. -/
def execPortDown (port : Nat) (lanes : LaneLoss) (s : State) : Result :=
  within (port < 8) <|
    if port < s.portCount && s.portUp port then
      let s1 := s.portDown port lanes.loss.cause (lanes.locked.toNat % 2 ^ s.portLanes)
      if s.portEnabled port then s1.startTraining port else s1
    else s

/-- PORT_ADMIN_DOWN (R47): an up port whose ENABLE was cleared goes down at the frame boundary with cause 4, ADMIN; it trains again where
ENABLE was set meanwhile. -/
def execPortAdminDown (port : Nat) (s : State) : Result :=
  within (port < 8) <|
    if port < s.portCount && s.portUp port && s.host.closing.contains port then
      let s1 := s.portDown port 4 0
      if s.portEnabled port then s1.startTraining port else s1
    else s

/-- The effect of a write to ETH_PORT_CFG (R47, Table 02-5): ignored where the port does not exist or runs as lace; the fields
that may not change, or are out of range, keep their values and CFG_IGNORED is set, while the others take effect (log entry 157); ENABLE starts
training, or lets PORT_ADMIN_DOWN follow. -/
def State.ethPortCfgEffect (s : State) (p : Nat) (v : Word) : State :=
  if p < s.portCount then
    let old := s.rd (Reg.ethPortCfg p)
    let on := old.bit 0
    let keepField (w : Word) (hi lo : Nat) : Word := w.withField hi lo (old.field hi lo)
    let badVid := v.field 27 16 == 0 || v.field 27 16 == 0xFFF
    let badMax := decide (v.field 45 32 < 1522) || decide (9216 < v.field 45 32)
    let chg (hi lo : Nat) : Bool := v.field hi lo != old.field hi lo
    let ignored := (on && (chg 1 1 || chg 4 4 || chg 45 32)) || badVid || badMax
    let v1 := if on then keepField (keepField (keepField v 1 1) 4 4) 45 32 else v
    let v2 := if badVid then keepField v1 27 16 else v1
    let v3 := if badMax then keepField v2 45 32 else v2
    let v4 := (v3.withField 31 28 0).withField 63 46 0
    let s1 := s.wr (Reg.ethPortCfg p) v4
    let s2 := if ignored then s1.setFlag (Reg.ethPortStatus p) 8 else s1
    let s3 :=
      if !on && v4.bit 0 then (if s.portUp p then s2 else s2.startTraining p)
      else if on && !v4.bit 0 then
        if s.portUp p then { s2 with host := { s2.host with closing := p :: s2.host.closing.filter (· != p) } }
        else
          let u := s2.clrFlag (Reg.ethPortStatus p) 1
          { u with host := { u.host with train := u.host.train.drop p } }
      else s2
    s3.pfcUpdate p
  else s

end Sys2Proof.Machine
end

