-- ==== Sys2Proof/Machine/Shuttle.lean ====
section
/-!
DEFINITION. The layouts of Shuttle (R50 to R61): frame headers, stitches and segments as bytes, read and written.
-/
namespace Sys2Proof.Machine

/-- Bit `i` of a byte. -/
def byteBit (b : Byte) (i : Nat) : Bool := b.getLsbD i

/-- The frame header of a payload of at least 24 bytes (Table 03-1). -/
def parseHdr (b : List Byte) : FrameHdr :=
  let b0 := beAt b 0 1
  let b1 := b.getD 1 0
  { ver := b0 / 16, ftype := b0 % 16, ece := byteBit b1 7, cwr := byteBit b1 6, ackReq := byteBit b1 5,
    connId := beAt b 2 2, seq := beAt b 4 4, ack := beAt b 8 4, sack := beAt b 12 4, done := beAt b 16 4,
    credit := beAt b 20 2, count := beAt b 22 1 % 64 }

/-- The bytes of a frame header (Table 03-1). -/
def hdrBytes (h : FrameHdr) : List Byte :=
  [BitVec.ofNat 8 (h.ver * 16 + h.ftype), BitVec.ofNat 8 (h.ece.toNat * 128 + h.cwr.toNat * 64 + h.ackReq.toNat * 32)]
  ++ beBytes 2 h.connId ++ beBytes 4 h.seq ++ beBytes 4 h.ack ++ beBytes 4 h.sack ++ beBytes 4 h.done
  ++ beBytes 2 h.credit ++ [BitVec.ofNat 8 h.count, 0]

/-- LENGTH of a stitch: 0 stands for 65,536 (R56). -/
def lengthOf (n : Nat) : Nat := if n = 0 then 65536 else n

/-- One stitch from the front of a string, with the rest (Table 03-3); `none` where the string is too short. -/
def parseStitch (b : List Byte) : Option (Stitch × List Byte) :=
  let plen := beAt b 4 2
  if b.length < 16 + plen then none
  else
    let b1 := b.getD 1 0
    some ({ opcode := beAt b 0 1, resp := byteBit b1 7, fence := byteBit b1 6, more := byteBit b1 5, cont := byteBit b1 4,
            subop := b1.toNat % 16, length := lengthOf (beAt b 2 2), tag := beAt b 6 2, addr := beAt b 8 8,
            payload := slice b 16 plen }, b.drop (16 + plen))

/-- `n` stitches that consume a string exactly (R58). -/
def parseStitches : Nat → List Byte → Option (List Stitch)
  | 0, [] => some []
  | 0, _ => none
  | n + 1, b =>
    match parseStitch b with
    | none => none
    | some (t, rest) => (parseStitches n rest).map (fun l => t :: l)

/-- The bytes of a stitch (Table 03-3). -/
def stitchBytes (t : Stitch) : List Byte :=
  [BitVec.ofNat 8 t.opcode,
   BitVec.ofNat 8 (t.resp.toNat * 128 + t.fence.toNat * 64 + t.more.toNat * 32 + t.cont.toNat * 16 + t.subop % 16)]
  ++ beBytes 2 t.length ++ beBytes 2 t.payload.length ++ beBytes 2 t.tag ++ beBytes 8 t.addr ++ t.payload

/-- Body length of the frame types that carry no stitches (Table 03-2), `none` for DATA. -/
def bodyLen : Nat → Option Nat
  | 1 => some 0 | 2 => some 16 | 4 => some 0 | 6 => some 8 | _ => none

/-- May a host send this FTYPE (Table 03-2)? -/
def hostFtype (n : Nat) : Bool := n == 0 || n == 1 || n == 2 || n == 4 || n == 6

/-- A frame is consistent (R58). -/
def consistentFrame (b : List Byte) (h : FrameHdr) : Bool :=
  match bodyLen h.ftype with
  | some n => h.count == 0 && b.length == 24 + n && (h.ftype != 2 || h.connId == 0)
  | none => decide (1 ≤ h.count) && decide (h.count ≤ 32) && (parseStitches h.count (b.drop 24)).isSome

/-- What a delivered payload is, before any connection is looked at (Table 03-15, first four causes). -/
inductive FrameKind where
  | bad (cause : Nat)
  | badOpen
  | good (h : FrameHdr)
  deriving DecidableEq, Repr

/-- The first checks of Table 03-15: SHORT, VERSION (an OPEN with another VER is answered), FTYPE, MALFORMED. -/
def classify (b : List Byte) : FrameKind :=
  if b.length < 24 then .bad 1
  else
    let h := parseHdr b
    if h.ver ≠ 1 then (if h.ftype = 2 then .badOpen else .bad 2)
    else if !hostFtype h.ftype then .bad 3
    else if !consistentFrame b h then .bad 4
    else .good h

/-- Frame `a` is after frame `b` in 32-bit serial arithmetic (R53). -/
def seqAfter (a b : Nat) : Bool :=
  let d := (a + 2 ^ 32 - b % 2 ^ 32) % 2 ^ 32
  decide (1 ≤ d) && decide (d < 2 ^ 31)

/-- How far `a` is after `b`, modulo 2^32. -/
def seqDiff (a b : Nat) : Nat := (a + 2 ^ 32 - b % 2 ^ 32) % 2 ^ 32

/-- The payload space of a frame for stitches (R60), 16 bytes per stitch header not yet taken off. -/
def frameSpace (maxFrame : Nat) (v6 macsec : Bool) : Nat :=
  maxFrame - 22 - (if macsec then 32 else 0) - (if v6 then 40 else 20) - 8 - 24

/-- A response as a stitch: RESP set, STATUS in byte 8 and RESULT in bytes 9 to 15 of its first segment (Table 03-3). -/
def Response.stitch (r : Response) : Stitch :=
  { opcode := r.opcode, resp := true, fence := false, more := false, cont := false, subop := r.subop,
    length := r.length % 65536, tag := r.tag,
    addr := beNat (BitVec.ofNat 8 r.status.code :: (r.result ++ zeros 7).take 7), payload := r.payload }

/-- A continuation segment of a stitch: OFFSET in bytes 8 to 11 (R61). -/
def contSegment (t : Stitch) (off n : Nat) (more : Bool) : Stitch :=
  { t with more := more, cont := true, fence := false, addr := off * 2 ^ 32, payload := slice t.payload off n }

/-- The continuation segments of a stitch from an offset, one a frame of `space` bytes (R61); `fuel` bounds their number. -/
def contFrames : Nat → Stitch → Nat → Nat → List (List Stitch)
  | 0, _, _, _ => []
  | fuel + 1, t, off, space =>
    let left := t.payload.length - off
    if left + 16 ≤ space then [[contSegment t off left false]]
    else [contSegment t off (space - 16) true] :: contFrames fuel t (off + (space - 16)) space

/-- Stitches packed into frames of `space` bytes, at most 32 a frame, in order; a stitch that does not fit ends its frame with
its first segment (R60, R61). `cur` is the frame being filled, `used` the bytes in it. -/
def packFrames (space : Nat) : List Stitch → List Stitch → Nat → List (List Stitch)
  | [], cur, _ => if cur.isEmpty then [] else [cur]
  | t :: rest, cur, used =>
    let n := 16 + t.payload.length
    if used + n ≤ space && decide (cur.length < 32) then packFrames space rest (cur ++ [t]) (used + n)
    else if n ≤ space then cur :: packFrames space rest [t] n
    else
      let room := space - used - 16
      let pre := if used + 16 < space && decide (cur.length < 32) then ([], room) else ([cur], space - 16)
      let base := if used + 16 < space && decide (cur.length < 32) then cur else []
      let first := { t with more := true, payload := slice t.payload 0 pre.2 }
      let cont := contFrames (t.payload.length / (space - 16) + 2) t pre.2 space
      let last := cont.getLast?.getD []
      pre.1.filter (fun f => !f.isEmpty) ++ [base ++ [first]] ++ cont.dropLast
        ++ packFrames space rest last (last.foldl (fun a x => a + 16 + x.payload.length) 0)

end Sys2Proof.Machine
end

