-- ==== Sys2Proof/Machine/Transport.lean ====
section
/-!
DEFINITION. Shuttle transport (03): connections, acknowledgement, credits, duplicates and the replay cache, NOTICE frames and
drop causes.
-/
namespace Sys2Proof.Machine

/-! ### Configuration (Tables 03-17, 03-18) -/

/-- The larger of a field and 1: 0 acts as 1. -/
def atLeast1 (n : Nat) : Nat := if n = 0 then 1 else n
/-- ACK_DELAY, ns. -/
def State.ackDelay (s : State) : Nat := us (s.fld Reg.shtCfg 7 0)
/-- COAL_WAIT, ns; above 1,000 acts as 1,000. -/
def State.coalWait (s : State) : Nat := min 1000 (s.fld Reg.shtCfg 17 8)
/-- RETRY_LIMIT. -/
def State.retryLimit (s : State) : Nat := atLeast1 (s.fld Reg.shtCfg 21 18)
/-- NOTICE_RTO, ns. -/
def State.noticeRto (s : State) : Nat := us (10 * atLeast1 (s.fld Reg.shtCfg 31 24))
/-- IDLE_TIMEOUT, seconds. -/
def State.idleSeconds (s : State) : Nat := min 600 (atLeast1 (s.fld Reg.shtCfg 41 32))
/-- OPEN_TIMEOUT, ns. -/
def State.openTimeout (s : State) : Nat := ms (atLeast1 (s.fld Reg.shtCfg 51 42))
/-- CLOSE_LINGER, ns. -/
def State.closeLinger (s : State) : Nat := ms (atLeast1 (s.fld Reg.shtCfg 61 52))
/-- MIN of SHT_CREDIT_CFG. -/
def State.creditMin (s : State) : Nat := atLeast1 (s.fld Reg.shtCreditCfg 47 32)
/-- MAX of SHT_CREDIT_CFG; above 16,384 acts as 16,384. -/
def State.creditMax (s : State) : Nat := min 16384 (s.fld Reg.shtCreditCfg 31 16)
/-- DEFAULT of SHT_CREDIT_CFG, cut to the range from MIN to MAX. -/
def State.creditDefault (s : State) : Nat := max s.creditMin (min s.creditMax (s.fld Reg.shtCreditCfg 15 0))

/-! ### Connections -/

/-- The state with connection `id` holding `c`. -/
def State.putConn (s : State) (id : Nat) (c : Conn) : State :=
  { s with host := { s.host with conns := s.host.conns.put id c } }

/-- The connection `id`, changed by `f` where it is open. -/
def State.modConn (s : State) (id : Nat) (f : Conn → Conn) : State :=
  { s with host := { s.host with conns := s.host.conns.modify id f } }

/-- Connections of an engine. -/
def State.engineConns (s : State) (e : Nat) : List Conn := (s.host.conns.filter (fun x => x.1 % 8 == e)).map (·.2)

/-- Sum of the credit limits on an engine (R82). -/
def State.engineCredit (s : State) (e : Nat) : Nat := (s.engineConns e).foldl (fun a c => a + c.credit) 0

/-- Free entries of the reserve of R82. -/
def State.reserveFree (s : State) : Nat :=
  4096 - (s.host.conns.values.map (fun c => (c.replays.filter (fun r => r.reserve)).length)).foldl (· + ·) 0

/-- The leading `n` bits of two `w`-bit addresses agree. -/
def prefixEq (w n a b : Nat) : Bool := a / 2 ^ (w - n) == b / 2 ^ (w - n)

/-- Does a grant permit a source address (R94, Table 04-11)? -/
def grantPermits (g : Grant) (ip : IpAddr) : Bool :=
  g.v6 == ip.v6 && prefixEq (if g.v6 then 128 else 32) g.prefixLen g.netPrefix ip.addr

/-- SACK of a connection (Table 03-1): bit `i` for a held frame ACK + 2 + i … the frame one after ACK is never held. -/
def Conn.sack (c : Conn) : Nat :=
  c.held.foldl (fun a e => let d := seqDiff e.1 c.ack
    if 1 ≤ d ∧ d ≤ 32 then a ||| 2 ^ (d - 1) else a) 0

/-- A frame header the device sends on a connection: current ACK, SACK, CREDIT and ECE (R78, R81, R86). -/
def Conn.header (c : Conn) (id ftype seq count : Nat) : FrameHdr :=
  { ver := 1, ftype := ftype, ece := c.ece, cwr := false, ackReq := false, connId := id, seq := seq, ack := c.ack,
    sack := c.sack, done := 0, credit := c.credit, count := count }

/-- Queues a frame of a connection on its home port, and ends its ACK_DELAY wait (R44, R78). -/
def State.sendConn (s : State) (id : Nat) (c : Conn) (h : FrameHdr) (body : List Byte) : State :=
  (s.queueTx c.home { conn := id, pcp := c.tclass, peer := c.peer, body := .shuttle (hdrBytes h ++ body) }).modConn id
    (fun c => { c with ackDue := none, ackSent := h.ack })

/-- The device sends an ACK frame on a connection (R78). -/
def State.sendAck (s : State) (id : Nat) : State :=
  match s.host.conns.find id with
  | none => s
  | some c => s.sendConn id c (c.header id 1 c.devSeq 0) []

/-- A RESET frame, outside any connection's queue: to a peer, through a port, with a PCP (R68, R32). -/
def State.sendResetAs (s : State) (port pcp : Nat) (peer : Peer) (h : FrameHdr) (reason nonce : Nat) : State :=
  let bytes := hdrBytes h ++ [BitVec.ofNat 8 reason] ++ zeros 3 ++ beBytes 4 nonce
  (s.queueTx port { conn := 0, pcp := pcp, peer := peer, body := .shuttle bytes }).count (Reg.shtEvent 11) 1

/-- A RESET that belongs to no connection (R68, R72). -/
def State.sendReset (s : State) (port pcp : Nat) (peer : Peer) (id reason nonce : Nat) : State :=
  s.sendResetAs port pcp peer { ver := 1, ftype := 6, ece := false, cwr := false, ackReq := false, connId := id, seq := 0, ack := 0,
                                sack := 0, done := 0, credit := 0, count := 0 } reason nonce

/-- A mailbox whose owner is gone: it returns to IDLE unless it is BUSY (R436). -/
def Mailbox.ownerGone (m : Mailbox) : Mailbox :=
  if m.st = .busy then { m with owner := .none, op := 0 } else { Mailbox.idle with nonce := m.nonce }

/-- The state with every mailbox of a connection released (R436). -/
def State.releaseBoxes (s : State) (id : Nat) (c : Conn) : State :=
  let boxes := s.mbx.boxes.map (fun e => if e.2.owner = .conn id c.gen then (e.1, e.2.ownerGone) else e)
  { s with mbx := { s.mbx with boxes := boxes } }

/-- A connection becomes FREE: its CONN_ID rests for 2 s, its frames not yet begun are discarded, its mailboxes are released, its
operations run on without a response (R66, R71; log entry 68). -/
def State.freeConn (s : State) (id : Nat) : State :=
  match s.host.conns.find id with
  | none => s
  | some c =>
    let s1 := s.releaseBoxes id c
    { s1 with
      host := { s1.host with
        conns := s1.host.conns.drop id
        quarantine := s1.host.quarantine.put id (s1.now + sec 2)
        txq := s1.host.txq.map (fun e => (e.1, e.2.filter (fun f => f.conn != id))) }
      mem := { s1.mem with gaps := s1.mem.gaps.filter (fun g => g.conn != id) }
      filet := { s1.filet with jobs := s1.filet.jobs.filter (fun e => e.2.st ≤ 1 || e.2.owner != .conn id c.gen) } }

/-- The frames queued for a connection no longer belong to it: they leave although it is freed (log entry 68). -/
def State.releaseFrames (s : State) (id : Nat) : State :=
  { s with host := { s.host with txq := s.host.txq.map (fun e =>
      (e.1, e.2.map (fun f => if f.conn = id then { f with conn := 0 } else f))) } }

/-- The device resets a connection with a reason (R71); the RESET carries the connection's ACK, SACK, CREDIT and ECE (R78, R81, R86). -/
def State.resetConn (s : State) (id reason : Nat) : State :=
  match s.host.conns.find id with
  | none => s
  | some c => (s.freeConn id).sendResetAs c.home c.tclass c.peer (c.header id 6 c.devSeq 0) reason 0

/-! ### Drops (R89) -/

/-- A payload is dropped by a check of Table 03-15. -/
def State.shtDrop (s : State) (e cause connId : Nat) : State :=
  (s.count (Reg.shtDrop cause) 1).wr Reg.shtDropLast
    (BitVec.ofNat 64 (cause + e * 2 ^ 8 + 2 ^ 11 + connId * 2 ^ 16 + s.tick32 (Island.engine e) * 2 ^ 32))

/-- CONN_ID field of a payload, 0 when it is short. -/
def connField (b : List Byte) : Nat := if b.length < 24 then 0 else beAt b 2 2

/-- Takes the front of an engine's inbox, which frees its receive buffer (R35). -/
def State.takeFront (s : State) (e : Nat) : Option (Delivered × State) :=
  match s.host.inbox.get e [] with
  | [] => none
  | d :: rest =>
    let s1 : State := { s with host := { s.host with inbox := s.host.inbox.set e rest [] } }
    some (d, s1.pfcUpdate d.port)

/-- The answer to a frame that names no connection: RESET UNKNOWN_CONN, at most 10,000 in a second that opens with the first RESET after the
last one ended (R72; log entry 158). -/
def State.unknownConn (s : State) (d : Delivered) (h : FrameHdr) : State :=
  let w := s.host.unknownRate
  let fresh := decide (w.1 + sec 1 ≤ s.now)
  if h.ftype = 6 then s
  else if !fresh && decide (10000 ≤ w.2) then s
  else
    let s1 : State := { s with host := { s.host with unknownRate := if fresh then (s.now, 1) else (w.1, w.2 + 1) } }
    s1.sendReset d.port d.pcp d.peer h.connId 0x0A 0

/-! ### Responses -/

/-- Response frames of what is ready on a connection leave, packed under R60 and R61 (R76). -/
def State.flushReady (s : State) (id : Nat) : State :=
  match s.host.conns.find id with
  | none => s
  | some c =>
    if c.ready.isEmpty then s
    else
      let space := frameSpace (min c.maxFrame (s.maxFrame c.home)) c.peer.ip.v6 (s.macsec c.home)
      let frames := packFrames space (c.ready.map Response.stitch) [] 0
      let c1 := { c with ready := [], coalDue := none }
      let send (t : State) (f : List Stitch) : State :=
        t.sendConn id c1 (c1.header id 0 c1.devSeq f.length) (f.flatMap stitchBytes)
      frames.foldl send (s.putConn id c1)

/-- A response joins those ready on a connection; with COAL_WAIT 0 it leaves at once, otherwise a wait starts (R76). -/
def State.pushReady (s : State) (id : Nat) (r : Response) : State :=
  let wait := s.coalWait
  let s1 := s.modConn id (fun c => { c with ready := c.ready ++ [r], coalDue := some (c.coalDue.getD (s.now + wait)) })
  if wait = 0 then s1.flushReady id else s1

/-- An opcode of the replay class (Table 03-4). -/
def replayClass (opcode subop : Nat) : Bool :=
  opcode == 2 || opcode == 4 || opcode == 5 || opcode == 6 || opcode == 7 || opcode == 9 || (opcode == 0x0A && subop == 1)

/-- Records the response of a replay class stitch (R84). -/
def Conn.record (c : Conn) (seq idx : Nat) (r : Response) : Conn :=
  { c with replays := c.replays.map (fun e => if e.seq == seq && e.idx == idx then { e with resp := some r } else e) }

/-- A response without payload. -/
def Stitch.refusal (t : Stitch) (st : Status) : Response :=
  { opcode := t.opcode, subop := t.subop, length := t.length, tag := t.tag, status := st, result := [], payload := [] }

/-- A stitch is refused while its frame is taken: the refusal is stored for duplicates and sent. -/
def State.refuseNow (s : State) (id seq idx : Nat) (t : Stitch) (st : Status) : State :=
  let r := t.refusal st
  (s.modConn id (fun c => c.record seq idx r)).pushReady id r

/-! ### Taking frames (R75 to R83) -/

/-- Is an opcode and SUBOP defined for requests (Tables 03-4, 04-3, 04-4)? FILET_SUBMIT has a KIND of SCORE, TOPK
or THRESHOLD, and no VERIFY with SCORE (Tables 07-4, 07-6); FILET_RESULT has SUBOP 0 to 3. -/
def requestDefined (t : Stitch) : Bool :=
  !t.resp &&
  (if t.opcode = 4 then decide (t.subop ≤ 9)
   else if t.opcode = 7 then t.subop % 4 != 3 && !(t.subop % 4 == 0 && t.subop.testBit 2)
   else if t.opcode = 8 then decide (t.subop ≤ 3)
   else if t.opcode = 0x0A then decide (t.subop ≤ 1)
   else decide (1 ≤ t.opcode) && decide (t.opcode ≤ 0x0B) && t.subop == 0)

/-- The regions that hold an address, or that a COPY's source lies in: those in force at issue (R125). -/
def State.regionsAt (s : State) (a : Nat) : List (Nat × Region) :=
  s.mem.regions.filter (fun e => decide (e.2.base ≤ a % 2 ^ 56) && decide (a % 2 ^ 56 < e.2.base + e.2.size))

/-- Does a stitch pass the filters of request sampling (R541)? -/
def State.samplePass (s : State) (id : Nat) (t : Stitch) : Bool :=
  let conn := s.fld Reg.pmcSampleCfg 47 32
  let mask := s.fld Reg.pmcSampleCfg 63 48
  let a := (s.rd Reg.pmcSampleAddr).toNat
  let n := s.fld Reg.pmcSampleSize 55 0
  s.flag Reg.pmcSampleCfg 0 && (conn == 0 || conn == id) && (mask == 0 || mask.testBit t.opcode) &&
    (n == 0 || (decide (a ≤ t.addr) && decide (t.addr < a + n)))

/-- A stitch that an engine takes is counted for sampling, and every Nth is chosen (R541): the least TOTAL with which it is recorded. -/
def State.sampleTake (s : State) (id : Nat) (t : Stitch) : Option Nat × State :=
  if s.samplePass id t then
    let n := s.host.sampled.get (id % 8) 0 + 1
    let s1 : State := { s with host := { s.host with sampled := s.host.sampled.put (id % 8) n } }
    (if n % (max 1 (s.fld Reg.pmcSampleCfg 31 16)) = 0 then some (s.fld Reg.pmcSampleMin 31 0) else none, s1)
  else (none, s)

/-- Issues a stitch to the operation table under the grant and regions of the moment (R76, R125); it wakes a device in IDLE (R491). -/
def State.issue (s0 : State) (id : Nat) (c : Conn) (seq idx : Nat) (t : Stitch) (reexec : Bool) : State :=
  let r := s0.wake.sampleTake id t
  let s := r.2
  let src := if t.opcode = 5 then s.regionsAt (leNat t.payload) else []
  let g := s.mem.grants.get c.grant { cls := c.cls, ctr := false, ctrFirst := 0, ctrCount := 0, v6 := false, prefixLen := 0,
                                      netPrefix := 0, entries := [] }
  let phase := if requestDefined t then OpPhase.queued else .done (t.refusal .opcode)
  let op : Op := { origin := .conn id c.gen, mode := .normal, conn := id, cls := c.cls, engine := id % 8, seq := seq, idx := idx, st := t, grant := g,
                   regions := s.regionsAt t.addr ++ src, phase := phase, fails := [], reexec := reexec, started := s.now, gate := none,
                   sample := r.1, late := s.pwr.refuse.isSome }
  let ops := s.host.ops.put s.host.nextOp op
  let inUse := (ops.filter (fun e => e.2.engine == id % 8)).length
  { s with host := { s.host with
      ops := ops, nextOp := s.host.nextOp + 1, lastWork := s.now,
      peak := s.host.peak.put (id % 8) (max inUse (s.host.peak.get (id % 8) 0)) } }

/-- Issues a stitch whose last segment has come. -/
def State.issueWhole (s : State) (id : Nat) (c : Conn) (seq idx : Nat) (t : Stitch) : State :=
  let u := s.issue id c seq idx t false
  { u with host := { u.host with ops := u.host.ops.modify s.host.nextOp (fun o => { o with segmented := true }) } }

/-- Judges a stitch's credit (R80, R82): refused with NO_CREDIT (a replay entry from the reserve for the replay class, a
PROTOCOL reset where the reserve is empty), or counted, with a replay entry where its class has one. The Bool says whether
the stitch may run. -/
def State.judge (s : State) (id seq idx : Nat) (t : Stitch) : Bool × State :=
  match s.host.conns.find id with
  | none => (false, s)
  | some c =>
    let replay := replayClass t.opcode t.subop
    if c.credit ≤ c.counted.length then
      let s1 := s.count (Reg.shtEvent 5) 1
      if replay then
        if s1.reserveFree = 0 then (false, s1.resetConn id 0x08)
        else (false, (s1.modConn id (fun c => { c with replays := c.replays ++ [{ seq := seq, idx := idx, resp := none, reserve := true }] })).refuseNow
          id seq idx t .noCredit)
      else (false, s1.pushReady id (t.refusal .noCredit))
    else
      (true, s.modConn id (fun c => { c with
        counted := c.counted ++ [(seq, idx)]
        replays := if replay then c.replays ++ [{ seq := seq, idx := idx, resp := none, reserve := false }] else c.replays }))

/-- Does a continuation segment match the pending stitch (R61)? -/
def Pending.matchesSeg (p : Pending) (t : Stitch) (seq idx : Nat) : Bool :=
  t.cont && idx == 0 && seq == p.nextSeq && t.opcode == p.st.opcode && t.length == p.st.length && t.tag == p.st.tag
    && t.addr / 2 ^ 32 == p.st.payload.length

/-- One stitch of a frame in order (R61, R62, R80): it continues the pending stitch, breaks its chain, starts a segmented
stitch, or is issued. -/
def State.takeStitch (s : State) (id seq idx count : Nat) (t : Stitch) : State :=
  match s.host.conns.find id with
  | none => s
  | some c =>
    let fresh (s : State) : State :=
      if t.cont then s.count (Reg.shtEvent 6) 1
      else
        let (ok, s1) := s.judge id seq idx t
        if t.more then
          if idx + 1 = count then
            let p : Pending := { seq := seq, idx := idx, st := t, nextSeq := (seq + 1) % 2 ^ 32, refused := !ok }
            s1.modConn id (fun c => { c with seg := some p })
          else if ok then s1.refuseNow id seq idx t .length else s1
        else if ok then
          match s1.host.conns.find id with
          | none => s1
          | some c1 => s1.issue id c1 seq idx t false
        else s1
    match c.seg with
    | none => fresh s
    | some p =>
      if p.matchesSeg t seq idx && (!t.more || count == 1) then
        let st' := { p.st with payload := p.st.payload ++ t.payload }
        if t.more then s.modConn id (fun c => { c with seg := some { p with st := st', nextSeq := (seq + 1) % 2 ^ 32 } })
        else
          let s1 := s.modConn id (fun c => { c with seg := none })
          if p.refused then s1
          else match s1.host.conns.find id with
            | none => s1
            | some c1 => s1.issueWhole id c1 p.seq p.idx { st' with more := false }
      else
        let s1 := s.modConn id (fun c => { c with seg := none })
        let s2 := if p.refused then s1 else s1.refuseNow id p.seq p.idx p.st .length
        if t.cont then s2 else fresh s2

/-- The stitches of a frame, in order. -/
def State.takeStitches (s : State) (id seq count : Nat) : Nat → List Stitch → State
  | _, [] => s
  | idx, t :: rest => State.takeStitches (s.takeStitch id seq idx count t) id seq count (idx + 1) rest

/-- A pending segmented stitch whose frame was followed by a CLOSE is refused with LENGTH (R62). -/
def State.endSegment (s : State) (id : Nat) : State :=
  match (s.host.conns.find id).bind (·.seg) with
  | none => s
  | some p =>
    let s1 := s.modConn id (fun c => { c with seg := none })
    if p.refused then s1 else s1.refuseNow id p.seq p.idx p.st .length

/-- A frame is taken in SEQ order: ACK advances; DATA issues its stitches, CLOSE is accepted (R70, R75). -/
def State.takeFrame (s : State) (id : Nat) (seq : Nat) (b : List Byte) : State :=
  let h := parseHdr b
  let s1 := s.modConn id (fun c => { c with ack := seq })
  if h.ftype = 4 then
    (s1.endSegment id).modConn id (fun c => { c with
      st := .closing, closeSeq := seq, closeAcked := false, lingerDue := s.now + s.closeLinger })
  else s1.takeStitches id seq h.count 0 ((parseStitches h.count (b.drop 24)).getD [])

/-- Takes held frames that now follow without a gap (R75); those after an accepted CLOSE are dropped with cause STATE (R70). -/
def State.takeHeld (s : State) (id : Nat) : Nat → State
  | 0 => s
  | fuel + 1 =>
    match s.host.conns.find id with
    | none => s
    | some c =>
      if c.st = .closing then c.held.foldl (fun t _ => t.shtDrop (id % 8) 7 id) (s.modConn id (fun c => { c with held := [] }))
      else
        let next := (c.ack + 1) % 2 ^ 32
        match c.held.find? (fun e => e.1 == next) with
        | none => s
        | some (q, b) =>
          State.takeHeld ((s.modConn id (fun c => { c with held := c.held.filter (fun e => e.1 != next) })).takeFrame id q b) id fuel

/-- A re-execute class stitch of a duplicate frame runs again (R83): one still counted without more ado, one that was refused once its credit
is judged again (R82). -/
def State.runAgain (s : State) (id : Nat) (c : Conn) (seq idx : Nat) (t : Stitch) : State :=
  if c.counted.contains (seq, idx) then (s.count (Reg.shtEvent 3) 1).issue id c seq idx t true
  else
    let (ok, s1) := s.judge id seq idx t
    if ok then s1.issue id c seq idx t true else s1

/-- One stitch of a duplicate frame (R83): a replay class stitch is answered with its stored response once there is one, a re-execute class
stitch runs again, a segmented one when the duplicates of its last segment have come. -/
def State.dupStitch (s : State) (id seq idx : Nat) (t : Stitch) : State :=
  match s.host.conns.find id with
  | none => s
  | some c =>
    if t.cont then
      match c.dupSeg with
      | none => s
      | some p =>
        let s1 := s.modConn id (fun c => { c with dupSeg := none })
        if p.matchesSeg t seq idx then
          let st' := { p.st with payload := p.st.payload ++ t.payload }
          if t.more then s1.modConn id (fun c => { c with dupSeg := some { p with st := st', nextSeq := (seq + 1) % 2 ^ 32 } })
          else s1.runAgain id c p.seq p.idx { st' with more := false }
        else s1
    else if replayClass t.opcode t.subop then
      match c.replays.find? (fun e => e.seq == seq && e.idx == idx) with
      | none => s
      | some e => match e.resp with
        | none => s
        | some r => (s.count (Reg.shtEvent 4) 1).pushReady id r
    else if t.more then
      s.modConn id (fun c => { c with dupSeg := some { seq := seq, idx := idx, st := t, nextSeq := (seq + 1) % 2 ^ 32, refused := false } })
    else s.runAgain id c seq idx t

/-- The stitches of a duplicate frame. -/
def State.dupStitches (s : State) (id seq : Nat) : Nat → List Stitch → State
  | _, [] => s
  | idx, t :: rest => State.dupStitches (s.dupStitch id seq idx t) id seq (idx + 1) rest

/-- Cells of the reorder store a payload takes (R75). -/
def reorderCells (b : List Byte) : Nat := ceilDiv b.length 56

/-- Free cells of an engine's reorder store (R75). -/
def State.reorderFree (s : State) (e : Nat) : Nat :=
  16384 - ((s.engineConns e).map (fun c => (c.held.map (fun x => reorderCells x.2)).foldl (· + ·) 0)).foldl (· + ·) 0

/-- DONE of a valid host frame (R79): kept when it is after the one held, clamped to ACK; it frees credit and replay entries
(R80, R84). -/
def Conn.takeDone (c : Conn) (d : Nat) : Conn :=
  let d1 := if seqAfter d c.ack then c.ack else d
  if seqAfter d1 c.done then
    { c with done := d1, counted := c.counted.filter (fun x => seqAfter x.1 d1),
             replays := c.replays.filter (fun r => seqAfter r.seq d1) }
  else c

/-- Does an ACK and SACK acknowledge the device's frame `q` (R81, R88)? -/
def acknowledges (ack sack q : Nat) : Bool :=
  let d := seqDiff q ack
  !seqAfter q ack || (decide (1 ≤ d) && decide (d ≤ 32) && sack.testBit (d - 1))

/-- ACK and SACK of a valid host frame acknowledge NOTICE frames, and the lowered limits whose NOTICE the ACK covers take effect (R81,
R88). -/
def Conn.takeAck (c : Conn) (ack sack : Nat) : Conn :=
  let c1 := { c with notices := c.notices.filter (fun n => !acknowledges ack sack n.seq) }
  c.lowers.foldl (fun x l => if seqAfter l.1 ack then x else { x with credit := l.2 })
    { c1 with lowers := c.lowers.filter (fun l => seqAfter l.1 ack) }

/-- Mailboxes whose last response segment DONE now covers return to IDLE (R436). -/
def State.doneBoxes (s : State) (id : Nat) (c : Conn) : State :=
  let covered (m : Mailbox) : Bool :=
    m.owner == .conn id c.gen && m.st == .done && m.sentSeq != 0 && !seqAfter (m.sentSeq - 1) c.done
  let boxes := s.mbx.boxes.map (fun e => if covered e.2 then (e.1, { Mailbox.idle with nonce := e.2.nonce }) else e)
  { s with mbx := { s.mbx with boxes := boxes } }

/-- What every valid frame of a connection does (R44, R45, R69, R73, R79, R86): it becomes OPEN, its home is the port of arrival, where frames
that waited now leave, its timer restarts, CWR, DONE and ACK are taken. Where the port of arrival is down by now, the connection moves on as
R44 says. -/
def State.validFrame (s : State) (id : Nat) (c : Conn) (d : Delivered) (h : FrameHdr) : State :=
  let up := s.portUp d.port
  let c1 : Conn := { c with
    st := if c.st = ConnSt.halfOpen then .opened else c.st
    home := if up || !c.waiting then d.port else c.home
    peer := d.peer, waiting := c.waiting && !up, idleDue := s.now + sec s.idleSeconds, lastTick := s.tick32 (Island.engine id)
    ece := if d.ce then true else if h.cwr then false else c.ece }
  let c2 := (c1.takeDone h.done).takeAck h.ack h.sack
  let c3 := if up || c.waiting then c2 else s.rehomed c2
  let s0 := if c3.home ≠ c2.home then s.setFlag (Reg.ethPortStatus d.port) 7 else s
  let s1 := (s0.putConn id c3).doneBoxes id c3
  let s2 := if c.waiting && up then s1.moveFrames c.home else s1
  if h.ece then s2.count (Reg.shtEvent 14) 1 else s2

/-- Has the connection closed: DONE reached the CLOSE's SEQ minus 1 (R69)? -/
def Conn.closedByDone (c : Conn) : Bool := c.st == .closing && !seqAfter ((c.closeSeq + 2 ^ 32 - 1) % 2 ^ 32) c.done

/-- CLOSE_ACK of a connection (R70). -/
def State.sendCloseAck (s : State) (id : Nat) : State :=
  match s.host.conns.find id with
  | none => s
  | some c => (s.sendConn id c (c.header id 5 c.devSeq 0) []).modConn id (fun c => { c with closeAcked := true })

/-- A CLOSING connection whose DONE has reached the CLOSE's SEQ minus 1 becomes FREE, its CLOSE_ACK sent if it was not (R69, R70). -/
def State.closeDone (s : State) (id : Nat) : State :=
  match s.host.conns.find id with
  | none => s
  | some c =>
    if c.closedByDone then ((if c.closeAcked then s else s.sendCloseAck id).releaseFrames id).freeConn id else s

/-- A received frame that consumes a SEQ starts the wait of R78, if none runs; whatever is sent on the connection ends it. -/
def State.ackWait (s : State) (id : Nat) : State :=
  s.modConn id (fun c => { c with ackDue := some (c.ackDue.getD (s.now + s.ackDelay)) })

/-- The end of taking a frame that consumed a SEQ (R78): an ACK at once where asked for, or where ACK_DELAY is 0 and nothing has been sent. -/
def State.ackNow (s : State) (id : Nat) (now : Bool) : State :=
  match s.host.conns.find id with
  | none => s
  | some c => if now || (s.ackDelay == 0 && c.ackDue.isSome) then s.sendAck id else s

/-- A DATA or CLOSE frame of an open connection (R70, R75, R83), after the checks of Table 03-15 up to STATE. -/
def State.sequenced (s : State) (e id : Nat) (c : Conn) (d : Delivered) (h : FrameHdr) : State :=
  if !seqAfter h.seq c.ack then
    if !seqAfter h.seq c.done then
      -- STALE: acknowledged, then dropped
      (s.sendAck id).shtDrop e 8 id
    else
      let s1 := (s.validFrame id c d h).count (Reg.shtEvent 2) 1
      let s2 := if h.ftype = 4 then (if c.closeAcked then s1.sendCloseAck id else s1)
        else s1.dupStitches id h.seq 0 ((parseStitches h.count (d.bytes.drop 24)).getD [])
      s2.sendAck id
  else
    let n := seqDiff h.seq c.ack
    if 32 < n then s.shtDrop e 9 id
    else if n = 1 then
      let gap := c.held.any (fun x => x.1 == (h.seq + 1) % 2 ^ 32)
      ((((s.validFrame id c d h).ackWait id).takeFrame id h.seq d.bytes).takeHeld id 32).ackNow id (gap || h.ackReq)
    else if c.held.any (fun x => x.1 == h.seq) then
      ((s.validFrame id c d h).count (Reg.shtEvent 2) 1).sendAck id
    else if s.reorderFree e < reorderCells d.bytes then s.shtDrop e 10 id
    else
      ((s.validFrame id c d h).modConn id (fun c => { c with held := c.held ++ [(h.seq, d.bytes)] })).sendAck id

/-- Is a frame type valid in a connection's state (Table 03-15, STATE)? In CLOSING a later frame is not. -/
def stateOk (c : Conn) (h : FrameHdr) : Bool :=
  match c.st with
  | .closing => h.ftype == 1 || h.ftype == 6 || !seqAfter h.seq c.closeSeq
  | _ => true

/-- Does a connection's grant permit a source address (R74)? -/
def State.sourceOk (s : State) (c : Conn) (ip : IpAddr) : Bool :=
  match s.mem.grants.find c.grant with
  | some g => grantPermits g ip
  | none => false

/-- A frame of a connection that carries CE: ECE is reflected from now on, whatever later checks find (R86). -/
def State.sawCe (s : State) (id : Nat) (d : Delivered) : State :=
  if d.ce then (s.modConn id (fun c => { c with ece := true })).count (Reg.shtEvent 13) 1 else s

/-- A frame of FTYPE DATA, ACK, CLOSE or RESET that named a connection: the checks UNKNOWN_CONN, SOURCE and STATE, then `k`, after which the
connection may have closed (R69). -/
def State.onConn (s : State) (e : Nat) (d : Delivered) (h : FrameHdr) (k : State → Conn → State) : State :=
  match s.host.conns.find h.connId with
  | none => (s.unknownConn d h).shtDrop e 5 h.connId
  | some c =>
    if !s.sourceOk c d.peer.ip then s.shtDrop e 6 h.connId
    else
      let s1 := s.sawCe h.connId d
      if !stateOk c h then s1.shtDrop e 7 h.connId else (k s1 c).closeDone h.connId

/-- Does a valid frame of a connection stand in its engine's inbox, whose header satisfies `p`? It entered the engine's island before the
timers that await it expire (R18). -/
def State.validWaits (s : State) (id : Nat) (c : Conn) (p : FrameHdr → Bool) : Bool :=
  (s.host.inbox.get (id % 8) []).any (fun d => match classify d.bytes with
    | .good h =>
      let n := seqDiff h.seq c.ack
      h.connId == id && s.sourceOk c d.peer.ip && stateOk c h && p h &&
        (h.ftype == 1 || (!seqAfter h.seq c.ack && seqAfter h.seq c.done) || n == 1 ||
          (decide (2 ≤ n) && decide (n ≤ 32) && decide (reorderCells d.bytes ≤ s.reorderFree (id % 8))))
    | _ => false)

/-- The front of an engine's inbox, where it is a frame of this FTYPE that passes the first checks. -/
def State.frontOf (s : State) (e : Nat) (ftype : Nat → Bool) (k : State → Delivered → FrameHdr → State) : State :=
  match s.takeFront e with
  | none => s
  | some (d, s1) =>
    match classify d.bytes with
    | .good h => if ftype h.ftype then k s1 d h else s
    | _ => s

/-- DATA_FRAME (R75): the front of the engine's inbox is taken, held, answered as a duplicate or dropped. A payload that fails
one of the first checks of Table 03-15 is dropped here too, but for an OPEN with another VER. -/
def execDataFrame (engine : Nat) (s : State) : Result :=
  within (engine < 8) <|
    match s.takeFront engine with
    | none => s
    | some (d, s1) =>
      match classify d.bytes with
      | .bad cause => s1.shtDrop engine cause (connField d.bytes)
      | .badOpen => s
      | .good h =>
        if h.ftype = 0 then s1.onConn engine d h (fun t c => t.sequenced engine h.connId c d h) else s

/-- ACK_FRAME (R79). -/
def execAckFrame (engine : Nat) (s : State) : Result :=
  within (engine < 8) <|
    s.frontOf engine (· == 1) fun s1 d h =>
      s1.onConn engine d h fun t c =>
        let t1 := t.validFrame h.connId c d h
        if h.ackReq then t1.sendAck h.connId else t1

/-- CLOSE (R70). -/
def execClose (engine : Nat) (s : State) : Result :=
  within (engine < 8) <|
    s.frontOf engine (· == 4) fun s1 d h => s1.onConn engine d h (fun t c => t.sequenced engine h.connId c d h)

/-- RESET_RECEIVE (R71). -/
def execResetReceive (engine : Nat) (s : State) : Result :=
  within (engine < 8) <|
    s.frontOf engine (· == 6) fun s1 d h =>
      s1.onConn engine d h (fun t _ => (t.freeConn h.connId).count (Reg.shtEvent 12) 1)

/-- CLOSE_ACK_SEND (R70): once every stitch of the earlier frames has had its response sent. -/
def execCloseAckSend (conn : Nat) (s : State) : Result :=
  within (conn < 0xFFFF) <|
    match s.host.conns.find conn with
    | none => s
    | some c =>
      let busy := s.host.ops.any (fun e => e.2.origin == .conn conn c.gen) || !c.ready.isEmpty
      if c.st = .closing && !c.closeAcked && !busy then s.sendCloseAck conn else s

/-- CLOSE_LINGER_EXPIRE (R69). -/
def execCloseLingerExpire (conn : Nat) (s : State) : Result :=
  within (conn < 0xFFFF) <|
    match s.host.conns.find conn with
    | none => s
    | some c => if c.st = .closing && s.due c.lingerDue then (s.releaseFrames conn).freeConn conn else s

/-- OPEN_TIMEOUT (R67). -/
def execOpenTimeout (conn : Nat) (s : State) : Result :=
  within (conn < 0xFFFF) <|
    match s.host.conns.find conn with
    | none => s
    | some c => if c.st = .halfOpen && s.due c.openDue && !s.validWaits conn c (fun _ => true) then s.freeConn conn else s

/-- IDLE_TIMEOUT (R73). -/
def execIdleTimeout (conn : Nat) (s : State) : Result :=
  within (conn < 0xFFFF) <|
    match s.host.conns.find conn with
    | none => s
    | some c => if c.st = .opened && s.due c.idleDue && !s.validWaits conn c (fun _ => true) then s.resetConn conn 0x06 else s

/-- ACK_DELAY_EXPIRE (R78). -/
def execAckDelayExpire (conn : Nat) (s : State) : Result :=
  within (conn < 0xFFFF) <|
    match s.host.conns.find conn with
    | none => s
    | some c => match c.ackDue with
      | none => s
      | some d => if s.due d then s.sendAck conn else s

/-- COAL_WAIT_EXPIRE (R76). -/
def execCoalWaitExpire (conn : Nat) (s : State) : Result :=
  within (conn < 0xFFFF) <|
    match s.host.conns.find conn with
    | none => s
    | some c => match c.coalDue with
      | none => s
      | some d => if s.due d then s.flushReady conn else s

/-! ### OPEN (R64 to R67) -/

/-- The OPEN_ACK of a connection, its 24 bytes of header and its body (Table 03-6). -/
def State.openAckBytes (s : State) (id : Nat) (c : Conn) : List Byte :=
  hdrBytes (c.header id 3 c.devSeq 0) ++ beBytes 4 c.nonce ++ [BitVec.ofNat 8 c.cls, 0] ++ beBytes 2 c.credit
    ++ beBytes 2 (min c.maxFrame (s.maxFrame c.home)) ++ beBytes 2 s.idleSeconds ++ zeros 4

/-- The OPEN_ACK of a connection is sent, or sent again as it was (R67). -/
def State.sendOpenAck (s : State) (id : Nat) (c : Conn) : State :=
  s.queueTx c.home { conn := id, pcp := c.tclass, peer := c.peer, body := .shuttle c.openAck }

/-- Engines that can take a connection (R65, check 5). -/
def State.openEngines (s : State) : List Nat :=
  (List.range 8).filter (fun e => decide ((s.engineConns e).length < 2048) && decide (s.engineCredit e + s.creditMin ≤ 16384))

/-- Is a CONN_ID free to be assigned (R66)? -/
def State.idFree (s : State) (id : Nat) : Bool :=
  id != 0 && id != 0xFFFF && !s.host.conns.has id &&
    (match s.host.quarantine.find id with | none => true | some d => s.due d)

/-- A free CONN_ID of an engine, found from place `k` upward, cyclically. -/
def State.pickId (s : State) (e k : Nat) : Nat → Option Nat
  | 0 => none
  | fuel + 1 =>
    let id := 8 * (k % 8192) + e
    if s.idFree id then some id else State.pickId s e (k + 1) fuel

/-- The reason an OPEN is refused, `none` when every check of R65 passes. -/
def State.openRefusal (s : State) (d : Delivered) (maxF grant : Nat) : Option Nat :=
  if !s.flag Reg.shtStatus 15 then some 0x05
  else if maxF < 1522 || 9216 < maxF then some 0x0B
  else match s.mem.grants.find grant with
    | none => some 0x02
    | some g =>
      if !grantPermits g d.peer.ip then some 0x02
      else if s.power = .held && g.cls != 3 then some 0x04
      else if 16384 ≤ s.host.conns.length || s.openEngines.isEmpty then some 0x01
      else none

/-- The connection an accepted OPEN creates (R66); its engine, CONN_ID and first SEQ are free values (log entry 2). Where every CONN_ID of the
engine is in use or rests for its 2 s, the OPEN is answered with NO_SLOT (log entry 159). -/
def State.accept (s : State) (d : Delivered) (h : FrameHdr) : State :=
  let nonce := beAt d.bytes 24 4
  let grant := beAt d.bytes 28 2
  let maxF := beAt d.bytes 34 2
  let req := beAt d.bytes 32 2
  let (f1, s1) := s.draw
  let (f2, s2) := s1.draw
  let (f3, s3) := s2.draw
  let engines := s.openEngines
  let e := engines.getD (f1.toNat % engines.length) 0
  match s.pickId e f2.toNat 8192 with
  | none => s.sendReset d.port (beAt d.bytes 30 1 % 8) d.peer 0 0x01 nonce
  | some id =>
    let want := if req = 0 then s.creditDefault else max s.creditMin (min s.creditMax req)
    let cls := (s.mem.grants.find grant).map (·.cls) |>.getD 0
    let c : Conn := {
      st := .halfOpen, gen := s.host.nextGen, grant := grant, cls := cls, tclass := beAt d.bytes 30 1 % 8, nonce := nonce,
      openSrc := d.peer, peer := d.peer, home := d.port, waiting := false, maxFrame := maxF,
      credit := min want (16384 - s.engineCredit e), lowers := [], ack := h.seq, ackSent := h.seq, openAck := [], held := [], done := h.seq,
      devSeq := f3.toNat % 2 ^ 32, noticeTag := 0, notices := [], ece := d.ce, seg := none, dupSeg := none, counted := [], replays := [],
      ready := [], coalDue := none, ackDue := none, openDue := s.now + s.openTimeout, idleDue := 0,
      lastTick := s.tick32 (Island.engine id), lingerDue := 0, closeSeq := 0, closeAcked := false, slowDue := none, slowCause := 0,
      slowStitch := 0, slowByte := 0, preCut := none, slowRepeat := false,
      baseStitch := 0, baseByte := 0, traffic := [] }
    let s4 : State := { s3 with host := { s3.host with nextGen := s3.host.nextGen + 1,
                                                        quarantine := s3.host.quarantine.drop id } }
    let c' := { c with openAck := s.openAckBytes id c }
    let s5 := ((s4.putConn id c').sendOpenAck id c').count (Reg.shtEvent 9) 1
    if d.ce then s5.count (Reg.shtEvent 13) 1 else s5

/-- OPEN (R65, R67): repeated for a connection it created, refused, or accepted. An OPEN with another VER is answered with
RESET VERSION and dropped (R89). -/
def execOpenRx (engine : Nat) (s : State) : Result :=
  within (engine < 8) <|
    match s.takeFront engine with
    | none => s
    | some (d, s1) =>
      let nonce := beAt d.bytes 24 4
      let refuse (t : State) (reason : Nat) : State :=
        (t.sendReset d.port (beAt d.bytes 30 1 % 8) d.peer 0 reason nonce).count (Reg.shtEvent 10) 1
      match classify d.bytes with
      | .badOpen => (refuse s1 0x03).shtDrop engine 2 (connField d.bytes)
      | .good h =>
        if h.ftype = 2 then
          match s1.host.conns.find? (fun x => x.2.nonce == nonce && x.2.openSrc.ip == d.peer.ip
              && x.2.openSrc.udp == d.peer.udp && x.2.st != .closing) with
          | some (id, c) => s1.sendOpenAck id c
          | none => match s1.openRefusal d (beAt d.bytes 34 2) (beAt d.bytes 28 2) with
            | some r => refuse s1 r
            | none => s1.accept d h
        else s
      | _ => s

/-! ### NOTICE (R87, R88) -/

/-- The 16-byte prefix of a NOTICE (Table 03-10). -/
def State.noticePrefix (s : State) : List Byte :=
  let t := s.stamp
  beBytes 4 t.cycle ++ beBytes 3 t.hours ++ beBytes 2 (t.seconds % 4096) ++ zeros 7

/-- The frame of a NOTICE stitch. -/
def State.sendNoticeFrame (s : State) (id : Nat) (c : Conn) (n : Notice) : State :=
  s.sendConn id c (c.header id 0 n.seq 1) (stitchBytes n.stitch)

/-- Sends a NOTICE of a kind on a connection on behalf of a device, with the payload after the prefix (R87); its timer starts at
NOTICE_RTO. -/
def State.noticeFor (s : State) (dev id kind : Nat) (payload : List Byte) : State :=
  match s.host.conns.find id with
  | none => s
  | some c =>
    let body := s.noticePrefix ++ payload
    let t : Stitch := { opcode := 0x0C, resp := false, fence := false, more := false, cont := false, subop := kind,
                        length := body.length, tag := c.noticeTag % 2 ^ 16, addr := dev * 2 ^ 56, payload := body }
    let n : Notice := { seq := c.devSeq, stitch := t, retx := 0, due := s.now + s.noticeRto, rto := s.noticeRto }
    let s1 := s.sendNoticeFrame id c n
    (s1.modConn id (fun c => { c with devSeq := (c.devSeq + 1) % 2 ^ 32, noticeTag := (c.noticeTag + 1) % 2 ^ 16,
                                      notices := c.notices ++ [n] })).count (Reg.shtEvent 7) 1

/-- A NOTICE of this device. -/
def State.notice (s : State) (id kind : Nat) (payload : List Byte) : State := s.noticeFor s.self id kind payload

/-- NOTICE CREDIT: the lower limit takes effect when the host's ACK covers it (R81, Table 03-13). -/
def State.noticeCredit (s : State) (id limit cause : Nat) : State :=
  match s.host.conns.find id with
  | none => s
  | some c =>
    (s.notice id 3 (beBytes 2 limit ++ [BitVec.ofNat 8 cause] ++ zeros 5)).modConn id
      (fun c' => { c' with lowers := c'.lowers ++ [(c.devSeq, limit)] })

/-- NOTICE SLOW on one connection on behalf of a device (Table 03-11): its grace starts. -/
def State.slowFor (s : State) (dev id cause graceMs stitchRate byteRate : Nat) : State :=
  (s.noticeFor dev id 1 ([BitVec.ofNat 8 cause, 0] ++ beBytes 2 graceMs ++ beBytes 4 stitchRate ++ beBytes 4 byteRate ++ zeros 4)).modConn
    id (fun c => { c with slowDue := some (s.now + ms graceMs), slowCause := cause, slowStitch := stitchRate,
                          slowByte := byteRate, slowRepeat := false })

/-- NOTICE SLOW of this device. -/
def State.slowTo (s : State) (id cause graceMs stitchRate byteRate : Nat) : State :=
  s.slowFor s.self id cause graceMs stitchRate byteRate

/-- A SLOW on behalf of a device with both rates 0xFFFF_FFFF lifts the request, and the limit before the cuts returns (R204, R498). -/
def State.slowLiftFor (s : State) (dev id : Nat) : State :=
  match s.host.conns.find id with
  | none => s
  | some c =>
    let lim := match c.preCut with
      | some p => min p (16384 - (s.engineCredit (id % 8) - c.credit))
      | none => c.credit
    let s1 := s.modConn id (fun c => { c with credit := max c.credit lim, preCut := none, lowers := if c.preCut.isSome then [] else c.lowers })
    (s1.slowFor dev id c.slowCause 0 0xFFFFFFFF 0xFFFFFFFF).modConn id (fun c => { c with slowDue := none, slowCause := 0 })

/-- The SLOW of this device lifted. -/
def State.slowLift (s : State) (id : Nat) : State := s.slowLiftFor s.self id

/-- Stitches, payload bytes written and bytes read that a connection completed in the past second. -/
def State.lastSecond (s : State) (c : Conn) : Nat × Nat × Nat :=
  (c.traffic.filter (fun t => decide (s.now < t.1 + sec 1))).foldl (fun a t => (a.1 + 1, a.2.1 + t.2.1, a.2.2 + t.2.2)) (0, 0, 0)

/-- NOTICE SLOW with `share` % of the connection's rates over the second before throttling began, at least 1 (R498). -/
def State.slowShare (s : State) (dev id cause graceMs share : Nat) : State :=
  match s.host.conns.find id with
  | none => s
  | some c =>
    let l := s.lastSecond c
    let c1 : Conn := if c.slowCause = 1 || c.slowCause = 2 then c
      else { c with baseStitch := l.1 / 1000, baseByte := (l.2.1 + l.2.2) / 1000000 }
    (s.putConn id c1).slowFor dev id cause graceMs (max 1 (share * c1.baseStitch / 100)) (max 1 (share * c1.baseByte / 100))

/-- Is a connection above the rates of its SLOW (R204, R498)? -/
def State.aboveRates (s : State) (c : Conn) : Bool :=
  let t := s.lastSecond c
  (c.slowStitch != 0xFFFFFFFF && decide (c.slowStitch * 1000 < t.1)) ||
    (c.slowByte != 0xFFFFFFFF && decide (c.slowByte * 1000000 < t.2.1 + t.2.2))

/-- The credit cut of R204 and R498: half the limit, never below MIN, announced by NOTICE CREDIT; it repeats each second for
WEAR and every 100 ms otherwise. -/
def State.cutCredit (s : State) (id : Nat) (c : Conn) : State :=
  let again := s.now + (if c.slowCause = 3 then sec 1 else ms 100)
  let now' := (c.lowers.getLast?.map (·.2)).getD c.credit
  let lim := max s.creditMin (now' / 2)
  let s0 := if lim < now' then s.noticeCredit id lim c.slowCause else s
  let s1 := if lim < now' && c.slowCause != 3 then s0.count (Reg.thmCount 3) 1 else s0
  s1.modConn id (fun x => { x with slowDue := some again, slowRepeat := true, preCut := some (c.preCut.getD c.credit) })

/-- SLOW_GRACE_EXPIRE (R204, R498): GRACE_MS after a NOTICE SLOW, a connection above its rates has its credit cut. -/
def execSlowGraceExpire (conn : Nat) (s : State) : Result :=
  within (conn < 0xFFFF) <|
    match s.host.conns.find conn with
    | none => s
    | some c => match c.slowDue with
      | none => s
      | some d =>
        if s.due d && !c.slowRepeat then
          if s.aboveRates c then s.cutCredit conn c else s.modConn conn (fun c => { c with slowDue := none })
        else s

/-- CREDIT_CUT_REPEAT (R204, R498): while the excess lasts, the cut repeats on its period. -/
def execCreditCutRepeat (conn : Nat) (s : State) : Result :=
  within (conn < 0xFFFF) <|
    match s.host.conns.find conn with
    | none => s
    | some c => match c.slowDue with
      | none => s
      | some d =>
        if s.due d && c.slowRepeat then
          if s.aboveRates c then s.cutCredit conn c else s.modConn conn (fun c => { c with slowDue := none })
        else s

/-- NOTICE_RTO_EXPIRE (R88): an unacknowledged NOTICE frame is resent and its timer doubled up to 10 ms, or the connection is
reset after RETRY_LIMIT retransmissions. -/
def execNoticeRtoExpire (conn : Nat) (s : State) : Result :=
  within (conn < 0xFFFF) <|
    match s.host.conns.find conn with
    | none => s
    | some c => match c.notices.find? (fun n => s.due n.due && !s.validWaits conn c (fun h => acknowledges h.ack h.sack n.seq)) with
      | none => s
      | some n =>
        if s.retryLimit ≤ n.retx then s.resetConn conn 0x07
        else
          let rto := min (ms 10) (2 * n.rto)
          let n' := { n with retx := n.retx + 1, rto := rto, due := s.now + rto }
          ((s.sendNoticeFrame conn c n).modConn conn (fun c => { c with
            notices := c.notices.map (fun m => if m.seq == n.seq then n' else m) })).count (Reg.shtEvent 8) 1

end Sys2Proof.Machine
end

