-- ==== Sys2Proof/Machine/Lines.lean ====
section
/-!
DEFINITION. Lines: their identity (R329), their place on this device (R170, R171, R138), their stored image, encryption and
tag (R133 to R135, R404, R405), and the LLC that holds them (R328 to R331).
-/
namespace Sys2Proof.Machine

namespace Reg
abbrev stkEpoch : Nat := 0x080008
abbrev stkEpochCfg : Nat := 0x080010
abbrev stkReadCfg : Nat := 0x080018
abbrev stkProgCfg : Nat := 0x080020
abbrev stkStatus : Nat := 0x080028
abbrev stkPort (k : Nat) : Nat := 0x081000 + 0x1000 * k
abbrev stkDieState (k : Nat) : Nat := 0x081008 + 0x1000 * k
abbrev stkBasAddr (k : Nat) : Nat := 0x081010 + 0x1000 * k
abbrev stkBasCtl (k : Nat) : Nat := 0x081020 + 0x1000 * k
abbrev stkCount (k n : Nat) : Nat := 0x081100 + 0x1000 * k + 8 * n
abbrev llcCfg : Nat := 0x050008
abbrev llcStatus : Nat := 0x050010
abbrev llcWaySel : Nat := 0x050018
abbrev llcMaintAddr : Nat := 0x050030
abbrev llcMaintSize : Nat := 0x050038
abbrev llcMaintStatus : Nat := 0x050048
abbrev llcWayDis (g : Nat) : Nat := 0x050100 + 8 * g
abbrev llcCount (n : Nat) : Nat := 0x050200 + 8 * n
abbrev cohCfg : Nat := 0x060008
abbrev cohStatus : Nat := 0x060010
abbrev cohSalvage : Nat := 0x060018
abbrev cohCount (n : Nat) : Nat := 0x060100 + 8 * n
abbrev scrCfg : Nat := 0x160008
abbrev scrStatus : Nat := 0x160010
abbrev scrPass : Nat := 0x160018
abbrev scrResilver : Nat := 0x160030
abbrev scrDramStatus : Nat := 0x160038
abbrev scrPoisonLast : Nat := 0x160048
abbrev scrPoisonTime : Nat := 0x160050
abbrev scrCount (n : Nat) : Nat := 0x160100 + 8 * n
abbrev secCfg : Nat := 0x0D0008
abbrev secStatus : Nat := 0x0D0010
abbrev secAlarm : Nat := 0x0D0018
abbrev secRekey : Nat := 0x0D0030
abbrev secSelvedge : Nat := 0x0D0038
abbrev secTreeLast : Nat := 0x0D0040
abbrev secJtag : Nat := 0x0D0068
abbrev secCount (n : Nat) : Nat := 0x0D0100 + 8 * n
abbrev plcCfg : Nat := 0x0A0008
abbrev plcMoveCfg : Nat := 0x0A0010
abbrev plcGovCfg : Nat := 0x0A0018
abbrev plcCeilingOvr : Nat := 0x0A0020
abbrev plcDirtyCfg : Nat := 0x0A0028
abbrev plcCeiling : Nat := 0x0A0030
abbrev plcGovStatus : Nat := 0x0A0048
abbrev plcSpare : Nat := 0x0A0058
abbrev plcWear : Nat := 0x0A0060
abbrev plcMoveStatus : Nat := 0x0A0068
abbrev plcStatus : Nat := 0x0A0070
abbrev plcCount (n : Nat) : Nat := 0x0A0100 + 8 * n
abbrev drcCfg : Nat := 0x070008
abbrev drcErrLast : Nat := 0x070020
abbrev drcErrAddr : Nat := 0x070028
abbrev drcCount (n : Nat) : Nat := 0x070100 + 8 * n
abbrev drcBytes (port : Nat) : Nat := 0x070200 + 8 * port
end Reg

/-! ### Identity and place -/

/-- The key of a line in the tables: key ID and line number, address[55:8] (R329). -/
def lineKey (addr : Nat) : Nat := (addr / 2 ^ 56 % 256) * 2 ^ 48 + addr % 2 ^ 56 / 256

/-- Key ID of a line. -/
def lineKeyId (ln : Nat) : Nat := ln / 2 ^ 48
/-- Line number of a line. -/
def lineNo (ln : Nat) : Nat := ln % 2 ^ 48

/-- Home slice of a line (R329). -/
def homeSlice (ln : Nat) : Nat :=
  let n := lineNo ln
  Nat.xor (Nat.xor (n % 32) (n / 2 ^ 14 % 32)) (Nat.xor (n / 2 ^ 28 % 32) (n / 2 ^ 42 % 32))

/-- Set of a line within its slice (R329). -/
def homeSet (ln : Nat) : Nat := lineNo ln / 32 % 512

/-- Slice and set together. -/
def homeSlot (ln : Nat) : Nat := homeSlice ln * 512 + homeSet ln

/-- The lines a range of addresses touches, lowest first. -/
def linesOf (addr len : Nat) : List Nat :=
  if len = 0 then []
  else (List.range ((addr % 2 ^ 56 + len - 1) / 256 - addr % 2 ^ 56 / 256 + 1)).map (fun i => lineKey addr + i)

/-- The local panel on this device of the hoop panel a line lies in (R170); internal lines lie in none (R329). -/
def State.localPanel (s : State) (ln : Nat) : Option Nat :=
  if lineKeyId ln = 255 then none else
  match s.mem.dir.find (lineNo ln / 2 ^ 22) with
  | none => none
  | some d =>
    if d.devA = s.self && d.copyA != 2 then some d.lpA
    else if d.mirrored && d.devB == s.self && d.copyB != 2 then some d.lpB
    else match d.move with
      | some (dev, lp, _) => if dev = s.self then some lp else none
      | none => none

/-- The local logical line, LSWATCH × 512 + LINE, of a line (R170). -/
def State.localLine (s : State) (ln : Nat) : Option Nat :=
  (s.localPanel ln).map (fun lp => lp * 2 ^ 22 + lineNo ln % 2 ^ 22)

/-- The line at a local logical line: the hoop panel held there, with its key ID. -/
def State.lineOf (s : State) (l : Nat) : Option Nat :=
  (s.mem.dir.find? (fun e => s.localPanel (e.1 * 2 ^ 22) == some (l / 2 ^ 22))).map
    (fun e => e.2.keyId * 2 ^ 48 + (e.1 * 2 ^ 22 + l % 2 ^ 22))

/-- The pricking entry of a logical swatch. -/
def State.prk (s : State) (lsw : Nat) : Prk := s.mem.prk.get lsw .unwritten

/-- The ledger entry of a physical swatch. -/
def State.ldg (s : State) (ps : Nat) : Ldg := s.mem.ldg.get ps .unused

/-- The physical line, PSWATCH × 512 + line, of a local logical line of a mapped swatch (R171). -/
def State.physLine (s : State) (l : Nat) : Option Nat :=
  let e := s.prk (l / 512)
  match e.st with
  | .mapped | .moving => some (e.ps * 512 + (l % 512 + e.rot) % 512)
  | _ => none

/-- Stack of fragment `f` of a physical line (Table 05-7). -/
def fragStack (p f : Nat) : Nat := (p / 512 + p % 512 + f) % 9
/-- Die, stack × 8 + die, of fragment `f` of a physical line (Table 05-7). -/
def fragDie (p f : Nat) : Nat := fragStack p f * 8 + (p / 512 + fragStack p f) % 8
/-- Bank of a physical line within its dies, 4 × plane + bank (Tables 05-7, 05-22). -/
def lineBank (p : Nat) : Nat := 4 * (p % 16) + p / 16 % 4
/-- Slot row of a physical line (Table 05-7). -/
def lineRow (p : Nat) : Nat := p / 512 / 8
/-- Slot of a physical line in its row (Table 05-7). -/
def lineSlot (p : Nat) : Nat := p % 512 / 64

/-! ### The line image (R133 to R135) -/

/-- CRC-8, polynomial 0x07, initial value 0x00, over bytes. -/
def crc8 (l : List Byte) : Byte :=
  l.foldl (fun c b => (List.range 8).foldl (fun (x : Byte) _ => if x.getLsbD 7 then (x <<< 1) ^^^ 0x07 else x <<< 1) (c ^^^ b)) 0

/-- The line metadata (Table 05-5), with its META_CRC. -/
def metaOf (l keyId : Nat) (poison : BitVec 4) (cause : Nat) : BitVec 64 :=
  let low := l / 512 % 2 ^ 25 + (l % 512) * 2 ^ 25 + keyId * 2 ^ 34 + poison.toNat * 2 ^ 42 + (cause % 4) * 2 ^ 46
  BitVec.ofNat 64 (low + (crc8 (leBytes 7 low)).toNat * 2 ^ 56)

/-- Does the metadata pass its CRC and name local logical line `l` (R162)? -/
def metaOk (m : BitVec 64) (l : Nat) : Bool :=
  m.toNat / 2 ^ 56 == (crc8 (leBytes 7 (m.toNat % 2 ^ 56))).toNat && m.toNat % 2 ^ 34 == l / 512 % 2 ^ 25 + (l % 512) * 2 ^ 25

/-- KEY_ID, POISON and POISON_CAUSE of the metadata (Table 05-5). -/
def metaKey (m : BitVec 64) : Nat := m.toNat / 2 ^ 34 % 256
/-- POISON. -/
def metaPoison (m : BitVec 64) : BitVec 4 := BitVec.ofNat 4 (m.toNat / 2 ^ 42)
/-- POISON_CAUSE. -/
def metaCause (m : BitVec 64) : Nat := m.toNat / 2 ^ 46 % 4

/-- The 272 bytes of an image as one bit string. -/
def LineImg.bits (i : LineImg) : BitVec 2176 := i.metadata ++ i.tag ++ i.cipher

/-- The image held in a bit string. -/
def imgOfBits (b : BitVec 2176) : LineImg :=
  { cipher := b.extractLsb' 0 2048, tag := b.extractLsb' 2048 64, metadata := b.extractLsb' 2112 64 }

/-- Fragment `f` of an image: bytes 34 f to 34 f + 33, or for `f = 8` the parity (R135). -/
def LineImg.frag (i : LineImg) (f : Nat) : BitVec 272 :=
  if f < 8 then i.bits.extractLsb' (272 * f) 272
  else (List.range 8).foldl (fun a g => a ^^^ i.bits.extractLsb' (272 * g) 272) 0

/-- The image of eight data fragments, one of them (`erased`, when below 8) rebuilt from the parity fragment (R135). -/
def rebuild (frag : Nat → BitVec 272) (erased : Nat) : LineImg :=
  let get (g : Nat) : BitVec 272 :=
    if g = erased then ((List.range 9).filter (· != erased)).foldl (fun a h => a ^^^ frag h) 0 else frag g
  imgOfBits ((List.range 8).foldl (fun a g => a ||| ((get g).zeroExtend 2176 <<< (272 * g))) 0)

/-! ### Encryption and tag (R395, R399, R404, R405) -/

/-- A key slot; EMPTY where the table lists none. -/
def State.keySlot (s : State) (id : Nat) : KeySlot := s.mem.keys.get id .empty

/-- The version under which lines of a key ID are encrypted for the first time: the active one, in REKEY the new one (R419). -/
def State.newVer (s : State) (keyId : Nat) : Bool :=
  let k := s.keySlot keyId
  if k.st = .rekey then !k.active else k.active

/-- The L0 node of local logical line `l` (R407); a node never written holds zeros under the version of R419. -/
def State.nodeOf (s : State) (ln l : Nat) : TreeNode :=
  s.mem.nodes.get (l / 64) { major := 0, ver := s.newVer (lineKeyId ln), minors := [] }

/-- MAJOR as the 64 bits of the node hold it: the count with VER in bit 63 (Table 13-5). -/
def TreeNode.majorWord (n : TreeNode) : Nat := n.major % 2 ^ 63 + n.ver.toNat * 2 ^ 63

/-- Bytes 0 to 55 of a node (Table 13-5). -/
def TreeNode.bytes (n : TreeNode) : List Byte :=
  leBytes 8 n.majorWord ++ leBytes 48 ((List.range 64).foldl (fun a c => a + n.minors.get c 0 * 2 ^ (6 * c)) 0)

/-- The key of a node in the tables of tags and upper nodes. -/
def nodeKey (lv i : Nat) : Nat := lv * 2 ^ 32 + i

/-- Node `i` of level `lv` as held (R407). -/
def State.treeNode (s : State) (lv i : Nat) : TreeNode :=
  if lv = 0 then s.mem.nodes.get i { major := 0, ver := false, minors := [] }
  else s.mem.upper.get (nodeKey lv i) { major := 0, ver := false, minors := [] }

/-- The NODE_TAG that a node of level 0 to 3 has under its parent (R408). -/
def State.tagOf (s : State) (lv i : Nat) : BitVec 64 :=
  let parent := s.treeNode (lv + 1) (i / 64)
  Config.nodeMac (s.treeNode lv i).bytes lv i parent.majorWord (parent.minors.get (i % 64) 0)

/-- Does the NODE_TAG of a node verify against its parent (R409)? A node never written out carries the one it was provisioned with. -/
def State.tagOk (s : State) (lv i : Nat) : Bool :=
  match s.mem.tags.find (nodeKey lv i) with | some t => t == s.tagOf lv i | none => true

/-- The level at which the check of L0 node `n` fails when it is read from DRAM: from L2, whose parent is trusted, down; a node that the counter
cache holds newer than its home is verified (R407, R409). -/
def State.badLevel (s : State) (n : Nat) : Option Nat :=
  if s.mem.dirtyNodes.contains n then none
  else if !s.tagOk 2 (n / 4096) then some 2
  else if !s.tagOk 1 (n / 64) then some 1
  else if !s.tagOk 0 n then some 0 else none

/-- Can the L0 node of a local line not be used: it is lost, or it does not verify (R409, R416)? -/
def State.nodeGone (s : State) (l : Nat) : Bool := s.mem.lost.contains (l / 64) || (s.badLevel (l / 64)).isSome

/-- 256 bits from 32 bytes, first byte most significant. -/
def keyBits (l : List Byte) : BitVec 256 := BitVec.ofNat 256 (beNat l)

/-- The tenant key of a key ID and version, when loaded. -/
def State.tenantKey (s : State) (keyId : Nat) (ver : Bool) : Option (List Byte) :=
  match s.mem.keys.find keyId with
  | none => none
  | some k => if ver then k.key1 else k.key0

/-- K_enc and K_tag of a tenant key (R399); for key ID 0, and for the internal lines, the device integrity key (R395). -/
def State.lineKeys (s : State) (keyId : Nat) (ver : Bool) : Option (BitVec 256 × BitVec 256) :=
  if keyId = 0 || keyId = 255 then some (0, Config.integrityKey)
  else (s.tenantKey keyId ver).map (fun k =>
    let o := Config.hkdf384 k (leBytes 8 Config.serial.toNat)
      ((("SLN4810-LINE".toList.map (fun c => BitVec.ofNat 8 c.toNat)) ++ [BitVec.ofNat 8 keyId, BitVec.ofNat 8 ver.toNat])) 64
    (keyBits (o.take 32), keyBits (slice o 32 32)))

/-- The counter block CB_b, or CB′ with `mark = 1` (R404, R405). -/
def counterBlock (major minor l mark b : Nat) : BitVec 128 :=
  BitVec.ofNat 128 (major * 2 ^ 64 + (l / 512) * 2 ^ 39 + (l % 512) * 2 ^ 30 + minor * 2 ^ 24 + mark * 2 ^ 20 + b)

/-- The 2,048-bit keystream of a line; zero for the key IDs stored in clear (R404). -/
def keystream (enc : BitVec 256) (clear : Bool) (major minor l : Nat) : LineBits :=
  if clear then 0
  else (List.range 16).foldl
    (fun a b => a ||| ((Config.aes256 enc (counterBlock major minor l 0 b)).zeroExtend 2048 <<< (128 * b))) 0

/-- The tag of stored blocks and metadata (R405). -/
def lineTag (tagKey : BitVec 256) (cipher : LineBits) (m : BitVec 64) (major minor l : Nat) : BitVec 64 :=
  let x := (List.range 16).map (fun b => cipher.extractLsb' (128 * b) 128) ++ [BitVec.ofNat 128 (m.toNat % 2 ^ 56)]
  ((Config.ghash (Config.aes256 tagKey 0) x) ^^^ Config.aes256 tagKey (counterBlock major minor l 1 0)).extractLsb' 64 64

/-- The image of a line's contents under a node's present counters (R404, R405). -/
def sealWith (keys : BitVec 256 × BitVec 256) (n : TreeNode) (l keyId : Nat) (data : LineBits) (poison : BitVec 4) (cause : Nat) :
    LineImg :=
  let minor := n.minors.get (l % 64) 0
  let c := data ^^^ keystream keys.1 (keyId == 0 || keyId == 255) n.majorWord minor l
  let m := metaOf l keyId poison cause
  { cipher := c, tag := lineTag keys.2 c m n.majorWord minor l, metadata := m }

/-- What opening an image gives (R162, R406). -/
inductive Opened where
  | good (data : LineBits) (poison : BitVec 4) (cause : Nat)
  | metaBad
  | tagBad
  deriving DecidableEq, Repr

/-- Opens an image: the metadata check, then key ID and tag (R162, R406). -/
def openWith (keys : BitVec 256 × BitVec 256) (n : TreeNode) (l keyId : Nat) (i : LineImg) : Opened :=
  let minor := n.minors.get (l % 64) 0
  if !metaOk i.metadata l then .metaBad
  else if metaKey i.metadata ≠ keyId || i.tag != lineTag keys.2 i.cipher i.metadata n.majorWord minor l then .tagBad
  else .good (i.cipher ^^^ keystream keys.1 (keyId == 0 || keyId == 255) n.majorWord minor l)
    (metaPoison i.metadata) (metaCause i.metadata)

/-- Opens an image as the device would; a key that is not loaded opens nothing. -/
def State.openImg (s : State) (ln l : Nat) (i : LineImg) : Opened :=
  let n := s.nodeOf ln l
  match s.lineKeys (lineKeyId ln) n.ver with
  | none => .tagBad
  | some k => openWith k n l (lineKeyId ln) i

/-- Would encrypting local line `l` once more pass MINOR beyond 63 (R411)? -/
def State.minorFull (s : State) (ln l : Nat) : Bool := (s.nodeOf ln l).minors.get (l % 64) 0 == 63

/-- Advances the minor counter of a local line (R404); its node becomes dirty. -/
def State.bumpMinor (s : State) (ln l : Nat) : State :=
  let n := s.nodeOf ln l
  let n' := { n with minors := n.minors.set (l % 64) (n.minors.get (l % 64) 0 + 1) 0 }
  { s with mem := { s.mem with
              nodes := s.mem.nodes.put (l / 64) n'
              dirtyNodes := if s.mem.dirtyNodes.contains (l / 64) then s.mem.dirtyNodes else l / 64 :: s.mem.dirtyNodes } }

/-- Encrypts new contents of a line: the minor counter advances, and the image is formed under it (R404). `none` where the key
is not loaded. -/
def State.sealLine (s : State) (ln l : Nat) (data : LineBits) (poison : BitVec 4) (cause : Nat) : Option (LineImg × State) :=
  let s1 := s.bumpMinor ln l
  let n := s1.nodeOf ln l
  (s1.lineKeys (lineKeyId ln) n.ver).map (fun k => (sealWith k n l (lineKeyId ln) data poison cause, s1))

/-- The zero line a mapped swatch holds where nothing has been written (R173), under the present counters. -/
def State.zeroImg (s : State) (ln l : Nat) : LineImg :=
  let n := s.nodeOf ln l
  sealWith ((s.lineKeys (lineKeyId ln) n.ver).getD (0, 0)) n l (lineKeyId ln) 0 0 0

/-- The stripe at a physical line, as programmed or still in its program buffer (R143). -/
def State.stripe (s : State) (p ln l : Nat) : MedLine :=
  match s.mem.programs.find p with
  | some g => g.stripe
  | none => s.mem.med.get p { img := s.zeroImg ln l, label := (s.ldg (p / 512)).zeroLabel }

/-! ### The LLC (R328 to R331) -/

/-- A way's state; ON and not LOCKED where the table lists none. -/
def State.way (s : State) (slice w : Nat) : Way := s.mem.ways.get (slice * 16 + w) { st := .on, locked := false, why := 0, testing := false }

/-- May a normal allocation take the way (R331)? -/
def State.allocatable (s : State) (slice w : Nat) : Bool := (s.way slice w).st == .on && !(s.way slice w).locked

/-- The lines of a set, by way. -/
def State.setLines (s : State) (slot : Nat) : List (Nat × LlcLine) := s.mem.llc.filter (fun e => homeSlot e.1 == slot)

/-- The way a set's tree pseudo-LRU names among the allocatable ones (R331): at each of the four levels the pointed half, or
the other where the pointed half has none. -/
def plruPick (ok : Nat → Bool) (bits : Nat) : Nat → Nat → Nat → Nat
  | 0, _, w => w
  | k + 1, node, w =>
    let d := if bits.testBit node then 1 else 0
    let half := 2 ^ k
    let has (x : Nat) : Bool := (List.range half).any (fun j => ok ((2 * w + x) * half + j))
    let x := if has d then d else 1 - d
    plruPick ok bits k (2 * node + x) (2 * w + x)

/-- The tree bits after way `w` is used: every node on its path points away from it. -/
def plruTouch (w : Nat) : Nat → Nat → Nat → Nat
  | 0, _, bits => bits
  | k + 1, node, bits =>
    let x := w / 2 ^ k % 2
    let cleared := if bits.testBit node then bits - 2 ^ node else bits
    plruTouch w k (2 * node + x) (if x = 0 then cleared + 2 ^ node else cleared)

/-- The set's tree after a way is used. -/
def State.touchWay (s : State) (slot w : Nat) : State :=
  { s with mem := { s.mem with plru := s.mem.plru.set slot (plruTouch w 4 1 (s.mem.plru.get slot 0)) 0 } }

/-- Invalidates every agent copy of a line (R331, R342): its directory entry empties. -/
def State.dropAgents (s : State) (ln : Nat) (dir : List (Nat × CohSt)) : State :=
  { s with mem := { s.mem with agents := dir.foldl (fun t a => t.drop (a.1 * 2 ^ 56 + ln)) s.mem.agents } }

/-- Does an operation read or write a line: its range, or a COPY's source? -/
def Op.touches (o : Op) (ln : Nat) : Bool :=
  let n := o.st.length
  (linesOf o.st.addr n).contains ln || (o.st.opcode == 5 && (linesOf (leNat o.st.payload) n).contains ln)

/-- Is a line held against eviction because its node is under conversion (R411, R419), or a stitch is prepared on it (R274)? -/
def State.held (s : State) (ln : Nat) : Bool :=
  (match s.localLine ln with
  | some l => s.mem.conv.has (l / 64)
  | none => false) || s.host.ops.any (fun e => e.2.mode == .prepared && e.2.touches ln)

/-- One in HEAT_SAMPLE of the accesses that reach the DRAM tier or the medium, or of the dirty evictions from the LLC (`write`), in the rotation of
the line's LLC group, adds to the heat of its physical swatch; an access to a swatch that has none is not sampled (R178). -/
def State.sampleHeat (s : State) (ln : Nat) (write : Bool) : State :=
  match s.localLine ln with
  | none => s
  | some l => match (s.prk (l / 512)).st with
    | .mapped | .moving =>
      let ps := (s.prk (l / 512)).ps
      let key := 2 * (homeSlice ln / 4) + write.toNat
      let n := s.mem.rotation.get key 0 + 1
      let e := s.ldg ps
      let e' : Ldg := if n < max 1 (s.fld Reg.plcCfg 7 0) then e
        else if write then { e with heatW := min 255 (e.heatW + 1) } else { e with heatR := min 255 (e.heatR + 1) }
      { s with mem := { s.mem with
          rotation := s.mem.rotation.set key (if n < max 1 (s.fld Reg.plcCfg 7 0) then n else 0) 0
          ldg := s.mem.ldg.set ps e' Ldg.unused } }
    | _ => s

/-- A line of the LLC enters the eviction buffer (R331). -/
def State.toEvb (s : State) (ln : Nat) (l : LlcLine) : State :=
  let s1 := if l.dirty = 0 then s else s.sampleHeat ln true
  { s1 with mem := { s1.mem with llc := s1.mem.llc.drop ln, evb := s1.mem.evb.put ln { l with dir := [] } } }

/-- A line with the data that an owner's copy holds in M or O: the home gets it back with the invalidation (R331, R341). -/
def State.recalled (s : State) (ln : Nat) (l : LlcLine) : LlcLine :=
  match l.dir.findSome? (fun a => (s.mem.agents.find (a.1 * 2 ^ 56 + ln)).filter (fun c => c.st == .m || c.st == .o)) with
  | some c => { l with data := c.data, valid := 15, dirty := 15, poison := c.poison, dir := [] }
  | none => { l with dir := [] }

/-- A line leaves its way for the eviction buffer; its agent copies are invalidated first (R331). -/
def State.evictTo (s : State) (ln : Nat) (l : LlcLine) : State :=
  let s1 := if l.dir.isEmpty then s else (s.dropAgents ln l.dir).count (Reg.llcCount 5) 1
  s1.toEvb ln (s.recalled ln l)

/-- Makes room in a set and names the way for a new line: an invalid allocatable way first, otherwise the victim's, which
enters the eviction buffer with its agent copies invalidated (R331). `none` when the set has no way to take. -/
def State.allocWay (s : State) (slot : Nat) : Option (Nat × State) :=
  let slice := slot / 512
  let used := s.setLines slot
  match (List.range 16).find? (fun w => s.allocatable slice w && !used.any (fun e => e.2.way == w)) with
  | some w => some (w, s)
  | none =>
    let ok (w : Nat) : Bool := s.allocatable slice w && !used.any (fun e => e.2.way == w && s.held e.1)
    if (List.range 16).any ok then
      let w := plruPick ok (s.mem.plru.get slot 0) 4 1 0
      match used.find? (fun e => e.2.way == w) with
      | none => none
      | some (v, l) => some (w, s.evictTo v l)
    else none

/-- The state with a line of the LLC, or of the eviction buffer where it is there, changed. -/
def State.putLine (s : State) (ln : Nat) (l : LlcLine) : State :=
  if s.mem.llc.has ln then { s with mem := { s.mem with llc := s.mem.llc.put ln l } }
  else { s with mem := { s.mem with evb := s.mem.evb.put ln l } }

/-- Installs a line in the LLC (R330, R331), in its own way where it is already there. Where the set has no way that a normal allocation
may take, the line is held in the slice's eviction buffer (log entry 162). -/
def State.install (s : State) (ln : Nat) (data : LineBits) (dirty poison : BitVec 4) (cause : Nat) : State :=
  match s.mem.llc.find ln with
  | some old =>
    let l := { old with data := data, valid := 15, dirty := old.dirty ||| dirty, poison := poison, cause := cause }
    { s with mem := { s.mem with llc := s.mem.llc.put ln l } }
  | none =>
    match s.allocWay (homeSlot ln) with
    | none =>
      let l : LlcLine := { way := 0, data := data, valid := 15, dirty := dirty, poison := poison, cause := cause, unpaid := false, dir := [] }
      { s with mem := { s.mem with evb := s.mem.evb.put ln l } }
    | some (w, s1) =>
      let l : LlcLine := { way := w, data := data, valid := 15, dirty := dirty, poison := poison, cause := cause,
                           unpaid := false, dir := [] }
      ({ s1 with mem := { s1.mem with llc := s1.mem.llc.put ln l, evb := s1.mem.evb.drop ln } }.touchWay (homeSlot ln) w).count
        (Reg.llcCount 2) 1

/-- The LLC's copy of a line: in its set, or in the eviction buffer (R331). -/
def State.resident (s : State) (ln : Nat) : Option LlcLine :=
  match s.mem.llc.find ln with
  | some l => some l
  | none => s.mem.evb.find ln

/-- Is a line dirty in the LLC or the DRAM tier? -/
def State.dirtyLine (s : State) (ln : Nat) : Bool :=
  (match s.resident ln with | some l => l.dirty != 0 | none => false)
    || (match s.mem.tier.find ln with | some t => t.dirty != 0 | none => false)

/-- Dirty lines in the LLC and its eviction buffers, and those whose stripe program has not verified (R12, R331). -/
def State.dirtyLlc (s : State) : Nat :=
  (s.mem.llc.filter (fun e => e.2.dirty != 0)).length + (s.mem.evb.filter (fun e => e.2.dirty != 0)).length
    + s.mem.programs.length

/-- Dirty lines in the DRAM tier. -/
def State.dirtyTier (s : State) : Nat := (s.mem.tier.filter (fun e => e.2.dirty != 0)).length

/-- The dirty ceiling C in lines (R187). -/
def State.ceiling (s : State) : Nat := s.fld Reg.plcCeiling 15 0 * 4096

/-- A medium read or DRAM access is under way, or a node holds, for this line. -/
def State.filling (s : State) (ln : Nat) : Bool :=
  s.mem.dramReads.any (fun r => r.line == ln) || s.mem.senses.any (fun e => e.2.line == ln)

/-! ### Poison (R302 to R305) and data -/

/-- A line is newly poisoned: sampler event POISON_SET, SCR_POISON_LAST and its time, and the count (R305). -/
def State.poisonSet (s : State) (l : Nat) (sectors : BitVec 4) (cause : Nat) : State :=
  let v := l / 512 % 2 ^ 25 + (l % 512) * 2 ^ 25 + sectors.toNat * 2 ^ 34 + cause * 2 ^ 38 + 2 ^ 40
  (((s.raise 0x0001 s.self cause).wr Reg.scrPoisonLast (BitVec.ofNat 64 v)).wr Reg.scrPoisonTime
    (BitVec.ofNat 64 (s.tick32 Island.dram))).count (Reg.scrCount 3) 1

/-- Installs a line with every sector poisoned with a cause, as a dirty line of zero data (R303). -/
def State.poisonLine (s : State) (ln cause : Nat) : State :=
  let old := match s.resident ln with | some l => if l.poison = 0 then 0 else l.cause | none => 0
  let s1 := s.install ln 0 15 15 (max old cause)
  let s2 := { s1 with mem := { s1.mem with tier := s1.mem.tier.drop ln } }
  s2.poisonSet ((s2.localLine ln).getD 0) 15 cause

/-- Byte `i` of a line. -/
def lineByte (d : LineBits) (i : Nat) : Byte := d.extractLsb' (8 * i) 8

/-- A line with bytes stored from byte `i`. -/
def storeBytes : LineBits → Nat → List Byte → LineBits
  | d, _, [] => d
  | d, i, b :: t =>
    let m : LineBits := (255 : LineBits) <<< (8 * i)
    storeBytes ((d &&& ~~~m) ||| ((b.zeroExtend 2048) <<< (8 * i))) (i + 1) t

/-- The sectors of a line that bytes `lo` to `hi - 1` touch, and those they cover whole. -/
def touchedSectors (lo hi : Nat) : BitVec 4 :=
  BitVec.ofNat 4 ((List.range 4).foldl (fun a i => if lo < 64 * (i + 1) ∧ 64 * i < hi then a + 2 ^ i else a) 0)
/-- Sectors covered whole. -/
def wholeSectors (lo hi : Nat) : BitVec 4 :=
  BitVec.ofNat 4 ((List.range 4).foldl (fun a i => if lo ≤ 64 * i ∧ 64 * (i + 1) ≤ hi then a + 2 ^ i else a) 0)

/-- The bytes `lo` to `hi - 1` (within the line) that a range of addresses covers in a line. -/
def coverOf (ln addr len : Nat) : Nat × Nat :=
  let base := lineNo ln * 256
  let a := addr % 2 ^ 56
  (a - base, min 256 (a + len - base))

/-- Would a write of bytes `lo` to `hi - 1` of a resident line meet poison it does not clear (R112)? -/
def LlcLine.poisonBlocks (l : LlcLine) (lo hi : Nat) : Bool :=
  l.poison != 0 &&
    (if 2 ≤ l.cause then !(lo == 0 && hi == 256) else (l.poison &&& touchedSectors lo hi &&& ~~~(wholeSectors lo hi)) != 0)

/-- The home writes bytes into a line (R343): every agent copy is invalidated, the sectors become VALID and DIRTY, whole
sectors lose their poison, and a dirty DRAM-tier copy hands its dirt to the LLC. A line not resident is allocated without its
old contents (R14). -/
def State.homeWrite (s : State) (ln lo : Nat) (bytes : List Byte) : State :=
  let hi := lo + bytes.length
  let s1 := match s.resident ln with
    | some l => if l.dir.isEmpty then s else (s.dropAgents ln l.dir).count (Reg.cohCount 0) l.dir.length
    | none => s
  let s2 := match s1.mem.llc.find ln with
    | some _ => s1
    | none => match s1.mem.evb.find ln with
      | some l => s1.install ln l.data l.dirty l.poison l.cause
      | none => s1.install ln 0 0 0 0
  match s2.resident ln with
  | none => s2
  | some l =>
    let t := (s2.mem.tier.find ln).map (·.dirty) |>.getD 0
    let p := if lo = 0 ∧ hi = 256 then 0 else l.poison &&& ~~~(wholeSectors lo hi)
    let l' := { l with data := storeBytes l.data lo bytes, valid := 15, dirty := l.dirty ||| touchedSectors lo hi ||| t,
                       poison := p, cause := if p = 0 then 0 else l.cause, unpaid := false, dir := [] }
    let s3 := s2.putLine ln l'
    ({ s3 with mem := { s3.mem with tier := s3.mem.tier.modify ln (fun x => { x with dirty := 0 }) } } : State).touchWay (homeSlot ln) l.way

/-- A write reaches a line of a panel: its 1 MiB chunk is marked in the panel's resync map (R284), and the line, where its chunk is
the one that a resync copies here, among those whose RESYNC image is discarded (R290). -/
def State.noteWrite (s : State) (ln : Nat) : State :=
  let hp := lineNo ln / 2 ^ 22
  let i := lineNo ln % 2 ^ 22
  let add (l : List Nat) (x : Nat) : List Nat := if l.contains x then l else l ++ [x]
  { s with lace := { s.lace with
      maps := s.lace.maps.modify hp (fun l => add l (i / 4096))
      marks := s.lace.marks.modify hp (fun l => if l.head? = some (2 ^ 22 + i / 4096) then add l i else l) } }

/-- Writes a byte string at an address, line by line. -/
def State.writeRange (s0 : State) (addr : Nat) (bytes : List Byte) : State :=
  let s := (linesOf addr bytes.length).foldl (fun t ln => t.noteWrite ln) s0
  (linesOf addr bytes.length).foldl (fun t ln =>
    let c := coverOf ln addr bytes.length
    t.homeWrite ln c.1 (slice bytes (lineNo ln * 256 + c.1 - addr % 2 ^ 56) (c.2 - c.1))) s

/-- Bytes `lo` to `hi - 1` of a resident line; a poisoned sector gives bytes of no defined value (R99; log entry 2). -/
def State.lineBytes (s : State) (ln lo hi : Nat) : List Byte :=
  match s.resident ln with
  | none => []
  | some l => (List.range (hi - lo)).map (fun j =>
      if l.poison.getLsbD ((lo + j) / 64) then Config.freeByte s.free (ln * 256 + lo + j) else lineByte l.data (lo + j))

/-- The bytes of a range whose lines are resident. -/
def State.readRange (s : State) (addr len : Nat) : List Byte :=
  (linesOf addr len).flatMap (fun ln => let c := coverOf ln addr len; s.lineBytes ln c.1 c.2)

/-- The poison bits of the sectors a range touches, lowest first (R99). -/
def State.rangePoison (s : State) (addr len : Nat) : List Bool :=
  (linesOf addr len).flatMap (fun ln =>
    let c := coverOf ln addr len
    let p := match s.resident ln with | some l => l.poison | none => 0
    ((List.range 4).filter (fun i => (touchedSectors c.1 c.2).getLsbD i)).map (fun i => p.getLsbD i))

/-- The poison mask of a response (R99): bit i mod 8 of byte ⌊i / 8⌋. -/
def poisonMask (l : List Bool) : List Byte :=
  (List.range (ceilDiv l.length 8)).map (fun k =>
    BitVec.ofNat 8 ((List.range 8).foldl (fun a i => if l.getD (8 * k + i) false then a + 2 ^ i else a) 0))

end Sys2Proof.Machine
end

