-- ==== Sys2Proof/Machine/Alarm.lean ====
section
/-!
DEFINITION. Security alarms, their NOTICE ALARM and count windows, and lockdown (R428, R429); the state of key slots (R396, R397).
-/
namespace Sys2Proof.Machine

/-- The state with a key slot changed. -/
def State.putKey (s : State) (id : Nat) (k : KeySlot) : State :=
  { s with mem := { s.mem with keys := s.mem.keys.set id k KeySlot.empty } }

/-- May a stitch use a key ID: not 255, not LOCKED, and for a tenant key loaded, both versions while it is in REKEY (R397)? -/
def State.keyUsable (s : State) (id : Nat) : Bool :=
  let k := s.keySlot id
  id != 255 && !k.locked &&
    (id == 0 || k.st == .loaded || (k.st == .rekey && k.key0.isSome && k.key1.isSome))

/-- Bit of SEC_ALARM of an alarm code (Table 13-12). -/
def alarmBit (code : Nat) : Nat :=
  match code with
  | 0x6001 => 0 | 0x6002 => 1 | 0x6003 => 2 | 0xA001 => 3 | _ => 4

/-- LOCK_WINDOW, ns. -/
def State.lockWindow (s : State) : Nat := sec (s.fld Reg.secCfg 23 8)

/-- One more alarm of a code and key ID in its count window (R428): COUNT and the state. -/
def State.alarmCount (s : State) (code keyId : Nat) : Nat × State :=
  let key := code * 256 + keyId
  let w := s.mem.alarms.get key { windowEnd := 0, count := 0 }
  let w' : AlarmWin := if w.windowEnd ≤ s.now then { windowEnd := s.now + s.lockWindow, count := 1 }
    else { w with count := w.count + 1 }
  (w'.count, { s with mem := { s.mem with alarms := s.mem.alarms.put key w' } })

/-- The NOTICE ALARM of an alarm on one connection (Table 03-12), and the gap it opens. -/
def State.alarmNotice (s : State) (dev conn code keyId addr range : Nat) : State :=
  let count := (s.mem.alarms.get (code * 256 + keyId) { windowEnd := 0, count := 0 }).count
  let body := beBytes 2 code ++ [BitVec.ofNat 8 keyId, 0] ++ beBytes 4 count ++ beBytes 8 addr ++ beBytes 8 range ++ zeros 8
  let g : NoticeGap := { conn := conn, code := code, keyId := keyId, due := s.now + ms (s.fld Reg.secCfg 39 32), latest := none }
  let s1 := (s.noticeFor dev conn 2 body).count (Reg.secCount 11) 1
  { s1 with mem := { s1.mem with gaps := s1.mem.gaps.filter (fun x => !(x.conn == conn && x.code == code && x.keyId == keyId)) ++ [g] } }

/-- An alarm reaches one ADMIN connection: at once, or held as the latest of an open NOTICE_GAP (R428). -/
def State.alarmTo (s : State) (dev conn code keyId addr range : Nat) : State :=
  if s.mem.gaps.any (fun g => g.conn == conn && g.code == code && g.keyId == keyId) then
    { s with mem := { s.mem with gaps := s.mem.gaps.map (fun g =>
                        if g.conn == conn && g.code == code && g.keyId == keyId then { g with latest := some (dev, addr, range) } else g) } }
  else s.alarmNotice dev conn code keyId addr range

/-- An alarm without its lockdown consequence (R428). -/
def State.alarmBare (s : State) (code src keyId val addr range : Nat) : State :=
  let s1 := (s.setFlag Reg.secAlarm (alarmBit code)).raise code src val
  let s2 := (s1.alarmCount code keyId).2
  let s3 := s2.host.conns.foldl (fun t e => if e.2.cls == 3 && e.2.st == .opened then t.alarmTo s.self e.1 code keyId addr range else t) s2
  s3.report (.alarm s.self code keyId addr range)

/-- A key ID becomes LOCKED, with alarm KEY_LOCKDOWN; on a hoop the member reports it and the manager applies it to every member (R429). -/
def State.lockKey (s : State) (keyId addr : Nat) : State :=
  let s1 := (s.putKey keyId { s.keySlot keyId with locked := true }).alarmBare 0xA001 keyId keyId 0 addr 0
  if s1.isManager then s1.sendAll (.lock keyId true) else s1.report (.lock keyId true)

/-- An attack alarm counts toward the lockdown of its key ID (R429). -/
def State.attack (s : State) (keyId addr : Nat) : State :=
  let k := s.keySlot keyId
  let k1 := if k.windowEnd ≤ s.now then { k with windowEnd := s.now + s.lockWindow, alarms := 1 } else { k with alarms := k.alarms + 1 }
  let lim := s.fld Reg.secCfg 7 0
  if lim ≠ 0 && decide (lim ≤ k1.alarms) && !k1.locked then
    (s.putKey keyId k1).lockKey keyId addr
  else s.putKey keyId k1

/-- A security alarm (R428, R429). -/
def State.alarm (s : State) (code keyId val addr range : Nat) : State :=
  let s1 := s.alarmBare code (if code = 0xA004 then s.self else keyId) keyId val addr range
  if code = 0x6001 || code = 0x6002 then s1.attack keyId addr else s1

/-- The tag of a line failed after every recheck (R417): counted, alarm LINE_INTEGRITY. -/
def State.tagFail (s : State) (ln : Nat) : State :=
  (s.count (Reg.secCount 0) 1).alarm 0x6001 (lineKeyId ln) 0 (lineKeyId ln * 2 ^ 56 + lineNo ln * 256) 256

/-- NOTICE_GAP_END (R428): one NOTICE ALARM carries the latest alarm that fell inside the gap, and a new gap opens. -/
def execNoticeGapEnd (conn code keyId : Nat) (s : State) : Result :=
  within (conn < 0xFFFF) <|
    match s.mem.gaps.find? (fun g => g.conn == conn && g.code == code && g.keyId == keyId) with
    | none => s
    | some g =>
      if s.due g.due then
        let s1 := { s with mem := { s.mem with gaps := s.mem.gaps.filter (fun x =>
                                       !(x.conn == conn && x.code == code && x.keyId == keyId)) } }
        match g.latest with
        | none => s1
        | some (d, a, r) => s1.alarmNotice d conn code keyId a r
      else s

end Sys2Proof.Machine
end

