-- ==== Sys2Proof/Machine/Cells.lean ====
section
/-!
DEFINITION. The cells of the medium (05): levels and reference codes (R131, R132), the local code of a fragment (R136), the layout of a
slot (R137, R145), ladders (R146), and how a slot is sensed (R158, R159); the areas of a die (R129).
-/
namespace Sys2Proof.Machine

/-! ### Levels (R131, R132) -/

/-- The bits b2 b1 b0 of a level in 3-bit mode (Table 05-3): adjacent levels differ in one bit. -/
def levelBits (k : Nat) : Nat := Nat.xor k (k / 2)

/-- The level that codes three bits (Table 05-3). -/
def bitsLevel (b : Nat) : Nat := ((List.range 8).find? (fun k => levelBits k == b)).getD 0

/-- The fresh centre of a level, a reference code on the 8-bit linear scale of read current (Table 05-3). -/
def freshCode (k : Nat) : Nat := 16 + 32 * k

/-- The level of two bits in epoch mode: L0, L2, L5 and L7 for 0b00, 0b01, 0b11 and 0b10. -/
def epochLevel (b : Nat) : Nat := match b with | 0 => 0 | 1 => 2 | 3 => 5 | _ => 7

/-- The two bits of the band, lowest first, in which an epoch cell reads. -/
def epochBits (n : Nat) : Nat := match n with | 0 => 0 | 1 => 1 | 2 => 3 | _ => 2

/-- The level of a bit in 1-bit mode. -/
def oneBitLevel (b : Bool) : Nat := if b then 7 else 0

/-- The bit a cell in 1-bit mode reads: one fixed threshold at code 128. -/
def oneBitRead (code : Nat) : Bool := decide (128 ≤ code)

/-- The code at which a cell programmed to a level reads when it has moved by `drift`, on the scale of 0 to 255. -/
def codeOf (level : Nat) (drift : Int) : Nat := (max 0 (min 255 ((freshCode level : Int) + drift))).toNat

/-! ### Ladders (R146, R147) -/

/-- Threshold Tk of a 56-bit ladder word (Table 05-22). -/
def ladderT (w : BitVec 56) (k : Nat) : Nat := w.toNat / 2 ^ (8 * k) % 256

/-- The level a cell reads: k when its code lies at or above T(k−1) and below Tk (R146). -/
def readLevel (w : BitVec 56) (code : Nat) : Nat := ((List.range 7).filter (fun k => decide (ladderT w k ≤ code))).length

/-- The two bits an epoch cell reads with the three thresholds of an epoch ladder. -/
def readEpochBits (w : BitVec 24) (code : Nat) : Nat :=
  epochBits ((List.range 3).filter (fun k => decide (w.toNat / 2 ^ (8 * k) % 256 ≤ code))).length

/-- The ladder set of a band of a die, as trimmed at manufacture and loaded from the table area (R146, R148). -/
def trimSet (d band : Nat) : LadderSet :=
  { band := band, ladders := (List.range 16).map (Config.ladder d band), epoch := Config.epochLadder d band }

/-! ### The local code (R136; log entry 164) -/

/-- Product in GF(2^9) with the primitive polynomial x^9 + x^4 + 1. -/
def gfMul (a b : Nat) : Nat :=
  (List.range 9).foldl (fun r i =>
    let d := if 512 ≤ 2 * r then Nat.xor (2 * r) 0x211 else 2 * r
    if b.testBit (8 - i) then Nat.xor d a else d) 0

/-- `a` to the power `n`. -/
def gfPow (a : Nat) : Nat → Nat
  | 0 => 1
  | n + 1 => gfMul (gfPow a n) a

/-- The inverse of a nonzero element: its power 510. -/
def gfInv (a : Nat) : Nat :=
  (List.range 8).foldl (fun r _ => gfMul (gfMul r r) (gfMul a a)) (gfMul a a)

/-- Product of binary polynomials, `b` of degree below 64. -/
def polyMul (a b : Nat) : Nat := (List.range 64).foldl (fun r i => if b.testBit i then Nat.xor r (a * 2 ^ i) else r) 0

/-- The generator: the product of the minimal polynomials of α, α^3, α^5 and α^7. -/
def bchGenerator : Nat := polyMul (polyMul (polyMul 0x211 0x259) 0x331) 0x299

/-- The 36 check bits of a fragment: the remainder of its polynomial times x^36. -/
def bchCheck (frag : BitVec 272) : BitVec 36 :=
  BitVec.ofNat 36 ((List.range 272).foldl (fun r i =>
    let out := r.testBit 35 != frag.getLsbD (271 - i)
    let d := 2 * r % 2 ^ 36
    if out then Nat.xor d (bchGenerator % 2 ^ 36) else d) 0)

/-- The code word of a fragment as a polynomial: its bits above its check bits. -/
def bchWord (frag : BitVec 272) (check : BitVec 36) : Nat := frag.toNat * 2 ^ 36 + check.toNat

/-- The value of a binary polynomial of 308 bits at a field element. -/
def bchEval (w x : Nat) : Nat := (List.range 308).foldl (fun r i => Nat.xor (gfMul r x) (if w.testBit (307 - i) then 1 else 0)) 0

/-- The eight syndromes of a word, at α to α^8. -/
def syndromes (w : Nat) : List Nat :=
  let s1 := bchEval w 2
  let s3 := bchEval w 8
  let s5 := bchEval w 32
  let s7 := bchEval w 128
  let s2 := gfMul s1 s1
  let s4 := gfMul s2 s2
  [s1, s2, s3, s4, s5, gfMul s3 s3, s7, gfMul s4 s4]

/-- Sum of two polynomials over the field, lowest coefficient first, the second shifted by `m` and scaled by `c`. -/
def gfAdd (a b : List Nat) (m c : Nat) : List Nat :=
  (List.range (max a.length (b.length + m))).map (fun i =>
    Nat.xor (a.getD i 0) (if m ≤ i then gfMul c (b.getD (i - m) 0) else 0))

/-- The state of the Berlekamp–Massey search for the error locator. -/
structure Locator where
  c : List Nat
  b : List Nat
  l : Nat
  m : Nat
  d : Nat

/-- One step of the search. -/
def Locator.step (s : List Nat) (x : Locator) (n : Nat) : Locator :=
  let d := (List.range (x.l + 1)).foldl (fun r i => Nat.xor r (gfMul (x.c.getD i 0) (s.getD (n - i) 0))) 0
  if d = 0 then { x with m := x.m + 1 }
  else
    let c := gfAdd x.c x.b x.m (gfMul d (gfInv x.d))
    if 2 * x.l ≤ n then { c := c, b := x.c, l := n + 1 - x.l, m := 1, d := d } else { x with c := c, m := x.m + 1 }

/-- The bits in error of a word, `none` where no word of the code lies within four errors. -/
def bchErrors (w : Nat) : Option (List Nat) :=
  let s := syndromes w
  if s.all (· == 0) then some []
  else
    let x := (List.range 8).foldl (Locator.step s) { c := [1], b := [1], l := 0, m := 1, d := 1 }
    let inv := gfInv 2
    let r := (List.range 308).foldl (fun (a : List Nat × Nat) i =>
      let v := x.c.foldr (fun k t => Nat.xor k (gfMul t a.2)) 0
      (if v = 0 then a.1 ++ [i] else a.1, gfMul a.2 inv)) ([], 1)
    if x.l ≤ 4 && r.1.length = x.l then some r.1 else none

/-- The decode of a word: up to four errors are corrected (R136). -/
def bchDecode (w : Nat) : FragOutcome :=
  match bchErrors w with
  | some l => .decoded l.length (BitVec.ofNat 272 ((l.foldl (fun a i => Nat.xor a (2 ^ i)) w) / 2 ^ 36))
  | none => .failed

/-! ### A slot of the stripe area (R137) -/

/-- The slot bit stream: fragment, check bits, pad. -/
def slotStream (frag : BitVec 272) : Nat := frag.toNat + (bchCheck frag).toNat * 2 ^ 272

/-- P of a label (Table 05-6). -/
def labelParity (e : Nat) : Nat :=
  Nat.xor (Nat.xor (e % 4) (e / 4 % 4)) (e / 16 % 4)

/-- The level to which each of a slot's 107 cells is programmed. -/
def slotLevels (frag : BitVec 272) (label : Nat) : List Nat :=
  let w := slotStream frag
  (List.range 103).map (fun c => bitsLevel (w / 2 ^ (3 * c) % 8)) ++
    [epochLevel (label % 4), epochLevel (label / 4 % 4), epochLevel (label / 16 % 4), epochLevel (labelParity label)]

/-- The codes at which a slot's cells read, each moved from its fresh centre by its drift. -/
def slotCodes (frag : BitVec 272) (label : Nat) (drift : List Int) : List Nat :=
  (List.range 107).map (fun c => codeOf ((slotLevels frag label).getD c 0) (drift.getD c 0))

/-- The label that the epoch cells read, and whether it passes the check of R137. -/
def readLabel (w : BitVec 24) (codes : List Nat) : Nat × Bool :=
  let b (i : Nat) : Nat := readEpochBits w (codes.getD (103 + i) 0)
  let e := b 0 + 4 * b 1 + 16 * b 2
  (e, b 3 == labelParity e)

/-- The decode of the data cells read with a ladder. -/
def readSlot (w : BitVec 56) (codes : List Nat) : FragOutcome :=
  let s := (List.range 103).foldl (fun a c => a + levelBits (readLevel w (codes.getD c 0)) * 2 ^ (3 * c)) 0
  bchDecode (bchWord (BitVec.ofNat 272 s) (BitVec.ofNat 36 (s / 2 ^ 272)))

/-- The ladder index of a sense (Table 05-9). -/
def senseIndex (n attempt : Nat) : Nat :=
  match attempt with
  | 0 => n
  | 1 => if n = 15 then n - 1 else n + 1
  | _ => if n = 0 then n + 2 else if n = 15 then n - 2 else n - 1

/-! ### Slots in 1-bit mode (R132, R145) -/

/-- The 320 levels of a 1-bit slot: fragment, check bits, and the 12-bit generation number of the area's owner. -/
def areaLevels (frag : BitVec 272) (gen : Nat) : List Nat :=
  let w := slotStream frag + gen % 2 ^ 12 * 2 ^ 308
  (List.range 320).map (fun c => oneBitLevel (w.testBit c))

/-- What the codes of a 1-bit slot read: the decode of its fragment, and its generation number. -/
def readArea (codes : List Nat) : FragOutcome × Nat :=
  let w := (List.range 320).foldl (fun a c => if oneBitRead (codes.getD c 0) then a + 2 ^ c else a) 0
  (bchDecode (bchWord (BitVec.ofNat 272 w) (BitVec.ofNat 36 (w / 2 ^ 272))), w / 2 ^ 308)

/-! ### The areas of a die (R128, R129) -/

/-- Lines that the save area holds across the device. -/
def saveAreaLines : Nat := 80 * 2 ^ 20
/-- Lines that the table area holds. -/
def tableAreaLines : Nat := 64 * 2 ^ 20
/-- Does a die hold a boot copy? -/
def bootDie (d : Nat) : Bool := d == 0 || d == 32 || d == 64

end Sys2Proof.Machine
end

