-- ==== Sys2Proof/Machine/Ports.lean ====
section
/-!
DEFINITION. The ports and the scheduling of the DRAM controller (R360, R362, R366, R368 to R371, R374): requests, regulators, arbitration and the
write queues. The data of an access moves with the operation that asks for it (log entry 29); a read of a tier line waits until it is served.
-/
namespace Sys2Proof.Machine

namespace Reg
abbrev drcPortCfg (port : Nat) : Nat := 0x070040 + 8 * port
abbrev drcRegWait (port : Nat) : Nat := 0x070240 + 8 * port
end Reg

/-! ### Addresses (Tables 11-1, 11-2) -/

/-- Address of DRAM-tier slot `i` (Table 11-2). -/
def State.slotAddr (s : State) (i : Nat) : Nat := (if s.flag Reg.drcStatus 3 then 0x4C4000000 else 0x258000000) + 256 * i

/-- The lockstep group of a DRAM address: D[0] (Table 11-1). -/
def dramGroup (a : Nat) : Nat := a / 256 % 2

/-- The line index within the group, L = D[27:1], D being A[35:8] (R360). -/
def dramLine (a : Nat) : Nat := a / 512 % 2 ^ 27

/-- Column, bank, row and PASR segment of a DRAM address, with `wide` for 64 GiB (Table 11-1). -/
def dramPlace (wide : Bool) (a : Nat) : Nat × Nat × Nat × Nat :=
  let l := dramLine a
  let rows := if wide then 18 else 17
  (l % 32, Nat.xor (l / 2 ^ 5 % 16) (l / 2 ^ 9 % 16), l / 2 ^ 9 % 2 ^ rows, l / 2 ^ 9 % 2 ^ rows / 2 ^ (rows - 3))

/-! ### Regulators (R368) -/

/-- Has a port a token: it is not regulated, or its bucket holds the 256 bytes of an access? -/
def State.portToken (s : State) (p : Nat) : Bool :=
  !s.flag (Reg.drcPortCfg p) 0 || decide (s.mem.dram.spent.get p 0 + 256 ≤ 1024 * s.fld (Reg.drcPortCfg p) 31 16)

/-- An access takes its 256 bytes from the bucket of a regulated port. -/
def State.payPort (s : State) (p : Nat) : State :=
  if s.flag (Reg.drcPortCfg p) 0 then { s with mem := { s.mem with dram := { s.mem.dram with spent := s.mem.dram.spent.set p (s.mem.dram.spent.get p 0 + 256) 0 } } }
  else s

/-- A microsecond of a port's regulator: the µs is counted where it holds a request, and the bucket gains RATE, up to BURST. -/
def State.regulate (s : State) (p : Nat) : State :=
  let held := s.mem.dram.reqs.any (fun r => r.port == p) && !s.portToken p
  let gain := 100 * s.fld (Reg.drcPortCfg p) 15 4
  let left := min (s.mem.dram.spent.get p 0) (1024 * s.fld (Reg.drcPortCfg p) 31 16)
  let s1 : State := { s with mem := { s.mem with dram := { s.mem.dram with spent := s.mem.dram.spent.set p (left - gain) 0 } } }
  if held then s1.count (Reg.drcRegWait p) 1 else s1

/-! ### Arbitration (R369 to R371) -/

/-- The order in which ports are served (R369). -/
def portOrder : List Nat := [7, 0, 3, 2, 4, 1, 5, 6]

/-- The writes in the queue of a group, oldest first. -/
def State.writeQueue (s : State) (g : Nat) : List Nat := s.mem.dram.wq.get g []

/-- Does a group serve: it is neither in a retraining pause nor stopped for a channel probe (R319, R366)? -/
def State.groupServes (s : State) (g : Nat) : Bool := !s.flag Reg.drcStatus (14 + g) && !s.mem.probing.has g

/-- May a request be served now: its port has a token, the save has not stopped it (R374), and its group serves a read, or its write queue has
an entry free (R370)? -/
def State.servable (s : State) (r : DramReq) : Bool :=
  s.portToken r.port && (s.power != .save || r.port == 7) &&
    (if r.write then decide ((s.writeQueue (dramGroup r.addr)).length < 64) else s.groupServes (dramGroup r.addr))

/-- The request that is served next of some: one that has waited 2 µs, else by the order of the ports; in each the oldest (R369). -/
def State.firstOf (s : State) (l : List DramReq) : Option DramReq :=
  (l.find? (fun r => decide (r.since + us 2 ≤ s.now))).orElse fun _ => portOrder.findSome? (fun p => l.find? (fun r => r.port == p))

/-- A request is served: a write enters its group's queue, and the drain begins at WQ_HI; a read is issued, or served from the queue where its
burst is there (R370, R371). -/
def State.serveReq (s : State) (r : DramReq) : State :=
  let g := dramGroup r.addr
  let s1 := (({ s with mem := { s.mem with dram := { s.mem.dram with reqs := s.mem.dram.reqs.erase r } } } : State).payPort r.port).count (Reg.drcBytes r.port) 1
  if r.write then
    let q := s1.writeQueue g ++ [r.addr]
    let s2 : State := { s1 with mem := { s1.mem with dram := { s1.mem.dram with wq := s1.mem.dram.wq.put g q } } }
    if s2.fld Reg.drcCfg 5 0 ≤ q.length && !s2.mem.dram.drain.has g then
      ({ s2 with mem := { s2.mem with dram := { s2.mem.dram with drain := s2.mem.dram.drain.put g (s2.fld Reg.drcCfg 19 16) } } } : State).count
        (Reg.drcCount 16) 1
    else s2
  else
    let fwd := (s1.writeQueue g).contains r.addr
    let mark (d : DramRead) : DramRead := if some d.line = r.line then { d with issued := true, fwd := fwd } else d
    let s2 : State := { s1 with mem := { s1.mem with dramReads := s1.mem.dramReads.map mark } }
    if fwd then s2.count (Reg.drcCount 18) 1 else s2

/-- A write leaves the queue of a group that drains; at WQ_LO the drain ends (R370). -/
def State.drainOne (s : State) (g left : Nat) : State :=
  let q := (s.writeQueue g).drop 1
  let drain := if q.length ≤ s.fld Reg.drcCfg 13 8 then s.mem.dram.drain.drop g else s.mem.dram.drain.put g (left - 1)
  { s with mem := { s.mem with dram := { s.mem.dram with wq := s.mem.dram.wq.set g q [], drain := drain } } }

/-- One choice of the scheduler (R370): a write of a drain's slice, then the reads that wait, then the drain's next slice, then a write. -/
def State.dramStep (s : State) : Option State :=
  match s.mem.dram.drain.find? (fun e => e.2 != 0 && s.groupServes e.1) with
  | some e => some (s.drainOne e.1 e.2)
  | none => match s.firstOf (s.mem.dram.reqs.filter (fun r => !r.write && s.servable r)) with
    | some r => some (s.serveReq r)
    | none => match s.mem.dram.drain.find? (fun e => s.groupServes e.1) with
      | some e => some { s with mem := { s.mem with dram := { s.mem.dram with drain := s.mem.dram.drain.put e.1 (s.fld Reg.drcCfg 19 16) } } }
      | none => (s.firstOf (s.mem.dram.reqs.filter (fun r => r.write && s.servable r))).map s.serveReq

/-- The scheduler runs until it has nothing more to do. -/
def State.arbitrate (s : State) : Nat → State
  | 0 => s
  | n + 1 => match s.dramStep with | some t => State.arbitrate t n | none => s

/-- Choices enough to serve all that waits. -/
def State.dramWork (s : State) : Nat :=
  4 * (s.mem.dram.reqs.length + (s.mem.dram.wq.map (fun e => e.2.length)).foldl (· + ·) 0 + 4)

/-- The scheduler runs. -/
def State.serveDram (s : State) : State := s.arbitrate s.dramWork

/-- A port asks for an access of a burst, a read of a tier line for `line`; a write that finds its queue full waits, and is counted (R370). -/
def State.dramAccess (s : State) (port : Nat) (write : Bool) (addr : Nat) (line : Option Nat := none) : State :=
  let r : DramReq := { port := port, write := write, addr := addr, line := line, since := s.now }
  let s1 : State := { s with mem := { s.mem with dram := { s.mem.dram with reqs := s.mem.dram.reqs ++ [r] } } }
  let s2 := if write && decide (64 ≤ (s1.writeQueue (dramGroup addr)).length) then s1.count (Reg.drcCount 17) 1 else s1
  s2.serveDram

/-! ### Pauses (R366) -/

/-- A pause of a group begins: its write queue falls to WQ_LO. -/
def State.pauseGroup (s : State) (g : Nat) : State :=
  let lo := s.fld Reg.drcCfg 13 8
  let q := s.writeQueue g
  let s1 : State := { s with mem := { s.mem with dram := { s.mem.dram with wq := s.mem.dram.wq.set g (q.drop (q.length - lo)) [], drain := s.mem.dram.drain.drop g } } }
  (if lo < q.length && !s.mem.dram.drain.has g then s1.count (Reg.drcCount 16) 1 else s1).setFlag Reg.drcStatus (14 + g)

/-- A pause ends: the reads that waited go before any write (R366). -/
def State.resumeGroup (s : State) (g : Nat) : State :=
  let s1 := s.clrFlag Reg.drcStatus (14 + g)
  if s1.mem.dram.drain.has g then { s1 with mem := { s1.mem with dram := { s1.mem.dram with drain := s1.mem.dram.drain.put g 0 } } } else s1

/-- A microsecond of the controller: the regulators gain, a pause, of at most 1 µs, ends, and what waits is served. -/
def State.dramTick (s : State) : State :=
  if s.mem.dram.reqs.isEmpty && s.mem.dram.spent.isEmpty && s.fld Reg.drcStatus 15 14 == 0 then s
  else ((((List.range 8).foldl (fun t p => t.regulate p) s).resumeGroup 0).resumeGroup 1).serveDram

end Sys2Proof.Machine
end

