-- ==== Sys2Proof/Machine/Fill.lean ====
section
/-!
DEFINITION. Bringing lines into the LLC (R14, R158, R161, R172, R178, R208, R315), and the loss of a tree node (R416): where a read of a line goes, and what the end
of a fill does to the operations that wait for it.
-/
namespace Sys2Proof.Machine

/-- A medium die; ONLINE where the table lists none. -/
def State.die (s : State) (d : Nat) : Die :=
  s.mem.dies.get d { st := .online, cause := 0, erasures := [], current := [], checking := false, set := trimSet d 0, spare := trimSet d 0 }

/-- Does fragment `f` of a physical line count as an erasure without being read: its die is FAILED, or REJOINING with the
swatch not yet current (R161, R314, R317)? -/
def State.fragErased (s : State) (p f : Nat) : Bool :=
  let d := s.die (fragDie p f)
  match d.st with
  | .online => false
  | .failed => true
  | .rejoining => !d.current.contains (p / 512)

/-- Fragments of a physical line that count as erasures. -/
def State.erasedFrags (s : State) (p : Nat) : List Nat := (List.range 9).filter (fun f => s.fragErased p f)

/-- Is fragment `f` of a stripe in program: not yet verified, and in a retirement no fragment before it either (R151)? -/
def Program.running (g : Program) (f : Nat) : Bool :=
  g.frags[f]? == some none && !(g.serial && (g.frags.take f).any (·.isNone))

/-- Does a sense of fragment `f` of physical line `p` reach a bank that is programming (R142)? -/
def State.suspends (s : State) (p f : Nat) : Bool :=
  !s.fragErased p f && s.mem.programs.any (fun e => lineBank e.1 == lineBank p &&
    (List.range 9).any (fun g => fragDie e.1 g == fragDie p f && e.2.running g))

/-- Nine fragment reads of a physical line are issued (R138, R158), each under the ladder set and AGE entries in force (R148, R155); those of a
FAILED die are erasures at once (R161). -/
def State.issueSense (s : State) (ln p : Nat) (r : Reader) : State :=
  match s.mem.senses.find p with
  | some e =>
    { s with mem := { s.mem with senses := s.mem.senses.put p { e with readers := if e.readers.contains r then e.readers else e.readers ++ [r] } } }
  | none =>
    let frag (f : Nat) : FragState := {
      attempts := 0, rowOpen := some (s.now + us 1), set := (s.die (fragDie p f)).set
      ages := s.mem.ages.filter (fun e => e.1 / 64 == fragDie p f), index := 0, ended := if s.fragErased p f then some .failed else none }
    let old := s.stripe p ln ((s.localLine ln).getD 0)
    let s1 := { s with mem := { s.mem with
                          senses := s.mem.senses.put p { line := ln, stripe := old, readers := [r], frags := (List.range 9).map frag } } }
    let s2 := (List.range 9).foldl (fun t f => if s.fragErased p f then t else t.count (Reg.stkCount (fragStack p f) 0) 1) s1
    (List.range 9).foldl (fun t f => if s.suspends p f then t.count (Reg.stkCount (fragStack p f) 10) 1 else t) s2

/-- A lost L0 node is rebuilt (R416): MAJOR far above every ordinary one, its 64 lines poisoned with cause TREE, alarm TREE_DAMAGE. -/
def State.rebuildNode (s : State) (ln l lv : Nat) : State :=
  let n := l / 64
  let first := n * 64
  let r := s.kept.rebuilds + 1
  let node : TreeNode := { major := r * 2 ^ 40, ver := (s.keySlot (lineKeyId ln)).active, minors := [] }
  let s1 : State := { s with
    kept := { s.kept with rebuilds := r }
    mem := { s.mem with
      nodes := s.mem.nodes.put n node
      lost := s.mem.lost.filter (· != n)
      dirtyNodes := if s.mem.dirtyNodes.contains n then s.mem.dirtyNodes else n :: s.mem.dirtyNodes } }
  let s2 := (List.range 64).foldl (fun t i => match t.lineOf (first + i) with
    | some x => t.poisonLine x 3
    | none => t) s1
  let s3 := (s2.count (Reg.secCount 2) 1).wr Reg.secTreeLast (BitVec.ofNat 64 (n % 2 ^ 28 + lv * 2 ^ 28 + 2 ^ 31 + s.tick32 (Island.llc 0) * 2 ^ 32))
  s3.alarm 0x6003 (lineKeyId ln) 1 (lineKeyId ln * 2 ^ 56 + (lineNo ln - l % 64) * 256) 16384

/-- A node of level `lv` does not verify (R415): it and every L0 node below it are lost, with alarm NODE_INTEGRITY. -/
def State.nodeFails (s : State) (ln n lv : Nat) : State :=
  let k := 64 ^ lv
  let below := (List.range k).map (fun i => n / k * k + i)
  let gone (e : Nat × BitVec 64) : Bool := e.1 == nodeKey lv (n / k) || (decide (e.1 < 2 ^ 32) && e.1 / k == n / k)
  let s1 : State := { s with mem := { s.mem with
    lost := s.mem.lost ++ below.filter (fun i => !s.mem.lost.contains i), tags := s.mem.tags.filter (fun e => !gone e) } }
  (s1.count (Reg.secCount 1) 1).alarm 0x6002 (lineKeyId ln) lv (lineKeyId ln * 2 ^ 56 + lineNo ln * 256) 256

/-- The loss of a line's node is found, and the node rebuilt (R409, R415, R416). -/
def State.loseNode (s : State) (ln l : Nat) : State :=
  if s.mem.lost.contains (l / 64) then s.rebuildNode ln l 0
  else match s.badLevel (l / 64) with
    | some lv => (s.nodeFails ln (l / 64) lv).rebuildNode ln l lv
    | none => s

/-- Prefetch of a SEQUENTIAL swatch: the lines after a medium read, as clean lines, when no other read waits at the stack ports; prefetches are
no heat (R208, R209). -/
def State.prefetch (s : State) (ln l : Nat) : State :=
  if (s.prk (l / 512)).hint = 3 && s.mem.senses.length ≤ 1 then
    (List.range (min (s.fld Reg.plcCfg 35 32) (511 - l % 512))).foldl (fun t i =>
      let q := ln + 1 + i
      if (t.resident q).isSome || t.mem.tier.has q then t
      else match t.physLine (l + 1 + i) with
        | none => t
        | some p => (t.issueSense q p .stitch).count (Reg.plcCount 11) 1) s
  else s

/-- What starting a fill of a line comes to. -/
inductive FillStart where
  | ready
  | pending
  | fails (st : Status)
  deriving DecidableEq, Repr

/-- Starts bringing a line into the LLC: from the eviction buffer or the LLC itself it is ready; from the DRAM tier; as zero for
an unwritten swatch; from the program buffer; or from the medium (R143, R172, R331). -/
def State.startFill (s : State) (ln : Nat) (r : Reader) : FillStart × State :=
  match s.resident ln with
  | some _ => (.ready, if s.mem.llc.has ln then s.count (Reg.llcCount 0) 1 else s.count (Reg.llcCount 10) 1)
  | none =>
    let s := s.count (Reg.llcCount 1) 1
    match s.localLine ln with
    | none => (.fails .unavailable, s)
    | some l =>
      if s.nodeGone l then (.fails .uncorrectable, s.loseNode ln l)
      else if s.mem.tier.has ln then
        if s.mem.dramReads.any (fun d => d.line == ln) then
          let join (d : DramRead) : DramRead := if d.line = ln then { d with patrol := false } else d
          (.pending, { s with mem := { s.mem with dramReads := s.mem.dramReads.map join } })
        else
          let d : DramRead := { line := ln, bad := false, issued := false, fwd := false }
          let slot := ((s.mem.tier.find ln).map (·.slot)).getD 0
          let s1 := ({ s with mem := { s.mem with dramReads := s.mem.dramReads ++ [d] } } : State).sampleHeat ln false
          (.pending, s1.dramAccess (if r = .maint then 5 else 0) false (s1.slotAddr slot) (some ln))
      else
        match s.physLine l with
        | none => (.ready, s.install ln 0 0 0 0)
        | some p =>
          if s.mem.programs.has p then
            match s.openImg ln l (s.stripe p ln l).img with
            | .good d po c => (.ready, s.install ln d 0 po c)
            | _ => (.fails .integrity, s)
          else if 2 ≤ (s.erasedFrags p).length then (.fails .unavailable, s)
          else (.pending, ((s.issueSense ln p r).sampleHeat ln false).prefetch ln l)

/-! ### Operations that wait for lines -/

/-- The state with operation `id` changed by `f`. -/
def State.modOp (s : State) (id : Nat) (f : Op → Op) : State :=
  { s with host := { s.host with ops := s.host.ops.modify id f } }

/-- An operation is done with a response. -/
def State.finishOp (s : State) (id : Nat) (r : Response) : State := s.modOp id (fun o => { o with phase := .done r })

/-- An operation is done with a status alone. -/
def State.failOp (s : State) (id : Nat) (st : Status) : State := s.modOp id (fun o => { o with phase := .done (o.st.refusal st) })

/-- Is a memory operation under way on this device: waiting for lines, or at the dirty ceiling? -/
def Op.active (o : Op) : Bool :=
  match o.phase with
  | .filling => true
  | .waiting _ => o.gate.isSome
  | _ => false

/-- SOURCE of a matrix, with its key ID (Table 07-14). -/
def Matrix.source (x : Matrix) : Nat := leAt x.request 0 8

/-- Does a line lie in the shadow of a matrix (R217)? -/
def Matrix.shadows (x : Matrix) (ln : Nat) : Bool :=
  let first := lineKey x.source
  decide (first ≤ ln) && decide (ln ≤ first + (leAt x.request 8 4 * 2 ^ leAt x.request 14 1 - 1) / 256)

/-- Does a line lie in the shadow of matrix `id`? -/
def State.shadowOf (s : State) (id ln : Nat) : Bool :=
  match s.filet.matrices.find id with | some x => x.shadows ln | none => false

/-- A shadow line could not be read: the jobs and group programs of its matrix note the status (R239, R251). -/
def State.noteShadow (s : State) (ln : Nat) (st : Status) : State :=
  if s.filet.matrices.any (fun e => e.2.shadows ln) then
    { s with filet := { s.filet with
        jobs := s.filet.jobs.map (fun e => if e.2.st ≤ 1 && s.shadowOf e.2.matrix ln then (e.1, { e.2 with fails := e.2.fails ++ [(ln, st)] }) else e)
        progs := s.filet.progs.map (fun p => if s.shadowOf p.matrix ln then { p with fails := p.fails ++ [(ln, st)] } else p) } }
  else s

/-- A line an operation waits for could not be read: each waiting operation that needs it notes the status (R100). -/
def State.noteFail (s0 : State) (ln : Nat) (st : Status) : State :=
  let s := s0.noteShadow ln st
  let mark (o : Op) : Op := if o.active && o.touches ln then { o with fails := o.fails ++ [(ln, st)] } else o
  { s with host := { s.host with ops := s.host.ops.map (fun e => (e.1, mark e.2)) } }

end Sys2Proof.Machine
end

