-- ==== Sys2Proof/Machine/Stitch.lean ====
section
/-!
DEFINITION. Executing memory stitches on the device that holds their lines (R99 to R106, R112): which lines an operation needs,
what it does once they are there, and the write gate of R189.
-/
namespace Sys2Proof.Machine

/-- The lines of a range that it covers only in part (R14). -/
def partialLines (addr len : Nat) : List Nat :=
  (linesOf addr len).filter (fun ln => let c := coverOf ln addr len; !(c.1 == 0 && c.2 == 256))

/-- The source address of a COPY (R105). -/
def Op.src (o : Op) : Nat := leNat o.st.payload

/-- The lines that must be in the LLC before an operation does anything (R14, R101, R105, R345). -/
def Op.needs (o : Op) : List Nat :=
  match o.st.opcode with
  | 1 => linesOf o.st.addr o.st.length
  | 2 | 6 => partialLines o.st.addr o.st.length
  | 4 => linesOf o.st.addr o.st.length
  | 5 => linesOf o.src o.st.length ++ partialLines o.st.addr o.st.length
  | _ => []

/-- The byte at hoop address `a` of a FILL pattern (R106). -/
def fillByte (pattern : List Byte) (a : Nat) : Byte := pattern.getD (a % 8) 0

/-- The bytes a FILL writes (R106). -/
def fillBytes (pattern : List Byte) (addr len : Nat) : List Byte :=
  (List.range len).map (fun i => fillByte pattern (addr + i))

/-- The signed value of an `n`-byte number. -/
def signedOf (n v : Nat) : Int := if v < 2 ^ (8 * n - 1) then (v : Int) else (v : Int) - (2 : Int) ^ (8 * n)

/-- The new memory value of an ATOMIC of `n` bytes (Table 04-4), for every SUBOP but CMP_SWAP. -/
def atomicValue (subop n old operand : Nat) : Nat :=
  match subop with
  | 0 => (old + operand) % 2 ^ (8 * n)
  | 1 => operand
  | 3 => Nat.land old operand
  | 4 => Nat.lor old operand
  | 5 => Nat.xor old operand
  | 6 => if signedOf n old ≤ signedOf n operand then old else operand
  | 7 => if signedOf n old ≤ signedOf n operand then operand else old
  | 8 => min old operand
  | _ => max old operand

/-- What an ATOMIC stores, `none` when CMP_SWAP finds memory unequal (R103, R104). -/
def atomicStore (subop n old : Nat) (payload : List Byte) : Option Nat :=
  if subop = 2 then (if old = leNat (payload.take 16) then some (leNat (payload.drop 16)) else none)
  else some (atomicValue subop n old (leNat payload))

/-- The lines among these that are not dirty yet and so would add to the dirty total (R189). -/
def State.newlyDirty (s : State) (lines : List Nat) : Nat := (lines.filter (fun ln => !s.dirtyLine ln)).length

/-- An operation waits at the dirty ceiling, for WAIT_MAX from the first moment it waits (R189). -/
def State.gateWait (s : State) (id : Nat) (o : Op) : State :=
  let due := o.gate.getD (s.now + us (s.fld Reg.plcDirtyCfg 31 16))
  s.modOp id (fun o => { o with phase := .waiting due, gate := some due })

/-- A response of an operation with a payload. -/
def Op.answer (o : Op) (st : Status) (result payload : List Byte) : Response :=
  { opcode := o.st.opcode, subop := o.st.subop, length := o.st.length, tag := o.st.tag, status := st, result := result,
    payload := payload }

/-- The status with which a write of a range meets poison (R112), `none` when it meets none. -/
def State.writePoison (s : State) (addr len : Nat) : Option Status :=
  if (linesOf addr len).any (fun ln => match s.resident ln with
      | some l => let c := coverOf ln addr len; l.poisonBlocks c.1 c.2
      | none => false)
  then some .poisoned else none

/-- A write of bytes, once its lines are there: refused for poison, or carried out (R101, R112). -/
def State.doWrite (s : State) (id : Nat) (o : Op) (bytes : List Byte) : State :=
  match s.writePoison o.st.addr o.st.length with
  | some st => s.failOp id st
  | none => (s.writeRange o.st.addr bytes).finishOp id (o.answer .ok [] [])

/-- A READ, once its lines are there (R99). -/
def State.doRead (s : State) (id : Nat) (o : Op) : State :=
  let p := s.rangePoison o.st.addr o.st.length
  let d := s.readRange o.st.addr o.st.length
  if p.any (· == true) then
    ({ s with free := s.free + 1 }).finishOp id (o.answer .okPoison [] (d ++ poisonMask p))
  else s.finishOp id (o.answer .ok [] d)

/-- An ATOMIC, once its line is there (R103, R104, R345). -/
def State.doAtomic (s : State) (id : Nat) (o : Op) : State :=
  let n := o.st.length
  if (s.rangePoison o.st.addr n).any (· == true) then s.failOp id .poisoned
  else
    let old := s.readRange o.st.addr n
    let s1 := s.count (Reg.cohCount 6) 1
    match atomicStore o.st.subop n (leNat old) o.st.payload with
    | some v => (s1.writeRange o.st.addr (leBytes n v)).finishOp id
        (o.answer .ok (if o.st.subop = 2 then [1] else []) old)
    | none => s1.finishOp id (o.answer .ok [0] old)

/-- A COPY, once its lines are there (R105): the whole source is read before any byte is written. -/
def State.doCopy (s : State) (id : Nat) (o : Op) : State :=
  if (s.rangePoison o.src o.st.length).any (· == true) then s.failOp id .poisoned
  else s.doWrite id o (s.readRange o.src o.st.length)

/-- PREPARE (R274): the checks of R101 and R105 are made, and the operation answers with the status it would give. -/
def State.prepareOp (s : State) (id : Nat) (o : Op) : State :=
  let src := o.st.opcode = 5 && (s.rangePoison o.src o.st.length).any (· == true)
  let st := if src then some .poisoned else s.writePoison o.st.addr o.st.length
  s.finishOp id (o.answer (st.getD .ok) [] [])

/-- What a memory operation does once every line it needs is there (R99 to R106). -/
def State.perform (s : State) (id : Nat) (o : Op) : State :=
  if o.mode = .prepare then s.prepareOp id o else
  match o.st.opcode with
  | 1 => s.doRead id o
  | 2 => s.doWrite id o o.st.payload
  | 4 => s.doAtomic id o
  | 5 => s.doCopy id o
  | 6 => s.doWrite id o (fillBytes o.st.payload o.st.addr o.st.length)
  | _ => s

/-- The status of the lowest-addressed line that could not be read (R100); for a COPY, the source's first. -/
def Op.failStatus (o : Op) : Option Status :=
  (o.needs.find? (fun ln => o.fails.any (fun f => f.1 == ln))).bind
    (fun ln => (o.fails.find? (fun f => f.1 == ln)).map (·.2))

/-- Starts the fills an operation needs; a line that cannot be read is noted. -/
def State.startFills (s : State) (id : Nat) (o : Op) : State :=
  o.needs.foldl (fun t ln =>
    if t.filling ln then t
    else match t.startFill ln .stitch with
      | (.ready, t1) => t1
      | (.pending, t1) => t1
      | (.fails st, t1) => t1.modOp id (fun o => { o with fails := o.fails ++ [(ln, st)] })) s

/-- The lines of an operation that writes (R101, R103, R105, R106). -/
def Op.writes (o : Op) : List Nat :=
  if o.st.opcode = 2 || o.st.opcode = 4 || o.st.opcode = 5 || o.st.opcode = 6 then linesOf o.st.addr o.st.length else []

/-- The lines that the writes under way will yet make dirty: they have passed check 12, and count toward the dirty total (R189; log entry
163). -/
def State.promised (s : State) : Nat :=
  (s.host.ops.map (fun e => match e.2.phase with
    | .filling => if e.2.admitted then s.newlyDirty e.2.writes else 0
    | .queued => if e.2.admitted then s.newlyDirty e.2.writes else 0
    | .done _ => if e.2.admitted && e.2.mode == .prepare then s.newlyDirty e.2.writes else 0
    | _ => 0)).sum

/-- Does the write gate of R189 hold back a write of these lines (check 12 of Table 04-2)? -/
def State.gateHolds (s : State) (lines : List Nat) : Bool :=
  decide (0 < s.newlyDirty lines) && decide (s.ceiling < s.dirtyLlc + s.dirtyTier + s.promised + s.newlyDirty lines)

/-- Goes on with an operation whose lines were awaited: every line it needs is there or has failed. -/
def State.resumeOp (s : State) (id : Nat) : State :=
  match s.host.ops.find id with
  | none => s
  | some o =>
    if o.active && o.admitted then
      if o.needs.all (fun ln => (s.resident ln).isSome || o.fails.any (fun f => f.1 == ln)) then
        match o.failStatus with
        | some st => s.failOp id st
        | none => s.perform id o
      else if o.needs.all (fun ln => s.filling ln || (s.resident ln).isSome || o.fails.any (fun f => f.1 == ln)) then s
      else s.startFills id o
    else s

/-- A connection's stitch uses this device, and writes to it where it is no READ (R204). -/
def State.noteUse (s : State) (o : Op) : State :=
  match o.origin with
  | .lace _ _ => s
  | _ =>
    let k := (o.conn * 64 + s.self) * 2
    let u := s.lace.used.put k s.now
    { s with lace := { s.lace with used := if o.st.opcode = 1 then u else u.put (k + 1) s.now } }

/-- Is the node of a line gone that the LLC does not hold (R409, R416)? -/
def State.lineGone (s : State) (ln : Nat) : Bool :=
  (s.resident ln).isNone && (match s.localLine ln with | some l => s.nodeGone l | none => false)

/-- A memory operation begins on the device that holds its lines: past the dirty ceiling (check 12, R189) its fills start, and it runs at
once when none is needed. A write that finds the node of a line lost ends with UNCORRECTABLE (R416). -/
def State.runLocal (s : State) (id : Nat) : State :=
  match s.host.ops.find id with
  | none => s
  | some o =>
    if !o.admitted && s.gateHolds o.writes then s.gateWait id o
    else match o.writes.find? (fun ln => s.lineGone ln) with
    | some ln => (s.loseNode ln ((s.localLine ln).getD 0)).failOp id .uncorrectable
    | none =>
      let s1 := (s.modOp id (fun o => { o with phase := .filling, admitted := true })).noteUse o
      (s1.startFills id o).resumeOp id

/-- Goes on with an operation that waits for lines, or at the dirty ceiling. -/
def State.proceed (s : State) (id : Nat) : State :=
  match s.host.ops.find id with
  | none => s
  | some o => if o.active && !o.admitted then s.runLocal id else s.resumeOp id

/-- Goes on with every operation that waited for lines, or at the dirty ceiling. -/
def State.resumeOps (s : State) : State := s.host.ops.foldl (fun t e => t.proceed e.1) s

/-- The end of a fill: the line enters the LLC as a clean line with its marks, and the operations that waited go on. -/
def State.fillGood (s : State) (ln : Nat) (data : LineBits) (poison : BitVec 4) (cause : Nat) : State :=
  if (s.resident ln).isSome then s.resumeOps
  else (s.install ln data 0 poison cause).resumeOps

/-- A fill that fails: the operations that needed the line note the status, the line is installed poisoned, and they go on
(R100, R303). A line that a whole-line write has replaced in the meantime takes no marks, and nothing waits for it (R303). -/
def State.fillBad (s : State) (ln : Nat) (st : Status) (cause : Nat) : State :=
  if (s.resident ln).isSome then s.resumeOps else ((s.noteFail ln st).poisonLine ln cause).resumeOps

end Sys2Proof.Machine
end

