-- ==== Sys2Proof/Machine/Place.lean ====
section
/-!
DEFINITION. Placement on one device (06): eviction, the DRAM tier, first mappings, the free pool, the wear governor, moves
and retirement, heat, and the timers that drive them.
-/
namespace Sys2Proof.Machine

/-! ### The state with one table of the memory side changed -/

/-- The state with a pricking entry changed. -/
def State.putPrk (s : State) (lsw : Nat) (e : Prk) : State :=
  { s with mem := { s.mem with prk := s.mem.prk.set lsw e Prk.unwritten } }

/-- The state with a ledger entry changed. -/
def State.putLdg (s : State) (ps : Nat) (e : Ldg) : State :=
  { s with mem := { s.mem with ldg := s.mem.ldg.set ps e Ldg.unused } }

/-- The current program epoch label (R149). -/
def State.epochLabel (s : State) : Nat := s.fld Reg.stkEpoch 5 0

/-! ### Thresholds and limits (R182, R185, R186, R320) -/

/-- Thermal throttling is active: L_th is above 0 (R185, R497). -/
def State.thermalOn (s : State) : Bool := s.pwr.lth != 0

/-- ADMIT_R in force. -/
def State.admitR (s : State) : Nat := let a := s.fld Reg.plcCfg 23 16; if s.thermalOn then a / 2 else a
/-- ADMIT_W in force. -/
def State.admitW (s : State) : Nat := let a := s.fld Reg.plcCfg 31 24; if s.thermalOn then a / 2 else a

/-- The DRAM dirty limit in lines: C − 64 MiB, and 0 while a channel is erased (R186, R320). -/
def State.tierDirtyLimit (s : State) : Nat := if s.flag Reg.scrStatus 3 then 0 else s.ceiling - 262144

/-- DRAM-tier slots; none while the devices refresh themselves or are refilled (R361, R373). -/
def State.tierSlots (s : State) : Nat :=
  if s.flag Reg.drcStatus 1 || s.flag Reg.drcStatus 2 then 0 else if s.flag Reg.drcStatus 3 then 184549376 else 92274688

/-! ### The free pool (R184) -/

/-- Listed FREE swatches, with their LINE_PROGS. -/
def State.freeListed (s : State) : List (Nat × Nat) :=
  (s.mem.ldg.filter (fun e => e.2.st == .free)).map (fun e => (e.1, e.2.progs))

/-- Physical swatches that are FREE. -/
def State.freeCount (s : State) : Nat := 33554432 - (s.mem.ldg.filter (fun e => e.2.st != .free)).length

/-- The `i`-th number from `n` on that a rising list of numbers does not name. -/
def nthGap : Nat → Nat → List Nat → Nat
  | i, n, [] => n + i
  | i, n, e :: t => if n + i < e then n + i else nthGap (i + n - e) (e + 1) t

/-- Insertion of a (number, wear) pair in a list ordered by `before`. -/
def insertBy (before : Nat × Nat → Nat × Nat → Bool) (x : Nat × Nat) : List (Nat × Nat) → List (Nat × Nat)
  | [] => [x]
  | y :: t => if before x y then x :: y :: t else y :: insertBy before x t

/-- A list of (number, wear) pairs in the order `before`. -/
def sortBy (before : Nat × Nat → Nat × Nat → Bool) (l : List (Nat × Nat)) : List (Nat × Nat) := l.foldr (insertBy before) []

/-- The FREE swatches that were programmed, by LINE_PROGS and then by number (log entry 20). -/
def State.freeWorn (s : State) : List (Nat × Nat) :=
  sortBy (fun a b => a.2 < b.2 || (a.2 == b.2 && a.1 ≤ b.1)) (s.freeListed.filter (fun e => e.2 != 0))

/-- Listed swatches that are not both FREE and never programmed. -/
def State.notFresh (s : State) : List Nat := (s.mem.ldg.filter (fun e => !(e.2.st == .free && e.2.progs == 0))).map (·.1)

/-- LINE_PROGS and number of the `i`-th swatch of the free pool, sorted by LINE_PROGS and then by number. -/
def State.poolKey (s : State) (i : Nat) : Nat × Nat :=
  let worn := s.freeWorn
  let fresh := s.freeCount - worn.length
  if i < fresh then (0, nthGap i 0 s.notFresh) else ((worn[i - fresh]?).map (fun e => (e.2, e.1))).getD (2 ^ 32, 0)

/-- The eight buckets of the free pool are sorted anew (R184). -/
def State.sortPool (s : State) : State :=
  { s with mem := { s.mem with buckets := (List.range 7).map (fun k => s.poolKey (ceilDiv ((k + 1) * s.freeCount) 8)) } }

/-- Does a (LINE_PROGS, number) come before another in the pool? -/
def poolBefore (a b : Nat × Nat) : Bool := a.1 < b.1 || (a.1 == b.1 && a.2 < b.2)

/-- The lowest number of a FREE swatch in bucket `k` (R184). -/
def State.inBucket (s : State) (k : Nat) : Option Nat :=
  let lo : Nat × Nat := if k = 0 then (0, 0) else s.mem.buckets.getD (k - 1) (0, 0)
  let hi : Nat × Nat := if k = 7 then (2 ^ 32, 0) else s.mem.buckets.getD k (2 ^ 32, 0)
  let here (x : Nat × Nat) : Bool := !poolBefore x lo && poolBefore x hi
  let fresh := nthGap 0 (if lo.1 = 0 then lo.2 else 2 ^ 25) (s.notFresh.filter (fun n => decide (lo.2 ≤ n)))
  let l := (s.freeListed.filter (fun e => e.2 != 0 && here (e.2, e.1))).map (·.1) ++
    (if fresh < 33554432 && here (0, fresh) then [fresh] else [])
  l.foldl (fun m n => match m with | none => some n | some a => some (min a n)) none

/-- The free swatch that R184 takes: the lowest number of the least-worn (`young`) or most-worn eighth of the free pool, or of the nearest
bucket that holds one. -/
def State.pickFree (s : State) (young : Bool) : Option Nat :=
  (List.range 8).findSome? (fun k => s.inBucket (if young then k else 7 - k))

/-- Does a logical swatch ask for a young swatch: HINT HOT, or HEAT_W of its source at least ADMIT_W (R184)? -/
def State.wantsYoung (s : State) (lsw : Nat) : Bool :=
  let e := s.prk lsw
  e.hint == 1 || ((e.st == .mapped || e.st == .moving) && decide (s.admitW ≤ (s.ldg e.ps).heatW))

/-! ### The wear governor (R200 to R204) -/

/-- B of R201, line programs. -/
def govBudget : Nat := 45097156608000
/-- The daily average of R201. -/
def govDaily : Nat := 1503238553600

/-- The governor is LIMITING: an eviction waited for a token in the past 1 s (R204). -/
def State.limiting (s : State) : Bool :=
  match s.mem.gov.lastWait with
  | some t => decide (s.now < t + sec 1)
  | none => false

/-- Every connection that used a device within the past second; for CAUSE WEAR, that wrote to it (R204, R276). -/
def State.usersOf (s : State) (dev cause : Nat) : List Nat :=
  (s.host.conns.filter (fun e => e.2.st == .opened && match s.lace.used.find ((e.1 * 64 + dev) * 2 + (if cause = 3 then 1 else 0)) with
    | some t => decide (s.now < t + sec 1)
    | none => false)).map (·.1)

/-- The SLOW for a device's wear governor to every connection that wrote to that device in the past second, at most once per second on each, with
`rate` in thousandths of a line per second (R204). -/
def State.wearSlowFor (s : State) (dev rate : Nat) : State :=
  let hit := s.usersOf dev 3
  hit.foldl (fun t id => match t.host.conns.find id with
    | none => t
    | some c =>
      let again := match t.mem.gov.slowAt.find (64 * id + dev) with | some x => t.due (x + sec 1) | none => true
      if again then
        let bytes := rate * 256 / 1000 / hit.length / 1000000 + (t.lastSecond c).2.2 / 1000000
        let u := t.slowFor dev id 3 1000 0xFFFFFFFF (max 1 bytes)
        { u with mem := { u.mem with gov := { u.mem.gov with slowAt := u.mem.gov.slowAt.put (64 * id + dev) u.now } } }
      else t) s

/-- The SLOW of this device's governor: on its own connections, and at the manager, which sends it on a hoop (R204, Table 06-8). -/
def State.wearSlow (s : State) (rate : Nat) : State :=
  let again := match s.mem.gov.lastSlow with | some x => s.due (x + sec 1) | none => true
  let s1 : State := if again then
      let u := s.report (.slow s.self 3 1000 0xFFFFFFFF rate)
      { u with mem := { u.mem with gov := { u.mem.gov with lastSlow := some u.now } } }
    else s
  s1.wearSlowFor s1.self rate

/-- The SLOW for a device's governor is lifted on the connections that have it (R204). -/
def State.wearLift (s : State) (dev : Nat) : State :=
  let hit := (s.mem.gov.slowAt.filter (fun e => e.1 % 64 == dev)).map (fun e => e.1 / 64)
  let s1 := hit.foldl (fun t id => match t.host.conns.find id with
    | some c => if c.slowCause = 3 then t.slowLiftFor dev id else t
    | none => t) s
  { s1 with mem := { s1.mem with gov := { s1.mem.gov with slowAt := s1.mem.gov.slowAt.filter (fun e => e.1 % 64 != dev) } } }

/-- An eviction waits for a token (R201, R204). -/
def State.govWait (s : State) : State :=
  let was := s.limiting
  let s1 := ({ s with mem := { s.mem with gov := { s.mem.gov with lastWait := some s.now } } }).count (Reg.plcCount 6) 1
  let s2 := if was then s1 else (s1.setFlag Reg.plcGovStatus 0).raise 0x3003 s.self (s.mem.gov.rate / 1000 / 1000000)
  s2.wearSlow s2.mem.gov.rate

/-- Takes a token for a user line program; `none` when there is none (R201). -/
def State.takeToken (s : State) : Option State :=
  if s.mem.gov.tokens < 1000000 then none
  else some { s with mem := { s.mem with gov := { s.mem.gov with tokens := s.mem.gov.tokens - 1000000, used := s.mem.gov.used + 1 } } }

/-- The days of the window before today, summed. -/
def Governor.s29 (g : Governor) : Nat := g.days.foldl (· + ·) 0

/-- DAY_CAP in force: 100 in spare state LOW or beyond, whatever its setting (Table 06-8). -/
def State.dayCap (s : State) : Nat := if s.fld Reg.plcSpare 24 23 = 0 then s.fld Reg.plcGovCfg 8 0 else 100

/-- The allowance of a day, and whether FLOOR set it (R201). -/
def State.dayAllow (s : State) (s29 : Nat) : Nat × Bool :=
  let floor := s.fld Reg.plcGovCfg 22 16 * govDaily / 100
  let cap := s.dayCap * govDaily / 100
  let a := min cap (max floor (govBudget - s29))
  (a, decide (govBudget - s29 < floor) && decide (floor ≤ cap))

/-- The day of the time stamp begins (R200, R201): the count of the bucket that ends joins the buckets, those of days that passed since are 0,
and the new day's allowance is set. -/
def State.govDayStart (s : State) : State :=
  let today := s.dayBucket
  let gone := today - s.mem.gov.day
  let days := if gone = 0 then s.mem.gov.days
    else (List.replicate (min 29 (gone - 1)) 0 ++ s.mem.gov.used :: s.mem.gov.days).take 29
  let a := s.dayAllow (days.foldl (· + ·) 0)
  let s1 : State := { s with mem := { s.mem with gov := { s.mem.gov with
                        days := days, used := if gone = 0 then s.mem.gov.used else 0, allow := a.1, day := today
                        dayEnd := s.now + sec (86400 - s.opSeconds % 86400) } } }
  let s2 := s1.setFld Reg.plcGovStatus 31 16 today
  if a.2 then s2.raise 0x3004 s.self 0 else s2

/-- The rate of R201 in thousandths of a line per second: what is left of the allowance over what is left of the day, at least 1 s. -/
def State.govRate (s : State) : Nat := (s.mem.gov.allow - s.mem.gov.used) * 1000 * sec 1 / max (sec 1) (s.mem.gov.dayEnd - s.now)

/-- The governor's numbers one millisecond on: the rate, and tokens up to the burst of 1 s (R201). -/
def Governor.paced (g : Governor) (rate : Nat) : Governor := { g with rate := rate, tokens := min (g.tokens + rate) (rate * 1000) }

/-- The governor with all tokens of its burst. -/
def Governor.burst (g : Governor) : Governor := { g with tokens := g.rate * 1000 }

/-- The rate and tokens of R201, recomputed for one more millisecond. -/
def State.govTick (s : State) : State :=
  let s1 : State := { s with mem := { s.mem with gov := s.mem.gov.paced s.govRate } }
  (s1.setFld Reg.plcGovStatus 63 32 (s.govRate / 1000 / 1000)).putFlag Reg.plcGovStatus 0 s.limiting

/-- The governor at a start: the allowance of the day, and the tokens of its burst (R200, R201; log entry 167). -/
def State.govOpen (s : State) : State :=
  let s1 := s.govDayStart.govTick
  { s1 with mem := { s1.mem with gov := s1.mem.gov.burst } }

/-! ### Stripe programs (R139 to R143, R176) -/

/-- Retired swatches. -/
def State.retired (s : State) : Nat := s.fld Reg.plcSpare 57 32

/-- PERCENT_USED (R198). -/
def State.percentUsed (s : State) : Nat :=
  let live := s.mem.ldg.filter (fun e => e.2.st != .retired)
  (live.foldl (fun a e => a + e.2.progs) 0) * 10000 / ((33554432 - s.retired) * 128000000)

/-- PERCENT_USED has reached 90 % on the way from `s` to `t` (R198). With no swatch listed it stood at 0. -/
def State.wearCrossed (s t : State) : Bool :=
  !s.mem.ldg.isEmpty && decide (s.percentUsed < 9000) && decide (9000 ≤ t.percentUsed)

/-- WEAR_90 is raised when PERCENT_USED reaches 90 % as `s` becomes `t` (R198). -/
def State.wearEvent (s t : State) : State := if s.wearCrossed t then t.raise 0x3009 t.self 0 else t

/-- The LINE_PROGS of a physical swatch advanced (R176). -/
def State.addProgs (s : State) (ps n : Nat) : State :=
  let e := s.ldg ps
  s.wearEvent (s.putLdg ps { e with progs := min (2 ^ 32 - 1) (e.progs + n) })

/-- Logical line within its swatch of a physical line, under a rotation (R171). -/
def unrotate (p rot : Nat) : Nat := (p % 512 + 512 - rot % 512) % 512

/-- A line is programmed in a swatch that a move copies: its bit of the map clears, so that it is copied again (R193). -/
def State.uncopy (s : State) (p : Nat) : State :=
  let f (m : Move) : Move :=
    if m.src = p / 512 && !m.switched then { m with map := m.map &&& ~~~((1 : BitVec 512) <<< unrotate p (s.prk m.lsw).rot) } else m
  { s with mem := { s.mem with moves := s.mem.moves.map (fun e => (e.1, f e.2)) } }

/-- A stripe program of an image starts at a physical line, under CURRENT; FAILED dies are skipped (R139, R149, R314). It
replaces a retirement that was programming the slots, and the fragments of a retirement, `serial`, are programmed one after another (R151). -/
def State.startProgram (s : State) (ln p : Nat) (img : LineImg) (user : Bool) (serial : Bool := false) : State :=
  let frag (f : Nat) : Option Bool := if (s.die (fragDie p f)).st = .failed then some true else none
  let g : Program := { line := ln, stripe := { img := img, label := s.epochLabel }, user := user,
                       frags := (List.range 9).map frag, retried := [], serial := serial }
  (({ s with mem := { s.mem with programs := s.mem.programs.put p g } } : State).addProgs (p / 512) 1).uncopy p

/-! ### Node conversion (R411, R419) -/

/-- The 64 lines of a node whose first line is `first`. -/
def nodeLines (first : Nat) : List Nat := (List.range 64).map (fun i => first + i)

/-- One line of a node that is converted: dirty as a whole, and out of the DRAM tier. -/
def State.convLine (s : State) (rekey : Bool) (ln : Nat) : State :=
  let mark (l : LlcLine) : LlcLine := { l with dirty := 15, unpaid := rekey }
  { s with mem := { s.mem with
              llc := s.mem.llc.modify ln mark
              evb := s.mem.evb.modify ln mark
              tier := s.mem.tier.drop ln } }

/-- The walker has converted node `n`: the selvedge passes it (R419). -/
def State.selvedgePast (s : State) (n : Nat) : State :=
  match s.mem.rekey with
  | none => s
  | some k =>
    let k1 := { k with next := n + 1, left := k.left - 1 }
    (({ s with mem := { s.mem with rekey := some k1 } } : State).wr Reg.secSelvedge (BitVec.ofNat 64 (n + 1))).setFld Reg.secRekey 63 32 k1.left

/-- A conversion ends when all 64 lines are in the LLC: MAJOR advances, VER is set, every MINOR is 0 (R411, R419). -/
def State.convFinish (s : State) (n : Nat) (c : NodeConv) : State :=
  if (nodeLines c.first).all (fun ln => (s.resident ln).isSome) then
    let s1 := (nodeLines c.first).foldl (fun t ln => t.convLine c.rekey ln) s
    let old := s1.nodeOf c.first (64 * n)
    let s2 : State := { s1 with mem := { s1.mem with
        nodes := s1.mem.nodes.put n { major := (old.major + 1) % 2 ^ 63, ver := c.ver, minors := [] }
        dirtyNodes := if s1.mem.dirtyNodes.contains n then s1.mem.dirtyNodes else n :: s1.mem.dirtyNodes
        conv := s1.mem.conv.drop n } }
    if c.rekey then (s2.selvedgePast n).count (Reg.secCount 5) 1 else s2.count (Reg.secCount 3) 1
  else s

/-- Every conversion whose lines are all in the LLC ends. -/
def State.convSettle (s : State) : State := s.mem.conv.foldl (fun t e => t.convFinish e.1 e.2) s

/-- A node is taken into the LLC to be encrypted anew: its lines are filled, and held (R411, R419). A line whose key or die
gives no read is poisoned as R303 states, but for the double die fault, which poisons nothing (R315). -/
def State.startConv (s : State) (ln l : Nat) (ver rekey : Bool) : State :=
  let n := l / 64
  if s.mem.conv.has n then s
  else
    let first := ln - l % 64
    let s1 : State := { s with mem := { s.mem with conv := s.mem.conv.put n { first := first, ver := ver, rekey := rekey } } }
    let s2 := (nodeLines first).foldl (fun t q =>
      if t.filling q then t
      else match t.startFill q .node with
        | (.ready, t1) => t1
        | (.pending, t1) => t1
        | (.fails .unavailable, t1) => t1
        | (.fails _, t1) => t1.poisonLine q 0) s1
    s2.convSettle

/-! ### First mappings (R173) -/

/-- A swatch that is wholly programmed while a die is REJOINING needs no resilver (R165, R317). -/
def State.markCurrent (s : State) (ps : Nat) : State :=
  let mark (x : Die) : Die := if x.st = .rejoining && !x.current.contains ps then { x with current := ps :: x.current } else x
  { s with mem := { s.mem with dies := s.mem.dies.map (fun e => (e.1, mark e.2)) } }

/-- A first mapping starts: a free swatch is taken and its zero fill runs (R173). The dirty lines wait. -/
def State.startMapping (s : State) (lsw : Nat) : State :=
  let s0 := s.setFlag Reg.plcStatus 1
  if (s.prk lsw).st = .unwritten then
    match s.pickFree ((s.prk lsw).hint == 1) with
    | none => s0
    | some d =>
      let s1 := s0.putPrk lsw { s.prk lsw with st := .mapping }
      let s2 := s1.putLdg d { s1.ldg d with st := .mapped, lsw := lsw, heatR := 0, heatW := 0 }
      { s2 with mem := { s2.mem with zeroFill := s2.mem.zeroFill.put lsw d, filled := s2.mem.filled.put lsw 0 } }
  else s0

/-! ### The DRAM tier (R181 to R183, R188) -/

/-- Read and write heat of the physical swatch of a local logical line; 0 where it has none. -/
def State.heatOf (s : State) (l : Nat) : Nat × Nat :=
  let e := s.prk (l / 512)
  match e.st with
  | .mapped | .moving => ((s.ldg e.ps).heatR, (s.ldg e.ps).heatW)
  | _ => (0, 0)

/-- The image of a line's present contents under its present counters: what its encryption already stored (R404). -/
def State.imageNow (s : State) (ln l : Nat) (c : LlcLine) : LineImg :=
  let n := s.nodeOf ln l
  sealWith ((s.lineKeys (lineKeyId ln) n.ver).getD (0, 0)) n l (lineKeyId ln) c.data c.poison c.cause

/-- A dirty tier line goes to the medium, with a token where it is a user program: its slot's line is clean from then on, and the program buffer
holds it until the program verifies (R183, R188, R200). `none`: no mapping yet, or no token. -/
def State.programTier (s : State) (ln : Nat) (t : TierLine) : Option State :=
  match s.localLine ln with
  | none => none
  | some l => match s.physLine l with
    | none => none
    | some p => (if t.unpaid then some s else s.takeToken).map (fun s1 =>
        let s2 := (s1.dramAccess 1 false (s1.slotAddr t.slot)).startProgram ln p t.img (!t.unpaid)
        { s2 with mem := { s2.mem with tier := s2.mem.tier.put ln { t with dirty := 0, unpaid := false } } })

/-- What holds a dirty tier line back from the medium: a first mapping, which starts (R173), or the governor (R201). -/
def State.holdBack (s : State) (ln : Nat) : State :=
  match s.localLine ln with
  | some l => if (s.physLine l).isNone then s.startMapping (l / 512) else s.govWait
  | none => s

/-- Does the clock sweep pass over a tier line (R183)? -/
def State.clockKeeps (s : State) (ln : Nat) : Bool :=
  match s.localLine ln with
  | none => false
  | some l => (s.prk (l / 512)).hint == 1 || decide (s.admitR < (s.heatOf l).1)

/-- Tier lines by slot, from the hand onward. -/
def State.clockOrder (s : State) : List (Nat × TierLine) :=
  let bySlot := sortBy (fun a b => a.2 ≤ b.2) (s.mem.tier.map (fun e => (e.1, e.2.slot)))
  let l := bySlot.filter (fun e => decide (s.mem.tierHand ≤ e.2)) ++ bySlot.filter (fun e => decide (e.2 < s.mem.tierHand))
  l.filterMap (fun e => (s.mem.tier.find e.1).map (fun t => (e.1, t)))

/-- A slot for one more tier line: the lowest free one, or the victim's of the clock sweep; a dirty victim is programmed first, and where it
cannot be yet, no slot is taken (R183). -/
def State.tierSlot (s : State) : Option Nat × State :=
  if s.mem.tier.length < s.tierSlots then
    let used := s.mem.tier.map (fun e => (e.2.slot, e.1))
    let order := sortBy (fun a b => a.1 ≤ b.1) used
    (some (order.foldl (fun g e => if e.1 = g then g + 1 else g) 0), s)
  else
    let order := s.clockOrder
    match (order.find? (fun e => !s.clockKeeps e.1)).orElse (fun _ => order.head?) with
    | none => (none, s)
    | some (v, t) =>
      let s1 := s.count (Reg.plcCount 4) 1
      let free (x : State) : State :=
        { x with mem := { x.mem with tier := x.mem.tier.drop v, tierHand := (t.slot + 1) % x.tierSlots } }
      if t.dirty = 0 then (some t.slot, free s1)
      else match s1.programTier v t with
        | some x => (some t.slot, free x)
        | none => (none, s.holdBack v)

/-- A clean line enters the DRAM tier, where a slot is free or a victim is found (R182, R183). -/
def State.admitClean (s : State) (ln l : Nat) (c : LlcLine) : State :=
  match s.tierSlot with
  | (none, s1) => s1.count (Reg.plcCount 3) 1
  | (some k, s1) =>
    let t : TierLine := { slot := k, img := s1.imageNow ln l c, dirty := 0 }
    (({ s1 with mem := { s1.mem with tier := s1.mem.tier.put ln t } } : State).dramAccess 1 true (s1.slotAddr k)).count (Reg.plcCount 2) 1

/-- The dirty tier line of the swatch with the lowest HEAT_W. -/
def State.coldestDirty (s : State) : Option (Nat × TierLine) :=
  (s.mem.tier.filter (fun e => e.2.dirty != 0)).foldl (fun a e =>
    let h (ln : Nat) : Nat := match s.localLine ln with | some l => (s.heatOf l).2 | none => 0
    match a with
    | none => some e
    | some b => if h e.1 < h b.1 then some e else some b) none

/-- The cleaner of R188 and R320: from CLEAN_HI % of the DRAM dirty limit down to CLEAN_LO %, coldest first, with tokens. -/
def State.cleanTier (s : State) (floor : Nat) : Nat → State
  | 0 => s
  | fuel + 1 =>
    if s.dirtyTier ≤ floor then s
    else match s.coldestDirty with
      | none => s
      | some (ln, t) => match s.programTier ln t with
        | some s1 => State.cleanTier (s1.count (Reg.plcCount 5) 1) floor fuel
        | none => s.holdBack ln

/-- The cleaner starts when the dirty tier data has reached CLEAN_HI % of its limit, and goes on until it has fallen to CLEAN_LO % (R188). -/
def State.cleaner (s : State) : State :=
  let lim := s.tierDirtyLimit
  if s.dirtyTier ≠ 0 && (s.mem.cleaning || decide (s.fld Reg.plcDirtyCfg 6 0 * lim ≤ s.dirtyTier * 100)) then
    let floor := s.fld Reg.plcDirtyCfg 14 8 * lim / 100
    let s1 := s.cleanTier floor s.dirtyTier
    { s1 with mem := { s1.mem with cleaning := decide (floor < s1.dirtyTier) } }
  else if s.mem.cleaning then { s with mem := { s.mem with cleaning := false } } else s

/-- The zero fill of logical swatch `lsw` ends (R173): the 512 zero lines are programmed under CURRENT, and the entry becomes MAPPED with a
new rotation, a free value (log entry 2). -/
def State.mappingDone (s : State) (lsw : Nat) : State :=
  match s.mem.zeroFill.find lsw with
  | none => s
  | some d =>
    let (f, s0) := s.draw
    let e := s0.prk lsw
    let s1 := s0.putPrk lsw { e with ps := d, rot := f.toNat % 512, st := .mapped }
    let s2 := (s1.putLdg d { s1.ldg d with zeroLabel := s.epochLabel }).addProgs d (512 - s.mem.filled.get lsw 0)
    let s3 : State := { s2 with mem := { s2.mem with
      zeroFill := s2.mem.zeroFill.drop lsw
      filled := s2.mem.filled.drop lsw
      med := s2.mem.med.filter (fun x => x.1 / 512 != d) } }
    let s4 := (s3.markCurrent d).count (Reg.plcCount 10) 1
    if s4.mem.zeroFill.isEmpty then s4.clrFlag Reg.plcStatus 1 else s4

/-- MAPPING_FILL_DONE (R173): all 512 lines are filled. -/
def execMappingFillDone (lsw : Nat) (s : State) : Result :=
  within (lsw < 29360128) (if s.mem.filled.get lsw 0 = 512 then s.mappingDone lsw else s)

/-! ### Eviction (R182, R201, R330, R331) -/

/-- A line leaves the eviction buffer. -/
def State.dropEvb (s : State) (ln : Nat) : State := { s with mem := { s.mem with evb := s.mem.evb.drop ln } }

/-- The tier slot of a line: its own, else one that is found for it. -/
def State.slotFor (s : State) (ln : Nat) : Option Nat × State :=
  match s.mem.tier.find ln with
  | some t => (some t.slot, s)
  | none => s.tierSlot

/-- A dirty line of the LLC enters the DRAM tier, encrypted anew; only its slot's dirty sectors, tag and metadata change where
the slot already holds it (R330). The Bool says whether it did. -/
def State.tierDirty (s : State) (ln l : Nat) (c : LlcLine) : Bool × State :=
  match s.slotFor ln with
  | (none, s1) => (false, s1)
  | (some k, s1) => match s1.sealLine ln l c.data c.poison c.cause with
    | none => (false, s)
    | some (img, s2) =>
      (true, ((({ s2 with mem := { s2.mem with tier := s2.mem.tier.put ln { slot := k, img := img, dirty := c.dirty, unpaid := c.unpaid } } }
        : State).dramAccess 0 true (s2.slotAddr k)).count (Reg.plcCount 0) 1).cleaner)

/-- Where a dirty line goes by Table 06-6; a line of the swatch that the resilver handles goes to the medium (R317). -/
def State.toMedium (s : State) (l : Nat) : Bool :=
  let e := s.prk (l / 512)
  s.mem.dies.any (fun x => x.2.filling == some e.ps) || e.hint == 2 || e.hint == 4 || decide (s.tierDirtyLimit ≤ s.dirtyTier) ||
    !(e.hint == 1 || decide (s.admitW ≤ (s.heatOf l).2))

/-- What becomes of the dirty data of a line that must leave the LLC (Table 06-6, R173, R201, R411): it is in the DRAM tier or
in a stripe program (`true`), or it waits (`false`). -/
def State.placeDirty (s : State) (ln l : Nat) (c : LlcLine) : Bool × State :=
  if s.mem.conv.has (l / 64) then (false, s)
  else if s.minorFull ln l then (false, s.startConv ln l (s.nodeOf ln l).ver false)
  else if s.toMedium l then
    match s.physLine l with
    | none => (false, s.startMapping (l / 512))
    | some p =>
      let paid : Option State := if c.unpaid then some s else s.takeToken
      match paid with
      | some s1 => match s1.sealLine ln l c.data c.poison c.cause with
        | none => (false, s)
        | some (img, s2) =>
          (true, (({ s2 with mem := { s2.mem with tier := s2.mem.tier.drop ln } } : State).startProgram ln p img (!c.unpaid)).count
            (Reg.plcCount 1) 1)
      | none =>
        let s1 := s.govWait
        if s1.dirtyTier < s1.tierDirtyLimit then s1.tierDirty ln l c else (false, s1)
  else s.tierDirty ln l c

/-- What becomes of a clean line that leaves the LLC (Table 06-6): it enters the DRAM tier or is dropped. -/
def State.placeClean (s : State) (ln l : Nat) (c : LlcLine) : State :=
  let e := s.prk (l / 512)
  let s1 := s.count (Reg.llcCount 4) 1
  if e.hint != 2 && (e.hint == 1 || decide (s.admitR ≤ (s.heatOf l).1)) && !s1.mem.tier.has ln then s1.admitClean ln l c
  else s1.count (Reg.plcCount 3) 1

/-- LINE_EVICT (R182): a line of the eviction buffer is placed. A line that waits stays in the buffer. -/
def State.evictLine (s : State) (ln : Nat) : State :=
  match s.mem.evb.find ln with
  | none => s
  | some c => match s.localLine ln with
    | none =>
      let s1 := s.dropEvb ln
      if lineKeyId ln = 255 && c.dirty != 0 then
        ({ s1 with mem := { s1.mem with intern := s1.mem.intern.set (lineNo ln) c.data 0 } } : State).count (Reg.llcCount 3) 1
      else s1
    | some l =>
      if c.dirty = 0 then (s.placeClean ln l c).dropEvb ln
      else if s.nodeGone l then (s.dropEvb ln).loseNode ln l
      else
        let r := s.placeDirty ln l c
        if r.1 then (r.2.count (Reg.llcCount 3) 1).dropEvb ln else r.2

/-- LINE_EVICT (R182). -/
def execLineEvict (line : Nat) (s : State) : Result := within (line < 2 ^ 56) (s.evictLine line)

/-! ### Spare swatches (R205) -/

/-- SPARE falls as a swatch retires, and the spare state follows (Table 06-8). -/
def State.spareFalls (s : State) : State :=
  let r := s.retired + 1
  let spare := 4194304 - r
  let st := if spare ≤ 167772 then 2 else if spare ≤ 671088 then 1 else 0
  let was := s.fld Reg.plcSpare 24 23
  let s1 := ((s.setFld Reg.plcSpare 57 32 r).setFld Reg.plcSpare 22 0 spare).setFld Reg.plcSpare 24 23 (max was st)
  let s2 := if was < 1 && 1 ≤ st then (s1.raise 0x3001 s.self 0).wearSlow (govDaily * 1000 / 86400) else s1
  if was < 2 && st = 2 then (s2.raise 0x3002 s.self 0).report (.spare s.self true) else s2

/-- A physical swatch that holds nothing any more is RETIRED. -/
def State.setRetired (s : State) (ps cause : Nat) : State :=
  s.wearEvent (((s.putLdg ps { s.ldg ps with st := .retired, lsw := 0, cause := cause }).spareFalls).raise 0x3006 (ps % 2 ^ 16) cause)

/-! ### Moves (R191 to R197) -/

/-- A move of a logical swatch starts (R192 step 1), when a slot and a free swatch are there and placement work does not pause (R520). -/
def State.startMove (s : State) (lsw : Nat) (young : Bool) (why : MoveWhy) : Option State :=
  match s.fwPaused, s.mem.moves.firstFree 0 64, s.pickFree young with
  | false, some k, some d =>
    let e := s.prk lsw
    let (f, s0) := s.draw
    let mv : Move := { lsw := lsw, src := e.ps, dst := d, rot := f.toNat % 512, why := why, map := 0, once := 0, again := 0, switched := false,
                       due := s.now + ms (s.fld Reg.plcMoveCfg 41 32) }
    let s1 := (s0.putPrk lsw { e with st := .moving, slot := k }).putLdg d { s0.ldg d with st := .moveDst, lsw := lsw }
    let s2 : State := { s1 with mem := { s1.mem with moves := s1.mem.moves.put k mv } }
    some (s2.setFld Reg.plcMoveStatus 6 0 (s2.fld Reg.plcMoveStatus 6 0 + 1))
  | _, _, _ => none

/-- A physical swatch is to be retired (R141, R191, R206): at once where it is FREE, by a move where it is MAPPED, later where
no slot is free or a move of it runs; with SPARE at 0 it stays. -/
def State.retireSwatch (s : State) (ps cause : Nat) : State :=
  let later : State := { s with mem := { s.mem with retireQ := if s.mem.retireQ.any (fun e => e.1 == ps) then s.mem.retireQ
                                                                else s.mem.retireQ ++ [(ps, cause)] } }
  match (s.ldg ps).st with
  | .free => s.setRetired ps cause
  | .mapped =>
    if 4194304 ≤ s.retired then s
    else
      let lsw := (s.ldg ps).lsw
      if (s.prk lsw).st = .mapped && (s.prk lsw).ps == ps then
        match s.startMove lsw (s.wantsYoung lsw) (.retire cause) with
        | some t => t
        | none => later
      else later
  | _ => s

/-- Retirements that waited are tried again, before anything else moves (R191). -/
def State.retireWaiting (s : State) : State :=
  let q := s.mem.retireQ
  q.foldl (fun t e => t.retireSwatch e.1 e.2) { s with mem := { s.mem with retireQ := [] } }

/-- Does a swatch still wait to be retired, or does its move run (R213)? -/
def State.retiring (s : State) (ps : Nat) : Bool :=
  s.mem.retireQ.any (fun e => e.1 == ps) || s.mem.moves.any (fun e => e.2.src == ps && !e.2.switched)

/-- The stripe of logical line `i` of a moving swatch is put into D, under CURRENT (R192). -/
def State.putCopy' (s : State) (mv : Move) (i : Nat) (img : LineImg) : State :=
  { s with mem := { s.mem with med := s.mem.med.put (mv.dst * 512 + (i + mv.rot) % 512) { img := img, label := s.epochLabel } } }

/-- Physical line in S of logical line `i` of a moving swatch. -/
def State.srcLine (s : State) (mv : Move) (i : Nat) : Nat := mv.src * 512 + (i + (s.prk mv.lsw).rot) % 512

/-- Line `i` as the move's copy holds it: the image of S unchanged (R194). A line that S holds as a zero line since its fill is one in D. -/
def State.copyLine (s : State) (mv : Move) (i : Nat) : State :=
  match s.mem.programs.find (s.srcLine mv i) with
  | some g => s.putCopy' mv i g.stripe.img
  | none => match s.mem.med.find (s.srcLine mv i) with
    | some x => s.putCopy' mv i x.img
    | none => s

/-- Line `i` could not be recovered from S: D holds it with all sectors poisoned (R194). A line that the DRAM tier or the LLC holds is there as it
is; where the key for a tag is not loaded, the LLC holds the poisoned line (log entry 168). -/
def State.copyLost (s : State) (mv : Move) (i : Nat) : State :=
  match s.lineOf (mv.lsw * 512 + i) with
  | none => s
  | some ln => match s.mem.tier.find ln, s.resident ln with
    | some t, _ => s.putCopy' mv i t.img
    | none, some _ => s
    | none, none => match s.sealLine ln (mv.lsw * 512 + i) 0 15 0 with
      | some (img, t) => (t.putCopy' mv i img).poisonSet (mv.lsw * 512 + i) 15 0
      | none => s.poisonLine ln 0

/-- The copy engine copies the next line of the move in slot `k` that its map lacks (R192 step 2, R193); `none` where there is none. A line of
which two fragments or more are erased waits (R315; log entry 169). -/
def State.copyNext (s : State) (k : Nat) (mv : Move) : Option State :=
  if mv.switched then none
  else ((List.range 512).find? (fun i => !mv.map.getLsbD i && decide ((s.erasedFrags (s.srcLine mv i)).length < 2))).map (fun i =>
    let bit : BitVec 512 := (1 : BitVec 512) <<< i
    let s1 := (s.copyLine mv i).addProgs mv.dst 1
    let s2 := if mv.once.getLsbD i then s1.count (Reg.plcCount 9) 1 else s1
    let again := if mv.once.getLsbD i then mv.again + 1 else mv.again
    let mv1 : Move := { mv with map := mv.map ||| bit, once := mv.once ||| bit, again := again }
    { s2 with mem := { s2.mem with moves := s2.mem.moves.put k mv1 } })

/-- One more line of a zero fill is programmed (R173 step 3); `none` where all 512 are. -/
def State.fillNext (s : State) (lsw d : Nat) : Option State :=
  let n := s.mem.filled.get lsw 0
  if 512 ≤ n then none
  else some ((({ s with mem := { s.mem with filled := s.mem.filled.put lsw (n + 1) } } : State)).addProgs d 1)

/-- Moves by their reason. -/
def State.movesFor (s : State) (f : MoveWhy → Bool) : List (Nat × Move) := s.mem.moves.filter (fun e => f e.2.why)

/-- Is a move a retirement? -/
def MoveWhy.retires : MoveWhy → Bool
  | .retire _ => true
  | _ => false

/-- The next line that MOVE_SHARE pays for: zero fills, whose dirty lines wait, then leveling moves, then rearrangements (R191; log entry 21). -/
def State.shareNext (s : State) : Option State :=
  (s.mem.zeroFill.findSome? (fun e => s.fillNext e.1 e.2)).orElse fun _ =>
    ((s.movesFor (· == .level)).findSome? (fun e => s.copyNext e.1 e.2)).orElse fun _ =>
      (s.movesFor (· == .filet)).findSome? (fun e => s.copyNext e.1 e.2)

/-- At most `n` lines on MOVE_SHARE, eight parts of credit each. -/
def State.shareWork (s : State) : Nat → State
  | 0 => s
  | n + 1 =>
    if s.mem.moveCredit < 8 then s
    else match s.shareNext with
      | some t => State.shareWork { t with mem := { t.mem with moveCredit := t.mem.moveCredit - 8 } } n
      | none => s

/-- At most `n` lines of retirements, which MOVE_SHARE does not hold. -/
def State.retireWork (s : State) : Nat → State
  | 0 => s
  | n + 1 => match (s.movesFor MoveWhy.retires).findSome? (fun e => s.copyNext e.1 e.2) with
    | some t => State.retireWork t n
    | none => s

/-- One microsecond of the copy engine (R191 to R193): at 16 GB/s, 62 lines of retirements, and MOVE_SHARE % of 62.5 lines of the rest. -/
def State.copyTick (s : State) : State :=
  if s.mem.moves.isEmpty && s.mem.zeroFill.isEmpty then s
  else
    let share := 5 * s.fld Reg.plcMoveCfg 4 0
    let s1 : State := { s with mem := { s.mem with moveCredit := min (s.mem.moveCredit + share) (share + 8) } }
    (s1.shareWork 8).retireWork 62

/-- MOVE_COPY_DONE (R192 steps 3 to 6): all 512 bits are set, `bad` of the lines copied as poisoned because they could not be recovered (R194); the
pricking switches to D, and the heat moves with it (R180). A report with another count of lines copied again is one the move cannot give (log
entry 3). -/
def execMoveCopyDone (slot : Nat) (bad : List Nat) (recopied : Nat) (s : State) : Result :=
  within (slot < 64) <|
    match s.mem.moves.find slot with
    | none => s
    | some mv =>
      if mv.switched || mv.map != BitVec.allOnes 512 || mv.again != recopied then s
      else
        let s1 := ((bad.filter (· < 512)).eraseDups).foldl (fun t i => t.copyLost mv i) s
        let e := s1.prk mv.lsw
        let s2 := s1.putPrk mv.lsw { e with ps := mv.dst, rot := mv.rot, st := .mapped, slot := 0 }
        let a := s2.ldg mv.src
        let s3 := s2.putLdg mv.dst { s2.ldg mv.dst with heatR := a.heatR, heatW := a.heatW, zeroLabel := s.epochLabel }
        let s4 : State := { s3 with mem := { s3.mem with
          programs := s3.mem.programs.filter (fun x => x.1 / 512 != mv.src)
          moves := s3.mem.moves.put slot { mv with switched := true } } }
        s4.markCurrent mv.dst

/-- MOVE_FINISH (R192 step 7): the reads on S have drained; D is MAPPED, S is FREE or RETIRED. -/
def execMoveFinish (slot : Nat) (s : State) : Result :=
  within (slot < 64) <|
    match s.mem.moves.find slot with
    | none => s
    | some mv =>
      if mv.switched && !s.mem.senses.any (fun e => e.1 / 512 == mv.src) then
        let s1 := s.putLdg mv.dst { s.ldg mv.dst with st := .mapped, lsw := mv.lsw }
        let s2 := s1.putLdg mv.src { s1.ldg mv.src with st := .free, lsw := 0, heatR := 0, heatW := 0 }
        let s3 : State := { s2 with mem := { s2.mem with
          moves := s2.mem.moves.drop slot
          med := s2.mem.med.filter (fun x => x.1 / 512 != mv.src) } }
        let s4 := match mv.why with | .retire c => s3.setRetired mv.src c | _ => s3
        let s5 := (s4.setFld Reg.plcMoveStatus 6 0 (s4.fld Reg.plcMoveStatus 6 0 - 1)).setFld Reg.plcMoveStatus 63 32
          (s4.fld Reg.plcMoveStatus 63 32 + 1)
        (s5.count (Reg.plcCount 8) 1).retireWaiting
      else s

/-- Bits set in the map of a move. -/
def Move.copied (m : Move) : Nat := ((List.range 512).filter (fun i => m.map.getLsbD i)).length

/-- MOVE_TIMEOUT (R193): a move whose map has not filled, with `copied` lines in it, is abandoned; a retirement is retried at once. A report with
another count is one the move cannot give (log entry 3). -/
def execMoveTimeout (slot : Nat) (copied : Nat) (s : State) : Result :=
  within (slot < 64) <|
    match s.mem.moves.find slot with
    | none => s
    | some mv =>
      if !mv.switched && mv.map != BitVec.allOnes 512 && mv.copied == copied && s.due mv.due then
        let s1 := s.putLdg mv.dst { s.ldg mv.dst with st := .free, lsw := 0 }
        let s2 := s1.putPrk mv.lsw { s1.prk mv.lsw with st := .mapped, slot := 0 }
        let s3 : State := { s2 with mem := { s2.mem with
          moves := s2.mem.moves.drop slot
          med := s2.mem.med.filter (fun x => x.1 / 512 != mv.dst) } }
        let s4 := (s3.setFld Reg.plcMoveStatus 6 0 (s3.fld Reg.plcMoveStatus 6 0 - 1)).raise 0x3005 (mv.src % 2 ^ 16) mv.copied
        match mv.why with
        | .retire c => s4.retireSwatch mv.src c
        | _ => s4
      else s

/-- HEAT_HALVE (R179): every heat counter is halved. -/
def execHeatHalve (s : State) : Result :=
  .next (s.periodic Timer.heat (sec (s.fld Reg.plcCfg 15 8)) fun t =>
    let half (e : Ldg) : Ldg := { e with heatR := e.heatR / 2, heatW := e.heatW / 2 }
    { t with mem := { t.mem with ldg := (t.mem.ldg.map (fun e => (e.1, half e.2))).filter (fun e => !decide (e.2 = Ldg.unused)) } })

/-- MAPPED swatches with their LINE_PROGS. -/
def State.mappedWear (s : State) : List (Nat × Nat) :=
  (s.mem.ldg.filter (fun e => e.2.st == .mapped)).map (fun e => (e.1, e.2.progs))

/-- The leveling moves of one period (R197), farthest from the mean first. -/
def State.levelMoves (s : State) : State :=
  let m := s.mappedWear
  if m.isEmpty || s.fld Reg.plcSpare 24 23 = 2 then s
  else
    let mean := (m.foldl (fun a e => a + e.2) 0) / m.length
    let gap := s.fld Reg.plcMoveCfg 31 16 * 512
    let movable (e : Nat × Nat) : Bool := (s.prk (s.ldg e.1).lsw).st == .mapped && (s.prk (s.ldg e.1).lsw).ps == e.1
    let cold := sortBy (fun a b => a.2 ≤ b.2) (m.filter (fun e => movable e && (s.ldg e.1).heatW == 0 && decide (e.2 + gap < mean)))
    let hot := sortBy (fun a b => b.2 ≤ a.2) (m.filter (fun e => movable e && decide (s.admitW ≤ (s.ldg e.1).heatW) && decide (mean + gap < e.2)))
    let go (young : Bool) (t : State) (e : Nat × Nat) : State := (t.startMove (s.ldg e.1).lsw young .level).getD t
    hot.foldl (go true) (cold.foldl (go false) s)

/-- The swatches that the filet shell asks to have rearranged: any of those in use, a free value (R191; log entry 190). -/
def State.filetAsks (s : State) : List Nat := s.mem.prk.keys.filter (fun l => (Config.freeByte s.free l).getLsbD 0)

/-- The rearrangements that the filet shell asks for: of mapped swatches that hold lines of a source region (R191; log entry 21). -/
def State.filetMoves (s : State) (swatches : List Nat) : State :=
  let source (lsw : Nat) : Bool := match s.lineOf (lsw * 512) with
    | some ln => s.filet.matrices.any (fun x => (List.range 512).any (fun i => x.2.shadows (ln + i)))
    | none => false
  if s.fld Reg.plcSpare 24 23 = 2 then s
  else swatches.foldl (fun t lsw =>
    if (t.prk lsw).st == .mapped && source lsw then (t.startMove lsw (t.wantsYoung lsw) .filet).getD t else t) s

/-- LEVEL_PERIOD (R184, R191, R197): the free pool is sorted anew; waiting retirements move first, then the leveling moves, then the swatches
that the filet shell asks to have rearranged. It waits while placement work pauses (R520). -/
def execLevelPeriod (s : State) : Result :=
  .next (if s.fwPaused then s else s.periodic Timer.level (sec (s.fld Reg.plcMoveCfg 15 8)) fun t =>
    let u := t.sortPool.retireWaiting.levelMoves
    ({ u with free := u.free + 1 } : State).filetMoves u.filetAsks)

/-- LINE_PROGS, the day buckets and today's count go to the table area (R175, R202). -/
def State.toTable (s : State) : State :=
  let progs := (s.mem.ldg.filter (fun e => e.2.progs != 0)).map (fun e => (e.1, e.2.progs))
  { s with mem := { s.mem with saved := { s.mem.saved with progs := progs, used := s.mem.gov.used, days := s.mem.gov.days } } }

/-- TABLE_CHECKPOINT (R175, R202). -/
def execTableCheckpoint (s : State) : Result := .next (s.periodic Timer.table (sec 60) State.toTable)

/-- GOV_DAY_START (R201). -/
def execGovDayStart (s : State) : Result := .next (s.periodic Timer.govDay (sec 86400) State.govDayStart)

/-- GOV_RELEASE (R204): the governor has not been LIMITING for 10 s, which it is for 1 s after a wait; SLOW is lifted and the limits return. -/
def execGovRelease (s : State) : Result :=
  .next (match s.mem.gov.lastWait with
    | none => s
    | some t =>
      if s.due (t + sec 11) then
        let s1 := (s.wearLift s.self).report (.slow s.self 3 0 0xFFFFFFFF 0xFFFFFFFF)
        ({ s1 with mem := { s1.mem with gov := { s1.mem.gov with lastWait := none, lastSlow := none } } } : State).clrFlag
          Reg.plcGovStatus 0
      else s)

/-- Is a command the end of a program of the medium? -/
def programEnds : Instr → Bool
  | .programComplete _ _ _ _ => true
  | _ => false

/-- WRITE_WAIT_TIMEOUT (R189): a write that has waited WAIT_MAX at the dirty ceiling is refused with THROTTLED; a program that ends in the same
cycle, which may clean a line, comes first (R18). -/
def execWriteWaitTimeout (op : Nat) (s : State) : Result :=
  .next (match s.host.ops.find op with
    | none => s
    | some o => match o.phase with
      | .waiting due =>
        if s.fires due programEnds && o.gate == some due && !o.admitted then
          ((s.failOp op .throttled).count (Reg.plcCount 7) 1).raise 0x3008 s.self 0
        else s
      | _ => s)

end Sys2Proof.Machine
end

