-- ==== Sys2Proof/Machine/Media.lean ====
section
/-!
DEFINITION. The analogue media core (05) and medium die faults (09): fragment senses and the rebuild of a line, slot programs,
program epochs and ladder fits, stack-port links.
-/
namespace Sys2Proof.Machine

/-! ### Dies and links (R164, R165, R313) -/

/-- The number a die state has in STK_DIE_STATE (Table 05-19). -/
def DieSt.num : DieSt → Nat
  | .online => 0 | .failed => 1 | .rejoining => 2

/-- The state with a die changed, and STK_DIE_STATE with it. -/
def State.putDie (s : State) (d : Nat) (x : Die) : State :=
  let s1 : State := { s with mem := { s.mem with dies := s.mem.dies.put d x } }
  s1.setFld (Reg.stkDieState (d / 8)) (8 * (d % 8) + 1) (8 * (d % 8)) x.st.num

/-- BAND of a die (Table 05-8). -/
def State.band (s : State) (d : Nat) : Nat := s.fld (Reg.stkDieState (d / 8)) (8 * (d % 8) + 3) (8 * (d % 8) + 2)

/-- The AGE entry of a label on a die; index 0 where it was never fitted. -/
def State.age (s : State) (d label : Nat) : Age :=
  s.mem.ages.get (d * 64 + label) { index := 0, early := false, residual := 0, fitTime := 0 }

/-- Does a line of some swatch still carry label `L` (R150)? -/
def State.labelInUse (s : State) (L : Nat) : Bool :=
  let used (ps : Nat) : Bool := (s.ldg ps).st == .mapped || (s.ldg ps).st == .moveDst
  s.mem.med.any (fun e => e.2.label == L && used (e.1 / 512)) ||
    s.mem.programs.any (fun e => e.2.stripe.label == L) ||
    s.mem.ldg.any (fun e => used e.1 && e.2.zeroLabel == L &&
      decide ((s.mem.med.filter (fun x => x.1 / 512 == e.1)).length < 512) && !s.mem.zeroFill.values.contains e.1)

/-- LIVE of a label (R150). -/
def State.live (s : State) (L : Nat) : Bool := L == s.epochLabel || s.labelInUse L

/-- Is a label marked EARLY on some die (R156)? EARLY clears when LIVE clears. -/
def State.early (s : State) (L : Nat) : Bool := (List.range 72).any (fun d => (s.age d L).early) && s.live L

/-- Label age of a label (R151). -/
def State.labelAge (s : State) (L : Nat) : Nat := (s.epochLabel + 64 - L % 64) % 64

/-! ### The end of a read (R160 to R162) -/

/-- The decoded content of a fragment. -/
def FragState.content (fs : FragState) : BitVec 272 :=
  match fs.ended with
  | some (.decoded _ x) => x
  | _ => 0

/-- Has a fragment decoded? -/
def FragState.decoded (fs : FragState) : Bool := match fs.ended with | some (.decoded _ _) => true | _ => false

/-- Bits corrected in a fragment. -/
def FragState.corrected (fs : FragState) : Nat := match fs.ended with | some (.decoded c _) => c | _ => 0

/-- What a medium read comes to: contents and image, or its failure: UNCORRECTABLE by too few fragments, or by the metadata
check; INTEGRITY; or UNAVAILABLE under R315; or KEY where the key went away. -/
inductive ReadEnd where
  | good (img : LineImg) (data : LineBits) (poison : BitVec 4) (cause : Nat)
  | lost
  | metaBad
  | tagBad
  | twoDies
  | noKey
  deriving DecidableEq, Repr

/-- Fragments that decoded, of a read. -/
def Sense.decodedFrags (e : Sense) : List Nat := (List.range 9).filter (fun f => match e.frags[f]? with | some x => x.decoded | none => false)

/-- Have all fragments ended? -/
def Sense.allEnded (e : Sense) : Bool := e.frags.all (fun f => f.ended.isSome)

/-- The rebuild of a read with fragment `erased` treated as an erasure (9: none). -/
def Sense.image (e : Sense) (erased : Nat) : LineImg :=
  rebuild (fun g => match e.frags[g]? with | some x => x.content | none => 0) erased

/-- The outcome of a read, `none` while it is open (R160 to R162): with eight decoded fragments the line is rebuilt and checked;
a check that fails with a marginal decode waits for the ninth fragment, and each marginal fragment is then tried as an erasure. -/
def State.readEnd (s : State) (p l : Nat) (e : Sense) : Option ReadEnd :=
  let ok := e.decodedFrags
  if 2 ≤ (s.erasedFrags p).length then some .twoDies
  else if ok.length < 8 then (if e.allEnded then some .lost else none)
  else if (s.lineKeys (lineKeyId e.line) (s.nodeOf e.line l).ver).isNone then some .noKey
  else
    let erased := ((List.range 9).find? (fun f => !ok.contains f)).getD 9
    let first := e.image erased
    let opened := s.openImg e.line l first
    match opened with
    | .good d po c => some (.good first d po c)
    | _ =>
      let marginal := ok.filter (fun f => match e.frags[f]? with | some x => decide (3 ≤ x.corrected) | none => false)
      let bad : ReadEnd := match opened with | .metaBad => .metaBad | _ => .tagBad
      if marginal.isEmpty then some bad
      else if ok.length = 9 then
        match (marginal.map (fun f => e.image f)).find? (fun i => match s.openImg e.line l i with | .good _ _ _ => true | _ => false) with
        | some i => match s.openImg e.line l i with
          | .good d po c => some (.good i d po c)
          | _ => some bad
        | none => some bad
      else if e.allEnded then some bad else none

/-- The fragments that the rechecks of a read treat as an erasure, one after the other, until a rebuild passes (R162). -/
def State.rechecks (s : State) (p l : Nat) (e : Sense) : List Nat :=
  if e.decodedFrags.length ≠ 9 || 2 ≤ (s.erasedFrags p).length || (s.lineKeys (lineKeyId e.line) (s.nodeOf e.line l).ver).isNone then []
  else
    let passes (f : Nat) : Bool := match s.openImg e.line l (e.image f) with | .good _ _ _ => true | _ => false
    let marginal := (List.range 9).filter (fun f => match e.frags[f]? with | some x => decide (3 ≤ x.corrected) | none => false)
    if passes 9 then [] else marginal.take ((marginal.takeWhile (fun f => !passes f)).length + 1)

/-- Re-programs a line in place under CURRENT as a retirement, or through the LLC while a die of its stripe is FAILED (R151). -/
def State.reprogram (s : State) (ln p : Nat) (img : LineImg) (data : LineBits) (poison : BitVec 4) (cause : Nat) : State :=
  let s1 := s.count (Reg.scrCount 1) 1
  if (List.range 9).any (fun f => (s.die (fragDie p f)).st == .failed) then
    let s2 := s1.install ln data 15 poison cause
    { s2 with mem := { s2.mem with llc := s2.mem.llc.modify ln (fun x => { x with unpaid := true }) } }
  else if s1.mem.programs.has p then s1
  else s1.startProgram ln p img false true

/-- What the scrubber does with a line it has read (R308). -/
def State.scrubAct (s : State) (p l : Nat) (e : Sense) (r : ReadEnd) : State :=
  let ln := e.line
  match r with
  | .twoDies => s
  | .noKey => s.count (Reg.scrCount 5) 1
  | .lost => s.poisonLine ln 0
  | .metaBad => s.poisonLine ln 0
  | .tagBad => (s.tagFail ln).poisonLine ln 2
  | .good img d po c =>
    let label := (s.stripe p ln l).label
    let limit := s.fld Reg.scrCfg 18 16
    let repair := decide (e.decodedFrags.length < 9)
    if repair || e.frags.any (fun f => decide (limit ≤ f.corrected)) || decide (s.fld Reg.stkEpochCfg 21 16 ≤ s.labelAge label) || s.early label
    then (if repair then s.count (Reg.scrCount 2) 1 else s).reprogram ln p img d po c
    else s

/-- The sampler event of a metadata check that failed after every recheck (R162, R166). -/
def State.metaEvent (s : State) (p : Nat) : State := s.raise 0x2006 (fragDie p 7) 0

/-- What the readers that fill the LLC get from a read (R100, R161, R162, R417). -/
def State.fillEnd (s : State) (ln : Nat) (r : ReadEnd) : State :=
  match r with
  | .good _ d po c => s.fillGood ln d po c
  | .lost => s.fillBad ln .uncorrectable 0
  | .metaBad => s.fillBad ln .uncorrectable 0
  | .tagBad => (s.tagFail ln).fillBad ln .integrity 2
  | .twoDies => (s.noteFail ln .unavailable).resumeOps
  | .noKey => (s.noteFail ln .key).resumeOps

/-- Has the line been written, moved or programmed anew since its senses began? Such a read says nothing of the line any more: whoever waits
for it reads again (R210, R303). -/
def State.staleSense (s : State) (p l : Nat) (e : Sense) : Bool :=
  s.physLine l != some p || s.stripe p e.line l != e.stripe || s.dirtyLine e.line

/-- A line fetched for verified re-scoring from a FILET_SOURCE swatch is admitted to the DRAM tier as a clean line (R183). -/
def State.rescored (s : State) (ln l : Nat) : State :=
  match s.resident ln with
  | some c => if (s.prk (l / 512)).hint = 4 && c.dirty = 0 && !s.mem.tier.has ln then s.admitClean ln l c else s
  | none => s

/-- The read of a physical line ends, once: each of its readers gets the outcome; the entry goes when every fragment has ended,
and stays without readers until then (R160). -/
def State.settleSense (s : State) (p : Nat) : State :=
  match s.mem.senses.find p with
  | none => s
  | some e =>
    let close (t : State) (served : Bool) : State :=
      if e.allEnded then { t with mem := { t.mem with senses := t.mem.senses.drop p } }
      else if served then { t with mem := { t.mem with senses := t.mem.senses.put p { e with readers := [] } } } else t
    match s.localLine e.line with
    | none => close s true
    | some l =>
      if e.readers.isEmpty then close s false
      else if s.staleSense p l e then
        ({ s with mem := { s.mem with senses := s.mem.senses.drop p } } : State).resumeOps
      else match s.readEnd p l e with
        | none => s
        | some r =>
          let s0 := close s true
          let s1 := if e.allEnded then s0 else
            match (List.range 9).find? (fun f => match e.frags[f]? with | some x => x.ended.isNone | none => false) with
            | some f => s0.count (Reg.stkCount (fragStack p f) 4) 1
            | none => s0
          let s1' := (s.rechecks p l e).foldl (fun t f => t.count (Reg.stkCount (fragStack p f) 13) 1) s1
          let s2 := match r with | .metaBad => s1'.metaEvent p | _ => s1'
          let s3 := if e.readers.any (· != .scrub) then s2.fillEnd e.line r else s2
          let s3 := if e.readers.contains .rescore then s3.rescored e.line l else s3
          let s4 := if e.readers.contains .scrub then s3.scrubAct p l e r else s3
          s4.convSettle

/-- A fragment of a read ends. -/
def State.endFrag (s : State) (p f : Nat) (o : FragOutcome) : State :=
  { s with mem := { s.mem with senses := s.mem.senses.modify p (fun e =>
      { e with frags := e.frags.modify f (fun x => { x with rowOpen := none, ended := some o }) }) } }

/-- A line joins the scrubber's repair queue, bobbin 2, or is dropped and counted where its push is refused (R307, Table 12-1). -/
def State.repairLine (s : State) (p : Nat) : State :=
  match s.bobPush 2 (leBytes 8 p) with
  | (true, t) => t
  | (false, t) => t.count (Reg.scrCount 11) 1

/-- A medium die becomes FAILED (R313): its fragments in flight are erasures, its programs are skipped, its resilver bits are
discarded (R164, R314, R318). -/
def State.dieFail (s : State) (d cause : Nat) : State :=
  if (s.die d).st = .failed then s
  else
    let s1 := (s.putDie d { s.die d with st := .failed, cause := cause, erasures := [], current := [], checking := false, filling := none }).raise 0x2009 d cause
    let s1 := if s1.fld Reg.scrResilver 6 0 = d && s1.flag Reg.scrResilver 7 then s1.wr Reg.scrResilver 0 else s1
    let hit (p : Nat) : List Nat := (List.range 9).filter (fun f => fragDie p f == d)
    let endOne (t : State) (p f : Nat) : State :=
      match t.mem.senses.find p with
      | some e => match e.frags[f]? with
        | some x => if x.ended.isNone then t.endFrag p f .failed else t
        | none => t
      | none => t
    let s2 := s1.mem.senses.keys.foldl (fun t p => (hit p).foldl (fun t f => endOne t p f) t) s1
    let skip (g : Program) (p : Nat) : Program :=
      { g with frags := (List.range 9).map (fun f => if fragDie p f = d then some true else (g.frags[f]?).getD none) }
    let s3 : State := { s2 with mem := { s2.mem with programs := s2.mem.programs.map (fun e => (e.1, skip e.2 e.1)) } }
    s3.mem.senses.keys.foldl (fun t p => t.settleSense p) s3

/-- A fragment of a die ended as an erasure: DIE_FAIL of them within 1 s fail the die (R313). -/
def State.dieErasure (s : State) (d : Nat) : State :=
  let x := s.die d
  let l := (x.erasures.filter (fun t => decide (s.now < t + sec 1))) ++ [s.now]
  let s1 := s.putDie d { x with erasures := l }
  if s.fld Reg.scrCfg 43 32 ≤ l.length then s1.dieFail d 2 else s1

/-- RETRY_MAX; 3 acts as 2 (Table 05-15). -/
def State.retryMax (s : State) : Nat := min 2 (s.fld Reg.stkReadCfg 1 0)

/-- What fragment `f` of a read senses when its cells have drifted: the label its epoch cells read, whether it passes its check, the ladder
index n of the first sense, and the decode of the data cells (R131, R137, R146, R158, R159). -/
def State.senseFrag (s : State) (p f : Nat) (e : Sense) (x : FragState) (drift : List Int) : Nat × Bool × Nat × FragOutcome :=
  let codes := slotCodes (e.stripe.img.frag f) e.stripe.label drift
  let r := readLabel x.set.epoch codes
  let n := if x.attempts ≠ 0 then x.index
    else if r.2 then (x.ages.get (fragDie p f * 64 + r.1) { index := 0, early := false, residual := 0, fitTime := 0 }).index
    else s.fld Reg.stkReadCfg 11 8
  (r.1, r.2, n, readSlot (x.set.ladders.getD (senseIndex n x.attempts) 0) codes)

/-- What follows when a sense of a fragment has read its label, whether the epoch check passed, the ladder index and the decoded slot (R158,
R159). -/
def State.fragSensed (s : State) (p f : Nat) (e : Sense) (x : FragState) (label : Nat) (okE : Bool) (n : Nat) (out : FragOutcome) : State :=
  let k := fragStack p f
  let d := fragDie p f
  let s1 := if x.attempts = 0 && !okE then (s.count (Reg.stkCount k 5) 1).raise 0x2008 d label else s
  match out with
  | .decoded c _ => (if 3 ≤ c then (s1.endFrag p f out).count (Reg.stkCount k 12) 1 else s1.endFrag p f out).settleSense p
  | .failed =>
    if x.attempts < s.retryMax then
      let y : FragState := { x with attempts := x.attempts + 1, index := n }
      ({ s1 with mem := { s1.mem with senses := s1.mem.senses.put p { e with frags := e.frags.set f y } } } : State).count
        (Reg.stkCount k (1 + x.attempts)) 1
    else
      let s2 := ((s1.endFrag p f .failed).count (Reg.stkCount k 3) 1).raise 0x2001 d n
      ((s2.repairLine p).settleSense p).dieErasure d

/-- The drift of a slot's 107 cells: 103 data cells, then the four epoch cells; a cell that is not listed has none. -/
def slotDrift (cells epochCells : List Int) : List Int := (List.range 103).map (fun i => cells.getD i 0) ++ epochCells

/-- SENSE_COMPLETE (R158, R159): fragment `f` of physical line `p` returns, its data and epoch cells moved by so much from their fresh centres.
The first sense reads the label and chooses the ladder; a decode that fails leads to a re-sense, or to an erasure after the last. -/
def execSenseComplete (p f : Nat) (cells epochCells : List Int) (s : State) : Result :=
  within (p < 2 ^ 34 && f < 9) <|
    match s.mem.senses.find p with
    | none => s
    | some e => match e.frags[f]? with
      | none => s
      | some x =>
        if x.ended.isSome then s
        else
          let r := s.senseFrag p f e x (slotDrift cells epochCells)
          s.fragSensed p f e x r.1 r.2.1 r.2.2.1 r.2.2.2

/-- ROW_OPEN_TIMEOUT (R159): a slot row that stayed open for 1 µs is released. -/
def execRowOpenTimeout (p f : Nat) (s : State) : Result :=
  within (p < 2 ^ 34 && f < 9) <|
    match s.mem.senses.find p with
    | none => s
    | some e => match e.frags[f]? with
      | none => s
      | some x => match x.rowOpen with
        | none => s
        | some due =>
          if s.due due then
            { s with mem := { s.mem with senses := s.mem.senses.put p { e with frags := e.frags.set f { x with rowOpen := none } } } }
          else s

/-! ### Programs (R139 to R141) -/

/-- A stripe program ends when every fragment has: the stripe stands on the medium; a stripe with a failed fragment stays in the
program buffer until its swatch has moved, unless no spare swatch is left (R141, R206). -/
def State.settleProgram (s : State) (p : Nat) : State :=
  match s.mem.programs.find p with
  | none => s
  | some g =>
    if g.frags.all (·.isSome) && (g.frags.all (· == some true) || 4194304 ≤ s.retired) then
      ({ s with mem := { s.mem with med := s.mem.med.put p g.stripe, programs := s.mem.programs.drop p } } : State).resumeOps
    else s

/-- Spare slot rows left in a bank of a die. -/
def State.spareRowsLeft (s : State) (d bank : Nat) : Nat := (Config.spareRows d bank).toNat - s.mem.spareUsed.get (d * 64 + bank) 0

/-- PULSE_MAX: 0 acts as 1 and 7 as 6 (Table 05-16). -/
def State.pulseMax (s : State) : Nat := max 1 (min 6 (s.fld Reg.stkProgCfg 2 0))

/-- Does a program pass that left these cells outside their windows: no epoch cell, and at most PROG_TOL data cells (R140)? -/
def State.programPasses (s : State) (outside : List Nat) : Bool :=
  outside.all (· < 103) && decide (outside.eraseDups.length ≤ s.fld Reg.stkProgCfg 5 4)

/-- A spare slot row takes the place of a slot row of a bank (R141): the bank's remapping switches, with PROG_FAIL, and RESERVE_LOW as its free
rows fall below 1 %. -/
def State.remapRow (s : State) (d bank row pulses : Nat) : State :=
  let used := s.mem.spareUsed.get (d * 64 + bank) 0
  let s1 := (({ s with mem := { s.mem with remap := s.mem.remap.put ((d * 64 + bank) * 2 ^ 22 + row) used } } : State).count
    (Reg.stkCount (d / 8) 9) 1).raise 0x2004 d pulses
  let n := (Config.spareRows d bank).toNat
  if (n - used) * 100 < n && !decide ((n - (used - 1)) * 100 < n) then s1.raise 0x2005 d 0 else s1

/-- PROGRAM_COMPLETE (R139 to R141): the slot program of fragment `f` ends after `pulses`, with the cells `outside` not inside their verify
windows; one with such a cell has taken every pulse it may. A program that fails takes a spare row: the row's other seven slots are read,
and all eight programmed there, and the remapping switches when that has passed; one that fails there, or finds no spare row, retires the
swatch. A 3-bit program that HOLD_N has stopped does not end (R144). -/
def execProgramComplete (p f : Nat) (outside : List Nat) (pulses : Nat) (s : State) : Result :=
  within (p < 2 ^ 34 && f < 9) <|
    match s.mem.programs.find p with
    | none => s
    | some g =>
      if !g.running f || s.flag (Reg.stkPort (fragStack p f)) 2 then s
      else
        let k := fragStack p f
        let d := fragDie p f
        let bank := lineBank p
        let again := g.retried.contains f
        let slots := if again then 8 else 1
        let taken := if outside.isEmpty then max slots (min (slots * s.pulseMax) pulses) else max (slots * s.pulseMax) 1
        let put (t : State) (g' : Program) : State := { t with mem := { t.mem with programs := t.mem.programs.put p g' } }
        let s1 := (s.count (Reg.stkCount k 6) slots).count (Reg.stkCount k 7) taken
        if s.programPasses outside then
          let s2 := if again then s1.remapRow d bank (lineRow p) taken else s1
          (put s2 { g with frags := g.frags.set f (some true) }).settleProgram p
        else
          let s2 := s1.count (Reg.stkCount k 8) 1
          if again || s2.spareRowsLeft d bank = 0 then
            let s3 := put s2 { g with frags := g.frags.set f (some false) }
            (s3.retireSwatch (p / 512) (if again then 1 else 2)).settleProgram p
          else
            let s3 := (put s2 { g with retried := g.retried ++ [f] }).count (Reg.stkCount k 0) 7
            { s3 with mem := { s3.mem with spareUsed := s3.mem.spareUsed.put (d * 64 + bank) (s3.mem.spareUsed.get (d * 64 + bank) 0 + 1) } }

/-! ### Program epochs (R149, R150) -/

/-- The label after CURRENT. -/
def State.nextLabel (s : State) : Nat := (s.epochLabel + 1) % 64

/-- The advance to the next label starts, or the period is extended while LIVE of that label is set (R150). -/
def State.tryAdvance (s : State) : State :=
  if s.live s.nextLabel then
    let s1 := if s.flag Reg.stkEpoch 6 then s else (s.setFlag Reg.stkEpoch 6).raise 0x2003 0 s.nextLabel
    s1.arm Timer.epochRecheck (sec 1)
  else ({ s with mem := { s.mem with epochAdvance := true } } : State).disarm Timer.epochRecheck

/-- EPOCH_PERIOD_END (R150). -/
def execEpochPeriodEnd (s : State) : Result :=
  .next (if s.ripe Timer.epoch then (s.disarm Timer.epoch).tryAdvance else s)

/-- EPOCH_RECHECK (R150). -/
def execEpochRecheck (s : State) : Result :=
  .next (if s.ripe Timer.epochRecheck then s.tryAdvance else s)

/-- Is a die out of service, so that nothing is read from it or programmed there (R165)? -/
def State.fragless (s : State) (d : Nat) : Bool := (s.die d).st == .failed

/-- A witness group whose program failed (R150): a spare row of the plane's first bank replaces it, or the fit does without the plane (log
entry 165). -/
def State.witnessFail (s : State) (L : Nat) (x : Nat × Nat) : State :=
  let bank := x.1 * 64 + 4 * x.2
  if s.spareRowsLeft x.1 (4 * x.2) = 0 then
    let l := s.mem.noWitness.get (x.1 * 64 + L) []
    { s with mem := { s.mem with noWitness := s.mem.noWitness.put (x.1 * 64 + L) (if l.contains x.2 then l else l ++ [x.2]) } }
  else { s with mem := { s.mem with spareUsed := s.mem.spareUsed.put bank (s.mem.spareUsed.get bank 0 + 1) } }

/-- The witness groups, as (die, plane), whose program failed: any of them may have, which is a free value (R150; log entry 190). -/
def State.witnessBad (s : State) : List (Nat × Nat) :=
  (List.range 72).flatMap (fun d => ((List.range 16).filter (fun k => (Config.freeByte s.free (16 * d + k)).getLsbD 0 && !s.fragless d)).map (fun k => (d, k)))

/-- WITNESS_PROGRAM_DONE (R150 steps 3 to 5): witness groups whose program failed are replaced; the AGE entry of the new label is set on every
die, and CURRENT advances. -/
def execWitnessProgramDone (s : State) : Result :=
  .next (if s.mem.epochAdvance then
      let L := s.nextLabel
      let a (d : Nat) : Age := { index := 0, early := false, residual := 0, fitTime := s.tick32 (Island.stack (d / 8)) }
      let ages := (List.range 72).foldl (fun t d => t.put (d * 64 + L) (a d)) s.mem.ages
      let s1 : State := { s with free := s.free + 1, mem := { s.mem with
        epochAdvance := false, ages := ages, noWitness := s.mem.noWitness.filter (fun e => e.1 % 64 != L) } }
      let s2 := (((s1.saturate Reg.stkEpoch 31 8).setFld Reg.stkEpoch 5 0 L).clrFlag Reg.stkEpoch 6).setFld Reg.stkEpoch 63 32 0
      (s.witnessBad.foldl (fun t x => t.witnessFail L x) s2).arm Timer.epoch (sec (s2.fld Reg.stkEpochCfg 15 0))
    else s)

/-! ### Ladder fits (R155, R156) -/

/-- Cells of a histogram below a reference code, counted at bin edges: the bins that lie wholly below it. -/
def cellsBelow (hist : List Nat) (code : Nat) : Nat := (hist.take (code / 4)).foldl (· + ·) 0

/-- The cost of a ladder against a histogram of `planes` witness groups of 128 cells a level (R155). -/
def ladderCost (planes : Nat) (w : BitVec 56) (hist : List Nat) : Nat :=
  (List.range 7).foldl (fun a k =>
    let b := cellsBelow hist (ladderT w k)
    a + (b - 128 * planes * (k + 1)) + (128 * planes * (k + 1) - b)) 0

/-- The best ladder of a set: ties go to the higher index (R155). -/
def bestLadder (planes : Nat) (ladders : List (BitVec 56)) (hist : List Nat) : Nat × Nat :=
  (List.range 16).foldl (fun b n =>
    let c := ladderCost planes (ladders.getD n 0) hist
    if n = 0 || c ≤ b.2 then (n, c) else b) (0, 0)

/-- The histogram of a witness group as programmed: 128 cells in the bin of each level's fresh centre (R153, R154). -/
def freshHist : List Nat := (List.range 64).map (fun j => if j % 8 = 4 then 128 else 0)

/-- The histogram of a plane's sweep: as read, or as programmed where the sweep shows no drift (log entry 166). -/
def planeHist (sweeps : List Sweep) (d label plane : Nat) : List Nat :=
  match sweeps.find? (fun x => x.die == d && x.label == label && x.plane == plane) with
  | some x => (List.range 64).map (fun j => x.hist.getD j 0)
  | none => freshHist

/-- The sum of histograms of 64 bins. -/
def histSum (planes : List (List Nat)) : List Nat := (List.range 64).map (fun i => planes.foldl (fun a h => a + h.getD i 0) 0)

/-- The BAS window of a stack shows the latest sweep: label, plane, die, whether it failed, and its histogram (Table 05-22). -/
def State.showSweep (s : State) (d label plane : Nat) (fail : Bool) (hist : List Nat) : State :=
  let base := d / 8 * 2 ^ 24
  let bin (i : Nat) : Nat := hist.getD i 0 % 65536
  let bas := (List.range 16).foldl (fun t j =>
    t.set (base + 0xF00100 + 8 * j) (BitVec.ofNat 64 (bin (4 * j) + bin (4 * j + 1) * 2 ^ 16 + bin (4 * j + 2) * 2 ^ 32 + bin (4 * j + 3) * 2 ^ 48)) 0)
    (s.mem.bas.set (base + 0xF00010) (BitVec.ofNat 64 (label + plane * 2 ^ 6 + d % 8 * 2 ^ 10 + 2 ^ 14 + bitAt fail 15)) 0)
  { s with mem := { s.mem with bas := bas } }

/-- One label of one die refitted from the sum of its planes' sweeps (R155, R156). -/
def State.refit (s : State) (sweeps : List Sweep) (d label : Nat) : State :=
  let out := s.mem.noWitness.get (d * 64 + label) []
  let planes := (List.range 16).filter (fun p => !out.contains p)
  let b := bestLadder planes.length (s.die d).set.ladders (histSum (planes.map (planeHist sweeps d label)))
  let bad := decide (s.fld Reg.stkEpochCfg 47 32 < b.2)
  let a : Age := { index := b.1, early := (s.age d label).early || bad, residual := min 65535 b.2, fitTime := s.tick32 (Island.stack (d / 8)) }
  let last := planes.getLast?.getD 0
  let s1 : State := { s with mem := { s.mem with ages := s.mem.ages.put (d * 64 + label) a } }
  let s2 := s1.showSweep d label last false (planeHist sweeps d label last)
  if bad then s2.raise 0x2002 d b.2 else s2

/-- FALLBACK_INDEX, kept at the median index of the labels in use (R158). -/
def State.setFallback (s : State) : State :=
  let idx := (s.mem.ages.filter (fun e => s.live (e.1 % 64))).map (fun e => (e.1, e.2.index))
  match (sortBy (fun a b => a.2 ≤ b.2) idx)[idx.length / 2]? with
  | some e => s.setFld Reg.stkReadCfg 11 8 e.2
  | none => s

/-- The fits of R155 and R157: every label whose LIVE bit is set, on every die in service. -/
def State.refitAll (s : State) (sweeps : List Sweep) : State :=
  let labels := (List.range 64).filter s.live
  let dies := (List.range 72).filter (fun d => !s.fragless d)
  (dies.foldl (fun t d => labels.foldl (fun u L => u.refit sweeps d L) t) s).setFallback

/-- LADDER_REFIT (R155). It waits while placement work pauses (R520). -/
def execLadderRefit (sweeps : List Sweep) (s : State) : Result :=
  .next (if s.fwPaused then s else s.periodic Timer.refit (sec (s.fld Reg.stkEpochCfg 31 24)) fun t => t.refitAll sweeps)

/-! ### Temperature bands (R147) -/

/-- A signed 16-bit field. -/
def signed16 (n : Nat) : Int := if n < 32768 then (n : Int) else (n : Int) - 65536

/-- The band a die moves to from band `b` at an estimate of `t` seventh parts of 1/16 °C: at most one step (R147). -/
def nextBand (b : Nat) (t : Int) : Nat :=
  let limit (i : Nat) : Int := 7 * 16 * (match i with | 1 => 40 | 2 => 60 | _ => 75)
  if b < 3 && decide (limit (b + 1) ≤ t) then b + 1
  else if 0 < b && decide (t ≤ limit b - 7 * 16 * 2) then b - 1
  else b

/-- The stack base loads the ladder set of a die's new band beside the one in force and swaps them (R148). -/
def State.newSet (s : State) (d band : Nat) : State :=
  let x := s.die d
  { s with mem := { s.mem with dies := s.mem.dies.put d { x with set := trimSet d band, spare := x.set } } }

/-- BAND_UPDATE (R147): every 100 µs each die's estimate T_base + (T_top − T_base) × d / 7 moves its band. -/
def execBandUpdate (s : State) : Result :=
  .next (s.periodic Timer.band (us 100) fun s =>
    (List.range 72).foldl (fun t d =>
      let base := signed16 (s.fld (Reg.stkPort (d / 8)) 23 8)
      let top := signed16 (s.fld (Reg.stkPort (d / 8)) 39 24)
      let est := 7 * base + (top - base) * ((d % 8 : Nat) : Int)
      if nextBand (s.band d) est = s.band d then t
      else (t.setFld (Reg.stkDieState (d / 8)) (8 * (d % 8) + 3) (8 * (d % 8) + 2) (nextBand (s.band d) est)).newSet d (nextBand (s.band d) est)) s)

/-! ### Stack-port links (R164) -/

/-- A stack-port link is declared down: its eight dies are FAILED; it is retrained every 1 s. -/
def State.stackDown (s : State) (k : Nat) : State :=
  if s.flag (Reg.stkPort k) 0 then
    let s1 := ((s.clrFlag (Reg.stkPort k) 0).setFlag (Reg.stkPort k) 1).clrFlag Reg.stkStatus k
    let s2 : State := { s1 with mem := { s1.mem with retrain := s1.mem.retrain.put k (s1.now + sec 1), flitReplays := s1.mem.flitReplays.drop k } }
    (List.range 8).foldl (fun t d => t.dieFail (8 * k + d) 1) (s2.raise 0x2007 (8 * k) 0)
  else s

/-- Tiles whose stack-port link returns are audited twice before a job uses them (R235); until then their groups are scored by
fallback. -/
def State.tilesBack (s : State) (k : Nat) : State :=
  let hit (e : Nat × Tile) : Bool := e.1 / 2 ^ 17 == k && e.2.st == .inUse
  let groups := (s.filet.tiles.filter hit).map (fun e => (e.2.matrix, e.2.group))
  let f (m : Nat) (e : Nat × FGroup) : Nat × FGroup := if groups.contains (m, e.1) then (e.1, { e.2 with fallback := true }) else e
  { s with filet := { s.filet with
      tiles := s.filet.tiles.map (fun e => if hit e then (e.1, { e.2 with st := .rejoining, proofs := 2 }) else e)
      matrices := s.filet.matrices.map (fun e => (e.1, { e.2 with groups := e.2.groups.map (f e.1) })) } }

/-- FLIT_CRC_FAIL (R164): the flit is replayed; four consecutive replays of one flit (`same`: the flit that failed last) take the
link down. -/
def execFlitCrcFail (stack : Nat) (same : Bool) (s : State) : Result :=
  within (stack < 9) <|
    let n := (if same then s.mem.flitReplays.get stack 0 else 0) + 1
    let s1 := ({ s with mem := { s.mem with flitReplays := s.mem.flitReplays.put stack n } } : State).count (Reg.stkCount stack 11) 1
    if 4 ≤ n then s1.stackDown stack else s1

/-- STACK_LINK_TRAINING_LOSS (R164). -/
def execStackLinkTrainingLoss (stack : Nat) (s : State) : Result := within (stack < 9) (s.stackDown stack)

/-- STACK_LINK_RETRAIN (R164, R316): a link that is down is retrained every 1 s; when it comes up, the dies it failed start their
die check. -/
def execStackLinkRetrain (stack : Nat) (ok : Bool) (s : State) : Result :=
  within (stack < 9) <|
    match s.mem.retrain.find stack with
    | none => s
    | some due =>
      if s.due due then
        if ok then
          let s1 := (s.setFlag (Reg.stkPort stack) 0).setFlag Reg.stkStatus stack
          let s2 : State := { s1 with mem := { s1.mem with retrain := s1.mem.retrain.drop stack } }
          let s2 := s2.tilesBack stack
          (List.range 8).foldl (fun t d =>
            let x := t.die (8 * stack + d)
            if x.st = .failed && x.cause == 1 then t.putDie (8 * stack + d) { x with checking := true } else t) s2
        else { s with mem := { s.mem with retrain := s.mem.retrain.put stack (s.now + sec 1) } }
      else s

end Sys2Proof.Machine
end

