-- ==== Sys2Proof/Machine/Integrity.lean ====
section
/-!
DEFINITION. Data integrity and fault handling (09): the scrubber, the return and resilver of medium dies.
-/
namespace Sys2Proof.Machine

/-! ### The scrubber (R306 to R309) -/

/-- PASS_PERIOD, ns. -/
def State.passPeriod (s : State) : Nat := sec (60 * s.fld Reg.scrCfg 12 0)

/-- Does a pass visit a physical swatch: MAPPED and not being moved (R195, R306)? -/
def State.scrubbed (s : State) (ps : Nat) : Bool :=
  let e := s.ldg ps
  e.st == .mapped && (s.prk e.lsw).st == .mapped && (s.prk e.lsw).ps == ps

/-- The next physical line of the pass at or after `p`. -/
def State.passNext (s : State) (p : Nat) : Option Nat :=
  let at' (ps : Nat) : Option Nat := if s.scrubbed ps then some (max p (ps * 512)) else none
  ((s.mem.ldg.keys.filter (fun ps => decide (p < (ps + 1) * 512))).filterMap at').head?

/-- Lines of the pass not yet visited (R309). -/
def State.passLeft (s : State) : Nat :=
  (s.mem.ldg.keys.filter s.scrubbed).foldl (fun a ps => a + (min 512 ((ps + 1) * 512 - s.mem.scrubNext))) 0

/-- SCRUB_PASS_START (R306, R309): every PASS_PERIOD a pass starts; BEHIND when the previous one left lines. -/
def execScrubPassStart (s : State) : Result :=
  .next (s.periodic Timer.scrubPass s.passPeriod fun s =>
    let left := s.passLeft
    let s1 := if left = 0 then s.clrFlag Reg.scrStatus 1 else (s.setFlag Reg.scrStatus 1).raise 0x200C s.self (left / 1024)
    { s1 with mem := { s1.mem with scrubNext := 0, passEnd := s1.now + s1.passPeriod, areasDue := true } })

/-- SCRUB_PACE (R309): lines per second, at most SCRUB_MAX % of 109 GB/s. -/
def execScrubPace (s : State) : Result :=
  .next (s.periodic Timer.scrubPace (sec 1) fun s =>
    let left := s.passLeft
    let time := max 1 ((s.mem.passEnd - s.now) / sec 1)
    { s with mem := { s.mem with pace := min (left / time) (s.fld Reg.scrCfg 48 44 * 109000000000 / 100 / 256) } })

/-- A visit to one physical line (R308): skipped when the line is dirty, or its key is not loaded or LOCKED (R429), otherwise read through the read
path; what follows is decided when the read ends. -/
def State.visit (s : State) (p : Nat) : State :=
  let e := s.ldg (p / 512)
  let l := e.lsw * 512 + (p % 512 + 512 - (s.prk e.lsw).rot % 512) % 512
  match s.lineOf l with
  | none => s
  | some ln =>
    let s1 := s.count (Reg.scrCount 0) 1
    if (s1.keySlot (lineKeyId ln)).locked then s
    else if s1.dirtyLine ln then s1.count (Reg.scrCount 4) 1
    else if (s1.lineKeys (lineKeyId ln) (s1.nodeOf ln l).ver).isNone then s1.count (Reg.scrCount 5) 1
    else if s1.mem.programs.has p || decide (2 ≤ (s1.erasedFrags p).length) then s1
    else s1.issueSense ln p .scrub

/-- Does a visit pass over a line, so that its EARLY label keeps it: dirty, its key not loaded, or unreadable for the moment (R308)? -/
def State.skipped (s : State) (p : Nat) : Bool :=
  let e := s.ldg (p / 512)
  match s.lineOf (e.lsw * 512 + (p % 512 + 512 - (s.prk e.lsw).rot % 512) % 512) with
  | none => true
  | some ln => s.dirtyLine ln || (s.keySlot (lineKeyId ln)).locked || (s.lineKeys (lineKeyId ln) (s.nodeOf ln ((s.localLine ln).getD 0)).ver).isNone ||
      s.mem.senses.has p || s.mem.programs.has p || decide (2 ≤ (s.erasedFrags p).length)

/-- The first stripe of a visited swatch whose label is marked EARLY and that a visit does not pass over (R307). -/
def State.earlyLine (s : State) : Option Nat :=
  (s.mem.med.find? (fun e => s.scrubbed (e.1 / 512) && s.early e.2.label && !s.skipped e.1)).map (·.1)

/-- Once in a pass the scrubber reads the table area, the boot copies and the save area (R311): `tables` stripes of the table area had a fragment
erased or corrected by 3 or more bits and are programmed again in 1-bit mode; each of the copies `boot` (0 to 2, on stacks 0, 4 and 8), which
have a stripe beyond recovery, is rewritten from a good one. -/
def State.scrubAreas (s : State) (tables : Nat) (boot : List Nat) : State :=
  let bad := (List.range 3).filter (fun c => boot.contains c || s.fragless (32 * c))
  let s1 := s.count (Reg.scrCount 12) (min tables tableAreaLines)
  { s1 with mem := { s1.mem with areasDue := false, bootBad := if bad.length < 3 then bad.filter (fun c => s.fragless (32 * c)) else bad } }

/-- Stripes of the table area that want to be programmed again, and boot copies with a stripe beyond recovery: what the reads of a pass find there
is a free value (R311; log entry 190). -/
def State.areasRead (s : State) : Nat × List Nat :=
  ((Config.free64 s.free).toNat, (List.range 3).filter (fun c => (Config.freeByte s.free c).getLsbD 0))

/-- SCRUB_VISIT (R307, R308, R311): the repair queue first, then lines of EARLY labels, then the pass: its areas, and its lines in ascending
order. -/
def execScrubVisit (s : State) : Result :=
  .next (match s.bobTake 2 with
    | some (l, s1) =>
      let p := leNat l
      if s1.scrubbed (p / 512) then s1.visit p else s1
    | none => match s.earlyLine with
      | some p => s.visit p
      | none =>
        if s.mem.areasDue then ({ s with free := s.free + 1 } : State).scrubAreas s.areasRead.1 s.areasRead.2
        else match s.passNext s.mem.scrubNext with
        | none => s
        | some p =>
          let s1 : State := ({ s with mem := { s.mem with scrubNext := p + 1 } } : State).visit p
          if (s1.passNext (p + 1)).isNone then s1.saturate Reg.scrStatus 47 16 else s1)

/-! ### Die return and resilver (R316 to R318) -/

/-- What an ACTION of SCR_DIE_CTL does where it applies (R313, R316, R327); `none` where it does not apply. -/
def State.dieCtl (s : State) (d action : Nat) : Option State :=
  if 72 ≤ d then none
  else if action = 1 then (if (s.die d).st = .failed then none else some (s.dieFail d 4))
  else if action = 2 then (if (s.die d).st = .failed then some (s.putDie d { s.die d with checking := true }) else none)
  else none

/-- The die that is resilvered: the lowest REJOINING one, until it is ONLINE (R318). -/
def State.resilverDie (s : State) : Option Nat :=
  let cur := s.fld Reg.scrResilver 6 0
  if s.flag Reg.scrResilver 7 && (s.die cur).st == .rejoining then some cur
  else (List.range 72).find? (fun d => (s.die d).st == .rejoining)

/-- Mapped swatches with fragments on a die that are not current (R317). -/
def State.notCurrent (s : State) (d : Nat) : List Nat :=
  (s.mem.ldg.filter (fun e => (e.2.st == .mapped || e.2.st == .moveDst) && (e.1 + d / 8) % 8 == d % 8 && !(s.die d).current.contains e.1)).map
    (·.1)

/-- DIE_CHECK_DONE (R316): a die that passes becomes REJOINING; one that fails stays FAILED with DIE_REFUSED. The check swept the witness groups
of CURRENT, and found the last of them as the report says. -/
def execDieCheckDone (d : Nat) (check : DieCheck) (s0 : State) : Result :=
  within (d < 72) <|
    let x := s0.die d
    let s := if x.checking && x.st == .failed then s0.showSweep d s0.epochLabel 15 (!check.ok) check.hist else s0
    if x.checking && x.st == .failed then
      if check.ok then
        (s.putDie d { s.die d with st := .rejoining, cause := 0, erasures := [], current := [], checking := false }).raise 0x200A d 0
      else (s.putDie d { x with checking := false }).setFlag Reg.scrStatus 2
    else s

/-- One line of a swatch that is resilvered (R317): rebuilt and installed as a dirty line; without its key its image is
re-programmed as it is; a line that is lost is poisoned. -/
def State.resilverLine (s : State) (bad : List Nat) (lsw i : Nat) : State :=
  let l := lsw * 512 + i
  match s.lineOf l, s.physLine l with
  | some ln, some p =>
    if s.dirtyLine ln then s
    else if bad.contains i then s.poisonLine ln 0
    else if (s.lineKeys (lineKeyId ln) (s.nodeOf ln l).ver).isNone then s.startProgram ln p (s.stripe p ln l).img false
    else match s.openImg ln l (s.stripe p ln l).img with
      | .good d po c =>
        let s1 := s.install ln d 15 po c
        { s1 with mem := { s1.mem with llc := s1.mem.llc.modify ln (fun x => { x with unpaid := true }) } }
      | .metaBad => s.poisonLine ln 0
      | .tagBad => (s.tagFail ln).poisonLine ln 2
  | _, _ => s

/-- Is a line in a LOCKED or disabled way, which eviction does not reach (R332, R334)? -/
def State.pinned (s : State) (ln : Nat) : Bool :=
  match s.mem.llc.find ln with | some l => !s.allocatable (homeSlot ln / 512) l.way | none => false

/-- Has every line of a resilvered swatch been programmed: none is dirty, in the DRAM tier either, or in program (R317)? -/
def State.settledSwatch (s : State) (ps : Nat) : Bool :=
  let e := s.ldg ps
  !(e.st == .mapped || e.st == .moveDst) ||
    ((s.mem.programs.keys.all (fun p => p / 512 != ps)) &&
      (List.range 512).all (fun i => match s.lineOf (e.lsw * 512 + i) with | some ln => !s.dirtyLine ln || s.pinned ln | none => true))

/-- The resilver lets the dirty lines of its swatch leave the LLC; their eviction programs full stripes (R317). -/
def State.pushOut (s : State) (ps : Nat) : State :=
  (List.range 512).foldl (fun t i =>
    match t.lineOf ((s.ldg ps).lsw * 512 + i) with
    | none => t
    | some ln => match t.mem.llc.find ln with
      | some l => if l.dirty != 0 && !t.held ln && !t.pinned ln then t.evictTo ln l else t
      | none => t) s

/-- Once every swatch of a REJOINING die is current, the die is ONLINE (R317). -/
def State.dieOnline (s : State) (d : Nat) : State :=
  if (s.notCurrent d).isEmpty then
    ((s.putDie d { s.die d with st := .online, cause := 0, erasures := [], current := [], checking := false }).raise 0x200B d
      ((s.die d).current.length / 1024)).wr Reg.scrResilver 0
  else s.setFld Reg.scrResilver 63 32 (s.notCurrent d).length

/-- The resilver's swatch is done: its bit is set (R317). -/
def State.swatchCurrent (s : State) (d ps : Nat) : State :=
  let x := s.die d
  (s.putDie d { x with current := if x.current.contains ps then x.current else ps :: x.current, filling := none }).count (Reg.scrCount 6) 1

/-- RESILVER_SWATCH (R317, R318): the die's next swatch is handled. Its lines that are not dirty are rebuilt, `bad` of them beyond recovery, and
installed as dirty lines; they leave the LLC, and once every line of the swatch has been programmed, its bit is set. -/
def execResilverSwatch (bad : List Nat) (s : State) : Result :=
  .next (match s.resilverDie with
    | none => s
    | some d =>
      let s0 := (s.setFld Reg.scrResilver 6 0 d).setFlag Reg.scrResilver 7
      match (s0.die d).filling with
      | some ps =>
        let s1 := s0.pushOut ps
        if s1.settledSwatch ps then (s1.swatchCurrent d ps).dieOnline d else s1
      | none => match s0.notCurrent d with
        | [] => s0.dieOnline d
        | ps :: _ =>
          let t := (List.range 512).foldl (fun (t : State) i => t.resilverLine bad (s0.ldg ps).lsw i) s0
          (t.putDie d { t.die d with filling := some ps }).dieOnline d)

end Sys2Proof.Machine
end

