-- ==== Sys2Proof/Machine/Dram.lean ====
section
/-!
DEFINITION. The DRAM controller (11) and DRAM channel faults (09): bursts and their outcomes, channel probes, erasure and
return, retraining pauses, patrol and the refill after IDLE.
-/
namespace Sys2Proof.Machine

/-- The DRAM address of a burst. -/
def State.targetAddr (s : State) : DramTarget → Nat
  | .tier ln => s.slotAddr ((s.mem.tier.find ln).map (·.slot) |>.getD 0)
  | .other a => a

/-- Channels of a group. -/
def groupChannels (g : Nat) : List Nat := (List.range 5).map (fun i => 5 * g + i)

/-- Is a channel erased? -/
def State.erased (s : State) (ch : Nat) : Bool := s.flag Reg.scrDramStatus ch

/-- The latest outcome other than CLEAN (R375, Table 11-12). -/
def State.errLast (s : State) (kind addr codeword bytes chans : Nat) : State :=
  (s.wr Reg.drcErrLast (BitVec.ofNat 64 (kind + dramGroup addr * 4 + 8 + (min 63 bytes) * 2 ^ 8 + chans * 2 ^ 16 + s.tick32 Island.dram * 2 ^ 32))).wr
    Reg.drcErrAddr (BitVec.ofNat 64 (addr % 2 ^ 36 + codeword * 2 ^ 36))

/-- Corrected bytes of one channel are counted, and CORR_RATE is raised when they pass CORR_LIMIT within 1 s (R375). -/
def State.corrBytes (s : State) (ch n : Nat) : State :=
  let w := s.mem.corrWin.get ch (0, 0)
  let fresh := decide (w.1 + sec 1 ≤ s.now)
  let w' := if fresh then (s.now, n) else (w.1, w.2 + n)
  let lim := s.fld Reg.drcCfg 47 32
  let s1 := ({ s with mem := { s.mem with corrWin := s.mem.corrWin.put ch w' } } : State).count (Reg.drcCount ch) n
  if decide (lim < w'.2) && (fresh || decide (w.2 ≤ lim)) then s1.raise 0x8005 ch w'.2 else s1

/-! ### Group loss, erasure (R319 to R321) -/

/-- Dirty tier lines of a group. -/
def State.dirtyOfGroup (s : State) (g : Nat) : List Nat :=
  (s.mem.tier.filter (fun e => e.2.dirty != 0 && dramGroup (s.slotAddr e.2.slot) == g)).map (·.1)

/-- A channel is marked erased (R319, R320); with a second one of its group the group is lost, its dirty tier lines are poisoned
and the data path closes until the next power cycle (R321). -/
def State.eraseChannel (s : State) (ch : Nat) : State :=
  let g := ch / 5
  if s.erased ch then s
  else
    let other := (groupChannels g).any (fun c => c != ch && s.erased c)
    let s1 := (s.setFlag Reg.scrDramStatus ch).setFlag Reg.scrStatus 3
    if other then
      let s2 := (s1.dirtyOfGroup g).foldl (fun t ln => t.poisonLine ln 0) s1
      ((s2.raise 0x8004 ch 0).clrFlag Reg.glbStatus 2).sendLeave 2
    else
      let s2 := s1.raise 0x8001 ch ch
      s2.cleanTier 0 s2.dirtyTier

/-- A channel that is erased again while it is re-filled: the re-fill restarts (R322). -/
def State.restartRefill (s : State) (ch : Nat) : State :=
  if s.flag Reg.scrDramStatus 10 && s.fld Reg.scrDramStatus 19 16 == ch then
    (s.clrFlag Reg.scrDramStatus 10).setFld Reg.scrDramStatus 63 32 0
  else s

/-- R301 for a DRAM-tier line beyond correction: a clean one is fetched from the medium, a dirty one is poisoned. -/
def State.tierLost (s : State) (ln : Nat) : State :=
  match s.mem.tier.find ln with
  | none => s
  | some t =>
    let s1 : State := { s with mem := { s.mem with
      tier := s.mem.tier.drop ln, dramReads := s.mem.dramReads.filter (fun d => d.line != ln)
      dram := { s.mem.dram with reqs := s.mem.dram.reqs.filter (fun r => r.line != some ln) } } }
    if t.dirty = 0 then match s1.startFill ln .stitch with
      | (.fails st, s2) => (s2.noteFail ln st).resumeOps
      | (_, s2) => s2.resumeOps
    else (s1.noteFail ln .uncorrectable).poisonLine ln 0 |>.resumeOps

/-- A codeword beyond correction stops its group and starts the probe of its five channels (R319). -/
def State.startProbe (s : State) (addr : Nat) : State :=
  ({ s with mem := { s.mem with probing := s.mem.probing.put (dramGroup addr) addr } } : State).count (Reg.drcCount 13) 1

/-- A DRAM-tier read delivers its line (R372): decrypted and checked, it enters the LLC clean; the DRAM-tier copy of a failing
tag is lost with it (R417). A read of the patrol alone delivers nothing. -/
def State.tierDelivered (s : State) (ln : Nat) : State :=
  let s1 : State := { s with mem := { s.mem with dramReads := s.mem.dramReads.filter (fun d => d.line != ln) } }
  if s.mem.dramReads.any (fun d => d.line == ln && d.patrol) then s1
  else match s1.mem.tier.find ln, s1.localLine ln with
  | some t, some l =>
    if (s1.lineKeys (lineKeyId ln) (s1.nodeOf ln l).ver).isNone then (s1.noteFail ln .key).resumeOps
    else match s1.openImg ln l t.img with
      | .good d po c => (s1.fillGood ln d po c).convSettle
      | .metaBad => (s1.fillBad ln .uncorrectable 0).convSettle
      | .tagBad => ((s1.tagFail ln).fillBad ln .integrity 2).convSettle
  | _, _ => s1.resumeOps

/-- What a codeword of a group decodes to (R358, R320; log entry 191): with an erased channel its 32 symbols are erasures, which leaves no check capacity; else
at most 16 wrong bytes of the group's five channels are corrected, and more are beyond correction. -/
def State.codewordEnd (s : State) (g : Nat) (out : BurstOutcome) : BurstOutcome :=
  let gone := (groupChannels g).any s.erased
  match out with
  | .uncorrectable => .uncorrectable
  | .clean => if gone then .erasure else .clean
  | .erasure => if gone then .erasure else .clean
  | .corrected l =>
    let mine := l.filter (fun c => c.1 / 5 == g)
    let n := mine.foldl (fun (a : Nat) c => a + c.2) 0
    if gone then .erasure else if n = 0 then .clean else if n ≤ 16 then .corrected mine else .uncorrectable

/-- DRAM_ACCESS_DONE (R375): a burst that was issued ends; `codeword` is the one that was not clean. A read served from the write queue decodes
nothing (R371). -/
def execDramAccessDone (t : DramTarget) (codeword : Nat) (out : BurstOutcome) (s : State) : Result :=
  .next (
    let addr := s.targetAddr t
    let inFlight := match t with | .tier ln => s.mem.dramReads.any (fun d => d.line == ln && d.issued && !d.bad) | .other _ => true
    let fromQueue := match t with | .tier ln => s.mem.dramReads.any (fun d => d.line == ln && d.fwd) | .other _ => false
    let deliver (x : State) : State := match t with | .tier ln => x.tierDelivered ln | .other _ => x
    if !inFlight || s.mem.probing.has (dramGroup addr) then s
    else match (if fromQueue then .clean else s.codewordEnd (dramGroup addr) out) with
      | .clean => deliver s
      | .corrected l =>
        let s1 := l.foldl (fun x c => x.corrBytes c.1 c.2) s
        let bytes := l.foldl (fun a c => a + c.2) 0
        let chans := l.foldl (fun a c => a ||| 2 ^ c.1) 0
        deliver ((s1.errLast 1 addr codeword bytes chans).count (Reg.drcCount 10) 1)
      | .erasure => deliver ((s.errLast 2 addr codeword 0 0).count (Reg.drcCount 11) 1)
      | .uncorrectable =>
        let s1 := ((s.errLast 3 addr codeword 0 0).count (Reg.drcCount 12) 1).count (Reg.scrCount 8) 1
        let s2 := match t with
          | .tier ln =>
            let mark (d : DramRead) : DramRead := if d.line = ln then { d with bad := true } else d
            { s1 with mem := { s1.mem with dramReads := s1.mem.dramReads.map mark } }
          | .other _ => s1
        s2.startProbe addr)

/-- CHANNEL_PROBE_DONE (R319): with no failing channel, the codeword is treated under R301; a failing channel is erased, and the
held accesses decode with it as an erasure. -/
def execChannelProbeDone (group : Nat) (failed : List Nat) (s : State) : Result :=
  within (group < 2) <|
    match s.mem.probing.find group with
    | none => s
    | some addr =>
      let s1 := ({ s with mem := { s.mem with probing := s.mem.probing.drop group } } : State).serveDram
      let bad := (s1.mem.dramReads.filter (fun d => d.bad && dramGroup (s1.targetAddr (.tier d.line)) == group)).map (·.line)
      match failed.filter (fun c => c / 5 == group) with
      | [] =>
        if bad.isEmpty then s1.raise 0x8003 s.self 0 else bad.foldl (fun x ln => x.tierLost ln) s1
      | chs =>
        let s2 := chs.foldl (fun x c => (x.restartRefill c).eraseChannel c) s1
        if s2.flag Reg.glbStatus 2 then bad.foldl (fun x ln => ((x.errLast 2 addr 0 0 0).count (Reg.drcCount 11) 1).tierDelivered ln) s2
        else bad.foldl (fun x ln => x.tierLost ln) s2

/-- What an ACTION of SCR_DRAM_CTL does where it applies (R322, R327); `none` where it does not apply. -/
def State.dramCtl (s : State) (ch action : Nat) : Option State :=
  if 10 ≤ ch then none
  else if action = 1 then
    if s.erased ch || (groupChannels (ch / 5)).any s.erased then none else some (s.eraseChannel ch)
  else if action = 2 then
    if s.erased ch then
      some { s with mem := { s.mem with wantReturn := if s.mem.wantReturn.contains ch then s.mem.wantReturn else s.mem.wantReturn ++ [ch] } }
    else none
  else none

/-- REFILL_DONE (R322): the refill pointer has passed the last codeword; the channel is back. -/
def execRefillDone (s : State) : Result :=
  .next (if s.flag Reg.scrDramStatus 10 then
      let ch := s.fld Reg.scrDramStatus 19 16
      let s1 := (((s.clrFlag Reg.scrDramStatus 10).setFld Reg.scrDramStatus 63 32 0).clrFlag Reg.scrDramStatus ch).raise 0x8002 ch ch
      let s2 : State := { s1 with mem := { s1.mem with wantReturn := s1.mem.wantReturn.filter (· != ch) } }
      if s2.fld Reg.scrDramStatus 9 0 = 0 then s2.clrFlag Reg.scrStatus 3 else s2
    else s)

/-- MiB of data in one lockstep group. -/
def State.groupMib (s : State) : Nat := if s.flag Reg.drcStatus 3 then 32768 else 16384

/-- The re-fill of an erased channel starts, when return is enabled and none runs (R322). -/
def State.tryReturn (s : State) (ch : Nat) : State :=
  if s.erased ch && !s.flag Reg.scrDramStatus 10 && (s.flag Reg.scrCfg 49 || s.mem.wantReturn.contains ch) then
    ((s.setFlag Reg.scrDramStatus 10).setFld Reg.scrDramStatus 19 16 ch).setFld Reg.scrDramStatus 63 32 s.groupMib
  else s

/-- One channel at a retraining pause: `ok` says that it did not fail its retraining (R322, R367). -/
def State.trained (s : State) (ch : Nat) (ok : Bool) : State :=
  let n := if ok then 0 else s.mem.trainFails.get ch 0 + 1
  let s1 : State := { s with mem := { s.mem with trainFails := s.mem.trainFails.set ch n 0 } }
  if ok then s1.tryReturn ch
  else if n = 2 && !s1.erased ch then ((s1.restartRefill ch).eraseChannel ch).raise 0x8006 ch 0
  else s1

/-- Does a read that a group was issued still run? A pause waits for it (R366). -/
def State.groupReads (s : State) (g : Nat) : Bool :=
  s.mem.dramReads.any (fun d => d.issued && !d.fwd && dramGroup (s.targetAddr (.tier d.line)) == g)

/-- DRAM_PAUSE (R366, R367): a group's retraining pause every 64 ms; `retrained` channels had drifted, `failed` ones failed. It waits for the
accesses already issued. -/
def execDramPause (group : Nat) (retrained failed : List Nat) (s : State) : Result :=
  within (group < 2) <|
    if s.groupReads group then s
    else s.periodic (Timer.pause group) (ms 64) fun s =>
      let s1 := ((s.pauseGroup group).count (Reg.drcCount 14) 1).count (Reg.drcCount 15) (retrained.filter (fun c => c / 5 == group)).length
      (groupChannels group).foldl (fun t c => t.trained c (!failed.contains c)) s1

/-- The patrol finds a codeword of a tier line beyond correction: its group stops for the probe (R312, R319). -/
def State.patrolBad (s : State) (ln : Nat) : State :=
  let addr := s.targetAddr (.tier ln)
  if !s.mem.tier.has ln then s
  else
    let mark (d : DramRead) : DramRead := if d.line = ln then { d with bad := true, issued := true } else d
    let reads := if s.mem.dramReads.any (fun d => d.line == ln) then s.mem.dramReads.map mark
      else s.mem.dramReads ++ [{ line := ln, bad := true, issued := true, fwd := false, patrol := true }]
    let s1 := (({ s with mem := { s.mem with dramReads := reads } } : State).errLast 3 addr 0 0 0).count (Reg.scrCount 8) 1
    if s1.mem.probing.has (dramGroup addr) then s1 else s1.startProbe addr

/-- DRAM_PATROL (R312): every DRAM_PATROL minutes every codeword is read; `corrected` of them are written back, those of the lines
`bad` are beyond correction and lead to the probe of their groups. -/
def execDramPatrol (corrected : Nat) (bad : List Nat) (s : State) : Result :=
  .next (s.periodic Timer.patrol (sec (60 * s.fld Reg.scrCfg 31 24)) fun s =>
    let s1 := (s.count (Reg.drcBytes 6) (s.groupMib * 8192)).count (Reg.scrCount 7) corrected
    bad.foldl State.patrolBad s1)

/-- IDLE_FILL_DONE (R373): the refill of segments 1 to 7 ends, and the DRAM tier is usable. -/
def execIdleFillDone (s : State) : Result := .next (if s.flag Reg.drcStatus 2 then s.clrFlag Reg.drcStatus 2 else s)

end Sys2Proof.Machine
end

