-- ==== Sys2Proof/Machine/Ways.lean ====
section
/-!
DEFINITION. Ways of the LLC: power-down, disabling, locking, and the maintenance unit (R333 to R337, R349, R355).
-/
namespace Sys2Proof.Machine

/-- The state with a way changed. -/
def State.putWay (s : State) (slice w : Nat) (x : Way) : State :=
  { s with mem := { s.mem with ways := s.mem.ways.set (slice * 16 + w) x { st := .on, locked := false, why := 0, testing := false } } }

/-- Lines of the LLC in one way of a slice. -/
def State.wayLines (s : State) (slice w : Nat) : List (Nat × LlcLine) :=
  s.mem.llc.filter (fun e => homeSlice e.1 == slice && e.2.way == w)

/-- A way enters CLEANING (Table 10-2): its dirty lines go to the eviction buffer, its other lines are invalidated. `why` is 0
to power it down, else the value of WAY_DISABLED. -/
def State.cleanWay (s : State) (slice w why : Nat) : State :=
  let s1 := s.putWay slice w { s.way slice w with st := .cleaning, why := why, locked := false }
  (s1.wayLines slice w).foldl (fun t e =>
    if (t.recalled e.1 e.2).dirty = 0 then
      let t1 := t.dropAgents e.1 e.2.dir
      { t1 with mem := { t1.mem with llc := t1.mem.llc.drop e.1 } }
    else t.evictTo e.1 e.2) s1

/-- WAYS_OFF of LLC_CFG. -/
def State.waysOff (s : State) : Nat := s.fld Reg.llcCfg 3 0

/-- Ways of a slice in a state. -/
def State.waysIn (s : State) (slice : Nat) (st : WaySt) : List Nat := (List.range 16).filter (fun w => (s.way slice w).st == st)

/-- A slice follows WAYS_OFF: it starts to clean the highest-numbered ON way that is not LOCKED, one way at a time, or takes OFF
ways back as JOINING (R334, R335). -/
def State.followWays (s : State) (slice : Nat) : State :=
  let going := (s.waysIn slice .cleaning).filter (fun w => (s.way slice w).why == 0)
  let off := s.waysIn slice .off
  if off.length + going.length < s.waysOff then
    if going.isEmpty then
      match ((s.waysIn slice .on).filter (fun w => !(s.way slice w).locked)).getLast? with
      | some w => s.cleanWay slice w 0
      | none => s
    else s
  else
    (off.take (off.length + going.length - s.waysOff)).foldl (fun t w =>
      (t.putWay slice w { t.way slice w with st := .joining }).setFlag Reg.llcStatus 2) s

/-- The effect of an accepted value of LLC_CFG; a value of WAYS_OFF above 12 is ignored (R355). -/
def State.llcCfgEffect (s : State) (v : Word) : State :=
  if 12 < v.field 3 0 then s.setFlag Reg.llcStatus 0
  else (List.range 32).foldl (fun t sl => t.followWays sl) (s.setFld Reg.llcCfg 3 0 (v.field 3 0))

/-- Sets or clears the bit of a way in LLC_WAY_DIS, which the keep holds (R336): journaled with interface DEVICE, and its page queued
(R461). -/
def State.wayDis (s : State) (slice w : Nat) (on : Bool) : State :=
  let off := Reg.llcWayDis (slice / 4)
  let s1 := s.putFlag off (16 * (slice % 4) + w) on
  if s1.rd off = s.rd off then s
  else
    let s2 := s1.jAlways (s1.jEntry { iface := 5 } false off .ok (leBytes 8 (s.rd off).toNat) (leBytes 8 (s1.rd off).toNat))
    { s2 with kept := { s2.kept with queue := s2.kept.queue ++ [.regPage off (s2.rd off) 0] } }

/-- WAY_CLEAN_DONE (R334): once no dirty line of the way is left in the eviction buffer, the way is powered down or DISABLED. -/
def execWayCleanDone (slice w : Nat) (s : State) : Result :=
  within (slice < 32 && w < 16) <|
    let x := s.way slice w
    if x.st = .cleaning && !s.mem.evb.any (fun e => homeSlice e.1 == slice && e.2.way == w && e.2.dirty != 0) then
      (s.putWay slice w { x with st := if x.why = 0 then .off else .disabled, why := 0 }).followWays slice
    else s

/-- WAY_JOIN_DONE (R335): the barrier completes and the way takes allocations. -/
def execWayJoinDone (slice w : Nat) (s : State) : Result :=
  within (slice < 32 && w < 16) <|
    let x := s.way slice w
    if x.st = .joining then
      let s1 := (s.putWay slice w { x with st := .on }).count (Reg.llcCount 9) 1
      if s1.mem.ways.values.any (fun y => y.st == .joining) then s1 else s1.clrFlag Reg.llcStatus 2
    else s

/-- WAY_TEST_DONE (R336): a way that passes its pattern test goes JOINING, one that fails stays DISABLED with RETURN_REFUSED. -/
def execWayTestDone (slice w : Nat) (ok : Bool) (s : State) : Result :=
  within (slice < 32 && w < 16) <|
    let x := s.way slice w
    if x.testing then
      if ok then ((s.putWay slice w { x with st := .joining, testing := false }).wayDis slice w false).setFlag Reg.llcStatus 2
      else (s.putWay slice w { x with testing := false }).setFlag Reg.llcStatus 1
    else s

/-- The lock of a way moves to another ON way of its slice, and its lines with it; the other way's lines are evicted (R336).
`none`: the slice has no such way. -/
def State.moveLock (s : State) (slice w : Nat) : Option State :=
  ((s.waysIn slice .on).find? (fun v => v != w && !(s.way slice v).locked)).map (fun v =>
    let s1 := (s.wayLines slice v).foldl (fun t e => t.evictTo e.1 e.2) s
    let s2 := (s1.wayLines slice w).foldl (fun t e => { t with mem := { t.mem with llc := t.mem.llc.put e.1 { e.2 with way := v } } }) s1
    (s2.putWay slice v { s2.way slice v with locked := true }).putWay slice w { s2.way slice w with locked := false })

/-- A way is cleaned to be DISABLED, unless its slice would keep fewer than 4 ways that are ON or LOCKED (R336). -/
def State.disableWay (s : State) (slice w why : Nat) : State :=
  let floor := s.raise 0x7002 (slice * 16 + w) 0
  if (s.waysIn slice .on).length ≤ 4 then floor
  else
    let go (t : State) : State := ((t.cleanWay slice w why).wayDis slice w true).raise 0x7001 (slice * 16 + w) why
    if (s.way slice w).locked then match s.moveLock slice w with
      | some t => go t
      | none => floor
    else go s

/-- The effect of LLC_WAY_CTL (Table 10-10): LOCK, UNLOCK, RETURN, DISABLE; `none` where the action does not apply and is ignored. -/
def State.wayCtl (s : State) (v : Word) : Option State :=
  let slice := v.field 4 0
  let w := v.field 11 8
  let x := s.way slice w
  match v.field 14 12 with
  | 1 =>
    if x.st = .on && !x.locked then
      some (if 4 ≤ ((List.range 16).filter (fun y => (s.way slice y).locked)).length then s.raise 0x7005 s.self 0
        else s.putWay slice w { x with locked := true })
    else none
  | 2 => if x.locked then some (s.putWay slice w { x with locked := false }) else none
  | 3 => if x.st = .disabled then some (s.putWay slice w { x with testing := true }) else none
  | 4 => if x.st = .on then some (s.disableWay slice w 3) else none
  | _ => none

/-! ### Maintenance (R349) -/

/-- Does a line lie in the range of a maintenance operation? -/
def Maint.covers (m : Maint) (ln : Nat) : Bool :=
  lineKeyId ln == m.addr / 2 ^ 56 && decide (m.addr % 2 ^ 56 / 256 ≤ lineNo ln) && decide (lineNo ln < m.addr % 2 ^ 56 / 256 + m.size / 256)

/-- Lines of the LLC and its eviction buffers in the range. -/
def State.maintLines (s : State) (m : Maint) : List Nat := (s.mem.llc.keys ++ s.mem.evb.keys).filter m.covers

/-- Writes the dirty data of a resident line, that of an owner's copy first, to the tier below; the line stays, and agents keep it in S. The Bool says
whether it is clean now. -/
def State.cleanLine (s : State) (ln : Nat) : Bool × State :=
  match (s.resident ln).map (s.recalled ln) with
  | none => (true, s)
  | some c =>
    if c.dirty = 0 then (true, s)
    else
      let mark (t : State) : State := { t with mem := { t.mem with
        agents := t.mem.agents.map (fun e => if e.1 % 2 ^ 56 = ln then (e.1, { e.2 with st := .s }) else e)
        llc := t.mem.llc.modify ln (fun x => { x with data := c.data, dirty := 0, unpaid := false, dir := x.dir.map (fun a => (a.1, .s)) })
        evb := t.mem.evb.modify ln (fun x => { x with dirty := 0, unpaid := false }) } }
      match s.localLine ln with
      | none => if lineKeyId ln = 255 then
          (true, mark { s with mem := { s.mem with intern := s.mem.intern.set (lineNo ln) c.data 0 } })
        else (true, mark s)
      | some l =>
        let r := s.placeDirty ln l c
        if r.1 then (true, mark r.2) else (false, r.2)

/-- Invalidates a line in the LLC and in every agent cache. -/
def State.invalidate (s : State) (ln : Nat) : State :=
  let d := match s.mem.llc.find ln with | some l => l.dir | none => []
  let s1 := s.dropAgents ln d
  { s1 with mem := { s1.mem with llc := s1.mem.llc.drop ln, evb := s1.mem.evb.drop ln } }

/-- A free slot of a LOCKED way in the set of a line (R337). -/
def State.lockedSlot (s : State) (ln : Nat) : Option Nat :=
  let slice := homeSlice ln
  let used := s.setLines (homeSlot ln)
  (List.range 16).find? (fun w => (s.way slice w).locked && !used.any (fun e => e.2.way == w))

/-- Is a line in a LOCKED way? -/
def State.inLocked (s : State) (ln : Nat) : Bool :=
  match s.mem.llc.find ln with
  | some l => (s.way (homeSlice ln) l.way).locked
  | none => false

/-- LOCK_FILL from line `ln` on, `n` lines: each resident line takes a free locked slot; a line that is not there is fetched; a set
without a free slot stops the operation (R337). `some false` in the first place says that it stopped, `some true` that it is
complete, `none` that lines are awaited. -/
def State.lockFill (s : State) (ln : Nat) : Nat → Option Bool × State
  | 0 => (some true, s)
  | n + 1 =>
    if s.inLocked ln then State.lockFill s (ln + 1) n
    else match s.lockedSlot ln with
      | none => (some false, s)
      | some w =>
        let s1 := if s.filling ln then s else (s.startFill ln .maint).2
        match s1.resident ln with
        | none => (none, s1)
        | some l =>
          let l' : LlcLine := { l with way := w }
          let s2 : State := { s1 with mem := { s1.mem with llc := s1.mem.llc.put ln l', evb := s1.mem.evb.drop ln } }
          State.lockFill (s2.count (Reg.llcCount 8) 1) (ln + 1) n

/-- One go at the maintenance operation in progress: what it can do now is done. `some refused` says that it is complete. -/
def State.maintGo (s : State) (m : Maint) : Option Bool × State :=
  match m.op with
  | 3 => (some false, (s.maintLines m).foldl (fun t ln => t.invalidate ln) s)
  | 4 =>
    let r := s.lockFill (lineKey m.addr) (min (m.size / 256) 65536)
    (r.1.map (!·), r.2)
  | op =>
    let r := (s.maintLines m).foldl (fun (a : Bool × State) ln =>
      let c := a.2.cleanLine ln
      (a.1 && c.1, if c.1 && op == 2 then c.2.invalidate ln else c.2)) (true, s)
    if r.1 && !s.mem.senses.any (fun e => m.covers e.2.line) && !s.mem.dramReads.any (fun d => m.covers d.line) then (some false, r.2)
    else (none, r.2)

/-- Lines of the range still to handle, for LLC_MAINT_STATUS. -/
def State.maintLeft (s : State) (m : Maint) : Nat :=
  match m.op with
  | 4 => ((List.range (min (m.size / 256) 65536)).filter (fun i => !s.inLocked (lineKey m.addr + i))).length
  | _ => ((s.maintLines m).filter (fun ln => s.dirtyLine ln)).length

/-- The effect of LLC_MAINT_CTL (R349): an operation starts; `none`: one started while BUSY, or reserved, is ignored; and a DISCARD of a user range is
refused. -/
def State.maintCtl (s : State) (firmware : Bool) (v : Word) : Option State :=
  let op := v.field 2 0
  let addr := (s.rd Reg.llcMaintAddr).toNat / 256 * 256
  let m : Maint := { op := op, addr := addr, size := s.fld Reg.llcMaintSize 55 0 }
  if s.mem.maint.isSome || op = 0 || 5 ≤ op then none
  else if op = 3 && addr / 2 ^ 56 ≠ 255 && !firmware then some (s.setFlag Reg.llcMaintStatus 2)
  else
    let s1 := ({ s with mem := { s.mem with maint := some m } } : State).setFlag Reg.llcMaintStatus 0
    let s2 := (s1.maintGo m).2
    some (s2.setFld Reg.llcMaintStatus 63 32 (s2.maintLeft m))

/-- MAINT_DONE (R349): the operation goes on with what is left; when nothing is, it completes with DONE. A LOCK_FILL that met a
full set is REFUSED (R337). -/
def execMaintDone (s : State) : Result :=
  .next (match s.mem.maint with
    | none => s
    | some m =>
      let r := s.maintGo m
      let s1 := r.2.setFld Reg.llcMaintStatus 63 32 (r.2.maintLeft m)
      match r.1 with
      | none => s1
      | some refused =>
        let s2 := (({ s1 with mem := { s1.mem with maint := none } } : State).clrFlag Reg.llcMaintStatus 0).setFlag Reg.llcMaintStatus 1
        if refused then (s2.setFlag Reg.llcMaintStatus 2).raise 0x7005 s2.self 0 else s2)

end Sys2Proof.Machine
end

