-- ==== Sys2Proof/Machine/Coherence.lean ====
section
/-!
DEFINITION. The coherent domain (R338 to R353): requests to a home, snoops and their answers, write-backs, write hints, failure,
salvage and restart.
-/
namespace Sys2Proof.Machine

/-- Key of an agent's copy of a line. -/
def agentKey (agent ln : Nat) : Nat := agent * 2 ^ 56 + ln

/-- An agent's copy of a line. -/
def State.copyOf (s : State) (agent ln : Nat) : Option AgentLine := s.mem.agents.find (agentKey agent ln)

/-- May an agent hold a line in E, M or O: HKP cores and the integrity engine, for internal lines (Table 10-3)? -/
def mayOwn (agent ln : Nat) : Bool := ((8 ≤ agent && agent ≤ 11) || agent == 22) && lineKeyId ln == 255

/-- Lines an agent's cache holds (Table 10-3). -/
def agentLines (agent : Nat) : Nat :=
  if agent ≤ 7 then 256 else if agent ≤ 11 then 128 else if agent ≤ 20 then 256 else if agent = 21 then 512
  else if agent = 22 then 16384 else if agent = 23 then 256 else 0

/-- A message enters the net. -/
def State.send (s : State) (m : CohMsg) : State := { s with mem := { s.mem with net := s.mem.net ++ [m] } }

/-- Is a message an SNP_SHARE to an agent about a line? -/
def CohMsg.isSnpShare (agent line : Nat) (m : CohMsg) : Bool :=
  match m with | .snpShare a x _ => a == agent && x == line | _ => false
/-- Is a message an SNP_OWN to an agent about a line? -/
def CohMsg.isSnpOwn (agent line : Nat) (m : CohMsg) : Bool :=
  match m with | .snpOwn a x _ => a == agent && x == line | _ => false
/-- Is a message an SNP_INV to an agent about a line? -/
def CohMsg.isSnpInv (agent line : Nat) (m : CohMsg) : Bool :=
  match m with | .snpInv a x => a == agent && x == line | _ => false
/-- Is a message a FWD_DATA to an agent about a line? -/
def CohMsg.isFwdData (agent line : Nat) (m : CohMsg) : Bool :=
  match m with | .fwdData a x _ _ _ => a == agent && x == line | _ => false
/-- Is a message a GRANT to an agent about a line? -/
def CohMsg.isGrant (agent line : Nat) (m : CohMsg) : Bool :=
  match m with | .grant a x _ _ _ => a == agent && x == line | _ => false
/-- Is a message an ACK from an agent about a line? -/
def CohMsg.isAck (agent line : Nat) (m : CohMsg) : Bool :=
  match m with | .ack a x _ _ => a == agent && x == line | _ => false
/-- Is a message an EVICTING from an agent about a line? -/
def CohMsg.isEvicting (agent line : Nat) (m : CohMsg) : Bool :=
  match m with | .evicting a x => a == agent && x == line | _ => false
/-- Is a message a PUSH to an agent about a line? -/
def CohMsg.isPush (agent line : Nat) (m : CohMsg) : Bool :=
  match m with | .push a x _ _ => a == agent && x == line | _ => false

/-- Takes the first message that `p` names out of the net. -/
def State.take (s : State) (p : CohMsg → Bool) : Option (CohMsg × State) :=
  (s.mem.net.find? p).map (fun m => (m, { s with mem := { s.mem with net := s.mem.net.erase m } }))

/-- The state with the home's copy of a line changed, in its way or in the eviction buffer (R331). -/
def State.modLlc (s : State) (ln : Nat) (f : LlcLine → LlcLine) : State :=
  if s.mem.llc.has ln then { s with mem := { s.mem with llc := s.mem.llc.modify ln f } }
  else { s with mem := { s.mem with evb := s.mem.evb.modify ln f } }

/-- The state with an agent's copy of a line. -/
def State.putCopy (s : State) (agent ln : Nat) (c : Option AgentLine) : State :=
  { s with mem := { s.mem with agents := match c with
      | some x => s.mem.agents.put (agentKey agent ln) x
      | none => s.mem.agents.drop (agentKey agent ln) } }

/-! ### Failure of the domain (R350, R351) -/

/-- The HKP restarts: the firmware serves nothing until it runs again, bobbins enter RECOVERY, and the ROM has a slot to load (R389,
R433, R519). -/
def State.hkpDown (s : State) : State :=
  let s1 := (s.clrFlag Reg.glbStatus 1).bobEnter 3
  { s1 with boot := { s1.boot with loading := true, swap := none, bootOkDue := none } }

/-- The coherent domain fails: agents halt, every stitch in flight ends with UNAVAILABLE, LEAVE goes out on every lace link, and
the salvage walker runs (R351 steps 1 to 3). -/
def State.domainFail (s : State) (cause agent : Nat) : State :=
  if s.fld Reg.cohStatus 1 0 ≠ 0 then s
  else
    let again := match s.mem.domUp with | some t => decide (s.now < t + sec 60) | none => false
    let s1 := (((s.saturate Reg.cohStatus 15 8).setFld Reg.cohStatus 18 16 cause).setFld Reg.cohStatus 28 24 agent).setFld
      Reg.cohStatus 63 32 (s.tick32 (Island.llc 0))
    let s2 := ((s1.setFld Reg.cohStatus 1 0 2).count (Reg.cohCount 8) 1).raise 0x7003 s.self cause
    let stop (o : Op) : Op := match o.phase with | .done _ => o | _ => { o with phase := .done (o.st.refusal .unavailable) }
    let s3 : State := { s2 with
      host := { s2.host with ops := s2.host.ops.map (fun e => (e.1, stop e.2)) }
      filet := { s2.filet with jobs := s2.filet.jobs.map (fun e =>
        if e.2.st ≤ 1 then (e.1, { e.2 with st := 2, status := .unavailable, result := [], todo := [], subs := [], ended := s2.now }) else e) }
      mem := { s2.mem with domFailAt := s2.now, domSecond := again, txns := [], net := [] } }
    (s3.sendLeave 3).hkpDown

/-- A message that the protocol does not allow fails the domain with PROTOCOL (R350). -/
def State.protocol (s : State) (agent : Nat) : State := s.domainFail 4 agent

/-- Is the domain in service? -/
def State.domainIsUp (s : State) : Bool := s.fld Reg.cohStatus 1 0 == 0

/-- SNOOP_TIMEOUT, ns. -/
def State.snoopTimeout (s : State) : Nat := us (s.fld Reg.cohCfg 6 0)

/-! ### Serving a request at the home (R342, Table 10-6) -/

/-- The owner in E, M or O of a line, if an agent is. -/
def LlcLine.owner (l : LlcLine) : Option Nat := (l.dir.find? (fun a => a.2 != .s)).map (·.1)

/-- The directory with an agent's entry set. -/
def dirSet (d : List (Nat × CohSt)) (agent : Nat) (st : CohSt) : List (Nat × CohSt) := (d.filter (fun a => a.1 != agent)) ++ [(agent, st)]

/-- Opens a transaction that awaits snoop answers from agents (R342, R350). -/
def State.openTxn (s : State) (ln agent : Nat) (r : CohReq) (await : List Nat) (forward : Bool) : State :=
  let t : CohTxn := { agent := agent, req := r, await := await, due := s.now + s.snoopTimeout, forward := forward }
  ({ s with mem := { s.mem with txns := s.mem.txns.put ln t } } : State).count (Reg.cohCount 0) await.length

/-- The home grants a line to an agent, from the LLC (`data`) or without data. -/
def State.grantLine (s : State) (ln agent : Nat) (st : CohSt) (l : LlcLine) (data : Bool) : State :=
  (s.modLlc ln (fun x => { x with dir := dirSet x.dir agent st })).send
    (.grant agent ln st (if data then some l.data else none) l.poison)

/-- Sectors of a mask as byte writes: the line with the masked sectors taken from `d`. -/
def mergeSectors (old d : LineBits) (mask : BitVec 4) : LineBits :=
  (List.range 4).foldl (fun a i =>
    if mask.getLsbD i then
      let m : LineBits := (BitVec.ofNat 2048 (2 ^ 512 - 1)) <<< (512 * i)
      (a &&& ~~~m) ||| (d &&& m)
    else a) old

/-- The home's own write of sectors of a resident line (R343): VALID and DIRTY; sectors written whole lose DATA and SAVE poison, a
whole line loses all. -/
def State.homeSectors (s : State) (ln : Nat) (mask : BitVec 4) (d : LineBits) : State :=
  s.modLlc ln (fun l =>
    let p := if mask = 15 then 0 else if 2 ≤ l.cause then l.poison else l.poison &&& ~~~mask
    { l with data := mergeSectors l.data d mask, valid := 15, dirty := l.dirty ||| mask, poison := p, unpaid := false,
             cause := if p = 0 then 0 else l.cause })

/-- The home executes WR, ATOM or WHINT once it holds the only copy (R343 to R345). -/
def State.homeExec (s : State) (ln : Nat) (r : CohReq) : State :=
  match s.resident ln with
  | none => s
  | some l => match r with
    | .wr mask d => s.homeSectors ln mask d
    | .atom f off len operand cmp =>
      if l.poison ≠ 0 then s
      else
        let old := leNat ((List.range len).map (fun i => lineByte l.data (off + i)))
        let v := if f = 2 then (if old = cmp then some operand else none) else some (atomicValue f len old operand)
        let s1 := s.count (Reg.cohCount 6) 1
        match v with
        | some x => s1.homeSectors ln (touchedSectors off (off + len)) (storeBytes l.data off (leBytes len x))
        | none => s1
    | .whint mask d target =>
      let s1 := (s.homeSectors ln mask d).count (Reg.cohCount 4) 1
      match target, s1.resident ln with
      | some t, some l' =>
        if mayOwn t ln then s1.send (.push t ln l'.data l'.poison)
        else if lineKeyId ln = 255 then s1 else s1.count (Reg.cohCount 5) 1
      | _, _ => s1
    | _ => s

/-- An internal line, or a user line that can be had at once, is in the LLC; `none` where a user line must be filled first. -/
def State.present (s : State) (ln : Nat) : Option State :=
  if (s.mem.llc.find ln).isSome then some s
  else match s.mem.evb.find ln with
    | some l => some (s.install ln l.data l.dirty l.poison l.cause)
    | none =>
      if lineKeyId ln = 255 then some (s.install ln (s.mem.intern.get (lineNo ln) 0) 0 0 0)
      else if s.filling ln then none
      else match s.startFill ln .stitch with
        | (.ready, t) => some t
        | (_, _) => none

/-- The home serves a request on a line without an open transaction (Table 10-6). -/
def State.serve (s : State) (ln agent : Nat) (r : CohReq) : State :=
  match s.resident ln with
  | none => s
  | some l =>
    let others := (l.dir.filter (fun a => a.1 != agent)).map (·.1)
    let invAll (t : State) (who : List Nat) : State :=
      who.foldl (fun x a => x.send (.snpInv a ln)) (t.openTxn ln agent r who false)
    match r with
    | .rdShared => match l.owner with
      | some o => if o = agent then s.protocol agent else (s.openTxn ln agent r [o] true).send (.snpShare o ln agent)
      | none => s.grantLine ln agent (if l.dir.isEmpty && mayOwn agent ln then .e else .s) l true
    | .rdOwn | .ownNoData => match l.owner with
      | some o => if o = agent then s.protocol agent else (s.openTxn ln agent r [o] true).send (.snpOwn o ln agent)
      | none => if others.isEmpty then s.grantLine ln agent .e l (r == .rdOwn) else invAll s others
    | .upgrade =>
      if l.dir.contains (agent, .s) && l.owner.isNone then
        if others.isEmpty then s.grantLine ln agent .e l false else invAll s others
      else
        let s1 := s.count (Reg.cohCount 7) 1
        match l.owner with
        | some o => if o = agent then s1.protocol agent else (s1.openTxn ln agent .rdOwn [o] true).send (.snpOwn o ln agent)
        | none => if others.isEmpty then s1.grantLine ln agent .e l true
          else others.foldl (fun x a => x.send (.snpInv a ln)) (s1.openTxn ln agent .rdOwn others false)
    | _ => if l.dir.isEmpty then s.homeExec ln r else invAll s (l.dir.map (·.1))

/-- A request reaches the home: it is served, or waits for the transaction open on the line or for the line's fill (R342). -/
def State.request (s : State) (ln agent : Nat) (r : CohReq) : State :=
  if s.mem.txns.has ln || s.mem.net.any (fun m => match m with | .req _ x _ => x == ln | _ => false) then s.send (.req agent ln r)
  else match s.present ln with
    | some t => t.serve ln agent r
    | none => (if s.filling ln then s else (s.startFill ln .stitch).2).send (.req agent ln r)

/-- Requests that wait for a line are served in order while the line is present and no transaction is open on it. -/
def State.pump (s : State) (ln : Nat) : Nat → State
  | 0 => s
  | fuel + 1 =>
    if s.mem.txns.has ln then s
    else match s.present ln with
      | none => s
      | some t => match t.take (fun m => match m with | .req _ x _ => x == ln | _ => false) with
        | some (.req a _ r, u) => State.pump (u.serve ln a r) ln fuel
        | _ => s

/-- Serves what waits on a line. -/
def State.pumpAll (s : State) (ln : Nat) : State := s.pump ln (s.mem.net.length + 1)

/-- The transaction on a line ends, and the request it was opened for is finished (Table 10-6). -/
def State.endTxn (s : State) (ln : Nat) (t : CohTxn) : State :=
  let s1 : State := { s with mem := { s.mem with txns := s.mem.txns.drop ln } }
  let s2 := if t.forward then s1 else match s1.resident ln with
    | none => s1
    | some l => match t.req with
      | .rdShared => s1.grantLine ln t.agent (if l.dir.isEmpty && mayOwn t.agent ln then .e else .s) l true
      | .rdOwn => s1.grantLine ln t.agent .e l true
      | .ownNoData => s1.grantLine ln t.agent .e l false
      | .upgrade => s1.grantLine ln t.agent .e l false
      | r => s1.homeExec ln r
  s2.pumpAll ln

/-- One awaited answer of a transaction has come; `noData` says that the owner forwards nothing, so the home grants itself. -/
def State.answered (s : State) (ln agent : Nat) (noData : Bool) : State :=
  match s.mem.txns.find ln with
  | none => s.protocol agent
  | some t =>
    if t.await.contains agent then
      let t' : CohTxn := { t with await := t.await.filter (· != agent), forward := t.forward && !noData }
      if t'.await.isEmpty then s.endTxn ln t'
      else { s with mem := { s.mem with txns := s.mem.txns.put ln t' } }
    else s.protocol agent

/-! ### The messages -/

/-- A request row: an agent's request, when the domain is up and Table 10-3 lets this requester make it. -/
def State.agentRequest (s : State) (agent ln : Nat) (r : CohReq) (ok : Bool) : Result :=
  within (agent < 27 && ln < 2 ^ 56) <|
    if !s.domainIsUp then s else if ok then s.request ln agent r else s.protocol agent

/-- RD_SHARED (R342). -/
def execRdShared (agent line : Nat) (s : State) : Result :=
  s.agentRequest agent line .rdShared (agent < 24 && (s.copyOf agent line).isNone)
/-- RD_OWN (R342). -/
def execRdOwn (agent line : Nat) (s : State) : Result :=
  s.agentRequest agent line .rdOwn (mayOwn agent line && (s.copyOf agent line).isNone)
/-- OWN_NODATA (R342). -/
def execOwnNodata (agent line : Nat) (s : State) : Result :=
  s.agentRequest agent line .ownNoData (mayOwn agent line && (s.copyOf agent line).isNone)
/-- UPGRADE (R342): an agent that lost its S copy to a crossing invalidation is served as RD_OWN. -/
def execUpgrade (agent line : Nat) (s : State) : Result := s.agentRequest agent line .upgrade (mayOwn agent line)
/-- WR (R343). -/
def execWr (agent line : Nat) (mask : BitVec 4) (data : LineBits) (s : State) : Result :=
  s.agentRequest agent line (.wr mask data) true
/-- ATOM (R345): the operation of Table 04-4 on `len` bytes at `off` of the line. -/
def execAtom (agent line f off len operand cmp : Nat) (s : State) : Result :=
  s.agentRequest agent line (.atom f off len operand cmp) (f ≤ 9 && off + len ≤ 256)
/-- WHINT (R344). -/
def execWhint (agent line : Nat) (mask : BitVec 4) (data : LineBits) (target : Option Nat) (s : State) : Result :=
  s.agentRequest agent line (.whint mask data target) (24 ≤ agent)

/-- WB (R346): the agent's data is merged at the home, and the agent is I; `data` is what the line held when it left. -/
def execWb (agent line : Nat) (data : LineBits) (s : State) : Result :=
  within (agent < 27 && line < 2 ^ 56) <|
    if !s.domainIsUp then s
    else match s.copyOf agent line with
      | some c =>
        if c.st = .s then s.protocol agent
        else
          ((s.putCopy agent line none).modLlc line (fun l => { l with
            data := data, valid := 15, dirty := 15, poison := c.poison, dir := l.dir.filter (fun a => a.1 != agent) })).count (Reg.cohCount 2) 1
      | none => s.protocol agent

/-- EVICT_CLEAN (R341): an agent drops S or E. -/
def execEvictClean (agent line : Nat) (s : State) : Result :=
  within (agent < 27 && line < 2 ^ 56) <|
    if !s.domainIsUp then s
    else match s.copyOf agent line with
      | some c =>
        if c.st = .s || c.st = .e then
          (s.putCopy agent line none).modLlc line (fun l => { l with dir := l.dir.filter (fun a => a.1 != agent) })
        else s.protocol agent
      | none => s.protocol agent

/-- The copy an agent holds when a snoop reaches it: `wrote` is what it has stored into a line it owns since (E becomes M without
a message). -/
def AgentLine.now (c : AgentLine) (wrote : Option LineBits) : AgentLine :=
  match wrote with
  | some d => if c.st = .e || c.st = .m then { c with st := .m, data := d } else c
  | none => c

/-- SNP_SHARE (R341): the owner forwards its data to the requester and keeps a shared copy; an agent whose copy has left answers
EVICTING (R347). -/
def execSnpShare (agent line : Nat) (wrote : Option LineBits) (s : State) : Result :=
  within (agent < 27 && line < 2 ^ 56) <|
    match s.take (CohMsg.isSnpShare agent line) with
    | some (.snpShare _ _ q, t) => match t.copyOf agent line with
      | some c0 =>
        let c := c0.now wrote
        let st : CohSt := match c.st with | .m => .o | .o => .o | _ => .s
        (((t.putCopy agent line (some { c with st := st })).send (.fwdData q line .s c.data c.poison)).send
          (.ack agent line (some st) none)).count (Reg.cohCount 1) 1
      | none => t.send (.evicting agent line)
    | _ => s

/-- SNP_OWN (R341): the owner forwards its data and goes I; the requester takes M when the owner held M or O, E when it held E
(Table 10-6). -/
def execSnpOwn (agent line : Nat) (wrote : Option LineBits) (s : State) : Result :=
  within (agent < 27 && line < 2 ^ 56) <|
    match s.take (CohMsg.isSnpOwn agent line) with
    | some (.snpOwn _ _ q, t) => match t.copyOf agent line with
      | some c0 =>
        let c := c0.now wrote
        let st : CohSt := if c.st = .e || c.st = .s then .e else .m
        (((t.putCopy agent line none).send (.fwdData q line st c.data c.poison)).send (.ack agent line none none)).count (Reg.cohCount 1) 1
      | none => t.send (.evicting agent line)
    | _ => s

/-- SNP_INV (R341): a holder goes I; M or O returns its data. -/
def execSnpInv (agent line : Nat) (wrote : Option LineBits) (s : State) : Result :=
  within (agent < 27 && line < 2 ^ 56) <|
    match s.take (CohMsg.isSnpInv agent line) with
    | some (_, t) => match t.copyOf agent line with
      | some c0 =>
        let c := c0.now wrote
        (t.putCopy agent line none).send (.ack agent line none (if c.st = .m || c.st = .o then some (c.data, c.poison) else none))
      | none => t.send (.evicting agent line)
    | none => s

/-- FWD_DATA (R341): the forwarded line reaches the requester with the state the home assigned. -/
def execFwdData (agent line : Nat) (s : State) : Result :=
  within (agent < 27 && line < 2 ^ 56) <|
    match s.take (CohMsg.isFwdData agent line) with
    | some (.fwdData _ _ st d p, t) =>
      (t.putCopy agent line (some { st := st, data := d, poison := p })).modLlc line (fun l => { l with dir := dirSet l.dir agent st })
    | _ => s

/-- GRANT (R341): the requester gets data and state from the home. A request that still waits for its line's fill is served first. -/
def execGrant (agent line : Nat) (s : State) : Result :=
  within (agent < 27 && line < 2 ^ 56) <|
    let s1 := if s.mem.net.any (CohMsg.isGrant agent line) then s else s.pumpAll line
    match s1.take (CohMsg.isGrant agent line) with
    | some (.grant _ _ st d p, t) =>
      let old := (t.copyOf agent line).map (·.data)
      t.putCopy agent line (some { st := st, data := d.getD (old.getD 0), poison := p })
    | _ => s1

/-- ACK (R341): a snoop is done; data of M or O is merged at the home. -/
def execAck (agent line : Nat) (s : State) : Result :=
  within (agent < 27 && line < 2 ^ 56) <|
    match s.take (CohMsg.isAck agent line) with
    | some (.ack _ _ st d, t) =>
      let t1 := t.modLlc line (fun l => { l with dir := match st with
        | some x => dirSet l.dir agent x
        | none => l.dir.filter (fun a => a.1 != agent) })
      let t2 := match d with
        | some (data, p) => t1.modLlc line (fun l => { l with data := data, valid := 15, dirty := 15, poison := p })
        | none => t1
      t2.answered line agent false
    | _ => if s.domainIsUp then s.protocol agent else s

/-- EVICTING (R347): the data is taken from the write-back, which the home has merged by now, and the request is served from the
LLC. -/
def execEvicting (agent line : Nat) (s : State) : Result :=
  within (agent < 27 && line < 2 ^ 56) <|
    match s.take (CohMsg.isEvicting agent line) with
    | some (_, t) => (t.count (Reg.cohCount 3) 1).answered line agent true
    | none => if s.domainIsUp then s.protocol agent else s

/-- PUSH (R344): a target that holds no line in its place takes the offered copy in E; otherwise it declines. -/
def execPush (agent line : Nat) (s : State) : Result :=
  within (agent < 27 && line < 2 ^ 56) <|
    match s.take (CohMsg.isPush agent line) with
    | some (.push _ _ d p, t) =>
      let held := (t.mem.agents.filter (fun e => e.1 / 2 ^ 56 == agent)).length
      let alone := match t.resident line with | some l => l.dir.isEmpty | none => false
      if held < agentLines agent && alone then
        (t.putCopy agent line (some { st := .e, data := d, poison := p })).modLlc line (fun l => { l with dir := dirSet l.dir agent .e })
      else t.count (Reg.cohCount 5) 1
    | _ => s

/-- Is a command the arrival of an agent's answer to a snoop at the home? -/
def answers (agent line : Nat) : Instr → Bool
  | .ack a l => a == agent && l == line
  | .evicting a l => a == agent && l == line
  | _ => false

/-- SNOOP_TIMEOUT (R350): an agent that has not answered a snoop in time fails the domain; an answer that enters the home's island in the same
cycle wins, one that has only left the agent does not (R18). -/
def execSnoopTimeout (agent line : Nat) (s : State) : Result :=
  within (agent < 27 && line < 2 ^ 56) <|
    match s.mem.txns.find line with
    | none => s
    | some t =>
      if t.await.contains agent && s.fires t.due (answers agent line) then s.domainFail 3 agent else s

/-! ### Salvage and restart (R351 to R353) -/

/-- Sectors set in a mask. -/
def sectorCount (m : BitVec 4) : Nat := ((List.range 4).filter (fun i => m.getLsbD i)).length

/-- A DRAM-tier slot for a salvaged line: the lowest free one, or that of a clean line (R352). -/
def State.salvageSlot (s : State) : Nat × State :=
  let used := sortBy (fun a b => a.1 ≤ b.1) (s.mem.tier.map (fun e => (e.2.slot, e.1)))
  let free := used.foldl (fun g e => if e.1 = g then g + 1 else g) 0
  if s.mem.tier.length < s.tierSlots then (free, s)
  else match s.mem.tier.find? (fun e => e.2.dirty == 0) with
    | some (v, t) => (t.slot, { s with mem := { s.mem with tier := s.mem.tier.drop v } })
    | none => (free, s)

/-- One LLC line is salvaged: dirty user data into the DRAM tier, dirty internal data to its DRAM home (R351 step 3). A line whose
MINOR is full keeps its counter (log entry 24). -/
def State.salvageLine (s : State) (ln : Nat) (c : LlcLine) : State :=
  if c.dirty = 0 then s
  else
    let n := s.fld Reg.cohSalvage 31 0 + sectorCount c.dirty
    let s1 := s.setFld Reg.cohSalvage 31 0 n
    if lineKeyId ln = 255 then { s1 with mem := { s1.mem with intern := s1.mem.intern.set (lineNo ln) c.data 0 } }
    else match s1.localLine ln with
      | none => s1
      | some l =>
        let r := match s1.mem.tier.find ln with
          | some t => (t.slot, s1)
          | none => s1.salvageSlot
        let (img, s2) := if r.2.minorFull ln l then (r.2.imageNow ln l c, r.2)
          else (r.2.sealLine ln l c.data c.poison c.cause).getD (r.2.imageNow ln l c, r.2)
        ({ s2 with mem := { s2.mem with tier := s2.mem.tier.put ln { slot := r.1, img := img, dirty := c.dirty, unpaid := c.unpaid } } } : State).dramAccess
          7 true (s2.slotAddr r.1)

/-- SALVAGE_WALK_DONE (R351 steps 3 and 4): every dirty sector is in the DRAM tier, M and O lines of the HKP and the integrity engine
are in their homes, and the LLC, the directory and the agent caches are empty. -/
def execSalvageWalkDone (s : State) : Result :=
  .next (if s.fld Reg.cohStatus 1 0 = 2 then
      let s0 := s.wr Reg.cohSalvage 0
      let s1 := (s0.mem.llc ++ s0.mem.evb).foldl (fun t e => t.salvageLine e.1 e.2) s0
      let owned := s1.mem.agents.filter (fun e => e.2.st == .m || e.2.st == .o)
      let intern := owned.foldl (fun t e => t.set (e.1 % 2 ^ 48) e.2.data 0) s1.mem.intern
      let s2 : State := { s1 with mem := { s1.mem with
        llc := [], evb := [], agents := [], plru := [], txns := [], net := [], maint := none, conv := [], intern := intern
        senses := s1.mem.senses.map (fun e => (e.1, { e.2 with readers := e.2.readers.filter (· == .scrub) })) } }
      s2.setFld Reg.cohStatus 1 0 3
    else s)

/-- DOMAIN_UP (R351 steps 5 and 6, R353): the firmware has restarted; the domain is UP and the device rejoins, or after a second
failure within 60 s the device enters HELD with its data path disabled. -/
def execDomainUp (s : State) : Result :=
  .next (if s.fld Reg.cohStatus 1 0 = 3 && s.flag Reg.glbStatus 1 then
      if s.mem.domSecond then
        (({ s with power := .held } : State).setFld Reg.cohStatus 1 0 1 |>.clrFlag Reg.glbStatus 2).raise 0xE002 s.self 2
      else
        let out := (s.now - s.mem.domFailAt) / ms 1
        let s1 := ((s.setFld Reg.cohStatus 1 0 0).setFld Reg.cohSalvage 63 48 out).raise 0x7004 s.self out
        ({ s1 with mem := { s1.mem with domUp := some s1.now } } : State).sendAnnounce
    else s)

end Sys2Proof.Machine
end

