-- ==== Sys2Proof/Machine/Mailbox.lean ====
section
/-!
DEFINITION. Mailboxes (14): segments and their checks, ownership, polling, authority and signatures, and how a command runs
(R433 to R449, R463, R466).
-/
namespace Sys2Proof.Machine

/-! ### Layout (Tables 14-1, 14-2) -/

/-- The commands of class OBSERVER, OPERATOR and ADMIN of Table 14-5 and of the tables it names. -/
def observerCodes : List Nat :=
  [0x0101, 0x0102, 0x0103, 0x0104, 0x0112, 0x0203, 0x0302, 0x0310, 0x0311, 0x0404, 0x0405, 0x0410, 0x0501, 0x0502, 0x0522,
   0x0603, 0x0613, 0x0701, 0x0710, 0x0720, 0x0801, 0x0810, 0x0820, 0x0901, 0x0A01, 0x0A11, 0x0B01, 0x0B02]
/-- Class OPERATOR. -/
def operatorCodes : List Nat :=
  [0x0114, 0x0212, 0x0301, 0x0401, 0x0402, 0x0403, 0x0503, 0x0621, 0x0702, 0x0703, 0x0711, 0x0821]
/-- Class ADMIN. -/
def adminCodes : List Nat :=
  [0x0110, 0x0111, 0x0113, 0x0201, 0x0202, 0x0210, 0x0211, 0x0320, 0x0411, 0x0510, 0x0511, 0x0512, 0x0513, 0x0514, 0x0520,
   0x0521, 0x0601, 0x0602, 0x0604, 0x0605, 0x0610, 0x0611, 0x0612, 0x0620, 0x0704, 0x0712, 0x0802, 0x0811, 0x0902, 0x0903,
   0x0904, 0x0905, 0x0906, 0x0A02, 0x0A10]

/-- The class that a command needs, by code. -/
def commandClasses : List (Nat × Nat) :=
  observerCodes.map (fun c => (c, 1)) ++ operatorCodes.map (fun c => (c, 2)) ++ adminCodes.map (fun c => (c, 3))

/-- The command codes; every other code is reserved (R451). -/
def commandCodes : List Nat := observerCodes ++ operatorCodes ++ adminCodes

/-- The number of a mailbox state (Table 14-3). -/
def MbxSt.num : MbxSt → Nat
  | .idle => 0 | .receiving => 1 | .busy => 2 | .done => 3 | .delivering => 4

/-- What a mailbox answers: a status, the CHAIN and PENDING flags, a segment number and data. -/
structure MbxAns where
  status : Status
  chain : Bool := false
  pending : Bool := false
  seg : Nat := 0
  data : List Byte := []
  deriving DecidableEq, Repr

/-- The mailbox `m`. -/
def State.box (s : State) (m : Nat) : Mailbox := s.mbx.boxes.get m Mailbox.idle

/-- The state with mailbox `m` holding `b`. -/
def State.putBox (s : State) (m : Nat) (b : Mailbox) : State :=
  { s with mbx := { s.mbx with boxes := s.mbx.boxes.put m b } }

/-- The mailbox returned to IDLE; its nonce stays (R436, R449). -/
def Mailbox.freed (b : Mailbox) : Mailbox := { Mailbox.idle with nonce := b.nonce }

/-- MBX_TIMEOUT and MBX_EARLY, ns (Table 14-14). -/
def State.mbxTimeout (s : State) : Nat := ms (s.fld Reg.mbxCfg 15 0)
def State.mbxEarly (s : State) : Nat := us (s.fld Reg.mbxCfg 31 16)

/-- The boot ROM serves the mailboxes over SMBus: ROM recovery (R512). -/
def State.rom (s : State) : Bool := s.boot.active == 2 && s.power == .held
/-- Someone executes mailbox commands: the firmware or the ROM. -/
def State.serving (s : State) : Bool := s.hkpUp || s.rom
/-- The codes that the ROM serves (R512). -/
def romCodes : List Nat := [0x0101, 0x0103, 0x0901, 0x0902, 0x0903, 0x0904, 0x0A01]

/-- A response segment (Table 14-2) for a mailbox. -/
def MbxAns.bytes (a : MbxAns) (b : Mailbox) : List Byte :=
  leBytes 2 b.code ++ [BitVec.ofNat 8 (a.chain.toNat + 2 * a.pending.toNat), BitVec.ofNat 8 a.seg] ++ leBytes 2 a.data.length ++
    [BitVec.ofNat 8 a.status.code, BitVec.ofNat 8 b.st.num] ++ a.data

/-- The response of an MBX stitch that carries a segment (R441). -/
def State.answerOp (s : State) (id m : Nat) (a : MbxAns) : State :=
  match s.host.ops.find id with
  | none => s
  | some o =>
    let b := s.box m
    s.finishOp id { opcode := o.st.opcode, subop := o.st.subop, length := o.st.length, tag := o.st.tag, status := a.status,
                    result := [BitVec.ofNat 8 b.st.num] ++ beBytes 2 (if b.st = .busy then b.progress else 0), payload := a.bytes b }

/-- The number of segments of a response (R439). -/
def Mailbox.segments (b : Mailbox) : Nat := max 1 (ceilDiv b.resp.length 4088)

/-- The next response segment of a completed command: the mailbox is DELIVERING while more follow, DONE with the last, which is
given again when it is asked for again (R438, R439). `seq` is the SEQ of the frame that asked, plus 1; 0 over SMBus. -/
def State.deliverSeg (s : State) (m seq : Nat) : MbxAns × State :=
  let b := s.box m
  let k := min b.respSeg (b.segments - 1)
  let last := k + 1 == b.segments
  let b' : Mailbox := { b with st := if last then .done else .delivering, respSeg := if last then b.segments else k + 1,
                               sentSeq := seq, due := s.now + s.mbxTimeout }
  ({ status := b.status, chain := !last, seg := k, data := slice b.resp (4088 * k) 4088 }, s.putBox m b')

/-- A mailbox answers whoever waits for it: the MBX operation, or the SMBus response buffer. -/
def State.mbxAnswer (s : State) (m : Nat) (a : MbxAns) : State :=
  let b := s.box m
  match b.owner with
  | .smbus => s.putBox m { b with respBuf := a.bytes b }
  | _ => if b.op = 0 then s else (s.putBox m { b with op := 0 }).answerOp b.op m a

/-- The SEQ, plus 1, of the frame of the operation a mailbox waits with. -/
def State.opSeq (s : State) (id : Nat) : Nat := match s.host.ops.find id with | some o => o.seq + 1 | none => 0

/-- A command ends (R436, R438): its response goes to whoever waits, or is held in DONE; without an owner the mailbox is IDLE. -/
def State.mbxComplete (s : State) (m : Nat) (st : Status) (resp : List Byte) : State :=
  let b := s.box m
  let b1 : Mailbox := { b with status := st, resp := resp, respSeg := 0, begun := false, early := none, sentSeq := 0,
                               due := s.now + s.mbxTimeout, st := if resp.length ≤ 4088 then .done else .delivering }
  match b.owner with
  | .none => s.putBox m b.freed
  | .smbus => let r := (s.putBox m b1).deliverSeg m 0; r.2.mbxAnswer m r.1
  | _ =>
    if b.op = 0 then s.putBox m b1
    else let r := (s.putBox m b1).deliverSeg m (s.opSeq b.op); r.2.mbxAnswer m r.1

/-- What a mailbox does with one request segment: it answers; the requester waits for the command; or RETRY without a mailbox segment
(R435, R441). -/
inductive MbxOut where
  | answer (a : MbxAns)
  | wait
  | refused
  deriving DecidableEq, Repr

/-- The connection of an owner has DONE covering the frame that carried the latest response segment (R439). -/
def State.segCovered (s : State) (b : Mailbox) : Bool :=
  match b.owner with
  | .conn id _ => match s.host.conns.find id with
    | some c => b.sentSeq == 0 || !seqAfter ((b.sentSeq - 1) % 2 ^ 32) c.done
    | none => true
  | _ => true

/-- A segment refused at check 2 or 3 (R437): an owner's request in RECEIVING is abandoned; nothing else changes. -/
def State.segLength (s : State) (m : Nat) : MbxOut × State :=
  let s1 := s.count (Reg.mbxCount 2) 1
  let s2 := if (s1.box m).st = .receiving then s1.putBox m (s1.box m).freed else s1
  (.answer { status := .length }, s2)

/-- ABORT (R440). -/
def State.mbxAbort (s : State) (m : Nat) : MbxOut × State :=
  let b := s.box m
  match b.st with
  | .busy => (.answer { status := .ok, pending := true }, s)
  | .idle => if b.claimed then (.answer { status := .ok }, (s.putBox m b.freed).count (Reg.mbxCount 6) 1)
             else (.refused, s.count (Reg.mbxCount 1) 1)
  | _ => (.answer { status := .ok }, (s.putBox m b.freed).count (Reg.mbxCount 6) 1)

/-- PROGRESS of a BUSY command, in units of 0.1 % (R441): the clearing of a REGION_DELETE reports it, a free value as far as no rule says how much
work is done; no other command does, which is 0xFFFF from its first segment on. -/
def State.noteProgress (s : State) (m : Nat) : State :=
  let b := s.box m
  if b.code = 0x0202 && b.begun then
    let (f, s1) := s.draw
    s1.putBox m { b with progress := f.toNat % 1001 }
  else s

/-- POLL (R438, R439). -/
def State.mbxPoll (s : State) (m seq : Nat) : MbxOut × State :=
  let b := s.box m
  match b.st with
  | .busy => (.answer { status := .ok, pending := true }, s.noteProgress m)
  | .done | .delivering =>
    if s.segCovered b || b.sentSeq == 0 then let r := s.deliverSeg m seq; (.answer r.1, r.2)
    else (.answer { status := .retry }, s.count (Reg.mbxCount 1) 1)
  | _ => (.answer { status := .ok }, s)

/-- Checks 1 to 3 of R437 and what an accepted request segment does (R435, R438). `op` and `seq` name the MBX operation that
brought it, 0 over SMBus. -/
def State.mbxSegment (s0 : State) (m : Nat) (who : MbxOwner) (seg : List Byte) (op seq : Nat) : MbxOut × State :=
  let s := s0.count (Reg.mbxCount 0) 1
  let b := s.box m
  let flags := leAt seg 2 1
  let code := leAt seg 0 2
  let dlen := leAt seg 4 2
  let n := leAt seg 3 1
  let foreign := (b.st != .idle || b.claimed) && b.owner != who
  if foreign then (.refused, s.count (Reg.mbxCount 1) 1)
  else if seg.length < 8 || 4088 < dlen || dlen + 8 ≠ seg.length then s.segLength m
  else if flags.testBit 3 then s.mbxAbort m
  else if flags.testBit 2 then s.mbxPoll m seq
  else if b.st = .busy || b.st = .done || b.st = .delivering || s.swapping then (.answer { status := .retry }, s.count (Reg.mbxCount 1) 1)
  else
    let first := b.st == .idle
    let data := seg.drop 8
    if (if first then n ≠ 0 else n ≠ b.seg + 1) || 65536 < b.req.length + data.length then s.segLength m
    else
      let b1 : Mailbox := { b with
        owner := who, claimed := false, code := if first then code else b.code, seg := n, req := if first then data else b.req ++ data,
        mixed := !first && (b.mixed || code != b.code), signed := flags.testBit 1, begun := false, due := s.now + s.mbxTimeout,
        progress := if (if first then code else b.code) = 0x0202 then 0 else 0xFFFF }
      if flags.testBit 0 then (.answer { status := .ok }, s.putBox m { b1 with st := .receiving })
      else
        let b2 : Mailbox := { b1 with st := .busy, op := op, early := some (s.now + s.mbxEarly) }
        if b1.mixed || !(if s.rom then romCodes else commandCodes).contains b1.code then (.wait, (s.putBox m b2).mbxComplete m .opcode [])
        else (.wait, s.putBox m b2)

/-! ### Authority (R446 to R449) -/

/-- The class of an owner without a signature (R446). -/
def State.ownerClass (s : State) : MbxOwner → Nat
  | .conn id _ => match s.host.conns.find id with | some c => c.cls | none => 0
  | .lace _ _ cls => cls
  | .smbus => 2
  | .console => 2
  | .none => 0

/-- The factory case of R450: unsigned ADMIN commands over SMBus while no admin key is installed. -/
def State.factoryCase (s : State) (o : MbxOwner) : Bool := s.kept.factory && s.kept.adminKeys.isEmpty && o == .smbus

/-- A request as its command sees it: its mailbox and owner, its class, what its journal entry says of its author, the admin key
that signed it, and its data less the signature block (R447). -/
structure Req where
  m : Nat
  owner : MbxOwner
  cls : Nat
  author : Author
  key : Option Nat
  data : List Byte
  deriving DecidableEq, Repr

/-- The SMBus address of the device (R442). -/
def State.smbAddr (s : State) : Nat := 0x58 + s.fld Reg.glbStrap 10 8

/-- What a journal entry says of a request's author (Table 14-10). -/
def State.authorOf (s : State) (m : Nat) (o : MbxOwner) (key : Option Nat) : Author :=
  match o with
  | .conn id _ => { iface := 0, port := m, conn := id, cred := match key with
      | some k => 0x8000 + k
      | none => match s.host.conns.find id with | some c => c.grant | none => 0 }
  | .lace _ id _ => { iface := 7, port := m, conn := id, cred := match key with | some k => 0x8000 + k | none => 0 }
  | .smbus => { iface := 1, port := m, cred := match key with | some k => 0x8000 + k | none => s.smbAddr }
  | .console => { iface := 2, port := m }
  | .none => { iface := 0, port := m }

/-- Is SIG_CLOSED in force (R449)? -/
def State.sigClosed (s : State) : Bool := match s.mbx.sigClosed with | some d => decide (s.now < d) | none => false

/-- A signature fails (R449): sampler event ADMIN_SIG_FAIL, and after 8 failures within 60 s SIG_CLOSED for 60 s. -/
def State.sigFail (s : State) (m key : Nat) : State :=
  let recent := (s.mbx.sigFails.filter (fun t => decide (s.now < t + sec 60))) ++ [s.now]
  let s1 := (s.raise 0xA010 m key).count (Reg.mbxCount 4) 1
  if 8 ≤ recent.length then
    ({ s1 with mbx := { s1.mbx with sigFails := [], sigClosed := some (s1.now + sec 60) } } : State).setFlag Reg.mbxStatus 17
  else { s1 with mbx := { s1.mbx with sigFails := recent } }

/-- The message that a signature covers (R448). -/
def sigMessage (nonce : List Byte) (code : Nat) (data : List Byte) : List Byte :=
  nonce ++ leBytes 8 Config.serial.toNat ++ leBytes 2 code ++ data

/-- Check 6 of R437 for a signed request: the key that verifies it, if one does, with the nonce used up. -/
def State.verify (s : State) (m : Nat) (b : Mailbox) : Option Nat × State :=
  let n := b.req.length
  let block := b.req.drop (n - 104)
  let key := leAt block 0 1
  let s1 := s.putBox m { b with nonce := none }
  let good := decide (104 ≤ n) && decide (key ≤ 7) && zeroAt block 1 7 &&
    (match b.nonce, s.kept.adminKeys.find key with
      | some (v, due), some k => decide (s.now < due) && Config.ecdsaOk k (sigMessage v b.code (b.req.take (n - 104))) (block.drop 8)
      | _, _ => false)
  if good then (some key, s1) else (none, s1.sigFail m key)

/-- The request of a mailbox, signed by `key` or by none: over SMBus a signature or the factory case gives class ADMIN (R446, R447, R450). -/
def State.reqOf (s : State) (m : Nat) (b : Mailbox) (key : Option Nat) : Req :=
  { m := m, owner := b.owner, cls := if b.owner == .smbus && (b.signed || s.factoryCase b.owner) then 3 else s.ownerClass b.owner,
    author := s.authorOf m b.owner key, key := key, data := if b.signed then b.req.take (b.req.length - 104) else b.req }

/-- Checks 5 and 6 of R437: the request with its authority, or DENIED; `true` says that the refusal was made at check 6. -/
def State.authorise (s : State) (m : Nat) (b : Mailbox) (cls : Nat) : (Req ⊕ Bool) × State :=
  if (s.reqOf m b none).cls < cls then (.inr false, s)
  else if b.signed then
    if s.sigClosed then (.inr true, s.putBox m { b with nonce := none })
    else match s.verify m b with
      | (some k, t) => (.inl (s.reqOf m b (some k)), t)
      | (none, t) => (.inr true, t)
  else if cls = 3 && !s.factoryCase b.owner then (.inr true, s)
  else (.inl (s.reqOf m b none), s)

/-! ### Running a command -/

/-- The column J of Table 14-5. -/
inductive JMark where
  | no | yes | always
  deriving DecidableEq, Repr

/-- How the effect of a command ends: at once, or as a long-running command whose response is held until MBX_COMMAND_DONE. -/
inductive CmdEnd where
  | done (st : Status) (resp : List Byte) (s : State)
  | later (st : Status) (resp : List Byte) (s : State)

/-- A mailbox command: its code, class and journal mark; its own checks (check 7), whether it writes configuration into the keep
(check 8), the prior record and the request data its journal entry holds, what a refusal at check 7 does beside its answer, and its
effect. -/
structure Command where
  code : Nat
  cls : Nat
  mark : JMark
  check : State → Req → Option Status := fun _ _ => none
  wp : State → Req → Bool := fun _ _ => false
  old : State → Req → List Byte := fun _ _ => []
  new : State → Req → List Byte := fun _ r => r.data
  refused : State → Req → Status → State := fun s _ _ => s
  eff : State → Req → CmdEnd

/-- A journaled command that ends with a status other than OK after its entry `e` writes a second one with the final status (R463); that of an
"always" command may lie in the reserve (R466). -/
def State.jSecond (s : State) (c : JMark) (e : JEntry) (st : Status) : State :=
  let e2 : JEntry := { e with seq := s.kept.nextSeq % 2 ^ 32, time := s.stamp, result := st.code }
  if st = .ok then s
  else match c with
    | .no => s
    | .yes => s.jPlain e2
    | .always => s.jAlways e2

/-- The entry that the command of a mailbox wrote when it began: the latest of its code and author. -/
def State.firstEntry (s : State) (m : Nat) (b : Mailbox) : JEntry :=
  let a := s.authorOf m b.owner b.keyIndex
  let mine (e : JEntry) : Bool := e.object == b.code && e.iface == a.iface && e.port == a.port && e.connId == a.conn
  (s.kept.journal.reverse.find? mine).getD (s.jEntry a true b.code .ok [] b.req)

/-- The effect of a command whose journal entry is `e`, and its end (R438, R463). -/
def State.finishCmd (s : State) (c : Command) (r : Req) (e : JEntry) : State :=
  match c.eff s r with
  | .done st resp t => (t.jSecond c.mark e st).mbxComplete r.m st resp
  | .later st resp t =>
    let t1 := t.jSecond c.mark e st
    t1.putBox r.m { t1.box r.m with begun := true, status := st, resp := resp }

/-- A command row: the command of a BUSY mailbox runs, by the checks 5 to 9 of R437 in their order. -/
def State.command (s : State) (m : Nat) (c : Command) : Result :=
  within (m < 16) <|
    let b := s.box m
    if b.st = .busy && b.code == c.code && !b.begun && s.serving then
      match s.authorise m b c.cls with
      | (.inr six, t) =>
        let t1 := t.count (Reg.mbxCount 3) 1
        let r := t1.reqOf m b none
        let t2 := if six then t1.jPlain (t1.jEntry r.author true c.code .denied (c.old t1 r) (c.new t1 r)) else t1
        t2.mbxComplete m .denied []
      | (.inl r, t) => match c.check t r with
        | some st => (c.refused (if st = .denied then t.count (Reg.mbxCount 3) 1 else t) r st).mbxComplete m st []
        | none =>
          if c.wp t r && t.kept.wp then (t.count (Reg.kepCount 4) 1).mbxComplete m .writeProtected []
          else if c.mark = .yes && t.jnlFull then t.jRefuse.mbxComplete m .journalFull []
          else if c.mark ≠ .no && t.kept.closed then t.mbxComplete m .unavailable []
          else
            let e := t.jEntry r.author true c.code .ok (c.old t r) (c.new t r)
            let t1 := match c.mark with | .no => t | .yes => t.jAppend e | .always => t.jAlways e
            t1.finishCmd c r e
    else s

/-- The request data must have a length, or the command answers LENGTH (R451). -/
def lengthIs (n : Nat) (r : Req) : Option Status := if r.data.length = n then none else some .length

/-- A request of `n` bytes whose bytes from `off`, `len` of them, are reserved and zero (R451). -/
def lengthZero (n off len : Nat) (r : Req) : Option Status :=
  if r.data.length = n && zeroAt r.data off len then none else some .length

/-! ### Who waits for keep pages (R458) -/

/-- Who waits for the pages of a keep register write that came over SMBus. -/
def smbusWaiter : Nat := 2 ^ 62
/-- Who waits for those of a mailbox command. -/
def boxWaiter (m : Nat) : Nat := 2 ^ 63 + m

/-- Who waits for a queued page. -/
def KeepWrite.waiter : KeepWrite → Nat
  | .journal _ w => w
  | .regPage _ _ w => w

/-- Does a waiter still have pages in the queue? -/
def State.sealing (s : State) (w : Nat) : Bool := s.kept.queue.any (fun q => q.waiter == w)

/-! ### Timers and polling -/

/-- The owner of a mailbox as an MBX operation names it: its connection, or the manager's connection behind a lace frame. -/
def Op.owner (o : Op) : MbxOwner :=
  match o.origin with
  | .conn id gen => .conn id gen
  | .lace dev _ => .lace dev o.conn o.cls
  | .part _ _ => .none

/-- Is a command the end of the command in mailbox `m`? -/
def doneIn (m : Nat) : Instr → Bool
  | .mbxCommandDone k => k == m
  | _ => false

/-- The target in ADDRESS of a device stitch (R107). -/
def Stitch.target (t : Stitch) : Nat := t.addr % 2 ^ 24

/-- Is a command a request of the owner of mailbox `m`: an MBX stitch that it sent, or over SMBus an access to the mailbox it selected? -/
def State.ownerAsks (s : State) (m : Nat) (i : Instr) : Bool :=
  let stitch (op : Nat) : Bool := match s.host.ops.find op with | some o => o.st.target == m && o.owner == (s.box m).owner | none => false
  let bus : Bool := s.mbx.smb.mailbox == m && (s.box m).owner == .smbus
  match i with
  | .mbx op => stitch op
  | .mbxPoll (.stitch op) => stitch op
  | .mbxAbort (.stitch op) => stitch op
  | .mbxPoll .smbus => bus
  | .mbxAbort .smbus => bus
  | .mbxSubmit ok => ok && bus
  | .mbxDataWrite _ ok => ok && bus
  | .mbxDataRead _ => bus
  | _ => false

/-- MBX_EARLY_EXPIRE (R438): the command still runs, so PENDING is answered. -/
def execMbxEarlyExpire (m : Nat) (s : State) : Result :=
  within (m < 16) <|
    let b := s.box m
    match b.early with
    | none => s
    | some d =>
      if b.st = .busy && s.fires d (doneIn m) then
        (s.putBox m { b with early := none }).mbxAnswer m { status := .ok, pending := true }
      else s

/-- MBX_TIMEOUT (R436): no request from the owner in RECEIVING, DONE or DELIVERING, or no access to a mailbox that SMBus claimed; both under R18. -/
def execMbxTimeout (m : Nat) (s : State) : Result :=
  within (m < 16) <|
    let b := s.box m
    if (b.st = .receiving || b.st = .done || b.st = .delivering || (b.st = .idle && b.claimed)) && s.fires b.due (s.ownerAsks m) then
      ((s.putBox m b.freed).count (Reg.mbxCount 5) 1).raise 0xB007 m 0
    else s

/-- SIG_CLOSE_EXPIRE (R449): the 60 s of SIG_CLOSED end. -/
def execSigCloseExpire (s : State) : Result :=
  .next (match s.mbx.sigClosed with
    | some d => if s.due d then ({ s with mbx := { s.mbx with sigClosed := none } } : State).clrFlag Reg.mbxStatus 17 else s
    | none => s)

/-- An MBX operation reaches its mailbox (R110, R433): RETRY while the firmware does not serve; otherwise the segment is taken, and
the operation answers or waits for the command. -/
def State.mbxStitch (s : State) (id m : Nat) (o : Op) : State :=
  if !s.hkpUp then s.failOp id .retry
  else match s.mbxSegment m o.owner o.st.payload id (o.seq + 1) with
    | (.refused, t) => t.failOp id .retry
    | (.answer a, t) => t.answerOp id m a
    | (.wait, t) => match t.host.ops.find id with
      | some x => match x.phase with
        | .done _ => t
        | _ => t.modOp id (fun y => { y with phase := .waiting 0 })
      | none => t

end Sys2Proof.Machine
end

