-- ==== Sys2Proof/Machine/Keys.lean ====
section
/-!
DEFINITION. Keys (R395 to R403), the rekey walker (R418 to R421), JTAG and DMA (R423 to R425), MACsec keying (R426, R427) and the
security commands (R430).
-/
namespace Sys2Proof.Machine

/-- ASCII text as bytes. -/
def ascii (t : String) : List Byte := t.toList.map (fun c => BitVec.ofNat 8 c.toNat)

/-- The serial number as R582 gives it to every computation. -/
def serialBytes : List Byte := leBytes 8 Config.serial.toNat

/-- Unwraps a wrapped key with the text and two bytes its key-encryption key is derived under (R400, R426). -/
def unwrapKey (text : String) (a b : Nat) (ephemeral wrapped : List Byte) : Option (List Byte) :=
  (Config.ecdh ephemeral).bind (fun z =>
    Config.unwrap (Config.hkdf384 z serialBytes (ascii text ++ [BitVec.ofNat 8 a, BitVec.ofNat 8 b]) 32) wrapped)

/-- The KCV of a tenant key (R399). -/
def kcvOf (k : List Byte) : List Byte := (Config.hmac384 k (ascii "SLN4810-KCV")).take 8

/-! ### Slots -/

/-- Key and KCV of a version. -/
def KeySlot.key (k : KeySlot) (v : Bool) : Option (List Byte) := if v then k.key1 else k.key0
/-- Stored KCV of a version. -/
def KeySlot.kcv (k : KeySlot) (v : Bool) : Option (List Byte) := if v then k.kcv1 else k.kcv0

/-- STATE of a slot as it reads (Table 13-2, R397): REKEY needs both versions loaded. -/
def KeySlot.reads (k : KeySlot) : Nat :=
  match k.st with
  | .empty => 0
  | .loaded => 1
  | .absent => 2
  | .rekey => if k.key0.isSome && k.key1.isSome then 3 else 2

/-- A slot with a version loaded; with PERSIST the key goes to the keep too (R402). -/
def KeySlot.load (k : KeySlot) (v persist : Bool) (key : List Byte) : KeySlot :=
  let kept := if persist then some key else none
  if v then { k with key1 := some key, kcv1 := some (kcvOf key), kept1 := kept, persist := persist }
  else { k with key0 := some key, kcv0 := some (kcvOf key), kept0 := kept, persist := persist }

/-- A slot without a version. -/
def KeySlot.clear (k : KeySlot) (v : Bool) : KeySlot :=
  if v then { k with key1 := none, kcv1 := none, kept1 := none } else { k with key0 := none, kcv0 := none, kept0 := none }

/-- The key IDs this device cannot use are reported to the manager (R397). -/
def State.reportKeys (s : State) : State :=
  let bad := (List.range 255).filter (fun k => k != 0 && !s.keyUsable k && (s.mem.keys.has k))
  s.report (.keys s.self bad)

/-! ### KEY_LOAD, KEY_ROTATE, KEY_ERASE, KEY_STATUS, KEY_UNLOCK -/

/-- Fields of Table 13-3. -/
def Req.keyId (r : Req) : Nat := leAt r.data 0 1
/-- VER. -/
def Req.ver (r : Req) : Bool := leAt r.data 1 1 == 1
/-- PERSIST. -/
def Req.persist (r : Req) : Bool := (leAt r.data 2 1).testBit 0
/-- The key that the request wraps. -/
def Req.key' (r : Req) : Option (List Byte) := unwrapKey "SLN4810-WRAP" r.keyId (leAt r.data 1 1) (slice r.data 16 96) (slice r.data 112 40)

/-- The form of Table 13-3. -/
def keyForm (r : Req) : Option Status :=
  (lengthZero 152 3 5 r).orElse fun _ =>
    if 2 ≤ leAt r.data 1 1 || 2 ≤ leAt r.data 2 1 then some .length
    else if r.keyId = 0 || r.keyId = 255 then some .key else none

/-- R401: does the wrapped key fail one of the four conditions? -/
def State.keyBad (s : State) (r : Req) : Bool :=
  match r.key' with
  | none => true
  | some k =>
    let want := slice r.data 8 8
    kcvOf k != want || (match (s.keySlot r.keyId).kcv r.ver with | some c => c != want | none => false)

/-- The version that a slot's state admits (R401). -/
def KeySlot.admits (k : KeySlot) (v : Bool) : Bool :=
  match k.st with
  | .empty => true
  | .rekey => true
  | _ => v == k.active

/-- A refusal with KEY is counted and raises KEY_REFUSED (R401). -/
def keyRefused (s : State) (r : Req) (st : Status) : State :=
  if st = .key then (s.raise 0xA005 r.keyId 0).count (Reg.secCount 10) 1 else s

/-- The record of a key slot (Table 13-10), less NODES_LEFT, which is `left`. -/
def keyRecord (id : Nat) (k : KeySlot) (left : Nat) : List Byte :=
  [BitVec.ofNat 8 id, BitVec.ofNat 8 k.reads, BitVec.ofNat 8 (k.locked.toNat + 2 * k.active.toNat + 4 * k.persist.toNat), 0] ++
    leBytes 4 k.alarms ++ (if k.st = .empty then zeros 8 else (k.kcv k.active).getD (zeros 8)) ++ leBytes 4 left ++ zeros 4

/-- What the journal holds of a key slot before a change: nothing where the slot is EMPTY (Table 14-10). -/
def State.oldKey (s : State) (id : Nat) : List Byte :=
  if (s.keySlot id).st = .empty then [] else keyRecord id (s.keySlot id) 0

/-- The alarms of a slot's present window. -/
def State.windowAlarms (s : State) (k : KeySlot) : KeySlot := if k.windowEnd ≤ s.now then { k with alarms := 0 } else k

/-- KEY_LOAD (R400 to R402). -/
def execKeyLoad (m : Nat) (s : State) : Result :=
  s.command m {
    code := 0x0601, cls := 3, mark := .yes,
    wp := fun _ r => r.persist
    check := fun s r => (keyForm r).orElse fun _ =>
      if s.keyBad r || !(s.keySlot r.keyId).admits r.ver then some .key else none
    refused := keyRefused
    old := fun s r => s.oldKey r.keyId
    new := fun _ r => r.data.take 16
    eff := fun s r =>
      let k := s.keySlot r.keyId
      if (k.key r.ver).isSome then .done .ok [] s
      else match r.key' with
        | none => .done .key [] s
        | some key =>
          let k1 := k.load r.ver r.persist key
          let k2 := match k.st with
            | .empty => { k1 with st := .loaded, active := r.ver }
            | .absent => { k1 with st := .loaded }
            | _ => k1
          .done .ok [] (s.putKey r.keyId k2).reportKeys }

/-- The L0 nodes of a key ID's mapped swatches, ascending (R419). -/
def State.keyNodes (s : State) (keyId : Nat) : List Nat :=
  let mine := s.mem.prk.filter (fun e => (e.2.st == .mapped || e.2.st == .moving || e.2.st == .mapping) &&
    (match s.lineOf (e.1 * 512) with | some ln => lineKeyId ln == keyId | none => false))
  mine.flatMap (fun e => (List.range 8).map (fun i => e.1 * 8 + i))

/-- KEY_ROTATE (R418): loads the new version; the slot enters REKEY and the walker starts. Nodes never written are under the version
that was active. -/
def execKeyRotate (m : Nat) (s : State) : Result :=
  s.command m {
    code := 0x0604, cls := 3, mark := .yes,
    wp := fun _ r => r.persist
    check := fun s r => (keyForm r).orElse fun _ =>
      let k := s.keySlot r.keyId
      if r.ver = k.active then some .key
      else if (match s.mem.rekey with | some x => x.keyId != r.keyId | none => false) then some .unavailable
      else if k.st ≠ .loaded || s.keyBad r then some .key else none
    refused := keyRefused
    old := fun s r => s.oldKey r.keyId
    new := fun _ r => r.data.take 16
    eff := fun s r => match r.key' with
      | none => .done .key [] s
      | some key =>
        let k := s.keySlot r.keyId
        let nodes := s.keyNodes r.keyId
        let fixed := nodes.foldl (fun t n => if t.has n then t else t.put n { major := 0, ver := k.active, minors := [] }) s.mem.nodes
        let first := nodes.headD 0
        let w : Rekey := { keyId := r.keyId, next := first, left := nodes.length, checkpoint := first, started := s.now }
        let s1 : State := { s with mem := { s.mem with nodes := fixed, rekey := some w } }
        let s2 := s1.putKey r.keyId { k.load r.ver r.persist key with st := .rekey }
        .done .ok [] (((s2.wr Reg.secSelvedge (BitVec.ofNat 64 first)).wr Reg.secRekey
          (BitVec.ofNat 64 (r.keyId + 256 + nodes.length * 2 ^ 32))).arm Timer.selvedge (sec 1)) }

/-- KEY_ERASE (R403): refused while a region uses the key ID. -/
def execKeyErase (m : Nat) (s : State) : Result :=
  s.command m {
    code := 0x0602, cls := 3, mark := .yes,
    wp := fun s r => (s.keySlot r.keyId).persist
    check := fun s r => (lengthZero 8 1 7 r).orElse fun _ =>
      if r.keyId = 0 || r.keyId = 255 then some .address
      else if s.mem.regions.any (fun e => e.2.keyId == r.keyId) || s.mem.dir.any (fun e => e.2.keyId == r.keyId) then some .denied else none
    old := fun s r => s.oldKey r.keyId
    new := fun _ r => r.data ++ zeros 8
    eff := fun s r =>
      let k := s.keySlot r.keyId
      let s1 := s.putKey r.keyId { KeySlot.empty with locked := k.locked, alarms := k.alarms, windowEnd := k.windowEnd }
      let mine := match s.mem.rekey with | some x => x.keyId == r.keyId | none => false
      let s2 : State := if mine then (({ s1 with mem := { s1.mem with rekey := none } } : State).wr Reg.secRekey 0) else s1
      .done .ok [] s2.reportKeys }

/-- KEY_STATUS (R430). -/
def execKeyStatus (m : Nat) (s : State) : Result :=
  s.command m {
    code := 0x0603, cls := 1, mark := .no,
    check := fun _ r => (lengthZero 8 1 7 r).orElse fun _ => if r.keyId = 0 || r.keyId = 255 then some .address else none
    eff := fun s r =>
      let left := match s.mem.rekey with | some x => if x.keyId = r.keyId then x.left else 0 | none => 0
      .done .ok (keyRecord r.keyId (s.windowAlarms (s.keySlot r.keyId)) left) s }

/-- KEY_UNLOCK (R429): the lockdown is cleared on every member, and the window starts anew. -/
def State.unlockKey (s : State) (id : Nat) : State := s.putKey id { s.keySlot id with locked := false, alarms := 0, windowEnd := 0 }

/-- KEY_UNLOCK (R429, R430). -/
def execKeyUnlock (m : Nat) (s : State) : Result :=
  s.command m {
    code := 0x0605, cls := 3, mark := .yes,
    check := fun _ r => (lengthZero 8 1 7 r).orElse fun _ => if r.keyId = 0 || r.keyId = 255 then some .address else none
    old := fun s r => s.oldKey r.keyId
    new := fun _ r => r.data ++ zeros 8
    eff := fun s r =>
      let s1 := s.unlockKey r.keyId
      .done .ok [] (if s1.isManager then s1.sendAll (.lock r.keyId false) else s1) }

/-! ### The rekey walker (R419 to R421) -/

/-- The walker has passed every node: the old version is erased, the new one becomes active, the slot is LOADED, and REKEY_DONE gives
the minutes taken. -/
def State.rekeyDone (s : State) (w : Rekey) : State :=
  let k := s.keySlot w.keyId
  let s1 := s.putKey w.keyId { k.clear k.active with st := .loaded, active := !k.active }
  let s2 : State := { s1 with mem := { s1.mem with rekey := none } }
  (((s2.wr Reg.secRekey 0).disarm Timer.selvedge).raise 0x6004 w.keyId ((s.now - w.started) / sec 60)).reportKeys

/-- The walker visits the next node of the key ID at or above the selvedge (R419): a node already under the new version is passed,
another is converted; a node under conversion is waited for, and the key ID is skipped while it is LOCKED or not loaded. -/
def State.walkNode (s : State) (w : Rekey) : State :=
  let k := s.keySlot w.keyId
  if k.locked || k.key0.isNone || k.key1.isNone then s
  else match (s.keyNodes w.keyId).find? (fun n => w.next ≤ n) with
    | none => if s.mem.conv.any (fun e => e.2.rekey) then s else s.rekeyDone w
    | some n =>
      match s.lineOf (64 * n) with
      | none => s.selvedgePast n
      | some ln =>
        if (s.nodeOf ln (64 * n)).ver = !k.active then s.selvedgePast n
        else if s.mem.conv.has n then s
        else s.startConv ln (64 * n) (!k.active) true

/-- REKEY_NODE (R419). -/
def execRekeyNode (s : State) : Result :=
  .next (match s.mem.rekey with
    | none => s
    | some w => s.walkNode w)

/-- SELVEDGE_CHECKPOINT (R421): every second the selvedge goes to the table area. -/
def execSelvedgeCheckpoint (s : State) : Result :=
  .next (match s.mem.rekey with
    | none => s
    | some w => s.periodic Timer.selvedge (sec 1) fun t =>
        { t with mem := { t.mem with rekey := some { w with checkpoint := w.next }, saved := { t.mem.saved with selvedge := w.next } } })

/-! ### JTAG and DMA (R423 to R425) -/

/-- Opens a scope (R424, R425): DEBUG and MEMORY unload every tenant key. A scope already open stays open. -/
def State.jtagOpen (s : State) (scope : Nat) : State :=
  let s1 := (s.setFld Reg.secJtag 1 0 (max scope (s.fld Reg.secJtag 1 0))).raise 0xA003 s.self scope
  if 2 ≤ scope then
    let off (k : KeySlot) : KeySlot := { k with key0 := none, key1 := none, st := if k.st = .loaded then .absent else k.st }
    ({ s1 with mem := { s1.mem with keys := s1.mem.keys.map (fun e => (e.1, off e.2)) } } : State).reportKeys
  else s1

/-- Closes JTAG: the scope that stays is LOCKED, in the factory state MEMORY (R424). -/
def State.jtagLock (s : State) : State := s.setFld Reg.secJtag 1 0 (if s.kept.factory then 3 else 0)

/-- JTAG_UNLOCK (R425). -/
def execJtagUnlock (m : Nat) (s : State) : Result :=
  s.command m {
    code := 0x0620, cls := 3, mark := .yes,
    check := fun _ r => (lengthZero 8 1 7 r).orElse fun _ => if 4 ≤ leAt r.data 0 1 then some .address else none
    old := fun s _ => [BitVec.ofNat 8 (s.fld Reg.secJtag 1 0)]
    eff := fun s r => .done .ok [] (s.jtagOpen (leAt r.data 0 1)) }

/-- JTAG_LOCK (R425). -/
def execJtagLock (m : Nat) (s : State) : Result :=
  s.command m {
    code := 0x0621, cls := 2, mark := .always,
    check := fun _ r => lengthIs 0 r
    old := fun s _ => [BitVec.ofNat 8 (s.fld Reg.secJtag 1 0)]
    eff := fun s _ => .done .ok [] s.jtagLock }

/-- JTAG_NONCE_READ (R425): a fresh nonce in UNLOCK_NONCE. -/
def execJtagNonceRead (s : State) : Result :=
  let (f, s1) := s.draw256
  .next { s1 with mbx := { s1.mbx with jtagNonce := some (beBytes 32 f.toNat) } }

/-- A signature in UNLOCK_SIG fails: the third closes the register for 60 s and raises JTAG_AUTH_FAIL (R425). -/
def State.jtagFail (s : State) : State :=
  let n := s.fld Reg.secJtag 3 2 + 1
  let s1 := s.setFld Reg.secJtag 3 2 n
  if 3 ≤ n then
    (({ s1 with mbx := { s1.mbx with jtagClosed := some (s1.now + sec 60) } } : State).setFlag Reg.secJtag 4).alarm 0xA004 0xFF 0 0 0
  else s1

/-- JTAG_UNLOCK_SIG (R425): the signature over the nonce, the serial number, SCOPE and the key index opens the scope, which is
journaled as a change over JTAG; the nonce is used up. -/
def execJtagUnlockSig (scope key : Nat) (sig : List Byte) (s : State) : Result :=
  within (scope < 256 && key < 256 && sig.length == 96) <|
    if s.flag Reg.secJtag 4 then s
    else
      let good := match s.mbx.jtagNonce, s.kept.adminKeys.find key with
        | some n, some k => decide (scope < 4) && Config.ecdsaOk k (n ++ serialBytes ++ [BitVec.ofNat 8 scope, BitVec.ofNat 8 key]) sig
        | _, _ => false
      let s1 : State := { s with mbx := { s.mbx with jtagNonce := none } }
      if !good then s1.jtagFail
      else if s1.jnlFull then s1.jRefuse
      else
        let a : Author := { iface := 3, cred := 0x8000 + key }
        let s2 := s1.jChange a true 0x0620 [BitVec.ofNat 8 (s1.fld Reg.secJtag 1 0)] [BitVec.ofNat 8 scope]
        (s2.setFld Reg.secJtag 3 2 0).jtagOpen scope

/-- JTAG_CLOSE_EXPIRE (R425): the 60 s of closure end. -/
def execJtagCloseExpire (s : State) : Result :=
  .next (match s.mbx.jtagClosed with
    | none => s
    | some d =>
      if s.due d then (({ s with mbx := { s.mbx with jtagClosed := none } } : State).clrFlag Reg.secJtag 4).setFld Reg.secJtag 3 2 0
      else s)

/-- DMA_REFUSED (R423): an access by JTAG (1) or HKP DMA (2) to a key ID other than 0 is refused, journaled, counted and raised. -/
def execDmaRefused (master addr : Nat) (s : State) : Result :=
  within ((master == 1 || master == 2) && addr < 2 ^ 64) <|
    let keyId := addr / 2 ^ 56
    if keyId = 0 then s
    else
      let e := s.jEntry { iface := if master = 1 then 3 else 4 } true 0 .denied [] (leBytes 8 addr)
      ((s.jAlways e).count (Reg.secCount 6) 1).raise 0xA002 keyId master

/-! ### MACsec keying (R426, R427) -/

/-- SA slots of a port in use. -/
def State.saCount (s : State) (p : Nat) : Nat := (s.host.sas.filter (fun e => e.1 / 32 == p)).length

/-- The SA a request names, with its place (R430). -/
def State.saOf (s : State) (r : Req) : Option (Nat × MacSa) :=
  let p := leAt r.data 0 1
  let i := leAt r.data 1 1
  if p < 8 && i < 32 then (s.host.sas.find (32 * p + i)).map (fun a => (32 * p + i, a)) else none

/-- The state with an SA slot changed. -/
def State.putSa (s : State) (k : Nat) (a : MacSa) : State := { s with host := { s.host with sas := s.host.sas.put k a } }

/-- What the journal holds of an SA: PORT, DIR, AN, reserved bytes and the SCI (R464). -/
def saEntry (port : Nat) (tx : Bool) (an sci : Nat) : List Byte :=
  [BitVec.ofNat 8 port, BitVec.ofNat 8 tx.toNat, BitVec.ofNat 8 an] ++ zeros 5 ++ leBytes 8 sci

/-- The wrapped SAK of a MACSEC_SA_INSTALL (R426). -/
def sakOf (r : Req) : Option (List Byte) :=
  unwrapKey "SLN4810-SAK" (leAt r.data 0 1) (leAt r.data 2 1) (slice r.data 40 96) (slice r.data 136 40)

/-- MACSEC_SA_INSTALL (R426, R427): a receive SA is in use at once, a transmit SA once it is activated. -/
def execMacsecSaInstall (m : Nat) (s : State) : Result :=
  s.command m {
    code := 0x0610, cls := 3, mark := .yes,
    check := fun s r => (lengthZero 176 4 4 r).orElse fun _ =>
      let p := leAt r.data 0 1
      let tx := leAt r.data 1 1 == 1
      let an := leAt r.data 2 1
      let xpn := leAt r.data 3 1 == 1
      let sci := leAt r.data 8 8
      if !xpn && !zeroAt r.data 24 16 then some .length
      else if s.portCount ≤ p || (s.host.sas.any (fun e => e.1 / 32 == p && e.2.tx == tx && e.2.an == an && e.2.sci == sci)) then some .address
      else if 2 ≤ leAt r.data 1 1 || 4 ≤ an || 2 ≤ leAt r.data 3 1 || xpn != s.flag (Reg.ethMsecCfg p) 16 then some .opcode
      else if (sakOf r).isNone then some .key
      else if 32 ≤ s.saCount p then some .unavailable else none
    new := fun _ r => saEntry (leAt r.data 0 1) (leAt r.data 1 1 == 1) (leAt r.data 2 1) (leAt r.data 8 8)
    eff := fun s r =>
      let p := leAt r.data 0 1
      let tx := leAt r.data 1 1 == 1
      match s.host.sas.firstFree (32 * p) 32, sakOf r with
      | some k, some key =>
        let a : MacSa := { tx := tx, an := leAt r.data 2 1, xpn := leAt r.data 3 1 == 1, sci := leAt r.data 8 8, pn := leAt r.data 16 8,
                           key := key, ssci := leAt r.data 24 4, salt := slice r.data 28 12, active := !tx, warned := false }
        .done .ok (BitVec.ofNat 8 (k % 32) :: zeros 7) (s.putSa k a)
      | _, _ => .done .unavailable [] s }

/-- MACSEC_SA_DELETE (R427). -/
def execMacsecSaDelete (m : Nat) (s : State) : Result :=
  s.command m {
    code := 0x0611, cls := 3, mark := .yes,
    check := fun s r => (lengthZero 8 2 6 r).orElse fun _ => if (s.saOf r).isNone then some .address else none
    old := fun s r => match s.saOf r with | some (k, a) => saEntry (k / 32) a.tx a.an a.sci | none => []
    new := fun s r => match s.saOf r with | some (k, a) => saEntry (k / 32) a.tx a.an a.sci | none => []
    eff := fun s r => match s.saOf r with
      | some (k, _) => .done .ok [] { s with host := { s.host with sas := s.host.sas.drop k } }
      | none => .done .address [] s }

/-- MACSEC_TX_ACTIVATE (R426): the SA is the port's transmit SA from the next frame on. -/
def execMacsecTxActivate (m : Nat) (s : State) : Result :=
  s.command m {
    code := 0x0612, cls := 3, mark := .yes,
    check := fun s r => (lengthZero 8 2 6 r).orElse fun _ =>
      match s.saOf r with | some (_, a) => if a.tx then none else some .address | none => some .address
    old := fun s r => match s.saOf r with | some (k, a) => saEntry (k / 32) a.tx a.an a.sci | none => []
    new := fun s r => match s.saOf r with | some (k, a) => saEntry (k / 32) a.tx a.an a.sci | none => []
    eff := fun s r => match s.saOf r with
      | some (k, _) =>
        let set (e : Nat × MacSa) : Nat × MacSa := if e.1 / 32 = k / 32 && e.2.tx then (e.1, { e.2 with active := e.1 == k }) else e
        .done .ok [] { s with host := { s.host with sas := s.host.sas.map set } }
      | none => .done .address [] s }

/-- MACSEC_SA_STATUS (R430). -/
def execMacsecSaStatus (m : Nat) (s : State) : Result :=
  s.command m {
    code := 0x0613, cls := 1, mark := .no,
    check := fun s r => (lengthZero 8 2 6 r).orElse fun _ => if (s.saOf r).isNone then some .address else none
    eff := fun s r => match s.saOf r with
      | some (_, a) => .done .ok ([BitVec.ofNat 8 a.tx.toNat, BitVec.ofNat 8 a.an, BitVec.ofNat 8 a.active.toNat] ++ zeros 5 ++
          leBytes 8 a.sci ++ leBytes 8 a.pn) s
      | none => .done .address [] s }

end Sys2Proof.Machine
end

