-- ==== Sys2Proof/Machine/Tables.lean ====
section
/-!
DEFINITION. The region table, the grants and the directory: their changes, how the standby applies them first (R278), placement of
panels (R279), and the region and grant commands (R124 to R127).
-/
namespace Sys2Proof.Machine

/-! ### Clearing a panel (R93, R125) -/

/-- Local panel `lp`, which held hoop panel `hp`, is cleared: its lines leave every cache, its swatches are UNWRITTEN and their
physical swatches FREE, and the MAJOR of each node advances, so that no counter is used twice; a lost node takes that of a rebuild
(R416). -/
def State.clearPanel (s : State) (hp lp : Nat) : State :=
  let mine (ln : Nat) : Bool := lineNo ln / 2 ^ 22 == hp && lineKeyId ln != 255
  let lsw (x : Nat) : Bool := x / 8192 == lp
  let ps (p : Nat) : Bool := let e := s.ldg p; (e.st == .mapped || e.st == .moveDst) && lsw e.lsw
  let freed (e : Nat × Ldg) : Nat × Ldg :=
    if ps e.1 then (e.1, { Ldg.unused with progs := e.2.progs }) else e
  let node (e : Nat × TreeNode) : Nat × TreeNode :=
    if lsw (e.1 / 8) then (e.1, { e.2 with major := (e.2.major + 1) % 2 ^ 63, minors := [] }) else e
  let gone := s.mem.lost.filter (fun n => lsw (n / 8))
  let r := if gone.isEmpty then s.kept.rebuilds else s.kept.rebuilds + 1
  { s with
    kept := { s.kept with rebuilds := r }
    mem := { s.mem with
      llc := s.mem.llc.filter (fun e => !mine e.1)
      evb := s.mem.evb.filter (fun e => !mine e.1)
      agents := s.mem.agents.filter (fun e => !mine (e.1 % 2 ^ 56))
      txns := s.mem.txns.filter (fun e => !mine e.1)
      tier := s.mem.tier.filter (fun e => !mine e.1)
      dramReads := s.mem.dramReads.filter (fun e => !mine e.line)
      dram := { s.mem.dram with reqs := s.mem.dram.reqs.filter (fun r => match r.line with | some x => !mine x | none => true) }
      senses := s.mem.senses.filter (fun e => !mine e.2.line)
      programs := s.mem.programs.filter (fun e => !mine e.2.line)
      med := s.mem.med.filter (fun e => !ps (e.1 / 512))
      conv := s.mem.conv.filter (fun e => !lsw (e.1 / 8))
      tags := s.mem.tags.filter (fun e => !(decide (e.1 < 2 ^ 32) && lsw (e.1 / 8)))
      nodes := gone.foldl (fun t n => t.put n { major := r * 2 ^ 40, ver := false, minors := [] }) (s.mem.nodes.map node)
      lost := s.mem.lost.filter (fun n => !lsw (n / 8))
      dirtyNodes := s.mem.dirtyNodes ++ gone.filter (fun n => !s.mem.dirtyNodes.contains n)
      prk := s.mem.prk.filter (fun e => !lsw e.1)
      ldg := (s.mem.ldg.map freed).filter (fun e => !decide (e.2 = Ldg.unused))
      moves := s.mem.moves.filter (fun e => !lsw e.2.lsw)
      zeroFill := s.mem.zeroFill.filter (fun e => !lsw e.1) } }

/-- The local panels a directory entry gives this device. -/
def State.ownCopies (s : State) (e : DirEntry) : List Nat :=
  (if e.devA = s.self then [e.lpA] else []) ++ (if e.mirrored && e.devB == s.self then [e.lpB] else []) ++
    (match e.move with | some (d, lp, _) => if d = s.self then [lp] else [] | none => [])

/-- The hint of the swatch at hoop address `a`, kept with the tables (R212). -/
def State.hintAt (s : State) (a : Nat) : Nat := s.lace.hints.get (a / 131072) 0

/-- The HINT field of the pricking entry of the swatch at hoop address `a`, where its panel is held here (R208). -/
def State.hintHere (s : State) (a : Nat) : State :=
  match s.localLine (a / 256) with
  | some l =>
    let e : Prk := { s.prk (l / 512) with hint := s.hintAt a }
    { s with mem := { s.mem with prk := s.mem.prk.set (l / 512) e .unwritten } }
  | none => s

/-- The hint of every swatch of a range (R208, R212). -/
def State.setHints (s : State) (base size hint : Nat) : State :=
  (List.range (size / 131072)).foldl (fun t i =>
    let a := base + 131072 * i
    ({ t with lace := { t.lace with hints := t.lace.hints.set (a / 131072) hint 0 } } : State).hintHere a) s

/-- The hints as the manager holds them (R212): a device that joins or takes the standby's role takes them whole. -/
def State.takeHints (s : State) (l : Table Nat) : State :=
  let old := s.lace.hints.keys
  (old ++ l.keys).foldl (fun t k => t.hintHere (131072 * k)) { s with lace := { s.lace with hints := l } }

/-- Nodes of a local panel that comes into use carry the version under which its lines are first encrypted (R419). -/
def State.freshPanel (s : State) (lp : Nat) (keyId : Nat) : State :=
  let node (e : Nat × TreeNode) : Nat × TreeNode := if e.1 / 65536 = lp then (e.1, { e.2 with ver := s.newVer keyId }) else e
  { s with mem := { s.mem with nodes := s.mem.nodes.map node, tags := s.mem.tags.filter (fun e => e.1 / 65536 != lp) } }

/-! ### Applying changes -/

/-- A connection under a grant that changes (R125): reset where the class changes, the source is no longer permitted, or the grant is
gone. -/
def State.regrant (s : State) (id : Nat) (g : Option Grant) : State :=
  s.host.conns.foldl (fun t e =>
    if e.2.grant = id then
      let stays := match g with | some x => x.cls == e.2.cls && grantPermits x e.2.peer.ip | none => false
      if stays then t else t.resetConn e.1 0x09
    else t) s

/-- The chunks of a panel that mirrored writes still open on this device touch: those of its fork records, and those it sends as manager. -/
def State.openChunks (s : State) (hp : Nat) : List Nat :=
  let of (a n : Nat) : List Nat := ((linesOf a n).filter (fun ln => lineNo ln / 2 ^ 22 == hp)).map (fun ln => lineNo ln % 2 ^ 22 / 4096)
  (s.lace.forks.flatMap (fun f => of f.addr f.len) ++
    s.lace.splits.flatMap (fun x => x.2.parts.flatMap (fun p => if p.mirror then of p.st.addr p.st.length else []))).eraseDups

/-- The resync map of a panel (R284): it starts on the device of the CURRENT copy when the other copy is no longer CURRENT, with the chunks
of the writes still open, and ends when that copy is CURRENT again. -/
def State.keepMap (s : State) (hp : Nat) (d : DirEntry) : State :=
  let mine := (d.devA == s.self && d.copyA == 0 && d.copyB != 0) || (d.devB == s.self && d.copyB == 0 && d.copyA != 0)
  let maps := if d.mirrored && mine then (if s.lace.maps.has hp then s.lace.maps else s.lace.maps.put hp (s.openChunks hp)) else s.lace.maps.drop hp
  { s with lace := { s.lace with maps := maps } }

/-- The state with a directory entry changed. Local panels that the device no longer holds under it are cleared. -/
def State.putDir (s : State) (hp : Nat) (e : Option DirEntry) : State :=
  let old := match s.mem.dir.find hp with | some d => s.ownCopies d | none => []
  let new := match e with | some d => s.ownCopies d | none => []
  let s1 := (old.filter (fun lp => !new.contains lp)).foldl (fun t lp => t.clearPanel hp lp) s
  let s2 : State := { s1 with mem := { s1.mem with dir := match e with | some d => s1.mem.dir.put hp d | none => s1.mem.dir.drop hp } }
  let s2 := match e with | some d => s2.keepMap hp d | none => s2
  let keyId := (e.map (·.keyId)).getD 0
  let fresh := new.filter (fun lp => !old.contains lp)
  let s3 := fresh.foldl (fun t lp => t.freshPanel lp keyId) s2
  let hinted := (s3.lace.hints.keys.filter (fun k => k / 8192 == hp))
  match e with
  | some _ => if fresh.isEmpty then s3 else hinted.foldl (fun t k => t.hintHere (k * 131072)) s3
  | none => { s3 with lace := { s3.lace with hints := s3.lace.hints.filter (fun x => x.1 / 8192 != hp) } }

/-- One change takes effect (R125, R278). -/
def State.applyChange (s : State) (c : TableChange) : State :=
  match c with
  | .region id (some r) => { s with mem := { s.mem with regions := s.mem.regions.put id r } }
  | .region id none =>
    let g (x : Grant) : Grant := { x with entries := x.entries.filter (fun e => e.1 != id) }
    { s with mem := { s.mem with regions := s.mem.regions.drop id, grants := s.mem.grants.map (fun e => (e.1, g e.2)) } }
  | .grant id (some g) => ({ s with mem := { s.mem with grants := s.mem.grants.put id g } } : State).regrant id (some g)
  | .grant id none => ({ s with mem := { s.mem with grants := s.mem.grants.drop id } } : State).regrant id none
  | .dir hp e => s.putDir hp e
  | .matrix id (some req) =>
    if s.filet.matrices.has id then s
    else
      let x : Matrix := { request := req, st := 0, groups := [], hoopTiles := 0, waits := [], mailbox := none }
      { s with filet := { s.filet with matrices := s.filet.matrices.put id x } }
  | .member d (some serial) =>
    let x : Member := s.lace.members.get d { serial := serial, present := false, parents := [], said := none, readOnly := false,
                                             badKeys := [] }
    { s with lace := { s.lace with members := s.lace.members.put d { x with serial := serial } } }
  | .member d none => { s with lace := { s.lace with members := s.lace.members.drop d } }
  | .only panels regions grants =>
    let s1 := (s.mem.dir.keys.filter (fun hp => !panels.contains hp)).foldl (fun t hp => t.putDir hp none) s
    { s1 with mem := { s1.mem with
        regions := s1.mem.regions.filter (fun e => regions.contains e.1)
        grants := s1.mem.grants.filter (fun e => grants.contains e.1) } }
  | .matrix id none => { s with filet := { s.filet with matrices := s.filet.matrices.drop id } }

/-- Changes take effect in their order. -/
def State.applyChanges (s : State) (l : List TableChange) : State := l.foldl (fun t c => t.applyChange c) s

/-- The other device that can be the standby: 1, or 0 after a takeover, when it is PRESENT (R255, R256). -/
def State.standbyDev (s : State) : Option Nat :=
  let d := if s.self = 0 then 1 else 0
  if s.isManager && (match s.lace.members.find d with | some m => m.present | none => false) then some d else none

/-- Does a change concern a worker? It holds the entries of its own panels and the matrices, and neither regions nor grants (R94). -/
def concerns (d : Nat) : TableChange → Bool
  | .dir _ (some e) => e.devA == d || (e.mirrored && e.devB == d) || (match e.move with | some (x, _, _) => x == d | none => false)
  | .dir _ none => true
  | .matrix _ _ => true
  | _ => false

/-- NOTICE FAILOVER of a kind to every connection whose grant names a region of these panels, one stitch for each contiguous range
(R284, R289, Table 03-14). -/
def ranges : List Nat → List (Nat × Nat)
  | [] => []
  | x :: t => match ranges t with
    | (a, n) :: rest => if x + 1 = a then (x, n + 1) :: rest else (x, 1) :: (a, n) :: rest
    | [] => [(x, 1)]

/-- The body of a NOTICE FAILOVER after the prefix (Table 03-14). -/
def State.failoverBody (s : State) (kind grace : Nat) (ip : IpAddr) (port base bytes : Nat) : List Byte :=
  let addr := if kind ≠ 1 then 0 else if ip.v6 then ip.addr else 0xFFFF00000000 + ip.addr
  [BitVec.ofNat 8 kind, 0] ++ beBytes 2 grace ++ beBytes 4 s.hoopEpoch ++ beBytes 16 addr ++ beBytes 2 port ++ zeros 6 ++ beBytes 8 base ++
    beBytes 8 bytes

/-- The NOTICE frames of an event of panels. -/
def State.panelNotice (s : State) (kind : Nat) (panels : List Nat) : State :=
  let region (hp : Nat) : Nat := match s.mem.dir.find hp with | some d => d.region | none => 0
  s.host.conns.foldl (fun t e =>
    let named := match s.mem.grants.find e.2.grant with
      | some g => panels.filter (fun hp => g.entries.any (fun x => x.1 == region hp))
      | none => []
    if e.2.st = .closing then t
    else (ranges (ascending named)).foldl (fun u r =>
      u.notice e.1 4 (u.failoverBody kind 0 { v6 := true, addr := 0 } 0 (r.1 * 2 ^ 30) (r.2 * 2 ^ 30))) t) s

/-- What follows a change once it has taken effect. -/
def State.syncAct (s : State) (a : SyncAct) : State :=
  match a with
  | .none => s
  | .mailbox _ => s
  | .standby => { s with lace := { s.lace with standbyCurrent := true } }
  | .failover l => s.panelNotice 2 l
  | .lost l => s.panelNotice 3 l
  | .restored l => s.panelNotice 4 l

/-- A change of tables (R278): the devices concerned are told; where a standby is present the change takes effect once it has applied
it, otherwise at once. -/
def State.change (s : State) (l : List TableChange) (a : SyncAct) : State :=
  let s1 := s.othersPresent.foldl (fun t d =>
    let mine := if some d = s.standbyDev then [] else l.filter (concerns d)
    if mine.isEmpty then t else t.sendControl d (.sync mine)) s
  match s.standbyDev with
  | none => (s1.applyChanges l).syncAct a
  | some d =>
    let s2 := s1.sendControl d (.sync l)
    let j : SyncJob := { rseq := (s2.route d).tx, changes := l, act := a }
    { s2 with lace := { s2.lace with jobs := s2.lace.jobs ++ [j] } }

/-- The standby has taken every route frame up to RACK: the changes they carried take effect (R278). -/
def State.synced (s : State) (rack : Nat) : State :=
  let done := s.lace.jobs.filter (fun j => !seqAfter j.rseq rack)
  let s1 : State := { s with lace := { s.lace with jobs := s.lace.jobs.filter (fun j => seqAfter j.rseq rack) } }
  done.foldl (fun t j => (t.applyChanges j.changes).syncAct j.act) s1

/-- Without a standby, changes that waited for it take effect. -/
def State.syncedAll (s : State) : State :=
  let l := s.lace.jobs
  l.foldl (fun t j => (t.applyChanges j.changes).syncAct j.act) { s with lace := { s.lace with jobs := [] } }

/-- How a command that changes tables ends: at once, or held until the standby has applied the change (R278). -/
def State.changeEnd (s : State) (r : Req) (l : List TableChange) : CmdEnd :=
  if s.standbyDev.isNone then .done .ok [] (s.change l .none) else .later .ok [] (s.change l (.mailbox r.m))

/-! ### Placement of panels (R170, R279) -/

/-- Local panels of a device in use. -/
def usedPanels (dir : Table DirEntry) (d : Nat) : List Nat :=
  dir.flatMap (fun e =>
    (if e.2.devA = d then [e.2.lpA] else []) ++ (if e.2.mirrored && e.2.devB == d then [e.2.lpB] else []) ++
      (match e.2.move with | some (x, lp, _) => if x = d then [lp] else [] | none => []))

/-- The devices that can take panels: the members PRESENT, or the device alone. -/
def State.panelDevs (s : State) : List Nat :=
  if s.lace.members.isEmpty then [s.self] else (s.lace.members.filter (fun e => e.2.present)).map (·.1)

/-- The device with the most free local panels, the lower number on a tie; `none` where none is free. -/
def mostFree (dir : Table DirEntry) (l : List Nat) : Option Nat :=
  (l.foldl (fun (a : Option (Nat × Nat)) d =>
    let n := 3584 - (usedPanels dir d).length
    match a with
    | none => if n = 0 then none else some (d, n)
    | some (_, b) => if b < n then some (d, n) else a) none).map (·.1)

/-- The lowest free local panel of a device. -/
def lowPanel (dir : Table DirEntry) (d : Nat) : Nat :=
  let u := usedPanels dir d
  ((List.range 3584).find? (fun p => !u.contains p)).getD 0

/-- Devices for copy B of a panel whose copy A is on `a`: others, where there is a choice without a parent in common and not the other
of devices 0 and 1. -/
def State.mirrorDevs (s : State) (a : Nat) : List Nat :=
  let others := s.panelDevs.filter (· != a)
  let parents (d : Nat) : List Nat := (s.lace.members.find d).map (·.parents) |>.getD []
  let good := others.filter (fun d => !(decide (a ≤ 1) && decide (d ≤ 1)) && !(parents d).any (fun p => (parents a).contains p))
  if good.isEmpty then others else good

/-- Places `n` panels from hoop panel `hp` upward, with directory indexes from `ix`; `none` where a panel finds no place. -/
def State.placePanels (s : State) (region keyId : Nat) (mirrored : Bool) : Nat → Nat → Nat → Table DirEntry → Option (Table DirEntry)
  | 0, _, _, dir => some dir
  | n + 1, hp, ix, dir =>
    match mostFree dir s.panelDevs with
    | none => none
    | some a =>
      let e : DirEntry := { index := ix, devA := a, lpA := lowPanel dir a, devB := 0, lpB := 0, mirrored := mirrored, st := 0,
                            region := region, keyId := keyId, copyA := 0, copyB := if mirrored then 0 else 2, move := none }
      if mirrored then
        match (mostFree dir (s.mirrorDevs a)).orElse (fun _ => mostFree dir (s.panelDevs.filter (· != a))) with
        | none => none
        | some b => State.placePanels s region keyId mirrored n (hp + 1) (ix + 1) (dir.put hp { e with devB := b, lpB := lowPanel dir b })
      else State.placePanels s region keyId mirrored n (hp + 1) (ix + 1) (dir.put hp e)

/-- The start of the lowest run of `n` free directory indexes, of those in ascending `used`; `none` where there is no such run below
229,376 (R277). -/
def freeRun (n : Nat) : Nat → List Nat → Option Nat
  | at', [] => if at' + n ≤ 229376 then some at' else none
  | at', u :: t => if at' + n ≤ u then some at' else freeRun n (u + 1) t

/-- A directory whose entries have the lowest indexes, in their order (R277). -/
def compactDir (dir : Table DirEntry) : Table DirEntry :=
  let rank (e : DirEntry) : Nat := (dir.filter (fun x => decide (x.2.index < e.index))).length
  dir.map (fun e => (e.1, { e.2 with index := rank e.2 }))

/-- The directory with room for `n` more entries in one run, and where the run begins. -/
def State.dirRoom (s : State) (n : Nat) : Option (Nat × Table DirEntry) :=
  match freeRun n 0 (ascending (s.mem.dir.values.map (·.index))) with
  | some a => some (a, s.mem.dir)
  | none => if s.mem.dir.length + n ≤ 229376 then some (s.mem.dir.length, compactDir s.mem.dir) else none

/-- The directory after a new region's panels are placed; `none` where the hoop lacks the panels, or a panel of the range is still being
cleared (log entry 160). -/
def State.placeRegion (s : State) (id keyId : Nat) (mirrored : Bool) (base size : Nat) : Option (Table DirEntry) :=
  let n := size / 2 ^ 30
  if s.mem.dir.any (fun e => decide (base / 2 ^ 30 ≤ e.1) && decide (e.1 < base / 2 ^ 30 + n)) then none
  else (s.dirRoom n).bind (fun r => s.placePanels id keyId mirrored n (base / 2 ^ 30) r.1 r.2)

/-- The changes that lead from one directory to another. -/
def dirChanges (old new : Table DirEntry) : List TableChange :=
  (old.filter (fun e => !new.has e.1)).map (fun e => .dir e.1 none) ++
    (new.filter (fun e => old.find e.1 != some e.2)).map (fun e => .dir e.1 (some e.2))

/-! ### Region commands (Tables 04-8 to 04-10, R583) -/

/-- STATE of a region (Table 04-10). -/
def State.regionState (s : State) (id : Nat) : Nat :=
  let l := (s.mem.dir.filter (fun e => e.2.region == id)).map (·.2.st)
  if l.contains 3 then 2 else if l.contains 1 then 1 else 0

/-- A region as REGION_LIST shows it (Table 04-10). -/
def State.regionEntry (s : State) (id : Nat) (r : Region) : List Byte :=
  leBytes 2 id ++ [BitVec.ofNat 8 r.keyId, BitVec.ofNat 8 r.mirrored.toNat, BitVec.ofNat 8 (s.regionState id), 0, 0, 0] ++
    leBytes 8 r.base ++ leBytes 8 r.size

/-- REGION_CREATE (R93, R124, R583). -/
def execRegionCreate (m : Nat) (s : State) : Result :=
  s.command m {
    code := 0x0201, cls := 3, mark := .yes,
    check := fun s r => (lengthZero 24 4 4 r).orElse fun _ =>
      let id := leAt r.data 0 2
      let base := leAt r.data 8 8
      let size := leAt r.data 16 8
      if 2 ≤ leAt r.data 3 1 then some .length
      else if base % 2 ^ 30 ≠ 0 || size = 0 || size % 2 ^ 30 ≠ 0 then some .align
      else if id = 0 || 4095 < id || s.mem.regions.has id then some .address
      else if 2 ^ 56 < base + size || s.mem.regions.any (fun e => decide (e.2.base < base + size) && decide (base < e.2.base + e.2.size))
      then some .address
      else if leAt r.data 2 1 = 255 then some .key
      else if (s.placeRegion id (leAt r.data 2 1) (leAt r.data 3 1 == 1) base size).isNone then some .unavailable else none
    eff := fun s r =>
      let id := leAt r.data 0 2
      let x : Region := { keyId := leAt r.data 2 1, mirrored := leAt r.data 3 1 == 1, base := leAt r.data 8 8, size := leAt r.data 16 8 }
      match s.placeRegion id x.keyId x.mirrored x.base x.size with
      | none => .done .unavailable [] s
      | some dir => s.changeEnd r (.region id (some x) :: dirChanges s.mem.dir dir) }

/-- REGION_DELETE (R125, R126): refused while a matrix lies in the region; its panels are CLEARING (Table 08-8) until the stitches already
issued have ended and every device that holds one has cleared it, which MBX_COMMAND_DONE sees to (R174). -/
def execRegionDelete (m : Nat) (s : State) : Result :=
  s.command m {
    code := 0x0202, cls := 3, mark := .yes,
    check := fun s r => (lengthZero 8 2 6 r).orElse fun _ =>
      match s.mem.regions.find (leAt r.data 0 2) with
      | none => some .address
      | some x =>
        if s.filet.matrices.any (fun e => decide (x.base ≤ e.2.source % 2 ^ 56) && decide (e.2.source % 2 ^ 56 < x.base + x.size))
        then some .denied else none
    old := fun s r => match s.mem.regions.find (leAt r.data 0 2) with | some x => s.regionEntry (leAt r.data 0 2) x | none => []
    eff := fun s r =>
      let id := leAt r.data 0 2
      let panels := s.mem.dir.filter (fun e => e.2.region == id)
      .later .ok [] (s.change (panels.map (fun e => .dir e.1 (some { e.2 with st := 4 })) ++ [.region id none]) (.mailbox r.m)) }

/-- REGION_LIST (R124). -/
def execRegionList (m : Nat) (s : State) : Result :=
  s.command m {
    code := 0x0203, cls := 1, mark := .no,
    check := fun _ r => lengthZero 4 2 2 r
    eff := fun s r =>
      let l := s.mem.regions.filter (fun e => decide (leAt r.data 0 2 ≤ e.1))
      let now' := l.take 170
      let next := match l.drop 170 with | [] => 0 | e :: _ => e.1
      .done .ok (leBytes 2 now'.length ++ leBytes 2 next ++ zeros 4 ++ now'.flatMap (fun e => s.regionEntry e.1 e.2)) s }

/-! ### Grant commands (Table 04-11) -/

/-- A grant as Table 04-11 lays it out. -/
def grantBody (id : Nat) (g : Grant) : List Byte :=
  leBytes 2 id ++ [BitVec.ofNat 8 g.cls, BitVec.ofNat 8 g.ctr.toNat] ++ leBytes 2 g.ctrFirst ++ leBytes 2 g.ctrCount ++
    [if g.v6 then 6 else 4, BitVec.ofNat 8 g.prefixLen] ++ leBytes 2 g.entries.length ++ zeros 4 ++
    (if g.v6 then beBytes 16 g.netPrefix else beBytes 4 g.netPrefix ++ zeros 12) ++
    g.entries.flatMap (fun e => leBytes 2 e.1 ++ [BitVec.ofNat 8 e.2, 0])

/-- The grant a GRANT_SET request holds. -/
def grantOf (d : List Byte) : Grant :=
  let v6 := leAt d 8 1 == 6
  { cls := leAt d 2 1, ctr := leAt d 3 1 == 1, ctrFirst := leAt d 4 2, ctrCount := leAt d 6 2, v6 := v6, prefixLen := leAt d 9 1,
    netPrefix := if v6 then beAt d 16 16 else beAt d 16 4,
    entries := (List.range (leAt d 10 2)).map (fun i => (leAt d (32 + 4 * i) 2, leAt d (34 + 4 * i) 1)) }

/-- The checks of GRANT_SET in the order of R583. -/
def State.grantCheck (s : State) (r : Req) : Option Status :=
  let d := r.data
  let n := leAt d 10 2
  let v6 := leAt d 8 1 == 6
  if 3 ≤ d.length && (leAt d 2 1 = 0 || 4 ≤ leAt d 2 1) then some .opcode
  else if 9 ≤ d.length && leAt d 8 1 ≠ 4 && leAt d 8 1 ≠ 6 then some .opcode
  else if d.length < 32 then some .length
  else if d.length ≠ 32 + 4 * n then some .length
  else if 2 ≤ leAt d 3 1 || (if v6 then 128 else 32) < leAt d 9 1 || 64 < n || !zeroAt d 12 4 || (!v6 && !zeroAt d 20 12) then some .length
  else if (List.range n).any (fun i => decide (16 ≤ leAt d (34 + 4 * i) 1) || leAt d (35 + 4 * i) 1 != 0) then some .length
  else if leAt d 0 2 = 0 || leAt d 0 2 = 0xFFFF then some .address
  else if 512 < leAt d 4 2 + leAt d 6 2 then some .address
  else if (List.range n).any (fun i => !s.mem.regions.has (leAt d (32 + 4 * i) 2)) then some .address
  else if leAt d 3 1 = 1 && leAt d 2 1 = 1 then some .denied
  else if !s.mem.grants.has (leAt d 0 2) && decide (1024 ≤ s.mem.grants.length) then some .unavailable
  else none

/-- GRANT_SET (R94, R125). -/
def execGrantSet (m : Nat) (s : State) : Result :=
  s.command m {
    code := 0x0210, cls := 3, mark := .yes,
    check := fun s r => s.grantCheck r
    old := fun s r => match s.mem.grants.find (leAt r.data 0 2) with | some g => grantBody (leAt r.data 0 2) g | none => []
    eff := fun s r => s.changeEnd r [.grant (leAt r.data 0 2) (some (grantOf r.data))] }

/-- GRANT_DELETE (R125). -/
def execGrantDelete (m : Nat) (s : State) : Result :=
  s.command m {
    code := 0x0211, cls := 3, mark := .yes,
    check := fun s r => (lengthZero 8 2 6 r).orElse fun _ => if s.mem.grants.has (leAt r.data 0 2) then none else some .address
    old := fun s r => match s.mem.grants.find (leAt r.data 0 2) with | some g => grantBody (leAt r.data 0 2) g | none => []
    eff := fun s r => s.changeEnd r [.grant (leAt r.data 0 2) none] }

/-- GRANT_LIST (R124). -/
def execGrantList (m : Nat) (s : State) : Result :=
  s.command m {
    code := 0x0212, cls := 2, mark := .no,
    check := fun s r => (lengthZero 4 2 2 r).orElse fun _ =>
      if (s.mem.grants.nextKey (leAt r.data 0 2)).isSome then none else some .address
    eff := fun s r => match s.mem.grants.nextKey (leAt r.data 0 2) with
      | none => .done .address [] s
      | some id => match s.mem.grants.find id with
        | none => .done .address [] s
        | some g => .done .ok (leBytes 2 ((s.mem.grants.nextKey (id + 1)).getD 0) ++ zeros 6 ++ grantBody id g) s }

end Sys2Proof.Machine
end

