-- ==== Sys2Proof/Machine/Opcodes.lean ====
section
/-!
DEFINITION. The checks of a request stitch (Table 04-2), the order within a connection (R102, R113, R114), what the manager sends
to the devices that hold a stitch's panels (R271 to R281), and the memory opcodes (R99 to R106).
-/
namespace Sys2Proof.Machine

/-! ### Checks 3 to 5 -/

/-- LENGTH and PLEN as Table 04-3 and R59 require. -/
def Stitch.lengthOk (t : Stitch) : Bool :=
  let n := t.length
  let p := t.payload.length
  match t.opcode with
  | 1 => p == 0
  | 2 => p == n
  | 3 => p == 0
  | 4 => if t.subop = 2 then n == 16 && p == 32 else n == 8 && p == 8
  | 5 | 6 => p == 8
  | 9 => decide (8 ≤ n) && decide (n ≤ 4096) && p == n
  | 0x0A => decide (8 ≤ n) && decide (n ≤ 256) && n % 8 == 0 && p == (if t.subop = 1 then n else 0)
  | 0x0B => decide (16 ≤ n) && decide (n ≤ 8192) && n % 16 == 0 && p == 0
  | _ => true

/-- Alignment as Table 04-3 requires. -/
def Stitch.alignOk (t : Stitch) : Bool :=
  match t.opcode with
  | 4 => t.addr % t.length == 0
  | 0x0A => t.addr % 8 == 0
  | _ => true

/-- Checks 3 to 5 of Table 04-2. -/
def State.formCheck (s : State) (t : Stitch) : Option Status :=
  if s.power = .held && t.opcode ≠ 9 then some .held
  else if !t.lengthOk then some .length
  else if !t.alignOk then some .align
  else none

/-! ### Checks 6 to 11 of a range -/

/-- A range a stitch uses, with the right it needs (R94: 0 READ, 1 WRITE, 2 ATOMIC, 3 FILET) and whether it is written. -/
structure Span where
  addr : Nat
  len : Nat
  right : Nat
  write : Bool
  deriving DecidableEq, Repr

/-- The ranges of a memory stitch; a COPY's source first (R105). -/
def Op.spans (o : Op) : List Span :=
  let n := o.st.length
  match o.st.opcode with
  | 1 => [{ addr := o.st.addr, len := n, right := 0, write := false }]
  | 2 | 6 => [{ addr := o.st.addr, len := n, right := 1, write := true }]
  | 4 => [{ addr := o.st.addr, len := n, right := 2, write := true }]
  | 5 => [{ addr := o.src, len := n, right := 0, write := false }, { addr := o.st.addr, len := n, right := 1, write := true }]
  | _ => []

/-- The region, of those in force at issue, that holds a range whole (R93, R125). -/
def Op.regionOf (o : Op) (x : Span) : Option (Nat × Region) :=
  let a := x.addr % 2 ^ 56
  o.regions.find? (fun r => decide (r.2.base ≤ a) && decide (a + x.len ≤ r.2.base + r.2.size))

/-- The hoop panels of a range, lowest first, with the part of the range in each. -/
def panelParts (addr len : Nat) : List (Nat × Nat × Nat) :=
  let a := addr % 2 ^ 56
  if len = 0 then []
  else
    let first := a / 2 ^ 30
    (List.range ((a + len - 1) / 2 ^ 30 - first + 1)).map (fun i =>
      let hp := first + i
      let lo := max a (hp * 2 ^ 30)
      let hi := min (a + len) ((hp + 1) * 2 ^ 30)
      (hp, addr - a + lo, hi - lo))

/-! ### Clearing the panels of a deleted region (R125, R174, Table 08-8) -/

/-- Does an operation that has not ended use a hoop panel? -/
def State.panelBusy (s : State) (hp : Nat) : Bool :=
  s.host.ops.any (fun e => (match e.2.phase with | .done _ => false | _ => true) &&
    e.2.spans.any (fun x => (panelParts x.addr x.len).any (fun q => q.1 == hp)))

/-- The CLEARING panels that no issued operation uses any more. -/
def State.clearable (s : State) : List Nat :=
  (s.mem.dir.filter (fun e => e.2.st == 4 && !s.panelBusy e.1)).map (·.1)

/-- They are cleared, here and on the workers that hold them. -/
def State.clearPanels (s : State) (a : SyncAct) : State :=
  if s.clearable.isEmpty then s else s.change (s.clearable.map (fun hp => .dir hp none)) a

/-- Has every other device taken the changes of tables sent to it, as its RACK says (R270)? -/
def State.tablesTaken (s : State) : Bool :=
  s.lace.routes.all (fun e => (e.2.store ++ e.2.waiting).all (fun f => match f.body with | .control (.sync _) => false | _ => true))

/-- Is every panel cleared that a REGION_DELETE had to clear? -/
def State.allCleared (s : State) : Bool := !s.mem.dir.any (fun e => e.2.st == 4) && s.tablesTaken

/-- The devices that hold a copy of a panel that may be read. -/
def currentDevs (e : DirEntry) : List Nat :=
  (if e.copyA = 0 then [e.devA] else []) ++ (if e.mirrored && e.copyB == 0 then [e.devB] else [])

/-- The devices that receive a write of a panel: CURRENT and RESYNC copies, and the target of a move (R279, R280). -/
def writerDevs (e : DirEntry) : List Nat :=
  (if e.copyA ≠ 2 then [e.devA] else []) ++ (if e.mirrored && e.copyB != 2 then [e.devB] else []) ++
    (match e.move with | some (d, _, _) => [d] | none => [])

/-- The device that serves reads of a panel: copy A of an even HPANEL and copy B of an odd one, or the only CURRENT copy (R280). -/
def readerDev (e : DirEntry) (hp : Nat) : Option Nat :=
  if e.mirrored && e.copyA == 0 && e.copyB == 0 then some (if hp % 2 = 0 then e.devA else e.devB) else (currentDevs e).head?

/-- The directory entries of a range's panels. -/
def State.panelsOf (s : State) (x : Span) : List DirEntry := (panelParts x.addr x.len).filterMap (fun p => s.mem.dir.find p.1)

/-- Can a key ID be used on every device that holds a copy of the panels (R397)? -/
def State.keyOkOn (s : State) (x : Span) : Bool :=
  let id := x.addr / 2 ^ 56 % 256
  (s.panelsOf x).all (fun e => (writerDevs e).all (fun d =>
    if d = s.self then s.keyUsable id
    else match s.lace.members.find d with | some m => !m.badKeys.contains id && !(s.keySlot id).locked | none => true))

/-- Is a device READ_ONLY (R205, R279)? -/
def State.readOnlyDev (s : State) (d : Nat) : Bool :=
  if d = s.self then s.fld Reg.plcSpare 24 23 == 2 else match s.lace.members.find d with | some m => m.readOnly | none => false

/-- The data path and the coherent domain serve (check 11). -/
def State.pathUp (s : State) : Bool := s.flag Reg.glbStatus 2 && s.domainIsUp

/-- Check `k` of Table 04-2 on one range. -/
def State.spanCheck (s : State) (o : Op) (k : Nat) (x : Span) : Option Status :=
  match k with
  | 6 => if 2 ^ 56 < x.addr % 2 ^ 56 + x.len || (o.regionOf x).isNone then some .address else none
  | 7 =>
    let id := x.addr / 2 ^ 56 % 256
    let bad := match o.regionOf x with | some r => r.2.keyId != id | none => true
    if id = 255 || bad || !s.keyOkOn x then some .key else none
  | 8 => match o.regionOf x with
    | none => some .denied
    | some r => match o.grant.entries.find? (fun e => e.1 == r.1) with
      | some e => if e.2.testBit x.right then none else some .denied
      | none => some .denied
  | 9 => if x.write && (s.panelsOf x).any (fun e => (writerDevs e).any s.readOnlyDev) then some .readOnly else none
  | 10 => if (s.panelsOf x).any (fun e => e.st == 3) then some .lost else none
  | _ =>
    let gone := (panelParts x.addr x.len).any (fun p => match s.mem.dir.find p.1 with
      | some e => e.st == 2 || (currentDevs e).isEmpty
      | none => true)
    if gone || !s.pathUp || s.lace.stopped || o.late then some .unavailable else none

/-- The first of checks 6 to 11 that a range fails, each check made on every range before the next (R97, R105). -/
def State.spanChecks (s : State) (o : Op) (l : List Span) : Option Status :=
  ([6, 7, 8, 9, 10, 11].flatMap (fun k => l.map (fun x => (k, x)))).findSome? (fun e => s.spanCheck o e.1 e.2)

/-- Checks 3 to 11 of a memory stitch of a connection; a device that executes for the manager makes checks 9 and 11 alone (R271). -/
def State.memCheck (s : State) (o : Op) : Option Status :=
  match o.origin with
  | .conn _ _ => (s.formCheck o.st).orElse fun _ => s.spanChecks o o.spans
  | .lace _ _ => (if o.admitted then none
      else o.spans.findSome? (fun x => if x.write && s.readOnlyDev s.self then some Status.readOnly else none)).orElse fun _ =>
    if !s.pathUp || o.late then some .unavailable else none
  | .part _ _ => none

/-! ### Order (R102, R113, R114, R273) -/

/-- Do two operations come from one stream: one connection, here or at the manager that forwards? -/
def sameStream (a b : Op) : Bool :=
  match a.origin, b.origin with
  | .conn i g, .conn j h => i == j && g == h
  | .lace d _, .lace e _ => d == e && a.conn == b.conn
  | _, _ => false

/-- Do the ranges of two operations overlap (R113)? -/
def overlap (a b : Op) : Bool :=
  a.spans.any (fun x => b.spans.any (fun y =>
    let p := x.addr % 2 ^ 56
    let q := y.addr % 2 ^ 56
    decide (p < q + y.len) && decide (q < p + x.len)))

/-- Are all panels of an operation served by this device alone? -/
def State.isLocal (s : State) (o : Op) : Bool :=
  o.spans.all (fun x => (panelParts x.addr x.len).all (fun q => match s.mem.dir.find q.1 with
    | none => true
    | some e => if x.write then writerDevs e == [s.self] else readerDev e q.1 == some s.self))

/-- Does a stitch address a device? -/
def Stitch.toDevice (t : Stitch) : Bool := t.opcode == 9 || t.opcode == 0x0A || t.opcode == 0x0B

/-- Does an operation of a connection go to other devices (R271, R276)? -/
def State.goesOut (s : State) (o : Op) : Bool :=
  (match o.origin with | .conn _ _ => true | _ => false) &&
    (if o.st.toDevice then o.st.addr / 2 ^ 48 % 64 != s.self else !s.isLocal o)

/-- Has an operation taken its effect? -/
def Op.over (o : Op) : Bool := match o.phase with | .done _ => o.mode == .normal | _ => false

/-- Is an operation of a connection carried out in parts, and still under way? -/
def State.inParts (s : State) (id : Nat) (o : Op) : Bool :=
  s.lace.splits.has id && (match o.origin with | .conn _ _ => true | _ => false)

/-- May an operation begin: no earlier FLUSH of its stream is open, none is open at all before a FLUSH or a stitch with FENCE, none
that overlaps it has yet to take effect, those that go to other devices before it have gone, no prepared stitch holds its lines, and no
stitch of any connection is carried out in parts over its range (R102, R113, R114, R273, R274, R280)? -/
def State.mayBegin (s : State) (id : Nat) (o : Op) : Bool :=
  s.host.ops.all (fun e =>
    if id ≤ e.1 then true
    else if sameStream e.2 o then
      !(e.2.st.opcode == 3) && !(o.st.opcode == 3) && !o.st.fence && (e.2.over || !overlap e.2 o) &&
        !(e.2.phase == .queued && s.goesOut e.2 && s.goesOut o)
    else true) &&
  s.host.ops.all (fun e => e.1 == id || !overlap e.2 o ||
    (e.2.mode == .normal && !((match o.origin with | .conn _ _ => true | _ => false) && s.inParts e.1 e.2)))

/-! ### Parts of a forwarded stitch (R273, R274) -/

/-- The state with a split changed. -/
def State.putSplit (s : State) (id : Nat) (x : Split) : State :=
  { s with lace := { s.lace with splits := s.lace.splits.put id x } }

/-- Part `k` of a split changed. -/
def State.modPart (s : State) (id k : Nat) (f : Part → Part) : State :=
  { s with lace := { s.lace with splits := s.lace.splits.modify id (fun x => { x with parts := x.parts.modify k f }) } }

/-- A stitch for one part of an operation's range. -/
def partStitch (o : Op) (opcode addr len : Nat) (payload : List Byte) : Stitch :=
  { o.st with opcode := opcode, addr := addr, length := len, payload := payload, fence := false, more := false, cont := false }

/-- The OPREF of part `k` of operation `id`: the one in use, or a new one. -/
def State.refOf (s : State) (id k : Nat) : Nat × State :=
  match s.lace.refs.find? (fun e => e.2 == (id, k)) with
  | some e => (e.1, s)
  | none =>
    let r := s.lace.nextRef % 2 ^ 32
    (r, { s with lace := { s.lace with refs := s.lace.refs.put r (id, k), nextRef := s.lace.nextRef + 1 } })

/-- A FORWARD of a stitch, in segments where it does not fit one frame (R55, R61). -/
def State.forwardFrames (s : State) (f : LaceFrame) (opref conn : Nat) (t : Stitch) : State :=
  ((packFrames (9216 - 58) [{ t with length := t.length % 65536 }] [] 0).flatten).foldl
    (fun u x => u.sendRoute { f with body := .forward opref conn x }) s

/-- A part is sent: to another device in a FORWARD frame, or to this device as an operation of its own. -/
def State.sendPart (s : State) (id k : Nat) (o : Op) (p : Part) (prepare commit abort : Bool) : State :=
  if p.dev = s.self then
    let mine (x : Op) : Bool := x.origin == .part id k
    if commit then { s with host := { s.host with ops := s.host.ops.map (fun e =>
        if mine e.2 then (e.1, { e.2 with mode := .normal, phase := .queued }) else e) } }
    else if abort then { s with host := { s.host with ops := s.host.ops.filter (fun e => !mine e.2) } }
    else
      let x : Op := { o with origin := .part id k, mode := if prepare then .prepare else .normal, st := p.st, phase := .queued, fails := [],
                             gate := none }
      { s with host := { s.host with ops := s.host.ops.put s.host.nextOp x, nextOp := s.host.nextOp + 1 } }
  else
    let r := s.refOf id k
    let f : LaceFrame := { src := s.self, dst := p.dev, prepare := prepare, commit := commit, abort := abort, mirror := p.mirror,
                           body := .routeAck }
    let t := if commit || abort then { p.st with payload := [] } else p.st
    let s1 := (r.2.forwardFrames f r.1 o.conn t).count (Reg.hopCount 0) 1
    let k1 := (o.conn * 64 + p.dev) * 2
    let u := s1.lace.used.put k1 s1.now
    let s1 : State := { s1 with lace := { s1.lace with used := if p.st.opcode = 1 then u else u.put (k1 + 1) s1.now } }
    let s2 := if p.mirror then s1.count (Reg.hopCount 2) 1 else s1
    s2.modPart id k (fun x => { x with rseq := (s2.route p.dev).tx })

/-- Sends every part that has not been sent yet. -/
def State.sendParts (s : State) (id : Nat) (o : Op) (l : List Part) (prepare commit abort : Bool) : State :=
  (List.range l.length).foldl (fun t k => match l[k]? with
    | some p => t.sendPart id k o p prepare commit abort
    | none => t) s

/-- The read parts of a range. -/
def State.readParts (s : State) (o : Op) (addr len : Nat) : List Part :=
  (panelParts addr len).map (fun q =>
    let d := match s.mem.dir.find q.1 with | some e => (readerDev e q.1).getD s.self | none => s.self
    { dev := d, panel := q.1, first := true, st := partStitch o 1 q.2.1 q.2.2 [], mirror := false, rseq := 0, tried := false, ph := .sent })

/-- The write parts of a range: one for each copy of each panel (R280). -/
def State.writeParts (s : State) (o : Op) (opcode addr len : Nat) (payload : Nat → Nat → List Byte) : List Part :=
  (panelParts addr len).flatMap (fun q =>
    let l := match s.mem.dir.find q.1 with | some e => (writerDevs e) | none => [s.self]
    (List.range l.length).map (fun i =>
      { dev := l.getD i 0, panel := q.1, first := i == 0, st := partStitch o opcode q.2.1 q.2.2 (payload q.2.1 q.2.2),
        mirror := decide (1 < l.length), rseq := 0, tried := false, ph := .sent }))

/-- Write parts begin: with PREPARE where they lie in several panels (R274), at once in one panel. -/
def State.beginWrite (s : State) (id : Nat) (o : Op) (l : List Part) : State :=
  let many := decide (1 < ((l.map (·.panel)).eraseDups).length)
  let s1 := s.putSplit id { st := if many then .prepare else .run, parts := l }
  (if many then s1.count (Reg.hopCount 1) 1 else s1).sendParts id o l many false false

/-- The bytes of an operation's payload for a part of its range. -/
def Op.partBytes (o : Op) (data : List Byte) (a n : Nat) : List Byte := slice data (a - o.st.addr) n

/-- May one device carry out a COPY: every device that holds a CURRENT copy of the destination holds one of the source (R275)? -/
def State.copyWhole (s : State) (o : Op) : Bool :=
  let dst := (panelParts o.st.addr o.st.length).filterMap (fun q => s.mem.dir.find q.1)
  let src := (panelParts o.src o.st.length).filterMap (fun q => s.mem.dir.find q.1)
  match dst, src with
  | [d], [c] => (writerDevs d).all (fun x => (currentDevs c).contains x)
  | _, _ => false

/-- A stitch whose panels are not all here is carried out in parts (R273 to R275, R280). -/
def State.startSplit (s0 : State) (id : Nat) (o : Op) : State :=
  let s := s0.modOp id (fun x => { x with phase := .waiting 0 })
  match o.st.opcode with
  | 1 =>
    let l := s.readParts o o.st.addr o.st.length
    let s1 := if l.length = 1 then s else s.count (Reg.hopCount 1) 1
    (s1.putSplit id { st := .run, parts := l }).sendParts id o l false false false
  | 5 =>
    if s.copyWhole o then s.beginWrite id o (s.writeParts o 5 o.st.addr o.st.length (fun _ _ => o.st.payload))
    else
      let l := s.readParts o o.src o.st.length
      (s.putSplit id { st := .copyRead, parts := l }).sendParts id o l false false false
  | 6 => s.beginWrite id o (s.writeParts o 6 o.st.addr o.st.length (fun _ _ => o.st.payload))
  | c => s.beginWrite id o (s.writeParts o c o.st.addr o.st.length (fun a n => if c = 2 then o.partBytes o.st.payload a n else o.st.payload))

/-- A memory operation begins (R271): here, or on the devices that hold its panels. -/
def State.beginOp (s : State) (id : Nat) (o : Op) : State :=
  match o.origin with
  | .conn _ _ => if s.isLocal o then s.runLocal id else s.startSplit id o
  | _ => s.runLocal id

/-! ### The parts' answers (R274 to R281) -/

/-- The response of a part; `none` while it is awaited. -/
def Part.answer (p : Part) : Option Response := match p.ph with | .done r => some r | _ => none

/-- A status that another copy may make good (R281). -/
def repairable (st : Status) : Bool := st == .integrity || st == .uncorrectable || st == .poisoned || st == .okPoison

/-- Parts of the same panel other than part `k`. -/
def Split.siblings (x : Split) (k : Nat) : List (Nat × Part) :=
  match x.parts[k]? with
  | none => []
  | some p => ((List.range x.parts.length).zip x.parts).filter (fun e => e.1 != k && e.2.panel == p.panel)

/-- The part that needs a repair next (R281): a write refused by one copy while another answered OK; a read that failed while another
CURRENT copy is there. The device with the good copy comes with it. -/
def State.divergent (s : State) (x : Split) : Option (Nat × Nat) :=
  ((List.range x.parts.length).zip x.parts).findSome? (fun e =>
    match e.2.answer with
    | none => none
    | some r =>
      if e.2.tried || !repairable r.status then none
      else if e.2.st.opcode = 1 then
        match s.mem.dir.find e.2.panel with
        | some d => (((currentDevs d).filter (· != e.2.dev)).head?).map (fun g => (e.1, g))
        | none => none
      else ((x.siblings e.1).find? (fun q => match q.2.answer with | some a => a.status == .ok | none => false)).map (fun q => (e.1, q.2.dev)))

/-- The whole lines that a part's range covers: address and length. -/
def Part.cover (p : Part) : Nat × Nat :=
  let a := p.st.addr - p.st.addr % 256
  (a, (p.st.addr + p.st.length + 255) / 256 * 256 - a)

/-- A repair begins: the lines concerned are read from the good copy (R281). -/
def State.repairRead (s : State) (id : Nat) (o : Op) (x : Split) (bad good : Nat) : State :=
  match x.parts[bad]? with
  | none => s
  | some p =>
    let c := p.cover
    let q : Part := { dev := good, panel := p.panel, first := false, st := partStitch o 1 c.1 c.2 [], mirror := false, rseq := 0,
                      tried := true, ph := .sent }
    let s1 := s.putSplit id { st := .goodRead bad, parts := (x.parts.modify bad (fun y => { y with tried := true })) ++ [q] }
    s1.sendPart id x.parts.length o q false false false

/-- The status of the lowest-addressed part that failed, `none` when every panel has an OK; of a mirrored panel that both copies
refuse, copy A's (R274, R281). -/
def Split.failure (x : Split) (answer : Part → Option Status) : Option Status :=
  ((List.range x.parts.length).zip x.parts).findSome? (fun e =>
    if !e.2.first then none
    else match answer e.2 with
      | none => none
      | some .ok => none
      | some st => if (x.siblings e.1).any (fun q => answer q.2 == some .ok) then none else some st)

/-- Data and mask of a READ's response. -/
def readBits (p : Part) (r : Response) : List Byte × List Bool :=
  let n := (p.st.addr % 64 + p.st.length + 63) / 64
  let mask := r.payload.drop p.st.length
  (r.payload.take p.st.length, (List.range n).map (fun i => r.status == .okPoison && byteBit (mask.getD (i / 8) 0) (i % 8)))

/-- The merged response of read parts (R274). -/
def mergeReads (o : Op) (l : List Part) : Response :=
  let l1 := l.filterMap (fun p => p.answer.map (fun r => readBits p r))
  let bits := l1.flatMap (·.2)
  let data := l1.flatMap (·.1)
  if bits.any (· == true) then o.answer .okPoison [] (data ++ poisonMask bits) else o.answer .ok [] data

/-- A split stitch ends with its response. -/
def State.endSplit (s : State) (id : Nat) (r : Response) : State :=
  let s1 : State := { s with lace := { s.lace with splits := s.lace.splits.drop id, refs := s.lace.refs.filter (fun e => e.2.1 != id) } }
  s1.finishOp id r

/-- A mirrored write that one copy refused with THROTTLED while the other carried it out (log entry 161). -/
def Split.lagging (x : Split) : Option Nat :=
  ((List.range x.parts.length).zip x.parts).findSome? (fun e => match e.2.answer with
    | some r => if r.status = .throttled && (x.siblings e.1).any (fun q => match q.2.answer with | some a => a.status == .ok | none => false)
        then some e.1 else none
    | none => none)

/-- The parts of a stitch have all answered: repairs run first (R281), a write that waits on one copy is sent there again until both hold
it (R117), then the answers are merged. -/
def State.settleRun (s : State) (id : Nat) (o : Op) (x : Split) : State :=
  match s.divergent x, x.lagging.bind (fun k => (x.parts[k]?).map (fun p => (k, p))) with
  | some (bad, good), _ => s.repairRead id o x bad good
  | none, some (k, p) =>
    let s1 : State := { s with lace := { s.lace with refs := s.lace.refs.filter (fun e => e.2 != (id, k)) } }
    (s1.putSplit id { x with parts := x.parts.modify k (fun y => { y with ph := .sent }) }).sendPart id k o p false false false
  | none, none =>
    let st (p : Part) : Option Status := p.answer.map (fun r => if r.status = .okPoison then .ok else r.status)
    if o.st.opcode = 9 || o.st.opcode = 0x0A || o.st.opcode = 0x0B then
      match (x.parts.head?).bind (·.answer) with
      | some r => s.endSplit id { r with tag := o.st.tag, opcode := o.st.opcode, subop := o.st.subop, length := o.st.length }
      | none => s
    else match x.failure st with
      | some e => s.endSplit id (o.st.refusal e)
      | none =>
        if o.st.opcode = 1 then s.endSplit id (mergeReads o x.parts)
        else match x.parts.findSome? (fun p => match p.answer with | some r => if r.status = .ok then some r else none | none => none) with
          | some r => s.endSplit id (o.answer .ok r.result (if o.st.opcode = 4 then r.payload else []))
          | none => s

/-- Every part has prepared: COMMIT where every panel can be written, ABORT otherwise (R274). A copy that refused is dropped from the
COMMIT and repaired from the other (R281). -/
def State.settlePrepare (s : State) (id : Nat) (o : Op) (x : Split) : State :=
  let st (p : Part) : Option Status := match p.ph with | .prepared a => some a | _ => none
  match (x.failure st).orElse fun _ => x.parts.findSome? (fun p => match st p with
      | some a => if a = .ok || repairable a then none else some a
      | none => none) with
  | some e => (s.sendParts id o x.parts false false true).endSplit id (o.st.refusal e)
  | none =>
    let next (p : Part) : Part := match p.ph with
      | .prepared .ok => { p with ph := .sent }
      | .prepared a => { p with ph := .done (o.st.refusal a) }
      | _ => p
    let s1 := s.putSplit id { st := .commit, parts := x.parts.map next }
    (List.range x.parts.length).foldl (fun t k => match x.parts[k]? with
      | some p => if st p == some .ok then t.sendPart id k o p false true false else t.sendPart id k o p false false true
      | none => t) s1

/-- The source of a COPY has been read (R275): its data is written, or the COPY ends with the status of the lowest failing part. -/
def State.settleCopy (s : State) (id : Nat) (o : Op) (x : Split) : State :=
  let st (p : Part) : Option Status := p.answer.map (fun r => if r.status = .okPoison then .poisoned else r.status)
  match x.parts.findSome? (fun p => match st p with | some .ok => none | some e => some e | none => none) with
  | some e => s.endSplit id (o.st.refusal e)
  | none =>
    let data := x.parts.flatMap (fun p => match p.answer with | some r => r.payload | none => [])
    let s1 : State := { s with lace := { s.lace with refs := s.lace.refs.filter (fun e => e.2.1 != id) } }
    s1.beginWrite id o (s1.writeParts o 2 o.st.addr o.st.length (fun a n => o.partBytes data a n))

/-- The good copy of a repair has been read: its lines are written to the bad copy, and a failed read takes them as its answer
(R281). -/
def State.settleGood (s : State) (id : Nat) (o : Op) (x : Split) (bad : Nat) : State :=
  match x.parts.getLast?, x.parts[bad]? with
  | some q, some p =>
    let rest := x.parts.dropLast
    match q.answer with
    | some r =>
      if r.status = .ok then
        let c := p.cover
        let ans := if p.st.opcode = 1 then
            PartPh.done { o.answer .ok [] (slice r.payload (p.st.addr - c.1) p.st.length) with length := p.st.length }
          else p.ph
        let w : Part := { q with dev := p.dev, st := partStitch o 2 c.1 c.2 r.payload, ph := .sent }
        let s0 := if o.mode = .normal then s.count (Reg.hopCount 3) 1 else s
        let s1 := if p.st.opcode = 1 || o.mode != .normal then s0 else s0.raise 0x5008 s0.self 0
        let s2 : State := { s1 with lace := { s1.lace with refs := s1.lace.refs.filter (fun e => e.2 != (id, rest.length)) } }
        (s2.putSplit id { st := .rewrite bad, parts := rest.modify bad (fun y => { y with ph := ans }) ++ [w] }).sendPart
          id rest.length o w false false false
      else s.putSplit id { st := .run, parts := rest }
    | none => s
  | _, _ => s

/-- Goes on with a split stitch whose parts have all answered. -/
def State.settle (s : State) (id : Nat) : State :=
  match s.lace.splits.find id, s.host.ops.find id with
  | some x, some o =>
    let waits := x.parts.any (fun p => match p.ph with | .sent => true | _ => false)
    if waits then s
    else match x.st with
      | .run => s.settleRun id o x
      | .commit => s.settleRun id o x
      | .prepare => s.settlePrepare id o x
      | .copyRead => s.settleCopy id o x
      | .goodRead bad =>
        let s1 := s.settleGood id o x bad
        match s1.lace.splits.find id with
        | some y => if y.st = .run then s1.settleRun id o y else s1
        | none => s1
      | .rewrite _ =>
        let y : Split := { st := .run, parts := x.parts.dropLast }
        ({ s.putSplit id y with lace := { (s.putSplit id y).lace with
          refs := s.lace.refs.filter (fun e => e.2 != (id, x.parts.length - 1)) } } : State).settleRun id o y
  | _, _ => s

/-- A part answers: with its response, or in the PREPARE phase with the status it would give. -/
def State.partDone (s : State) (id k : Nat) (r : Response) : State :=
  match s.lace.splits.find id with
  | none => s
  | some x =>
    let ph := if x.st = .prepare then PartPh.prepared r.status else .done r
    (s.modPart id k (fun p => { p with ph := ph })).settle id

/-! ### The rows of the memory opcodes -/

/-- A memory row: a queued operation with this opcode and SUBOP is checked and begins, or is refused (R97). -/
def State.memRow (s : State) (op opcode subop : Nat) : State :=
  match s.host.ops.find op with
  | none => s
  | some o =>
    if o.phase = .queued && o.st.opcode == opcode && o.st.subop == subop then
      match s.memCheck o with
      | some st => s.failOp op st
      | none => if s.mayBegin op o then s.beginOp op o else s
    else s

/-- READ (R99, R100). -/
def execRead (op : Nat) (s : State) : Result := .next (s.memRow op 1 0)
/-- WRITE (R101). -/
def execWrite (op : Nat) (s : State) : Result := .next (s.memRow op 2 0)
/-- ATOMIC FETCH_ADD (R103). -/
def execFetchAdd (op : Nat) (s : State) : Result := .next (s.memRow op 4 0)
/-- ATOMIC SWAP (R103). -/
def execSwap (op : Nat) (s : State) : Result := .next (s.memRow op 4 1)
/-- ATOMIC CMP_SWAP (R104). -/
def execCmpSwap (op : Nat) (s : State) : Result := .next (s.memRow op 4 2)
/-- ATOMIC FETCH_AND (R103). -/
def execFetchAnd (op : Nat) (s : State) : Result := .next (s.memRow op 4 3)
/-- ATOMIC FETCH_OR (R103). -/
def execFetchOr (op : Nat) (s : State) : Result := .next (s.memRow op 4 4)
/-- ATOMIC FETCH_XOR (R103). -/
def execFetchXor (op : Nat) (s : State) : Result := .next (s.memRow op 4 5)
/-- ATOMIC FETCH_MIN_S (R103). -/
def execFetchMinS (op : Nat) (s : State) : Result := .next (s.memRow op 4 6)
/-- ATOMIC FETCH_MAX_S (R103). -/
def execFetchMaxS (op : Nat) (s : State) : Result := .next (s.memRow op 4 7)
/-- ATOMIC FETCH_MIN_U (R103). -/
def execFetchMinU (op : Nat) (s : State) : Result := .next (s.memRow op 4 8)
/-- ATOMIC FETCH_MAX_U (R103). -/
def execFetchMaxU (op : Nat) (s : State) : Result := .next (s.memRow op 4 9)
/-- COPY (R105). -/
def execCopy (op : Nat) (s : State) : Result := .next (s.memRow op 5 0)
/-- FILL (R106). -/
def execFill (op : Nat) (s : State) : Result := .next (s.memRow op 6 0)

/-- FLUSH (R102): it completes once every stitch issued earlier on its connection has completed. -/
def execFlush (op : Nat) (s : State) : Result :=
  .next (match s.host.ops.find op with
    | none => s
    | some o =>
      if o.phase = .queued && o.st.opcode == 3 then
        match s.formCheck o.st with
        | some st => s.failOp op st
        | none =>
          if !s.pathUp || s.lace.stopped || o.late then s.failOp op .unavailable
          else if s.mayBegin op o then s.finishOp op (o.answer .ok [] []) else s
      else s)

end Sys2Proof.Machine
end

