-- ==== Sys2Proof/Machine/Quant.lean ====
section
/-!
DEFINITION. The arithmetic of filet compute: quantisation (R220, R221), scores and keys (R222), calibration (R226, R228), and the
binary formats of the results.
-/
namespace Sys2Proof.Machine

namespace Reg
abbrev filCfg : Nat := 0x0B0008
abbrev filRefreshCfg : Nat := 0x0B0010
abbrev filStatus : Nat := 0x0B0018
abbrev filTileSel : Nat := 0x0B0020
abbrev filCount (n : Nat) : Nat := 0x0B0100 + 8 * n
end Reg

/-! ### Matrices (R217, R225) -/

/-- COLS. -/
def Matrix.cols (x : Matrix) : Nat := leAt x.request 8 4
/-- DIM. -/
def Matrix.dim (x : Matrix) : Nat := leAt x.request 12 2
/-- STRIDE. -/
def Matrix.stride (x : Matrix) : Nat := 2 ^ leAt x.request 14 1
/-- MODE is WIDE. -/
def Matrix.wide (x : Matrix) : Bool := leAt x.request 15 1 == 1
/-- MANUAL: auto-refresh is disabled. -/
def Matrix.manual (x : Matrix) : Bool := leAt x.request 16 1 % 2 == 1
/-- Columns of a group, W. -/
def Matrix.width (x : Matrix) : Nat := if x.wide then 128 else 256
/-- Row tiles of a group. -/
def Matrix.rowTiles (x : Matrix) : Nat := ceilDiv x.dim 512
/-- Column groups. -/
def Matrix.groupCount (x : Matrix) : Nat := ceilDiv x.cols x.width
/-- The address of column `j`, with its key ID. -/
def Matrix.colAddr (x : Matrix) (j : Nat) : Nat := x.source + j * x.stride
/-- The hoop panel of column `j`. -/
def Matrix.panel (x : Matrix) (j : Nat) : Nat := x.colAddr j % 2 ^ 56 / 2 ^ 30
/-- The columns of group `g`. -/
def Matrix.columns (x : Matrix) (g : Nat) : List Nat := ((List.range x.width).map (fun i => g * x.width + i)).filter (· < x.cols)
/-- The lines of column `j`'s shadow. -/
def Matrix.colLines (x : Matrix) (j : Nat) : List Nat := linesOf (x.colAddr j) x.dim

/-! ### Rounding -/

/-- `a / b` rounded half away from zero. -/
def roundDiv (a : Int) (b : Nat) : Int :=
  let q := (2 * a.natAbs + b) / (2 * b)
  if a < 0 then -(q : Int) else (q : Int)

/-- A rational rounded half away from zero. -/
def roundRat (r : Rat) : Int := if r < 0 then -((1 / 2 - r).floor) else (r + 1 / 2).floor

/-- The integer part of a square root, by bits. -/
def isqrt (n : Nat) : Nat := (List.range 80).foldl (fun r i => let c := r + 2 ^ (79 - i); if c * c ≤ n then c else r) 0

/-- A square root of a non-negative rational, to 2^-16 (log entry 35). -/
def sqrtRat (r : Rat) : Rat := (isqrt (r * 4294967296).floor.toNat : Rat) / 65536

/-! ### Scales and weights (R220, R221) -/

/-- The smallest FP16 word whose value is not below `m / qmax`, for 1 ≤ m ≤ 128. -/
def fp16Ceil (m qmax : Nat) : Nat :=
  let t := ceilDiv (m * 2 ^ 17) qmax
  let sh := Nat.log2 t - 10
  let k := ceilDiv t (2 ^ sh)
  if k = 2048 then (sh + 9) * 1024 else (sh + 8) * 1024 + (k - 1024)

/-- The value of a positive FP16 word in units of 2^-25; 0 for the word 0. -/
def fp16Num (w : Nat) : Nat := if w = 0 then 0 else (1024 + w % 1024) * 2 ^ (w / 1024)

/-- The largest weight of a mode. -/
def qMax (wide : Bool) : Nat := if wide then 112 else 7

/-- The scale of a column of source weights. -/
def scaleOf (wide : Bool) (w : List Int) : Nat :=
  let m := w.foldl (fun a v => max a v.natAbs) 0
  if m = 0 then 0 else fp16Ceil m (qMax wide)

/-- The weights q of a column under a scale. -/
def quantise (scale : Nat) (w : List Int) : List Int := w.map (fun v => if scale = 0 then 0 else roundDiv (v * 2 ^ 25) (fp16Num scale))

/-- The sum of products of two lists. -/
def dot : List Int → List Int → Int
  | x :: xs, w :: ws => x * w + dot xs ws
  | _, _ => 0

/-- FS_j of a column's weights (R222). -/
def fullScale (q : List Int) : Nat := 128 * (q.map Int.natAbs).foldl (· + ·) 0

/-! ### Calibration (R226, R228) -/

/-- A signed 10-bit converter code (R226). -/
def code10 (c : Int) : Int := max (-512) (min 511 c)

/-- M of the eight codes of a pair (R226). -/
def pairSum (c : List Int) : Int :=
  ((List.range 7).map (fun b => (2 : Int) ^ b * code10 (c.getD b 0))).foldl (· + ·) 0 - 128 * code10 (c.getD 7 0)

/-! ### The cells of a tile (R220, R223) -/

/-- hi and lo of a wide weight: q / 15 rounded half away from zero, and the rest (R220). -/
def widePair (q : Int) : Int × Int := let hi := roundDiv q 15; (hi, q - 15 * hi)

/-- The weights of the 256 pairs of a tile, from its columns' weights on its rows: a narrow column takes one pair, a wide one two (R223). -/
def pairsOf (wide : Bool) (cols : List (List Int)) : List (List Int) :=
  if wide then cols.flatMap (fun q => [q.map (fun w => (widePair w).1), q.map (fun w => (widePair w).2)]) else cols

/-- The level of the positive or the negative cell of a differential pair (R220). -/
def pairLevel (positive : Bool) (w : Int) : Nat := if positive then w.toNat else (-w).toNat

/-- The reference weight r_ki (Table 07-2). -/
def refWeight (k i : Nat) : Int :=
  match k with
  | 0 => 7
  | 1 => -7
  | 2 => if i % 2 = 0 then 7 else -7
  | 3 => if i % 4 < 2 then 7 else -7
  | 4 => if i < 256 then 7 else -7
  | 5 => 3
  | 6 => -3
  | _ => 0

/-- The level of the cell at a row and cell column of a tile whose pairs hold these weights (Tables 07-1, 07-2). -/
def cellLevel (pairs : List (List Int)) (row col : Nat) : Nat :=
  if col < 16 || 1072 ≤ col then 0
  else
    let w : Int := if col < 1040 then (pairs.getD ((col - 16) / 4) []).getD row 0 else refWeight ((col - 1040) / 4) row
    pairLevel (decide (col % 4 < 2)) w

/-- The elements of a query on the 512 rows of row tile `r`; 0 beyond its end. -/
def tileInput (query : List Int) (r : Nat) : List Int := (List.range 512).map (fun i => query.getD (512 * r + i) 0)

/-- The expected reference values of a tile's input. -/
def refValues (x : List Int) : List Int := (List.range 8).map (fun k => dot x ((List.range 512).map (refWeight k)))

/-- What calibrating a pass gives: gain, offset, residual, and whether the query was degenerate on the tile. -/
structure Fit where
  g : Rat
  o : Rat
  resid : Rat
  degenerate : Bool
  deriving DecidableEq, Repr

/-- Sum of rationals. -/
def ratSum (l : List Rat) : Rat := l.foldl (· + ·) 0

/-- The calibration of a pass on a tile of gain `g0`: expected values `r`, measured reference values `m`. -/
def calibrate (g0 : Rat) (r m : List Int) : Fit :=
  let hi := r.foldl max (r.headD 0)
  let lo := r.foldl min (r.headD 0)
  let rs : List Rat := r.map (fun (v : Int) => (v : Rat))
  let ms : List Rat := m.map (fun (v : Int) => (v : Rat))
  let wide := decide (4096 ≤ hi - lo)
  let n : Rat := 8
  let sr := ratSum rs
  let sm := ratSum ms
  let g := if wide then (n * ratSum (List.zipWith (· * ·) rs ms) - sr * sm) / (n * ratSum (rs.map (fun v => v * v)) - sr * sr) else g0
  let o := (sm - g * sr) / n
  let e := List.zipWith (fun a b => b - g * a - o) rs ms
  { g := g, o := o, resid := sqrtRat (ratSum (e.map (fun v => v * v)) / n), degenerate := !wide }

/-- part[j] of one pair (R228); a gain of 0 gives a free value (log entry 35). -/
def partOf (f : Fit) (m trim : Int) (free : Int) : Int :=
  if f.g = 0 then free else roundRat (((m : Rat) - f.o) / f.g * (1 + (trim : Rat) / 16384))

/-- The parts of the columns of a tile, from the sums of its 256 weight pairs. -/
def tileParts (wide : Bool) (f : Fit) (m : List Int) (trim : List Int) (free : Int) : List Int :=
  let one (p j : Nat) : Int := partOf f (m.getD p 0) (trim.getD j 0) free
  if wide then (List.range 128).map (fun c => 15 * one (2 * c) c + one (2 * c + 1) c)
  else (List.range 256).map (fun c => one c c)

/-! ### FP32 keys (R222, R239), in units of 2^-25 -/

/-- A magnitude rounded to 24 significant bits, ties to even. -/
def round24 (v : Int) : Int :=
  let a := v.natAbs
  if a < 2 ^ 24 then v
  else
    let sh := Nat.log2 a - 23
    let q := a / 2 ^ sh
    let r := a % 2 ^ sh
    let half := 2 ^ (sh - 1)
    let q1 := if half < r || (r == half && q % 2 == 1) then q + 1 else q
    if v < 0 then -((q1 * 2 ^ sh : Nat) : Int) else ((q1 * 2 ^ sh : Nat) : Int)

/-- The key K_j of a score under a scale. -/
def keyOf (scale : Nat) (score : Int) : Int := round24 ((fp16Num scale : Int) * score)

/-- The key of an exact score E_j. -/
def keyExact (score : Int) : Int := round24 (score * 2 ^ 25)

/-- The FP32 word of a key. -/
def fp32Word (v : Int) : Nat :=
  let a := v.natAbs
  if a = 0 then 0
  else
    let e := Nat.log2 a
    (if v < 0 then 2 ^ 31 else 0) + (e + 102) * 2 ^ 23 + (a * 2 ^ 23 / 2 ^ e - 2 ^ 23)

/-- The value of an FP32 word in units of 2^-149; `none` for a NaN. -/
def fp32Num (w : Nat) : Option Int :=
  let e : Nat := w / 2 ^ 23 % 256
  let f : Nat := w % 2 ^ 23
  let sign : Int := if w / 2 ^ 31 % 2 = 1 then -1 else 1
  if e = 255 then (if f = 0 then some (sign * 2 ^ 400) else none)
  else if e = 0 then some (sign * (f : Int)) else some (sign * ((2 ^ 23 + f : Nat) : Int) * 2 ^ (e - 1))

end Sys2Proof.Machine
end

