-- ==== Sys2Proof/Machine/Tiles.lean ====
section
/-!
DEFINITION. Filet tiles and column groups: where groups are placed (R224, R225), how they are programmed, refreshed, audited and replaced
(R219, R229, R232 to R235), and the rows of tiles.
-/
namespace Sys2Proof.Machine

/-! ### Tiles and ports (R224, R254) -/

/-- A tile; FREE where the table lists none. -/
def State.tile (s : State) (t : Nat) : Tile := s.filet.tiles.get t .empty

/-- The state with a tile changed. -/
def State.putTile (s : State) (t : Nat) (x : Tile) : State :=
  { s with filet := { s.filet with tiles := s.filet.tiles.set t x .empty } }

/-- The port, 16 × stack + port, of a tile index. -/
def portOf (t : Nat) : Nat := t / 2 ^ 17 * 16 + t / 2 ^ 10 % 16

/-- Tile index of the `n`-th of the 8,192 tiles of a port. -/
def tileAt (port n : Nat) : Nat := port / 16 * 2 ^ 17 + n / 1024 * 2 ^ 14 + port % 16 * 2 ^ 10 + n % 1024

/-- Tiles of a port that are not FREE. -/
def State.portUsed (s : State) (port : Nat) : Nat := (s.filet.tiles.filter (fun e => portOf e.1 == port)).length

/-- FREE tiles of a port. -/
def State.portFree (s : State) (port : Nat) : List Nat := ((List.range 8192).map (tileAt port)).filter (fun t => !s.filet.tiles.has t)

/-- The port with the fewest tiles in use of those with `n` free tiles, the lowest on a tie. -/
def State.bestPort (s : State) (n : Nat) : Option Nat :=
  ((List.range 144).foldl (fun (a : Option (Nat × Nat)) p =>
    let u := s.portUsed p
    if 8192 < u + n then a
    else match a with
      | none => some (p, u)
      | some (_, b) => if u < b then some (p, u) else a) none).map (·.1)

/-- Operating time in seconds (R457). -/
def State.opTime (s : State) : Nat := s.stamp.hours * 3600 + s.stamp.seconds

/-- A residual in units of 0.01 % of 458,752, rounded down. -/
def residUnits (r : Rat) : Nat := (r * 10000 / 458752).floor.toNat

/-- The state with a matrix changed. -/
def State.modMatrix (s : State) (id : Nat) (f : Matrix → Matrix) : State :=
  { s with filet := { s.filet with matrices := s.filet.matrices.modify id f } }

/-- The state with a column group changed. -/
def State.modGroup (s : State) (id g : Nat) (f : FGroup → FGroup) : State :=
  s.modMatrix id (fun x => { x with groups := x.groups.modify g f })

/-- The matrix and group. -/
def State.group (s : State) (id g : Nat) : Option (Matrix × FGroup) :=
  (s.filet.matrices.find id).bind (fun x => (x.groups.find g).map (fun y => (x, y)))

/-- The state with every job of a matrix that still runs changed. -/
def State.modJobs (s : State) (id : Nat) (f : FJob → FJob) : State :=
  { s with filet := { s.filet with jobs := s.filet.jobs.map (fun e => if e.2.matrix = id && e.2.st ≤ 1 then (e.1, f e.2) else e) } }

/-! ### The shadow (R217, R218) -/

/-- Does this device hold column `j`'s shadow? -/
def State.holdsCol (s : State) (x : Matrix) (j : Nat) : Bool := (s.localPanel (lineKey (x.colAddr j))).isSome

/-- The columns of a group whose shadow this device holds. -/
def State.ownCols (s : State) (x : Matrix) (g : Nat) : List Nat := (x.columns g).filter (s.holdsCol x)

/-- The groups of which this device holds columns. -/
def State.ownGroups (s : State) (x : Matrix) : List Nat := (List.range x.groupCount).filter (fun g => !(s.ownCols x g).isEmpty)

/-- The shadow lines of columns. -/
def Matrix.lines (x : Matrix) (cols : List Nat) : List Nat := (cols.flatMap x.colLines).eraseDups

/-- The weights of column `j`, from resident lines. -/
def State.weights (s : State) (x : Matrix) (j : Nat) : List Int := (s.readRange (x.colAddr j) x.dim).map (fun b => b.toInt)

/-- Is a sector of column `j`'s shadow poisoned? -/
def State.colPoison (s : State) (x : Matrix) (j : Nat) : Bool := (s.rangePoison (x.colAddr j) x.dim).any (· == true)

/-- Are lines all in the LLC? -/
def State.allResident (s : State) (lines : List Nat) : Bool := lines.all (fun ln => (s.resident ln).isSome)

/-- Fills start for lines that are not there; a line that cannot be read is noted. -/
def State.fetchShadow (s : State) (lines : List Nat) (r : Reader := .maint) : State :=
  lines.foldl (fun t ln =>
    if (t.resident ln).isSome || t.filling ln then t
    else match t.startFill ln r with
      | (.ready, u) => u
      | (.pending, u) => u
      | (.fails st, u) => u.noteShadow ln st) s

/-- The status of the shadow of columns: of the lowest line that could not be read or is poisoned (R239, R251). -/
def State.shadowStatus (s : State) (x : Matrix) (fails : List (Nat × Status)) (cols : List Nat) : Option Status :=
  cols.findSome? (fun j =>
    match (x.colLines j).findSome? (fun ln => (fails.find? (fun f => f.1 == ln)).map (·.2)) with
    | some st => some st
    | none => if s.colPoison x j then some .poisoned else none)

/-! ### Programming a group (R232 to R234) -/

/-- The program of a group under way, if there is one. -/
def State.progOf (s : State) (id g : Nat) : Option FProg := s.filet.progs.find? (fun p => p.matrix == id && p.group == g)

/-- Tiles are taken for a group, one for each row tile. -/
def State.takeTiles (s : State) (id g : Nat) (tiles : List Nat) : State :=
  ((List.range tiles.length).zip tiles).foldl (fun t e =>
    t.putTile e.2 { Tile.empty with st := .programming, matrix := id, group := g, row := e.1 }) s

/-- A group falls back to exact scores (R234): jobs drop its passes. -/
def State.fallbackGroup (s : State) (id g tile : Nat) : State :=
  match s.group id g with
  | none => s
  | some (_, y) =>
    let s1 := if y.fallback then s else (s.modGroup id g (fun y => { y with fallback := true })).raiseTile 0x4005 tile 0
    s1.modJobs id (fun j => { j with
      fallback := if j.fallback.contains g then j.fallback else j.fallback ++ [g]
      todo := j.todo.filter (fun e => !y.tiles.contains e.1) })

/-- Starts to program a group: on free tiles of `port` where there are enough, elsewhere for a load or a failed tile, otherwise in place
for a refresh (R225, R232, R234). -/
def State.startProg (s : State) (id g : Nat) (why : ProgWhy) : State :=
  match s.filet.matrices.find id with
  | none => s
  | some x =>
    if (s.progOf id g).isSome then s
    else
      let n := x.rowTiles
      let old := match x.groups.find g with | some y => y.tiles | none => []
      let free := match old.head? with | some t => (s.portFree (portOf t)).take n | none => []
      let other := match s.bestPort n with | some p => (s.portFree p).take n | none => []
      let plan : Option (List Nat × Bool) :=
        if !old.isEmpty && free.length = n then some (free, false)
        else if why = .refresh then some (old, true)
        else if other.length = n then some (other, false) else none
      let s1 := if other.length < n && free.length < n && !old.isEmpty then s.raiseTile 0x4007 (old.headD 0) 0 else s
      match plan with
      | none => s1
      | some (tiles, inPlace) =>
        let p : FProg := { matrix := id, group := g, tiles := tiles, left := tiles, quant := none, fails := [], why := why, inPlace := inPlace, again := false }
        let s2 := (if inPlace then s1.fallbackGroup id g (tiles.headD 0) else s1).takeTiles id g tiles
        let s3 : State := { s2 with filet := { s2.filet with progs := s2.filet.progs ++ [p] } }
        s3.fetchShadow (x.lines (s.ownCols x g))

/-- Are the copies here of a group's shadow CURRENT? Audits and refreshes of other groups wait (R249). -/
def State.copiesCurrent (s : State) (x : Matrix) (g : Nat) : Bool :=
  (s.ownCols x g).all (fun j => match s.mem.dir.find (x.panel j) with | some e => (currentDevs e).contains s.self | none => true)

/-- May a group of a matrix be refreshed by the device on its own (R232, R249): auto-refresh on, and its copies CURRENT? -/
def State.autoRefresh (s : State) (x : Matrix) (g : Nat) : Bool :=
  s.flag Reg.filCfg 0 && !x.manual && x.st == 1 && !s.fwPaused && s.copiesCurrent x g

/-- MATRIX_REFRESH on this device (R232): every group of the matrix here whose copies are CURRENT; a group that is STALE with its copy is
refreshed when that is CURRENT again (R249). -/
def State.refreshMatrix (s : State) (id : Nat) (x : Matrix) : State :=
  ((s.ownGroups x).filter (s.copiesCurrent x)).foldl (fun t g => t.startProg id g .refresh) s

/-- A refresh that the device starts on its own. -/
def State.refreshNow (s : State) (id g : Nat) : State :=
  match s.filet.matrices.find id with
  | some x => if s.autoRefresh x g then s.startProg id g .refresh else s
  | none => s

/-- A write to lines is acknowledged (R219): groups whose shadow it touched are STALE, a group that is being programmed once it is, and
refresh. -/
def State.staleWrite (s : State) (addr len : Nat) : State :=
  s.filet.matrices.foldl (fun t e =>
    let x := e.2
    let a := addr % 2 ^ 56
    let base := x.source % 2 ^ 56
    let last := base + x.cols * x.stride
    if len = 0 || last ≤ a || a + len ≤ base then t
    else
      let lo := (max a base - base) / x.stride / x.width
      let hi := (min (a + len) last - 1 - base) / x.stride / x.width
      (List.range (hi - lo + 1)).foldl (fun u i =>
        let g := lo + i
        let v : State := { u with filet := { u.filet with
          progs := u.filet.progs.map (fun p => if p.matrix = e.1 && p.group == g then { p with again := true } else p) } }
        if x.groups.has g then (v.modGroup e.1 g (fun y => { y with stale := true })).refreshNow e.1 g else v) t) s

/-- A tile becomes FAILED (R234): cause 1 residual, 2 converter, 3 program. Its group falls back and is programmed elsewhere. -/
def State.failTile (s : State) (t cause : Nat) : State :=
  let x := s.tile t
  let s1 := ((s.putTile t { x with st := .failed }).raiseTile 0x4001 t cause).count (Reg.filCount 7) 1
  (s1.fallbackGroup x.matrix x.group t).startProg x.matrix x.group .failed

/-- Tiles return to FREE, FAILED ones excepted. -/
def State.freeTiles (s : State) (l : List Nat) : State :=
  l.foldl (fun t k => if (t.tile k).st = .failed then t else t.putTile k .empty) s

/-- A matrix is freed on this device: its tiles, programs and the matrix itself. -/
def State.freeMatrix (s : State) (id : Nat) : State :=
  let mine := (s.filet.tiles.filter (fun e => e.2.matrix == id)).map (·.1)
  let s1 := s.freeTiles mine
  { s1 with filet := { s1.filet with
      matrices := s1.filet.matrices.drop id
      progs := s1.filet.progs.filter (fun p => p.matrix != id) } }

/-- A matrix goes everywhere: its tiles here are freed, and the tables forget it (R251, R278). -/
def State.dropMatrix (s : State) (id : Nat) (a : SyncAct) : State := (s.freeMatrix id).change [.matrix id none] a

/-- A device has finished what a matrix command asked of it, with a status. On the manager the command ends once every device has: a load
makes the matrix READY, or removes it. -/
def State.matrixDone (s : State) (id dev : Nat) (st : Status) : State :=
  if !s.isManager then
    (s.modMatrix id (fun x => { x with st := if st = .ok then 1 else x.st })).report (.filet dev id st)
  else match s.filet.matrices.find id with
    | none => s
    | some x =>
      let rest := x.waits.filter (· != dev)
      if st ≠ .ok && x.st = 0 then
        match x.mailbox with
        | some m =>
          let b := s.box m
          let s1 := (s.putBox m { b with status := st, resp := [] }).jSecond .yes (s.firstEntry m b) st
          s1.dropMatrix id (.mailbox m)
        | none => s.dropMatrix id .none
      else if rest.isEmpty then
        s.modMatrix id (fun x => { x with st := if x.st = 0 then 1 else x.st, waits := [], mailbox := none })
      else s.modMatrix id (fun x => { x with waits := rest })

/-- Has this device no program of a matrix left? -/
def State.progsDone (s : State) (id : Nat) : Bool := !s.filet.progs.any (fun p => p.matrix == id)

/-- The last group of a matrix is programmed here: a load raises MATRIX_LOADED, and the manager hears of it. -/
def State.groupsDone (s : State) (id : Nat) (why : ProgWhy) : State :=
  if s.progsDone id then
    let n := (s.filet.tiles.filter (fun e => e.2.matrix == id && e.2.st == .inUse)).length
    let s1 := if why = .load then s.raise 0x4006 id n else s
    if why = .failed then s1 else s1.matrixDone id s1.self .ok
  else s

/-- The quantised group (R221): the scales, full scales and weights of its columns; 0 for a column whose shadow another device holds. -/
def State.quantGroup (s : State) (x : Matrix) (g : Nat) : List Nat × List Nat × List (List Int) :=
  let cols := s.ownCols x g
  let one (j : Nat) : Nat × Nat × List Int :=
    if cols.contains j then
      let w := s.weights x j
      let sc := scaleOf x.wide w
      let q := quantise sc w
      (sc, fullScale q, q)
    else (0, 0, [])
  let all := (List.range x.width).map (fun i => one (g * x.width + i))
  (all.map (·.1), all.map (·.2.1), all.map (·.2.2))

/-- A group whose new tiles are all programmed switches to them; the old ones are freed, and passes left go to the new ones (R232). -/
def State.switchGroup (s : State) (p : FProg) (q : List Nat × List Nat × List (List Int)) : State :=
  match s.filet.matrices.find p.matrix with
  | none => s
  | some x =>
    let y := x.groups.get p.group { scales := [], full := [], tiles := [], stale := false, fallback := false }
    let y1 : FGroup := { scales := q.1, full := q.2.1, tiles := p.tiles, stale := p.again, fallback := false }
    let s1 := s.freeTiles (y.tiles.filter (fun t => !p.tiles.contains t))
    let (s2, _) := p.tiles.foldl (fun (a : State × Nat) t =>
      let (w, u) := a.1.draw
      (u.putTile t { Tile.empty with st := .inUse, matrix := p.matrix, group := p.group, row := a.2, g := ((w.toNat % 65536 : Nat) : Rat) / 4096,
                                     since := u.opTime, audited := u.opTime
                                     pairs := pairsOf x.wide (q.2.2.map (fun c => tileInput c a.2)) }, a.2 + 1)) (s1, 0)
    let moved (e : Nat × Nat) : Nat × Nat := match y.tiles.findIdx? (· == e.1) with
      | some r => (p.tiles.getD r e.1, e.2)
      | none => e
    let s3 := (s2.modMatrix p.matrix (fun x => { x with groups := x.groups.put p.group y1 })).modJobs p.matrix (fun j => { j with todo := j.todo.map moved })
    let s4 : State := { s3 with filet := { s3.filet with progs := s3.filet.progs.filter (fun e => !(e.matrix == p.matrix && e.group == p.group)) } }
    let s5 := if p.why = .refresh then s4.count (Reg.filCount 6) 1 else s4
    let s6 := s5.groupsDone p.matrix p.why
    if p.again then s6.refreshNow p.matrix p.group else s6

/-- A program ends because its shadow cannot be used: a load with its status (R251); a refresh with event SHADOW_POISON. -/
def State.progStops (s : State) (p : FProg) (st : Status) : State :=
  if p.why = .load then
    let s1 := s.matrixDone p.matrix s.self st
    if s1.isManager then s1 else s1.freeMatrix p.matrix
  else
    let s1 : State := { s with filet := { s.filet with progs := s.filet.progs.filter (fun e => !(e.matrix == p.matrix && e.group == p.group)) } }
    let s2 := if p.inPlace then p.tiles.foldl (fun t k => t.putTile k { t.tile k with st := .inUse }) s1 else s1.freeTiles p.tiles
    ((s2.raiseTile 0x4004 (p.tiles.headD 0) 0).count (Reg.filCount 10) 1).groupsDone p.matrix p.why

/-- A program of a tile fails (R234): the tile is FAILED, and the group takes another free tile of the port, or another port. -/
def State.progFails (s : State) (p : FProg) (t : Nat) : State :=
  let x := s.tile t
  let s1 := ((s.putTile t { x with st := .failed }).raiseTile 0x4001 t 3).count (Reg.filCount 7) 1
  let set (q : FProg) : State := { s1 with filet := { s1.filet with progs := s1.filet.progs.map (fun e => if e.matrix = p.matrix && e.group == p.group then q else e) } }
  let s2 := if p.inPlace then set p else s1
  match (s1.portFree (portOf t)).head? with
  | some n =>
    let q : FProg := { p with tiles := p.tiles.map (fun k => if k = t then n else k), left := p.left.map (fun k => if k = t then n else k) }
    (set q).putTile n { Tile.empty with st := .programming, matrix := p.matrix, group := p.group, row := x.row }
  | none =>
    let s3 : State := { s2 with filet := { s2.filet with progs := s2.filet.progs.filter (fun e => !(e.matrix == p.matrix && e.group == p.group)) } }
    let s4 := (s3.freeTiles p.tiles).startProg p.matrix p.group p.why
    if (s4.progOf p.matrix p.group).isSome then s4
    else if p.why = .load then s4.matrixDone p.matrix s4.self .unavailable else s4.groupsDone p.matrix p.why

/-- TILE_PROGRAM_DONE (R232 to R235): a tile program ends. It cannot end before the group's shadow has been read and quantised. -/
def execTileProgramDone (tile : Nat) (ok : Bool) (s : State) : Result :=
  within (tile < 9 * 2 ^ 17) <|
    match s.filet.progs.find? (fun p => p.left.contains tile) with
    | none => s
    | some p => match s.filet.matrices.find p.matrix with
      | none => s
      | some x =>
        if s.fwPaused && p.why != .failed then s
        else if !ok then s.progFails p tile
        else
          let cols := s.ownCols x p.group
          let lines := x.lines cols
          let read := p.quant.isSome || s.allResident lines
          if !read then s.fetchShadow lines
          else match (if p.quant.isSome then none else s.shadowStatus x p.fails cols) with
            | some st => s.progStops p st
            | none =>
              let q := p.quant.getD (s.quantGroup x p.group)
              let p1 : FProg := { p with left := p.left.filter (· != tile), quant := some q }
              if p1.left.isEmpty then s.switchGroup p1 q
              else { s with filet := { s.filet with progs := s.filet.progs.map (fun e => if e.matrix = p.matrix && e.group == p.group then p1 else e) } }

/-- A load starts, or goes on after a start-up, on this device: the groups that have no tiles yet are programmed (R218, R251). -/
def State.startLoad (s : State) (id : Nat) : State :=
  match s.filet.matrices.find id with
  | none => s
  | some x =>
    let l := (s.ownGroups x).filter (fun g => !x.groups.has g)
    let s1 := l.foldl (fun t g => t.startProg id g .load) s
    if l.all (fun g => (s1.progOf id g).isSome) then (if l.isEmpty then s1.matrixDone id s1.self .ok else s1)
    else s1.matrixDone id s1.self .unavailable

/-- Matrices that are LOADING with no program under way begin to load, or go on. -/
def State.startLoads (s : State) : State :=
  s.filet.matrices.foldl (fun t e =>
    if e.2.st = 0 && t.progsDone e.1 then t.startLoad e.1 else t) s

/-- Every group that is STALE is refreshed, where the device may (R232): when what held it back has ended. -/
def State.refreshStale (s : State) : State :=
  s.filet.matrices.foldl (fun t e => e.2.groups.foldl (fun u g => if g.2.stale then u.refreshNow e.1 g.1 else u) t) s

/-- What a change of the tables does to filet compute: matrices that are gone free their tiles; groups whose shadow is a copy that is
not CURRENT are STALE (R249); new matrices begin to load. -/
def State.filetTables (s : State) : State :=
  let has (id : Nat) : Bool := s.filet.matrices.has id
  let s1 : State := { s with filet := { s.filet with
      tiles := s.filet.tiles.filter (fun e => e.2.st == .failed || has e.2.matrix)
      progs := s.filet.progs.filter (fun p => has p.matrix) } }
  let away (x : Matrix) (g : Nat) : Bool := (s1.ownCols x g).any (fun j => match s1.mem.dir.find (x.panel j) with
    | some e => !(currentDevs e).contains s1.self
    | none => false)
  let mark (x : Matrix) : Matrix := { x with groups := x.groups.map (fun e => if away x e.1 then (e.1, { e.2 with stale := true }) else e) }
  let s2 : State := { s1 with filet := { s1.filet with matrices := s1.filet.matrices.map (fun e => (e.1, mark e.2)) } }
  s2.refreshStale.startLoads

/-! ### AUDIT (R229, R235) -/

/-- `a / max(b, c)`, limited, as a trim update: (16,384 × d / max) / 8 within ±2,048. -/
def trimStep (d est full : Int) : Int :=
  let m : Rat := max ((est.natAbs : Nat) : Rat) (((full.natAbs : Nat) : Rat) / 64)
  if m = 0 then 0 else max (-2048) (min 2048 (roundRat (16384 * (d : Rat) / m / 8)))

/-- The pseudo-random query of an audit: its elements are free values (R229; log entry 2). -/
def State.auditQuery (s : State) : List Int := (List.range 512).map (fun i => (Config.freeByte s.free i).toInt)

/-- A tile after a pass with calibration `f`: tile.g and tile.resid follow it, and passes in a row above FAIL_RESID count (R228, R234). -/
def Tile.tracked (t : Tile) (f : Fit) (high : Bool) : Tile :=
  { t with g := if f.degenerate then t.g else t.g + (f.g - t.g) / 16, resid := t.resid + (f.resid - t.resid) / 64,
           badRuns := if high then t.badRuns + 1 else 0 }

/-- Does a residual exceed a limit in hundredths of a percent of the full range? -/
def residOver (limit : Nat) (resid : Rat) : Bool := decide ((limit : Rat) * 458752 < resid * 10000)

/-- The tile takes what a pass says of it; a degenerate calibration counts in filCount 8. -/
def State.trackTile (s : State) (tile : Nat) (t1 : Tile) (degenerate : Bool) : State :=
  if degenerate then (s.putTile tile t1).count (Reg.filCount 8) 1 else s.putTile tile t1

/-- A group whose tile's residual exceeds REFRESH_RESID is refreshed, with its event where the refresh begins (R232). -/
def State.residRefresh (s : State) (tile : Nat) (t1 : Tile) : State :=
  if residOver (s.fld Reg.filRefreshCfg 15 0) t1.resid && (s.progOf t1.matrix t1.group).isNone then
    let s4 := s.refreshNow t1.matrix t1.group
    if (s4.progOf t1.matrix t1.group).isSome then s4.raiseTile 0x4002 tile (residUnits t1.resid) else s4
  else s

/-- A column that an audit judges: its index in its group, the exact score of the audited row tile, the estimate, the full scale (R229). -/
structure AuditRow where
  index : Nat
  exact : Int
  est : Int
  full : Int
  deriving DecidableEq, Repr

/-- Does a column's estimate differ from the exact score by more than `limit` hundredths of a percent of its full scale? -/
def AuditRow.bad (limit : Nat) (r : AuditRow) : Bool := decide ((limit : Int) * r.full < 10000 * ((r.exact - r.est).natAbs : Int))

/-- The deviation of a column, in hundredths of a percent of its full scale. -/
def AuditRow.deviation (r : AuditRow) : Nat := (10000 * ((r.exact - r.est).natAbs : Int) / max 1 r.full).toNat

/-- The calibration that an audit's pass gives (R228). -/
def State.auditFit (s : State) (t : Tile) (codes : List (List Int)) : Fit :=
  calibrate t.g (refValues s.auditQuery) ((codes.map pairSum).drop 256)

/-- The columns of `good`, each judged against the shadow; a code that saturates or is undefined takes the free value. -/
def State.auditRows (s : State) (x : Matrix) (y : FGroup) (t : Tile) (codes : List (List Int)) (good : List Nat) : List AuditRow :=
  let est := tileParts x.wide (s.auditFit t codes) ((codes.map pairSum).take 256) t.trim (Config.free64 s.free).toInt
  good.map (fun j =>
    let i := j - t.group * x.width
    let q := quantise (y.scales.getD i 0) (s.weights x j)
    { index := i, exact := dot s.auditQuery (tileInput q t.row), est := est.getD i 0, full := (fullScale q : Int) })

/-- The trims of a group's columns after an audit: each judged column moves by its step (R229). -/
def auditTrim (width : Nat) (trim : List Int) (rows : List AuditRow) : List Int :=
  (List.range width).map (fun i => trim.getD i 0 + (match rows.find? (fun r => r.index == i) with
    | some r => trimStep (r.exact - r.est) r.est r.full
    | none => 0))

/-- What an audit leads to: the tile `t` becomes `t1`; it fails after 3 passes above FAIL_RESID (R234), a tile that returns needs two audits
without a failed column, another is programmed in place (R235), and a column that fails twice in a row has its group refreshed (R229). -/
def State.auditEnd (s : State) (tile : Nat) (t t1 : Tile) (y : FGroup) (degenerate : Bool) : State :=
  if 3 ≤ t1.badRuns then (s.trackTile tile t1 degenerate).failTile tile 1
  else if t.st = .rejoining then
    if t1.colFails.isEmpty then
      if t.proofs ≤ 1 then
        let s1 := s.putTile tile (if y.tiles.contains tile then { t1 with st := .inUse, proofs := 0 } else .empty)
        if y.tiles.all (fun k => (s1.tile k).st == .inUse) then s1.modGroup t.matrix t.group (fun y => { y with fallback := false }) else s1
      else s.putTile tile { t1 with proofs := t.proofs - 1 }
    else if y.tiles.contains tile then (s.putTile tile { t1 with proofs := 2 }).startProg t.matrix t.group .refresh
    else s.putTile tile { t1 with proofs := 2 }
  else
    let s1 := s.trackTile tile t1 degenerate
    if t1.colFails.any (fun i => t.colFails.contains i) then s1.refreshNow t.matrix t.group else s1.residRefresh tile t1

/-- The pass of an audit returns (R229): columns whose shadow is poisoned are left out, failed ones are reported. -/
def State.auditPass (s : State) (tile : Nat) (codes : List (List Int)) (x : Matrix) (y : FGroup) (cols : List Nat) : State :=
  let t := s.tile tile
  let good := cols.filter (fun j => !s.colPoison x j)
  let rows := s.auditRows x y t codes good
  let bad := rows.filter (AuditRow.bad (s.fld Reg.filRefreshCfg 51 44))
  let f := s.auditFit t codes
  let s1 : State := ({ s with free := s.free + 1 } : State).count (Reg.filCount 2) 1
  let s2 := if good.length < cols.length then (s1.raiseTile 0x4004 tile 0).count (Reg.filCount 10) 1 else s1
  let s3 := match bad with | [] => s2 | r :: _ => s2.raiseTile 0x4003 tile r.deviation
  let t1 : Tile := { t.tracked f (residOver (s.fld Reg.filRefreshCfg 31 16) f.resid) with
    trim := auditTrim x.width t.trim rows, colFails := bad.map (·.index), audited := s.opTime }
  s3.auditEnd tile t t1 y f.degenerate

/-- AUDIT: the pass of one audit of a tile returns with its codes. A tile that returns to service needs two audits without a failed
column; with one it is programmed again. An audit's pass tracks its tile as a job's does: a third residual in a row above FAIL_RESID
fails it (R228, R234). -/
def execAudit (tile : Nat) (codes : List (List Int)) (s : State) : Result :=
  within (tile < 9 * 2 ^ 17) <|
    let t := s.tile tile
    match s.group t.matrix t.group with
    | none => if t.st = .rejoining then s.putTile tile .empty else s
    | some (x, y) =>
      let period := s.fld Reg.filCfg 27 16
      let cols := s.ownCols x t.group
      if s.fwPaused || y.stale || !((t.st == .inUse && decide (t.audited + period ≤ s.opTime)) || t.st == .rejoining) then s
      else if !s.allResident (x.lines cols) then s.fetchShadow (x.lines cols)
      else s.auditPass tile codes x y cols

/-- REFRESH_AGE (R232): the tiles of a group reach REFRESH_AGE of operating time since programming. -/
def execRefreshAge (matrix group : Nat) (s : State) : Result :=
  .next (match s.group matrix group with
    | none => s
    | some (_, y) =>
      if y.tiles.any (fun t => decide ((s.tile t).since + 3600 * s.fld Reg.filRefreshCfg 43 32 ≤ s.opTime)) then s.refreshNow matrix group else s)

end Sys2Proof.Machine
end

