-- ==== Sys2Proof/Machine/Filet.lean ====
section
/-!
DEFINITION. Filet jobs: FILET_SUBMIT and FILET_RESULT (R236 to R245), tile passes (R226 to R228), and jobs across a hoop (R248, R249,
R292).
-/
namespace Sys2Proof.Machine

/-! ### The descriptor (Tables 07-4, 07-5) -/

/-- KIND of a SUBOP: 0 SCORE, 1 TOPK, 2 THRESHOLD. -/
def kindOf (subop : Nat) : Nat := subop % 4
/-- VERIFY. -/
def verifyOf (subop : Nat) : Bool := subop.testBit 2
/-- EARLY. -/
def earlyOf (subop : Nat) : Bool := subop.testBit 3

/-- Fields of a descriptor. -/
def descFirst (d : List Byte) : Nat := leAt d 0 4
def descBatch (d : List Byte) : Nat := leAt d 8 2
def descK (d : List Byte) : Nat := leAt d 10 2
def descOver (d : List Byte) : Nat := leAt d 12 1
def descDim (d : List Byte) : Nat := leAt d 14 2
def descThreshold (d : List Byte) : Nat := leAt d 16 4

/-- Columns a descriptor scores of a matrix of `cols` columns. -/
def descCount (d : List Byte) (cols : Nat) : Nat := if leAt d 4 4 = 0 then cols - descFirst d else leAt d 4 4

/-- The matrix whose SOURCE an address names. -/
def State.matrixAt (s : State) (addr : Nat) : Option (Nat × Matrix) :=
  s.filet.matrices.find? (fun e => e.2.source % 2 ^ 56 == addr % 2 ^ 56)

/-- The most entries one query of a job returns. -/
def maxEntries (subop : Nat) (d : List Byte) (n : Nat) : Nat :=
  match kindOf subop with | 0 => n | 1 => min (descK d) n | _ => min 65536 n

/-- Check 4 of Table 07-6. -/
def State.submitLength (s : State) (t : Stitch) : Bool :=
  let d := t.payload
  let k := kindOf t.subop
  let form := d.length == t.length && decide (32 ≤ d.length) && t.length == 32 + descBatch d * descDim d && descBatch d != 0 &&
    (if k = 1 then decide (1 ≤ descK d) && decide (descK d ≤ 1024) else descK d == 0) &&
    (if verifyOf t.subop then decide (1 ≤ descOver d) && decide (descOver d ≤ 16) else descOver d == 0)
  match s.matrixAt t.addr with
  | none => form
  | some (_, x) => form && descDim d == x.dim && (k != 0 || decide (descBatch d * descCount d x.cols ≤ 16777216))

/-- The largest result area a job can have, bytes. -/
def jobMax (subop : Nat) (d : List Byte) (cols : Nat) : Nat :=
  descBatch d * (16 + 16 * maxEntries subop d (descCount d cols))

/-- The result store in use, bytes: the largest result of a job that runs, the result of one that is done (R237, R244). -/
def State.storeUsed (s : State) : Nat :=
  s.filet.jobs.foldl (fun a e =>
    let cols := match s.filet.matrices.find e.2.matrix with | some x => x.cols | none => 0
    a + (if e.2.st ≤ 1 then jobMax e.2.subop e.2.desc cols else e.2.result.length)) 0

/-- The span of a matrix's source, with the right FILET. -/
def Matrix.span (x : Matrix) : Span := { addr := x.source, len := x.cols * x.stride, right := 3, write := false }

/-- Checks 6 to 8 and 11 of a filet stitch that names a matrix in ADDRESS (Tables 04-2, 07-6); a sub-job was checked by the manager. -/
def State.filetCheck (s : State) (o : Op) : Option Status :=
  match s.matrixAt o.st.addr with
  | none => some .address
  | some (_, x) => match o.origin with
    | .conn _ _ =>
      if o.st.opcode = 7 && x.cols < descFirst o.st.payload + descCount o.st.payload x.cols then some .address
      else if (o.regionOf x.span).isNone then some .address
      else (s.spanCheck o 7 { x.span with addr := o.st.addr }).orElse fun _ => (s.spanCheck o 8 x.span).orElse fun _ =>
        (s.spanCheck o 10 x.span).orElse fun _ => s.spanCheck o 11 x.span
    | _ => none

/-- The checks of FILET_SUBMIT in the order of Table 07-6. -/
def State.submitCheck (s : State) (o : Op) : Option Status :=
  if s.power = .held then some .held
  else if !s.submitLength o.st then some .length
  else (s.filetCheck o).orElse fun _ => match s.matrixAt o.st.addr with
    | none => some .address
    | some (_, x) =>
      if x.st ≠ 1 then some .unavailable
      else if 4096 ≤ s.filet.jobs.length || 268435456 < s.storeUsed + jobMax o.st.subop o.st.payload x.cols then some .throttled
      else none

/-! ### Accepting a job (R241, R245, R248, R249) -/

/-- The summary of a job (Table 07-7). -/
def FJob.summary (id : Nat) (j : FJob) : List Byte :=
  leBytes 4 id ++ [BitVec.ofNat 8 j.st, BitVec.ofNat 8 j.flags] ++ leBytes 2 (descBatch j.desc) ++ leBytes 4 j.result.length ++
    leBytes 4 ((j.ended - j.started) / 1000) ++ leBytes 4 (ceilDiv j.passes 1024) ++ leBytes 4 j.verified ++ zeros 8

/-- The panels of a job's columns. -/
def Matrix.panelRange (x : Matrix) (first n : Nat) : List Nat :=
  if n = 0 then [] else (List.range (x.panel (first + n - 1) - x.panel first + 1)).map (fun i => x.panel first + i)

/-- The columns of a job that lie in given panels, in their order. -/
def Matrix.colsIn (x : Matrix) (first n : Nat) (panels : List Nat) : List Nat :=
  ((List.range n).map (fun i => first + i)).filter (fun j => panels.contains (x.panel j))

/-- The passes of columns here: by group, tile and query; a tile whose input is all zero has no pass (R227, R245). The passes, the number
skipped, and the groups that are scored by fallback. -/
def Matrix.passesOf (x : Matrix) (queries : List (List Int)) (cols : List Nat) : List (Nat × Nat) × Nat × List Nat :=
  let groups := (cols.map (fun j => j / x.width)).eraseDups
  groups.foldl (fun a g => match x.groups.find g with
    | none => (a.1, a.2.1, a.2.2 ++ [g])
    | some y =>
      if y.fallback then (a.1, a.2.1, a.2.2 ++ [g])
      else
        let l := ((List.range y.tiles.length).zip y.tiles).flatMap (fun e =>
          (List.range queries.length).map (fun q => (e.2, q, (tileInput (queries.getD q []) e.1).all (· == 0))))
        (a.1 ++ (l.filter (fun e => !e.2.2)).map (fun e => (e.1, e.2.1)), a.2.1 + (l.filter (fun e => e.2.2)).length, a.2.2)) ([], 0, [])

/-- The stitch of a sub-job (R292). -/
def FJob.subStitch (j : FJob) (source first count : Nat) : Stitch :=
  let d := leBytes 4 first ++ leBytes 4 count ++ j.desc.drop 8
  let body := d ++ (j.queries.flatMap (fun q => q.map (fun v => BitVec.ofInt 8 v)))
  { opcode := 7, resp := false, fence := false, more := false, cont := false, subop := j.subop % 8, length := body.length, tag := 0,
    addr := source, payload := body }

/-- OPREFs of filet sub-jobs name the job by 2^64 plus its ID. -/
def filetRef (job : Nat) : Nat := 2 ^ 64 + job

/-- A stitch of sub-job `k` goes to its device. -/
def State.sendSub (s : State) (job k dev : Nat) (t : Stitch) : State :=
  let r := s.refOf (filetRef job) k
  (r.2.forwardFrames { src := s.self, dst := dev, body := .routeAck } r.1 0 t).count (Reg.hopCount 0) 1

/-- The state with a job changed. -/
def State.modJob (s : State) (id : Nat) (f : FJob → FJob) : State :=
  { s with filet := { s.filet with jobs := s.filet.jobs.modify id f } }

/-- Sub-jobs are added to a job and sent: one for each device, for the given panels. -/
def State.addSubs (s : State) (id : Nat) (x : Matrix) (l : List (Nat × List Nat × Nat × Nat)) : State :=
  l.foldl (fun t e => match t.filet.jobs.find id with
    | none => t
    | some j =>
      let y : SubJob := { dev := e.1, panels := e.2.1, first := e.2.2.1, count := e.2.2.2, job := none, size := 0, got := [], verified := 0,
                          passes := 0, finished := false }
      (t.modJob id (fun j => { j with subs := j.subs ++ [y] })).sendSub id j.subs.length e.1 (j.subStitch x.source y.first y.count)) s

/-- Panels are scored here for a job. -/
def State.scoreHere (s : State) (id : Nat) (x : Matrix) (panels : List Nat) : State :=
  match s.filet.jobs.find id with
  | none => s
  | some j =>
    let cols := x.colsIn (descFirst j.desc) (descCount j.desc x.cols) panels
    let p := x.passesOf j.queries cols
    let stale := (((cols.map (fun c => c / x.width)).eraseDups).filter (fun g =>
      !(p.1.any (fun e => (s.tile e.1).group == g)) && (match x.groups.find g with | some y => y.stale | none => false)))
    (s.modJob id (fun j => { j with
      mine := j.mine ++ panels, todo := j.todo ++ p.1, fallback := j.fallback ++ p.2.2, stale := j.stale ++ stale })).count (Reg.filCount 1) p.2.1

/-- The least JOB_ID, from a free value upward, that no job holds. -/
def State.newJobId (s : State) : Nat × State :=
  let (w, s1) := s.draw
  let start := w.toNat % 2 ^ 32
  (((List.range 4097).map (fun i => (start + i) % 2 ^ 32)).find? (fun k => !s.filet.jobs.has k) |>.getD start, s1)

/-- A FILET_SUBMIT is accepted: its columns are given to the devices that read their panels, its passes are queued, and with EARLY it is
answered. -/
def State.acceptJob (s : State) (op : Nat) (o : Op) (mid : Nat) (x : Matrix) : State :=
  let (id, s0) := s.newJobId
  let d := o.st.payload.take 32
  let dim := descDim d
  let queries := (List.range (descBatch d)).map (fun q => (slice o.st.payload (32 + q * dim) dim).map (fun b => b.toInt))
  let early := earlyOf o.st.subop
  let j : FJob := { order := s0.filet.nextJob, owner := o.origin, op := if early then 0 else op, matrix := mid, keyId := o.st.addr / 2 ^ 56 % 256,
                    subop := o.st.subop, desc := d, queries := queries, st := 0, status := .ok, mine := [], todo := [], acc := [], begun := [],
                    fallback := [], stale := [], passes := 0, verified := 0, fails := [], started := s0.now, ended := s0.now, flags := 0,
                    result := [], spoiled := false, subs := [] }
  let s1 : State := { s0 with
    filet := { s0.filet with jobs := s0.filet.jobs.put id j, nextJob := s0.filet.nextJob + 1 }
    host := { s0.host with lastWork := s0.now } }
  let first := descFirst d
  let n := descCount d x.cols
  let reader (p : Nat) : Nat := match s1.mem.dir.find p with | some e => (readerDev e p).getD s1.self | none => s1.self
  let panels := x.panelRange first n
  let s2 := (s1.scoreHere id x (panels.filter (fun p => reader p == s1.self))).count (Reg.filCount 3) 1
  let devs := ((panels.map reader).filter (· != s1.self)).eraseDups
  let s3 := match o.origin with
    | .conn _ _ => s2.addSubs id x (devs.map (fun d => (d, panels.filter (fun p => reader p == d), first, n)))
    | _ => s2
  if early then s3.finishOp op (o.answer .ok [] (j.summary id))
  else s3.modOp op (fun y => { y with phase := .waiting 0 })

/-- A FILET_SUBMIT row: a queued submit of this KIND is checked and accepted, or refused. -/
def State.submitRow (s : State) (op kind : Nat) : State :=
  match s.host.ops.find op with
  | none => s
  | some o =>
    if o.phase = .queued && o.st.opcode == 7 && kindOf o.st.subop == kind then
      match s.submitCheck o with
      | some st => s.failOp op st
      | none => if s.mayBegin op o then (match s.matrixAt o.st.addr with | some (mid, x) => s.acceptJob op o mid x | none => s) else s
    else s

/-- FILET_SUBMIT of KIND SCORE (R238). -/
def execFiletSubmitScore (op : Nat) (s : State) : Result := .next (s.submitRow op 0)
/-- FILET_SUBMIT of KIND TOPK (R238). -/
def execFiletSubmitTopk (op : Nat) (s : State) : Result := .next (s.submitRow op 1)
/-- FILET_SUBMIT of KIND THRESHOLD (R238). -/
def execFiletSubmitThreshold (op : Nat) (s : State) : Result := .next (s.submitRow op 2)

/-! ### Passes (R226 to R228, R245) -/

/-- The pass that a port runs: of the jobs in their order of acceptance the first that has one on the port, its tiles in turn. -/
def State.passAt (s : State) (port : Nat) : Option (Nat × Nat × Nat) :=
  let l := s.filet.jobs.filterMap (fun e =>
    if e.2.st ≤ 1 then (e.2.todo.find? (fun p => portOf p.1 == port)).map (fun p => (e.2.order, e.1, p)) else none)
  (l.foldl (fun (a : Option (Nat × Nat × (Nat × Nat))) e => match a with
    | none => some e
    | some b => if e.1 < b.1 then some e else a) none).map (fun e => (e.2.1, e.2.2.1, e.2.2.2))

/-- Adds the parts of a tile to the sums of a job's query. -/
def FJob.addParts (j : FJob) (query first : Nat) (parts : List Int) : FJob :=
  { j with acc := ((List.range parts.length).zip parts).foldl (fun (t : Table Int) e =>
      let k := query * 2 ^ 28 + first + e.1
      t.set k (t.get k 0 + e.2) 0) j.acc }

/-- The sums of a pass join the job (R229, R236). -/
def State.addPass (s : State) (id tile q first : Nat) (group : Nat) (stale : Bool) (fresh : Bool) (parts : List Int) : State :=
  (({ s with free := s.free + 1 } : State).modJob id (fun j =>
    { j.addParts q first parts with
      st := 1, todo := j.todo.filter (· != (tile, q)), passes := j.passes + 1
      begun := if fresh then j.begun ++ [group] else j.begun
      stale := if fresh && stale then j.stale ++ [group] else j.stale })).count (Reg.filCount 0) 1

/-- A pass whose converter passed its self-check, on a tile that serves: calibration, the tile's tracking, and the sums. -/
def State.passConverted (s : State) (id tile q : Nat) (x : Matrix) (y : FGroup) (j : FJob) (codes : List (List Int)) : State :=
  let t := s.tile tile
  let m := codes.map pairSum
  let f := calibrate t.g (refValues (tileInput (j.queries.getD q []) t.row)) (m.drop 256)
  let t1 := t.tracked f (residOver (s.fld Reg.filRefreshCfg 31 16) f.resid)
  let s1 := s.trackTile tile t1 f.degenerate
  if 3 ≤ t1.badRuns then s1.failTile tile 1
  else
    (s1.addPass id tile q (t.group * x.width) t.group y.stale (!j.begun.contains t.group)
      (tileParts x.wide f (m.take 256) t.trim (Config.free64 s.free).toInt)).residRefresh tile t1

/-- PASS_DONE: the pass of a port ends with the codes of its 256 column and 8 reference integrators; `ok` says that the converter passed
its self-check. -/
def execPassDone (port : Nat) (codes : List (List Int)) (ok : Bool) (s : State) : Result :=
  within (port < 144) <|
    match s.passAt port with
    | none => s
    | some (id, tile, q) =>
      let t := s.tile tile
      match s.group t.matrix t.group, s.filet.jobs.find id with
      | some (x, y), some j =>
        if !ok then s.failTile tile 2
        else if t.st ≠ .inUse || y.fallback then s.fallbackGroup t.matrix t.group tile
        else s.passConverted id tile q x y j codes
      | _, _ => s

/-! ### Results (R238 to R240, R243) -/

/-- A scored column: its entry, its key in units of 2^-25, and its bound B_j in hundredths of those units. -/
structure Ent where
  col : Nat
  score : Int
  key : Int
  bound : Nat
  scale : Nat
  verified : Bool
  margin : Bool
  fallback : Bool
  stale : Bool
  deriving DecidableEq, Repr

/-- An entry of the result area (Table 07-10). -/
def Ent.bytes (e : Ent) : List Byte :=
  leBytes 4 e.col ++ leBytes 4 (e.score % 2 ^ 32).toNat ++ leBytes 4 (fp32Word e.key) ++ leBytes 2 e.scale ++
    [BitVec.ofNat 8 (e.verified.toNat + 2 * e.margin.toNat + 4 * e.fallback.toNat + 8 * e.stale.toNat), 0]

/-- A block of the result area: its header's flags, NEAR and CUT, and its entries. -/
structure Block where
  margin : Bool
  truncated : Bool
  fallback : Bool
  stale : Bool
  near : Nat
  cut : Nat
  entries : List (List Byte)
  deriving DecidableEq, Repr

/-- The flags of a block. -/
def Block.flags (b : Block) : Nat := b.margin.toNat + 2 * b.truncated.toNat + 4 * b.fallback.toNat + 8 * b.stale.toNat

/-- A block as bytes (Table 07-9). -/
def Block.bytes (b : Block) : List Byte :=
  leBytes 4 b.entries.length ++ [BitVec.ofNat 8 b.flags] ++ zeros 3 ++ leBytes 4 (min b.near 0xFFFFFFFF) ++ leBytes 4 b.cut ++ b.entries.flatten

/-- Insertion by an order. -/
def insertOrd {α : Type} (before : α → α → Bool) (x : α) : List α → List α
  | [] => [x]
  | y :: t => if before x y then x :: y :: t else y :: insertOrd before x t

/-- A list sorted by an order; equal elements keep their places. -/
def sortOrd {α : Type} (before : α → α → Bool) (l : List α) : List α := l.foldr (insertOrd before) []

/-- The score of column `c` for query `q`: calibrated, exact under fallback, 0 for a scale of 0 (R222, R227, R234). -/
def State.scoreCol (s : State) (x : Matrix) (j : FJob) (q c : Nat) : Ent :=
  let g := c / x.width
  let i := c % x.width
  let y := x.groups.get g { scales := [], full := [], tiles := [], stale := false, fallback := true }
  let scale := y.scales.getD i 0
  let fb := j.fallback.contains g
  let score := if fb then dot (j.queries.getD q []) (quantise scale (s.weights x c)) else if scale = 0 then 0 else j.acc.get (q * 2 ^ 28 + c) 0
  { col := c, score := score, key := keyOf scale score, bound := s.fld Reg.filCfg 15 8 * fp16Num scale * y.full.getD i 0, scale := scale,
    verified := false, margin := false, fallback := fb, stale := j.stale.contains g }

/-- A column re-scored from the shadow (R239). -/
def State.verifyCol (s : State) (x : Matrix) (j : FJob) (q : Nat) (e : Ent) : Ent :=
  let score := dot (j.queries.getD q []) (s.weights x e.col)
  { e with score := score, key := keyExact score, scale := 0x3C00, verified := true }

/-- Larger keys first, equal ones by column (R238). -/
def byKey (a b : Ent) : Bool := decide (b.key < a.key) || (a.key == b.key && decide (a.col < b.col))
/-- Larger exact scores first, equal ones by column (R239). -/
def byScore (a b : Ent) : Bool := decide (b.score < a.score) || (a.score == b.score && decide (a.col < b.col))

/-- Is a key at or above a threshold in units of 2^-149, less `sub` hundredths of a key unit? A NaN is below nothing and above nothing. -/
def atLeastT (key : Int) (sub : Int) (t : Option Int) : Bool :=
  match t with | none => false | some v => decide (100 * v ≤ (100 * key + sub) * 2 ^ 124)

/-- Does a key lie within its bound of a threshold? -/
def nearT (e : Ent) (t : Option Int) : Bool :=
  match t with | none => false | some v => decide (((100 * v - 100 * e.key * 2 ^ 124).natAbs : Int) ≤ (e.bound : Int) * 2 ^ 124)

/-- The candidates of a query that VERIFY re-scores (R239), with TRUNCATED of THRESHOLD. -/
def candidates (subop : Nat) (d : List Byte) (l : List Ent) : List Ent × Bool :=
  match kindOf subop with
  | 1 => ((sortOrd byKey l).take (descK d * descOver d), false)
  | 2 =>
    let c := l.filter (fun e => atLeastT e.key e.bound (fp32Num (descThreshold d)))
    (c.take 1048576, decide (1048576 < c.length))
  | _ => ([], false)

/-- Flags of entries in the header. -/
def anyFallback (l : List Ent) : Bool := l.any (·.fallback)
def anyStale (l : List Ent) : Bool := l.any (·.stale)

/-- The block of a TOPK query. `free` is the CUT when no key is left out (log entry 36). -/
def topkBlock (s : State) (x : Matrix) (j : FJob) (q free : Nat) (all : List Ent) : Block :=
  let k := descK j.desc
  let sorted := sortOrd byKey all
  let near (out : List Ent) (c : Ent) : Nat := (out.filter (fun e => decide (100 * (c.key - e.key) ≤ (e.bound : Int)))).length
  if verifyOf j.subop then
    let c := candidates j.subop j.desc all
    let got := (sortOrd byScore (c.1.map (s.verifyCol x j q))).take k
    let out := sorted.drop c.1.length
    let cut := out.head?
    let beats := match cut, got.getLast? with
      | some u, some e => decide (100 * (e.score * 2 ^ 25) ≤ 100 * u.key + (u.bound : Int))
      | _, _ => false
    { margin := beats, truncated := false, fallback := anyFallback got, stale := anyStale got,
      near := (match cut with | some u => near out u | none => 0),
      cut := (match cut with | some u => fp32Word u.key | none => free), entries := got.map Ent.bytes }
  else
    let got := sorted.take k
    let out := sorted.drop k
    let cut := out.head?
    let mark (e : Ent) : Ent := match cut with
      | some u => { e with margin := decide (100 * e.key - (e.bound : Int) ≤ 100 * u.key + (u.bound : Int)) }
      | none => e
    let got1 := got.map mark
    { margin := got1.any (·.margin), truncated := false, fallback := anyFallback got, stale := anyStale got,
      near := (match cut with | some u => near out u | none => 0),
      cut := (match cut with | some u => fp32Word u.key | none => free), entries := got1.map Ent.bytes }

/-- The block of a THRESHOLD query. -/
def thresholdBlock (s : State) (x : Matrix) (j : FJob) (q : Nat) (all : List Ent) : Block :=
  let t := fp32Num (descThreshold j.desc)
  if verifyOf j.subop then
    let c := candidates j.subop j.desc all
    let hits := (c.1.map (s.verifyCol x j q)).filter (fun e => atLeastT (e.score * 2 ^ 25) 0 t)
    let got := hits.take 65536
    let cols := got.map (·.col)
    let trunc := c.2 || decide (65536 < hits.length)
    { margin := trunc, truncated := trunc, fallback := anyFallback got, stale := anyStale got,
      near := (all.filter (fun e => !cols.contains e.col && nearT e t)).length, cut := descThreshold j.desc, entries := got.map Ent.bytes }
  else
    let hits := all.filter (fun e => atLeastT e.key 0 t)
    let got := (hits.take 65536).map (fun e => { e with margin := !atLeastT e.key (-(e.bound : Int)) t })
    let cols := got.map (·.col)
    { margin := got.any (·.margin), truncated := decide (65536 < hits.length), fallback := anyFallback got, stale := anyStale got,
      near := (all.filter (fun e => !cols.contains e.col && nearT e t)).length, cut := descThreshold j.desc, entries := got.map Ent.bytes }

/-- The block of a SCORE query. -/
def scoreBlock (all : List Ent) : Block :=
  { margin := false, truncated := false, fallback := anyFallback all, stale := anyStale all, near := 0, cut := 0, entries := all.map Ent.bytes }

/-- The block of query `q` over this device's columns. -/
def State.blockOf (s : State) (x : Matrix) (j : FJob) (cols : List Nat) (q : Nat) : Block :=
  let all := cols.map (s.scoreCol x j q)
  match kindOf j.subop with
  | 0 => scoreBlock all
  | 1 => topkBlock s x j q (Config.free64 (s.free + q)).toNat all
  | _ => thresholdBlock s x j q all

/-! ### Merging the results of devices (R248) -/

/-- The blocks of a result area. -/
def parseBlocks : Nat → List Byte → List Block
  | 0, _ => []
  | n + 1, b =>
    let c := leAt b 0 4
    let fl := b.getD 4 0
    let e := (List.range c).map (fun i => slice b (16 + 16 * i) 16)
    { margin := byteBit fl 0, truncated := byteBit fl 1, fallback := byteBit fl 2, stale := byteBit fl 3, near := leAt b 8 4, cut := leAt b 12 4,
      entries := e } :: parseBlocks n (b.drop (16 + 16 * c))

/-- The order of two entries of a merged TOPK result: by exact score with VERIFY, otherwise by key. -/
def entryBefore (verify : Bool) (a b : List Byte) : Bool :=
  let v (e : List Byte) : Int := if verify then signedOf 4 (leAt e 4 4) else (fp32Num (leAt e 8 4)).getD 0
  decide (v b < v a) || (v a == v b && decide (leAt a 0 4 < leAt b 0 4))

/-- The blocks of one query on several devices, merged: TOPK by order, the rest joined in column order; flags by OR, NEAR summed, CUT the
largest. -/
def mergeBlocks (subop : Nat) (d : List Byte) (l : List Block) : Block :=
  let byCol (a b : List Byte) : Bool := decide (leAt a 0 4 < leAt b 0 4)
  let e := l.flatMap (·.entries)
  let e1 := match kindOf subop with
    | 1 => (sortOrd (entryBefore (verifyOf subop)) e).take (descK d)
    | 2 => (sortOrd byCol e).take 65536
    | _ => sortOrd byCol e
  let cut := l.foldl (fun (a : Option Block) b => match a with
    | none => some b
    | some c => if (fp32Num c.cut).getD 0 < (fp32Num b.cut).getD 0 then some b else a) none
  { margin := l.any (·.margin), truncated := l.any (·.truncated) || (kindOf subop == 2 && decide (65536 < e.length)),
    fallback := l.any (·.fallback), stale := l.any (·.stale), near := (l.map (·.near)).foldl (· + ·) 0,
    cut := (cut.map (·.cut)).getD 0, entries := e1 }

/-! ### The end of a job (R239, R241, R244) -/

/-- Does the connection, or device, that submitted a job still hold it? -/
def State.ownerHere (s : State) (o : Origin) : Bool :=
  match o with
  | .conn id gen => (match s.host.conns.find id with | some c => c.gen == gen | none => false)
  | _ => true

/-- The operation that waits for a job is answered. -/
def State.answerJob (s : State) (id : Nat) (j : FJob) : State :=
  match s.host.ops.find j.op with
  | none => s
  | some o =>
    if j.op = 0 then s
    else if j.status = .ok || j.status = .okTruncated then s.finishOp j.op (o.answer j.status [] (j.summary id))
    else s.failOp j.op j.status

/-- A matrix that is UNLOADING is freed once no job of it runs (R126, R246). -/
def State.unloadDone (s : State) (id : Nat) : State :=
  match s.filet.matrices.find id with
  | none => s
  | some x =>
    if x.st = 2 && !s.filet.jobs.any (fun e => e.2.matrix == id && decide (e.2.st ≤ 1)) then
      s.dropMatrix id (match x.mailbox with | some m => .mailbox m | none => .none)
    else s

/-- A job ends with a status and its blocks. -/
def State.endJob (s : State) (id : Nat) (j : FJob) (st : Status) (blocks : List Block) : State :=
  let good := st = .ok || st = .okTruncated
  let fl := blocks.foldl (fun (a : Nat) b => Nat.lor a (b.margin.toNat + 2 * b.fallback.toNat + 4 * b.stale.toNat + 8 * b.truncated.toNat)) 0
  let j1 : FJob := { j with st := 2, status := st, ended := s.now, flags := if good then fl else 0, todo := [], acc := [], subs := [],
                            result := if good then blocks.flatMap Block.bytes else [] }
  let s1 : State := { s with
    filet := { s.filet with jobs := if s.ownerHere j.owner then s.filet.jobs.put id j1 else s.filet.jobs.drop id }
    lace := { s.lace with refs := s.lace.refs.filter (fun e => e.2.1 != filetRef id) } }
  let s2 := if st = .okTruncated then s1.count (Reg.filCount 9) 1 else s1
  (s2.answerJob id j1).unloadDone j.matrix

/-- The blocks of this device's columns are all there: of several devices they are merged. -/
def State.finishJob (s : State) (id : Nat) (j : FJob) (own : List Block) : State :=
  let areas := (if j.mine.isEmpty then [] else [own]) ++ j.subs.map (fun x => parseBlocks j.queries.length x.got)
  let blocks := match areas with
    | [l] => l
    | _ => (List.range j.queries.length).map (fun q => mergeBlocks j.subop j.desc (areas.filterMap (fun a => a[q]?)))
  let j1 : FJob := { j with verified := j.verified + (j.subs.map (·.verified)).foldl (· + ·) 0,
                            passes := j.passes + 1024 * (j.subs.map (·.passes)).foldl (· + ·) 0 }
  ({ s with free := s.free + j.queries.length } : State).endJob id j1 (if blocks.any (·.truncated) then .okTruncated else .ok) blocks

/-- JOB_COMPLETE: the last passes have run and the sub-jobs are in; the shadow lines that verification and fallback need are read, and the
job ends. -/
def execJobComplete (job : Nat) (s : State) : Result :=
  .next (match s.filet.jobs.find job with
    | none => s
    | some j => match s.filet.matrices.find j.matrix with
      | none => s
      | some x =>
        if 2 ≤ j.st || !j.todo.isEmpty || j.subs.any (fun y => !y.finished) then s
        else
          let cols := x.colsIn (descFirst j.desc) (descCount j.desc x.cols) j.mine
          let exact := cols.filter (fun c => j.fallback.contains (c / x.width))
          let lines := x.lines exact
          let known := lines.all (fun ln => (s.resident ln).isSome || j.fails.any (fun f => f.1 == ln))
          if !known then s.fetchShadow lines
          else match s.shadowStatus x j.fails exact with
            | some st => s.endJob job j st []
            | none =>
              let cand := if verifyOf j.subop then
                  (List.range j.queries.length).map (fun q => (candidates j.subop j.desc (cols.map (s.scoreCol x j q))).1) else []
              let cc := sortOrd (fun (a b : Nat) => decide (a < b)) ((cand.flatMap (fun l => l.map (·.col))).eraseDups)
              let lost (c : Nat) : Bool := match s.mem.dir.find (x.panel c) with | some e => e.st == 2 || e.st == 3 | none => false
              let lines2 := x.lines (cc.filter (fun c => !lost c))
              let known2 := lines2.all (fun ln => (s.resident ln).isSome || j.fails.any (fun f => f.1 == ln))
              if !known2 then s.fetchShadow lines2 .rescore
              else match cc.findSome? (fun c => if lost c then some Status.unavailable else s.shadowStatus x j.fails [c]) with
                | some st => s.endJob job j st []
                | none =>
                  let n := (cand.map (·.length)).foldl (· + ·) 0
                  let s1 := ((s.count (Reg.filCount 4) n).count (Reg.filCount 5) (exact.length * j.queries.length))
                  s1.finishJob job { j with verified := n } ((List.range j.queries.length).map (s1.blockOf x j cols)))

/-- RESULT_HOLD_EXPIRE (R244). -/
def execResultHoldExpire (job : Nat) (s : State) : Result :=
  .next (match s.filet.jobs.find job with
    | none => s
    | some j =>
      if 2 ≤ j.st && s.due (j.ended + ms (s.fld Reg.filCfg 47 32)) then { s with filet := { s.filet with jobs := s.filet.jobs.drop job } } else s)

/-! ### Sub-jobs (R292) -/

/-- A FILET_RESULT stitch to a sub-job's device. -/
def subResult (source job subop off len : Nat) : Stitch :=
  { opcode := 8, resp := false, fence := false, more := false, cont := false, subop := subop, length := len, tag := 0, addr := source,
    payload := leBytes 4 job ++ leBytes 4 off }

/-- The answer of a sub-job's device: its summary first, then its result area piece by piece; then it is released. -/
def State.subDone (s : State) (id k : Nat) (r : Response) : State :=
  match s.filet.jobs.find id with
  | none => s
  | some j => match j.subs[k]?, s.filet.matrices.find j.matrix with
    | some y, some x =>
      let put (z : SubJob) : State := s.modJob id (fun j => { j with subs := j.subs.set k z })
      if y.finished then s
      else if r.status ≠ .ok && r.status ≠ .okTruncated then s.endJob id j r.status []
      else
        let z : SubJob := match y.job with
          | none => { y with job := some (leAt r.payload 0 4), size := leAt r.payload 8 4, passes := leAt r.payload 16 4, verified := leAt r.payload 20 4 }
          | some _ => { y with got := y.got ++ r.payload }
        let num := z.job.getD 0
        if z.size ≤ z.got.length then (put { z with finished := true }).sendSub id k z.dev (subResult x.source num 2 0 32)
        else (put z).sendSub id k z.dev (subResult x.source num 0 z.got.length (min 65536 (z.size - z.got.length)))
    | _, _ => s

/-- Sub-jobs of devices that are gone (R292): for a mirrored source the devices of the other copies score their panels; otherwise the job
ends with UNAVAILABLE. -/
def State.subsLost (s : State) (gone : Nat → Bool) : State :=
  s.filet.jobs.foldl (fun t e =>
    let lost := e.2.subs.filter (fun y => gone y.dev && !y.finished)
    if 2 ≤ e.2.st || lost.isEmpty then t
    else match t.filet.matrices.find e.2.matrix with
      | none => t
      | some x =>
        let panels := lost.flatMap (·.panels)
        let reader (p : Nat) : Option Nat := (t.mem.dir.find p).bind (fun d => readerDev d p)
        if panels.any (fun p => (reader p).isNone) then t.endJob e.1 e.2 .unavailable []
        else
          let t1 := t.modJob e.1 (fun j => { j with subs := j.subs.map (fun y => if gone y.dev && !y.finished then { y with finished := true } else y) })
          let here := panels.filter (fun p => reader p == some t.self)
          let away := panels.filter (fun p => reader p != some t.self)
          let first := descFirst e.2.desc
          let n := descCount e.2.desc x.cols
          (t1.scoreHere e.1 x here).addSubs e.1 x (away.map (fun p =>
            let c := x.colsIn first n [p]
            ((reader p).getD 0, [p], c.headD 0, c.length)))) s

/-! ### FILET_RESULT (R242, R244) -/

/-- Checks 3 to 5 of a FILET_RESULT stitch. -/
def State.resultForm (s : State) (t : Stitch) : Option Status :=
  if s.power = .held then some .held
  else if t.payload.length ≠ 8 || (if t.subop = 0 then t.length < 16 || 65536 < t.length || t.length % 16 ≠ 0 else t.length ≠ 32) then some .length
  else if t.subop = 0 && leAt t.payload 4 4 % 16 != 0 then some .align
  else none

/-- Do two origins name one submitter? -/
def sameOwner (a b : Origin) : Bool :=
  match a, b with
  | .conn i g, .conn k h => i == k && g == h
  | .lace d _, .lace e _ => d == e
  | _, _ => false

/-- A FILET_RESULT row: `k` acts on the job that the stitch names, where this connection holds it under this matrix. -/
def State.resultRow (s : State) (op subop : Nat) (k : State → Op → Nat → Option FJob → State) : State :=
  match s.host.ops.find op with
  | none => s
  | some o =>
    if o.phase = .queued && o.st.opcode == 8 && o.st.subop == subop then
      match (s.resultForm o.st).orElse fun _ => s.filetCheck o with
      | some st => s.failOp op st
      | none =>
        if s.mayBegin op o then
          let id := leAt o.st.payload 0 4
          let mid := match s.matrixAt o.st.addr with | some (m, _) => m | none => 0
          k s o id ((s.filet.jobs.find id).bind (fun j => if sameOwner j.owner o.origin && j.matrix == mid then some j else none))
        else s
    else s

/-- FILET_RESULT READ. -/
def execFiletResultRead (op : Nat) (s : State) : Result :=
  .next (s.resultRow op 0 (fun t o _ j => match j with
    | none => t.failOp op .address
    | some j =>
      let off := leAt o.st.payload 4 4
      if j.st ≤ 1 then t.finishOp op (o.answer .ok [BitVec.ofNat 8 j.st] [])
      else if j.status ≠ .ok && j.status ≠ .okTruncated then t.finishOp op (o.answer j.status [BitVec.ofNat 8 j.st] [])
      else if j.spoiled then t.failOp op .uncorrectable
      else if j.result.length ≤ off then t.failOp op .address
      else t.finishOp op (o.answer j.status [BitVec.ofNat 8 j.st] (slice j.result off (min o.st.length (j.result.length - off))))))

/-- FILET_RESULT STATUS. -/
def execFiletResultStatus (op : Nat) (s : State) : Result :=
  .next (s.resultRow op 1 (fun t o id j => match j with
    | none => t.failOp op .address
    | some j => t.finishOp op (o.answer (if j.st ≤ 1 then .ok else j.status) [] (j.summary id))))

/-- Sub-jobs of a job are released, or cancelled, on their devices. -/
def State.tellSubs (s : State) (id : Nat) (j : FJob) (subop : Nat) : State :=
  match s.filet.matrices.find j.matrix with
  | none => s
  | some x => (List.range j.subs.length).foldl (fun t k => match j.subs[k]? with
    | some y => match y.job with
      | some num => if y.finished then t else t.sendSub id k y.dev (subResult x.source num subop 0 32)
      | none => t
    | none => t) s

/-- FILET_RESULT RELEASE: the result is freed; the passes of a job that still runs are dropped with it. -/
def execFiletResultRelease (op : Nat) (s : State) : Result :=
  .next (s.resultRow op 2 (fun t o id j => match j with
    | none => t.finishOp op (o.answer .ok [0] [])
    | some j =>
      let t1 : State := { t with filet := { t.filet with jobs := t.filet.jobs.drop id } }
      let t2 := if j.st ≤ 1 then ((t1.tellSubs id j 3).answerJob id { j with st := 3 }).unloadDone j.matrix else t1
      t2.finishOp op (o.answer .ok [1] [])))

/-- FILET_RESULT CANCEL: the remaining passes are dropped and the job is CANCELLED; a job already done stays as it is. -/
def execFiletResultCancel (op : Nat) (s : State) : Result :=
  .next (s.resultRow op 3 (fun t o id j => match j with
    | none => t.finishOp op (o.answer .ok [0] [])
    | some j =>
      if 2 ≤ j.st then t.finishOp op (o.answer .ok [1] [])
      else
        let j1 : FJob := { j with st := 3, status := .ok, ended := t.now, todo := [], acc := [], subs := [], result := [], flags := 0 }
        let t1 := (t.tellSubs id j 3).modJob id (fun _ => j1)
        (((t1.answerJob id j1).unloadDone j.matrix).count (Reg.filCount 11) 1).finishOp op (o.answer .ok [1] [])))

end Sys2Proof.Machine
end

