-- ==== Sys2Proof/Machine/Lace.lean ====
section
/-!
DEFINITION. The hoop's work on its members: the epoch (R268, R269), losing links, devices and the manager (R283 to R288), rejoin and
resync (R289, R290), panel moves (R279), and fork records (R282).
-/
namespace Sys2Proof.Machine

/-! ### Answers without waiting -/

/-- The response of an operation leaves: it is recorded for duplicates, counted in the connection's traffic and made ready (R76, R84). -/
def State.respond (s : State) (o : Op) (r : Response) : State :=
  match o.origin with
  | .conn id gen => match s.host.conns.find id with
    | some c =>
      if c.gen = gen then
        let wr := if r.status = .ok && (o.st.opcode == 2 || o.st.opcode == 6 || o.st.opcode == 5) then o.st.length else 0
        let t : Nat × Nat × Nat := (s.now, wr, if o.st.opcode = 1 then r.payload.length else 0)
        (s.modConn id (fun x =>
          { x.record o.seq o.idx r with traffic := x.traffic.filter (fun e => decide (s.now < e.1 + sec 1)) ++ [t] })).pushReady id r
      else s
    | none => s
  | _ => s

/-- Every stitch of a connection is answered with a status and forgotten (R286, R482). -/
def State.answerAll (s : State) (st : Status) : State :=
  let mine (o : Op) : Bool := match o.origin with | .conn _ _ => true | .part _ _ => true | .lace _ _ => false
  let s1 : State := { s with
    host := { s.host with ops := s.host.ops.filter (fun e => !mine e.2) }
    lace := { s.lace with splits := [], refs := [] } }
  let s2 := s.host.ops.foldl (fun t e => match e.2.phase with
    | .done r => t.respond e.2 r
    | _ => t.respond e.2 (e.2.st.refusal st)) s1
  s2.host.conns.foldl (fun t e => t.flushReady e.1) s2

/-- A connection is reset, with the frames already queued for it still sent ahead of the RESET. -/
def State.resetAfter (s : State) (id reason : Nat) : State := (s.releaseFrames id).resetConn id reason

/-- Every connection is reset with a reason. -/
def State.resetAll (s : State) (reason : Nat) : State := s.host.conns.foldl (fun t e => t.resetAfter e.1 reason) s

/-! ### The epoch (R268, R269) -/

/-- An epoch is adopted, and the epoch record says RUNNING; hoop time is saved with it (R269, R293). -/
def State.adopt (s : State) (e : Nat) : State :=
  (((s.saveHoopTime.setFld Reg.hopEpoch 31 0 e).setFld Reg.hopExit 31 0 e).setFld Reg.hopExit 33 32 0).count (Reg.hopCount 5) 1

/-- The acting manager advances the epoch and announces it. -/
def State.bumpEpoch (s : State) : State := (s.adopt ((s.hoopEpoch + 1) % 2 ^ 32)).sendAll .epoch

/-- The address of host port 0 that a member announced. -/
def State.hostIp (s : State) (d : Nat) : IpAddr :=
  match (s.lace.members.find d).bind (·.said) with | some a => a.ip | none => { v6 := true, addr := 0 }

/-- NOTICE FAILOVER MANAGER_HANDOVER on every connection (R286, R287): the other manager, at the same Shuttle port. -/
def State.handoverNotice (s : State) (grace : Nat) : State :=
  let dst := if s.self = 0 then 1 else 0
  s.host.conns.foldl (fun t e =>
    if e.2.st = .closing then t
    else t.notice e.1 4 (t.failoverBody 1 grace (t.hostIp dst) (t.fld Reg.ethUdpPort 15 0) 0 0)) s

/-- The firmware of an acting manager locks way 15 of every slice for the hoop directory, and another device's does not (R272, R337). -/
def State.lockDirectory (s : State) : State :=
  (List.range 32).foldl (fun t sl =>
    let x := t.way sl 15
    if x.st = .on then t.putWay sl 15 { x with locked := t.isManager } else t) s

/-- The manager stops (R286): its stitches are answered UNAVAILABLE, its connections told and reset with NOT_SERVING. -/
def State.stopManager (s : State) : State :=
  let s1 := ((s.answerAll .unavailable).handoverNotice 0).resetAll 0x05
  ({ s1 with lace := { s1.lace with stopped := true, handover := none, jobs := [] } } : State).clrFlag Reg.shtStatus 15

/-- A frame with a higher epoch is seen (R268): it is adopted; the acting manager is superseded and becomes the standby (R286, R291). -/
def State.sawEpoch (s : State) (src e : Nat) : State :=
  if s.hoopEpoch < e then
    let s1 := s.adopt e
    if s1.isManager && s1.lace.members.any (fun m => m.1 != s1.self) then
      let s2 := ((s1.raise 0x5009 s1.self 0).stopManager.setFld Reg.hopStatus 3 2 1).clrFlag Reg.hopStatus 11
      let s2 := s2.lockDirectory
      { s2 with lace := { s2.lace with stopped := false, mgr := if src < 2 then src else 1 - s2.self, standbyCurrent := false } }
    else s1
  else s

/-! ### Routes (R265, R270, R283) -/

/-- Every route whose path changed since `old` resends the frames RACK does not cover, in order, on its new path. -/
def State.repath (s old : State) : State :=
  s.lace.routes.foldl (fun t e =>
    let n := s.nextHop e.1
    if n.isSome && n != old.nextHop e.1 && !e.2.store.isEmpty then
      e.2.store.foldl (fun u f => (u.sendPath f).count (Reg.hopCount 8) 1) t
    else t) s

/-- The routes to a device begin anew (log entry 33). -/
def State.dropRoute (s : State) (d : Nat) : State := s.putRoute d .empty

/-! ### The states of panels (Tables 08-7 to 08-10) -/

/-- A directory entry with the panel STATE its copies give; LOST and CLEARING stay. -/
def restate (e : DirEntry) : DirEntry :=
  if e.st = 3 || e.st = 4 then e
  else if e.copyA = 0 && (!e.mirrored || e.copyB == 0) then { e with st := 0 }
  else if (currentDevs e).isEmpty then { e with st := 2 } else { e with st := 1 }

/-- An entry when a device becomes ABSENT (R284): its copies are ABSENT, and a move to it ends. -/
def absentEntry (d : Nat) (e : DirEntry) : DirEntry :=
  restate { e with
    copyA := if e.devA = d then 2 else e.copyA
    copyB := if e.mirrored && e.devB == d then 2 else e.copyB
    move := match e.move with | some (x, lp, b) => if x = d then none else some (x, lp, b) | none => none }

/-- Does an entry have a copy on a device? -/
def holds (d : Nat) (e : DirEntry) : Bool := e.devA == d || (e.mirrored && e.devB == d)

/-- An entry when a device rejoins (Table 08-10): a mirrored copy is RESYNC; an unmirrored panel is NORMAL after RUNNING or CLEAN, and
LOST otherwise. -/
def rejoinEntry (d : Nat) (kept : Bool) (e : DirEntry) : DirEntry :=
  if !holds d e then e
  else if e.mirrored then
    restate { e with copyA := if e.devA = d then 1 else e.copyA, copyB := if e.devB = d then 1 else e.copyB }
  else if kept then restate { e with copyA := 0 } else { e with copyA := 0, st := 3 }

/-- The entries that `f` changes. -/
def State.dirWith (s : State) (f : DirEntry → DirEntry) : List (Nat × DirEntry) :=
  (s.mem.dir.map (fun e => (e.1, f e.2))).filter (fun e => s.mem.dir.find e.1 != some e.2)

/-- Entries as changes of tables. -/
def asChanges (l : List (Nat × DirEntry)) : List TableChange := l.map (fun e => .dir e.1 (some e.2))

/-! ### Resync (R289, R290) -/

/-- This device begins to copy a panel to a target: every chunk, or those marked in its resync map where it has one. -/
def State.resyncOut (s : State) (panel target : Nat) (chunks : Option (List Nat)) : State :=
  let all := List.range 1024
  let l := match chunks with
    | none => all
    | some _ => (s.lace.maps.find panel).getD all
  let r : ResyncOut := { panel := panel, target := target, chunks := l, line := 0, copied := 0 }
  { s with lace := { s.lace with resyncs := s.lace.resyncs.filter (fun x => x.panel != panel) ++ [r] } }

/-- The manager has a panel copied to a target by the device of a CURRENT copy, if there is one. -/
def State.orderResync (s : State) (panel target : Nat) (chunks : Option (List Nat)) : State :=
  match s.mem.dir.find panel with
  | none => s
  | some e => match ((currentDevs e).filter (· != target)).head? with
    | none => s
    | some src => if src = s.self then s.resyncOut panel target chunks else s.sendControl src (.resync panel target chunks)

/-! ### Moves (R279) -/

/-- The devices between which a panel should move next, the panel first; a member being removed comes before a READ_ONLY device, and
that before balance. -/
def State.moveFrom (s : State) : Option Nat :=
  let used (d : Nat) : Nat := (usedPanels s.mem.dir d).length
  let devs := s.panelDevs
  match s.lace.removing with
  | some (d, _) => if used d = 0 then none else some d
  | none =>
    match devs.find? (fun d => s.readOnlyDev d && used d != 0) with
    | some d => some d
    | none =>
      let most := devs.foldl (fun a d => if used a < used d then d else a) (devs.headD 0)
      let least := devs.foldl (fun a d => if used d < used a then d else a) (devs.headD 0)
      if s.fld Reg.hopCfg 22 16 ≠ 0 && decide (used least + 64 < used most) then some most else none

/-- The devices that may take a panel from a device. -/
def State.moveTo (s : State) (d : Nat) (e : DirEntry) : List Nat :=
  let ok (x : Nat) : Bool := x != d && !holds x e && !s.readOnlyDev x && (match s.lace.removing with | some (r, _) => r != x | none => true)
  let stays := if e.devA = d then e.devB else e.devA
  let good := if e.mirrored then (s.mirrorDevs stays).filter ok else []
  if good.isEmpty then s.panelDevs.filter ok else good

/-- The manager starts the next panel move, when none is under way: the target joins as a RESYNC copy (R279). -/
def State.nextMove (s : State) : State :=
  if !s.isManager || s.lace.members.isEmpty || s.mem.dir.any (fun e => e.2.move.isSome) then s
  else match s.moveFrom with
    | none => match s.lace.removing with
      | none => s
      | some (d, m) =>
        if (usedPanels s.mem.dir d).isEmpty then
          let s1 : State := { s with lace := { s.lace with removing := none } }
          ((s1.change [.member d none] (.mailbox m)).dropRoute d).bumpEpoch
        else s
    | some d =>
      match s.mem.dir.findSome? (fun e =>
        if holds d e.2 && e.2.st ≤ 1 && !(currentDevs e.2).isEmpty then (mostFree s.mem.dir (s.moveTo d e.2)).map (fun t => (e.1, e.2, t))
        else none) with
      | none => s
      | some (hp, e, t) =>
        let e1 := { e with move := some (t, lowPanel s.mem.dir t, e.devA != d) }
        (s.change [.dir hp (some e1)] .none).orderResync hp t none

/-- A copy is complete on a device (R279, R290): it is CURRENT, or it takes the place of the copy it moves. -/
def State.copyDone (s : State) (dev panel chunks : Nat) : State :=
  match s.mem.dir.find panel with
  | none => s
  | some e =>
    let moved := match e.move with | some (d, lp, b) => if d = dev then some (lp, b) else none | none => none
    let e1 : DirEntry := match moved with
      | some (lp, true) => { e with devB := dev, lpB := lp, copyB := 0, move := none }
      | some (lp, false) => { e with devA := dev, lpA := lp, copyA := 0, move := none }
      | none => { e with copyA := if e.devA = dev then 0 else e.copyA, copyB := if e.mirrored && e.devB == dev then 0 else e.copyB }
    let e2 := restate e1
    let back := e.st ≠ 0 && e2.st == 0
    let s1 := s.change [.dir panel (some e2)] (if back then .restored [panel] else .none)
    (s1.raise 0x5007 dev chunks).nextMove

/-! ### Losing a device (R284) -/

/-- The parts of a device that is gone answer, or go elsewhere (Table 08-9): a read of a mirrored panel to the other copy; a mirrored
write counts as what the other copy answers; every other part ends with UNAVAILABLE. -/
def State.reissuePart (s : State) (id k : Nat) (o : Op) (x : Split) (p : Part) : State :=
  let next := match s.mem.dir.find p.panel with
    | some e => if p.st.opcode = 1 then ((currentDevs e).filter (· != p.dev)).head? else none
    | none => none
  match next with
  | some g =>
    let q : Part := { p with dev := g, ph := .sent }
    let s1 : State := { s with lace := { s.lace with refs := s.lace.refs.filter (fun e => e.2 != (id, k)) } }
    ((s1.modPart id k (fun _ => q)).sendPart id k o q false false false).count (Reg.hopCount 4) 1
  | none =>
    let gone := if x.st = .prepare then PartPh.prepared .unavailable else .done (o.st.refusal .unavailable)
    let s1 := s.modPart id k (fun y => { y with ph := gone })
    match (x.siblings k).head? with
    | some (j, _) => if p.first then (s1.modPart id k (fun y => { y with first := false })).modPart id j (fun y => { y with first := true }) else s1
    | none => s1

/-- Stitches in flight to devices that are no longer PRESENT are reissued once the directory says so (R284). -/
def State.reissue (s : State) : State :=
  let gone (d : Nat) : Bool := d != s.self && !(match s.lace.members.find d with | some m => m.present | none => false)
  (s.subsLost gone).lace.splits.foldl (fun t e => match t.host.ops.find e.1 with
    | none => t
    | some o =>
      let lost := ((List.range e.2.parts.length).zip e.2.parts).filter (fun q => q.2.ph == .sent && gone q.2.dev)
      if lost.isEmpty then t
      else (lost.foldl (fun u q => u.reissuePart e.1 q.1 o e.2 q.2) t).settle e.1) (s.subsLost gone)

/-- A change of tables, with the reissue that a lost device asks for when it takes effect at once. -/
def State.changeNow (s : State) (l : List TableChange) (a : SyncAct) : State :=
  let s1 := s.change l a
  if s1.standbyDev.isNone then s1.reissue else s1

/-- The manager finds a device gone (R284): `why` is the value of sampler event DEVICE_ABSENT. -/
def State.absent (s : State) (d why : Nat) : State :=
  match s.lace.members.find d with
  | none => s
  | some m =>
    if !m.present || d = s.self then s
    else
      let wasStandby := some d = s.standbyDev
      let s1 : State := { s with lace := { s.lace with
          members := s.lace.members.put d { m with present := false, parents := [], said := none }
          standbyCurrent := s.lace.standbyCurrent && !wasStandby } }
      let s2 := ((s1.dropRoute d).bumpEpoch.raise 0x5002 d why)
      let s3 := if wasStandby then s2.syncedAll else s2
      let l := s3.dirWith (absentEntry d)
      (s3.changeNow (asChanges l) (.failover (l.map (·.1)))).nextMove

/-- Devices to which no route is left are ABSENT (R265, R284). -/
def State.checkAbsent (s : State) : State :=
  if s.isManager then
    s.othersPresent.foldl (fun t d => if (t.nextHop d).isNone then t.absent d 1 else t) s
  else s

/-! ### Rejoin (R289, R291) -/

/-- Every table, as changes: what a joining standby copies (R278). -/
def State.allTables (s : State) : List TableChange :=
  .only s.mem.dir.keys s.mem.regions.keys s.mem.grants.keys :: s.mem.regions.map (fun e => .region e.1 (some e.2)) ++ s.mem.grants.map (fun e => .grant e.1 (some e.2)) ++
    s.mem.dir.map (fun e => .dir e.1 (some e.2)) ++ s.filet.matrices.map (fun e => .matrix e.1 (some e.2.request)) ++
    s.lace.members.map (fun e => .member e.1 (some e.2.serial))

/-- A member that joins gets the tables: the standby all of them, then CURRENT; a worker those of its panels. -/
def State.sendTables (s : State) (d : Nat) : State :=
  if some d = s.standbyDev then
    let s1 := ((s.sendControl d (.sync s.allTables)).sendControl d (.hints s.lace.hints)).sendControl d .current
    let j : SyncJob := { rseq := (s1.route d).tx, changes := [], act := .standby }
    { s1 with lace := { s1.lace with jobs := s1.lace.jobs ++ [j] } }
  else
    let mine := (s.mem.dir.filter (fun e => concerns d (.dir e.1 (some e.2)))).map (·.1)
    (s.sendControl d (.sync (.only mine [] [] :: s.allTables.filter (concerns d)))).sendControl d (.hints s.lace.hints)

/-- The copies on a device that is back are treated by Table 08-10. -/
def State.treatCopies (s : State) (d : Nat) (kept : Bool) : State :=
  let l := s.dirWith (rejoinEntry d kept)
  let lost := (l.filter (fun e => e.2.st == 3)).map (·.1)
  let back := (l.filter (fun e => !e.2.mirrored && e.2.st == 0)).map (·.1)
  let s1 := s.changeNow (asChanges (l.filter (fun e => e.2.mirrored))) .none
  let s2 := if back.isEmpty then s1 else s1.changeNow (asChanges (l.filter (fun e => back.contains e.1))) (.restored back)
  let s3 := if lost.isEmpty then s2
    else (s2.changeNow (asChanges (l.filter (fun e => lost.contains e.1))) (.lost lost)).raise 0x5006 d lost.length
  (l.filter (fun e => e.2.mirrored)).foldl (fun t e => t.orderResync e.1 d (if kept then some [] else none)) s3

/-- A member that announces itself, with a route to it, is PRESENT again. -/
def State.rejoin (s : State) (a : Announce) : State :=
  match s.lace.members.find a.dev with
  | none => s
  | some m =>
    let s1 : State := { s with lace := { s.lace with members := s.lace.members.put a.dev { m with said := some a } } }
    if m.present || s1.lace.discover.isSome || (s1.nextHop a.dev).isNone then s1
    else
      let s2 : State := { s1 with lace := { s1.lace with members := s1.lace.members.put a.dev { m with said := some a, present := true } } }
      ((s2.bumpEpoch.sendTables a.dev).treatCopies a.dev (a.exit != 2)).nextMove

/-! ### Fork records (R282) -/

/-- The lines of a range that a fork left open are copied from the CURRENT copy, copy A where both are, to the other; stitches that touch
the range wait. -/
def State.repairFork (s : State) (addr len : Nat) : State :=
  match s.mem.dir.find (addr % 2 ^ 56 / 2 ^ 30) with
  | none => s
  | some e =>
    match (currentDevs e).head? with
    | none => s
    | some good => match ((writerDevs e).filter (· != good)).head? with
      | none => s
      | some bad =>
        let t : Stitch := { opcode := 2, resp := false, fence := false, more := false, cont := false, subop := 0, length := len,
                            tag := 0, addr := addr, payload := [] }
        let id := s.host.nextOp
        let o : Op := { origin := .part 0 0, mode := .prepared, conn := 0, cls := 0, engine := 0, seq := 0, idx := 0, st := t,
                        grant := { cls := 0, ctr := false, ctrFirst := 0, ctrCount := 0, v6 := false, prefixLen := 0, netPrefix := 0,
                                   entries := [] },
                        regions := s.mem.regions, phase := .waiting 0, fails := [], reexec := false, started := s.now, gate := none }
        let p : Part := { dev := bad, panel := addr % 2 ^ 56 / 2 ^ 30, first := true, st := t, mirror := false, rseq := 0, tried := false,
                          ph := .done (o.answer .ok [] []) }
        let s1 : State := { s with host := { s.host with ops := s.host.ops.put id o, nextOp := id + 1 } }
        (s1.putSplit id { st := .run, parts := [p] }).repairRead id o { st := .run, parts := [p] } 0 good

/-! ### Losing the manager (R285 to R287) -/

/-- The device takes the acting role MANAGER: the epoch advances, members without a route are ABSENT, its own open forks are repaired,
and it accepts connections. -/
def State.takeRole (s : State) : State :=
  let old := s.lace.mgr
  let s0 : State := { s with lace := { s.lace with mgr := s.self, stopped := false, standbyCurrent := false } }
  let s1 := s0.setFld Reg.hopStatus 3 2 0
  let here (d : Nat) : Bool := d == s1.self || d == old || (s1.nextHop d).isSome || s1.mem.dir.any (fun e => decide (absentEntry d e.2 ≠ e.2))
  let s2 : State := { s1 with lace := { s1.lace with members := s1.lace.members.map (fun e => (e.1, { e.2 with present := here e.1 })) } }
  let s3 := s2.bumpEpoch.checkAbsent
  let mine := s3.lace.forks
  let s4 := mine.foldl (fun t f => t.repairFork f.addr f.len) { s3 with lace := { s3.lace with forks := [] } }
  s4.lockDirectory.setFlag Reg.shtStatus 15

/-- The branches to which the standby has an up link. -/
def State.branchLinks (s : State) : List LaceLink := (s.upLinks.map s.link).filter (fun l => decide (2 ≤ l.peerDev))

/-- The standby takes over when the conditions of R285 hold; while a branch still reaches the manager it sets PARTITION. -/
def State.tryTakeover (s : State) : State :=
  if s.actingRole = 1 && s.flag Reg.hopCfg 0 && s.flag Reg.hopStatus 11 && (s.linksTo s.lace.mgr).isEmpty && !s.lace.members.isEmpty then
    if s.branchLinks.any (fun l => l.mgrLink) then
      if s.flag Reg.hopStatus 12 then s else (s.setFlag Reg.hopStatus 12).raise 0x5004 s.self 0
    else
      let s1 := s.takeRole.count (Reg.hopCount 6) 1
      s1.raise 0x5003 s1.self ((s1.now - s1.lace.mgrBeat) / 1000)
  else s

/-! ### Links (R262, R263, R283) -/

/-- A worker reports to a standby beside the manager (R284, R285). -/
def State.tellStandby (s : State) (peer : Nat) (c : Control) : State :=
  if 2 ≤ s.self && s.lace.mgr = 0 && peer ≠ 1 && (s.nextHop 1).isSome then s.sendControl 1 c else s

/-- What follows when a link no longer carries routes: reports, new paths, and on the manager lost devices. -/
def State.linkGone (s old : State) (peer : Nat) : State :=
  let last := (s.linksTo peer).isEmpty
  let c : Control := .link s.self peer false
  let s1 := if last && !s.isManager then s.report c else s
  let s2 := if last then s1.tellStandby peer c else s1
  let s3 := (s2.repath old).checkAbsent
  if s3.isManager && s3.upLinks.isEmpty && !s3.lace.stopped && s3.lace.members.any (fun m => m.1 != s3.self) then s3.stopManager
  else if !s3.isManager && s3.upLinks.isEmpty then ({ s3 with lace := { s3.lace with routes := [] } } : State).tryTakeover
  else s3.tryTakeover

/-- A lace link is declared failed (R262): value 1 heartbeat, 2 PHY, 3 replays. A link that lost its PHY trains again. -/
def State.linkFail (s : State) (n why : Nat) : State :=
  let l := s.link n
  if l.st = .down || l.st = .training then s
  else
    let was := l.st == .up
    let l1 : LaceLink := { l with st := if why = 2 then .training else .probation, queue := [], replays := 0, failDue := none, probation := s.now }
    let s1 := (((s.putLink n l1).setFlag (Reg.lceLinkStatus n) 3).saturate (Reg.lceLinkStatus n) 23 8).count (Reg.lceCount n 3) 1
    let s2 := s1.raise 0x5001 n why
    if was then s2.linkGone s l.peerDev else s2

end Sys2Proof.Machine
end

