-- ==== Sys2Proof/Machine/LaceRx.lean ====
section
/-!
DEFINITION. Lace frames as they are received (R259 to R261, R268, R270) and what each type does (Table 08-3), the timers of links and
routes (R262, R263, R270), and the sending of resync lines (R290).
-/
namespace Sys2Proof.Machine

/-! ### The lace header (Table 08-2) -/

/-- A lace header. -/
structure LaceHdr where
  ver : Nat
  ltype : Nat
  nak : Bool
  prepare : Bool
  commit : Bool
  abort : Bool
  mirror : Bool
  hoopId : Nat
  src : Nat
  dst : Nat
  link : Nat
  epoch : Nat
  lseq : Nat
  lack : Nat
  rseq : Nat
  rack : Nat
  fdone : Nat
  lcredit : Nat
  plen : Nat
  deriving DecidableEq, Repr

/-- The header at the front of a frame's bytes. -/
def parseLace (b : List Byte) : LaceHdr :=
  let b1 := b.getD 1 0
  { ver := beAt b 0 1 / 16, ltype := beAt b 0 1 % 16, nak := byteBit b1 7, prepare := byteBit b1 6, commit := byteBit b1 5,
    abort := byteBit b1 4, mirror := byteBit b1 3, hoopId := beAt b 2 2, src := beAt b 4 1 % 64, dst := beAt b 5 1 % 64,
    link := beAt b 6 1 % 16, epoch := beAt b 8 4, lseq := beAt b 12 2, lack := beAt b 14 2, rseq := beAt b 16 4, rack := beAt b 20 4,
    fdone := beAt b 24 4, lcredit := beAt b 28 2, plen := beAt b 30 2 }

/-- Frame `a` is after frame `b` in 16-bit serial arithmetic (R53). -/
def seqAfter16 (a b : Nat) : Bool :=
  let d := (a + 65536 - b % 65536) % 65536
  decide (1 ≤ d) && decide (d < 32768)

/-- Lace links of the device (R258). -/
def State.laceLinks (s : State) : Nat := if s.fld Reg.hopStatus 1 0 = 2 then 16 else 8

/-- The lace address of a link (R259). -/
def State.laceAddr (s : State) (n : Nat) : Nat := 0x024C * 2 ^ 32 + s.hoopId * 2 ^ 16 + s.self * 2 ^ 8 + n

/-- The broadcast address. -/
def broadcastMac : Nat := 2 ^ 48 - 1

/-- Is the destination of a frame accepted (R259)? Before HOOP_ID is learned, any HOOP_ID in it is. -/
def State.laceDa (s : State) (n : Nat) (f : LaceIn) (ltype : Nat) : Bool :=
  let a := s.laceAddr n
  f.da == a || (s.hoopId == 0 && f.da / 2 ^ 32 == a / 2 ^ 32 && f.da % 2 ^ 16 == a % 2 ^ 16) ||
    (f.da == broadcastMac && (ltype == 4 || ltype == 5))

/-- OPREF, connection and stitch of a FORWARD or COMPLETE payload. -/
def laceStitch (b : List Byte) : Option (Nat × Nat × Stitch) :=
  match parseStitch (b.drop 40) with
  | some (t, []) => some (beAt b 32 4, beAt b 36 2, t)
  | _ => none

/-- Is PLEN consistent with the frame? A frame of 64 bytes may be padded. -/
def plenOk (f : LaceIn) (h : LaceHdr) : Bool :=
  let body := f.len - 18
  f.bytes.length == body && decide (32 + h.plen ≤ body) && (f.len == 64 || 32 + h.plen == body) &&
    (match h.ltype with
      | 0 => h.plen == 32
      | 1 | 2 => (laceStitch (f.bytes.take (32 + h.plen))).isSome
      | 3 | 4 => h.plen == 0
      | _ => true)

/-- Does a FORWARD or CONTROL come from a manager of an epoch that has passed (check EPOCH, R286)? -/
def State.oldEpoch (s : State) (h : LaceHdr) : Bool :=
  (h.ltype == 1 || (h.ltype == 6 && decide (h.src < 2) && !s.isManager)) && decide (h.epoch < s.hoopEpoch)

/-- The first check of Table 08-4 that a received frame fails, 0 when none does. -/
def State.laceCause (s : State) (n : Nat) (f : LaceIn) : Nat :=
  let h := parseLace f.bytes
  if f.fecUncorr then 1
  else if !f.fcsOk then 2
  else if f.len < 64 then 3
  else if 9216 < f.len then 4
  else if !s.laceDa n f h.ltype then 5
  else if !f.etypeOk then 6
  else if h.ver ≠ 1 then 7
  else if !plenOk f h then 8
  else if 8 ≤ h.ltype then 9
  else if s.hoopId ≠ 0 && h.hoopId ≠ 0 && h.hoopId ≠ s.hoopId && h.ltype ≠ 4 && h.ltype ≠ 5 then 0xA
  else if h.ltype ≠ 0 && h.lseq ≠ ((s.link n).rxSeq + 1) % 65536 then 0xB
  else if s.oldEpoch h then 0xC
  else if routeType h.ltype && h.dst ≠ s.self && (s.nextHop h.dst).isNone then 0xD
  else if routeType h.ltype && h.dst = s.self && h.ltype ≠ 3 && h.rseq ≠ ((s.route h.src).rx + 1) % 2 ^ 32 then 0xE
  else 0

/-- A frame is dropped: counted and recorded (R261). -/
def State.laceDrop (s : State) (n cause : Nat) : State :=
  (s.count (Reg.lceDrop cause) 1).wr Reg.lceDropLast (BitVec.ofNat 64 (cause + n * 2 ^ 8 + 2 ^ 12 + s.tick32 (Island.lace n) * 2 ^ 32))

/-! ### The link level (R260) -/

/-- Replay from LACK + 1 out of the replay buffer; the fourth replay of one frame fails the link. -/
def State.replay (s : State) (n : Nat) : State :=
  let l := s.link n
  if l.store.isEmpty then s
  else if 4 ≤ l.replays + 1 then s.linkFail n 3
  else
    let s1 := (s.putLink n { l with replays := l.replays + 1 }).count (Reg.lceCount n 4) 1
    l.store.foldl (fun t e =>
      (t.putLink n { t.link n with credit := (t.link n).credit - e.2.body.bytes }).emitLace n e.1 e.2) s1

/-- A frame taken on a link: its LSEQ, its LACK, its credit and its NAK; frames that waited for credit go out. A link in PROBATION takes
the sequence of its heartbeats. -/
def State.linkTake (s : State) (n : Nat) (h : LaceHdr) : State :=
  let l := s.link n
  let left := l.store.filter (fun e => seqAfter16 e.1 h.lack)
  let rx := if h.ltype ≠ 0 || l.st == .probation then h.lseq else l.rxSeq
  let l1 : LaceLink := { l with
    rxSeq := rx
    nak := l.nak || (h.ltype == 0 && l.st == .up && seqAfter16 h.lseq l.rxSeq)
    store := left
    replays := if left.length < l.store.length then 0 else l.replays
    credit := 256 * h.lcredit }
  let s1 := s.putLink n l1
  let s2 := if h.nak then s1.replay n else s1
  s2.pumpLink n (l1.queue.length + 1)

/-! ### The route level (R270, R282) -/

/-- What a route frame for this device does beside its body: its RSEQ, RACK and FDONE. -/
def State.routeTake (s : State) (h : LaceHdr) : State :=
  let r := s.route h.src
  let r1 : Route := { r with
    store := r.store.filter (fun f => seqAfter f.rseq h.rack)
    rx := if h.ltype = 3 then r.rx else h.rseq
    ackDue := if h.ltype = 3 then r.ackDue else some (r.ackDue.getD (s.now + us 2))
    fdone := h.fdone }
  let s1 := (s.putRoute h.src r1).routeRoom h.src
  let s2 : State := { s1 with lace := { s1.lace with forks := s1.lace.forks.filter (fun k => !(k.dev == h.src && !seqAfter k.rseq h.fdone)) } }
  if some h.src = s2.standbyDev then (s2.synced h.rack).reissue else s2

/-- RACK is owed to a device within 2 µs, a frame out of order included (R270). -/
def State.ackRoute (s : State) (d : Nat) : State :=
  let r := s.route d
  s.putRoute d { r with ackDue := some (r.ackDue.getD (s.now + us 2)) }

/-- The frame of another device goes on toward its device (R265). -/
def State.relay (s : State) (h : LaceHdr) (b : LaceBody) : State :=
  s.sendPath { src := h.src, dst := h.dst, rseq := h.rseq, prepare := h.prepare, commit := h.commit, abort := h.abort, mirror := h.mirror,
               carried := some (h.epoch, h.rack, h.fdone), body := b }

/-- A codeword of the link's lane: corrected, or beyond correction (R27). -/
def State.laceFec (s : State) (n : Nat) (w : FecWord) : State :=
  match w with
  | .corrected l => if l.any (· != 0) then s.count (Reg.lceCount n 6) 1 else s
  | .uncorrectable => s.count (Reg.lceCount n 7) 1

/-- A received frame of a type: checked, taken or dropped, passed on, or acted on by `k`. A link that is not trained receives nothing. -/
def State.laceRx (s0 : State) (n : Nat) (f : LaceIn) (ltype : Nat) (body : LaceHdr → Option LaceBody) (k : State → LaceHdr → State) : State :=
  let l := s0.link n
  if l.st = .down || l.st = .training then s0
  else
    let s := f.fec.foldl (fun t w => t.laceFec n w) s0
    let h := parseLace f.bytes
    let c := s.laceCause n f
    let s1 := s.count (Reg.lceCount n 0) 1
    if c = 0 then
      if h.ltype ≠ ltype then s
      else
        let s2 := s1.linkTake n h
        let s3 := if h.hoopId = s.hoopId then s2.sawEpoch h.src h.epoch else s2
        if !routeType ltype then k s3 h
        else if h.dst = s3.self then k (s3.routeTake h) h
        else match body h with
          | some b => s3.relay h b
          | none => s3
    else if c < 0xB then s1.laceDrop n c
    else if c = 0xB then
      (if seqAfter16 h.lseq l.rxSeq then s1.putLink n { s1.link n with nak := true } else s1).laceDrop n c
    else if c = 0xE then ((s1.linkTake n h).ackRoute h.src).laceDrop n c
    else (s1.linkTake n h).laceDrop n c

/-! ### HEARTBEAT (R262, R263, R293) -/

/-- Heartbeats that did not come since the last one. -/
def missedBeats (now last : Nat) : Nat := (now - last + us 1) / us 2 - 1

/-- What a heartbeat says: the peer, its role and flags, hoop time, and the end of the wait for it. -/
def State.heartbeat (s : State) (n : Nat) (h : LaceHdr) (b : List Byte) : State :=
  let l := s.link n
  let time := beAt b 32 8
  let sent := beAt b 40 8
  let hold := beAt b 48 4
  let role := beAt b 52 1
  let mgrLink := byteBit (b.getD 53 0) 0
  let own := (s.rd Reg.hopTime).toNat
  let delay := if sent = 0 then l.delay else ((own - sent) * 1000 - hold) / 2
  let missed := missedBeats s.now l.lastBeat
  let l1 : LaceLink := { l with
    peerDev := h.src, peerLink := h.link, peerRole := role, mgrLink := mgrLink, failDue := some (s.now + us 6), lastBeat := s.now,
    probation := if us 4 < s.now - l.lastBeat then s.now else l.probation, echo := time, echoAt := s.now, delay := delay }
  let s1 := ((s.putLink n l1).setFld (Reg.lceLinkStatus n) 7 4 0).count (Reg.lceCount n 2) missed
  let down := role = 0 || (mgrLink && !s.mgrLink)
  let s2 := if down && !s1.isManager then s1.wr Reg.hopTime (BitVec.ofNat 64 (time + delay / 1000)) else s1
  let s3 : State := if role = 0 && !s2.isManager then { s2 with lace := { s2.lace with mgr := h.src, mgrBeat := s2.now } } else s2
  s3.tryTakeover

/-- HEARTBEAT. -/
def execHeartbeat (link : Nat) (f : LaceIn) (s : State) : Result :=
  within (link < 16) (s.laceRx link f 0 (fun _ => none) (fun t h => t.heartbeat link h f.bytes))

/-! ### FORWARD and COMPLETE (R271 to R275, R282) -/

/-- One segment of a stitch in a lace frame: the stitch when it is whole, and the segments still held (R61). -/
def State.laceSegment (s : State) (src ltype opref : Nat) (t : Stitch) : Option Stitch × State :=
  let key := (src * 16 + ltype) * 2 ^ 32 + opref
  let hold (x : Table Stitch) : State := { s with lace := { s.lace with segments := x } }
  let whole := if t.cont then (match s.lace.segments.find key with
      | some h => { h with payload := h.payload ++ t.payload }
      | none => t) else t
  if t.more then (none, hold (s.lace.segments.put key whole)) else (some { whole with more := false, cont := false }, hold (s.lace.segments.drop key))

/-- A grant without an entry, for operations whose grant the manager has checked (R271). -/
def noGrant : Grant := { cls := 0, ctr := false, ctrFirst := 0, ctrCount := 0, v6 := false, prefixLen := 0, netPrefix := 0, entries := [] }

/-- A forwarded stitch reaches the device that holds its lines: it joins the operations, in the PREPARE phase where it only prepares
(R274); a mirrored write opens a fork record (R282). -/
def State.forwarded (s0 : State) (h : LaceHdr) (opref conn : Nat) (t : Stitch) : State :=
  let s := s0.wake
  let phase := if requestDefined t then OpPhase.queued else .done (t.refusal .opcode)
  let o : Op := { origin := .lace h.src opref, mode := if h.prepare then .prepare else .normal, conn := conn, cls := 3, engine := 0, seq := 0,
                  idx := 0, st := t, grant := noGrant, regions := [], phase := phase, fails := [], reexec := false,
                  started := s.now, gate := none, late := s.pwr.refuse.isSome }
  let fork : Fork := { dev := h.src, rseq := h.rseq, addr := t.addr, len := t.length }
  { s with
      host := { s.host with ops := s.host.ops.put s.host.nextOp o, nextOp := s.host.nextOp + 1, lastWork := s.now }
      lace := { s.lace with forks := if h.mirror && t.opcode != 1 then s.lace.forks ++ [fork] else s.lace.forks } }

/-- COMMIT and ABORT of a prepared stitch (R274). -/
def State.commitOp (s : State) (h : LaceHdr) (opref : Nat) : State :=
  let mine (o : Op) : Bool := o.origin == .lace h.src opref
  let ops := if h.abort then s.host.ops.filter (fun e => !mine e.2)
    else s.host.ops.map (fun e => if mine e.2 then (e.1, { e.2 with mode := .normal, phase := .queued }) else e)
  { s with host := { s.host with ops := ops } }

/-- FORWARD. -/
def execForward (link : Nat) (f : LaceIn) (s : State) : Result :=
  within (link < 16) <|
    match laceStitch (f.bytes.take (32 + (parseLace f.bytes).plen)) with
    | none => s.laceRx link f 1 (fun _ => none) (fun t _ => t)
    | some (opref, conn, st) =>
      s.laceRx link f 1 (fun _ => some (.forward opref conn st)) (fun t h =>
        if h.commit || h.abort then t.commitOp h opref
        else match t.laceSegment h.src 1 opref st with
          | (some x, u) => u.forwarded h opref conn x
          | (none, u) => u)

/-- The statuses of Table 04-1. -/
def statuses : List Status :=
  [.ok, .okPoison, .retry, .okTruncated, .denied, .address, .length, .align, .opcode, .key, .writeProtected, .journalFull, .keepWorn,
   .integrity, .uncorrectable, .lost, .poisoned, .readOnly, .noCredit, .throttled, .unavailable, .held, .internal]

/-- The status of a code; INTERNAL for a reserved one. -/
def statusOf (c : Nat) : Status := (statuses.find? (fun st => st.code == c)).getD .internal

/-- The response that a response stitch holds (Table 03-3). -/
def responseOf (t : Stitch) : Response :=
  { opcode := t.opcode, subop := t.subop, length := t.length, tag := t.tag, status := statusOf (t.addr / 2 ^ 56 % 256),
    result := (beBytes 8 (t.addr % 2 ^ 64)).drop 1, payload := t.payload }

/-- The response of a forwarded stitch goes back (R271). -/
def State.sendComplete (s : State) (dev opref conn : Nat) (r : Response) : State :=
  ((packFrames (9216 - 58) [r.stitch] [] 0).flatten).foldl
    (fun u x => u.sendRoute { src := u.self, dst := dev, body := .complete opref conn x }) s

/-- COMPLETE: the part, or filet sub-job, that the OPREF names has its answer. -/
def execComplete (link : Nat) (f : LaceIn) (s : State) : Result :=
  within (link < 16) <|
    match laceStitch (f.bytes.take (32 + (parseLace f.bytes).plen)) with
    | none => s.laceRx link f 2 (fun _ => none) (fun t _ => t)
    | some (opref, conn, st) =>
      s.laceRx link f 2 (fun _ => some (.complete opref conn st)) (fun t h =>
        match t.laceSegment h.src 2 opref st with
        | (none, u) => u
        | (some x, u) => match u.lace.refs.find opref with
          | some (id, k) => if 2 ^ 64 ≤ id then u.subDone (id - 2 ^ 64) k (responseOf x) else u.partDone id k (responseOf x)
          | none => u)

/-- ROUTE_ACK. -/
def execRouteAck (link : Nat) (f : LaceIn) (s : State) : Result :=
  within (link < 16) (s.laceRx link f 3 (fun _ => some .routeAck) (fun t _ => t))

/-- ROUTE_ACK_SEND (R270). -/
def execRouteAckSend (dev : Nat) (s : State) : Result :=
  within (dev < 64) <| match (s.route dev).ackDue with
    | none => s
    | some d => if s.due d then
        (s.putRoute dev { s.route dev with ackDue := none }).sendPath { src := s.self, dst := dev, body := .routeAck } else s

/-! ### DISCOVER and ANNOUNCE (R266, R267, R289) -/

/-- DISCOVER: answered with ANNOUNCE, and passed on to neighbours that have no link to the manager. -/
def execDiscover (link : Nat) (f : LaceIn) (s : State) : Result :=
  within (link < 16) <| s.laceRx link f 4 (fun _ => none) (fun t h =>
    if t.isManager then t
    else
      let t1 := t.sendOn link { src := t.self, dst := h.src, body := .announce t.announcement }
      (t1.upLinks.filter (fun n => n != link && decide (2 ≤ (t1.link n).peerDev) && !(t1.link n).mgrLink)).foldl
        (fun u n => u.sendOn n { src := h.src, dst := (u.link n).peerDev, body := .discover }) t1)

/-- The manager hears of a device: a member, a STRANGER, or before there is a hoop a device that answers discovery. -/
def State.heard (s : State) (hoopId : Nat) (a : Announce) : State :=
  let x : Member := { serial := a.serial, present := false, parents := [], said := some a, readOnly := false, badKeys := [] }
  let strange : State := { s with lace := { s.lace with strangers := s.lace.strangers.put a.dev x } }
  if s.lace.members.isEmpty then strange
  else match s.lace.members.find a.dev with
    | some m =>
      if a.dev ≠ s.self && m.serial = a.serial && (hoopId = 0 || hoopId = s.hoopId) then s.rejoin a
      else strange.raise 0x5005 a.dev 0
    | none => strange.raise 0x5005 a.dev 0

/-- ANNOUNCE: taken by the manager; a branch passes on those of its leaves. -/
def execAnnounce (link : Nat) (f : LaceIn) (a : Announce) (s : State) : Result :=
  within (link < 16) <| s.laceRx link f 5 (fun _ => none) (fun t h =>
    if t.isManager then t.heard h.hoopId a
    else
      let t1 : State := if t.actingRole = 1 then { t with lace := { t.lace with members := t.lace.members.modify a.dev (fun m => { m with said := some a }) } } else t
      if (t1.link link).mgrLink || (t1.link link).peerDev = t1.lace.mgr then t1
      else match t1.nextHop t1.lace.mgr with
        | some n => t1.sendOn n { src := h.src, dst := t1.lace.mgr, carried := some (h.epoch, 0, 0), body := .announce a }
        | none => t1)

/-! ### CONTROL (R268, R276 to R294) -/

/-- A link report (R262, R283, R285). -/
def State.linkReport (s : State) (dev peer : Nat) (up : Bool) : State :=
  let f (m : Member) : Member :=
    { m with parents := if up then (if m.parents.contains dev then m.parents else m.parents ++ [dev]) else m.parents.filter (· != dev) }
  let s1 : State := { s with lace := { s.lace with members := s.lace.members.modify peer f } }
  let s2 : State := if peer = s.lace.mgr && !s.isManager then
      { s1 with lace := { s1.lace with links := s1.lace.links.map (fun e => if e.2.peerDev = dev then (e.1, { e.2 with mgrLink := up }) else e) } }
    else s1
  ((s2.repath s).checkAbsent).tryTakeover

/-- A new manager speaks (R285): completions owed to the old one are discarded, and the open forks are reported. -/
def State.newManager (s : State) (d : Nat) : State :=
  if d = s.lace.mgr || s.isManager then s
  else
    let old := s.lace.mgr
    let mine := s.lace.forks.filter (fun k => k.dev == old)
    let s1 : State := { s with lace := { s.lace with mgr := d, forks := s.lace.forks.filter (fun k => k.dev != old) } }
    if mine.isEmpty then s1 else s1.sendControl d (.forks s1.self (mine.map (fun k => (k.addr, k.len))))

/-- The end of a copy reaches its target, and through it the manager (R290). -/
def State.copied (s : State) (dev panel chunks : Nat) : State :=
  let s1 : State := if dev = s.self then { s with lace := { s.lace with marks := s.lace.marks.drop panel } } else s
  if s1.isManager then s1.copyDone dev panel chunks else s1.report (.copied dev panel chunks)

/-- What a CONTROL frame does. -/
def State.control (s : State) (src : Nat) (c : Control) : State :=
  match c with
  | .leave d why => if s.isManager then s.absent d why else s
  | .epoch => if src < 2 then s.newManager src else s
  | .link d p up => s.linkReport d p up
  | .keys d bad => { s with lace := { s.lace with members := s.lace.members.modify d (fun m => { m with badKeys := bad }) } }
  | .lock k on =>
    let s1 := s.putKey k { s.keySlot k with locked := on }
    if s.isManager then s1.sendAll (.lock k on) else s1
  | .spare d ro =>
    ({ s with lace := { s.lace with members := s.lace.members.modify d (fun m => { m with readOnly := ro }) } } : State).nextMove
  | .slow d cause grace sr br =>
    if cause = 3 then (if grace = 0 then s.wearLift d else s.wearSlowFor d br)
    else if sr = 0xFFFFFFFF then s.host.conns.foldl (fun t e => if e.2.slowCause = cause then t.slowLiftFor d e.1 else t) s
    else (s.usersOf d cause).foldl (fun t id => t.slowShare d id cause grace sr) s
  | .alarm d code k addr range => s.host.conns.foldl (fun t e => if e.2.cls == 3 && e.2.st == .opened then t.alarmTo d e.1 code k addr range else t) s
  | .sync l => (s.applyChanges l).filetTables
  | .hint base size hint => s.setHints base size hint
  | .hints l => s.takeHints l
  | .current => if s.actingRole = 1 then s.setFlag Reg.hopStatus 11 else s
  | .forks _ l => if s.isManager then l.foldl (fun t r => t.repairFork r.1 r.2) s else s
  | .role => if s.actingRole = 1 then
      let t := s.takeRole
      if t.standbyDev.isSome then { t with lace := { t.lace with standbyCurrent := true } } else t
    else s
  | .form id => s.setFld Reg.hopHoopId 15 0 id
  | .schedule id at' devs act =>
    { s with lace := { s.lace with scheds := s.lace.scheds.put id { at' := at', devices := devs, action := act, st := 0, ran := 0 } } }
  | .cancel id => { s with lace := { s.lace with scheds := s.lace.scheds.modify id (fun x => if x.st = 0 then { x with st := 2 } else x) } }
  | .ran d id =>
    { s with lace := { s.lace with scheds := s.lace.scheds.modify id (fun x => { x with ran := Nat.lor x.ran (2 ^ d) }) } }
  | .resync p target ch => s.resyncOut p target ch
  | .copied d p n => s.copied d p n
  | .filet d m st => if s.isManager then s.matrixDone m d st else s
  | .refresh m => match s.filet.matrices.find m with
    | none => s
    | some x =>
      let s1 := s.refreshMatrix m x
      if s1.progsDone m then s1.matrixDone m s1.self .ok else s1

/-- CONTROL. -/
def execControl (link : Nat) (f : LaceIn) (c : Control) (s : State) : Result :=
  within (link < 16) (s.laceRx link f 6 (fun _ => some (.control c)) (fun t h => t.control h.src c))

/-! ### RESYNC (R290) -/

/-- The key of a line of a panel under a key ID. -/
def panelLine (panel line keyId : Nat) : Nat := keyId * 2 ^ 48 + panel * 2 ^ 22 + line

/-- The mark of the chunk in progress that holds a line of a panel. -/
def chunkMark (line : Nat) : Nat := 2 ^ 22 + line / 4096

/-- A line of a chunk comes: with the first line of another chunk the marks begin anew (R290). -/
def State.markChunk (s : State) (panel line : Nat) : State :=
  let m := s.lace.marks.get panel []
  if m.head? = some (chunkMark line) then s else { s with lace := { s.lace with marks := s.lace.marks.put panel [chunkMark line] } }

/-- A line of the other copy takes the place of this one's. -/
def State.takeLine (s : State) (ln : Nat) (r : ResyncLine) : State :=
  let cause := if r.poison = 0 then 0 else r.cause
  let s2 := match s.resident ln with
    | some l => (s.dropAgents ln l.dir).install ln r.data 15 r.poison cause
    | none => s.install ln r.data 15 r.poison cause
  { s2 with mem := { s2.mem with tier := s2.mem.tier.modify ln (fun x => { x with dirty := 0 })
                                 llc := s2.mem.llc.modify ln (fun l => { l with poison := r.poison, dir := [] }) } }

/-- A resync line reaches a RESYNC copy: its chunk becomes the one in progress; unless a forked write has reached the line, it is
written with its poison marks, which its chunk's map does not note. -/
def State.resyncLine (s : State) (r : ResyncLine) : State :=
  let s1 := s.markChunk r.panel r.line
  if (s1.lace.marks.get r.panel []).tail.contains r.line then s1
  else match s1.localLine (panelLine r.panel r.line r.keyId) with
    | none => s1
    | some _ => s1.takeLine (panelLine r.panel r.line r.keyId) r

/-- RESYNC. -/
def execResync (link : Nat) (f : LaceIn) (r : ResyncLine) (s : State) : Result :=
  within (link < 16) (s.laceRx link f 7 (fun _ => some (.resync r)) (fun t _ => t.resyncLine r))

/-- The state with a resync that this device sends changed. -/
def State.putResync (s : State) (r : ResyncOut) : State :=
  { s with lace := { s.lace with resyncs := s.lace.resyncs.map (fun x => if x.panel = r.panel then r else x) } }

/-- The next line of a resync: after its last line a chunk is done. -/
def ResyncOut.next (r : ResyncOut) : ResyncOut :=
  if r.line + 1 < 4096 then { r with line := r.line + 1 } else { r with chunks := r.chunks.tail, line := 0, copied := r.copied + 1 }

/-- RESYNC_SEND: the next line of the first chunk is read and sent; when no chunk is left, the target is told. -/
def execResyncSend (panel : Nat) (s : State) : Result :=
  .next (match s.lace.resyncs.find? (fun r => r.panel == panel) with
    | none => s
    | some r => match r.chunks with
      | [] =>
        let s1 : State := { s with lace := { s.lace with resyncs := s.lace.resyncs.filter (fun x => x.panel != panel) } }
        s1.sendControl r.target (.copied r.target panel r.copied)
      | c :: _ =>
        let line := c * 4096 + r.line
        let keyId := ((s.mem.dir.find panel).map (·.keyId)).getD 0
        let ln := panelLine panel line keyId
        match s.resident ln with
        | some l =>
          let b : ResyncLine := { panel := panel, line := line, keyId := keyId, data := l.data, poison := l.poison, cause := l.cause }
          ((s.sendRoute { src := s.self, dst := r.target, body := .resync b }).count (Reg.hopCount 7) 1).putResync r.next
        | none =>
          if s.filling ln then s
          else match s.startFill ln .maint with
            | (.ready, t) => t
            | (.pending, t) => t
            | (.fails st, t) => t.fillBad ln st 0)

/-! ### Timers and events of links (R262, R263) -/

/-- HEARTBEAT_SEND: every 2 µs, with the LSEQ of the moment. -/
def execHeartbeatSend (link : Nat) (s : State) : Result :=
  within (link < 16) <|
    let l := s.link link
    if (l.st = .up || l.st = .probation || l.st = .idle) && s.due l.sendDue && !(s.isManager && s.fld Reg.cohStatus 1 0 != 0) then
      let flags := s.mgrLink.toNat + (if s.power = .save || s.power = .down then 2 else 0)
      let b : LaceBody := .heartbeat (s.rd Reg.hopTime).toNat l.echo (s.now - l.echoAt) s.actingRole flags
      let s1 := s.putLink link { l with sendDue := s.now + us 2 }
      s1.emitLace link l.txSeq { src := s.self, dst := l.peerDev, body := b }
    else s

/-- Is a command the arrival of a heartbeat on a link? -/
def beatOn (link : Nat) : Instr → Bool
  | .heartbeat n _ => n == link
  | _ => false

/-- HEARTBEAT_TIMEOUT: 6 µs without a heartbeat, under R18. -/
def execHeartbeatTimeout (link : Nat) (s : State) : Result :=
  within (link < 16) <|
    let l := s.link link
    match l.failDue with
    | none => s
    | some d =>
      if s.fires d (beatOn link) && l.st != .down && l.st != .training then
        let v := min 15 (s.fld (Reg.lceLinkStatus link) 7 4 + 3)
        ((s.setFld (Reg.lceLinkStatus link) 7 4 v).count (Reg.lceCount link 2) 3).linkFail link 1
      else s

/-- LACE_LINK_LOSS: signal, block lock or alignment is lost. -/
def execLaceLinkLoss (link : Nat) (s : State) : Result := within (link < 16) (s.linkFail link 2)

/-- LACE_LINK_TRAINED: the link enters PROBATION. -/
def execLaceLinkTrained (link : Nat) (s : State) : Result :=
  within (link < 16) <|
    let l := s.link link
    if l.st = .training then
      s.putLink link { l with st := .probation, probation := s.now, lastBeat := s.now, failDue := none, credit := 256 * Config.laceBuffer.toNat }
    else s

/-- May a link between this device and its peer be used (Table 08-5)? `none` while neither end has a link to the manager. -/
def State.linkUse (s : State) (n : Nat) : Option Bool :=
  let p := (s.link n).peerDev
  let full := decide (4 ≤ ((s.linksTo p).filter (· != n)).length)
  if p = s.self || full then some false
  else if s.self < 2 || p < 2 then some true
  else
    let branch := s.upLinks.any (fun k => decide ((s.link k).peerDev < 2))
    match branch, (s.link n).mgrLink with
    | false, false => none
    | true, true => some false
    | _, _ => some true

/-- What follows when a link is UP: reports, resends, discovery; a manager that had stopped with its last link goes on. -/
def State.linkBack (s old : State) (n : Nat) : State :=
  let peer := (s.link n).peerDev
  let c : Control := .link s.self peer true
  let s1 := if (old.linksTo peer).isEmpty && !s.isManager then (s.report c).tellStandby peer c else s
  let s2 := s1.repath old
  let s3 : State := if s2.isManager && s2.lace.stopped then ({ s2 with lace := { s2.lace with stopped := false } } : State).setFlag Reg.shtStatus 15 else s2
  if s3.isManager then s3.sendOn n { src := s3.self, dst := peer, body := .discover }
  else s3.sendOn n { src := s3.self, dst := peer, body := .announce s3.announcement }

/-- PROBATION_END: 1 ms of heartbeats at most 4 µs apart makes the link UP, or IDLE where Table 08-5 has no such link. -/
def execProbationEnd (link : Nat) (s : State) : Result :=
  within (link < 16) <|
    let l := s.link link
    if l.st = .probation && decide (l.probation + ms 1 ≤ s.now) && decide (s.now ≤ l.lastBeat + us 4) && l.failDue.isSome then
      match s.linkUse link with
      | none => s
      | some false => (s.putLink link { l with st := .idle }).raise 0x500A link 0
      | some true => (s.putLink link { l with st := .up }).linkBack s link
    else s

/-- A write of LCE_CFG (R298): links whose LINK_EN clears go down, links whose bit is set begin to train. -/
def State.lceCfgEffect (s : State) (v : Word) : State :=
  (List.range s.laceLinks).foldl (fun t n =>
    let l := t.link n
    if v.field n n = 1 then (if l.st = .down && t.fld Reg.pwrStatus 3 0 == 12 then t.putLink n { l with st := .training } else t)
    else if l.st = .up then (t.putLink n { LaceLink.off with txSeq := l.txSeq, rxSeq := l.rxSeq }).linkGone t l.peerDev
    else t.putLink n LaceLink.off) (s.wr Reg.lceCfg (BitVec.ofNat 64 (v.field 15 0)))

end Sys2Proof.Machine
end

