-- ==== Sys2Proof/Machine/Hoop.lean ====
section
/-!
DEFINITION. Forming a hoop at start-up (R266, R289), handover (R287), and the hoop commands (Table 08-12, R296).
-/
namespace Sys2Proof.Machine

/-! ### Discovery and handover -/

/-- The manager fixes the members present, the routes and the directory (R266): members with a route that announced are PRESENT; copies on
absent devices are ABSENT; those of a device that did not end CLEAN or RUNNING, or that were ABSENT, are treated by Table 08-10. -/
def State.fixHoop (s : State) : State :=
  let here (d : Nat) (m : Member) : Bool := d == s.self || (m.said.isSome && (s.nextHop d).isSome)
  let s1 : State := { s with lace := { s.lace with
      discover := none, members := s.lace.members.map (fun e => (e.1, { e.2 with present := here e.1 e.2 })) } }
  let s2 := s1.bumpEpoch
  let others := s2.lace.members.filter (fun e => e.1 != s2.self)
  let s3 := others.foldl (fun t e =>
    if e.2.present then t.sendTables e.1
    else
      let l := t.dirWith (absentEntry e.1)
      t.change (asChanges l) (.failover (l.map (·.1)))) s2
  others.foldl (fun t e => match e.2.said with
    | some a =>
      let back := t.mem.dir.any (fun x => (x.2.devA == e.1 && x.2.copyA == 2) || (x.2.mirrored && x.2.devB == e.1 && x.2.copyB == 2))
      if e.2.present && (a.exit = 2 || back) then t.treatCopies e.1 (a.exit != 2) else t
    | none => t) s3

/-- DISCOVER_WAIT_EXPIRE (R266): the hoop is fixed, a device that stands alone included, and the manager accepts connections. -/
def execDiscoverWaitExpire (s : State) : Result :=
  .next (match s.lace.discover with
    | none => s
    | some d =>
      if s.due d && s.isManager then
        let s1 : State := if s.lace.members.isEmpty then ({ s with lace := { s.lace with discover := none } } : State).bumpEpoch else s.fixHoop
        s1.setFlag Reg.shtStatus 15
      else s)

/-- A handover begins (R287): every connection is told, and new OPENs are refused. -/
def State.startHandover (s : State) (mailbox : Option Nat) : State :=
  let grace := min 10000 (s.fld Reg.hopCfg 51 36)
  let s1 := (s.handoverNotice grace).clrFlag Reg.shtStatus 15
  { s1 with lace := { s1.lace with handover := some { due := s1.now + ms grace, mailbox := mailbox } } }

/-- Operations of connections still under way. -/
def State.connOps (s : State) : Bool := s.host.ops.any (fun e => match e.2.origin with | .conn _ _ => true | _ => false)

/-- HANDOVER_GRACE_EXPIRE (R287): once every issued stitch is complete, the connections are reset with ADMIN, the role passes in a
CONTROL frame, and this device becomes the standby, which holds the current tables. -/
def execHandoverGraceExpire (s : State) : Result :=
  .next (match s.lace.handover with
    | none => s
    | some h =>
      if s.due h.due && !s.connOps then
        let dst := if s.self = 0 then 1 else 0
        let s1 := (s.resetAll 0x09).sendControl dst .role
        let s2 : State := { s1 with lace := { s1.lace with handover := none, mgr := dst, standbyCurrent := false } }
        ((s2.setFld Reg.hopStatus 3 2 1).setFlag Reg.hopStatus 11).lockDirectory
      else s)

/-! ### What the hoop shows (Tables 08-12, 08-16, 08-17) -/

/-- Members that are not PRESENT. -/
def State.absentCount (s : State) : Nat := (s.lace.members.filter (fun e => !e.2.present)).length

/-- The routes to a device that share no device but the manager: its own links, and the parents that have a link (R265). -/
def State.routeCount (s : State) (d : Nat) : Nat :=
  let parents := (s.lace.members.find d).map (·.parents) |>.getD []
  (s.linksTo d).length + (parents.filter (fun p => p != s.self && !(s.linksTo p).isEmpty)).length

/-- REDUNDANT (R265). -/
def State.redundant (s : State) : Bool :=
  s.isManager && s.lace.members.any (fun e => e.1 != s.self) && (s.lace.members.all (fun e => e.1 == s.self || decide (2 ≤ s.routeCount e.1)))

/-- DEPTH (R264). -/
def State.depth (s : State) : Nat :=
  if s.isManager then 0
  else if s.upLinks.any (fun n => (s.link n).peerDev == s.lace.mgr) then 1
  else if s.upLinks.isEmpty then 0 else 2

/-- STATE of a member (Table 08-16): 0 NONE, 1 PRESENT, 2 ABSENT, 3 STRANGER. -/
def State.memberState (s : State) (d : Nat) : Nat :=
  match s.lace.members.find d with
  | some m => if m.present then 1 else 2
  | none => if s.lace.strangers.has d then 3 else 0

/-- PARENT_A and PARENT_B of a member: the lowest devices whose up links reach it, this device among them (log entry 34). -/
def State.parentsOf (s : State) (d : Nat) : Nat × Nat :=
  let l := ascending (((s.lace.members.find d).map (·.parents) |>.getD []) ++ (if (s.linksTo d).isEmpty then [] else [s.self])).eraseDups
  (l.getD 0 0, l.getD 1 0)

/-- The serial number of a member or STRANGER. -/
def State.memberSerial (s : State) (d : Nat) : Nat :=
  match s.lace.members.find d with
  | some m => m.serial
  | none => match s.lace.strangers.find d with | some m => m.serial | none => 0

/-- The acting role of a member, as the acting manager knows it. -/
def State.memberRole (s : State) (d : Nat) : Nat :=
  if !s.lace.members.has d then 3 else if d = s.lace.mgr then 0 else if d < 2 then 1 else 2

/-- HOOP_STATUS. -/
def execHoopStatus (m : Nat) (s : State) : Result :=
  s.command m {
    code := 0x0501, cls := 1, mark := .no,
    check := fun _ r => lengthIs 0 r
    eff := fun s _ =>
      let flags := s.redundant.toNat + 2 * (s.fld Reg.hopStatus 12 12) + 4 * s.lace.standbyCurrent.toNat
      .done .ok (leBytes 2 s.hoopId ++ [BitVec.ofNat 8 s.lace.mgr, BitVec.ofNat 8 s.lace.members.length, BitVec.ofNat 8 s.absentCount,
        BitVec.ofNat 8 flags, 0, 0] ++ leBytes 4 s.hoopEpoch ++ zeros 4 ++ leBytes 8 (s.rd Reg.hopTime).toNat) s }

/-- MEMBER_LIST. -/
def execMemberList (m : Nat) (s : State) : Result :=
  s.command m {
    code := 0x0502, cls := 1, mark := .no,
    check := fun _ r => lengthIs 0 r
    eff := fun s _ =>
      .done .ok ((List.range 64).flatMap (fun d =>
        leBytes 8 (s.memberSerial d) ++ [BitVec.ofNat 8 (s.memberState d), BitVec.ofNat 8 (s.memberRole d),
          BitVec.ofNat 8 (s.parentsOf d).1, BitVec.ofNat 8 (s.parentsOf d).2] ++ leBytes 2 (usedPanels s.mem.dir d).length ++ zeros 2)) s }

/-- PANEL_MAP: the panels of a region from FIRST on, at most 500; NEXT is the first not returned, 0 when none is left. -/
def execPanelMap (m : Nat) (s : State) : Result :=
  s.command m {
    code := 0x0503, cls := 2, mark := .no,
    check := fun s r => (lengthZero 8 2 2 r).orElse fun _ => if s.mem.regions.has (leAt r.data 0 2) then none else some .address
    eff := fun s r =>
      let first := leAt r.data 4 4
      let l := (s.mem.dir.filter (fun e => e.2.region == leAt r.data 0 2)).drop first
      let got := l.take 500
      let next := if l.length ≤ 500 then 0 else first + 500
      .done .ok (leBytes 2 got.length ++ zeros 2 ++ leBytes 4 next ++ got.flatMap (fun e =>
        [BitVec.ofNat 8 e.2.devA, BitVec.ofNat 8 e.2.devB, BitVec.ofNat 8 e.2.st, BitVec.ofNat 8 e.2.copyA, BitVec.ofNat 8 e.2.copyB, 0, 0, 0])) s }

/-! ### Membership commands (R267, R279, R291) -/

/-- HOOP_FORM: the members are this device and those that answered discovery; hoop time starts at 0. -/
def execHoopForm (m : Nat) (s : State) : Result :=
  s.command m {
    code := 0x0510, cls := 3, mark := .yes, wp := (fun _ _ => true),
    check := fun s r => (lengthZero 8 2 6 r).orElse fun _ => if !s.lace.members.isEmpty || !s.isManager then some .denied else none
    old := fun s _ => leBytes 2 s.hoopId
    eff := fun s r =>
      let id := leAt r.data 0 2
      let own : Member := { serial := Config.serial.toNat, present := true, parents := [], said := none, readOnly := false, badKeys := [] }
      let list : Table Member := Table.put (s.lace.strangers.map (fun (e : Nat × Member) => (e.1, { e.2 with present := true }))) s.self own
      let s1 : State := { s with lace := { s.lace with members := list, strangers := [] } }
      let s2 := ((s1.sendAll (.form id)).setFld Reg.hopHoopId 15 0 id).wr Reg.hopTime 0
      let s3 := s2.bumpEpoch
      let s4 := s3.othersPresent.foldl (fun t d => t.sendTables d) s3
      .done .ok ([BitVec.ofNat 8 list.length] ++ zeros 7) s4 }

/-- MEMBER_ADMIT: a STRANGER becomes the member of its number. -/
def execMemberAdmit (m : Nat) (s : State) : Result :=
  s.command m {
    code := 0x0511, cls := 3, mark := .yes, wp := (fun _ _ => true),
    check := fun s r => (lengthZero 8 1 7 r).orElse fun _ => if s.lace.strangers.has (leAt r.data 0 1) then none else some .address
    eff := fun s r =>
      let d := leAt r.data 0 1
      match s.lace.strangers.find d with
      | none => .done .address [] s
      | some x =>
        let s1 : State := { s with lace := { s.lace with strangers := s.lace.strangers.drop d } }
        let fresh : Member := { x with present := false }
        let s2 : State := { s1 with lace := { s1.lace with members := s1.lace.members.put d fresh } }
        let s3 := s2.change [.member d (some x.serial)] .none
        let s4 := match x.said with | some a => s3.rejoin a | none => s3
        .done .ok [] (if s4.lace.members.any (fun e => e.1 == d && e.2.present) then s4.sendControl d (.form s4.hoopId) else s4.bumpEpoch) }

/-- Free local panels of the members present other than a device. -/
def State.freeElsewhere (s : State) (d : Nat) : Nat :=
  ((s.panelDevs.filter (· != d)).map (fun x => 3584 - (usedPanels s.mem.dir x).length)).foldl (· + ·) 0

/-- MEMBER_REMOVE: completes when the member's panels have moved. -/
def execMemberRemove (m : Nat) (s : State) : Result :=
  s.command m {
    code := 0x0512, cls := 3, mark := .yes, wp := (fun _ _ => true),
    check := fun s r => (lengthZero 8 1 7 r).orElse fun _ =>
      let d := leAt r.data 0 1
      if d = 0 || (d = 1 && s.self = 1 && s.isManager) || !s.lace.members.has d then some .address
      else if s.freeElsewhere d < (usedPanels s.mem.dir d).length then some .unavailable else none
    eff := fun s r =>
      .later .ok [] ({ s with lace := { s.lace with removing := some (leAt r.data 0 1, r.m) } } : State).nextMove }

/-- PANEL_RELEASE: a LOST panel is NORMAL again. -/
def execPanelRelease (m : Nat) (s : State) : Result :=
  s.command m {
    code := 0x0513, cls := 3, mark := .yes,
    check := fun s r => (lengthZero 8 2 2 r).orElse fun _ =>
      match ((s.mem.dir.filter (fun e => e.2.region == leAt r.data 0 2)))[leAt r.data 4 4]? with
      | some e => if e.2.st = 3 then none else some .address
      | none => some .address
    eff := fun s r => match ((s.mem.dir.filter (fun e => e.2.region == leAt r.data 0 2)))[leAt r.data 4 4]? with
      | some e => s.changeEnd r [.dir e.1 (some { e.2 with st := 0 })]
      | none => .done .address [] s }

/-- HANDOVER (R287). -/
def execHandover (m : Nat) (s : State) : Result :=
  s.command m {
    code := 0x0514, cls := 3, mark := .yes,
    check := fun s r => (lengthIs 0 r).orElse fun _ =>
      if s.isManager && s.standbyDev.isSome && s.lace.standbyCurrent then none else some .unavailable
    eff := fun s r => .later .ok [] (s.startHandover (some r.m)) }

/-! ### Schedules (R294) -/

/-- Schedules that are ARMED. -/
def State.armed (s : State) : Nat := (s.lace.scheds.filter (fun e => e.2.st == 0)).length

/-- SCHEDULE: AT between 100 ms and 7 days ahead, an action of Table 08-11, at most 16 armed. -/
def execSchedule (m : Nat) (s : State) : Result :=
  s.command m {
    code := 0x0520, cls := 3, mark := .yes,
    check := fun s r => (lengthZero 24 18 6 r).orElse fun _ =>
      let at' := leAt r.data 0 8
      let act := leAt r.data 16 2
      let now := (s.rd Reg.hopTime).toNat
      if act = 0 || 3 ≤ act then some .opcode
      else if at' < now + 100000 || now + 7 * 86400 * 1000000 < at' then some .address
      else if 16 ≤ s.armed then some .unavailable else none
    eff := fun s r =>
      let id := s.lace.nextSched % 2 ^ 16
      let x : Sched := { at' := leAt r.data 0 8, devices := leAt r.data 8 8, action := leAt r.data 16 2, st := 0, ran := 0 }
      let s1 : State := { s with lace := { s.lace with scheds := s.lace.scheds.put id x, nextSched := s.lace.nextSched + 1 } }
      .done .ok (leBytes 2 id ++ zeros 6) (s1.sendAll (.schedule id x.at' x.devices x.action)) }

/-- SCHEDULE_CANCEL: an armed schedule is CANCELLED on every member. -/
def execScheduleCancel (m : Nat) (s : State) : Result :=
  s.command m {
    code := 0x0521, cls := 3, mark := .yes,
    check := fun s r => (lengthZero 8 2 6 r).orElse fun _ => if s.lace.scheds.has (leAt r.data 0 2) then none else some .address
    eff := fun s r =>
      let id := leAt r.data 0 2
      .done .ok [] (({ s with lace := { s.lace with
        scheds := s.lace.scheds.modify id (fun x => if x.st = 0 then { x with st := 2 } else x) } } : State).sendAll (.cancel id)) }

/-- SCHEDULE_STATUS. -/
def execScheduleStatus (m : Nat) (s : State) : Result :=
  s.command m {
    code := 0x0522, cls := 1, mark := .no,
    check := fun s r => (lengthZero 8 2 6 r).orElse fun _ => if s.lace.scheds.has (leAt r.data 0 2) then none else some .address
    eff := fun s r => match s.lace.scheds.find (leAt r.data 0 2) with
      | some x => .done .ok ([BitVec.ofNat 8 x.st] ++ zeros 7 ++ leBytes 8 x.ran) s
      | none => .done .address [] s }

end Sys2Proof.Machine
end

