-- ==== Sys2Proof/Machine/Faults.lean ====
section
/-!
DEFINITION. Errors that a store's code finds in a word of it, beyond those that a command reports (R300, R301, R336, R350, R415, R452), and what
the device does about each (Tables 09-2 and 13-6; log entry 23).
-/
namespace Sys2Proof.Machine

/-! ### The LLC (R301, R336) -/

/-- A corrected error in a way of the LLC: the eighth within 1 s of the first of them disables the way (R336). -/
def State.wayCorrected (s : State) (slice w : Nat) : State :=
  let key := slice * 16 + w
  let l := (s.mem.wayCorr.get key []).filter (fun t => decide (s.now < t + sec 1)) ++ [s.now]
  let full := decide (8 ≤ l.length)
  let s1 := ({ s with mem := { s.mem with wayCorr := s.mem.wayCorr.put key (if full then [] else l) } } : State).count (Reg.llcCount 6) 1
  if full then s1.disableWay slice w 1 else s1

/-- Sector `k` of an LLC line is beyond correction (R301): a clean line is discarded and fetched again when it is wanted; a dirty sector is
poisoned with cause DATA; a line of the device's tables is discarded for its table-area copy. A clean sector of a dirty line is fetched again,
with the same contents. -/
def State.spoilSector (s : State) (ln k : Nat) : State :=
  match s.mem.llc.find ln with
  | none => s
  | some l =>
    if l.dirty = 0 || lineKeyId ln = 255 then
      let s1 := s.dropAgents ln l.dir
      { s1 with mem := { s1.mem with llc := s1.mem.llc.drop ln } }
    else if l.dirty.getLsbD k then
      let x : LlcLine := { l with data := l.data &&& ~~~(((2 ^ 512 - 1 : Nat) : LineBits) <<< (512 * k)), poison := l.poison ||| ((1 : BitVec 4) <<< k),
                                  cause := if l.poison = 0 then 0 else l.cause }
      ({ s with mem := { s.mem with llc := s.mem.llc.put ln x } } : State).poisonSet ((s.localLine ln).getD 0) ((1 : BitVec 4) <<< k) 0
    else s

/-- A data word of the LLC beyond correction: it is handled first, and then its way is disabled (R301, R336). -/
def State.wordLost (s : State) (ln k : Nat) : State :=
  match s.mem.llc.find ln with
  | none => s
  | some l =>
    let s1 := (s.count (Reg.llcCount 7) 1).spoilSector ln k
    if (s.way (homeSlice ln) l.way).st = .on then s1.disableWay (homeSlice ln) l.way 2 else s1

/-! ### The tree (Table 13-6) -/

/-- L0 nodes `first` to `first + n - 1` are lost; each is rebuilt when it is wanted (R416). -/
def State.loseNodes (s : State) (first n : Nat) : State :=
  let below := (List.range n).map (fun i => first + i)
  let hit (k : Nat) : Bool := decide (first ≤ k) && decide (k < first + n)
  { s with mem := { s.mem with
      lost := s.mem.lost ++ below.filter (fun i => !s.mem.lost.contains i)
      tags := s.mem.tags.filter (fun e => !(decide (e.1 < 2 ^ 32) && hit e.1)) } }

/-- The children of a node whose counters lie in its 8-byte word `w` (Table 13-5): MAJOR in word 0, the MINORs, 6 bits each, in words 1 to 6; word 7
is the NODE_TAG. -/
def wordChildren (w : Nat) : List Nat :=
  if w = 0 then List.range 64
  else (List.range 64).filter (fun i => decide (w ≤ 6) && decide (64 * (w - 1) < 6 * i + 6) && decide (6 * i < 64 * w))

/-- A word of an L3 or L4 node is beyond correction: every L0 node below its counters is lost. -/
def State.treeWordLost (s : State) (level node w : Nat) : State :=
  if level = 3 || level = 4 then
    (wordChildren w).foldl (fun t c => t.loseNodes ((node * 64 + c) * 64 ^ (level - 1)) (64 ^ (level - 1))) (s.count (Reg.scrCount 10) 1)
  else s

/-! ### Tables (Table 09-2) -/

/-- A pricking or ledger entry of logical swatch `lsw` cannot be read, nor its table-area copy: its lines are poisoned with cause DATA, with
TABLE_REPAIR. -/
def State.swatchLost (s : State) (lsw : Nat) : State :=
  let lines := (List.range 512).filterMap (fun i => s.lineOf (lsw * 512 + i))
  (lines.foldl (fun t ln => t.poisonLine ln 0) s).raise 0x200D s.self 0

/-- A ledger entry is reloaded from the table area: LINE_PROGS is that of the last checkpoint, and its heat starts again from zero (R175, R176). -/
def State.ledgerReload (s : State) (ps : Nat) : State :=
  { s with mem := { s.mem with
      ldg := s.mem.ldg.set ps { s.ldg ps with progs := s.mem.saved.progs.get ps 0, heatR := 0, heatW := 0 } Ldg.unused } }

/-- A ledger entry is beyond correction. -/
def State.ledgerLost (s : State) (ps : Nat) (readable : Bool) : State :=
  if readable then s.ledgerReload ps else if (s.ldg ps).st = .mapped then s.swatchLost (s.ldg ps).lsw else s

/-- An entry of the operation table is beyond correction: its operation ends with INTERNAL (Table 09-2, last row). -/
def State.opLost (s : State) (op : Nat) : State :=
  match s.host.ops.find op with
  | none => s
  | some o => match o.phase with
    | .done _ => s
    | _ => ((s.failOp op .internal).count (Reg.scrCount 10) 1).raise 0x8003 s.self 0

/-- A frame of a route store is beyond correction: it is sent again from its source, with those after it (R270). -/
def State.resendRoute (s : State) (dev : Nat) : State :=
  (s.route dev).store.foldl (fun t f => (t.sendPath f).count (Reg.hopCount 8) 1) s

/-! ### All of them -/

/-- What the device does about an error that a store's code finds. -/
def State.storeFault (s : State) (f : StoreFault) : State :=
  match f with
  | .llcCorrected slice w => if slice < 32 && w < 16 && (s.way slice w).st == .on then s.wayCorrected slice w else s
  | .llcWord ln k => s.wordLost ln k
  | .directory => s.domainFail 2 0
  | .agent n => if n < 27 then s.domainFail 1 n else s
  | .message n => if n < 27 then s.domainFail 5 n else s
  | .treeCorrected => s.count (Reg.scrCount 9) 1
  | .treeWord level node w => s.treeWordLost level node w
  | .rootCopy => s.count (Reg.secCount 7) 1
  | .nodeCopy => s.count (Reg.secCount 8) 1
  | .nodeCopies level node => if level = 1 || level = 2 then s.loseNodes (node * 64 ^ level) (64 ^ level) else s
  | .nodeUnreadable n => s.loseNodes n 1
  | .pricking lsw readable => if readable then s else s.swatchLost lsw
  | .ledger ps readable => s.ledgerLost ps readable
  | .result job => { s with filet := { s.filet with jobs := s.filet.jobs.modify job (fun j => { j with spoiled := decide (2 ≤ j.st) }) } }
  | .routeFrame dev => s.resendRoute dev
  | .opEntry op => s.opLost op
  | .keepGroup corrected => if corrected then s.count (Reg.kepCount 1) 1 else (s.count (Reg.kepCount 2) 1).setFlag Reg.kepStatus 3

end Sys2Proof.Machine
end

