-- ==== Sys2Proof/Machine/FiletCmds.lean ====
section
/-!
DEFINITION. The filet commands (Table 07-13, R250, R251).
-/
namespace Sys2Proof.Machine

/-- Does the connection that sent a command lack FILET on the region of a source (R250)? Other interfaces have no grant. -/
def State.lacksFilet (s : State) (r : Req) (source : Nat) : Bool :=
  match r.owner with
  | .conn id _ => match s.host.conns.find id with
    | none => true
    | some c =>
      let a := source % 2 ^ 56
      match s.mem.regions.find? (fun e => decide (e.2.base ≤ a) && decide (a < e.2.base + e.2.size)), s.mem.grants.find c.grant with
      | some g, some gr => !gr.entries.any (fun e => e.1 == g.1 && e.2.testBit 3)
      | _, _ => true
  | _ => false

/-- The devices that hold copies of a matrix's panels. -/
def State.matrixDevs (s : State) (x : Matrix) : List Nat :=
  ((x.panelRange 0 x.cols).flatMap (fun p => match s.mem.dir.find p with | some e => writerDevs e | none => [])).eraseDups

/-- The tiles a matrix takes on a device. -/
def State.matrixTiles (s : State) (x : Matrix) (d : Nat) : Nat :=
  let here (j : Nat) : Bool := match s.mem.dir.find (x.panel j) with | some e => (writerDevs e).contains d | none => false
  x.rowTiles * ((List.range x.groupCount).filter (fun g => (x.columns g).any here)).length

/-- Does a device lack the tiles for a matrix, or hold 256 already (R251)? -/
def State.noRoom (s : State) (x : Matrix) (d : Nat) : Bool :=
  let l := s.filet.matrices.filter (fun e => (s.matrixDevs e.2).contains d)
  let used := (l.map (fun e => s.matrixTiles e.2 d)).foldl (· + ·) 0
  let failed := if d = s.self then (s.filet.tiles.filter (fun e => e.2.st == .failed || e.2.st == .rejoining)).length else 0
  decide (256 ≤ l.length) || decide (144 * 8192 < used + failed + s.matrixTiles x d)

/-- The matrix of a MATRIX_LOAD request. -/
def matrixOf (d : List Byte) : Matrix := { request := d, st := 0, groups := [], hoopTiles := 0, waits := [], mailbox := none }

/-- The refusals of MATRIX_LOAD in the order of R251. -/
def State.loadCheck (s : State) (r : Req) : Option Status :=
  let d := r.data
  let x := matrixOf d
  let sh := leAt d 14 1
  let a := x.source % 2 ^ 56
  let size := x.cols * x.stride
  if 2 ≤ leAt d 15 1 then some .opcode
  else if d.length ≠ 32 || x.dim = 0 || 4096 < x.dim || x.cols = 0 || 2 ^ 28 < x.cols || sh < 6 || 12 < sh || x.stride < x.dim || 2 ≤ leAt d 16 1 || !zeroAt d 17 15
  then some .length
  else if a % x.stride ≠ 0 then some .align
  else match s.mem.regions.find? (fun e => decide (e.2.base ≤ a) && decide (a + size ≤ e.2.base + e.2.size)) with
    | none => some .address
    | some g =>
      let clash := s.filet.matrices.any (fun e =>
        let b := e.2.source % 2 ^ 56
        decide (a < b + e.2.cols * e.2.stride) && decide (b < a + size))
      if clash || 1023 ≤ s.filet.matrices.length then some .address
      else if g.2.keyId ≠ x.source / 2 ^ 56 % 256 then some .key
      else if s.lacksFilet r x.source then some .denied
      else if (s.matrixDevs x).any (s.noRoom x) || !s.pathUp then some .unavailable
      else none

/-- MATRIX_LOAD (R218, R248, R251): the matrix is LOADING until every device that holds its columns has programmed its groups. -/
def execMatrixLoad (m : Nat) (s : State) : Result :=
  s.command m {
    code := 0x0401, cls := 2, mark := .yes,
    check := fun s r => s.loadCheck r
    eff := fun s r =>
      let (w, s0) := s.draw
      let ids := (List.range 1023).map (fun i => (w.toNat + i) % 1023 + 1)
      let id := (ids.find? (fun k => !s0.filet.matrices.has k)).getD 1
      let x0 := matrixOf r.data
      let devs := s0.matrixDevs x0
      let tiles := (devs.map (s0.matrixTiles x0)).foldl (· + ·) 0
      let x : Matrix := { x0 with hoopTiles := tiles, waits := devs, mailbox := some r.m }
      let s1 : State := { s0 with filet := { s0.filet with matrices := s0.filet.matrices.put id x } }
      let s2 := s1.change [.matrix id (some r.data)] .none
      let s3 := if devs.contains s2.self then s2.startLoad id else s2
      .later .ok (leBytes 2 id ++ zeros 2 ++ leBytes 4 tiles) s3 }

/-- The check of a command that names a matrix: its form, its ID (ADDRESS), and FILET on its region (R250). -/
def State.matrixCheck (s : State) (r : Req) : Option Status :=
  (lengthZero 8 2 6 r).orElse fun _ => match s.filet.matrices.find (leAt r.data 0 2) with
    | none => some .address
    | some x => if s.lacksFilet r x.source then some .denied else none

/-- MATRIX_UNLOAD (R126, R246): new submits are refused, accepted jobs end, then the tiles are freed. -/
def execMatrixUnload (m : Nat) (s : State) : Result :=
  s.command m {
    code := 0x0402, cls := 2, mark := .yes,
    check := fun s r => s.matrixCheck r
    old := fun s r => match s.filet.matrices.find (leAt r.data 0 2) with | some x => x.request | none => []
    eff := fun s r =>
      let id := leAt r.data 0 2
      .later .ok [] ((s.modMatrix id (fun x => { x with st := 2, waits := [], mailbox := some r.m })).unloadDone id) }

/-- MATRIX_REFRESH (R232): every group of the matrix is refreshed on every device that holds it. -/
def execMatrixRefresh (m : Nat) (s : State) : Result :=
  s.command m {
    code := 0x0403, cls := 2, mark := .no,
    check := fun s r => s.matrixCheck r
    eff := fun s r =>
      let id := leAt r.data 0 2
      match s.filet.matrices.find id with
      | none => .done .address [] s
      | some x =>
        let devs := s.matrixDevs x
        let s1 := s.modMatrix id (fun x => { x with waits := devs, mailbox := some r.m })
        let s2 := (devs.filter (· != s.self)).foldl (fun t d => t.sendControl d (.refresh id)) s1
        let s3 := s2.refreshMatrix id x
        .later .ok [] (if s3.progsDone id then s3.matrixDone id s3.self .ok else s3) }

/-- MATRIX_STATUS (Table 07-15); groups and tiles as this device knows them. -/
def execMatrixStatus (m : Nat) (s : State) : Result :=
  s.command m {
    code := 0x0404, cls := 1, mark := .no,
    check := fun s r => s.matrixCheck r
    eff := fun s r => match s.filet.matrices.find (leAt r.data 0 2) with
      | none => .done .address [] s
      | some x =>
        let id := leAt r.data 0 2
        let mine := s.filet.tiles.filter (fun e => e.2.matrix == id)
        let left := ((s.filet.progs.filter (fun p => p.matrix == id)).map (fun p => p.left.length)).foldl (· + ·) 0
        let progress := if x.st = 0 then mine.length - left else 0
        let resid := mine.foldl (fun a e => max a (residUnits e.2.resid)) 0
        let age := mine.foldl (fun a e => max a ((s.opTime - e.2.since) / 3600)) 0
        let count (f : FGroup → Bool) : Nat := (x.groups.filter (fun e => f e.2)).length
        .done .ok (x.request.take 8 ++ leBytes 4 x.cols ++ leBytes 2 x.dim ++ [BitVec.ofNat 8 x.wide.toNat, BitVec.ofNat 8 x.st] ++
          leBytes 4 x.hoopTiles ++ leBytes 4 progress ++ leBytes 4 (count (·.stale)) ++ leBytes 4 (count (·.fallback)) ++
          leBytes 2 (min 65535 resid) ++ leBytes 2 (min 65535 age) ++ zeros 12) s }

/-- MATRIX_LIST: at most 500 IDs from FIRST_ID; NEXT_ID is 0 when none remains. -/
def execMatrixList (m : Nat) (s : State) : Result :=
  s.command m {
    code := 0x0405, cls := 1, mark := .no,
    check := fun _ r => lengthZero 8 2 6 r
    eff := fun s r =>
      let l := s.filet.matrices.keys.filter (fun k => decide (leAt r.data 0 2 ≤ k))
      let got := l.take 500
      .done .ok (leBytes 2 got.length ++ leBytes 2 ((l.drop 500).headD 0) ++ zeros 4 ++ got.flatMap (fun k => leBytes 2 k ++ zeros 6)) s }

/-- Tiles that hold matrix groups, and FAILED tiles (Table 07-20). -/
def State.tilesUsed (s : State) : Nat := (s.filet.tiles.filter (fun e => e.2.st == .inUse || e.2.st == .programming)).length
def State.tilesFailed (s : State) : Nat := (s.filet.tiles.filter (fun e => e.2.st == .failed)).length

/-- FILET_STATUS. -/
def execFiletStatus (m : Nat) (s : State) : Result :=
  s.command m {
    code := 0x0410, cls := 1, mark := .no,
    check := fun _ r => lengthIs 0 r
    eff := fun s _ =>
      .done .ok (leBytes 4 (144 * 8192 - s.filet.tiles.length) ++ leBytes 4 s.tilesUsed ++ leBytes 4 s.tilesFailed ++
        leBytes 4 s.filet.jobs.length ++ zeros 16) s }

/-- TILE_RETURN (R235): a FAILED tile rejoins after two audits. -/
def execTileReturn (m : Nat) (s : State) : Result :=
  s.command m {
    code := 0x0411, cls := 3, mark := .yes,
    check := fun s r => (lengthZero 8 4 4 r).orElse fun _ =>
      if (s.tile (leAt r.data 0 4)).st = .failed then none else some .address
    eff := fun s r =>
      let t := leAt r.data 0 4
      .done .ok [] (s.putTile t { s.tile t with st := .rejoining, proofs := 2, badRuns := 0 }) }

end Sys2Proof.Machine
end

