-- ==== Sys2Proof/Machine/MbxCmds.lean ====
section
/-!
DEFINITION. The identity, admin key and console commands of Table 14-5, ALERT_CAUSES, and the rows of the console and of operating
time (14).
-/
namespace Sys2Proof.Machine

/-- ALERT_CAUSES (Table 14-8). -/
def State.alertCauses (s : State) : Nat :=
  (s.fld Reg.secAlarm 4 0 != 0).toNat + 2 * (s.power == .held).toNat + 4 * s.jnlFull.toNat + 8 * (s.flag Reg.kepStatus 2).toNat +
    16 * (s.throttling || s.flag Reg.pwrStatus 10).toNat

/-- The package whose firmware runs; none while the ROM serves. -/
def State.runningPkg (s : State) : Option FwPkg := s.boot.slots.find s.boot.active
/-- FW_VERSION of the running firmware; 0 in ROM recovery (R512). -/
def State.fwVersion (s : State) : Nat := (s.runningPkg.map (·.version)).getD 0
/-- SVN of the running image. -/
def State.fwSvn (s : State) : Nat := (s.runningPkg.map (·.svn)).getD 0

/-- IDENTITY response (Table 14-6). -/
def State.identityData (s : State) : List Byte :=
  leBytes 8 Config.serial.toNat ++ leBytes 2 0x4810 ++ [0xB0, BitVec.ofNat 8 s.kept.factory.toNat] ++ leBytes 4 s.fwVersion ++
    leBytes 4 s.fwSvn ++ [BitVec.ofNat 8 (s.fld Reg.glbStrap 1 0), BitVec.ofNat 8 s.self] ++ zeros 10

/-- DEVICE_STATUS response (Table 14-7). -/
def State.deviceStatusData (s : State) : List Byte :=
  [BitVec.ofNat 8 s.power.num, BitVec.ofNat 8 (s.fld Reg.hopStatus 3 2)] ++ leBytes 2 s.alertCauses ++ leBytes 2 s.jnlHeld ++
    leBytes 2 (s.fld Reg.kepStatus 47 32) ++ leBytes 4 (s.fld Reg.kepCycle 31 0) ++ leBytes 3 (s.fld Reg.kepTime 23 0) ++
    leBytes 2 (s.fld Reg.kepTime 35 24) ++ zeros 7

/-- ADMIN_KEY_LIST response: 8 entries of PRESENT and the first 8 bytes of the key's digest. -/
def State.adminKeyData (s : State) : List Byte :=
  (List.range 8).flatMap (fun i => match s.kept.adminKeys.find i with
    | some k => [1] ++ zeros 7 ++ (Config.sha384 k).take 8
    | none => zeros 16)

/-- A command that only answers. -/
def queryCmd (code cls n : Nat) (data : State → Req → List Byte) : Command :=
  { code := code, cls := cls, mark := .no, check := (fun _ r => lengthIs n r), eff := fun s r => .done .ok (data s r) s }

/-- IDENTITY (R451). -/
def execIdentity (m : Nat) (s : State) : Result := s.command m (queryCmd 0x0101 1 0 fun s _ => s.identityData)
/-- DEVICE_STATUS (R451). -/
def execDeviceStatus (m : Nat) (s : State) : Result := s.command m (queryCmd 0x0102 1 0 fun s _ => s.deviceStatusData)
/-- CERT_GET (R451). -/
def execCertGet (m : Nat) (s : State) : Result := s.command m (queryCmd 0x0104 1 0 fun _ _ => Config.identityCert)
/-- ADMIN_KEY_LIST (R451). -/
def execAdminKeyList (m : Nat) (s : State) : Result := s.command m (queryCmd 0x0112 1 0 fun s _ => s.adminKeyData)

/-- NONCE_GET (R449): a fresh nonce for this mailbox, valid for 60 s. -/
def execNonceGet (m : Nat) (s : State) : Result :=
  s.command m {
    code := 0x0103, cls := 1, mark := .no, check := (fun _ r => lengthIs 0 r),
    eff := fun s r =>
      let (f, s1) := s.draw256
      let n := beBytes 32 f.toNat
      .done .ok n (s1.putBox r.m { s1.box r.m with nonce := some (n, s1.now + sec 60) }) }

/-- PROVISION_LOCK (R450): the factory state ends for good. -/
def execProvisionLock (m : Nat) (s : State) : Result :=
  s.command m {
    code := 0x0110, cls := 3, mark := .yes, wp := (fun _ _ => true),
    check := fun s r => (lengthIs 0 r).orElse fun _ => if s.kept.adminKeys.isEmpty then some .denied else none,
    eff := fun s _ => .done .ok [] ((({ s with kept := { s.kept with factory := false } } : State).clrFlag Reg.kepStatus 1).setFld
      Reg.secJtag 1 0 0) }

/-- ADMIN_KEY_SET (R450): installs or clears an admin key; the last installed key cannot be cleared. -/
def execAdminKeySet (m : Nat) (s : State) : Result :=
  s.command m {
    code := 0x0111, cls := 3, mark := .yes, wp := (fun _ _ => true),
    check := fun s r => (lengthZero 104 2 6 r).orElse fun _ =>
      let i := leAt r.data 0 1
      let a := leAt r.data 1 1
      if 2 ≤ a then some .opcode
      else if 8 ≤ i then some .address
      else if a = 1 && s.kept.adminKeys.has i && s.kept.adminKeys.length == 1 then some .denied else none,
    old := fun s r => (s.kept.adminKeys.find (leAt r.data 0 1)).getD [],
    eff := fun s r =>
      let i := leAt r.data 0 1
      let keys := if leAt r.data 1 1 = 0 then s.kept.adminKeys.put i (slice r.data 8 96) else s.kept.adminKeys.drop i
      .done .ok [] { s with kept := { s.kept with adminKeys := keys } } }

/-! ### Console (R445) -/

/-- CONSOLE_UNLOCK (R445). -/
def execConsoleUnlock (m : Nat) (s : State) : Result :=
  s.command m {
    code := 0x0113, cls := 3, mark := .yes, check := (fun _ r => lengthIs 0 r),
    eff := fun s _ => .done .ok [] { s with mbx := { s.mbx with console := some (s.now + sec 1800) } } }

/-- CONSOLE_LOCK (R445). -/
def execConsoleLock (m : Nat) (s : State) : Result :=
  s.command m {
    code := 0x0114, cls := 2, mark := .always, check := (fun _ r => lengthIs 0 r),
    eff := fun s _ => .done .ok [] { s with mbx := { s.mbx with console := none } } }

/-- CONSOLE_LINE (R445): an unlocked console accepts a line, and its 30 min start again. -/
def execConsoleLine (line : List Byte) (s : State) : Result :=
  .next (match s.mbx.console with
    | some d =>
      if s.now < d then { s with mbx := { s.mbx with console := some (s.now + sec 1800), lines := s.mbx.lines ++ [line] } } else s
    | none => s)

/-- Is a command a line of the console? -/
def consoleSpeaks : Instr → Bool
  | .consoleLine _ => true
  | _ => false

/-- CONSOLE_TIMEOUT (R445): 30 min without input lock the console. -/
def execConsoleTimeout (s : State) : Result :=
  .next (match s.mbx.console with
    | some d => if s.fires d consoleSpeaks then { s with mbx := { s.mbx with console := none } } else s
    | none => s)

/-! ### Operating time (R457) -/

/-- OPERATING_TIME_SLOT (R457): at a 6-minute point the operating time goes to the next slot pair, once. -/
def execOperatingTimeSlot (s : State) : Result :=
  .next (if s.fld Reg.kepTime 35 24 % 360 = 0 && s.opSeconds != s.kept.timeSlot && !s.kept.closed then
      ({ s with kept := { s.kept with timeSlot := s.opSeconds } } : State).count (Reg.kepCount 0) 1
    else s)

end Sys2Proof.Machine
end

