-- ==== Sys2Proof/Machine/Placement.lean ====
section
/-!
DEFINITION. The placement commands of Table 06-10 (R212, R213).
-/
namespace Sys2Proof.Machine

/-- The region that a range of hoop addresses lies wholly inside. -/
def State.regionOver (s : State) (base size : Nat) : Option (Nat × Region) :=
  s.mem.regions.find? (fun e => decide (e.2.base ≤ base) && decide (base + size ≤ e.2.base + e.2.size))

/-- Does a request over Shuttle come on a connection whose grant holds READ or WRITE on a region? Other interfaces pass (R213). -/
def State.hintRight (s : State) (r : Req) (region : Nat) : Bool :=
  match r.owner with
  | .conn id _ => match s.host.conns.find id with
    | some c => match s.mem.grants.find c.grant with
      | some g => g.entries.any (fun e => e.1 == region && e.2 % 4 != 0)
      | none => false
    | none => false
  | _ => true

/-- The checks of R213 in their order, of a request for `size` bytes: `count` is the check of COUNT, `hint` of the hint. -/
def State.hintCheck (s : State) (r : Req) (base size : Nat) (aligned count hint : Bool) : Option Status :=
  if base % 131072 ≠ 0 || !aligned then some .align
  else match s.regionOver base size with
    | none => some .address
    | some (id, _) =>
      if !count then some .length
      else if !hint then some .opcode
      else if !s.hintRight r id then some .denied
      else none

/-- HINT_SET (R208, R212, R213): the hint of the swatches of a range, set here and on the other devices. -/
def execHintSet (m : Nat) (s : State) : Result :=
  s.command m {
    code := 0x0301, cls := 2, mark := .no
    check := fun s r => (lengthZero 24 17 7 r).orElse fun _ =>
      let size := leAt r.data 8 8
      s.hintCheck r (leAt r.data 0 8) size (size % 131072 == 0 && size != 0) true (leAt r.data 16 1 ≤ 4)
    eff := fun s r =>
      let base := leAt r.data 0 8
      let size := leAt r.data 8 8
      let h := leAt r.data 16 1
      .done .ok [] ((s.setHints base size h).sendAll (.hint base size h)) }

/-- HINT_GET (R212, R213): one hint per swatch. -/
def execHintGet (m : Nat) (s : State) : Result :=
  s.command m {
    code := 0x0302, cls := 1, mark := .no
    check := fun s r => (lengthZero 16 10 6 r).orElse fun _ =>
      let n := leAt r.data 8 2
      s.hintCheck r (leAt r.data 0 8) (131072 * n) true (1 ≤ n && n ≤ 4000) true
    eff := fun s r =>
      let base := leAt r.data 0 8
      .done .ok ((List.range (leAt r.data 8 2)).map (fun i => BitVec.ofNat 8 (s.hintAt (base + 131072 * i)))) s }

/-- WEAR_STATUS response (Table 06-11). -/
def State.wearData (s : State) : List Byte :=
  let top := s.mem.ldg.foldl (fun a e => if e.2.st = .mapped then max a e.2.progs else a) 0
  leBytes 2 s.percentUsed ++ [BitVec.ofNat 8 (s.fld Reg.plcSpare 24 23), BitVec.ofNat 8 s.limiting.toNat] ++
    leBytes 4 (s.fld Reg.plcSpare 22 0) ++ leBytes 8 (s.mem.gov.s29 + s.mem.gov.used) ++ leBytes 8 s.mem.gov.allow ++
    leBytes 8 s.mem.gov.used ++ leBytes 4 (top / 512) ++ leBytes 4 s.retired

/-- TIER_STATUS response (Table 06-12). -/
def State.tierData (s : State) : List Byte :=
  leBytes 4 (s.fld Reg.plcCeiling 15 0) ++ leBytes 4 ((s.dirtyLlc + s.dirtyTier) / 4096) ++ leBytes 4 (s.tierSlots / 1024) ++
    leBytes 4 (s.mem.tier.length / 1024) ++ leBytes 4 (s.fld (Reg.plcCount 7) 31 0) ++ leBytes 4 (s.fld Reg.plcMoveStatus 6 0) ++ zeros 8

/-- WEAR_STATUS (R212). -/
def execWearStatus (m : Nat) (s : State) : Result := s.command m (queryCmd 0x0310 1 0 fun s _ => s.wearData)
/-- TIER_STATUS (R212). -/
def execTierStatus (m : Nat) (s : State) : Result := s.command m (queryCmd 0x0311 1 0 fun s _ => s.tierData)

/-- SWATCH_RETIRE (R213): a retirement with CAUSE ADMIN starts; the command completes when the move has switched. -/
def execSwatchRetire (m : Nat) (s : State) : Result :=
  s.command m {
    code := 0x0320, cls := 3, mark := .yes
    check := fun s r => (lengthZero 8 4 4 r).orElse fun _ =>
      let ps := leAt r.data 0 4
      if 33554431 < ps || (s.ldg ps).st = .retired || (s.ldg ps).st = .moveDst then some .address else none
    eff := fun s r => .later .ok [] (s.retireSwatch (leAt r.data 0 4) 3) }

end Sys2Proof.Machine
end

