-- ==== Sys2Proof/Machine/RegTable.lean ====
section
/-!
DEFINITION. The register tables of every block: which registers exist, which of their bits a write reaches and how (R547 to R549), the
ranges of their fields, and the factory values of keep registers.
-/
namespace Sys2Proof.Machine

/-- A register: its RW (or LK) bits, its KP bits, its W1C bits, whether the RW bits are LK, whether it is write-only, whether it is a
counter, and the ranges of fields as (hi, lo, least, greatest). A register without bits to write is RO. -/
structure RegDesc where
  rw : Nat := 0
  kp : Nat := 0
  w1c : Nat := 0
  lk : Bool := false
  wo : Bool := false
  counter : Bool := false
  ranges : List (Nat × Nat × Nat × Nat) := []
  deriving DecidableEq, Repr

/-- The bits `[hi:lo]` of each pair. -/
def bitsOf (l : List (Nat × Nat)) : Nat := l.foldl (fun a f => a + (2 ^ (f.1 + 1) - 2 ^ f.2)) 0

/-- A register without bits to write. -/
def descRo : RegDesc := {}
/-- A counter (R48). -/
def descCounter : RegDesc := { w1c := 2 ^ 63, counter := true }
/-- An RW register of the fields given. -/
def descRw (l : List (Nat × Nat)) : RegDesc := { rw := bitsOf l }
/-- A write-only register. -/
def descWo : RegDesc := { wo := true }
/-- A keep register of the fields given, each with its range. -/
def descKp (l : List (Nat × Nat × Nat × Nat)) : RegDesc := { kp := bitsOf (l.map (fun f => (f.1, f.2.1))), ranges := l }
/-- An RW register whose fields have ranges. -/
def descRange (l : List (Nat × Nat × Nat × Nat)) : RegDesc := { rw := bitsOf (l.map (fun f => (f.1, f.2.1))), ranges := l }
/-- A register whose only writable bits are W1C. -/
def descW1c (l : List Nat) : RegDesc := { w1c := l.foldl (fun a b => a + 2 ^ b) 0 }

/-- Is `r` one of `n` offsets 8 apart from `base`? -/
def inArray (r base n : Nat) : Bool := decide (base ≤ r) && decide (r < base + 8 * n) && (r - base) % 8 == 0

/-- The first of a list of cases that `r` matches. -/
def pickDesc (l : List (Bool × RegDesc)) : Option RegDesc := (l.find? (fun e => e.1)).map (·.2)

/-- Registers of the GLB block (Table 18-6). -/
def glbDesc (r : Nat) : Option RegDesc := pickDesc [
  (r == 0x10, descW1c [0]), (r == 0x48, descRw [(12, 0)]), (inArray r 0 13, descRo)]

/-- Registers of the ETH block (Tables 02-3 to 02-7, R581). -/
def ethDesc (r : Nat) : Option RegDesc :=
  if r < 0x1000 then pickDesc [
    (r == 0, descRo), (r == 8, descKp [(1, 0, 0, 2)]), (r == 0x10, descKp [(15, 0, 0, 65535)]), (r == 0x18, descW1c [11])]
  else if 0x9000 ≤ r then none
  else
    let q := r % 0x1000
    pickDesc [
      (q == 0, descRw [(27, 0), (45, 32)]), (q == 8, descW1c [7, 8, 9]),
      (q == 0x10, { rw := bitsOf [(47, 0)], lk := true }), (q == 0x18, descRw [(47, 0)]), (q == 0x20, descRw [(31, 0)]),
      (q == 0x28 || q == 0x30, descRw [(63, 0)]), (q == 0x38, descRw [(13, 0)]), (q == 0x40, descRw [(31, 0)]),
      (q == 0x48, descRw [(16, 0), (63, 32)]),
      (inArray q 0x100 6 || inArray q 0x140 8 || inArray q 0x180 8 || inArray q 0x1C0 3 || inArray q 0x400 25, descCounter)]

/-- Registers of the LCE block (Tables 08-14, 08-15). -/
def lceDesc (r : Nat) : Option RegDesc :=
  if r < 0x1000 then pickDesc [
    (r == 0 || r == 0x10, descRo), (r == 8, descRw [(15, 0)]), (r == 0x18, descW1c [12]), (inArray r 0x400 15, descCounter)]
  else if 0x2000 ≤ r then none
  else let q := r % 0x100; pickDesc [(q == 0, descW1c [3]), (q == 8, descRo), (inArray q 0x10 8, descCounter)]

/-- Registers of the SHT block (Tables 03-16 to 03-21). -/
def shtDesc (r : Nat) : Option RegDesc := pickDesc [
  (r == 8, descRw [(21, 0), (31, 24), (61, 32)]), (r == 0x10, descRw [(47, 0)]), (r == 0 || r == 0x18, descRo), (r == 0x20, descW1c [11]),
  (inArray r 0x100 11 || inArray r 0x200 15, descCounter),
  (r == 0x1000, descRw [(15, 0)]), (inArray r 0x1008 3, descRo), (r == 0x1020, descWo)]

/-- Registers of the LLC block (Tables 10-10, 10-11). -/
def llcDesc (r : Nat) : Option RegDesc := pickDesc [
  (r == 0 || r == 0x20, descRo), (r == 8, descRange [(3, 0, 0, 12)]), (r == 0x10, descW1c [0, 1]), (r == 0x18, descRw [(4, 0)]),
  (r == 0x28 || r == 0x40, descWo), (r == 0x30, descRw [(63, 0)]), (r == 0x38, descRw [(55, 0)]), (r == 0x48, descW1c [1, 2]),
  (inArray r 0x100 8, { kp := 2 ^ 64 - 1 }), (inArray r 0x200 11, descCounter)]

/-- Registers of the COH block (Table 10-12). -/
def cohDesc (r : Nat) : Option RegDesc := pickDesc [
  (r == 0 || r == 0x18, descRo), (r == 8, descRange [(6, 0, 2, 100)]), (r == 0x10, descW1c [2]), (inArray r 0x100 9, descCounter)]

/-- Registers of the DRC block (Tables 11-8 to 11-12). -/
def drcDesc (r : Nat) : Option RegDesc := pickDesc [
  (r == 0 || r == 0x18 || r == 0x28, descRo),
  (r == 8, descRange [(5, 0, 17, 63), (13, 8, 0, 47), (19, 16, 1, 8), (47, 32, 0, 65535)]), (r == 0x10, descW1c [0]), (r == 0x20, descW1c [3]),
  (inArray r 0x40 8, descRange [(0, 0, 0, 1), (15, 4, 1, 1365), (31, 16, 1, 4096)]),
  (inArray r 0x100 19 || inArray r 0x200 8 || inArray r 0x240 8, descCounter)]

/-- Registers of the STK block (Tables 05-12 to 05-21). -/
def stkDesc (r : Nat) : Option RegDesc :=
  if r < 0x1000 then pickDesc [
    (r == 0 || r == 8, descRo), (r == 0x10, descKp [(15, 0, 300, 7200), (21, 16, 4, 48), (31, 24, 10, 255), (47, 32, 1, 16384)]),
    (r == 0x18, descRw [(1, 0), (11, 8)]), (r == 0x20, descRw [(2, 0), (5, 4)]), (r == 0x28, descW1c [9])]
  else if 0xA000 ≤ r then none
  else
    let q := r % 0x1000
    pickDesc [(q == 0, descW1c [1]), (q == 8 || q == 0x18, descRo), (q == 0x10, descRw [(23, 0), (31, 31)]), (q == 0x20, descW1c [1]),
      (inArray q 0x100 14, descCounter)]

/-- Registers of the PRK block (Table 06-17). -/
def prkDesc (r : Nat) : Option RegDesc := pickDesc [
  (r == 0x10 || r == 0x20, descRw [(24, 0)]), (inArray r 0 7, descRo)]

/-- Registers of the PLC block (Tables 06-14 to 06-16). -/
def plcDesc (r : Nat) : Option RegDesc := pickDesc [
  (r == 8, descRange [(7, 0, 0, 255), (15, 8, 1, 255), (23, 16, 0, 255), (31, 24, 0, 255), (35, 32, 0, 15)]),
  (r == 0x10, descKp [(4, 0, 1, 10), (15, 8, 10, 255), (31, 16, 100, 50000), (41, 32, 10, 1000)]),
  (r == 0x18, descKp [(8, 0, 25, 300), (22, 16, 0, 25)]), (r == 0x20, descKp [(0, 0, 0, 1), (31, 16, 128, 16384)]),
  (r == 0x28, descRange [(6, 0, 1, 100), (14, 8, 0, 99), (31, 16, 1, 1000)]), (r == 0x70, descW1c [0]),
  (r == 0 || inArray r 0x30 8, descRo), (inArray r 0x100 12, descCounter)]

/-- Registers of the FIL block (Tables 07-17 to 07-21). -/
def filDesc (r : Nat) : Option RegDesc := pickDesc [
  (r == 0 || r == 0x28, descRo), (r == 8, descRange [(0, 0, 0, 1), (15, 8, 1, 20), (27, 16, 60, 3600), (47, 32, 10, 60000), (54, 48, 1, 50)]),
  (r == 0x10, descKp [(15, 0, 5, 1000), (31, 16, 0, 65535), (43, 32, 24, 4095), (51, 44, 50, 255)]),
  (r == 0x18, descW1c [21]), (r == 0x20, descRw [(20, 0)]), (inArray r 0x100 12, descCounter)]

/-- Registers of the BOB block (Tables 12-5 to 12-7). -/
def bobDesc (r : Nat) : Option RegDesc :=
  if 0x100 ≤ r && decide (r < 0x200) then
    let q := r % 0x40
    pickDesc [(q == 0 || q == 8 || q == 0x28, descWo), (q == 0x18, descRw [(15, 0)]), (q == 0x10 || q == 0x20, descRo)]
  else pickDesc [
    (r == 0 || r == 0x20, descRo), (r == 8, descRw [(1, 0)]), (r == 0x10, descW1c [18]), (r == 0x18, descRw [(15, 0)]),
    (r == 0x28, descRw [(0, 0), (25, 8), (47, 32)]), (r == 0x30, descRw [(31, 0)]), (r == 0x38, descWo),
    (inArray r 0x200 14, descCounter), (inArray r 0x2000 1024 || inArray r 0x4000 1024, { w1c := 2 ^ 64 - 1 })]

/-- Registers of the SEC block (Tables 13-12 to 13-15). -/
def secDesc (r : Nat) : Option RegDesc := pickDesc [
  (r == 8, descKp [(7, 0, 0, 255), (23, 8, 1, 3600), (28, 24, 1, 20), (39, 32, 1, 255)]), (r == 0x10, descW1c [0]),
  (r == 0x18, descW1c [0, 1, 2, 3, 4]), (r == 0x20, descRw [(7, 0)]), (r == 0x40, descW1c [31]), (inArray r 0 14, descRo),
  (inArray r 0x100 12, descCounter)]

/-- Registers of the MBX block (Tables 14-13 to 14-15). -/
def mbxDesc (r : Nat) : Option RegDesc := pickDesc [
  (r == 0, descRo), (r == 8, descRange [(15, 0, 100, 60000), (31, 16, 100, 60000)]), (r == 0x10, descW1c [18]),
  (inArray r 0x100 8, descCounter), (decide (0x1000 ≤ r) && decide (r < 0x1400) && r % 0x40 == 0, descRo)]

/-- Registers of the KEP block (Tables 14-13, 14-16). -/
def kepDesc (r : Nat) : Option RegDesc := pickDesc [
  (r == 8, descW1c [2, 3]), (r == 0x20, descRw [(23, 0)]), (inArray r 0 6, descRo), (inArray r 0x100 7, descCounter)]

/-- Registers of the JNL block (Table 14-13). -/
def jnlDesc (r : Nat) : Option RegDesc := pickDesc [(inArray r 0 4, descRo), (inArray r 0x100 5, descCounter)]

/-- Registers of the PWR block (Tables 15-9, 15-10, 15-12). -/
def pwrDesc (r : Nat) : Option RegDesc := pickDesc [
  (r == 8, descW1c [10, 11]), (r == 0x10, descKp [(0, 0, 0, 1), (17, 8, 100, 1000), (27, 18, 0, 1000), (39, 28, 0, 4095), (43, 40, 0, 12)]),
  (r == 0x18, descKp [(15, 0, 100, 10000), (31, 16, 0, 65535), (38, 32, 50, 100)]),
  (r == 0x28, descRange [(1, 0, 0, 2), (23, 8, 0, 118)]), (inArray r 0 8, descRo), (inArray r 0x100 10, descRo), (inArray r 0x200 10, descCounter)]

/-- Registers of the THM block (Tables 15-9, 15-11). -/
def thmDesc (r : Nat) : Option RegDesc := pickDesc [
  (r == 8, descKp [(0, 0, 0, 1), (15, 8, 85, 105), (23, 16, 70, 85), (33, 24, 10, 1000), (39, 34, 5, 50)]), (r == 0x10, descW1c [42]),
  (r == 0x18, descRange [(4, 0, 0, 29)]), (r == 0x28, descWo), (inArray r 0 7, descRo), (inArray r 0x100 6, descCounter)]

/-- Registers of the SMP block (Tables 17-8 to 17-10). -/
def smpDesc (r : Nat) : Option RegDesc := pickDesc [
  (r == 8, descKp [(7, 0, 1, 255), (14, 8, 1, 96)]), (r == 0x10, descW1c [14]), (r == 0x20, descRw [(10, 0)]), (inArray r 0 4, descRo),
  (inArray r 0x100 16, descRo)]

/-- Registers of the PMC block (Tables 17-8, 17-11). -/
def pmcDesc (r : Nat) : Option RegDesc := pickDesc [
  (r == 8, descW1c [0]), (r == 0x18, descRange [(0, 0, 0, 1), (31, 16, 1, 65535), (47, 32, 0, 65535), (63, 48, 0, 65535)]),
  (r == 0x20, descRw [(63, 0)]), (r == 0x28, descRw [(55, 0)]), (r == 0x30, descRw [(31, 0)]), (inArray r 0 3, descRo),
  (inArray r 0x1000 512, descCounter)]

/-- Registers of the HOP block (Tables 08-16 to 08-18). -/
def hopDesc (r : Nat) : Option RegDesc := pickDesc [
  (r == 8, descW1c [12, 13]), (r == 0x20, descKp [(0, 0, 0, 1), (14, 8, 1, 50), (22, 16, 0, 20), (35, 24, 100, 4000), (51, 36, 0, 10000)]),
  (r == 0x38, descRw [(5, 0)]), (r == 0x50, descRange [(17, 0, 0, 229375)]), (inArray r 0 13, descRo), (inArray r 0x100 10, descCounter)]

/-- Registers of the SCR block (Tables 09-7 to 09-9). -/
def scrDesc (r : Nat) : Option RegDesc := pickDesc [
  (r == 8, descKp [(12, 0, 60, 6720), (18, 16, 1, 4), (31, 24, 10, 240), (43, 32, 16, 4095), (48, 44, 1, 20), (49, 49, 0, 1), (55, 50, 1, 50)]),
  (r == 0x10, descW1c [0, 2]), (r == 0x28 || r == 0x40, descWo), (r == 0x48, descW1c [40]), (inArray r 0 11, descRo),
  (inArray r 0x100 13, descCounter)]

/-- The register at an offset of the blocks of Table 18-1; `none` where no table places one. -/
def regDesc (off : Nat) : Option RegDesc :=
  if off % 8 ≠ 0 then none
  else
    let r := off % 0x10000
    match off / 0x10000 with
    | 0x00 => glbDesc r | 0x01 => ethDesc r | 0x02 => lceDesc r | 0x03 => shtDesc r
    | 0x04 => if r = 0 || r = 8 then some descRo else none
    | 0x05 => llcDesc r | 0x06 => cohDesc r | 0x07 => drcDesc r | 0x08 => stkDesc r | 0x09 => prkDesc r | 0x0A => plcDesc r
    | 0x0B => filDesc r | 0x0C => bobDesc r | 0x0D => secDesc r | 0x0E => mbxDesc r | 0x0F => kepDesc r | 0x10 => jnlDesc r
    | 0x11 => pwrDesc r | 0x12 => thmDesc r | 0x13 => smpDesc r | 0x14 => pmcDesc r | 0x15 => hopDesc r | 0x16 => scrDesc r
    | 0x17 => if r = 0 then some descRo else none
    | _ => none

/-- The ID register of each block (R547, Table 18-1), by block number. -/
def blockId (b : Nat) : Nat :=
  match b with
  | 0x00 => 0x1201 + 0x4810 * 2 ^ 16 + 0xB0 * 2 ^ 32
  | 0x01 => 0x0201 | 0x02 => 0x0801 | 0x03 => 0x0302 | 0x04 => 0x1203 | 0x05 => 0x0A01 | 0x06 => 0x0A02 | 0x07 => 0x0B01 | 0x08 => 0x0501
  | 0x09 => 0x0602 | 0x0A => 0x0601 | 0x0B => 0x0701 | 0x0C => 0x0C01 | 0x0D => 0x0D01 | 0x0E => 0x0E01 | 0x0F => 0x0E02 | 0x10 => 0x0E03
  | 0x11 => 0x0F01 | 0x12 => 0x0F02 | 0x13 => 0x1101 | 0x14 => 0x1102 | 0x15 => 0x0802 | 0x16 => 0x0901 | 0x17 => 0x1202
  | _ => 0

/-- CFG_IGNORED of the block that a register lies in (register, bit); none where its block has none. -/
def ignoredFlag (off : Nat) : Option (Nat × Nat) :=
  match off / 0x10000 with
  | 0x00 => some (Reg.glbStatus, 0)
  | 0x01 => some (Reg.ethPortStatus (if off % 0x10000 < 0x1000 then 0 else (off % 0x10000 - 0x1000) / 0x1000), 8)
  | 0x05 => some (0x050010, 0) | 0x06 => some (0x060010, 2) | 0x07 => some (0x070010, 0) | 0x08 => some (0x080028, 9)
  | 0x0A => some (0x0A0070, 0) | 0x0B => some (0x0B0018, 21) | 0x0C => some (0x0C0010, 18) | 0x0D => some (0x0D0010, 0)
  | 0x0E => some (0x0E0010, 18) | 0x11 => some (0x110008, 11) | 0x12 => some (0x120010, 42) | 0x13 => some (0x130010, 14)
  | 0x14 => some (0x140008, 0) | 0x15 => some (0x150008, 13) | 0x16 => some (0x160010, 0) | 0x80 => some (Reg.glbStatus, 0)
  | _ => none

/-- The values each keep register takes before it is written (its factory value). -/
def keepFactory : Table Nat := [
  (0x010010, 0x1BCE),
  (0x080010, 1800 + 12 * 2 ^ 16 + 60 * 2 ^ 24 + 64 * 2 ^ 32),
  (0x0A0010, 2 + 60 * 2 ^ 8 + 2000 * 2 ^ 16 + 100 * 2 ^ 32),
  (0x0A0018, 300 + 25 * 2 ^ 16),
  (0x0A0020, 16384 * 2 ^ 16),
  (0x0B0010, 40 + 1000 * 2 ^ 16 + 2160 * 2 ^ 32 + 150 * 2 ^ 44),
  (0x0D0008, 16 + 60 * 2 ^ 8 + 5 * 2 ^ 24 + 10 * 2 ^ 32),
  (0x110010, 500 * 2 ^ 8 + 1000 * 2 ^ 18 + 8 * 2 ^ 40),
  (0x110018, 4000 + 30000 * 2 ^ 16 + 90 * 2 ^ 32),
  (0x120008, 105 * 2 ^ 8 + 85 * 2 ^ 16 + 50 * 2 ^ 24 + 10 * 2 ^ 34),
  (0x130008, 10 + 48 * 2 ^ 8),
  (0x150020, 1 + 10 * 2 ^ 8 + 2 * 2 ^ 16 + 1000 * 2 ^ 24 + 1000 * 2 ^ 36),
  (0x160008, 1440 + 3 * 2 ^ 16 + 60 * 2 ^ 24 + 256 * 2 ^ 32 + 5 * 2 ^ 44 + 2 ^ 49 + 10 * 2 ^ 50)]

/-- The keep registers, by offset. -/
def keepRegs : List Nat :=
  [0x010008] ++ keepFactory.keys.take 1 ++ (List.range 8).map (fun g => 0x050100 + 8 * g) ++ (keepFactory.keys.drop 1)

/-- The COLD resets that are not zero (Table 18-5), but for the ETH port windows. -/
def coldFixed : Table Nat := [
  (0x020008, 0xFFFF),
  (0x030008, 2 + 8 * 2 ^ 18 + 5 * 2 ^ 24 + 10 * 2 ^ 32 + 1000 * 2 ^ 42 + 1000 * 2 ^ 52),
  (0x030010, 256 + 4096 * 2 ^ 16 + 8 * 2 ^ 32),
  (0x060008, 10),
  (0x070008, 48 + 16 * 2 ^ 8 + 8 * 2 ^ 16 + 1024 * 2 ^ 32),
  (0x080018, 2 + 8 * 2 ^ 8),
  (0x080020, 6 + 2 * 2 ^ 4),
  (0x0A0008, 16 + 10 * 2 ^ 8 + 4 * 2 ^ 16 + 2 * 2 ^ 24 + 8 * 2 ^ 32),
  (0x0A0028, 75 + 60 * 2 ^ 8 + 20 * 2 ^ 16),
  (0x0B0008, 1 + 3 * 2 ^ 8 + 600 * 2 ^ 16 + 5000 * 2 ^ 32 + 10 * 2 ^ 48),
  (0x0C0008, 1),
  (0x0E0008, 10000 + 1000 * 2 ^ 16),
  (0x140018, 2 ^ 16)]

end Sys2Proof.Machine
end

