-- ==== Sys2Proof/Machine/RegView.lean ====
section
/-!
DEFINITION. What a read of each register shows (R547 to R556 and the register tables of every chapter): the stored fields, and those
that follow from the rest of the state.
-/
namespace Sys2Proof.Machine

/-- A register from a number. -/
def word (n : Nat) : Word := BitVec.ofNat 64 n

/-- The bits of a list of numbers below 64. -/
def bitSet (l : List Nat) : Nat := l.eraseDups.foldl (fun a b => a + 2 ^ b) 0

/-! ### GLB -/

/-- GLB_ATTN (Table 18-6): blocks with a W1C field that reads 1, counter overflow bits excluded. -/
def State.attn (s : State) : Nat :=
  bitSet ((List.range 23).filter (fun b => s.regs.any (fun e =>
    e.1 / 0x10000 == b && (match regDesc e.1 with
      | some d => !d.counter && Nat.land e.2.toNat d.w1c != 0
      | none => false))))

/-- The description of firmware parameter `i` by the firmware that runs (Table 18-9), its reserved bits zero; nothing is defined while none
runs. Parameter 16, CONSOLE_BAUD, is writable, unsigned, and applies at the next start (R574). -/
def State.fwpDesc (s : State) (i : Nat) : Word :=
  if !s.hkpUp then 0
  else if i = 16 then Config.fwpDesc s.fwVersion i &&& 0xFFFF0000 ||| 0xB
  else Config.fwpDesc s.fwVersion i &&& 0xFFFF000F

/-- GLB_FWP_MIN of parameter `i` (R574 for parameter 16). -/
def State.fwpMin (s : State) (i : Nat) : Word := if i = 16 then 115200 else Config.fwpMin s.fwVersion i

/-- GLB_FWP_MAX of parameter `i` (R574 for parameter 16). -/
def State.fwpMax (s : State) (i : Nat) : Word := if i = 16 then 921600 else Config.fwpMax s.fwVersion i

/-- The value stored for firmware parameter `i`; before any, its factory value (R554, R574). -/
def State.fwpValue (s : State) (i : Nat) : Word := s.boot.settings.get i (if i = 16 then 115200 else Config.fwpDefault s.fwVersion i)

/-- GLB_FWP_INFO. -/
def State.fwpInfo (s : State) : Nat :=
  if s.hkpUp then ((List.range 8192).filter (fun i => (s.fwpDesc i).bit 0)).length + s.boot.format * 2 ^ 16 else 0

/-- GLB registers. -/
def State.glbView (s : State) (r : Nat) : Word :=
  let sel := s.fld Reg.glbFwpSel 12 0
  match r with
  | 0x08 => Config.serial
  | 0x18 => word s.attn
  | 0x20 => word s.tick
  | 0x30 => word (s.alertCauses + bitAt (s.alertCauses != 0) 16)
  | 0x40 => word s.fwpInfo
  | 0x50 => s.fwpDesc sel
  | 0x58 => if s.hkpUp then s.fwpMin sel else 0
  | 0x60 => if s.hkpUp then s.fwpMax sel else 0
  | _ => s.rd r

/-! ### LCE, SHT, OPT, HOP -/

/-- LCE_STATUS: up links, and those that routes to the other members take. -/
def State.laceStatus (s : State) : Nat :=
  bitSet s.upLinks + 2 ^ 16 * bitSet ((s.lace.members.keys.filter (· != s.self)).filterMap s.nextHop)

/-- LCE_LINK_STATUS and LCE_LINK_PEER of link `n`. -/
def State.linkView (s : State) (n q : Nat) : Word :=
  let l := s.link n
  let st : Nat := match l.st with | .down => 0 | .training => 1 | .probation => 2 | .up => 3 | .idle => 4
  let off := 0x021000 + 0x100 * n + q
  if q = 0 then (s.rd off).withField 2 0 st
  else if q = 8 then word (l.peerDev % 64 + (l.peerLink % 16) * 2 ^ 8 + (min 65535 l.delay) * 2 ^ 16)
  else s.rd off

/-- SHT_STATUS (Table 03-19). -/
def State.shtView (s : State) : Nat :=
  s.host.conns.length % 2 ^ 15 + bitAt (s.flag Reg.shtStatus 15) 15 +
    2 ^ 16 * (s.host.conns.foldl (fun a e => a + e.2.credit) 0) + 2 ^ 34 * s.reserveFree

/-- SHT_CONN_VIEW0 (Table 03-21). -/
def Conn.view (c : Conn) : Nat :=
  let st : Nat := match c.st with | .halfOpen => 1 | .opened => 2 | .closing => 3
  st + bitAt c.ece 3 + 2 ^ 4 * (c.cls % 4) + 2 ^ 8 * (c.tclass % 8) + 2 ^ 12 * (c.home % 8) + bitAt c.waiting 15 + 2 ^ 16 * (c.credit % 65536) +
    2 ^ 32 * (c.counted.length % 65536) + 2 ^ 48 * min 65535 (c.replays.filter (fun r => r.resp.isSome)).length

/-- SHT registers. -/
def State.shtRegs (s : State) (r : Nat) : Word :=
  match r, s.host.conns.find (s.fld Reg.shtConnSel 15 0) with
  | 0x18, _ => word s.shtView
  | 0x1008, some c => word c.view
  | 0x1010, some c => word (c.ackSent % 2 ^ 32 + 2 ^ 32 * (c.devSeq % 2 ^ 32))
  | 0x1018, some c => word (c.grant % 65536 + 2 ^ 32 * (c.lastTick % 2 ^ 32))
  | 0x1008, none => 0
  | 0x1010, none => 0
  | 0x1018, none => 0
  | _, _ => s.rd (0x030000 + r)

/-- OPT_STATUS (R556). -/
def State.optView (s : State) : Nat :=
  s.host.ops.length % 2 ^ 18 + 2 ^ 18 * (s.host.peak.values.foldl (· + ·) 0)

/-- A directory entry as its 128 bits (Table 08-7), CHECK the CRC-8 of bits [119:0]. -/
def dirBits (e : DirEntry) (panel : Nat) : Nat :=
  let low := panel % 2 ^ 26 + 2 ^ 32 * (e.devA % 64) + 2 ^ 38 * (e.lpA % 2 ^ 12) + 2 ^ 50 * (if e.mirrored then e.devB % 64 else 0) +
    2 ^ 64 * (if e.mirrored then e.lpB % 2 ^ 12 else 0) + bitAt e.mirrored 76 + 2 ^ 77 * (e.st % 8) + 2 ^ 80 * (e.region % 2 ^ 12) +
    2 ^ 92 * (e.copyA % 4) + 2 ^ 94 * (if e.mirrored then e.copyB % 4 else 2)
  low + 2 ^ 120 * (crc8 (leBytes 15 low)).toNat

/-- The selected directory entry; zero on a worker (Table 08-16). -/
def State.dirView (s : State) : Nat :=
  let i := s.fld 0x150050 17 0
  if s.fld Reg.hopStatus 1 0 = 2 && !s.isManager then 0
  else match s.mem.dir.find? (fun e => e.2.index == i) with
    | some (hp, e) => dirBits e hp
    | none => 0

/-- Local panels of a device in use (PANELS_USED). -/
def State.panelsUsed (s : State) (d : Nat) : Nat :=
  s.mem.dir.foldl (fun a e => a + (e.2.devA == d && e.2.copyA != 2).toNat + (e.2.mirrored && e.2.devB == d && e.2.copyB != 2).toNat) 0

/-- HOP registers (Tables 08-16, 08-17). -/
def State.hopView (s : State) (r : Nat) : Word :=
  let m := s.fld 0x150038 5 0
  match r with
  | 0x08 =>
    ((((s.rd Reg.hopStatus).withField 10 10 s.redundant.toNat).withField 15 14 s.depth).withField 22 16 s.lace.members.length).withField
      29 23 s.absentCount
  | 0x40 =>
    let p := s.parentsOf m
    word (s.memberState m + 2 ^ 8 * (p.1 % 64) + 2 ^ 16 * (p.2 % 64) + 2 ^ 32 * (s.panelsUsed m % 65536))
  | 0x48 => word (s.memberSerial m)
  | 0x58 => word (s.dirView % 2 ^ 64)
  | 0x60 => word (s.dirView / 2 ^ 64)
  | _ => s.rd (0x150000 + r)

/-! ### LLC, DRC, STK, PRK, PLC, FIL, SCR -/

/-- The number of a way state (Table 10-2). -/
def WaySt.num : WaySt → Nat
  | .on => 0 | .cleaning => 1 | .off => 2 | .disabled => 3 | .joining => 4

/-- Ways of all slices for which `p` holds. -/
def State.countWays (s : State) (p : Way → Bool) : Nat := (s.mem.ways.filter (fun e => p e.2)).length

/-- LLC registers (Tables 10-10, 10-11). -/
def State.llcView (s : State) (r : Nat) : Word :=
  match r with
  | 0x10 =>
    ((((s.rd Reg.llcStatus).withField 2 2 (s.countWays (fun w => w.st == .joining) != 0).toNat).withField 16 8
      (s.countWays (fun w => w.st == .disabled))).withField 31 24 (s.countWays (fun w => w.locked))).withField 40 32
      (s.countWays (fun w => w.st == .off))
  | 0x20 =>
    let sl := s.fld Reg.llcWaySel 4 0
    word ((List.range 16).foldl (fun a w => a + 2 ^ (4 * w) * ((s.way sl w).st.num + 8 * (s.way sl w).locked.toNat)) 0)
  | _ => s.rd (0x050000 + r)

/-- DRC_LAYOUT (Table 11-8). -/
def State.drcLayout (s : State) : Nat := if s.flag Reg.drcStatus 3 then 180224 + 229376 * 2 ^ 32 else 90112 + 93184 * 2 ^ 32

/-- Have the tables been loaded from the table area (Table 18-5, class TABLE): the items of step SELFTEST are done, and none is FATAL (R509)? -/
def State.tablesIn (s : State) : Bool := s.boot.items.has 8 && !s.boot.items.any (fun e => e.2.result == 2)

/-- RESERVE_MIN, from the self-test of the dies on: the fewest free spare rows of any bank of a die in service (Table 05-17). -/
def State.reserveMin (s : State) : Nat :=
  let rows := ((List.range 72).filter (fun d => (s.die d).st == .online)).flatMap (fun d => (List.range 64).map (fun b => s.spareRowsLeft d b))
  rows.foldl min (rows.headD 0)

/-- A BAS register of stack `k` (Table 05-22); `none` where the table has none. -/
def State.basReg (s : State) (k a : Nat) : Option Word :=
  let d := a / 2 ^ 20
  let o := a % 2 ^ 20
  let die := 8 * k + d
  if o % 8 ≠ 0 then none
  else if d = 15 then
    if o = 0 then some (word (0x0502 + 2 ^ 16 * (Config.trimRevision k).toNat))
    else if o = 8 || o = 0x10 || inArray o 0x100 16 then some (s.mem.bas.get (k * 2 ^ 24 + a) 0) else none
  else if 8 ≤ d then none
  else if o < 0x200 then some ((Config.ladder die (o / 128) (o / 8 % 16)).zeroExtend 64)
  else if o < 0x400 then
    let l := (o - 0x200) / 8
    let g := s.age die l
    some (word (g.index % 16 + bitAt (s.live l) 4 + bitAt (g.early && s.live l) 5 + 2 ^ 16 * (g.residual % 65536) + 2 ^ 32 * (g.fitTime % 2 ^ 32)))
  else if inArray o 0x400 4 then some ((Config.epochLadder die ((o - 0x400) / 8)).zeroExtend 64)
  else if inArray o 0x600 64 then
    let b := (o - 0x600) / 8
    some (word (s.spareRowsLeft die b % 2 ^ 20 + 2 ^ 20 * (s.mem.spareUsed.get (die * 64 + b) 0 % 2 ^ 20)))
  else none

/-- STK registers (Tables 05-12 to 05-21), less STK_BAS_DATA. -/
def State.stkView (s : State) (r : Nat) : Word :=
  if r = 8 && !s.tablesIn then 0
  else if r = 0x28 then (s.rd Reg.stkStatus).withField 35 16 (if s.boot.items.has 5 then s.reserveMin else 0)
  else s.rd (0x080000 + r)

/-- The number of a pricking STATE and of a ledger STATE. -/
def PrkSt.num : PrkSt → Nat
  | .unwritten => 0 | .mapping => 1 | .mapped => 2 | .moving => 3
/-- The number of a ledger STATE. -/
def LdgSt.num : LdgSt → Nat
  | .free => 0 | .mapped => 1 | .moveDst => 2 | .retired => 3

/-- A pricking entry (Table 06-1). -/
def Prk.bits (e : Prk) : Nat :=
  let low := e.ps % 2 ^ 25 + 2 ^ 25 * (e.rot % 512) + 2 ^ 34 * e.st.num + 2 ^ 36 * (e.hint % 8) + 2 ^ 40 * (if e.st = .moving then e.slot % 64 else 0)
  low + 2 ^ 56 * (crc8 (leBytes 7 low)).toNat

/-- A ledger entry (Table 06-3). -/
def Ldg.bits (e : Ldg) : Nat :=
  let low := e.st.num + 2 ^ 3 * (e.lsw % 2 ^ 25) + 2 ^ 28 * (e.progs % 2 ^ 32) + 2 ^ 60 * (e.heatR % 256) + 2 ^ 68 * (e.heatW % 256) + 2 ^ 76 * (e.cause % 16)
  low + 2 ^ 120 * (crc8 (leBytes 15 low)).toNat

/-- PRK registers (Table 06-17). -/
def State.prkView (s : State) (r : Nat) : Word :=
  match r with
  | 0x08 =>
    let mapped := (s.mem.prk.filter (fun e => e.2.st == .mapped || e.2.st == .moving)).length
    let written := (s.mem.prk.filter (fun e => e.2.st != .unwritten)).length
    word (mapped + 2 ^ 32 * (29360128 - written))
  | 0x18 => word (s.prk (s.fld 0x090010 24 0)).bits
  | 0x28 => word ((s.ldg (s.fld 0x090020 24 0)).bits % 2 ^ 64)
  | 0x30 => word ((s.ldg (s.fld 0x090020 24 0)).bits / 2 ^ 64)
  | _ => s.rd (0x090000 + r)

/-- PLC registers (Table 06-14). -/
def State.plcView (s : State) (r : Nat) : Word :=
  match r with
  | 0x38 => word ((s.dirtyLlc + s.dirtyTier) / 4096 + 2 ^ 32 * (s.dirtyTier / 4096))
  | 0x40 => word (s.tierSlots / 1024 + 2 ^ 32 * (s.mem.tier.length / 1024))
  | 0x48 => (s.rd Reg.plcGovStatus).withField 0 0 s.limiting.toNat
  | 0x50 => word (s.mem.gov.s29 + s.mem.gov.used)
  | 0x60 => word (s.percentUsed % 65536 + 2 ^ 16 * ((s.mem.ldg.foldl (fun a e => if e.2.st = .mapped then max a e.2.progs else a) 0) / 512))
  | _ => s.rd (0x0A0000 + r)

/-- The number of a tile state (Table 07-21). -/
def TileSt.num : TileSt → Nat
  | .free => 0 | .inUse => 1 | .programming => 2 | .failed => 3 | .rejoining => 4

/-- FIL registers (Tables 07-17 to 07-21). -/
def State.filView (s : State) (r : Nat) : Word :=
  let loaded (n : Nat) : Nat := if s.tablesIn then n else 0
  match r with
  | 0x18 =>
    (((s.rd Reg.filStatus).withField 20 0 (loaded s.tilesUsed)).withField 44 32 s.filet.jobs.length).withField 62 46 (loaded s.tilesFailed)
  | 0x28 => if !s.tablesIn then 0 else
    let t := s.tile (s.fld Reg.filTileSel 20 0)
    word (t.st.num + 2 ^ 3 * (t.matrix % 1024) + 2 ^ 13 * (t.row % 8) + 2 ^ 16 * (min 65535 (residUnits t.resid)) +
      2 ^ 32 * ((t.g * 4096).floor.toNat % 65536) + 2 ^ 48 * (if t.st = .free then 0 else min 65535 ((s.opTime - t.since) / 3600)))
  | _ => s.rd (0x0B0000 + r)

/-- SCR registers (Table 09-7). -/
def State.scrView (s : State) (r : Nat) : Word :=
  match r with
  | 0x10 => if s.tablesIn then s.rd Reg.scrStatus else (s.rd Reg.scrStatus).withField 47 16 0
  | 0x18 => word (s.passLeft / 1024 + 2 ^ 32 * ((s.mem.passEnd - s.now) / sec 1))
  | 0x20 => word (min 4096 (s.bobbin 2).pkts.length)
  | _ => s.rd (0x160000 + r)

/-! ### BOB, SEC, MBX -/

/-- BOB registers (Tables 12-5 to 12-7), less the windows. -/
def State.bobRegs (s : State) (r : Nat) : Word :=
  let x := s.bobbin (s.fld Reg.bobDescSel 15 0)
  match r with
  | 0x10 => (s.rd Reg.bobStatus).withField 17 0 s.freeCells
  | 0x20 => s.bobView
  | 0x28 => word (x.enabled.toNat + 2 ^ 8 * x.cellLimit + 2 ^ 32 * x.level)
  | 0x30 => word (x.pktLimit + 2 ^ 16 * x.staleTime)
  | _ => s.rd (0x0C0000 + r)

/-- SEC_KEY_VIEW (Table 13-15). -/
def State.keyView (s : State) : Nat :=
  let id := s.fld 0x0D0020 7 0
  let k := s.windowAlarms (s.keySlot id)
  let st := if id = 0 || id = 255 then 0 else k.reads
  st + bitAt k.locked 3 + bitAt k.active 4 + bitAt k.persist 5 + 2 ^ 8 * min 255 k.alarms + 2 ^ 32 * leAt ((k.kcv k.active).getD []) 4 4

/-- Key IDs that are LOCKED. -/
def State.lockedKeys (s : State) : List Nat := (s.mem.keys.filter (fun e => e.2.locked)).map (·.1)

/-- SEC registers (Tables 13-12 to 13-14). -/
def State.secView (s : State) (r : Nat) : Word :=
  if r = 0x10 then
    word ((s.rd Reg.secStatus).field 0 0 + bitAt (s.fld Reg.secAlarm 4 0 != 0) 1 +
      2 ^ 2 * (s.mem.keys.filter (fun e => e.2.st == .loaded || e.2.st == .rekey)).length + 2 ^ 10 * s.lockedKeys.length +
      bitAt s.mem.rekey.isSome 18)
  else if r = 0x28 then word s.keyView
  else if inArray r 0x48 4 then
    let i := (r - 0x48) / 8
    word (bitSet ((s.lockedKeys.filter (fun k => k / 64 == i)).map (· % 64)))
  else s.rd (0x0D0000 + r)

/-- MBX_VIEW (Table 14-15). -/
def Mailbox.view (b : Mailbox) : Nat :=
  let who : Nat × Nat := match b.owner with
    | .none => (0, 0) | .conn id _ => (1, id) | .lace _ id _ => (1, id) | .smbus => (2, 0) | .console => (3, 0)
  b.st.num + 2 ^ 3 * who.1 + 2 ^ 8 * (b.seg % 256) + 2 ^ 16 * (b.code % 65536) + 2 ^ 32 * (who.2 % 65536) + 2 ^ 48 * (if b.st = .busy then b.progress % 65536 else 0)

/-- MBX registers (Table 14-13). -/
def State.mbxRegs (s : State) (r : Nat) : Word :=
  if r = 0x10 then
    let owned := bitSet ((s.mbx.boxes.filter (fun e => e.2.st != .idle)).map (·.1))
    ((s.rd Reg.mbxStatus).withField 15 0 owned).withField 16 16 s.hkpUp.toNat
  else if 0x1000 ≤ r then word (s.box ((r - 0x1000) / 0x40)).view
  else s.rd (0x0E0000 + r)

/-! ### KEP, JNL, PWR, THM, SMP, PMC -/

/-- KEP_WEAR_VIEW. -/
def State.wearView (s : State) : Nat :=
  let o := s.fld Reg.kepWearSel 23 0
  let n := s.kept.counts.get o 0
  n % 2 ^ 32 + bitAt (decide (100000 ≤ n)) 32 + bitAt (decide (90000 ≤ n)) 33 + bitAt (keepRegs.contains o) 34

/-- KEP registers (Tables 14-13, 14-16). -/
def State.kepView (s : State) (r : Nat) : Word :=
  match r with
  | 0x08 => ((s.rd Reg.kepStatus).withField 0 0 s.kept.wp.toNat).withField 1 1 s.kept.factory.toNat
  | 0x28 => word s.wearView
  | _ => s.rd (0x0F0000 + r)

/-- JNL registers (Table 14-13). -/
def State.jnlView (s : State) (r : Nat) : Word :=
  match r with
  | 0x08 =>
    let h := s.jnlHeld
    word (h + bitAt (decide (7680 ≤ h)) 14 + bitAt s.jnlFull 15 + 2 ^ 16 * (h - 8176))
  | 0x10 =>
    let oldest := match s.kept.journal with | e :: _ => e.seq | [] => s.kept.nextSeq
    word (s.kept.nextSeq % 2 ^ 32 + 2 ^ 32 * (oldest % 2 ^ 32))
  | _ => s.rd (0x100000 + r)

/-- SOURCE of the hold-up time: 0 measured, 1 override, 2 failed. -/
def State.holdSource (s : State) : Nat := if s.flag Reg.plcCeilingOvr 0 then 1 else if s.pwr.holdFail ≠ 0 then 2 else 0

/-- PWR registers (Tables 15-9, 15-10). -/
def State.pwrView (s : State) (r : Nat) : Word :=
  match r with
  | 0x08 =>
    ((((s.rd Reg.pwrStatus).withField 7 4 s.power.num).withField 9 9 (s.pwr.lcap != 0).toNat).withField 12 12 (!s.pwr.hold).toNat).withField
      14 14 s.pwr.autoDue.isSome.toNat
  | 0x20 => word (s.pwr.tH % 2 ^ 32 + 2 ^ 32 * s.holdSource)
  | 0x30 => Config.coreTarget.zeroExtend 64
  | _ => s.rd (0x110000 + r)

/-- THM registers (Table 15-9). -/
def State.thmView (s : State) (r : Nat) : Word :=
  match r with
  | 0x10 =>
    word (field16 s.hubTemp + 2 ^ 16 * field16 s.stackTemp + 2 ^ 32 * s.level + bitAt s.throttling 39 + bitAt (!s.pwr.warn.isEmpty) 40 +
      bitAt (!s.pwr.action.isEmpty) 41 + bitAt (s.flag Reg.thmStatus 42) 42 + bitAt s.pwr.sweeping 43)
  | 0x20 =>
    let i := s.fld Reg.thmSel 4 0
    let age := match s.pwr.sweepAt with | some t => min 65535 ((s.now - t) / ms 1) | none => 65535
    word (field16 (s.pwr.model.getD i 0) + 2 ^ 16 * field16 (s.pwr.sensor.getD i 0) + 2 ^ 32 * field16 (s.rate i) + 2 ^ 48 * age)
  | _ => s.rd (0x120000 + r)

/-- SMP registers (Tables 17-8, 17-10). -/
def State.smpView (s : State) (r : Nat) : Word :=
  if r = 0x10 then
    let n := s.kept.slots.length
    word (n % 4096 + bitAt (decide (2048 ≤ n)) 12 + bitAt s.clearing 13 + bitAt (s.flag Reg.smpStatus 14) 14 +
      2 ^ 16 * (s.kept.slots.filter (fun e => e.2.waiting != 0)).length)
  else if 0x100 ≤ r then word (leAt (s.slotBytes (s.fld Reg.smpSel 10 0)) (r - 0x100) 8)
  else s.rd (0x130000 + r)

/-- PMC registers (Table 17-8). -/
def State.pmcView (s : State) (r : Nat) : Word :=
  if r = 8 then (s.rd Reg.pmcStatus).withField 1 1 (s.fld Reg.pmcSampleCfg 0 0)
  else if 0x1000 ≤ r then s.counter ((r - 0x1000) / 8)
  else s.rd (0x140000 + r)

/-! ### Every register -/

/-- Does an offset lie in a window of a port or link that the present mode or role does not have (R49, R298, R547)? -/
def State.deadWindow (s : State) (off : Nat) : Bool :=
  let r := off % 0x10000
  match off / 0x10000 with
  | 1 => decide (0x1000 ≤ r) && !inArray (r % 0x1000) 0x1C0 3 && decide (s.portCount ≤ (r - 0x1000) / 0x1000) ||
      decide (0x1000 ≤ r) && inArray (r % 0x1000) 0x1C0 3 && !s.hostRole
  | 2 => decide (0x1000 ≤ r) && decide (s.laceLinks ≤ (r - 0x1000) / 0x100)
  | _ => false

/-- Is an offset that of ETH_MAC_ADDR? -/
def macWindow (off : Nat) : Bool := off / 0x10000 == 1 && decide (0x011000 ≤ off) && off % 0x1000 == 0x10

/-- Is an offset that of an ETH_PORT_STATUS? -/
def statusWindow (off : Nat) : Bool := off / 0x10000 == 1 && decide (0x011000 ≤ off) && off % 0x1000 == 8

/-- A register of a dead window: zero, but for ROLE_MODE where the host lanes are no host ports (R25). -/
def State.deadView (s : State) (off : Nat) : Word :=
  if statusWindow off && !s.hostRole then (0 : Word).withField 11 10 (s.fld off 11 10) else 0

/-- ETH registers: the address of a port, and FEC_DEGRADED in its status (Tables 02-3, 02-6). -/
def State.ethView (s : State) (off : Nat) : Word :=
  let p := (off % 0x10000 - 0x1000) / 0x1000
  if macWindow off then word (s.portMac p)
  else if statusWindow off then (s.rd off).withField 6 6 (s.fecDegraded p).toNat
  else s.rd off

/-- What a register holds, as any path reads it where its block is reachable. -/
def State.view (s : State) (off : Nat) : Word :=
  let r := off % 0x10000
  if s.deadWindow off then s.deadView off
  else if r = 0 then word (blockId (off / 0x10000))
  else match off / 0x10000 with
    | 0x00 => s.glbView r
    | 0x01 => s.ethView off
    | 0x02 => if r = 0x10 then word s.laceStatus else if 0x1000 ≤ r then s.linkView ((r - 0x1000) / 0x100) (r % 0x100) else s.rd off
    | 0x03 => s.shtRegs r
    | 0x04 => word s.optView
    | 0x05 => s.llcView r
    | 0x07 => if r = 0x18 then word s.drcLayout else s.rd off
    | 0x08 => s.stkView r
    | 0x09 => s.prkView r
    | 0x0A => s.plcView r
    | 0x0B => s.filView r
    | 0x0C => s.bobRegs r
    | 0x0D => s.secView r
    | 0x0E => s.mbxRegs r
    | 0x0F => s.kepView r
    | 0x10 => s.jnlView r
    | 0x11 => s.pwrView r
    | 0x12 => s.thmView r
    | 0x13 => s.smpView r
    | 0x14 => s.pmcView r
    | 0x15 => s.hopView r
    | 0x16 => s.scrView r
    | _ => s.rd off

end Sys2Proof.Machine
end

