-- ==== Sys2Proof/Machine/Save.lean ====
section
/-!
DEFINITION. Dirty data on the way down and up (R144, R186, R190, R412 to R414, R484, R488, R507, R508): flushing it to the medium, writing
and replaying a save generation, and what a device loses with its rails.
-/
namespace Sys2Proof.Machine

/-! ### To the medium -/

/-- Modified lines of agents go back to their homes in the LLC (R339). -/
def State.agentsBack (s : State) : State :=
  let owned := s.mem.agents.filter (fun e => e.2.st == .m || e.2.st == .o)
  let s1 := owned.foldl (fun t e =>
    t.install (e.1 % 2 ^ 56) e.2.data 15 e.2.poison 0) s
  let clear (l : LlcLine) : LlcLine := { l with dir := [] }
  { s1 with mem := { s1.mem with agents := [], txns := [], net := [], llc := s1.mem.llc.map (fun e => (e.1, clear e.2)) } }

/-- A stripe is programmed to its end. -/
def State.programNow (s : State) (p : Nat) (img : LineImg) : State :=
  let s1 : State := { s with mem := { s.mem with
    programs := s.mem.programs.drop p
    med := s.mem.med.put p { img := img, label := s.epochLabel } } }
  ((s1.addProgs (p / 512) 1).uncopy p).count (Reg.plcCount 1) 1

/-- A program is paid for: none but a user program counts in the day bucket, and outside an orderly SAVE it takes a token, `none` where there is
none (R200, R201, R484). -/
def State.payFor (s : State) (unpaid paced : Bool) : Option State :=
  if unpaid then some s
  else if paced then s.takeToken
  else some { s with mem := { s.mem with gov := { s.mem.gov with used := s.mem.gov.used + 1 } } }

/-- The mapping of logical swatch `lsw` exists from here on. -/
def State.mapNow (s : State) (lsw : Nat) : State :=
  if (s.prk lsw).st = .unwritten then (s.startMapping lsw).mappingDone lsw
  else if (s.prk lsw).st = .mapping then s.mappingDone lsw else s

/-- A dirty line of the DRAM tier goes to the medium (R188, R190); the Bool says whether it is clean now. -/
def State.flushTier (s : State) (paced : Bool) (ln : Nat) (t : TierLine) : Bool × State :=
  if t.dirty = 0 then (true, s)
  else match s.localLine ln with
    | none => (true, s)
    | some l =>
      let s1 := s.mapNow (l / 512)
      match s1.physLine l, s1.payFor t.unpaid paced with
      | some p, some s2 =>
        let s3 := (s2.dramAccess (if paced then 1 else 7) false (s2.slotAddr t.slot)).programNow p t.img
        (true, { s3 with mem := { s3.mem with tier := s3.mem.tier.put ln { t with dirty := 0, unpaid := false } } })
      | _, none => (false, s1.govWait)
      | none, _ => (false, s1)

/-- The image a dirty LLC line goes down with: encrypted anew, or under its present counters where its MINOR is full (log entry 24). -/
def State.downImage (s : State) (ln l : Nat) (c : LlcLine) : Option (LineImg × State) :=
  if s.minorFull ln l then some (s.imageNow ln l c, s) else s.sealLine ln l c.data c.poison c.cause

/-- A line of the LLC is clean. -/
def State.markClean (s : State) (ln : Nat) : State :=
  let clean (l : LlcLine) : LlcLine := { l with dirty := 0, unpaid := false }
  { s with mem := { s.mem with llc := s.mem.llc.modify ln clean, evb := s.mem.evb.modify ln clean } }

/-- A dirty line of the LLC goes to the medium; the Bool says whether it is clean now. -/
def State.flushLlc (s : State) (paced : Bool) (ln : Nat) (c : LlcLine) : Bool × State :=
  if c.dirty = 0 then (true, s)
  else if lineKeyId ln = 255 then
    (true, ({ s with mem := { s.mem with intern := s.mem.intern.set (lineNo ln) c.data 0 } } : State).markClean ln)
  else match s.localLine ln with
    | none => (true, s.markClean ln)
    | some l =>
      let s1 := s.mapNow (l / 512)
      match s1.physLine l, s1.payFor c.unpaid paced with
      | some p, some s2 => match s2.downImage ln l c with
        | none => (false, s1)
        | some (img, s3) =>
          let s4 := s3.programNow p img
          (true, ({ s4 with mem := { s4.mem with tier := s4.mem.tier.drop ln } } : State).markClean ln)
      | _, none => (false, s1.govWait)
      | none, _ => (false, s1)

/-- An upper node after child `c` was written out: MINOR advances; past 63, MAJOR does and every MINOR becomes 0 (R410). -/
def TreeNode.childOut (n : TreeNode) (c : Nat) : TreeNode :=
  if n.minors.get c 0 = 63 then { n with major := n.major + 1, minors := [] } else { n with minors := n.minors.put c (n.minors.get c 0 + 1) }

/-- The tree above L0: its nodes, the root counters, and how often a MINOR of a node was full. -/
structure Upper where
  nodes : Table TreeNode
  root : Table Nat
  full : Nat

/-- Nodes of level `lv` are written out of the counter cache: the nodes above them, or the root above L4, count it (R407, R410). -/
def nodesOut (lv : Nat) (nodes : List Nat) (u : Upper) : Upper :=
  nodes.foldl (fun u i =>
    if lv = 4 then { u with root := u.root.put i (u.root.get i 0 + 1) }
    else
      let k := (lv + 1) * 2 ^ 32 + i / 64
      let n := u.nodes.get k { major := 0, ver := false, minors := [] }
      { u with nodes := u.nodes.put k (n.childOut (i % 64)), full := u.full + (n.minors.get (i % 64) 0 / 63) }) u

/-- Dirty L0 nodes go home, and with them every node above that they change, level by level (R410, R412, R413). -/
def treeOut (l0 : List Nat) (u : Upper) : Upper :=
  let above (l : List Nat) : List Nat := (l.map (· / 64)).eraseDups
  nodesOut 4 (above (above (above (above l0)))) (nodesOut 3 (above (above (above l0))) (nodesOut 2 (above (above l0)) (nodesOut 1 (above l0) (nodesOut 0 l0 u))))

/-- The nodes of levels 0 to 2 that go home with dirty L0 nodes, as level and index. -/
def homeNodes (l0 : List Nat) : List (Nat × Nat) :=
  let above (l : List Nat) : List Nat := (l.map (· / 64)).eraseDups
  l0.map (fun i => (0, i)) ++ (above l0).map (fun i => (1, i)) ++ (above (above l0)).map (fun i => (2, i))

/-- Did the MAJOR of the parent of a node advance, so that the node is tagged again (R410)? -/
def State.retagged (s t : State) (lv i : Nat) : Bool := (s.treeNode (lv + 1) (i / 64)).major != (t.treeNode (lv + 1) (i / 64)).major

/-- Every dirty node of the tree goes home, with the nodes above it that change; their NODE_TAGs are formed anew, and those of every child of a
node whose MAJOR advanced (R410, R413). -/
def State.treeHome (s : State) : State :=
  let u := treeOut s.mem.dirtyNodes { nodes := s.mem.upper, root := s.mem.root, full := 0 }
  let t : State := { s with mem := { s.mem with dirtyNodes := [], upper := u.nodes, root := u.root } }
  let again := (s.mem.tags.filter (fun e => s.retagged t (e.1 / 2 ^ 32) (e.1 % 2 ^ 32))).map (fun e => (e.1 / 2 ^ 32, e.1 % 2 ^ 32))
  let tags := (homeNodes s.mem.dirtyNodes ++ again).foldl (fun (a : Table (BitVec 64)) e => a.put (nodeKey e.1 e.2) (t.tagOf e.1 e.2)) s.mem.tags
  ({ t with mem := { t.mem with tags := tags } } : State).count (Reg.secCount 4) u.full

/-- Dirty tree data is written home where it passes C / 16 (R412). -/
def State.treeTick (s : State) : State := if s.ceiling * 16 < 64 * s.mem.dirtyNodes.length then s.treeHome else s

/-- The cleaner programs the lines of a list with `f` until one has to wait; the Bool says whether none had to. -/
def State.cleanAll {α : Type} (s : State) (f : State → Nat → α → Bool × State) (l : List (Nat × α)) : Bool × State :=
  l.foldl (fun a e => if a.1 then f a.2 e.1 e.2 else a) (true, s)

/-- Agents write back, every program in progress ends, and dirty lines go to the medium, in the pace of the governor or outside it; tree nodes go
home. The Bool says whether nothing is dirty any more (R190, R484). -/
def State.flushAll (s : State) (paced : Bool) : Bool × State :=
  let s1 := s.agentsBack
  let s2 := s1.mem.programs.foldl (fun t e => { t with mem := { t.mem with programs := t.mem.programs.drop e.1, med := t.mem.med.put e.1 e.2.stripe } }) s1
  let r3 := s2.cleanAll (fun t ln c => t.flushTier paced ln c) s2.mem.tier
  let r4 := if r3.1 then r3.2.cleanAll (fun t ln c => t.flushLlc paced ln c) (r3.2.mem.llc ++ r3.2.mem.evb) else r3
  (r4.1, r4.2.treeHome)

/-- The LLC keeps its lines, all of them clean; eviction buffers and conversions are empty. -/
def State.allClean (s : State) : State :=
  let clean (l : LlcLine) : LlcLine := { l with dirty := 0, unpaid := false }
  { s with mem := { s.mem with llc := s.mem.llc.map (fun e => (e.1, clean e.2)), evb := [], conv := [] } }

/-! ### The save area (R413, R488) -/

/-- Dirty lines as the DRAM tier would hold them: LLC first, then programs in progress, then the DRAM tier. The tree does not change
(R413). -/
def State.dirtyImages (s : State) : List (Nat × TierLine) :=
  let llc := (s.mem.llc ++ s.mem.evb).filterMap (fun e =>
    if e.2.dirty = 0 || lineKeyId e.1 = 255 then none
    else (s.localLine e.1).map (fun l => (e.1, ({ slot := 0, img := s.imageNow e.1 l e.2, dirty := e.2.dirty, unpaid := e.2.unpaid } : TierLine))))
  let prog := s.mem.programs.map (fun e => (e.2.line, ({ slot := 0, img := e.2.stripe.img, dirty := 15, unpaid := !e.2.user } : TierLine)))
  let tier := s.mem.tier.filter (fun e => e.2.dirty != 0)
  (llc ++ prog ++ tier).foldl (fun a e => if a.any (fun x => x.1 == e.1) then a else a ++ [e]) []

/-- Bytes of a save generation's records: 512 a node, 272 a line. -/
def SaveGen.mib (g : SaveGen) : Nat := (g.nodes.length * 512 + g.lines.length * 272) / 2 ^ 20

/-- Dirty internal lines of the LLC (R329). -/
def State.dirtyInternal (s : State) : List (Nat × LineBits) :=
  (s.mem.llc ++ s.mem.evb).filterMap (fun e =>
    if e.2.dirty != 0 && lineKeyId e.1 == 255 then some (lineNo e.1, e.2.data) else none)

/-- The unconsumed save generation, if there is one (R507). -/
def State.unconsumed (s : State) : Option SaveGen :=
  match s.pwr.save with | some g => if s.pwr.consumed < g.gen then some g else none | none => none

/-- Is an unconsumed save generation waiting for its replay, which a FATAL item of the self-test holds back (R510)? -/
def State.heldBack (s : State) : Bool := s.unconsumed.isSome && s.boot.items.any (fun e => e.2.result == 2)

/-- The device writes a save generation of which `written` records reach the save area, the tree data first, the internal lines last; the
commit record follows when all did. The area holds no more lines than its 20 GiB (R129). A generation that still waits for its replay stays as it is
(R510). -/
def State.saveDirty (s0 : State) (written : Nat) : State :=
  let s := s0.agentsBack
  let records := min written (saveAreaLines - s.mem.dirtyNodes.length)
  let nodes : Table TreeNode := s.mem.dirtyNodes.foldl (fun (a : Table TreeNode) n =>
    match s.mem.nodes.find n with | some x => a.put n x | none => a) []
  let lines := s.dirtyImages
  let n := nodes.length
  let kept := lines.take (records - n)
  let own := s.dirtyInternal
  let intern := (own.take (records - n - lines.length)).foldl (fun (t : Table LineBits) e => t.set e.1 e.2 0) s.mem.intern
  let g : SaveGen := {
    gen := s.pwr.gen + 1, commit := decide (n + lines.length + own.length ≤ records), nodes := List.take records nodes
    lines := kept.foldl (fun (a : Table TierLine) e => a.put e.1 e.2) []
    lostNodes := Table.keys (List.drop records nodes), lostLines := Table.keys (lines.drop (records - n)) }
  let t : State := { s with mem := { s.mem with intern := intern } }
  if s.heldBack then t else { t with pwr := { t.pwr with save := some g, gen := s.pwr.gen + 1 } }

/-! ### What is lost with the rails -/

/-- Mailbox commands, connections, queues, caches and everything else that power holds is gone; tables, the medium, the tiles and the keep
stay. Tree nodes newer than their home that no save generation holds are lost (R414). A move that has not switched is not resumed, and one
that has is complete (R196); a zero fill leaves its swatch UNWRITTEN. Residuals restart from zero (Table 07-21); of a tile program that was cut
short a new tile is FREE again, and one in place rejoins after two audits (R235). -/
def State.loseVolatile (s : State) : State :=
  let saved := match s.pwr.save with
    | some g => if s.pwr.consumed < g.gen then Table.keys g.nodes ++ g.lostNodes else []
    | none => []
  let gone := s.mem.dirtyNodes.filter (fun n => !saved.contains n)
  let unload (k : KeySlot) : KeySlot :=
    { k with key0 := k.kept0, key1 := k.kept1, alarms := 0, windowEnd := 0
             st := if k.persist || k.st = .empty then k.st else .absent }
  let still (e : Prk) : Prk := match e.st with
    | .moving => { e with st := .mapped, slot := 0 }
    | .mapping => { e with st := .unwritten }
    | _ => e
  let switchedTo (ps : Nat) : Bool := s.mem.moves.any (fun m => m.2.switched && m.2.dst == ps)
  let left (ps : Nat) : Bool := s.mem.moves.any (fun m => m.2.switched && m.2.src == ps) || s.mem.zeroFill.any (fun z => z.2 == ps)
  let after (ps : Nat) (d : Ldg) : Ldg :=
    if switchedTo ps then { d with st := .mapped } else if left ps || d.st = .moveDst then { d with st := .free, lsw := 0 } else d
  let idle (m : Matrix) : Matrix := { m with waits := [], mailbox := none }
  let cut (e : Nat × Tile) : Option (Nat × Tile) :=
    if e.2.st ≠ .programming then some (e.1, { e.2 with resid := 0, badRuns := 0 })
    else if s.filet.progs.any (fun p => p.inPlace && p.tiles.contains e.1) then some (e.1, { e.2 with st := .rejoining, proofs := 2, resid := 0 })
    else none
  let tiles := s.filet.tiles.filterMap cut
  { s with
    timers := []
    host := { s.host with
      txq := [], pause := [], xoff := [], inbox := [], train := [], closing := [], fecBad := [], ctrlRate := [], sas := [], conns := [], quarantine := []
      unknownRate := (0, 0), ops := [], peak := [], sampled := [] }
    mbx := { s.mbx with boxes := [], sigFails := [], sigClosed := none, jtagNonce := none, jtagClosed := none, console := none }
    mem := { s.mem with
      llc := [], evb := [], plru := [], agents := [], txns := [], net := [], maint := none, domUp := none, domSecond := false
      senses := [], programs := [], flitReplays := [], retrain := [], tier := [], dramReads := [], dram := .idle, probing := [], corrWin := [], wayCorr := []
      trainFails := [], wantReturn := [], dirtyNodes := [], conv := [], moves := [], zeroFill := [], filled := [], moveCredit := 0, cleaning := false, rotation := [], alarms := [], gaps := []
      lost := s.mem.lost ++ gone.filter (fun n => !s.mem.lost.contains n)
      prk := (s.mem.prk.map (fun e => (e.1, still e.2))).filter (fun e => !decide (e.2 = Prk.unwritten))
      ldg := (s.mem.ldg.map (fun e => (e.1, after e.1 e.2))).filter (fun e => !decide (e.2 = Ldg.unused))
      med := s.mem.med.filter (fun x => !left (x.1 / 512) && !((s.ldg (x.1 / 512)).st == .moveDst && !switchedTo (x.1 / 512)))
      keys := s.mem.keys.map (fun e => (e.1, unload e.2)) }
    lace := { s.lace with
      links := [], routes := [], strangers := [], segments := [], used := [], standbyCurrent := false, removing := none, splits := []
      refs := [], resyncs := [], marks := [], scheds := [], jobs := [], discover := none, handover := none, stopped := false
      members := s.lace.members.map (fun e => (e.1, { e.2 with present := false, parents := [] })) }
    filet := { s.filet with progs := [], jobs := [], matrices := s.filet.matrices.map (fun e => (e.1, idle e.2)), tiles := tiles }
    bob := { bobs := [], wins := [] } }

/-- Heat restarts from zero (R176). -/
def State.coolAll (s : State) : State :=
  let ldg := (s.mem.ldg.map (fun e => (e.1, ({ e.2 with heatR := 0, heatW := 0 } : Ldg)))).filter (fun e => !decide (e.2 = Ldg.unused))
  { s with mem := { s.mem with ldg := ldg } }

/-- Without a completed shutdown, what the table area holds of the periodically written fields comes back (R175, R177, R202). -/
def State.fromTable (s : State) : State :=
  let c := s.mem.saved
  { s with mem := { s.mem with
      gov := { s.mem.gov with used := c.used, days := c.days }
      ldg := (s.mem.ldg.map (fun e => (e.1, { e.2 with progs := c.progs.get e.1 0 }))).filter (fun e => !decide (e.2 = Ldg.unused)) } }

/-! ### Replay (R508) -/

/-- The replayed dirty data beyond the new DRAM dirty limit is programmed to the medium, with the tokens of the start. -/
def State.cleanExcess (s : State) : Nat → State
  | 0 => s
  | fuel + 1 =>
    if s.dirtyTier ≤ s.tierDirtyLimit then s
    else match s.coldestDirty with
      | none => s
      | some (ln, t) =>
        let r := s.flushTier true ln t
        if r.1 then State.cleanExcess r.2 fuel else r.2

/-- The lines of the save area that records take, from record `i` on: two for a node, one for a line (R129; log entry 170). -/
def SaveGen.stripes (g : SaveGen) (i : Nat) : List Nat :=
  if i < g.nodes.length then [2 * i, 2 * i + 1] else [g.nodes.length + i]

/-- Can record `i` of a generation not be read, since a stripe of it lies on two dies that are FAILED (R138, R145)? -/
def State.recordLost (s : State) (g : SaveGen) (i : Nat) : Bool :=
  (g.stripes i).any (fun p => decide (2 ≤ ((List.range 9).filter (fun f => (s.die (fragDie p f)).st == .failed)).length))

/-- The generation as the save area gives it: records that cannot be read are missing (R414). -/
def State.readable (s : State) (g : SaveGen) : SaveGen :=
  let n := g.nodes.length
  let bn := (List.range n).filter (fun i => s.recordLost g i)
  let bl := (List.range g.lines.length).filter (fun i => s.recordLost g (n + i))
  let at' (l : List Nat) (keys : List Nat) : List Nat := l.filterMap (fun i => keys[i]?)
  let goneN := at' bn g.nodes.keys
  let goneL := at' bl g.lines.keys
  { g with nodes := g.nodes.filter (fun e => !goneN.contains e.1), lines := g.lines.filter (fun e => !goneL.contains e.1),
           lostNodes := g.lostNodes ++ goneN, lostLines := g.lostLines ++ goneL }

/-- Replay of a save generation: nodes to their homes, lines to the DRAM tier as dirty data; missing nodes are lost and missing lines are
poisoned with cause SAVE (R119, R414, R489). -/
def State.replaySave (s : State) (g : SaveGen) : State :=
  let g := s.readable g
  let s1 : State := { s with mem := { s.mem with
    nodes := g.nodes.foldl (fun (a : Table TreeNode) e => a.put e.1 e.2) s.mem.nodes
    dirtyNodes := Table.keys g.nodes
    lost := g.lostNodes ++ s.mem.lost.filter (fun n => !g.lostNodes.contains n && !g.nodes.has n)
    tier := (List.range g.lines.length).foldl (fun (a : Table TierLine) i =>
      match g.lines[i]? with | some e => a.put e.1 { e.2 with slot := i } | none => a) [] } }
  let s2 := g.lostLines.foldl (fun t ln => t.poisonLine ln 1) s1
  let s3 := (s2.cleanExcess s2.mem.tier.length).raise 0xE003 s2.self g.mib
  if g.commit then s3 else (s3.count (Reg.pwrCount 9) 1).raise 0xC003 s3.self 0

end Sys2Proof.Machine
end

