-- ==== Sys2Proof/Machine/Mode.lean ====
section
/-!
DEFINITION. The modes of service (R490, R491, R493), throttling (R497, R498), sensor sweeps and the thermal model (R494 to R496).
-/
namespace Sys2Proof.Machine

/-! ### Modes -/

/-- The device serves: FULL, ECONOMY or IDLE. -/
def State.inService (s : State) : Bool := s.power == .full || s.power == .economy || s.power == .idle

/-- A filet job runs. -/
def State.jobRuns (s : State) : Bool := s.filet.jobs.any (fun e => e.2.st ≤ 1)

/-- ECONOMY begins: WAYS_OFF takes the value ECON_WAYS (R493). -/
def State.toEconomy (s : State) : State :=
  if s.power = .full then
    ({ s with power := .economy, pwr := { s.pwr with waysOff := s.fld Reg.llcCfg 3 0 } } : State).llcCfgEffect
      (word (s.fld Reg.pwrCfg 43 40))
  else s

/-- ECONOMY ends: WAYS_OFF returns to what it was, and L_cap is 0 (R493). -/
def State.toFull (s : State) : State :=
  if s.power = .economy then ({ s with power := .full, pwr := { s.pwr with lcap := 0 } } : State).llcCfgEffect (word s.pwr.waysOff)
  else s

/-- IDLE begins (R373, R491, R492): nothing is dirty; the DRAM tier is empty, DRAM refreshes itself, and LLC ways 0 to 14 lose their lines. -/
def State.enterIdle (s0 : State) : State :=
  let s := s0.allClean
  let s1 : State := { s with
    power := .idle
    mem := { s.mem with tier := [], dram := .idle, llc := s.mem.llc.filter (fun e => e.2.way == 15) }
    pwr := { s.pwr with idling := false } }
  ((s1.setFlag Reg.drcStatus 1).setFld Reg.drcStatus 23 16 0xFE).count (Reg.pwrCount 8) 1

/-- The cleaner's work before IDLE, in the pace of the wear governor (R190, R201): IDLE begins once nothing is dirty. -/
def State.idleWork (s : State) : State :=
  let r := s.flushAll true
  if r.1 then r.2.enterIdle else r.2

/-- IDLE is to be entered (R491). -/
def State.toIdle (s : State) : State :=
  ({ s with pwr := { s.pwr with idling := true, prevMode := if s.power = .economy then 1 else 0 } } : State).idleWork

/-- GOV_TOKEN_TICK (R201): the rate and the tokens of the governor, and the cleaner that runs within them, down to CLEAN_LO (R188) or, before
IDLE, to its end (R190). -/
def execGovTokenTick (s : State) : Result :=
  .next (s.periodic Timer.govTick (ms 1) (fun t => if t.pwr.idling then t.govTick.idleWork else t.govTick.cleaner))

/-- A write of PWR_MODE, also by POWER_MODE_SET; `none` where IDLE cannot be entered (R501). -/
def State.modeWrite (s : State) (v : Word) : Option State :=
  let m := v.field 1 0
  let wr (t : State) : State := (t.setFld Reg.pwrMode 1 0 m).setFld Reg.pwrMode 23 8 (v.field 23 8)
  if m = 2 then
    if s.power = .idle || s.pwr.idling then some (wr s)
    else if s.inService && !s.jobRuns then some (wr s.toIdle) else none
  else if s.inService then
    let t := wr s.wake
    some (if m = 1 then t.toEconomy else t.toFull)
  else some (wr s)

/-- Does a command bring a stitch into a transport engine, or from the manager? -/
def bringsStitch : Instr → Bool
  | .dataFrame _ => true
  | .forward _ _ => true
  | _ => false

/-- IDLE_AFTER_EXPIRE (R491): IDLE_AFTER seconds without a stitch and a filet job; a stitch of the same cycle wins (R18). -/
def execIdleAfterExpire (s : State) : Result :=
  .next (
    let t := s.fld Reg.pwrCfg 39 28
    if (s.power = .full || s.power = .economy) && t != 0 && s.host.ops.isEmpty && !s.jobRuns && !s.pwr.idling && s.fires (s.host.lastWork + sec t) bringsStitch then s.toIdle
    else s)

/-! ### Throttling (R497, R498) -/

/-- What follows a change of the level L from `old`: the event at its beginning, NOTICE SLOW to every connection that sent a stitch in the
past second, and the lifting of the request when L returns to 0. -/
def State.levelChanged (s : State) (old : Nat) : State :=
  let l := s.level
  if l = old then s
  else
    let cause := if s.pwr.lth < s.pwr.lcap then 2 else 1
    let grace := s.fld Reg.thmCfg 33 24
    if l = 0 then
      let s1 := s.host.conns.foldl (fun t e => if e.2.slowCause = 1 || e.2.slowCause = 2 then t.slowLift e.1 else t) s
      let s2 := (s1.report (.slow s.self 1 0 0xFFFFFFFF 0xFFFFFFFF)).report (.slow s.self 2 0 0xFFFFFFFF 0xFFFFFFFF)
      { s2 with pwr := { s2.pwr with slowAt := [] } }
    else
      let s1 := if old = 0 then (s.count (Reg.thmCount 1) 1).raise 0xD001 s.self cause else s
      let hit := s1.host.conns.filter (fun e => e.2.st == .opened && decide (0 < (s1.lastSecond e.2).1) &&
        (match s1.pwr.slowAt.find e.1 with | some t => s1.due (t + ms 100) | none => true))
      hit.foldl (fun t e =>
        let u := (t.slowShare t.self e.1 cause grace (100 - l)).count (Reg.thmCount 2) 1
        { u with pwr := { u.pwr with slowAt := u.pwr.slowAt.put e.1 u.now } }) (s1.report (.slow s1.self cause grace (100 - l) (100 - l)))

/-- Is the hub or stack temperature `below` °C under its throttle limit or less? -/
def State.nearLimit (s : State) (below : Int) : Bool :=
  decide (((s.fld Reg.thmCfg 15 8 : Int) - below) * 16 ≤ s.hubTemp) || decide (((s.fld Reg.thmCfg 23 16 : Int) - below) * 16 ≤ s.stackTemp)

/-- The thermal level 100 ms on (R497). With COMPAT set L_th is not used (R499). -/
def State.thermTick (s : State) : State :=
  let hot := s.nearLimit 0 || !s.pwr.action.isEmpty
  let cool := decide (s.hubTemp ≤ ((s.fld Reg.thmCfg 15 8 : Int) - 3) * 16) && decide (s.stackTemp ≤ ((s.fld Reg.thmCfg 23 16 : Int) - 3) * 16) &&
    s.pwr.action.isEmpty
  let from' := if cool then some (s.pwr.coolFrom.getD s.now) else none
  let rested := match from' with | some t => s.due (t + sec 1) | none => false
  let lth := if s.flag Reg.thmCfg 0 then 0
    else if hot then min 90 (s.pwr.lth + 10) else if rested then s.pwr.lth - 10 else s.pwr.lth
  let s1 : State := { s with pwr := { s.pwr with lth := lth, coolFrom := from' } }
  s1.levelChanged s.level

/-- THERMAL_LEVEL_TICK (R497, R498). -/
def execThermalLevelTick (s : State) : Result := .next (s.periodic Timer.thermTick (ms 100) State.thermTick)

/-- The power cap in force, W (R493): the TDP of 118 W in FULL, or where no cap is set. -/
def State.capWatts (s : State) : Nat :=
  let c := s.fld Reg.pwrMode 23 8
  if s.power = .economy && c != 0 then c else 118

/-- The cap level after a comparison of the 100 ms mean, in 0.1 W, with the cap (R493). -/
def State.capTick (s : State) (power : Nat) : State :=
  let cap := s.capWatts * 10
  let next := if cap < power then min 90 (s.pwr.lcap + 10) else if power * 100 < cap * 95 then s.pwr.lcap - 10 else s.pwr.lcap
  if s.power ≠ .economy then ({ s with pwr := { s.pwr with lcap := 0 } } : State).levelChanged s.level
  else if next ≠ s.pwr.lcap && s.due (s.pwr.capAt + ms 100) then
    ({ s with pwr := { s.pwr with lcap := next, capAt := s.now } } : State).levelChanged s.level
  else s

/-- CAP_CONTROL_TICK (R493): package input power as its 100 ms and 1 s means in 0.1 W, with the voltages (mV) and currents (10 mA) that the
rail monitors read. -/
def execCapControlTick (power mean : Nat) (rails : List (Nat × Nat)) (s : State) : Result :=
  .next (s.periodic Timer.capTick (ms 10) fun t =>
    let t1 := (t.setFld Reg.pwrStatus 31 16 power).setFld Reg.pwrStatus 47 32 mean
    let t2 := (List.range (min 10 rails.length)).foldl (fun u r => match rails[r]? with
      | some x => (u.setFld (Reg.pwrRail r) 15 0 x.1).setFld (Reg.pwrRail r) 31 16 x.2
      | none => u) t1
    t2.capTick power)

/-! ### Sweeps (R495) -/

/-- A sweep is requested, for a mailbox that waits for it or for none: it runs at once, or queues one further sweep. -/
def State.requestSweep (s : State) (m : Option Nat) : State :=
  let who := m.toList
  if s.pwr.sweeping then { s with pwr := { s.pwr with sweepMore := true, moreBoxes := s.pwr.moreBoxes ++ who } }
  else { s with pwr := { s.pwr with sweeping := true, sweepBoxes := who } }

/-- The period of sweeps: 10 ms near a throttle limit or under a rate warning, else 1 s. -/
def State.sweepPeriod (s : State) : Nat := if s.nearLimit 5 || !s.pwr.warn.isEmpty then ms 10 else sec 1

/-- SENSOR_SWEEP (R495): the periodic sweep starts. -/
def execSensorSweep (s : State) : Result := .next (s.periodic Timer.sweep s.sweepPeriod (fun t => t.requestSweep none))

/-- The readings of a sweep, in 1/16 °C by point: the model is corrected to them, and they stand in BAS_TEMP. -/
def State.takeSweep (s : State) (readings : List Int) : State :=
  let far := (List.range 30).filter (fun i => decide (80 < (readings.getD i 0 - s.pwr.model.getD i 0).natAbs))
  let s1 := far.foldl (fun t i => t.raise 0xD004 i (readings.getD i 0 - s.pwr.model.getD i 0).natAbs) s
  let bas := (List.range 9).foldl (fun (b : Table Word) k => b.put (k * 2 ^ 24 + 0xF00008)
    (word (field16 (readings.getD (12 + k) 0) + 2 ^ 16 * field16 (readings.getD (21 + k) 0) + 2 ^ 32 * s.tick32 (Island.base k)))) s1.mem.bas
  ({ s1 with mem := { s1.mem with bas := bas }, pwr := { s1.pwr with model := readings, sensor := readings, sweepAt := some s1.now } } : State).count
    (Reg.thmCount 0) 1

/-- What THERMAL_SWEEP answers. -/
def State.sweepData (s : State) : List Byte :=
  ((List.range 30).flatMap (fun i => leBytes 2 (field16 (s.pwr.sensor.getD i 0)))) ++ leBytes 4 (s.tick32 Island.mgmt)

/-- A sweep has ended: who waited for it is answered, and the queued sweep starts. -/
def State.sweepEnd (s : State) : State :=
  let s1 := s.pwr.sweepBoxes.foldl (fun t m => t.mbxComplete m .ok t.sweepData) s
  { s1 with pwr := { s1.pwr with sweeping := s1.pwr.sweepMore, sweepBoxes := s1.pwr.moreBoxes, sweepMore := false, moreBoxes := [] } }

/-! ### The thermal model (R494, R496) -/

/-- Points whose change over the past second exceeds `limit` 1/16 °C. -/
def State.fasterThan (s : State) (limit : Int) : List Nat := (List.range 30).filter (fun i => decide (limit < s.tempChange i (sec 1)))

/-- The rates of R496 after new temperatures: warnings and actions that begin are counted, and RATE_WARN is raised. -/
def State.rates (s : State) : State :=
  let warn := s.fasterThan 32
  let act := s.fasterThan 80
  let newWarn := warn.filter (fun i => !s.pwr.warn.contains i)
  let newAct := act.filter (fun i => !s.pwr.action.contains i)
  let s1 := newWarn.foldl (fun t i => (t.count (Reg.thmCount 4) 1).raise 0xD002 i 0) s
  let s2 := s1.count (Reg.thmCount 5) newAct.length
  { s2 with pwr := { s2.pwr with warn := warn, action := act } }

/-- The point and cause of a thermal shutdown (Table 15-6): 1 absolute, 2 rate. -/
def State.shutdownPoint (s : State) : Option (Nat × Nat) :=
  match (List.range 30).find? (fun i => decide (((if i < 12 then 115 else 95) : Int) * 16 ≤ s.governing i)) with
  | some i => some (i, 1)
  | none => ((List.range 30).find? (fun i => decide (32 < s.tempChange i (ms 200)))).map (fun i => (i, 2))

/-- New values of the thermal model, in 1/16 °C by point: STK_PORT_STATUS shows those of the stacks, and the history goes back 1 s. -/
def State.takeModel (s : State) (model : List Int) : State :=
  let s1 : State := { s with pwr := { s.pwr with model := model } }
  let s2 := (List.range 9).foldl (fun t k =>
    (t.setFld (Reg.stkPort k) 23 8 (field16 (model.getD (12 + k) 0))).setFld (Reg.stkPort k) 39 24 (field16 (model.getD (21 + k) 0))) s1
  let old := s2.pwr.temps
  let young := old.filter (fun e => decide (s2.now < e.1 + sec 1))
  let edge := (old.find? (fun e => decide (e.1 + sec 1 ≤ s2.now))).toList
  ({ s2 with pwr := { s2.pwr with temps := (s2.now, s2.governingAll) :: young ++ edge } } : State).rates

/-- A point at or above its throttle limit (step AUX, R474). -/
def State.aboveThrottle (s : State) (readings : List Int) : Bool :=
  (List.range 30).any (fun i => decide (((if i < 12 then s.fld Reg.thmCfg 15 8 else s.fld Reg.thmCfg 23 16) : Int) * 16 ≤ readings.getD i 0))

end Sys2Proof.Machine
end

