-- ==== Sys2Proof/Machine/Pins.lean ====
section
/-!
DEFINITION. What the state drives outside the registers: output pins and ports (R444, R497, R499, R500, R574, R575), the factors of throttling (R498, R499), and the
switched power domains (R492).
-/
namespace Sys2Proof.Machine

/-! ### Throttling factors and pins -/

/-- The proportional factor f of R499 in 1/1600: 1 − PROP_GAIN / 100 for each °C above the limit less 5 °C, between 0.1 and 1, of the hub or the
stacks. -/
def State.propFactor (s : State) (limit : Nat) (temp : Int) : Int :=
  max 160 (min 1600 (1600 - (s.fld Reg.thmCfg 39 34 : Int) * (temp - ((limit : Int) - 5) * 16)))

/-- The smaller factor of R499, in 1/1600; 1 where COMPAT is clear. -/
def State.pace1600 (s : State) : Int :=
  if s.flag Reg.thmCfg 0 then
    min (s.propFactor (s.fld Reg.thmCfg 15 8) s.hubTemp) (s.propFactor (s.fld Reg.thmCfg 23 16) s.stackTemp)
  else 1600

/-- The duty of every filet port under native throttling, % (R498). -/
def State.filetDuty (s : State) : Nat := 100 - s.level

/-- THERM_N is low: under L_th, under f below 1, and after a thermal shutdown until step 1 (R497, R499, R500). -/
def State.thermLow (s : State) : Bool := s.pwr.thermHeld || s.pwr.lth != 0 || decide (s.pace1600 < 1600)

/-- ALERT_N is low (R444). -/
def State.alertLow (s : State) : Bool := s.alertCauses != 0

/-- This device pulls SEQSYNC low (R477 to R479). -/
def State.seqLow (s : State) : Bool := s.pwr.hold

/-- Rate of the console, baud: firmware parameter 16 as of the latest start (R574). -/
def State.consoleBaud (s : State) : Nat := (s.boot.inForce.get 16 115200).toNat

/-- IDCODE of the JTAG port (R575): stepping, part, vendor code, 1. -/
def jtagIdcode : Nat := 0xB * 2 ^ 28 + 0x4810 * 2 ^ 12 + 0x2B5 * 2 + 1

/-! ### Power domains (R492) -/

/-- The switched power domains of Table 15-5; those of one group are told apart by number. -/
inductive Domain where
  | hostPhy (lane : Nat)
  | lacePhy (lane : Nat)
  | hostMac (i : Nat)
  | laceMac (i : Nat)
  | engine (i : Nat)
  | llcWay (w : Nat)
  | llcGroup (i : Nat)
  | counterCache (i : Nat)
  | dramPhy (ch : Nat)
  | dramIsland (i : Nat)
  | stackPort (k : Nat)
  | filetShell (k : Nat)
  | portQuad (k q : Nat)
  | stackBase (k : Nat)
  | hkpCore (i : Nat)
  | hkpMemory
  | cellPool (i : Nat)
  | keep
  deriving DecidableEq, Repr

/-- Does a host lane belong to an enabled port, or as a lace link's lane to an enabled link (R24, R256)? -/
def State.hostLane (s : State) (lane : Nat) : Bool :=
  if s.portCount = 0 then s.flag Reg.lceCfg (8 + lane) else s.flag (Reg.ethPortCfg (lane / s.portLanes)) 0

/-- Tiles that a job, or a program has work on. -/
def State.busyTiles (s : State) : List Nat :=
  (s.filet.jobs.filter (fun e => e.2.st ≤ 1)).flatMap (fun e => e.2.todo.map (·.1)) ++ s.filet.progs.flatMap (·.tiles)

/-- Is a power domain on (Table 15-5)? Everything but the keep is off without its rails. -/
def State.domainOn (s : State) (d : Domain) : Bool :=
  let rails := !s.flag Reg.glbStatus 3
  let awake := s.power != .idle
  match d with
  | .keep => s.power != .off
  | .hostPhy l => rails && s.hostLane l
  | .lacePhy l => rails && s.flag Reg.lceCfg l
  | .hostMac i => rails && (s.hostLane (2 * i) || s.hostLane (2 * i + 1))
  | .laceMac i => rails && (s.flag Reg.lceCfg (2 * i) || s.flag Reg.lceCfg (2 * i + 1))
  | .llcWay w => rails && (awake || w == 15) && (List.range 32).any (fun sl => (s.way sl w).st != .off)
  | .counterCache _ | .dramPhy _ | .stackPort _ | .stackBase _ => rails && awake
  | .filetShell k => rails && s.busyTiles.any (fun t => t / 2 ^ 17 == k)
  | .portQuad k q => rails && s.busyTiles.any (fun t => portOf t / 4 == 4 * k + q)
  | .hkpCore i => rails && (awake || i == 0)
  | .engine _ | .llcGroup _ | .dramIsland _ | .hkpMemory | .cellPool _ => rails

end Sys2Proof.Machine
end

