-- ==== Sys2Proof/Machine/Registers.lean ====
section
/-!
DEFINITION. Accesses to registers by every path of Table 18-3 (R108, R169, R394, R443, R458 to R461, R538, R547 to R554), and the rows of
single registers.
-/
namespace Sys2Proof.Machine

/-! ### Paths -/

/-- Can an access come by a path at all: the firmware runs, the JTAG scope is DEBUG or MEMORY, the connection is of class ADMIN, the
forwarding device acts as manager (Table 18-3)? -/
def State.pathOpen (s : State) (p : Path) : Bool :=
  s.power != .off && (match p with
    | .hkp => s.hkpUp
    | .jtag => decide (2 ≤ s.fld Reg.secJtag 1 0)
    | .smbus => true
    | .reg conn => match s.host.conns.find conn with | some c => c.cls == 3 | none => false
    | .lace dev _ => dev == s.lace.mgr && !s.isManager)

/-- What a journal entry says of an access by a path (Table 14-10). -/
def State.pathAuthor (s : State) (p : Path) : Author :=
  match p with
  | .hkp => { iface := 4 }
  | .jtag => { iface := 3 }
  | .smbus => { iface := 1, cred := s.smbAddr }
  | .reg conn => match s.host.conns.find conn with
    | some c => { iface := 0, port := c.home, conn := conn, cred := c.grant }
    | none => { iface := 0, conn := conn }
  | .lace dev conn => { iface := 7, port := (s.nextHop dev).getD 0, conn := conn }

/-- Blocks that are served in every power state in which VSTBY is in window (R548). -/
def standbyBlock (b : Nat) : Bool := b == 0 || b == 0x0F || b == 0x10 || b == 0x11 || b == 0x13

/-- Is the block of an offset reachable (R443, R551)? -/
def State.reach (s : State) (p : Path) (off : Nat) : Bool :=
  standbyBlock (off / 0x10000) || (!s.flag Reg.glbStatus 3 && (p != .smbus || s.hkpUp))

/-- Is an offset in a push or pop window of the bobbin manager? -/
def bobWindow (off : Nat) : Bool := decide (0x0C0100 ≤ off) && decide (off < 0x0C0200)

/-- How a write ended: with a status, or its keep register page waits (R458). -/
inductive WriteEnd where
  | done (st : Status)
  | queued
  deriving DecidableEq, Repr

/-! ### Checks of a value -/

/-- The value of a field. -/
def bits (v hi lo : Nat) : Nat := v / 2 ^ lo % 2 ^ (hi + 1 - lo)

/-- Are the fields of a value in their ranges? -/
def RegDesc.inRange (d : RegDesc) (v : Word) : Bool := d.ranges.all (fun f => let n := v.field f.1 f.2.1; decide (f.2.2.1 ≤ n) && decide (n ≤ f.2.2.2))

/-- The rules that tie fields of one register, or of two, together (R152, R309, Tables 06-14, 07-17, 11-9, 15-12). -/
def State.related (s : State) (off : Nat) (v : Word) : Bool :=
  let scrub (pass age period : Nat) : Bool := decide (pass * 60 ≤ (60 - age) * period)
  match off with
  | 0x070008 => decide (v.field 13 8 < v.field 5 0)
  | 0x080010 => scrub (s.fld Reg.scrCfg 12 0) (v.field 21 16) (v.field 15 0)
  | 0x0A0028 => decide (v.field 14 8 < v.field 6 0)
  | 0x0B0010 => decide (v.field 15 0 < v.field 31 16)
  | 0x110028 => v.field 23 8 == 0 || (decide (40 ≤ v.field 23 8) && decide (v.field 23 8 ≤ 118))
  | 0x160008 => scrub (v.field 12 0) (s.fld Reg.stkEpochCfg 21 16) (s.fld Reg.stkEpochCfg 15 0)
  | _ => true

/-! ### Effects of a write -/

/-- Registers that a write of their VALID bit clears whole: register, bit, and what is cleared. -/
def lastRegs : List (Nat × Nat × List Nat) := [
  (0x010018, 11, [0x010018]), (0x020018, 12, [0x020018]), (0x030020, 11, [0x030020]), (0x070020, 3, [0x070020, 0x070028]),
  (0x0D0040, 31, [0x0D0040]), (0x160048, 40, [0x160048, 0x160050])]

/-- The W1C fields of a write (R549): a performance counter's is that of the register that holds it (R538). -/
def State.acknowledge (s : State) (off : Nat) (d : RegDesc) (v : Word) : State :=
  let r := if inArray off 0x141000 512 then (counterReg ((off - 0x141000) / 8)).getD off else off
  match lastRegs.find? (fun e => e.1 == off && v.bit e.2.1) with
  | some e => e.2.2.foldl (fun t x => t.wr x 0) s
  | none => s.wr r (s.rd r &&& ~~~(v &&& word d.w1c))

/-- A write that only replaces the RW fields. -/
def State.merge (s : State) (off : Nat) (d : RegDesc) (v : Word) : State :=
  s.wr off ((s.rd off &&& ~~~(word d.rw)) ||| (v &&& word d.rw))

/-- What a write that passed every check does; `none` where the owning chapter ignores it. -/
def State.regEffect (s : State) (fw : Bool) (off : Nat) (d : RegDesc) (v : Word) : Option State :=
  match off with
  | 0x020008 => some (s.lceCfgEffect v)
  | 0x031020 => some (if v.bit 0 then s.resetConn (s.fld Reg.shtConnSel 15 0) 9 else s)
  | 0x050008 => some (s.llcCfgEffect v)
  | 0x050028 => s.wayCtl v
  | 0x050040 => s.maintCtl fw v
  | 0x0B0008 => some (s.merge off d v).refreshStale
  | 0x0C0008 => some (s.bobModeEffect v)
  | 0x0C0028 => s.bobCfg0 v
  | 0x0C0030 => s.bobCfg1 v
  | 0x0C0038 => some (s.bobCtl v)
  | 0x110028 => s.modeWrite v
  | 0x120028 => some (if v.bit 0 then s.requestSweep none else s)
  | 0x160028 => s.dieCtl (v.field 6 0) (v.field 9 8)
  | 0x160040 => s.dramCtl (v.field 3 0) (v.field 9 8)
  | _ =>
    if macWindow off then some { s with kept := { s.kept with macs := s.kept.macs.put ((off - 0x011000) / 0x1000) (v.field 47 0) } }
    else if off / 0x10000 = 1 && off % 0x1000 == 0 && decide (0x011000 ≤ off) then some (s.ethPortCfgEffect ((off - 0x011000) / 0x1000) v)
    else some ((s.merge off d v).acknowledge off d v)

/-- A write that is ignored: CFG_IGNORED of its block is set. -/
def State.ignoredWrite (s : State) (off : Nat) : State :=
  match ignoredFlag off with | some (r, b) => s.setFlag r b | none => s

/-- A write by `a` of a register that the keep does not hold (R550): ignored; a status acknowledgement; or a configuration change, checked
against the journal, journaled and applied. -/
def State.writeWord (s : State) (a : Author) (off : Nat) (d : RegDesc) (v : Word) : Status × State :=
  if !d.inRange v || !s.related off v then (.ok, s.ignoredWrite off)
  else if !d.wo && (s.view off ^^^ v) &&& word d.rw == 0 then (.ok, s.acknowledge off d v)
  else if s.kept.closed then (.unavailable, s)
  else if s.jnlFull then (.journalFull, s.jRefuse)
  else match s.regEffect (a.iface == 4) off d v with
    | none => (.ok, s.ignoredWrite off)
    | some t =>
      if !d.wo && t.view off == s.view off then (.ok, t)
      else
        let j := s.jChange a false off (leBytes 8 (s.view off).toNat) (leBytes 8 v.toNat)
        (.ok, (j.regEffect (a.iface == 4) off d v).getD j)

/-! ### Keep registers (R458 to R461) -/

/-- The value that the latest accepted write gave a keep register: its page may still wait. -/
def State.kpCurrent (s : State) (off : Nat) : Word :=
  s.kept.queue.foldl (fun a w => match w with | .regPage o v _ => if o = off then v else a | _ => a) (s.rd off)

/-- Does a path find RETRY rather than wait where the queue of the keep has fewer than two free entries (R453)? -/
def pathRetries : Path → Bool
  | .reg _ => true | .smbus => true | .lace _ _ => true | _ => false

/-- Steps 2 to 7 of R458 of a write by `a`, and its two entries in the queue of the keep; `retry` says that it does not wait for
space, `w` who waits for its pages. -/
def State.writeKeep (s : State) (a : Author) (retry : Bool) (w off : Nat) (d : RegDesc) (v : Word) : WriteEnd × State :=
  let old := s.kpCurrent off
  let new := (old &&& ~~~(word d.kp)) ||| (v &&& word d.kp)
  if s.kept.wp then (.done .writeProtected, s.count (Reg.kepCount 4) 1)
  else if 100000 ≤ s.kept.counts.get off 0 then (.done .keepWorn, s.count (Reg.kepCount 5) 1)
  else if !d.inRange v || !s.related off v then (.done .ok, s.ignoredWrite off)
  else if new = old then (.done .ok, s)
  else if s.kept.closed then (.done .unavailable, s)
  else if s.jnlFull then (.done .journalFull, s.jRefuse)
  else if retry && decide (31 < s.kept.queue.length) then (.done .retry, s.count (Reg.kepCount 6) 1)
  else
    let e := s.jEntry a false off .ok (leBytes 8 old.toNat) (leBytes 8 new.toNat)
    (.queued, { s with kept := { s.kept with queue := s.kept.queue ++ [.journal e w, .regPage off new w] } })

/-- A keep register's page is sealed (R458, R459): its count goes up, its working copy takes the value. -/
def State.sealReg (s : State) (off : Nat) (v : Word) : State :=
  let n := s.kept.counts.get off 0 + 1
  let src := off / 8 % 65536
  let s1 := ({ s with kept := { s.kept with kp := s.kept.kp.put off v, counts := s.kept.counts.put off n } } : State).count (Reg.kepCount 0) 1
  let s2 := if standbyBlock (off / 0x10000) || !s.flag Reg.glbStatus 3 then s1.wr off v else s1
  if n = 90000 then (s2.setFld Reg.kepStatus 31 16 (s2.fld Reg.kepStatus 31 16 + 1)).raise 0xB001 src 0
  else if n = 100000 then
    ((s2.setFld Reg.kepStatus 47 32 (s2.fld Reg.kepStatus 47 32 + 1)).setFlag Reg.kepStatus 2).raise 0xB002 src 0
  else s2

/-- A waiter whose pages are all sealed goes on: an operation ends with its response; a mailbox command waits for MBX_COMMAND_DONE. -/
def State.sealed (s : State) (w : Nat) : State :=
  if s.sealing w then s
  else match s.host.ops.find w with
    | some o => match o.phase with | .sealing r => s.finishOp w r | _ => s
    | none => s

/-- KEEP_PAGE_WRITE_DONE (R453, R458, R464): the page in progress is sealed. -/
def execKeepPageWriteDone (s : State) : Result :=
  .next (match s.kept.queue with
    | [] => s
    | q :: rest =>
      let s1 : State := { s with kept := { s.kept with queue := rest } }
      match q with
      | .journal e w => (s1.jAlways { e with seq := s1.kept.nextSeq % 2 ^ 32 }).sealed w
      | .regPage off v w => (s1.sealReg off v).sealed w)

/-- HOLD_N falls (R455): the page in progress completes, queued keep register writes end with UNAVAILABLE, and the keep accepts only the
save sequence's. -/
def State.closeKeep (s : State) : State :=
  let gone := (s.kept.queue.drop 1).map (·.waiter)
  let s1 : State := { s with kept := { s.kept with queue := s.kept.queue.take 1, closed := true } }
  gone.foldl (fun t w =>
    if w = smbusWaiter then { t with mbx := { t.mbx with smb := { t.mbx.smb with regStatus := .unavailable } } }
    else if boxWaiter 0 ≤ w then t.mbxComplete (w - boxWaiter 0) .unavailable []
    else match t.host.ops.find w with
      | some o => match o.phase with | .sealing _ => t.failOp w .unavailable | _ => t
      | none => t) s1

/-! ### Firmware parameters (R554) -/

/-- Does firmware parameter `i` accept a value: it lies from GLB_FWP_MIN to GLB_FWP_MAX, and for CONSOLE_BAUD it is one of four (R574)? -/
def State.fwpInRange (s : State) (i : Nat) (v : Word) : Bool :=
  let lo := s.fwpMin i
  let hi := s.fwpMax i
  if i = 16 then [115200, 230400, 460800, 921600].contains v
  else if (s.fwpDesc i).bit 2 then decide (lo.toInt ≤ v.toInt) && decide (v.toInt ≤ hi.toInt) else decide (lo.toNat ≤ v.toNat) && decide (v.toNat ≤ hi.toNat)

/-- The format that a pending update would put in force beside the present one (R523). -/
def State.pendingFormat (s : State) : Nat := ((s.boot.slots.find s.boot.pendingSlot).map (·.format)).getD s.boot.format

/-- A write of firmware parameter `i`. -/
def State.writeFwp (s : State) (p : Path) (i : Nat) (v : Word) : Status × State :=
  if !s.hkpUp || s.swapping then (if p = .smbus && !s.swapping then .unavailable else .retry, s)
  else if !(s.fwpDesc i).bit 0 then (.address, s)
  else if !(s.fwpDesc i).bit 1 then (.denied, s)
  else if !s.fwpInRange i v then (.ok, s.setFlag Reg.glbStatus 0)
  else if v = s.fwpValue i then (.ok, s)
  else if s.kept.closed then (.unavailable, s)
  else if s.boot.twoStores && !Config.fwpFits s.pendingFormat i v then (.unavailable, s)
  else if s.jnlFull then (.journalFull, s.jRefuse)
  else
    let j := s.jChange (s.pathAuthor p) false (0x800000 + 8 * i) (leBytes 8 (s.fwpValue i).toNat) (leBytes 8 v.toNat)
    (.ok, { j with boot := { j.boot with settings := j.boot.settings.put i v } })

/-! ### Any write -/

/-- A write into a push or pop window (R384, R385, R387, R394): of the HKP's cores alone. -/
def State.writeWindow (s : State) (p : Path) (off : Nat) (v : Word) : Status × State :=
  let core := (off - 0x0C0100) / 0x40
  if p ≠ .hkp then (.denied, s)
  else match off % 0x40 with
    | 0x00 => (.ok, s.packetStart core v)
    | 0x08 => (.ok, s.pushData core v)
    | 0x18 => (.ok, s.setFld off 15 0 (v.field 15 0))
    | 0x28 => (.ok, s.dropPkt core v)
    | _ => (.denied, s)

/-- A write of a register by a path (R108, R547 to R554); `w` waits for its keep pages. -/
def State.writeReg (s : State) (p : Path) (w off : Nat) (v : Word) : WriteEnd × State :=
  let plain (r : Status × State) : WriteEnd × State := (.done r.1, r.2)
  if 0x800000 ≤ off then
    if off < 0x810000 && off % 8 == 0 then plain (s.writeFwp p ((off - 0x800000) / 8) v) else (.done .address, s)
  else match regDesc off with
    | none =>
      if off / 0x10000 = 0x17 && off % 8 == 0 then (.done (if p = .hkp || p = .jtag then .ok else .denied), s) else (.done .address, s)
    | some d =>
      if !s.reach p off then (.done .unavailable, s)
      else if bobWindow off then plain (s.writeWindow p off v)
      else if d.rw + d.kp + d.w1c = 0 && !d.wo then (.done .denied, s)
      else if d.lk && !s.kept.factory then (.done .denied, s)
      else if s.deadWindow off then (.done .ok, s)
      else if d.kp ≠ 0 then s.writeKeep (s.pathAuthor p) (pathRetries p) w off d v
      else plain (s.writeWord (s.pathAuthor p) off d v)

/-! ### Any read -/

/-- A read of STK_BAS_DATA (R169, Tables 05-20, 05-21): the BAS register at STK_BAS_ADDR of stack `k`; AUTO_INC advances the address. -/
def State.readBas (s : State) (k : Nat) : Word × State :=
  let a := s.fld (Reg.stkBasAddr k) 23 0
  let s1 := if s.flag (Reg.stkBasAddr k) 31 then s.setFld (Reg.stkBasAddr k) 23 0 (a + 8) else s
  match s.basReg k a with
  | some v => (v, s1)
  | none => (0, s1.setFlag (Reg.stkBasCtl k) 1)

/-- A read of PMC_VALUE of counter `i` (R538): PMC_LAST_TIME takes the time of the counter's island. -/
def State.readCounter (s : State) (i : Nat) : Word × State := (s.counter i, s.wr Reg.pmcLastTime (word (s.counterTime i)))

/-- The KP fields of a register as the keep holds them (R443). -/
def State.keepCopy (s : State) (off : Nat) (d : RegDesc) : Word := s.kept.kp.get off (word (keepFactory.get off 0)) &&& word d.kp

/-- A read of a register by a path (R108, R169, R394, R443, R538, R551, R554): its status, what it returns, and what it leaves. -/
def State.readReg (s : State) (p : Path) (off : Nat) : Status × Word × State :=
  if 0x800000 ≤ off then
    let i := (off - 0x800000) / 8
    if 0x810000 ≤ off || off % 8 ≠ 0 then (.address, 0, s)
    else if !s.hkpUp || s.swapping then (if p = .smbus && !s.swapping then .unavailable else .retry, 0, s)
    else if (s.fwpDesc i).bit 0 then (.ok, s.fwpValue i, s) else (.address, 0, s)
  else match regDesc off with
    | none => (if off / 0x10000 = 0x17 && off % 8 == 0 then .ok else .address, 0, s)
    | some d =>
      if !s.reach p off then (if p = .smbus && d.kp != 0 then (.ok, s.keepCopy off d, s) else (.unavailable, 0, s))
      else if bobWindow off then
        if p ≠ .hkp then (.ok, 0, s)
        else if d.wo then (.denied, 0, s)
        else (.ok, if off % 0x40 = 0x10 then s.pushStatus ((off - 0x0C0100) / 0x40) else s.rd off, s)
      else if d.wo then (.denied, 0, s)
      else if off / 0x10000 = 8 && off % 0x1000 == 0x018 && decide (0x081000 ≤ off) then
        let r := s.readBas ((off - 0x081000) / 0x1000); (.ok, r.1, r.2)
      else if inArray off 0x141000 512 then let r := s.readCounter ((off - 0x141000) / 8); (.ok, r.1, r.2)
      else (.ok, s.view off, s)

/-! ### The rows of single registers -/

/-- A register write by a path, as a row of its own: REG_STATUS takes the status of an SMBus write. -/
def State.writeRow (s : State) (p : Path) (off : Nat) (v : Word) : State :=
  if !s.pathOpen p then s
  else
    let r := s.writeReg p (if p = .smbus then smbusWaiter else 0) off v
    if p = .smbus then
      let st := match r.1 with | .done st => st | .queued => .ok
      { r.2 with mbx := { r.2.mbx with smb := { r.2.mbx.smb with regStatus := st } } }
    else r.2

/-- A register read by a path, as a row of its own. -/
def State.readRow (s : State) (p : Path) (off : Nat) : State :=
  if !s.pathOpen p then s
  else
    let r := s.readReg p off
    if p = .smbus then
      { r.2.2 with mbx := { r.2.2.mbx with smb := { r.2.2.mbx.smb with regStatus := r.1, out := [leBytes 8 r.2.1.toNat] } } }
    else { r.2.2 with seen := r.2.1 }

/-- A row for one action of a register: the write, where its value asks for that action. -/
def State.actionRow (s : State) (asks : Bool) (p : Path) (off : Nat) (v : Word) : Result := .next (if asks then s.writeRow p off v else s)

/-- REGISTER_WRITE (R550). -/
def execRegisterWrite (path : Path) (off : Nat) (value : Word) (s : State) : Result := .next (s.writeRow path off value)
/-- FWP_WRITE (R554). -/
def execFwpWrite (path : Path) (i : Nat) (value : Word) (s : State) : Result := within (i < 8192) (s.writeRow path (0x800000 + 8 * i) value)
/-- PMC_VALUE_READ (R538). -/
def execPmcValueRead (path : Path) (i : Nat) (s : State) : Result := within (i < 512) (s.readRow path (0x141000 + 8 * i))
/-- BAS_READ (R169). -/
def execBasRead (path : Path) (stack : Nat) (s : State) : Result := within (stack < 9) (s.readRow path (0x081018 + 0x1000 * stack))
/-- ETH_PORT_CFG_WRITE (R47). -/
def execEthPortCfgWrite (path : Path) (port : Nat) (value : Word) (s : State) : Result :=
  within (port < 8) (s.writeRow path (0x011000 + 0x1000 * port) value)
/-- SHT_CONN_CTL RESET (R91). -/
def execShtConnCtlReset (path : Path) (value : Word) (s : State) : Result := s.actionRow (value.bit 0) path 0x031020 value
/-- LCE_CFG_WRITE (R298). -/
def execLceCfgWrite (path : Path) (value : Word) (s : State) : Result := .next (s.writeRow path 0x020008 value)
/-- DIE_FAIL (R327). -/
def execDieFail (path : Path) (value : Word) (s : State) : Result := s.actionRow (value.field 9 8 == 1) path 0x160028 value
/-- DIE_RETURN (R316). -/
def execDieReturn (path : Path) (value : Word) (s : State) : Result := s.actionRow (value.field 9 8 == 2) path 0x160028 value
/-- CHANNEL_ERASE (R327). -/
def execChannelErase (path : Path) (value : Word) (s : State) : Result := s.actionRow (value.field 9 8 == 1) path 0x160040 value
/-- CHANNEL_RETURN (R322). -/
def execChannelReturn (path : Path) (value : Word) (s : State) : Result := s.actionRow (value.field 9 8 == 2) path 0x160040 value
/-- LLC_CFG_WRITE (R334). -/
def execLlcCfgWrite (path : Path) (value : Word) (s : State) : Result := .next (s.writeRow path 0x050008 value)
/-- WAY_LOCK (R337). -/
def execWayLock (path : Path) (value : Word) (s : State) : Result := s.actionRow (value.field 14 12 == 1) path 0x050028 value
/-- WAY_UNLOCK (R337). -/
def execWayUnlock (path : Path) (value : Word) (s : State) : Result := s.actionRow (value.field 14 12 == 2) path 0x050028 value
/-- WAY_RETURN (R336). -/
def execWayReturn (path : Path) (value : Word) (s : State) : Result := s.actionRow (value.field 14 12 == 3) path 0x050028 value
/-- WAY_DISABLE (R336). -/
def execWayDisable (path : Path) (value : Word) (s : State) : Result := s.actionRow (value.field 14 12 == 4) path 0x050028 value
/-- CLEAN (R349). -/
def execClean (path : Path) (value : Word) (s : State) : Result := s.actionRow (value.field 2 0 == 1) path 0x050040 value
/-- CLEAN_INV (R349). -/
def execCleanInv (path : Path) (value : Word) (s : State) : Result := s.actionRow (value.field 2 0 == 2) path 0x050040 value
/-- DISCARD (R349). -/
def execDiscard (path : Path) (value : Word) (s : State) : Result := s.actionRow (value.field 2 0 == 3) path 0x050040 value
/-- LOCK_FILL (R337). -/
def execLockFill (path : Path) (value : Word) (s : State) : Result := s.actionRow (value.field 2 0 == 4) path 0x050040 value
/-- BOBBIN_RESET (R392). -/
def execBobbinReset (path : Path) (value : Word) (s : State) : Result := s.actionRow (value.bit 0) path 0x0C0038 value
/-- BOB_MODE_WRITE (R389). -/
def execBobModeWrite (path : Path) (value : Word) (s : State) : Result := .next (s.writeRow path 0x0C0008 value)
/-- THM_SWEEP_START (R495). -/
def execThmSweepStart (path : Path) (value : Word) (s : State) : Result := s.actionRow (value.bit 0) path 0x120028 value

/-! ### SMBus (R442 to R444) -/

/-- The state with the SMBus target changed. -/
def State.modSmb (s : State) (f : Smbus → Smbus) : State := { s with mbx := { s.mbx with smb := f s.mbx.smb } }

/-- An SMBus write: discarded and counted where its PEC fails; nothing answers without VSTBY. -/
def State.smbWrite (s : State) (pecOk : Bool) (f : State → State) : State :=
  if s.power = .off then s else if pecOk then f s else s.count (Reg.mbxCount 7) 1

/-- An SMBus read answers bytes. -/
def State.smbRead (s : State) (f : State → List Byte × State) : State :=
  if s.power = .off then s else let r := f s; r.2.modSmb (fun x => { x with out := [r.1] })

/-- REG_ADDR. -/
def execRegAddr (off : Nat) (pecOk : Bool) (s : State) : Result :=
  .next (s.smbWrite pecOk fun t => t.modSmb (fun x => { x with regAddr := off % 2 ^ 24 }))

/-- REG_DATA write (R443). -/
def execRegDataWrite (value : Word) (pecOk : Bool) (s : State) : Result :=
  .next (s.smbWrite pecOk fun t =>
    (t.writeRow .smbus t.mbx.smb.regAddr value).modSmb (fun x => { x with regAddr := (x.regAddr + 8) % 2 ^ 24 }))

/-- REG_DATA read (R443). -/
def execRegDataRead (s : State) : Result :=
  .next (if s.power = .off then s
    else (s.readRow .smbus s.mbx.smb.regAddr).modSmb (fun x => { x with regAddr := (x.regAddr + 8) % 2 ^ 24 }))

/-- REG_STATUS. -/
def execRegStatus (s : State) : Result := .next (s.smbRead fun t => ([BitVec.ofNat 8 t.mbx.smb.regStatus.code], t))

/-- ALERT_CAUSE. -/
def execAlertCause (s : State) : Result := .next (s.smbRead fun t => (leBytes 2 t.alertCauses, t))

/-- The Alert Response Address (R444): the device answers with its address while it holds ALERT_N, and goes on holding it. -/
def execAlertResponse (s : State) : Result :=
  .next (if s.alertCauses = 0 then s else s.smbRead fun t => ([BitVec.ofNat 8 (2 * t.smbAddr)], t))

/-- SMBUS_TIMEOUT (R573): the transaction is abandoned. -/
def execSmbusTimeout (s : State) : Result := .next (if s.power = .off then s else s.modSmb (fun x => { x with out := [] }))

/-- MBX_SEL. -/
def execMbxSel (mailbox buffer offset : Nat) (pecOk : Bool) (s : State) : Result :=
  .next (s.smbWrite pecOk fun t => t.modSmb (fun x => { x with mailbox := mailbox % 16, buffer := buffer % 2, offset := offset % 2 ^ 16 }))

/-- SMBus touches a mailbox that it claimed or owns: MBX_TIMEOUT starts again (R436). -/
def State.smbTouch (s : State) (m : Nat) : State :=
  let b := s.box m
  if b.owner = .smbus then s.putBox m { b with due := s.now + s.mbxTimeout } else s

/-- A 4 KiB buffer with bytes stored from an offset. -/
def bufPut (l : List Byte) (off : Nat) (d : List Byte) : List Byte :=
  let base := l ++ zeros (off + d.length - l.length)
  (base.take off ++ d ++ base.drop (off + d.length)).take 4096

/-- MBX_DATA write (Table 14-4): bytes at the selected offset of the request buffer; the first takes an IDLE mailbox for SMBus, and a
write to a mailbox of another owner is discarded. -/
def execMbxDataWrite (bytes : List Byte) (pecOk : Bool) (s : State) : Result :=
  .next (s.smbWrite pecOk fun t =>
    let x := t.mbx.smb
    let b := t.box x.mailbox
    let free := b.st == .idle && !b.claimed
    if bytes.isEmpty || decide (32 < bytes.length) then t
    else
      let t1 := t.modSmb (fun y => { y with offset := (y.offset + bytes.length) % 2 ^ 16 })
      if x.buffer = 1 || !(free || b.owner == .smbus) then t1
      else t1.putBox x.mailbox { b with owner := .smbus, claimed := b.claimed || b.st == .idle, due := t.now + t.mbxTimeout
                                        reqBuf := bufPut b.reqBuf x.offset bytes })

/-- MBX_DATA read of `n` bytes at the selected offset; a read of the response buffer up to the end of its segment delivers it, and a
mailbox whose last segment is delivered returns to IDLE (R436, R442). -/
def execMbxDataRead (n : Nat) (s : State) : Result :=
  .next (if n = 0 || decide (32 < n) then s else s.smbRead fun t =>
    let x := t.mbx.smb
    let b := t.box x.mailbox
    let buf := if b.owner != .smbus then [] else if x.buffer = 0 then b.reqBuf else b.respBuf
    let data := slice (buf ++ zeros (4096 - buf.length)) x.offset n
    let t1 := (t.smbTouch x.mailbox).modSmb (fun y => { y with offset := (y.offset + n) % 2 ^ 16 })
    let whole := x.buffer == 1 && b.owner == .smbus && !b.respBuf.isEmpty && decide (8 + leAt b.respBuf 4 2 ≤ x.offset + n)
    (data, if whole && b.st == .done && decide (b.segments ≤ b.respSeg) then t1.putBox x.mailbox b.freed else t1))

/-- What SMBus does with a mailbox segment: the answer stands in the response buffer. -/
def State.smbSegment (s : State) (m : Nat) (seg : List Byte) : State :=
  match s.mbxSegment m .smbus seg 0 0 with
  | (.answer a, t) =>
    let b := t.box m
    if b.owner = .smbus then t.putBox m { b with respBuf := a.bytes b, due := t.now + t.mbxTimeout } else t
  | (_, t) => t

/-- MBX_DOORBELL SUBMIT (R442, R443): the segment in the request buffer is submitted, while the firmware serves. -/
def execMbxSubmit (pecOk : Bool) (s : State) : Result :=
  .next (s.smbWrite pecOk fun t =>
    let m := t.mbx.smb.mailbox
    let b := t.box m
    if !t.serving || b.owner ≠ .smbus then t
    else (t.smbSegment m (b.reqBuf.take (8 + leAt b.reqBuf 4 2))).smbTouch m)

/-- MBX_STATE (Table 14-4). -/
def execMbxState (s : State) : Result :=
  .next (s.smbRead fun t =>
    let b := t.box t.mbx.smb.mailbox
    let other := (b.st != .idle || b.claimed) && b.owner != .smbus
    ([BitVec.ofNat 8 (b.st.num + bitAt other 6 + bitAt (!t.serving) 7)], t.smbTouch t.mbx.smb.mailbox))

end Sys2Proof.Machine
end

