-- ==== Sys2Proof/Machine/DevOps.lean ====
section
/-!
DEFINITION. The stitches that address a device (R107 to R110, R276): REG, CTR and MBX; and the completion of a stitch (R76), with its
sampling record (R541 to R543).
-/
namespace Sys2Proof.Machine

/-! ### ADDRESS (R107) -/

/-- The device that ADDRESS names. -/
def Stitch.device (t : Stitch) : Nat := t.addr / 2 ^ 48 % 64

/-- Has ADDRESS the form of R107: key byte and reserved bits zero? -/
def Stitch.deviceForm (t : Stitch) : Bool :=
  t.addr / 2 ^ 54 == 0 && t.addr / 2 ^ 24 % 2 ^ 24 == 0 &&
    (match t.opcode with | 0x0B => t.target / 2 ^ 9 == 0 | 9 => t.target / 2 ^ 4 == 0 | _ => true)

/-- Is a device present in the hoop? -/
def State.hasDevice (s : State) (d : Nat) : Bool :=
  if s.lace.members.isEmpty then d == s.self else match s.lace.members.find d with | some m => m.present | none => false

/-- Does any register exist at an offset? -/
def regExists (off : Nat) : Bool :=
  (regDesc off).isSome || (off / 0x10000 == 0x17 && off % 8 == 0) || (decide (0x800000 ≤ off) && decide (off < 0x810000))

/-- Check 6 of Table 04-2: the device, register or counter index exists. -/
def State.deviceExists (s : State) (t : Stitch) : Bool :=
  t.deviceForm && s.hasDevice t.device &&
    (match t.opcode with
      | 0x0A => t.device != s.self || regExists t.target
      | 0x0B => decide (t.target + t.length / 16 ≤ 512)
      | _ => true)

/-- Does a segment that goes to another device need no more than the connection's class? The manager checks the class of the command that it
names (R276); POLL and ABORT name none. -/
def Op.mbxRight (o : Op) : Bool :=
  byteBit (o.st.payload.getD 2 0) 2 || byteBit (o.st.payload.getD 2 0) 3 ||
    (match commandClasses.find? (fun e => e.1 == leAt o.st.payload 0 2) with | some e => decide (e.2 ≤ o.cls) | none => true)

/-- Check 8: class ADMIN for REG, the counter window of the grant for CTR, no mailbox 15, and for another device's mailbox the class of the
command (R108 to R110, R276). -/
def State.deviceRight (s : State) (o : Op) : Bool :=
  match o.st.opcode with
  | 0x0A => o.cls == 3
  | 0x0B => o.grant.ctr && decide (o.grant.ctrFirst ≤ o.st.target) &&
      decide (o.st.target + o.st.length / 16 ≤ o.grant.ctrFirst + o.grant.ctrCount)
  | _ => o.st.target != 15 && (o.st.device == s.self || o.mbxRight)

/-- Check 11: the device and the coherent domain; an MBX is served while the data path is not (R351, R433, R483). -/
def State.deviceServes (s : State) (o : Op) : Bool :=
  !s.lace.stopped && !o.late && (if o.st.opcode = 9 then s.fld Reg.cohStatus 1 0 != 2 else s.pathUp)

/-- Checks 3 to 11 of Table 04-2 of a stitch that addresses a device; the device that a manager forwards to makes 6 and 11 again (R276). -/
def State.deviceCheck (s : State) (o : Op) : Option Status :=
  let here := match o.origin with | .conn _ _ => true | _ => false
  match s.formCheck o.st with
  | some st => some st
  | none =>
    if !s.deviceExists o.st then some .address
    else if here && !s.deviceRight o then some .denied
    else if !s.deviceServes o then some .unavailable
    else none

/-- A stitch goes to the device that ADDRESS names, as its only part (R276). -/
def State.sendDevice (s : State) (id : Nat) (o : Op) : State :=
  let p : Part := { dev := o.st.device, panel := 0, first := true, st := { o.st with fence := false, more := false, cont := false }, mirror := false,
                    rseq := 0, tried := false, ph := .sent }
  ((s.modOp id (fun x => { x with phase := .waiting 0 })).putSplit id { st := .run, parts := [p] }).sendParts id o [p] false false false

/-- A row of a stitch that addresses a device: it is checked, sent on, or carried out here by `f`. -/
def State.deviceRow (s : State) (op opcode : Nat) (ok : Op → Bool) (f : State → Op → State) : State :=
  match s.host.ops.find op with
  | none => s
  | some o =>
    if o.phase = .queued && o.st.opcode == opcode && ok o then
      match s.deviceCheck o with
      | some st => s.failOp op st
      | none => if !s.mayBegin op o then s else if o.st.device = s.self then f s o else s.sendDevice op o
    else s

/-! ### REG (R108) -/

/-- The path of a REG stitch. -/
def Op.path (o : Op) : Path :=
  match o.origin with
  | .lace dev _ => .lace dev o.conn
  | _ => .reg o.conn

/-- `n` registers are read from an offset: their values until one is refused, and the status. -/
def State.readRegs (s : State) (p : Path) (off : Nat) : Nat → List Word × Status × State
  | 0 => ([], .ok, s)
  | n + 1 =>
    let r := s.readReg p off
    if r.1 = .ok then
      let t := State.readRegs r.2.2 p (off + 8) n
      (r.2.1 :: t.1, t.2.1, t.2.2)
    else ([], r.1, r.2.2)

/-- Words are written from an offset: how many registers completed, the status, and whether keep pages wait. -/
def State.writeRegs (s : State) (p : Path) (w off : Nat) : List Word → Nat × Status × Bool × State
  | [] => (0, .ok, false, s)
  | v :: rest =>
    let r := s.writeReg p w off v
    match r.1 with
    | .done .ok => let t := State.writeRegs r.2 p w (off + 8) rest; (t.1 + 1, t.2.1, t.2.2.1, t.2.2.2)
    | .done st => (0, st, false, r.2)
    | .queued => let t := State.writeRegs r.2 p w (off + 8) rest; (t.1 + 1, t.2.1, true, t.2.2.2)

/-- The 64-bit words of a payload, little-endian (R98). -/
def wordsIn (l : List Byte) : List Word := (List.range (l.length / 8)).map (fun i => word (leAt l (8 * i) 8))

/-- A REG read. -/
def State.regRead (s : State) (id : Nat) (o : Op) : State :=
  let r := s.readRegs o.path o.st.target (o.st.length / 8)
  r.2.2.finishOp id (o.answer r.2.1 [BitVec.ofNat 8 r.1.length] (r.1.flatMap (fun v => leBytes 8 v.toNat)))

/-- A REG write; it completes once its keep register pages are sealed (R458). -/
def State.regWrite (s : State) (id : Nat) (o : Op) : State :=
  let r := s.writeRegs o.path id o.st.target (wordsIn o.st.payload)
  let a := o.answer r.2.1 [BitVec.ofNat 8 r.1] []
  if r.2.2.1 then r.2.2.2.modOp id (fun x => { x with phase := .sealing a }) else r.2.2.2.finishOp id a

/-- REG_READ (R108). -/
def execRegRead (op : Nat) (s : State) : Result := .next (s.deviceRow op 0x0A (fun o => o.st.subop == 0) (fun t o => t.regRead op o))
/-- REG_WRITE (R108). -/
def execRegWrite (op : Nat) (s : State) : Result := .next (s.deviceRow op 0x0A (fun o => o.st.subop == 1) (fun t o => t.regWrite op o))

/-! ### CTR (R109) -/

/-- CTR (R109, R433): the counters from the target index on; RETRY while the firmware does not serve. -/
def execCtr (op : Nat) (s : State) : Result :=
  .next (s.deviceRow op 0x0B (fun _ => true) fun t o =>
    if !t.hkpUp || t.swapping then t.failOp op .retry
    else t.finishOp op (o.answer .ok [] ((List.range (o.st.length / 16)).flatMap (fun i => t.counterBytes (o.st.target + i)))))

/-! ### MBX (R110, R435 to R441) -/

/-- The FLAGS of the segment that an MBX stitch carries. -/
def Op.segFlags (o : Op) : Nat := leAt o.st.payload 2 1

/-- An MBX stitch with a request segment. -/
def execMbx (op : Nat) (s : State) : Result :=
  .next (s.deviceRow op 9 (fun o => !o.segFlags.testBit 2 && !o.segFlags.testBit 3) (fun t o => t.mbxStitch op o.st.target o))

/-- Over SMBus: the firmware must serve (R443). -/
def State.smbDoorbell (s : State) (flags : Nat) : State :=
  let m := s.mbx.smb.mailbox
  if s.power = .off || !s.serving then s
  else s.smbSegment m (leBytes 2 (s.box m).code ++ [BitVec.ofNat 8 flags, 0, 0, 0, 0, 0])

/-- MBX_POLL (R438, R439): an MBX stitch with POLL, or NEXT over SMBus. -/
def execMbxPoll (via : MbxVia) (s : State) : Result :=
  .next (match via with
    | .stitch op => s.deviceRow op 9 (fun o => o.segFlags.testBit 2 && !o.segFlags.testBit 3) (fun t o => t.mbxStitch op o.st.target o)
    | .smbus => s.smbDoorbell 4)

/-- MBX_ABORT (R440): an MBX stitch with ABORT, or ABORT over SMBus. -/
def execMbxAbort (via : MbxVia) (s : State) : Result :=
  .next (match via with
    | .stitch op => s.deviceRow op 9 (fun o => o.segFlags.testBit 3) (fun t o => t.mbxStitch op o.st.target o)
    | .smbus => s.smbDoorbell 8)

/-! ### Completion (R76, R541) -/

/-- Is an operation served by another device, and by which? -/
def State.servedBy (s : State) (o : Op) : Nat :=
  if o.st.toDevice then o.st.device
  else if s.isLocal o then s.self
  else match (o.spans.getLast?).bind (fun x => (s.panelsOf x).head?) with
    | some e => if o.st.opcode = 1 then ((currentDevs e).headD s.self) else ((writerDevs e).headD s.self)
    | none => s.self

/-- The record of a sampled stitch (Table 17-6); its stages and what they meet on their way are free values (R543, log entry 2). -/
def State.sampleRecord (s : State) (o : Op) (r : Response) (free : Nat) : List Byte :=
  let dev := s.servedBy o
  let home := match s.host.conns.find o.conn with | some c => c.home | none => 0
  let total := s.now - o.started
  leBytes 8 o.st.addr ++ leBytes 2 o.conn ++ [BitVec.ofNat 8 o.st.opcode, BitVec.ofNat 8 o.st.subop, BitVec.ofNat 8 r.status.code,
    BitVec.ofNat 8 (o.engine % 8 + 8 * home)] ++ leBytes 2 o.st.length ++ leBytes 4 (s.tick - total / 1000) ++ leBytes 4 (min total (2 ^ 32 - 1)) ++
    leBytes 16 free ++ leBytes 2 o.st.tag ++
    [BitVec.ofNat 8 ((dev != s.self).toNat + 2 * (free / 2 ^ 128 % 4) + bitAt o.segmented 3 + 16 * (free / 2 ^ 130 % 2)), BitVec.ofNat 8 dev] ++ zeros 12

/-- A chosen stitch is recorded when its response is sent (R541, R542). -/
def State.sampleDone (s : State) (o : Op) (r : Response) : State :=
  match o.sample with
  | none => s
  | some least =>
    if s.now - o.started < least then s
    else
      let f := s.draw256
      let p := f.2.bobPush 1 (s.sampleRecord o r f.1.toNat)
      p.2.count (Reg.pmcValue (if p.1 then 491 else 492)) 1

/-- The operation is forgotten, or in the PREPARE phase kept with its lines until COMMIT or ABORT (R274). -/
def State.leaveOp (s : State) (id : Nat) (o : Op) (r : Response) : State :=
  if o.mode = .prepare && r.status == .ok then s.modOp id (fun x => { x with mode := .prepared, phase := .queued })
  else { s with host := { s.host with ops := s.host.ops.drop id } }

/-- Does the completion of an operation acknowledge a write to lines of this device (R219)? -/
def State.wrote (s : State) (o : Op) (r : Response) : Bool :=
  r.status == .ok && o.mode == .normal && (o.st.opcode == 2 || o.st.opcode == 4 || o.st.opcode == 5 || o.st.opcode == 6) &&
    (match o.origin with | .conn _ _ => s.isLocal o | _ => true)

/-- STITCH_COMPLETE (R76): the response of an operation that has ended leaves, to its connection, to the device that forwarded it, or to the
stitch that it is a part of. -/
def execStitchComplete (op : Nat) (s : State) : Result :=
  .next (match s.host.ops.find op with
    | none => s
    | some o => match o.phase with
      | .done r =>
        let s1 := if s.wrote o r then s.staleWrite o.st.addr o.st.length else s
        match o.origin with
        | .conn _ _ => (((s1.sampleDone o r).respond o r).leaveOp op o r)
        | .lace dev opref => (if dev = s1.lace.mgr then s1.sendComplete dev opref o.conn r else s1).leaveOp op o r
        | .part id k => (s1.leaveOp op o r).partDone id k r
      | _ => s)

end Sys2Proof.Machine
end

