-- ==== Sys2Proof/Machine/SamplerCmds.lean ====
section
/-!
DEFINITION. The sampler, journal, counter and keep commands (R465 to R467, R469, R537, R544, R545).
-/
namespace Sys2Proof.Machine

/-! ### The sampler -/

/-- Slots from `first` on whose record's code agrees with `code` in the bits of `mask` (Table 17-7). -/
def State.matchSlots (s : State) (first code mask : Nat) : List Nat :=
  (s.kept.slots.filter (fun e => decide (first ≤ e.1) && Nat.land e.2.keep.code mask == Nat.land code mask)).map (·.1)

/-- SAMPLER_READ (R544). -/
def execSamplerRead (m : Nat) (s : State) : Result :=
  s.command m {
    code := 0x0801, cls := 1, mark := .no,
    check := (fun _ r => (lengthIs 8 r).orElse fun _ => let n := leAt r.data 2 2; if n = 0 || 511 < n then some .length else none),
    eff := fun s r =>
      let l := s.matchSlots (leAt r.data 0 2) (leAt r.data 4 2) (leAt r.data 6 2)
      let n := leAt r.data 2 2
      let now := l.take n
      .done .ok (leBytes 2 now.length ++ leBytes 2 ((l.drop n).headD 0xFFFF) ++ zeros 4 ++ now.flatMap s.slotBytes) s }

/-- SAMPLER_CLEAR (R537): a long-running command; every occurrence that came before is discarded, and MBX_COMMAND_DONE ends the clear. The
source of SAMPLER_CLEARED is the admin key's index; a free value without a key (log entry 2). -/
def execSamplerClear (m : Nat) (s : State) : Result :=
  s.command m {
    code := 0x0802, cls := 3, mark := .yes, check := (fun _ r => lengthIs 0 r),
    eff := fun s r =>
      let (f, s1) := s.draw
      let s2 := (s1.setFlag Reg.smpStatus 13).putBox r.m { s1.box r.m with keyIndex := some (r.key.getD (f.toNat % 65536)) }
      let still (x : SmpSlot) : SmpSlot := { x with work := x.keep, waiting := 0 }
      .later .ok (leBytes 2 s.kept.slots.length ++ zeros 6)
        { s2 with kept := { s2.kept with slots := s2.kept.slots.map (fun e => (e.1, still e.2)) } } }

/-! ### The journal -/

/-- The page of a journal entry (Table 14-10). -/
def JEntry.bytes (e : JEntry) : List Byte :=
  leBytes 4 e.seq ++ leBytes 4 e.time.cycle ++ leBytes 3 e.time.hours ++ leBytes 2 (e.time.seconds % 4096) ++
    [BitVec.ofNat 8 e.iface, BitVec.ofNat 8 e.port, BitVec.ofNat 8 e.form] ++ leBytes 2 e.connId ++ leBytes 2 e.cred ++ leBytes 4 e.object ++
    [BitVec.ofNat 8 e.result, BitVec.ofNat 8 e.newLen] ++ zeros 6 ++ e.old ++ e.new

/-- SEQ of the next entry, and of the oldest held. -/
def State.nextSeq32 (s : State) : Nat := s.kept.nextSeq % 2 ^ 32
/-- OLDEST_SEQ; NEXT_SEQ where none is held. -/
def State.oldestSeq (s : State) : Nat := match s.kept.journal with | e :: _ => e.seq | [] => s.nextSeq32

/-- JOURNAL_READ (R545). -/
def execJournalRead (m : Nat) (s : State) : Result :=
  s.command m {
    code := 0x0810, cls := 1, mark := .no,
    check := (fun s r => (lengthZero 8 6 2 r).orElse fun _ =>
      let n := leAt r.data 4 2
      let q := leAt r.data 0 4
      if n = 0 || 1023 < n then some .length else if q = s.nextSeq32 || seqAfter q s.nextSeq32 then some .address else none),
    eff := fun s r =>
      let q := leAt r.data 0 4
      let l := (s.kept.journal.filter (fun e => e.seq == q || seqAfter e.seq q)).take (leAt r.data 4 2)
      .done .ok (leBytes 2 l.length ++ zeros 2 ++ leBytes 4 s.nextSeq32 ++ l.flatMap JEntry.bytes) s }

/-- The held entries up to a SEQ; `none` where it is not held. -/
def State.heldUpTo (s : State) (q : Nat) : Option (List JEntry) :=
  if s.kept.journal.any (fun e => e.seq == q) then some (s.kept.journal.filter (fun e => !seqAfter e.seq q)) else none

/-- JOURNAL_ARCHIVE (R467, R545): the entries whose digest matches are freed, and the archive is the next entry. -/
def execJournalArchive (m : Nat) (s : State) : Result :=
  s.command m {
    code := 0x0811, cls := 3, mark := .no,
    check := (fun s r => (lengthZero 56 4 4 r).orElse fun _ => match s.heldUpTo (leAt r.data 0 4) with
      | none => some .address
      | some l =>
        if Config.sha384 (l.flatMap JEntry.bytes) ≠ r.data.drop 8 then some .denied
        else if s.kept.closed then some .unavailable else none),
    eff := fun s r =>
      let q := leAt r.data 0 4
      let n := ((s.heldUpTo q).getD []).length
      let s1 : State := { s with kept := { s.kept with journal := s.kept.journal.drop n } }
      let s2 := ((s1.setFld Reg.jnlArchived 31 0 q).count (Reg.jnlCount 4) 1).raise 0xB005 s1.self n
      .done .ok (leBytes 4 n ++ zeros 4) (s2.jAlways (s2.jEntry r.author true 0x0811 .ok [] r.data)) }

/-! ### Counters and sampling -/

/-- Up to `n` packets popped from bobbin SAMPLE, oldest first. -/
def State.popSamples (s : State) : Nat → List (List Byte) × State
  | 0 => ([], s)
  | n + 1 => match s.bobTake 1 with
    | none => ([], s)
    | some (l, t) => let r := State.popSamples t n; (l :: r.1, r.2)

/-- The counter window of a request (R539); an owner that is no connection here has none to keep to. -/
def State.inWindow (s : State) (o : MbxOwner) (first n : Nat) : Bool :=
  match o with
  | .conn id _ => match (s.host.conns.find id).bind (fun c => s.mem.grants.find c.grant) with
    | some g => g.ctr && decide (g.ctrFirst ≤ first) && decide (first + n ≤ g.ctrFirst + g.ctrCount)
    | none => false
  | _ => true

/-- COUNTER_READ (R545). -/
def execCounterRead (m : Nat) (s : State) : Result :=
  s.command m {
    code := 0x0820, cls := 1, mark := .no,
    check := (fun s r => (lengthIs 8 r).orElse fun _ =>
      let kind := leAt r.data 0 1
      let first := leAt r.data 2 2
      let n := leAt r.data 4 2
      if !zeroAt r.data 1 1 || !zeroAt r.data 6 2 then some .length
      else if kind = 0 then
        if n = 0 || 512 < n then some .length
        else if 512 < first + n then some .address
        else if s.inWindow r.owner first n then none else some .denied
      else if kind = 1 then (if n = 0 || 1170 < n then some .length else if r.cls < 2 then some .denied else none)
      else some .opcode),
    eff := fun s r =>
      let n := leAt r.data 4 2
      if leAt r.data 0 1 = 0 then .done .ok ((List.range n).flatMap (fun i => s.counterBytes (leAt r.data 2 2 + i))) s
      else
        let p := s.popSamples n
        .done .ok (leBytes 2 p.1.length ++ zeros 6 ++ p.1.flatten) p.2 }

/-- Registers written one after the other by a command, until one is refused. -/
def State.writeWords (s : State) (a : Author) : List (Nat × Word) → Status × State
  | [] => (.ok, s)
  | (off, v) :: rest => match regDesc off with
    | none => (.ok, s)
    | some d =>
      let r := s.writeWord a off d v
      if r.1 = .ok then State.writeWords r.2 a rest else r

/-- SAMPLING_SET (R545): it writes the PMC_SAMPLE registers. -/
def execSamplingSet (m : Nat) (s : State) : Result :=
  s.command m {
    code := 0x0821, cls := 2, mark := .no,
    check := (fun _ r => (lengthIs 32 r).orElse fun _ =>
      let mode := leAt r.data 0 1
      if !zeroAt r.data 1 1 || !zeroAt r.data 28 4 then some .length
      else if 2 ≤ mode then some .opcode
      else if mode = 1 && leAt r.data 2 2 == 0 then some .length else none),
    eff := fun s r =>
      let n := if leAt r.data 2 2 = 0 then s.fld Reg.pmcSampleCfg 31 16 else leAt r.data 2 2
      let cfg := word (leAt r.data 0 1 + 2 ^ 16 * n + 2 ^ 32 * leAt r.data 4 2 + 2 ^ 48 * leAt r.data 6 2)
      let t := s.writeWords r.author [(Reg.pmcSampleAddr, word (leAt r.data 8 8)), (Reg.pmcSampleSize, word (leAt r.data 16 8)),
        (Reg.pmcSampleMin, word (leAt r.data 24 4)), (Reg.pmcSampleCfg, cfg)]
      .done t.1 [] t.2 }

/-! ### The keep -/

/-- KEEP_STATUS (R469). -/
def execKeepStatus (m : Nat) (s : State) : Result :=
  s.command m (queryCmd 0x0B01 1 0 fun s _ =>
    leBytes 8 (s.view Reg.kepStatus).toNat ++ leBytes 8 (s.view Reg.jnlStatus).toNat ++ leBytes 8 (s.view 0x100010).toNat)

/-- KEEP_WEAR_LIST (R465): NEXT is 0 where no keep register is left (log entry 43). -/
def execKeepWearList (m : Nat) (s : State) : Result :=
  s.command m {
    code := 0x0B02, cls := 1, mark := .no, check := (fun _ r => lengthZero 8 2 6 r),
    eff := fun s r =>
      let first := leAt r.data 0 2
      let l := (keepRegs.drop first).take 500
      let next := if first + 500 < keepRegs.length then first + 500 else 0
      .done .ok (leBytes 2 l.length ++ leBytes 2 next ++ zeros 4 ++ l.flatMap (fun o => leBytes 4 o ++ leBytes 4 (s.kept.counts.get o 0))) s }

end Sys2Proof.Machine
end

