-- ==== Sys2Proof/Machine/PowerOn.lean ====
section
/-!
DEFINITION. What a power-up gives the device: the reset classes (Table 18-5, R553), the findings of the self-test and what follows from them
(R187, R323, R336, R507 to R511), and entering step READY (R265, R266, R490, R506).
-/
namespace Sys2Proof.Machine

/-! ### Registers at reset (Table 18-5) -/

/-- The value of a keep register as the keep holds it; its factory value where it was never written. -/
def State.keepWord (s : State) (off : Nat) : Word := s.kept.kp.get off (word (keepFactory.get off 0))

/-- Registers of the other blocks whose values the keep, the table area or fuses hold. -/
def heldRegs : List Nat := [Reg.stkEpoch, Reg.plcSpare, Reg.secRekey, Reg.secSelvedge, Reg.thmShutdownLast, Reg.hopEpoch, Reg.hopHoopId, Reg.hopTime,
  Reg.hopExit]

/-- Is a register not reset at RESET_RELEASE: it runs from VSTBY, or its value is held elsewhere? -/
def coldStays (off : Nat) : Bool := standbyBlock (off / 0x10000) || heldRegs.contains off

/-- DRC_PORT_CFG at reset, by port (Tables 11-4, 11-11): REG_EN, RATE in 100 MB/s, BURST in KiB. -/
def drcPortReset : Table Nat := [
  (1, 1 + 320 * 2 ^ 4 + 1024 * 2 ^ 16), (2, 1 + 80 * 2 ^ 4 + 256 * 2 ^ 16), (4, 1 + 40 * 2 ^ 4 + 64 * 2 ^ 16), (5, 1 + 80 * 2 ^ 4 + 256 * 2 ^ 16),
  (6, 1 + 40 * 2 ^ 4 + 64 * 2 ^ 16)]

/-- The window of host port `p` at reset (Tables 02-3, 02-5); `role` is the strap role. -/
def State.portReset (s : State) (role p : Nat) : State :=
  let cfg := 2 ^ 2 + 2 ^ 3 + 2 ^ 5 + 2 ^ 16 + 9216 * 2 ^ 32
  (((((s.wr (Reg.ethPortCfg p) (word cfg)).setFld (Reg.ethPortStatus p) 11 10 (if role < 2 then 0 else if role = 2 then 1 else 2)).wr
    (Reg.ethIpTx p) 64).wr (Reg.ethPfcThr p) (word (64 + 32 * 2 ^ 16))).wr (Reg.ethMsecCfg p) (word (64 + 0xC0000000 * 2 ^ 32)))

/-- The LLC ways at reset: the bits of LLC_WAY_DIS are DISABLED, the rest ON (R336). -/
def State.resetWays (s : State) : State :=
  let l := (List.range 512).filter (fun i => s.flag (Reg.llcWayDis (i / 64)) (16 * (i / 16 % 4) + i % 16))
  l.foldl (fun t i => t.putWay (i / 16) (i % 16) { t.way (i / 16) (i % 16) with st := .disabled })
    { s with mem := { s.mem with ways := [] } }

/-- Step RESET_RELEASE (R474, R553): every block but those on VSTBY takes its COLD values; keep registers load their keep values; all blocks
are reachable. Firmware parameters of APPLY 1 take effect (R554). -/
def State.coldReset (s : State) : State :=
  let mode := s.fld Reg.ethLaneMode 9 8
  let passes := s.fld Reg.scrStatus 47 16
  let role := s.fld Reg.glbStrap 1 0
  let s1 : State := { s with regs := s.regs.filter (fun e => coldStays e.1) }
  let s2 := coldFixed.foldl (fun t e => t.wr e.1 (word e.2)) s1
  let s3 := (keepRegs.filter (fun o => !standbyBlock (o / 0x10000))).foldl (fun t o => t.wr o (t.keepWord o)) s2
  let s4 := drcPortReset.foldl (fun t e => t.wr (0x070040 + 8 * e.1) (word e.2)) s3
  let s5 := (List.range 8).foldl (fun t p => t.portReset role p) s4
  let s6 := (((s5.wr Reg.hopTime (word s5.kept.hoopTime)).setFld Reg.ethLaneMode 9 8 mode).setFld Reg.scrStatus 47 16 passes).setFld Reg.secJtag 1 0 (if s.kept.factory then 3 else 0)
  let s7 := ((s6.setFld Reg.hopStatus 1 0 role).setFld Reg.hopStatus 3 2 role).setFld Reg.hopStatus 9 4 (s.fld Reg.glbStrap 7 2)
  let s8 : State := { s7 with
    lace := { s7.lace with mgr := 0, mgrBeat := s7.now }, bob := { bobs := [], wins := [] }
    boot := { s7.boot with items := [], inForce := s7.boot.settings } }
  ((s8.resetWays).clrFlag Reg.stkEpoch 6).clrFlag Reg.glbStatus 3

/-- Step SERDES: the port mode in effect is the one the keep holds (R23). -/
def State.laneMode (s : State) : State := s.setFld Reg.ethLaneMode 9 8 ((s.keepWord Reg.ethLaneMode).field 1 0)

/-- The registers of GLB and PWR at POR, their counters kept (R481, R553). -/
def State.islandReset (s : State) : State :=
  let stays (off : Nat) : Bool := !(off / 0x10000 == 0 || off / 0x10000 == 0x11) || (decide (0x110200 ≤ off) && decide (off < 0x110300)) ||
    off == Reg.glbStrap || off == Reg.pwrLastFault
  let pins := s.fld Reg.pwrStatus 8 8
  let rec' := s.fld Reg.pwrStatus 10 10
  let s1 : State := { s with regs := s.regs.filter (fun e => stays e.1) }
  let s2 := (s1.wr Reg.pwrCfg (s1.keepWord Reg.pwrCfg)).wr Reg.pwrHoldCfg (s1.keepWord Reg.pwrHoldCfg)
  ((s2.setFlag Reg.glbStatus 3).setFld Reg.pwrStatus 8 8 pins).setFld Reg.pwrStatus 10 10 rec'

/-! ### The hold-up measurement (R487, R187) -/

/-- The outcome of a measurement: T_h in ms, C_BANK in µF, and the failure as HOLDUP_FAIL gives it (0: none). `vmin` in mV, `eff` in %. -/
def holdup (vmin eff : Nat) (t : HoldTest) : Nat × Nat × Nat :=
  let d := t.v1 * t.v1 - t.v2 * t.v2
  if t.v1 ≤ vmin then (0, 0, 1)
  else if (t.v1 - t.v2) * 1000 < t.v1 * 2 then (0, 0, 2)
  else
    let th := t.power * t.time * (t.v1 * t.v1 - vmin * vmin) / (d * 80000000)
    (th, 200000 * t.power * t.time / (eff * d), if (th - 5) * 19200000 / 2 ^ 26 < 2 then 3 else 0)

/-- The measurement has ended: HOLD_TEST is low, its results, and HOLDUP_FAIL where it failed. -/
def State.takeHoldup (s : State) (t : HoldTest) : State :=
  let r := holdup (s.fld Reg.pwrHoldCfg 31 16) (s.fld Reg.pwrHoldCfg 38 32) t
  let s1 : State := { s with pwr := { s.pwr with
    held := true, holdTest := false, tH := r.1, cBank := r.2.1, holdFail := r.2.2, v1 := t.v1, v2 := t.v2, testMs := t.time / 1000 } }
  if r.2.2 = 0 then s1 else s1.raise 0xC007 s1.self r.2.2

/-- The dirty ceiling in MiB: OVR_MIB, or what T_h allows at 24 GB/s less 20 %, after 5 ms; in whole 64 MiB up to 16 GiB (R187). -/
def State.ceilingMib (s : State) : Nat :=
  if s.flag Reg.plcCeilingOvr 0 then min 16384 (s.fld Reg.plcCeilingOvr 31 16 / 64 * 64)
  else if s.pwr.holdFail ≠ 0 then 0
  else min 16384 ((s.pwr.tH - 5) * 19200000 / 2 ^ 26 * 64)

/-- The ceiling is set once, at start-up. -/
def State.setCeiling (s : State) : State :=
  let c := s.ceilingMib
  if c = 0 then s
  else
    let ovr := (s.flag Reg.plcCeilingOvr 0).toNat
    (s.wr Reg.plcCeiling (word (c + 2 ^ 16 * ovr + 2 ^ 32 * (c - 64)))).raise 0x3007 s.self (c / 1024)

/-! ### Self-test items (Table 16-4) -/

/-- A result of an item, with its CAUSE and DETAIL (log entry 45). -/
def itemOf (item result : Nat) : ItemResult :=
  { result := result, cause := if result = 0 then 0 else (Config.itemCause item result).toNat,
    detail := if result = 0 then 0 else (Config.itemDetail item result).toNat }

/-- FATAL, DEGRADED or PASS. -/
def grade (fatal degraded : Bool) : Nat := if fatal then 2 else if degraded then 1 else 0

/-- Do the straps disagree with Table 08-1, or does TEST_EN read 1 (R255, R563)? -/
def State.strapsBad (s : State) : Bool :=
  let h := s.fld Reg.glbStrap 7 2
  s.pwr.testEn || match s.fld Reg.glbStrap 1 0 with
  | 0 => h != 0
  | 1 => h != 1
  | 2 => decide (h < 2)
  | _ => true

/-- Do two dies hold fragments of one line (Table 05-7)? -/
def diesShare (a b : Nat) : Bool := a / 8 != b / 8 && (a % 8 + 72 - a / 8) % 8 == (b % 8 + 72 - b / 8) % 8

/-- Would a slice keep fewer than 4 ways? -/
def State.fewWays (s : State) (t : SelfTest) : Bool :=
  (List.range 32).any (fun sl =>
    decide (((List.range 16).filter (fun w => !(s.flag (Reg.llcWayDis (sl / 4)) (16 * (sl % 4) + w)) && !t.ways.contains (sl, w))).length < 4))

/-- Is there no save to replay although the last shutdown was not clean (Table 16-3)? Not asked of a device whose domain failed in
service, since its dirty data is in the DRAM tier (R353). -/
def State.noSave (s : State) : Bool := s.fld Reg.hopExit 33 32 != 1 && s.unconsumed.isNone && !s.mem.domSecond

/-- Does an unconsumed save lack records? -/
def State.saveFails (s : State) (t : SelfTest) : Bool :=
  match s.unconsumed with
  | none => false
  | some g => !g.commit || t.badNodes.any (fun n => g.nodes.has n) || t.badLines.any (fun n => g.lines.has n)

/-- Persisted keys that fail their KCV. -/
def State.failedKeys (s : State) (t : SelfTest) : List Nat := (s.mem.keys.filter (fun e => e.2.persist && t.badKeys.contains e.1)).map (·.1)

/-- Result of items 2 to 10; with `lossOk`, NO_SAVE counts as DEGRADED (R511). -/
def State.grades (s : State) (t : SelfTest) (lossOk : Bool) : List (Nat × Nat) :=
  let chans := (t.channels.filter (· < 10)).eraseDups
  let failed := ((List.range 72).filter (fun d => t.dies.contains d || t.links.contains (d / 8)))
  [(2, grade t.keepBad (t.unsealed != 0)),
   (3, grade (t.sramBad || s.fewWays t) (!t.ways.isEmpty)),
   (4, grade (t.densitiesDiffer || (chans.any (fun a => chans.any (fun b => a != b && a / 5 == b / 5)))) (!chans.isEmpty)),
   (5, grade (decide (2 ≤ ((t.links.filter (· < 9)).eraseDups).length) || failed.any (fun a => failed.any (fun b => diesShare a b))) (!failed.isEmpty)),
   (6, grade t.tablesBad (!t.poisoned.isEmpty)),
   (7, grade (!s.flag Reg.plcCeilingOvr 0 && s.pwr.holdFail != 0) false),
   (8, grade (s.noSave && !lossOk) (s.noSave || s.saveFails t)),
   (9, grade false (!t.tiles.isEmpty)),
   (10, grade false (!(s.failedKeys t).isEmpty))]

/-- RESULT of SELFTEST_REPORT: the worst of the items. -/
def State.testResult (s : State) : Nat := s.boot.items.foldl (fun a e => max a e.2.result) 0

/-- Results of items are recorded, and SELFTEST_FAIL raised for each FATAL one (R509, R528). -/
def State.recordItems (s : State) (l : List (Nat × Nat)) : State :=
  l.foldl (fun t e =>
    let i := itemOf e.1 e.2
    let t1 : State := { t with boot := { t.boot with items := t.boot.items.put e.1 i } }
    if e.2 = 2 then t1.raise 0xE001 e.1 i.cause else t1) s

/-! ### What the findings do -/

/-- Ways whose pattern test fails are DISABLED (R336), where their slice keeps 4. -/
def State.testWays (s : State) (t : SelfTest) : State :=
  if s.fewWays t then s
  else (t.ways.filter (fun e => decide (e.1 < 32) && decide (e.2 < 16))).foldl (fun u e => u.disableWay e.1 e.2 2) s

/-- Channels that fail training are erased from the start; the others are trained, and the capacity is known (R323, R359, R365). -/
def State.testDram (s : State) (t : SelfTest) : State :=
  let bad := (t.channels.filter (· < 10)).eraseDups
  let s1 := (s.putFlag Reg.drcStatus 3 t.dram64).setFld Reg.drcStatus 13 4 (bitSet ((List.range 10).filter (fun c => !bad.contains c)))
  bad.foldl (fun u c => if u.erased c then u else ((u.setFlag Reg.scrDramStatus c).setFlag Reg.scrStatus 3).raise 0x8001 c c) s1

/-- The state of a die after its check at start-up (R316): FAILED where it fails or its link is down; a die that was FAILED returns with
its link as REJOINING. -/
def State.testDie (s : State) (t : SelfTest) (d : Nat) : State :=
  let x := s.die d
  if t.links.contains (d / 8) then s.dieFail d 1
  else if t.dies.contains d then s.dieFail d 3
  else if x.st = .failed then
    (s.putDie d { s.die d with st := .rejoining, cause := 0, erasures := [], current := [], checking := false }).raise 0x200A d 0
  else s

/-- Stack-port links and dies. The registers show the state of every die again. -/
def State.testStacks (s : State) (t : SelfTest) : State :=
  let s1 := (List.range 9).foldl (fun u k =>
    if t.links.contains k then
      let v := u.setFlag (Reg.stkPort k) 1
      { v with mem := { v.mem with retrain := v.mem.retrain.put k (v.now + sec 1) } }
    else (u.setFlag (Reg.stkPort k) 0).setFlag Reg.stkStatus k) s
  (List.range 72).foldl (fun u d => (u.putDie d (u.die d)).testDie t d) s1

/-- Lines whose table entry was lost are poisoned (R301), with TABLE_REPAIR. -/
def State.testTables (s : State) (t : SelfTest) : State :=
  let s1 := t.poisoned.foldl (fun u ln => u.poisonLine ln 0) s
  ((t.poisoned.map (fun ln => (s.localLine ln).getD 0 / 512)).eraseDups).foldl (fun u _ => u.raise 0x200D u.self 0) s1

/-- Persisted keys whose KCV fails: their slots become ABSENT. -/
def State.testKeys (s : State) (t : SelfTest) : State :=
  (s.failedKeys t).foldl (fun u id => u.putKey id { u.keySlot id with st := .absent, key0 := none, key1 := none }) s

/-- The save generation with the records that fail their check missing (R414). -/
def SaveGen.less (g : SaveGen) (t : SelfTest) : SaveGen :=
  let bn := t.badNodes.filter (fun n => g.nodes.has n)
  let bl := t.badLines.filter (fun n => g.lines.has n)
  { g with nodes := g.nodes.filter (fun e => !bn.contains e.1), lines := g.lines.filter (fun e => !bl.contains e.1),
           lostNodes := g.lostNodes ++ bn, lostLines := g.lostLines ++ bl }

/-- The table load and the replay (R507, R508): the start goes on once no item fails FATAL. -/
def State.replayNow (s : State) (t : SelfTest) : State :=
  match s.unconsumed with
  | none => s
  | some g =>
    let s1 := (t.badNodes.filter (fun n => g.nodes.has n)).foldl (fun u _ => u.alarmBare 0x6001 u.self 0 0 0 0) s
    let s2 := (t.badLines.filter (fun n => g.lines.has n)).foldl (fun u ln => u.tagFail ln) s1
    s2.replaySave (g.less t)

/-- The findings of items 2 to 10 take effect and are recorded; with no FATAL item the start goes on to the tables, the
replay, and the refit of every LIVE label (R157). -/
def State.takeTest (s : State) (t : SelfTest) (lossOk : Bool) : State :=
  let g := s.grades t lossOk
  let s1 := ((s.testWays t).testDram t).testStacks t
  let s2 := if t.unsealed = 0 then s1 else (s1.count (Reg.kepCount 3) t.unsealed).raise 0xB006 s1.self t.unsealed
  let s3 := (t.tiles.foldl (fun u x => u.failTile x 2) s2).testKeys t
  let s4 := (s3.recordItems g).setCeiling
  if s4.boot.items.any (fun e => e.2.result == 2) then s4 else ((s4.govOpen.testTables t).replayNow t).refitAll t.sweeps

/-! ### READY (R265, R266, R490, R506) -/

/-- Every periodic work of the device is armed. -/
def State.armAll (s : State) : State :=
  let l : List (Nat × Nat) := [
    (Timer.epoch, sec (s.fld Reg.stkEpochCfg 15 0 - s.fld Reg.stkEpoch 63 32)), (Timer.refit, sec (s.fld Reg.stkEpochCfg 31 24)), (Timer.band, us 100), (Timer.heat, sec (s.fld Reg.plcCfg 15 8)),
    (Timer.level, sec (s.fld Reg.plcMoveCfg 15 8)), (Timer.table, sec 60), (Timer.govDay, sec (86400 - s.opSeconds % 86400)),
    (Timer.govTick, ms 1), (Timer.scrubPass, 0), (Timer.scrubPace, sec 1), (Timer.patrol, sec (60 * s.fld Reg.scrCfg 31 24)),
    (Timer.pause 0, ms 64), (Timer.pause 1, ms 96)]
  let s1 := l.foldl (fun t e => t.arm e.1 e.2) s
  let s2 := if s1.mem.gov.day = s1.dayBucket then s1 else s1.govDayStart
  if s2.mem.rekey.isSome then s2.arm Timer.selvedge (sec 1) else s2

/-- The firmware sets SHT_CFG and SHT_CREDIT_CFG from its settings (R91) and enables the host ports that they name (Table 02-5); enabled ports
train (R28). -/
def State.startPorts (s : State) : State :=
  let c := Config.shtSettings
  (List.range s.portCount).foldl (fun t p =>
    if Config.portSettings.getLsbD p then (t.setFlag (Reg.ethPortCfg p) 0).startTraining p else t)
    ((s.wr Reg.shtCfg (c.1 &&& 0x3FFFFFFFFF3FFFFF)).wr Reg.shtCreditCfg (c.2 &&& 0xFFFFFFFFFFFF))

/-- Every enabled lace link trains, and the acting manager waits DISCOVER_WAIT (R266). -/
def State.startLace (s : State) : State :=
  let s1 := s.lceCfgEffect (s.rd Reg.lceCfg)
  if s1.isManager && !s1.rom then { s1 with lace := { s1.lace with discover := some (s1.now + ms (s1.fld Reg.hopCfg 35 24)) } } else s1

/-- The device enters SERVICE (R490, R506): the data path is enabled, the replayed generation is consumed (R508), a fresh save key is drawn
(R413), an epoch record found as RUNNING says DIRTY (R269), and the manager ends a clearing that was cut short (R174). -/
def State.enterService (s : State) : State :=
  let k := s.draw256
  let s1 := k.2
  let gen := match s1.unconsumed with | some g => g.gen | none => s1.pwr.consumed
  let s2 : State := { s1 with
    power := .full, pwr := { s1.pwr with consumed := gen, saveKey := some k.1 }, host := { s1.host with lastWork := s1.now } }
  let s3 := s2.setFlag Reg.glbStatus 2
  let s4 := (if s3.isManager then s3.clearPanels .none else s3).armAll
  let s5 := if s4.fld Reg.pwrMode 1 0 = 2 then s4.setFld Reg.pwrMode 1 0 s4.pwr.prevMode else s4
  (if s5.fld Reg.pwrMode 1 0 = 1 then s5.toEconomy else s5).startLoads.refreshStale

/-- The device enters HELD: HELD_ENTERED with its cause (R510, R528). -/
def State.enterHeld (s : State) (why : Nat) : State := ({ s with power := .held } : State).raise 0xE002 s.self why

end Sys2Proof.Machine
end

