-- ==== Sys2Proof/Machine/Sequence.lean ====
section
/-!
DEFINITION. The sequencer (R474 to R479): entering a step, its work, SEQSYNC; local sequences and the hold-up save (R478, R488); off and on
requests (R480 to R485); rail faults (R486) and VSTBY (R490, R553).
-/
namespace Sys2Proof.Machine

/-! ### Steps -/

/-- STEP of PWR_STATUS. -/
def State.stepNo (s : State) : Nat := s.fld Reg.pwrStatus 3 0

/-- A local sequence runs (R478). -/
def State.local' (s : State) : Bool := s.flag Reg.pwrStatus 13

/-- The timeout of a step, ns (Table 15-2); none for the rest steps. -/
def State.stepTimeout (s : State) (n : Nat) : Option Nat :=
  match n with
  | 0 => none
  | 12 => none
  | 11 => some (sec 45)
  | 13 => some (sec 5)
  | 14 => some (sec 5)
  | _ => some (ms (s.fld Reg.pwrCfg 17 8))

/-- EN outputs that are high once the work of a step is done (Tables 15-1, 15-2). -/
def railsAfter (n : Nat) : Nat :=
  match n with
  | 3 => 1 | 4 => 2 | 5 => 4 | 6 => 6 | 7 => 7 | 8 => 8 | _ => 0

/-- Output EN_k, and with it the rail's EN; a rail that falls loses its PG. -/
def State.setEn (s : State) (k : Nat) (on : Bool) : State :=
  let r := Reg.pwrRail (k + 2)
  if on then s.setFlag r 33 else (s.clrFlag r 33).clrFlag r 32

/-- The EN outputs up to EN_(n − 1) are high, and their rails in window. -/
def State.railsUp (s : State) (n : Nat) : State :=
  let s1 := (List.range n).foldl (fun t k => (t.setEn k true).setFlag (Reg.pwrRail (k + 2)) 32) s
  { s1 with pwr := { s1.pwr with rails := n } }

/-- The highest EN output falls (R475). -/
def State.lowerRail (s : State) : State :=
  match s.pwr.rails with
  | 0 => s
  | k + 1 => let s1 := s.setEn k false
             { s1 with pwr := { s1.pwr with rails := k, descent := .rails (s1.now + ms 20) } }

/-- The rails begin to fall (R475): no block but those on VSTBY is reachable, the data path is off, and the DRAM is held in reset (R566). -/
def State.railsFall (s : State) : State :=
  ((({ s with pwr := { s.pwr with dramRst := false } } : State).setFlag Reg.glbStatus 3).clrFlag Reg.glbStatus 2).lowerRail

/-! ### Off (step 0) -/

/-- Step 0 is entered (R479, R485, R535, R555): power state STANDBY, the reset cause, device time 0, waiting sampler occurrences committed; a
restart after a hold-up save is armed; only an orderly shutdown leaves the periodically written tables as they were. -/
def State.enterOff (s : State) : State :=
  let c := s.pwr.cause
  let s1 := ({ s with kept := { s.kept with closed := false } } : State).clearCut.recordHeld.commitAll
  let s2 := s1.wr Reg.glbResetCause (word (c + 16 * s1.pwr.causeStep + 2 ^ 32 * s1.fld Reg.kepCycle 31 0))
  let s3 := ((((s2.setFlag Reg.glbStatus 3).clrFlag Reg.glbStatus 2).clrFlag Reg.glbStatus 1).clrFlag Reg.pwrStatus 13)
  let s4 := (List.range 8).foldl (fun t k => t.setEn k false) s3
  let s5 := (if c = 1 then s4.loseVolatile else s4.loseVolatile.fromTable).coolAll
  let auto := c == 3 && decide (12 ≤ s1.pwr.causeStep) && s5.flag Reg.pwrCfg 0
  { s5 with
    power := .standby, tick := 0
    boot := { s5.boot with swap := none, bootOkDue := none, loading := false, diag := none }
    pwr := { s5.pwr with
      deaf := some (s5.now + ms 50), stop := none, forced := false, graceDue := none, refuse := none, descent := .none, rails := 0
      autoDue := if auto then some (s5.now + ms 200) else none
      lth := 0, lcap := 0, coolFrom := none, idling := false, sweeping := false, sweepMore := false, sweepBoxes := [], moreBoxes := [], sweepAt := none
      temps := [], warn := [], action := [], slowAt := [], held := false, holdTest := false, dramRst := false } }

/-! ### Up (steps 1 to 12) -/

/-- Step STBY_OK is entered (R457, R474): power state BRINGUP, device time from 0, the power-cycle count, the operating time resumed; a
thermal shutdown record raises its event (R500). -/
def State.enterOn (s : State) : State :=
  let s1 := (s.setFld Reg.kepCycle 31 0 (s.fld Reg.kepCycle 31 0 + 1)).count (Reg.kepCount 0) 1
  let s2 := (s1.setFld Reg.kepTime 23 0 (s1.kept.timeSlot / 3600)).setFld Reg.kepTime 35 24 (s1.kept.timeSlot % 3600)
  let s3 : State := { s2 with
    power := .bringup, tick := 0
    pwr := { s2.pwr with onReq := false, deaf := none, autoDue := none, stop := none, cause := 1, causeStep := 0, thermHeld := false
                         shutdownNew := none } }
  let s4 := (List.range 10).foldl (fun t r => t.clrFlag (Reg.pwrRail r) 34) (s3.count (Reg.pwrCount 0) 1)
  match s.pwr.shutdownNew with
  | some i => s4.raise 0xD003 s4.self i
  | none => s4

/-- Step AUX is entered: sensors and thermal model run, under the limits that the keep holds (log entry 46). -/
def State.enterAux (s : State) : State :=
  ((((s.wr Reg.thmCfg (s.keepWord Reg.thmCfg)).arm Timer.thermModel (us 100)).arm Timer.sweep (sec 1)).arm Timer.thermTick (ms 100)).arm
    Timer.capTick (ms 10)

/-- What a start finds of an update (Table 16-8): a download that was not verified is discarded, an activation without its seal falls back
to VERIFIED. -/
def State.startStage (s : State) : State :=
  let g := s.boot.stage
  if 1 ≤ g && g ≤ 3 then
    ({ s with boot := { s.boot with stage := 0, staging := [], total := 0, verify := 0 } } : State).raise 0xE008 s.self 0
  else if g = 5 then { s with boot := { s.boot with stage := 4 } } else s

/-- Step SELFTEST is entered: the ROM has an image to load; the items are open but for the straps (R255, R505, R509). The DRAM leaves reset
(R566), and the hold-up measurement raises HOLD_TEST unless OVR_EN is 1 (R487). -/
def State.enterSelfTest (s0 : State) : State :=
  let s := s0.startStage
  ({ s with boot := { s.boot with loading := true, items := [] }, pwr := { s.pwr with
      held := false, holdFail := 0, tH := 0, holdTest := !s.flag Reg.plcCeilingOvr 0, dramRst := true } } : State).recordItems
    [(1, grade s.strapsBad false)]

/-- BOOT_OK (R519, R520): the firmware that runs is counted as started; the pending slot's 72 h begin with its first. -/
def State.bootOk (s : State) : State :=
  let first := s.boot.stage = 6 && s.boot.active = s.boot.pendingSlot && s.boot.activatedAt.isNone
  { s with boot := { s.boot with attempts := 0, bootOkDue := none
                                 activatedAt := if first then some s.opSeconds else s.boot.activatedAt } }

/-- R462: the newest journal entry of each keep register is compared with the register; where they differ, an entry with interface RECOVERY
is appended. -/
def State.recoverKeep (s : State) : State :=
  keepRegs.foldl (fun t off =>
    match s.kept.journal.reverse.find? (fun e => e.object == off && !e.form.testBit 2) with
    | some e =>
      let v := leBytes 8 (t.keepWord off).toNat
      if e.new.take 8 = v then t
      else (t.jAlways (t.jEntry { iface := 6 } false off .internal (e.new.take 8) v)).count (Reg.jnlCount 3) 1
    | none => t) s

/-- The firmware serves (R389, R394, R433): HKP_UP, bobbins NORMAL. -/
def State.firmwareUp (s : State) : State := ((s.bobStart.bobEnter 0).setFlag Reg.glbStatus 1).recoverKeep

/-- Step READY is entered (R490, R509, R512, R519): SERVICE, or HELD after a FATAL item or in ROM recovery. An epoch record found as RUNNING
becomes DIRTY before the device announces (R269). -/
def State.enterReady (s0 : State) : State :=
  let s := if s0.fld Reg.hopExit 33 32 = 0 then s0.setFld Reg.hopExit 33 32 2 else s0
  if s.boot.active = 2 then ((s.enterHeld 3).startPorts).startLace
  else
    let s1 := s.bootOk
    let s2 := if s1.testResult = 2 then s1.enterHeld 1 else s1.enterService
    s2.lockDirectory.startPorts.startLace

/-! ### Down (steps 13 to 15) -/

/-- Step QUIESCE is entered (R483): power state DOWN, the DRAM held in reset (R566), ACCEPTING clears, QUIESCE_GRACE begins; it is 0 when forced. -/
def State.enterQuiesce (s : State) : State :=
  let s1 := ({ s with power := .down, pwr := { s.pwr with dramRst := false } } : State).clrFlag Reg.shtStatus 15
  if s1.pwr.forced then { s1 with pwr := { s1.pwr with graceDue := none, refuse := some s1.now } }
  else { s1 with pwr := { s1.pwr with graceDue := some (s1.now + ms (s1.fld Reg.pwrCfg 27 18)) } }

/-- The end of QUIESCE: every connection is reset with NOT_SERVING, and LEAVE goes out (R483 steps 4 and 5). -/
def State.quiesced (s : State) : State := (s.resetAll 0x05).sendLeave 2

/-- The data path is off: no host port is up, no lace link, and no periodic work runs but that of power and temperature (Sequence 15-1 step 2). -/
def State.pathOff (s : State) : State :=
  let s1 := (List.range 8).foldl (fun t p => ((t.clrFlag (Reg.ethPortStatus p) 0).clrFlag (Reg.ethPortStatus p) 1).setFld (Reg.ethPortStatus p) 5 2 0) s
  let s2 := s1.clrFlag Reg.glbStatus 2
  { s2 with
    host := { s2.host with train := [], inbox := [] }
    lace := { s2.lace with links := [], discover := none }
    timers := s2.timers.filter (fun e => decide (Timer.capTick ≤ e.1) && decide (e.1 ≤ Timer.sweep)) }

/-- Step SAVE is entered: the firmware stops (R433), and the cleaner takes over. -/
def State.enterSave (s : State) : State := (s.clrFlag Reg.glbStatus 1).pathOff

/-- The operating time goes to the next slot pair (R457). -/
def State.timeSlotNow (s : State) : State :=
  ({ s with kept := { s.kept with timeSlot := s.opSeconds } } : State).count (Reg.kepCount 0) 1

/-- The epoch record says CLEAN (R269). -/
def State.exitClean (s : State) : State := (s.saveHoopTime.setFld Reg.hopExit 33 32 1).count (Reg.kepCount 0) 1

/-- The work of an orderly SAVE step (R484). -/
def State.saveOrderly (s : State) : State := (((s.flushAll false).2.allClean).toTable).exitClean.timeSlotNow

/-- The dirty data goes to the save area, of which `records` records are written; with the commit record the epoch record says CLEAN (R484,
R488). -/
def State.saveForced (s : State) (records : Nat) : State :=
  let s1 := s.saveDirty records
  let done := s.heldBack || match s1.pwr.save with | some g => g.commit | none => false
  (if done then s1.exitClean else s1).timeSlotNow

/-- A step is entered (R474, R477): the device holds SEQSYNC low in every step but the rest steps. -/
def State.enterStep (s : State) (n : Nat) : State :=
  let s1 := ({ s with pwr := { s.pwr with stepAt := s.now, hold := n != 0 && n != 12 } } : State).setFld Reg.pwrStatus 3 0 n
  match n with
  | 0 => s1.enterOff
  | 1 => s1.enterOn
  | 2 => s1.enterAux
  | 3 => s1.setEn 0 true
  | 4 => s1.setEn 1 true
  | 5 => s1.laneMode.setEn 2 true
  | 6 => s1.setEn 4 true
  | 7 => s1.setEn 6 true
  | 8 => s1.setEn 7 true
  | 10 => s1.coldReset
  | 11 => s1.enterSelfTest
  | 12 => s1.enterReady
  | 13 => s1.enterQuiesce
  | 14 => s1.enterSave
  | 15 => s1.railsFall
  | _ => s1

/-! ### Local sequences (R478) -/

/-- The hold-up save begins (R478, Sequence 15-1 steps 1 and 2). -/
def State.startSave (s : State) : State :=
  let s1 := (((s.sendLeave 2).clrFlag Reg.shtStatus 15).pathOff).clrFlag Reg.glbStatus 1
  let s2 := (List.range 9).foldl (fun t k => t.setFlag (Reg.stkPort k) 2) s1
  { s2 with power := .save, pwr := { s2.pwr with descent := .saving, graceDue := none } }

/-- A local sequence starts from the present step, with its cause (Table 18-8). -/
def State.localSequence (s : State) (cause : Nat) : State :=
  let n := s.stepNo
  let s1 := ((({ s with pwr := { s.pwr with hold := true, cause := cause, causeStep := n, stop := none, holdTest := false } } : State).setFlag Reg.pwrStatus 13).clrFlag
    Reg.glbStatus 1)
  if n ≤ 2 then s1.enterStep 0
  else if n ≤ 11 then
    let k := max (railsAfter n) s1.pwr.rails
    ({ s1 with pwr := { s1.pwr with rails := if 9 ≤ n then 8 else k } } : State).railsFall
  else s1.startSave

/-- The hold-up save has written its records (Sequence 15-1 steps 5 to 7): HOLD_SAVE with the MiB saved, and the rails fall. -/
def State.saveDone (s : State) (records : Nat) : State :=
  let s1 := s.saveForced records
  let mib := if s.heldBack then 0 else match s1.pwr.save with | some g => g.mib | none => 0
  let s2 := (s1.count (Reg.pwrCount 3) 1).raise 0xC002 s1.self mib
  let s3 := (List.range 9).foldl (fun t k => t.clrFlag (Reg.stkPort k) 2) s2
  (({ s3 with pwr := { s3.pwr with stepAt := s3.now } } : State).setFld Reg.pwrStatus 3 0 15).railsFall

/-! ### Requests (R480 to R485, Table 15-3) -/

/-- The precedence of off requests: HOLD_N over forced over orderly (R482). -/
def rank : Nat → Nat
  | 1 => 1 | 2 => 2 | 7 => 2 | 3 => 3 | _ => 0

/-- An off request waits for the end of the step, unless one of higher precedence does; with the step's work done it acts at once. -/
def State.stopAfter (s : State) (cause : Nat) : State :=
  if s.pwr.hold then
    if rank ((s.pwr.stop).getD 0) < rank cause then { s with pwr := { s.pwr with stop := some cause } } else s
  else s.localSequence cause

/-- An on request (Table 15-3). -/
def State.askOn (s : State) : State :=
  let n := s.stepNo
  if n = 0 then
    if s.pwr.deaf.isSome then { s with pwr := { s.pwr with onReq := true } } else { s with pwr := { s.pwr with hold := true } }
  else if 13 ≤ n then { s with pwr := { s.pwr with onReq := true } } else s

/-- An orderly or forced off request: cause 1, or 2 and 7 (Table 15-3). -/
def State.askOff (s : State) (cause : Nat) : State :=
  let n := s.stepNo
  let forced := cause != 1
  if n = 0 || s.local' then s
  else
    let s1 := if forced then (s.count (Reg.pwrCount 2) 1).raise 0xC005 s.self 0 else if n ≤ 12 then s.count (Reg.pwrCount 1) 1 else s
    if n ≤ 11 then s1.stopAfter cause
    else if n = 12 then
      if s1.pwr.hold && (!forced || s1.pwr.forced) then s1
      else { s1 with pwr := { s1.pwr with hold := true, cause := cause, causeStep := 12, forced := forced } }
    else if n = 13 && forced && !s1.pwr.forced then
      { s1 with pwr := { s1.pwr with forced := true, cause := cause, graceDue := none, refuse := some (s1.pwr.refuse.getD s1.now) } }
    else s1

/-- PB_RELEASE (R480): PB_N is released after `held` ms: an on request at step 0 and from step 13 on, else an off request. -/
def execPbRelease (held : Nat) (s : State) : Result :=
  .next (if s.power = .off || 8000 ≤ held then s
    else if 50 ≤ held && held ≤ 4000 then
      if s.stepNo = 0 || 13 ≤ s.stepNo then s.askOn else s.askOff 1
    else s.count (Reg.pwrCount 6) 1)

/-- PB_FORCED_OFF (R480): PB_N has been low for 8 s. -/
def execPbForcedOff (s : State) : Result := .next (if s.power = .off then s else s.askOff 2)

/-- MRST (R481): a forced off followed by an on request; in STANDBY the management island is reset. The console locks (R445). -/
def execMrst (s : State) : Result :=
  .next (
    let s1 : State := { s with mbx := { s.mbx with console := none } }
    if s.power = .off then s
    else if s.stepNo = 0 then
      let s2 := s1.islandReset
      { s2 with mbx := { s2.mbx with smb := { mailbox := 0, buffer := 0, offset := 0, regAddr := 0, regStatus := .ok, out := [] } }
                pwr := { s2.pwr with autoDue := none, onReq := false } }
    else (({ s1 with pwr := { s1.pwr with onReq := true } } : State).askOff 7))

/-- HOLD_SAVE (R482, R488): HOLD_N has been low for 2 µs. The keep closes to all but the save sequence (R455). -/
def execHoldSave (s : State) : Result :=
  .next (if s.power = .off then s
    else
      let s1 := s.setFlag Reg.pwrStatus 8
      let n := s.stepNo
      if n = 0 then s1
      else
        let s2 := s1.closeKeep
        if s.local' then s2
        else if n ≤ 11 then s2.stopAfter 3
        else if n ≤ 13 || (n = 14 && !s2.pwr.forced) then s2.localSequence 3
        else s2)

/-- HOLD_RISE (R482): the sequence that runs goes on. -/
def execHoldRise (s : State) : Result := .next (if s.power = .off then s else s.clrFlag Reg.pwrStatus 8)

/-- QUIESCE_GRACE_EXPIRE (R483): stitches issued from now on are refused. -/
def execQuiesceGraceExpire (s : State) : Result :=
  .next (match s.pwr.graceDue with
    | some d => if s.due d then { s with pwr := { s.pwr with graceDue := none, refuse := some s.now } } else s
    | none => s)

/-- AUTO_RESTART (R485): 200 ms after step 0, with HOLD_N high. -/
def execAutoRestart (s : State) : Result :=
  .next (match s.pwr.autoDue with
    | some d =>
      if s.due d then
        let s1 : State := { s with pwr := { s.pwr with autoDue := none } }
        if s1.flag Reg.pwrStatus 8 || s1.stepNo ≠ 0 then s1 else ((s1.raise 0xC006 s1.self 0).count (Reg.pwrCount 7) 1).askOn
      else s
    | none => s)

/-! ### The work of a step and SEQSYNC (R475, R477 to R479) -/

/-- The work of the present step is done, and SEQSYNC is released; an off request that waited for it starts its local sequence (R482). -/
def State.workDone (s : State) : State :=
  match s.pwr.stop with
  | some c => s.localSequence c
  | none => { s with pwr := { s.pwr with hold := false } }

/-- FDONE covers every fork that this device, as acting manager, sent to a device that is present (R483 step 5). -/
def State.forksCovered (s : State) : Bool := !s.isManager || !s.lace.forks.any (fun f => s.othersPresent.contains f.dev)

/-- STEP_WORK_DONE (R475, R477, Table 15-2): the work of the present step ends with `out`; an outcome that does not belong to the step, or
work that cannot have ended yet, changes nothing. -/
def execStepWorkDone (out : StepOut) (s : State) : Result :=
  .next (
    let n := s.stepNo
    if s.power = .off then s
    else match s.pwr.descent, out with
    | .saving, .flushed k => s.saveDone k
    | .rails _, .plain => if n = 15 && s.pwr.rails = 0 && s.pwr.hold && !s.local' then s.workDone else s
    | .none, _ =>
      if !s.pwr.hold || s.local' then s
      else match n, out with
        | 1, .straps role haddr sa testEn =>
          (({ s with pwr := { s.pwr with testEn := testEn } } : State).wr Reg.glbStrap (word (role % 4 + 4 * (haddr % 64) + 256 * (sa % 8)))).workDone
        | 2, .sweep l =>
          let s1 := s.takeSweep l
          if s1.aboveThrottle l then (((s1.raise 0xC004 s1.self 2).count (Reg.pwrCount 5) 1).localSequence 6) else s1.workDone
        | 9, .plain => s.workDone
        | 10, .plain => s.workDone
        | 11, .selftest t =>
          if s.boot.loading || !(s.pwr.held || s.flag Reg.plcCeilingOvr 0) then s
          else
            let s1 := s.takeTest t false
            (if s1.boot.active = 2 then s1 else s1.firmwareUp).workDone
        | 13, .plain => if s.pwr.refuse.isSome && s.host.ops.isEmpty && (s.pwr.forced || s.forksCovered) then s.quiesced.workDone else s
        | 14, .plain => if s.pwr.forced then s else s.saveOrderly.workDone
        | 14, .flushed k => if s.pwr.forced then (s.saveForced k).workDone else s
        | k, .plain => if 3 ≤ k && k ≤ 8 then (s.railsUp (railsAfter k)).workDone else s
        | _, _ => s
    | _, _ => s)

/-- SEQ_ADVANCE (R477): the line has been high for 10 µs; after step 15 comes step 0. -/
def execSeqAdvance (s : State) : Result :=
  .next (
    let n := s.stepNo
    if s.power = .off || s.pwr.hold || n = 0 || n = 12 then s
    else s.enterStep (if n = 15 then 0 else n + 1))

/-- Does a command advance the sequence, once this device has released the line? -/
def State.advances (s : State) : Instr → Bool
  | .seqAdvance => !s.pwr.hold
  | _ => false

/-- STEP_TIMEOUT (R477, R478): the line is still low at the step's timeout: STEP_ABORT, and a local sequence. A line that rises in the same cycle
wins (R18). -/
def execStepTimeout (s : State) : Result :=
  .next (match s.stepTimeout s.stepNo with
    | some t =>
      if s.power ≠ .off && !s.local' && s.fires (s.pwr.stepAt + t) s.advances then
        ((s.raise 0xC004 s.self s.stepNo).count (Reg.pwrCount 5) 1).localSequence 6
      else s
    | none => s)

/-- SEQ_REST_LEAVE (R479): the line has been low for 5 µs in a rest step, by this device's hold or another's. -/
def execSeqRestLeave (s : State) : Result :=
  .next (
    let n := s.stepNo
    if s.power = .off || s.local' then s
    else if n = 12 then
      (if s.pwr.hold then s else { s with pwr := { s.pwr with cause := 1, causeStep := 12, forced := false } }).enterStep 13
    else if n = 0 && s.pwr.deaf.isNone then s.enterStep 1
    else s)

/-- OFF_TIME_END (R479): the line has been high for 50 ms in step 0; a latched on request now acts (R482). -/
def execOffTimeEnd (s : State) : Result :=
  .next (match s.pwr.deaf with
    | some d =>
      if s.due d && s.stepNo = 0 then
        let s1 : State := { s with pwr := { s.pwr with deaf := none, onReq := false } }
        if s.pwr.onReq then { s1 with pwr := { s1.pwr with hold := true } } else s1
      else s
    | none => s)

/-- RAIL_DOWN_NEXT (R475): the previous rail is below 10 %, or 20 ms have passed; a local sequence ends with the last rail in step 0. -/
def execRailDownNext (s : State) : Result :=
  .next (match s.pwr.descent with
    | .rails _ =>
      if s.pwr.rails = 0 then if s.local' then s.enterStep 0 else s
      else s.lowerRail
    | _ => s)

/-! ### Rail faults and VSTBY (R473, R486, R490, R553) -/

/-- Is a rail monitored: VSTBY and VAUX from STBY_OK on, the others from the end of the step that enables them until they are lowered
(R473)? -/
def State.monitored (s : State) (rail : Nat) : Bool := s.power != .off && s.stepNo != 0 && decide (rail < s.pwr.rails + 2)

/-- No rail has been found in fault in this power cycle. -/
def State.railsSound (s : State) : Bool := (List.range 10).all (fun r => !s.flag (Reg.pwrRail r) 34)

/-- RAIL_FAULT (R473, R486): the record of the first rail in fault, which a closed keep does not take (R455), and a local sequence at once. -/
def execRailFault (rail : Nat) (s : State) : Result :=
  within (rail < 10) <|
    if !s.monitored rail || s.flag (Reg.pwrRail rail) 34 then s
    else
      let n := s.stepNo
      let s1 := ((s.setFlag (Reg.pwrRail rail) 34).raise 0xC001 s.self rail).count (Reg.pwrCount 4) 1
      let s2 := if s.railsSound && !s.kept.closed then
          (s1.wr Reg.pwrLastFault (word (rail + 2 ^ 8 * n + 2 ^ 32 * s.fld Reg.kepCycle 31 0))).setFlag Reg.pwrStatus 10
        else s1
      if s.local' || n = 15 then s2 else s2.localSequence 4

/-- VSTBY_LOSS (R490, R531, R535): the device is OFF; a save in progress ends with the `saved` records that were written, without its commit
record; the keep's queue, the sampler's working copies and what waits for them are gone. -/
def execVstbyLoss (saved : Nat) (s : State) : Result :=
  .next (
    let cut (s : State) : State := match s.saveDirty saved with
      | t => if s.heldBack then t else { t with pwr := { t.pwr with save := t.pwr.save.map (fun g => { g with commit := false }) } }
    let s1 := if s.power = .off then s else if s.pwr.descent = .saving || (s.stepNo = 14 && s.pwr.forced) then cut s else s
    let s2 := if s.power = .off then s1 else if s.power = .standby then s1.loseWork else s1.loseWork.loseVolatile.fromTable.coolAll
    { s2 with
      power := .off, tick := 0
      kept := { s2.kept with queue := [], smpQ := [], smpHeld := [], closed := false }
      mbx := { s2.mbx with console := none }
      pwr := { s2.pwr with hold := false, onReq := false, stop := none, descent := .none, rails := 0, autoDue := none, deaf := none
                           graceDue := none, refuse := none, holdTest := false, dramRst := false } })

/-- The registers of POR class: those of GLB, PWR, KEP, JNL and SMP, their counters included; the time and cycle of the keep stay (R457,
R553). -/
def State.porReset (s : State) : State :=
  let por (off : Nat) : Bool := standbyBlock (off / 0x10000) && off != Reg.kepCycle && off != Reg.kepTime && off != Reg.pwrLastFault && off != Reg.jnlArchived &&
    off != Reg.smpOverflow && off != Reg.kepStatus
  let rec' := s.fld Reg.pwrStatus 10 10
  let s1 : State := { s with regs := s.regs.filter (fun e => !por e.1) }
  let s2 := ((s1.wr Reg.pwrCfg (s1.keepWord Reg.pwrCfg)).wr Reg.pwrHoldCfg (s1.keepWord Reg.pwrHoldCfg)).wr Reg.smpCfg (s1.keepWord Reg.smpCfg)
  ((((s2.setFlag Reg.glbStatus 3).setFld Reg.pwrStatus 10 10 rec').clrFlag Reg.kepStatus 2).clrFlag Reg.kepStatus 3).wr Reg.smpOverflow (word s.kept.overflow)

/-- VSTBY_ON (R490, R553): VSTBY and VAUX enter their windows: POR, STANDBY at step 0, and the minimum off time. -/
def execVstbyOn (s : State) : Result :=
  .next (if s.power ≠ .off then s
    else
      let s1 := s.porReset
      { s1 with
        power := .standby, tick := 0
        mbx := { s1.mbx with smb := { mailbox := 0, buffer := 0, offset := 0, regAddr := 0, regStatus := .ok, out := [] } }
        pwr := { s1.pwr with stepAt := s1.now, hold := false, deaf := some (s1.now + ms 50), cause := 0, causeStep := 0 } })

end Sys2Proof.Machine
end

