-- ==== Sys2Proof/Machine/Clock.lean ====
section
/-!
DEFINITION. The device tick (R16): what one microsecond changes with no command: GLB_TICK, operating time (R457), the epoch's ELAPSED
(Table 05-13), hoop time (R293), what the copy engine copies (R192), the DRAM controller (R368) and the tree (R412).
-/
namespace Sys2Proof.Machine

/-- Does device time run: from step 1 until step 0 (Table 18-6)? -/
def State.ticking (s : State) : Bool := s.power != .off && s.stepNo != 0

/-- One second of operating time (R457). -/
def State.opSecond (s : State) : State :=
  let n := s.opSeconds + 1
  let s1 := (s.setFld Reg.kepTime 23 0 (n / 3600)).setFld Reg.kepTime 35 24 (n % 3600)
  s1.saturate Reg.stkEpoch 63 32

/-- Hoop time goes on where a hoop was formed (R293). -/
def State.hoopTick (s : State) : State := if s.fld Reg.hopHoopId 15 0 = 0 then s else s.wr Reg.hopTime (s.rd Reg.hopTime + 1)

/-- One microsecond passes with no command waiting: the clock advances, and device time with it while it runs (log entry 1). -/
def State.passTime (s : State) : State :=
  let s1 : State := { s with now := s.now + us 1 }
  if !s1.ticking then s1
  else
    let s2 := ({ s1 with tick := s1.tick + 1 } : State).hoopTick
    let s3 := if s2.inService then s2.copyTick.dramTick.treeTick else s2.dramTick
    if s3.tick % 1000000 = 0 then s3.opSecond else s3

/-- At most one such error is found in a microsecond in which the device runs; which, if any, is a free value (log entry 23). -/
def State.strike (s : State) : State :=
  if s.ticking then
    match Config.storeFault s.free with
    | none => { s with free := s.free + 1 }
    | some f => ({ s with free := s.free + 1 } : State).storeFault f
  else s

/-- A step of the idle block: one microsecond, and the error that a store's code finds in it, if any. -/
def State.idleStep (s : State) : State := s.passTime.strike

end Sys2Proof.Machine
end

