-- ==== Sys2Proof/Machine/Thermal.lean ====
section
/-!
DEFINITION. Thermal shutdown and the thermal model's updates (R494 to R500), the end of the hold-up test (R487), and the power commands
(R501, Table 15-7).
-/
namespace Sys2Proof.Machine

/-! ### Thermal model, sweeps, shutdown -/

/-- The keep record of a thermal shutdown: point, cause, temperature and cycle (R500); a closed keep does not take it (R455). -/
def State.thermalRecord (s : State) (point cause : Nat) : State :=
  if s.kept.closed then s
  else
    let s1 := s.wr Reg.thmShutdownLast (word (point + 2 ^ 5 * cause + 2 ^ 8 * field16 (s.governing point) + 2 ^ 32 * s.fld Reg.kepCycle 31 0))
    { s1 with pwr := { s1.pwr with shutdownNew := some point } }

/-- A thermal shutdown (R500): its record; THERM_N stays low until step 1; a local sequence, unless the device is on its way down in one. -/
def State.thermalStop (s : State) (point cause : Nat) : State :=
  let s1 := s.thermalRecord point cause
  let s2 : State := { s1 with pwr := { s1.pwr with thermHeld := true } }
  if s2.local' || s2.stepNo = 15 then s2 else s2.localSequence 5

/-- The shutdown limits are checked (Table 15-6), once in a power cycle. -/
def State.shutdownCheck (s : State) : State :=
  if s.pwr.thermHeld || s.stepNo < 2 then s
  else match s.shutdownPoint with
    | some (i, c) => s.thermalStop i c
    | none => s

/-- THERMAL_MODEL_UPDATE (R494, R496): new values of the model, in 1/16 °C by point, every 100 µs from step AUX on. -/
def execThermalModelUpdate (model : List Int) (s : State) : Result :=
  .next (s.periodic Timer.thermModel (us 100) fun t => (t.takeModel model).shutdownCheck)

/-- SWEEP_DONE (R495): a sweep that runs has ended. -/
def execSweepDone (readings : List Int) (s : State) : Result :=
  .next (if s.pwr.sweeping then ((s.takeSweep readings).sweepEnd).shutdownCheck else s)

/-- HOLDUP_TEST_END (R487): the measurement of step SELFTEST has ended. -/
def execHoldupTestEnd (test : HoldTest) (s : State) : Result :=
  .next (if s.stepNo = 11 && s.pwr.holdTest && !s.local' then s.takeHoldup test else s)

/-! ### Queries -/

/-- POWER_STATUS (Table 15-7). -/
def State.powerData (s : State) : List Byte :=
  let flags := bitAt s.throttling 0 + bitAt (s.flag Reg.thmCfg 0) 1 + bitAt (s.pwr.lcap != 0) 2 + bitAt (s.flag Reg.pwrCfg 0) 3
  [BitVec.ofNat 8 s.power.num, BitVec.ofNat 8 s.stepNo, BitVec.ofNat 8 (s.fld Reg.pwrMode 1 0), BitVec.ofNat 8 flags] ++
    leBytes 2 (s.fld Reg.pwrMode 23 8) ++ leBytes 2 (s.fld Reg.pwrStatus 31 16) ++ leBytes 2 (s.fld Reg.pwrStatus 47 32) ++
    [BitVec.ofNat 8 (s.fld Reg.pwrLastFault 7 0), BitVec.ofNat 8 (s.fld Reg.pwrLastFault 11 8)] ++ zeros 4

/-- The age of the latest sweep in µs. -/
def State.sweepAge (s : State) : Nat := match s.pwr.sweepAt with | some t => min 0xFFFFFFFE ((s.now - t) / us 1) | none => 0xFFFFFFFF

/-- THERMAL_STATUS (Table 15-7). -/
def State.thermalData (s : State) : List Byte :=
  let flags := bitAt s.throttling 0 + bitAt (s.flag Reg.thmCfg 0) 1 + bitAt (!s.pwr.warn.isEmpty) 2 + bitAt (!s.pwr.action.isEmpty) 3
  leBytes 2 (field16 s.hubTemp) ++ leBytes 2 (field16 s.stackTemp) ++ leBytes 2 (field16 s.rateMax) ++
    [BitVec.ofNat 8 s.level, BitVec.ofNat 8 flags] ++ leBytes 4 s.sweepAge ++ zeros 4 ++
    s.governingAll.flatMap (fun t => leBytes 2 (field16 t))

/-- HOLDUP_STATUS (Table 15-7). -/
def State.holdupData (s : State) : List Byte :=
  leBytes 4 s.pwr.tH ++ [BitVec.ofNat 8 s.holdSource] ++ zeros 3 ++ leBytes 4 s.pwr.cBank ++ leBytes 2 s.pwr.v1 ++ leBytes 2 s.pwr.v2 ++
    leBytes 2 s.pwr.testMs ++ zeros 2 ++ leBytes 4 (s.fld Reg.plcCeiling 15 0)

/-- POWER_STATUS. -/
def execPowerStatus (m : Nat) (s : State) : Result := s.command m (queryCmd 0x0701 1 0 fun s _ => s.powerData)
/-- THERMAL_STATUS. -/
def execThermalStatus (m : Nat) (s : State) : Result := s.command m (queryCmd 0x0710 1 0 fun s _ => s.thermalData)
/-- HOLDUP_STATUS. -/
def execHoldupStatus (m : Nat) (s : State) : Result := s.command m (queryCmd 0x0720 1 0 fun s _ => s.holdupData)

/-! ### Commands that act -/

/-- Does the request of a mailbox select the row whose first byte is `k`? A value that no row names is answered by any of them. -/
def State.selects (s : State) (m k : Nat) : Bool := let b := leAt (s.box m).req 0 1; b == k || decide (3 ≤ b)

/-- The row of a command whose first data byte selects among three rows. -/
def State.choice (s : State) (m k : Nat) (c : Command) : Result := if decide (m < 16) && !s.selects m k then .next s else s.command m c

/-- POWER_MODE_SET (R490 to R493, R501): a write of MODE in PWR_MODE, under R550. -/
def powerModeCmd : Command :=
  { code := 0x0702, cls := 2, mark := .no
    check := fun s r => (lengthZero 8 1 7 r).orElse fun _ =>
      let mode := leAt r.data 0 1
      if 3 ≤ mode then some .length
      else if mode = 2 && (s.power = .held || s.jobRuns) then some .unavailable else none
    eff := fun s r => match regDesc Reg.pwrMode with
      | some d =>
        let x := s.writeWord r.author Reg.pwrMode d ((s.view Reg.pwrMode).withField 1 0 (leAt r.data 0 1))
        .done x.1 [] x.2
      | none => .done .internal [] s }

/-- POWER_MODE_SET with MODE FULL. -/
def execPowerModeSetFull (m : Nat) (s : State) : Result := s.choice m 0 powerModeCmd
/-- POWER_MODE_SET with MODE ECONOMY. -/
def execPowerModeSetEconomy (m : Nat) (s : State) : Result := s.choice m 1 powerModeCmd
/-- POWER_MODE_SET with MODE IDLE. -/
def execPowerModeSetIdle (m : Nat) (s : State) : Result := s.choice m 2 powerModeCmd

/-- POWER_CAP_SET (R493): CAP_W of PWR_MODE, 40 to 118, or 0 to clear it. -/
def execPowerCapSet (m : Nat) (s : State) : Result :=
  s.command m {
    code := 0x0703, cls := 2, mark := .yes
    check := fun _ r => (lengthZero 8 2 6 r).orElse fun _ =>
      let c := leAt r.data 0 2
      if c = 0 || (decide (40 ≤ c) && decide (c ≤ 118)) then none else some .length
    old := fun s _ => leBytes 2 (s.fld Reg.pwrMode 23 8)
    eff := fun s r => .done .ok [] (s.setFld Reg.pwrMode 23 8 (leAt r.data 0 2)) }

/-- SHUTDOWN (R482, R501): the request its KIND names; its response is sent before QUIESCE begins. -/
def shutdownCmd : Command :=
  { code := 0x0704, cls := 3, mark := .always
    check := fun _ r => (lengthZero 8 1 7 r).orElse fun _ => if 3 ≤ leAt r.data 0 1 then some .length else none
    eff := fun s r => match leAt r.data 0 1 with
      | 0 => .done .ok [] (s.askOff 1)
      | 1 => .done .ok [] (s.askOff 2)
      | _ => .done .ok [] (({ s with pwr := { s.pwr with onReq := true } } : State).askOff 1) }

/-- SHUTDOWN with KIND ORDERLY. -/
def execShutdownOrderly (m : Nat) (s : State) : Result := s.choice m 0 shutdownCmd
/-- SHUTDOWN with KIND FORCED. -/
def execShutdownForced (m : Nat) (s : State) : Result := s.choice m 1 shutdownCmd
/-- SHUTDOWN with KIND RESTART. -/
def execShutdownRestart (m : Nat) (s : State) : Result := s.choice m 2 shutdownCmd

/-- THERMAL_SWEEP (R495, R501): completes after the sweep, with its readings. -/
def execThermalSweep (m : Nat) (s : State) : Result :=
  s.command m {
    code := 0x0711, cls := 2, mark := .no
    check := fun _ r => lengthIs 0 r
    eff := fun s r => .later .ok [] (s.requestSweep (some r.m)) }

/-- THM_CFG as THROTTLE_SET gives it. -/
def throttleWord (d : List Byte) : Word :=
  word (leAt d 0 1 % 2 + 2 ^ 8 * leAt d 4 1 + 2 ^ 16 * leAt d 5 1 + 2 ^ 24 * (leAt d 2 2 % 1024) + 2 ^ 34 * (leAt d 6 1 % 64))

/-- THROTTLE_SET (R458, R501): a write of THM_CFG; it completes once its keep pages are sealed. -/
def execThrottleSet (m : Nat) (s : State) : Result :=
  s.command m {
    code := 0x0712, cls := 3, mark := .no
    check := fun _ r =>
      let d := r.data
      if d.length = 8 && zeroAt d 1 1 && zeroAt d 7 1 && leAt d 0 1 ≤ 1 && decide (10 ≤ leAt d 2 2) && leAt d 2 2 ≤ 1000 &&
        decide (85 ≤ leAt d 4 1) && leAt d 4 1 ≤ 105 && decide (70 ≤ leAt d 5 1) && leAt d 5 1 ≤ 85 && decide (5 ≤ leAt d 6 1) && leAt d 6 1 ≤ 50
      then none else some .length
    eff := fun s r => match regDesc Reg.thmCfg with
      | some d =>
        match s.writeKeep r.author false (boxWaiter r.m) Reg.thmCfg d (throttleWord r.data) with
        | (.done st, t) => .done st [] t
        | (.queued, t) => .later .ok [] t
      | none => .done .internal [] s }

end Sys2Proof.Machine
end

