-- ==== Sys2Proof/Machine/Firmware.lean ====
section
/-!
DEFINITION. Loading firmware, live swap and fall-back (R505, R519 to R525), unplanned HKP restarts (R433), the end of a mailbox command
(R438), and the update commands (R513 to R526, Table 16-9).
-/
namespace Sys2Proof.Machine

/-! ### Packages (R513, R514) -/

/-- The 4 bytes of MAGIC. -/
def flgt : List Byte := [0x46, 0x4C, 0x47, 0x54]

/-- What a package says of itself. -/
def pkgOf (b : List Byte) : FwPkg :=
  { version := leAt b 12 4, svn := leAt b 16 4, format := leAt b 20 2, liveOk := leAt b 11 1 % 2 == 1 }

/-- Check FORMAT of Table 16-6. -/
def pkgForm (b : List Byte) : Bool :=
  let n := leAt b 22 2
  let total := leAt b 24 4
  let used := List.range n
  slice b 0 4 == flgt && leAt b 4 2 == 1 && leAt b 6 2 == 512 && decide (1 ≤ n) && decide (n ≤ 8) &&
    used.all (fun i =>
      let ty := leAt b (80 + 16 * i) 2
      decide (1 ≤ ty) && decide (ty ≤ 4) && decide (leAt b (84 + 16 * i) 4 + leAt b (88 + 16 * i) 4 ≤ total)) &&
    !(leAt b 11 1 % 2 == 1 && used.any (fun i => leAt b (80 + 16 * i) 2 == 3))

/-- VERIFY_RESULT of the staged package (Table 16-6). -/
def State.verifyResult (s : State) : Nat :=
  let b := s.boot.staging
  let total := leAt b 24 4
  if !pkgForm b then 2
  else if b.length ≠ total then 3
  else if leAt b 8 2 ≠ 0x4810 || 0xB0 < leAt b 10 1 then 4
  else if !(match s.kept.adminKeys.find (leAt b 400 1) with
    | some k => decide (leAt b 400 1 ≤ 7) && Config.ecdsaOk k (b.take 400) (slice b 408 96)
    | none => false) then 5
  else if Config.sha384 (slice b 512 (total - 512)) ≠ slice b 32 48 then 6
  else if leAt b 16 4 < max s.boot.svnFloor s.fwSvn then 7
  else 1

/-- STATUS of a VERIFY_RESULT (Table 16-6). -/
def verifyStatus (v : Nat) : Status := if v = 1 then .ok else if v ≤ 3 then .length else .denied

/-! ### Falling back (R505, R519, R520, R524) -/

/-- A fall-back with its cause: the pending flag clears, the old settings store stays in force. -/
def State.fallBack (s : State) (cause : Nat) : State :=
  let stage := if s.boot.stage = 6 then 0 else s.boot.stage
  ({ s with boot := { s.boot with stage := stage, fallback := cause, activatedAt := none, attempts := 0, twoStores := false } } : State).raise 0xE005 s.self cause

/-- The firmware of a slot runs, with its settings format. -/
def State.runSlot (s : State) (k : Nat) : State :=
  let f := match s.boot.slots.find k with | some p => p.format | none => s.boot.format
  { s with boot := { s.boot with active := k, format := f } }

/-! ### The firmware comes back (R433) -/

/-- Codes of commands that are journaled (Table 14-5). -/
def journaledCodes : List Nat :=
  [0x0110, 0x0111, 0x0113, 0x0114, 0x0201, 0x0202, 0x0210, 0x0211, 0x0320, 0x0401, 0x0402, 0x0411, 0x0510, 0x0511, 0x0512, 0x0513, 0x0514, 0x0520,
   0x0521, 0x0601, 0x0602, 0x0604, 0x0605, 0x0610, 0x0611, 0x0612, 0x0620, 0x0621, 0x0703, 0x0704, 0x0802] ++
  [0x0811, 0x0902, 0x0903, 0x0904, 0x0905, 0x0906, 0x0A02, 0x0A10]

/-- Those of them that are never refused with JOURNAL_FULL. -/
def alwaysCodes : List Nat := [0x0114, 0x0621, 0x0704, 0x0A02]

/-- A command that was executing at an unplanned restart ends with INTERNAL, with its second journal entry where its first was written. -/
def State.cutCommand (s : State) (m : Nat) : State :=
  let b := s.box m
  if b.st ≠ .busy then s
  else
    let mark : JMark := if !b.begun then .no else if alwaysCodes.contains b.code then .always else if journaledCodes.contains b.code then .yes else .no
    let s1 := if b.begun && b.code == 0x0802 then s.clearCut else s
    (s1.jSecond mark (s.firstEntry m b) .internal).mbxComplete m .internal []

/-- The firmware runs again after a restart: BOOT_OK, HKP_UP, bobbins NORMAL; commands cut short are answered. A verification that was cut
short leaves its package DOWNLOADED, an activation before its seal VERIFIED. -/
def State.firmwareBack (s : State) : State :=
  let s1 := s.bootOk.firmwareUp
  let s2 : State := { s1 with boot := { s1.boot with stage := if s1.boot.stage = 3 then 2 else if s1.boot.stage = 5 then 4 else s1.boot.stage } }
  ((List.range 16).foldl (fun t m => t.cutCommand m) s2).refreshStale

/-! ### Loading (R505, R519, R520) -/

/-- The slot that the update record names: RUNNING_SLOT, or at a start, in a live swap or where it runs the pending slot with one more attempt;
after three, the fall-back of R519. -/
def State.namedSlot (s : State) : Nat × State :=
  if s.boot.stage = 6 && (match s.boot.swap with | some x => x.back == 0 | none => s.stepNo == 11 || s.boot.active == s.boot.pendingSlot) then
    if 3 ≤ s.boot.attempts then (s.boot.running, s.fallBack 1)
    else (s.boot.pendingSlot, { s with boot := { s.boot with attempts := s.boot.attempts + 1 } })
  else (s.boot.running, s)

/-- Can a slot be loaded: one of its copies passes, and its SVN is not below SVN_FLOOR (R505, R514)? -/
def State.slotGood (s : State) (k : Nat) (copies : List Bool) : Bool :=
  match s.boot.slots.find k with
  | some p => copies.any (· == true) && decide (s.boot.svnFloor ≤ p.svn)
  | none => false

/-- The ROM loads a slot: the one named, else the other with cause IMAGE, else ROM recovery (R505, R512). -/
def State.romLoad (s : State) (copies : Nat → List Bool) : State :=
  let r := s.namedSlot
  let k := r.1
  let t := r.2
  if t.slotGood k (copies k) then t.runSlot k
  else if t.slotGood (1 - k) (copies (1 - k)) then ((t.fallBack 5).runSlot (1 - k))
  else ({ t with boot := { t.boot with active := 2 } } : State).raise 0xE009 t.self 0

/-- The end of a live swap: whoever waits for it gets a status when its command is done. -/
def State.endSwap (s : State) (x : Swap) (st : Status) : State :=
  let s1 : State := { s with boot := { s.boot with swap := none, bootOkDue := none, loading := false } }
  (match x.mailbox with
  | some m => s1.putBox m { s1.box m with status := st }
  | none => s1).refreshStale

/-- Mailboxes with a command in execution, other than the one that waits for the swap. -/
def State.busyBoxes (s : State) (x : Swap) : Bool := (List.range 16).any (fun m => (s.box m).st == .busy && x.mailbox != some m)

/-- Live swap, steps 3 to 5 of R520: the state is handed over, the ROM loads, and the new firmware takes over, or BOOT_OK is awaited. -/
def State.swapLoad (s : State) (x : Swap) (copies : Nat → List Bool) (alive : Bool) : State :=
  let s1 := ((s.clrFlag Reg.glbStatus 1).bobEnter 3)
  let s2 := if x.back = 0 then s1 else s1.fallBack x.back
  let want := if x.back = 0 then s2.boot.pendingSlot else s2.boot.running
  let s3 := s2.romLoad copies
  if alive && s3.boot.active ≠ 2 then
    ((s3.bootOk.bobEnter 0).setFlag Reg.glbStatus 1).endSwap x (if s3.boot.active = want then .ok else .internal)
  else { s3 with boot := { s3.boot with loading := false, swap := some { x with handed := true }, bootOkDue := some (s3.now + ms 1500) } }

/-- BOOT_LOAD (R505, R519, R520): the ROM loads the image that the update record names. `copiesA` and `copiesB` say which copies of the slots
pass their checks, `alive` whether the firmware then runs on to BOOT_OK; where it does not, the HKP restarts and the ROM loads again. -/
def execBootLoad (copiesA copiesB : List Bool) (alive : Bool) (s : State) : Result :=
  .next (
    let copies (k : Nat) : List Bool := (if k = 0 then copiesA else copiesB).take 3
    if !s.boot.loading || s.power = .off then s
    else match s.boot.swap with
      | some x => if s.busyBoxes x then s else s.swapLoad x copies alive
      | none =>
        let s1 := s.romLoad copies
        let bad := decide (((copies 0) ++ (copies 1)).length < 6) || ((copies 0) ++ (copies 1)).any (· == false) || decide (s1.boot.slots.length < 2)
        let s2 := if s.stepNo = 11 then s1.recordItems [(0, grade false bad)] else s1
        if s2.boot.active = 2 then
          let s3 : State := { s2 with boot := { s2.boot with loading := false } }
          if s.stepNo = 11 then s3 else s3.enterHeld 3 |>.clrFlag Reg.glbStatus 2
        else if !alive then s2
        else
          let s3 : State := { s2 with boot := { s2.boot with loading := false } }
          if s.stepNo = 11 then s3 else s3.firmwareBack)

/-- HKP_RESTART (R433, R528): an unplanned restart, after a memory error (1) or by the watchdog (2). -/
def execHkpRestart (cause : Nat) (s : State) : Result :=
  .next (
    let n := s.stepNo
    if 11 ≤ n && n ≤ 13 && !s.local' && s.boot.active ≠ 2 && !s.boot.loading && s.boot.bootOkDue.isNone then (s.raise 0xE007 s.self cause).hkpDown
    else s)

/-- Is a command the end of a mailbox command? -/
def endsCommand : Instr → Bool
  | .mbxCommandDone _ => true
  | _ => false

/-- LIVE_SWAP_BUSY_TIMEOUT (R520): a command is still BUSY 1 s into the swap: the activation ends with UNAVAILABLE, and service goes on. -/
def execLiveSwapBusyTimeout (s : State) : Result :=
  .next (match s.boot.swap with
    | some x => if !x.handed && s.fires x.due endsCommand && s.busyBoxes x then s.endSwap x .unavailable else s
    | none => s)

/-- Does a command bring firmware that runs on to BOOT_OK? -/
def bootsAlive : Instr → Bool
  | .bootLoad _ _ alive => alive
  | _ => false

/-- BOOT_OK_TIMEOUT (R520): without BOOT_OK within 1.5 s the ROM loads RUNNING_SLOT, with cause LIVE_FAIL, and FW_ACTIVATE ends with
INTERNAL. -/
def execBootOkTimeout (s : State) : Result :=
  .next (match s.boot.swap, s.boot.bootOkDue with
    | some x, some d =>
      if s.fires d bootsAlive then
        let s1 := if s.boot.stage = 6 then s.fallBack 2 else s
        (((s1.runSlot s1.boot.running).bobEnter 0).setFlag Reg.glbStatus 1).endSwap x .internal
      else s
    | _, _ => s)

/-- A live swap begins (R520): for a mailbox that waits for it or for none, forward (0) or back to RUNNING_SLOT with a cause. -/
def State.startSwap (s : State) (m : Option Nat) (back : Nat) : State :=
  { s with boot := { s.boot with loading := true, swap := some { mailbox := m, due := s.now + sec 1, handed := false, back := back } } }

/-- Does the pending slot's firmware run, after its BOOT_OK? -/
def State.pendingRuns (s : State) : Bool := s.boot.stage == 6 && s.boot.active == s.boot.pendingSlot && s.boot.activatedAt.isSome

/-- CONFIRM_TIMEOUT (R524): 72 h of operating time without FW_CONFIRM. -/
def execConfirmTimeout (s : State) : Result :=
  .next (match s.boot.activatedAt with
    | some t => if s.pendingRuns && decide (t + 259200 ≤ s.opSeconds) && !s.swapping && s.hkpUp then s.startSwap none 3 else s
    | none => s)

/-! ### Activation (R518) -/

/-- Steps 1 to 3 of R518: staging is copied into the slot not running, both slots in ROM recovery; where the settings format differs the
settings are written in both formats; the update record is sealed PENDING. -/
def State.sealPending (s : State) (mode : Nat) : State :=
  let p := pkgOf s.boot.staging
  let dst := if s.boot.active = 2 then 1 - s.boot.running else 1 - s.boot.active
  let slots := if s.boot.active = 2 then (s.boot.slots.put 0 p).put 1 p else s.boot.slots.put dst p
  ({ s with boot := { s.boot with
      slots := slots, stage := 6, pendingSlot := dst, attempts := 0, activatedAt := none
      twoStores := s.boot.active != 2 && p.format != s.boot.format } } : State).raise 0xE004 s.self mode

/-- MBX_COMMAND_DONE (R438): a long-running command completes and its response is held, or answers whoever waits; not before the standby
has applied its change (R278), the panels of a deleted region are cleared (R174), a removed member's panels have moved (R279), the role has passed (R287), its matrix is
programmed or freed (R251), the move of a swatch to be retired has switched (R213), its keep pages are sealed (R458), its sweep has ended
(R501) or the firmware has been swapped (R520). A SAMPLER_CLEAR ends with it (R537), a verification sets its stage (R517), and an activation
that has copied its package seals it and acts as its MODE says (R518). -/
def execMbxCommandDone (m : Nat) (s0 : State) : Result :=
  within (m < 16) <|
    let b := s0.box m
    let s := if b.st = .busy && b.begun && b.code == 0x0202 && !s0.lace.jobs.any (fun j => j.act == .mailbox m) then s0.clearPanels (.mailbox m) else s0
    let moving := match s.lace.removing with | some (_, x) => x == m | none => false
    let passing := match s.lace.handover with | some h => h.mailbox == some m | none => false
    let matrix := s.filet.matrices.any (fun e => e.2.mailbox == some m)
    let retiring := b.code == 0x0320 && s.retiring (leAt b.req 0 4)
    let swap := match s.boot.swap with | some x => x.mailbox == some m | none => false
    let waits := s.lace.jobs.any (fun j => j.act == .mailbox m) || moving || passing || matrix || retiring || s.sealing (boxWaiter m) ||
      s.pwr.sweepBoxes.contains m || s.pwr.moreBoxes.contains m || swap || (b.code == 0x0202 && !s.allCleared)
    if b.st = .busy && b.begun && !waits then
      if b.code = 0x0904 && s.boot.stage = 5 then
        let mode := leAt b.req 0 1
        let t := s.sealPending mode
        if mode = 0 then t.startSwap (some m) 0
        else
          let u := t.mbxComplete m b.status b.resp
          if mode = 1 then (({ u with pwr := { u.pwr with onReq := true } } : State).askOff 1) else u
      else
        let t := if b.code = 0x0802 && s.clearing then s.clearEnd (b.keyIndex.getD 0) (leAt b.resp 0 2)
          else if b.code = 0x0903 && s.boot.stage = 3 then
            let v := leAt b.resp 0 1
            { s with boot := { s.boot with verify := v, stage := if v = 1 then 4 else 2 } }
          else s
        t.mbxComplete m b.status b.resp
    else s

/-! ### The update commands (Table 16-9) -/

/-- Seconds left until CONFIRM_TIMEOUT. -/
def State.confirmLeft (s : State) : Nat :=
  if s.boot.stage ≠ 6 then 0
  else match s.boot.activatedAt with
    | some t => t + 259200 - s.opSeconds
    | none => 259200

/-- FW_STATUS. -/
def State.fwStatusData (s : State) : List Byte :=
  let x := s.boot
  let other := (x.slots.find (1 - x.active)).map (·.version) |>.getD 0
  [BitVec.ofNat 8 x.active, BitVec.ofNat 8 x.stage, BitVec.ofNat 8 x.verify, BitVec.ofNat 8 x.fallback] ++ leBytes 4 s.fwVersion ++ leBytes 4 s.fwSvn ++
    leBytes 4 x.svnFloor ++ leBytes 4 other ++ leBytes 4 (leAt x.staging 12 4) ++ leBytes 4 x.staging.length ++ [BitVec.ofNat 8 x.attempts] ++ zeros 3 ++
    leBytes 4 s.confirmLeft

/-- FW_STATUS. -/
def execFwStatus (m : Nat) (s : State) : Result := s.command m (queryCmd 0x0901 1 0 fun s _ => s.fwStatusData)

/-- FW_DOWNLOAD (R516). -/
def execFwDownload (m : Nat) (s : State) : Result :=
  s.command m {
    code := 0x0902, cls := 3, mark := .yes
    check := fun s r =>
      let off := leAt r.data 0 4
      let total := leAt r.data 4 4
      let n := r.data.length - 8
      if r.data.length < 9 then some .length
      else if off ≠ 0 && off ≠ s.boot.staging.length then some .address
      else if 20 * 2 ^ 20 < total || (off ≠ 0 && total ≠ s.boot.total) || total < off + n then some .length
      else if s.boot.stage = 6 then some .unavailable else none
    eff := fun s r =>
      let off := leAt r.data 0 4
      let total := leAt r.data 4 4
      let all := s.boot.staging.take off ++ r.data.drop 8
      .done .ok [] { s with boot := { s.boot with staging := all, total := total, verify := 0, stage := if all.length = total then 2 else 1 } } }

/-- FW_VERIFY (R514, R517). -/
def execFwVerify (m : Nat) (s : State) : Result :=
  s.command m {
    code := 0x0903, cls := 3, mark := .yes
    check := fun s r => (lengthIs 0 r).orElse fun _ => if s.boot.stage = 2 || s.boot.stage = 4 then none else some .address
    eff := fun s _ =>
      let v := s.verifyResult
      .later (verifyStatus v) (leBytes 1 v ++ zeros 7) { s with boot := { s.boot with stage := 3 } } }

/-- FW_ACTIVATE (R518, R520): staging is being copied, and the slot it goes to holds no valid image meanwhile (Table 16-8); what follows comes with MBX_COMMAND_DONE. In ROM recovery only MODE RESTART is
served (R512). -/
def activateCmd : Command :=
  { code := 0x0904, cls := 3, mark := .yes
    check := fun s r => (lengthZero 8 1 7 r).orElse fun _ =>
      let mode := leAt r.data 0 1
      if 3 ≤ mode || (s.boot.active = 2 && mode ≠ 1) then some .opcode
      else if s.boot.stage ≠ 4 then some .address
      else if mode = 0 && (!(pkgOf s.boot.staging).liveOk || s.swapping) then some .unavailable else none
    eff := fun s _ => .later .ok [] { s with boot := { s.boot with
      stage := 5, slots := if s.boot.active = 2 then [] else s.boot.slots.drop (1 - s.boot.active) } } }

/-- FW_ACTIVATE with MODE LIVE. -/
def execFwActivateLive (m : Nat) (s : State) : Result := s.choice m 0 activateCmd
/-- FW_ACTIVATE with MODE RESTART. -/
def execFwActivateRestart (m : Nat) (s : State) : Result := s.choice m 1 activateCmd
/-- FW_ACTIVATE with MODE NEXT_START. -/
def execFwActivateNextStart (m : Nat) (s : State) : Result := s.choice m 2 activateCmd

/-- FW_CONFIRM (R522): one sealed write commits the pending slot. -/
def execFwConfirm (m : Nat) (s : State) : Result :=
  s.command m {
    code := 0x0905, cls := 3, mark := .yes
    check := fun s r => (lengthIs 0 r).orElse fun _ => if s.pendingRuns then none else some .address
    eff := fun s _ =>
      .done .ok [] (({ s with boot := { s.boot with
        running := s.boot.pendingSlot, stage := 0, svnFloor := max s.boot.svnFloor s.fwSvn, activatedAt := none, twoStores := false } } : State).raise
          0xE006 s.self 0) }

/-- FW_DISCARD (R524): clears staging in stages 1 to 4; in stage PENDING it swaps back where the pending slot runs, else clears the flag. -/
def execFwDiscard (m : Nat) (s : State) : Result :=
  s.command m {
    code := 0x0906, cls := 3, mark := .yes
    check := fun s r => (lengthIs 0 r).orElse fun _ =>
      let g := s.boot.stage
      if g = 0 || g = 5 then some .address else if g = 6 && s.swapping then some .unavailable else none
    eff := fun s r =>
      if s.boot.stage = 6 then
        if s.boot.active = s.boot.pendingSlot then .later .ok [] (s.startSwap (some r.m) 4)
        else .done .ok [] { s with boot := { s.boot with stage := 0, activatedAt := none, attempts := 0, twoStores := false } }
      else .done .ok [] { s with boot := { s.boot with stage := 0, staging := [], total := 0, verify := 0 } } }

end Sys2Proof.Machine
end

