-- ==== Sys2Proof/Machine/SelfTest.lean ====
section
/-!
DEFINITION. The self-test and diagnostic commands (R511, R526, R527, Tables 16-9 and 16-10).
-/
namespace Sys2Proof.Machine

/-- SELFTEST_REPORT: RESULT, and one entry for each of 16 items; an item that no test has reached reads PASS. -/
def State.reportData (s : State) : List Byte :=
  leBytes 1 s.testResult ++ zeros 7 ++
    (List.range 16).flatMap (fun i =>
      let x := s.boot.items.get i { result := 0, cause := 0, detail := 0 }
      leBytes 1 i ++ leBytes 1 x.result ++ leBytes 2 x.cause ++ leBytes 4 x.detail)

/-- SELFTEST_REPORT. -/
def execSelftestReport (m : Nat) (s : State) : Result := s.command m (queryCmd 0x0A01 1 0 fun s _ => s.reportData)

/-- The coherent domain is in service again after its second failure (R353, R511). -/
def State.restartDomain (s : State) : State :=
  if s.fld Reg.cohStatus 1 0 = 0 then s
  else
    let s1 := s.setFld Reg.cohStatus 1 0 0
    { s1 with mem := { s1.mem with domSecond := false, domUp := some s1.now } }

/-- Items 2 to 10 run again on what the tests find; with none FATAL the device goes on to SERVICE (R511). -/
def State.retest (s : State) (t : SelfTest) (test : HoldTest) (lossOk : Bool) : State :=
  let s1 := if s.flag Reg.plcCeilingOvr 0 then s else s.takeHoldup test
  let s2 := s1.takeTest t lossOk
  if s2.testResult = 2 then s2 else ((s2.restartDomain).enterService).sendAnnounce

/-- RETEST (R511): `t` is what the tests of items 2 to 10 find, `test` what the hold-up measurement reads. -/
def execRetest (m : Nat) (t : SelfTest) (test : HoldTest) (s : State) : Result :=
  s.command m {
    code := 0x0A02, cls := 3, mark := .always
    check := fun s r => (lengthZero 8 1 7 r).orElse fun _ =>
      if 2 ≤ leAt r.data 0 1 then some .length else if s.power ≠ .held then some .unavailable else none
    eff := fun s r =>
      let u := s.retest t test (leAt r.data 0 1 == 1)
      .done .ok (leBytes 1 u.testResult ++ zeros 7) u }

/-! ### Diagnostics (R527) -/

/-- Does TARGET name a unit for TEST (Table 16-10)? -/
def State.diagUnit (s : State) (test target : Nat) : Bool :=
  match test with
  | 1 => decide (target < s.portCount)
  | 2 => decide (target < s.laceLinks)
  | 3 => decide (target < 10)
  | 4 => decide (target < 72)
  | 5 => decide (target < 9 * 2 ^ 17)
  | 6 => decide (target < 512)
  | _ => true

/-- Is the target out of service, as Table 16-10 asks outside HELD? -/
def State.diagIdle (s : State) (test target : Nat) : Bool :=
  match test with
  | 1 => !s.flag (Reg.ethPortCfg target) 0
  | 2 => !s.flag Reg.lceCfg target
  | 3 => s.erased target
  | 4 => (s.die target).st == .failed
  | 5 => (s.tile target).st == .free || (s.tile target).st == .failed
  | 6 => let w := (s.way (target / 16) (target % 16)).st; w == .off || w == .disabled
  | _ => true

/-- Does a diagnostic test run? -/
def State.diagRuns (s : State) : Bool := match s.boot.diag with | some d => d.ended.isNone | none => false

/-- DIAG_RUN: one test at a time, with the bobbins in TEST mode while it runs. -/
def execDiagRun (m : Nat) (s : State) : Result :=
  s.command m {
    code := 0x0A10, cls := 3, mark := .yes
    check := fun s r =>
      let test := leAt r.data 0 2
      let target := leAt r.data 4 4
      if r.data.length ≠ 8 || leAt r.data 2 2 ≠ 0 then some .length
      else if test = 0 || 8 ≤ test then some .opcode
      else if !s.diagUnit test target then some .address
      else if s.diagRuns || (s.power ≠ .held && !s.diagIdle test target) then some .unavailable else none
    eff := fun s r =>
      let id := s.boot.nextDiag % 2 ^ 32
      let d : Diag := { id := id, test := leAt r.data 0 2, target := leAt r.data 4 4, began := s.now, ended := none }
      .done .ok (leBytes 4 id ++ zeros 4) (({ s with boot := { s.boot with diag := some d, nextDiag := s.boot.nextDiag + 1 } } : State).bobEnter 2) }

/-- DIAG_DONE: the test ends, its result is held, and the bobbins are NORMAL again; a failure raises DIAG_FAIL. -/
def execDiagDone (ok : Bool) (detail : Nat) (s : State) : Result :=
  .next (match s.boot.diag with
    | some d =>
      if d.ended.isNone then
        let fin : Nat × Nat × Nat := (if ok then 0 else 1, (s.now - d.began) / ms 1, detail)
        let s1 := ({ s with boot := { s.boot with diag := some { d with ended := some fin } } } : State).bobEnter 0
        if ok then s1 else s1.raise 0xF001 d.test (detail % 2 ^ 32)
      else s
    | none => s)

/-- DIAG_RESULT: state and result of the latest test. -/
def execDiagResult (m : Nat) (s : State) : Result :=
  s.command m {
    code := 0x0A11, cls := 1, mark := .no
    check := fun s r => (lengthZero 8 4 4 r).orElse fun _ =>
      match s.boot.diag with
      | some d => if d.id = leAt r.data 0 4 then none else some .address
      | none => some .address
    eff := fun s _ => match s.boot.diag with
      | some d =>
        let e := d.ended.getD (0, (s.now - d.began) / ms 1, 0)
        .done .ok ([BitVec.ofNat 8 d.ended.isSome.toNat, BitVec.ofNat 8 e.1] ++ zeros 2 ++ leBytes 4 e.2.1 ++ leBytes 8 e.2.2) s
      | none => .done .address [] s }

end Sys2Proof.Machine
end

