-- ==== Sys2Proof/Machine/Schedule.lean ====
section
/-!
DEFINITION. Scheduled actions at their hoop time (R294, Table 08-11).
-/
namespace Sys2Proof.Machine

/-- The action itself: a FW_ACTIVATE of the staged firmware as MODE LIVE (R518), or a HANDOVER of the acting manager (R287). The Bool says
whether this device ran it. -/
def State.runAction (s : State) (action : Nat) : Bool × State :=
  if action = 1 then
    if s.boot.stage = 4 && (pkgOf s.boot.staging).liveOk && !s.swapping then (true, (s.sealPending 0).startSwap none 0) else (false, s)
  else if s.isManager && s.standbyDev.isSome && s.lace.standbyCurrent then (true, s.startHandover none)
  else (false, s)

/-- Does a schedule name this device: by its bit of DEVICES, which a HANDOVER ignores? -/
def State.namedBy (s : State) (x : Sched) : Bool := x.action == 2 || x.devices.testBit s.self

/-- Is this device present in its hoop: the acting manager, or with a route to it (R294)? -/
def State.inHoop (s : State) : Bool := s.isManager || (s.nextHop s.lace.mgr).isSome

/-- Does a cancel of a schedule reach this device in the cycle of AT (R18, R294)? -/
def State.cancelWaits (s : State) (id : Nat) (x : Sched) : Bool :=
  decide ((s.rd Reg.hopTime).toNat = x.at') && s.pending.any (fun i => match i with
    | .control _ _ (.cancel k) => k == id
    | .scheduleCancel m => (s.box m).code == 0x0521 && leAt (s.box m).req 0 2 == id
    | _ => false)

/-- SCHEDULE_RUN (R294): the hoop time has reached AT of an armed schedule; it is DONE, and a device that runs the action says so in RAN.
A device that is absent at AT does not run it. -/
def execScheduleRun (id : Nat) (s : State) : Result :=
  .next (match s.lace.scheds.find id with
    | some x =>
      if x.st = 0 && decide (x.at' ≤ (s.rd Reg.hopTime).toNat) && !s.cancelWaits id x then
        let s1 : State := { s with lace := { s.lace with scheds := s.lace.scheds.put id { x with st := 1 } } }
        if !s1.namedBy x || !s1.inHoop then s1
        else
          let r := s1.runAction x.action
          if !r.1 then r.2
          else
            let s2 := r.2.raise 0x500B r.2.self x.action
            let s3 : State := { s2 with lace := { s2.lace with
              scheds := s2.lace.scheds.modify id (fun y => { y with ran := Nat.lor y.ran (2 ^ s2.self) }) } }
            s3.report (.ran s3.self id)
      else s
    | none => s)

end Sys2Proof.Machine
end

