-- ==== Sys2Proof/Machine/Dispatch.lean ====
section
/-!
DEFINITION. One arm per command: the call of its meaning.
-/
namespace Sys2Proof.Machine

/-- The effect of a command on everything but the queue. -/
def exec (i : Instr) (s : State) : Host.Outcome State Fault Refusal :=
  match i with
  | .frameReceive port f => Sys2Proof.Machine.execFrameReceive port f s
  | .pfcReceive port classes pause => Sys2Proof.Machine.execPfcReceive port classes pause s
  | .pfcPauseExpire port cls => Sys2Proof.Machine.execPfcPauseExpire port cls s
  | .pfcXoffRepeat port cls => Sys2Proof.Machine.execPfcXoffRepeat port cls s
  | .frameTransmit port => Sys2Proof.Machine.execFrameTransmit port s
  | .trainTimeout port => Sys2Proof.Machine.execTrainTimeout port s
  | .portLinkUp port => Sys2Proof.Machine.execPortLinkUp port s
  | .portDown port lanes => Sys2Proof.Machine.execPortDown port lanes s
  | .ethPortCfgWrite path port value => Sys2Proof.Machine.execEthPortCfgWrite path port value s
  | .portAdminDown port => Sys2Proof.Machine.execPortAdminDown port s
  | .openRx engine => Sys2Proof.Machine.execOpenRx engine s
  | .openTimeout conn => Sys2Proof.Machine.execOpenTimeout conn s
  | .dataFrame engine => Sys2Proof.Machine.execDataFrame engine s
  | .ackFrame engine => Sys2Proof.Machine.execAckFrame engine s
  | .close engine => Sys2Proof.Machine.execClose engine s
  | .closeAckSend conn => Sys2Proof.Machine.execCloseAckSend conn s
  | .closeLingerExpire conn => Sys2Proof.Machine.execCloseLingerExpire conn s
  | .resetReceive engine => Sys2Proof.Machine.execResetReceive engine s
  | .idleTimeout conn => Sys2Proof.Machine.execIdleTimeout conn s
  | .ackDelayExpire conn => Sys2Proof.Machine.execAckDelayExpire conn s
  | .coalWaitExpire conn => Sys2Proof.Machine.execCoalWaitExpire conn s
  | .stitchComplete op => Sys2Proof.Machine.execStitchComplete op s
  | .noticeRtoExpire conn => Sys2Proof.Machine.execNoticeRtoExpire conn s
  | .shtConnCtlReset path value => Sys2Proof.Machine.execShtConnCtlReset path value s
  | .read op => Sys2Proof.Machine.execRead op s
  | .write op => Sys2Proof.Machine.execWrite op s
  | .writeWaitTimeout op => Sys2Proof.Machine.execWriteWaitTimeout op s
  | .flush op => Sys2Proof.Machine.execFlush op s
  | .fetchAdd op => Sys2Proof.Machine.execFetchAdd op s
  | .swap op => Sys2Proof.Machine.execSwap op s
  | .cmpSwap op => Sys2Proof.Machine.execCmpSwap op s
  | .fetchAnd op => Sys2Proof.Machine.execFetchAnd op s
  | .fetchOr op => Sys2Proof.Machine.execFetchOr op s
  | .fetchXor op => Sys2Proof.Machine.execFetchXor op s
  | .fetchMinS op => Sys2Proof.Machine.execFetchMinS op s
  | .fetchMaxS op => Sys2Proof.Machine.execFetchMaxS op s
  | .fetchMinU op => Sys2Proof.Machine.execFetchMinU op s
  | .fetchMaxU op => Sys2Proof.Machine.execFetchMaxU op s
  | .copy op => Sys2Proof.Machine.execCopy op s
  | .fill op => Sys2Proof.Machine.execFill op s
  | .regRead op => Sys2Proof.Machine.execRegRead op s
  | .regWrite op => Sys2Proof.Machine.execRegWrite op s
  | .ctr op => Sys2Proof.Machine.execCtr op s
  | .mbx op => Sys2Proof.Machine.execMbx op s
  | .filetSubmitScore op => Sys2Proof.Machine.execFiletSubmitScore op s
  | .filetSubmitTopk op => Sys2Proof.Machine.execFiletSubmitTopk op s
  | .filetSubmitThreshold op => Sys2Proof.Machine.execFiletSubmitThreshold op s
  | .filetResultRead op => Sys2Proof.Machine.execFiletResultRead op s
  | .filetResultStatus op => Sys2Proof.Machine.execFiletResultStatus op s
  | .filetResultRelease op => Sys2Proof.Machine.execFiletResultRelease op s
  | .filetResultCancel op => Sys2Proof.Machine.execFiletResultCancel op s
  | .regionCreate m => Sys2Proof.Machine.execRegionCreate m s
  | .regionDelete m => Sys2Proof.Machine.execRegionDelete m s
  | .regionList m => Sys2Proof.Machine.execRegionList m s
  | .grantSet m => Sys2Proof.Machine.execGrantSet m s
  | .grantDelete m => Sys2Proof.Machine.execGrantDelete m s
  | .grantList m => Sys2Proof.Machine.execGrantList m s
  | .senseComplete p f cells epochCells => Sys2Proof.Machine.execSenseComplete p f cells epochCells s
  | .rowOpenTimeout p f => Sys2Proof.Machine.execRowOpenTimeout p f s
  | .programComplete p f outside pulses => Sys2Proof.Machine.execProgramComplete p f outside pulses s
  | .epochPeriodEnd => Sys2Proof.Machine.execEpochPeriodEnd s
  | .epochRecheck => Sys2Proof.Machine.execEpochRecheck s
  | .witnessProgramDone => Sys2Proof.Machine.execWitnessProgramDone s
  | .ladderRefit sweeps => Sys2Proof.Machine.execLadderRefit sweeps s
  | .bandUpdate => Sys2Proof.Machine.execBandUpdate s
  | .flitCrcFail stack same => Sys2Proof.Machine.execFlitCrcFail stack same s
  | .stackLinkRetrain stack ok => Sys2Proof.Machine.execStackLinkRetrain stack ok s
  | .basRead path stack => Sys2Proof.Machine.execBasRead path stack s
  | .lineEvict line => Sys2Proof.Machine.execLineEvict line s
  | .mappingFillDone lsw => Sys2Proof.Machine.execMappingFillDone lsw s
  | .heatHalve => Sys2Proof.Machine.execHeatHalve s
  | .levelPeriod => Sys2Proof.Machine.execLevelPeriod s
  | .moveCopyDone slot bad recopied => Sys2Proof.Machine.execMoveCopyDone slot bad recopied s
  | .moveFinish slot => Sys2Proof.Machine.execMoveFinish slot s
  | .moveTimeout slot copied => Sys2Proof.Machine.execMoveTimeout slot copied s
  | .tableCheckpoint => Sys2Proof.Machine.execTableCheckpoint s
  | .govDayStart => Sys2Proof.Machine.execGovDayStart s
  | .govTokenTick => Sys2Proof.Machine.execGovTokenTick s
  | .slowGraceExpire conn => Sys2Proof.Machine.execSlowGraceExpire conn s
  | .creditCutRepeat conn => Sys2Proof.Machine.execCreditCutRepeat conn s
  | .govRelease => Sys2Proof.Machine.execGovRelease s
  | .hintSet m => Sys2Proof.Machine.execHintSet m s
  | .hintGet m => Sys2Proof.Machine.execHintGet m s
  | .wearStatus m => Sys2Proof.Machine.execWearStatus m s
  | .tierStatus m => Sys2Proof.Machine.execTierStatus m s
  | .swatchRetire m => Sys2Proof.Machine.execSwatchRetire m s
  | .passDone port codes ok => Sys2Proof.Machine.execPassDone port codes ok s
  | .audit tile codes => Sys2Proof.Machine.execAudit tile codes s
  | .tileProgramDone tile ok => Sys2Proof.Machine.execTileProgramDone tile ok s
  | .jobComplete job => Sys2Proof.Machine.execJobComplete job s
  | .resultHoldExpire job => Sys2Proof.Machine.execResultHoldExpire job s
  | .matrixLoad m => Sys2Proof.Machine.execMatrixLoad m s
  | .matrixUnload m => Sys2Proof.Machine.execMatrixUnload m s
  | .matrixRefresh m => Sys2Proof.Machine.execMatrixRefresh m s
  | .matrixStatus m => Sys2Proof.Machine.execMatrixStatus m s
  | .matrixList m => Sys2Proof.Machine.execMatrixList m s
  | .filetStatus m => Sys2Proof.Machine.execFiletStatus m s
  | .tileReturn m => Sys2Proof.Machine.execTileReturn m s
  | .heartbeat link f => Sys2Proof.Machine.execHeartbeat link f s
  | .forward link f => Sys2Proof.Machine.execForward link f s
  | .complete link f => Sys2Proof.Machine.execComplete link f s
  | .routeAck link f => Sys2Proof.Machine.execRouteAck link f s
  | .discover link f => Sys2Proof.Machine.execDiscover link f s
  | .announce link f a => Sys2Proof.Machine.execAnnounce link f a s
  | .control link f c => Sys2Proof.Machine.execControl link f c s
  | .resync link f r => Sys2Proof.Machine.execResync link f r s
  | .heartbeatSend link => Sys2Proof.Machine.execHeartbeatSend link s
  | .heartbeatTimeout link => Sys2Proof.Machine.execHeartbeatTimeout link s
  | .laceLinkLoss link => Sys2Proof.Machine.execLaceLinkLoss link s
  | .laceLinkTrained link => Sys2Proof.Machine.execLaceLinkTrained link s
  | .probationEnd link => Sys2Proof.Machine.execProbationEnd link s
  | .discoverWaitExpire => Sys2Proof.Machine.execDiscoverWaitExpire s
  | .handoverGraceExpire => Sys2Proof.Machine.execHandoverGraceExpire s
  | .scheduleRun id => Sys2Proof.Machine.execScheduleRun id s
  | .lceCfgWrite path value => Sys2Proof.Machine.execLceCfgWrite path value s
  | .hoopStatus m => Sys2Proof.Machine.execHoopStatus m s
  | .memberList m => Sys2Proof.Machine.execMemberList m s
  | .panelMap m => Sys2Proof.Machine.execPanelMap m s
  | .hoopForm m => Sys2Proof.Machine.execHoopForm m s
  | .memberAdmit m => Sys2Proof.Machine.execMemberAdmit m s
  | .memberRemove m => Sys2Proof.Machine.execMemberRemove m s
  | .panelRelease m => Sys2Proof.Machine.execPanelRelease m s
  | .handover m => Sys2Proof.Machine.execHandover m s
  | .schedule m => Sys2Proof.Machine.execSchedule m s
  | .scheduleCancel m => Sys2Proof.Machine.execScheduleCancel m s
  | .scheduleStatus m => Sys2Proof.Machine.execScheduleStatus m s
  | .scrubPassStart => Sys2Proof.Machine.execScrubPassStart s
  | .scrubPace => Sys2Proof.Machine.execScrubPace s
  | .scrubVisit => Sys2Proof.Machine.execScrubVisit s
  | .dramPatrol corrected bad => Sys2Proof.Machine.execDramPatrol corrected bad s
  | .dieFail path value => Sys2Proof.Machine.execDieFail path value s
  | .dieReturn path value => Sys2Proof.Machine.execDieReturn path value s
  | .dieCheckDone d check => Sys2Proof.Machine.execDieCheckDone d check s
  | .resilverSwatch bad => Sys2Proof.Machine.execResilverSwatch bad s
  | .dramAccessDone t codeword out => Sys2Proof.Machine.execDramAccessDone t codeword out s
  | .channelProbeDone group failed => Sys2Proof.Machine.execChannelProbeDone group failed s
  | .channelErase path value => Sys2Proof.Machine.execChannelErase path value s
  | .channelReturn path value => Sys2Proof.Machine.execChannelReturn path value s
  | .refillDone => Sys2Proof.Machine.execRefillDone s
  | .dramPause group retrained failed => Sys2Proof.Machine.execDramPause group retrained failed s
  | .idleFillDone => Sys2Proof.Machine.execIdleFillDone s
  | .llcCfgWrite path value => Sys2Proof.Machine.execLlcCfgWrite path value s
  | .wayCleanDone slice w => Sys2Proof.Machine.execWayCleanDone slice w s
  | .wayJoinDone slice w => Sys2Proof.Machine.execWayJoinDone slice w s
  | .wayLock path value => Sys2Proof.Machine.execWayLock path value s
  | .wayUnlock path value => Sys2Proof.Machine.execWayUnlock path value s
  | .wayReturn path value => Sys2Proof.Machine.execWayReturn path value s
  | .wayDisable path value => Sys2Proof.Machine.execWayDisable path value s
  | .wayTestDone slice w ok => Sys2Proof.Machine.execWayTestDone slice w ok s
  | .rdShared agent line => Sys2Proof.Machine.execRdShared agent line s
  | .rdOwn agent line => Sys2Proof.Machine.execRdOwn agent line s
  | .ownNodata agent line => Sys2Proof.Machine.execOwnNodata agent line s
  | .upgrade agent line => Sys2Proof.Machine.execUpgrade agent line s
  | .wb agent line data => Sys2Proof.Machine.execWb agent line data s
  | .evictClean agent line => Sys2Proof.Machine.execEvictClean agent line s
  | .wr agent line mask data => Sys2Proof.Machine.execWr agent line mask data s
  | .atom agent line f off len operand cmp => Sys2Proof.Machine.execAtom agent line f off len operand cmp s
  | .whint agent line mask data target => Sys2Proof.Machine.execWhint agent line mask data target s
  | .snpShare agent line wrote => Sys2Proof.Machine.execSnpShare agent line wrote s
  | .snpOwn agent line wrote => Sys2Proof.Machine.execSnpOwn agent line wrote s
  | .snpInv agent line wrote => Sys2Proof.Machine.execSnpInv agent line wrote s
  | .fwdData agent line => Sys2Proof.Machine.execFwdData agent line s
  | .grant agent line => Sys2Proof.Machine.execGrant agent line s
  | .ack agent line => Sys2Proof.Machine.execAck agent line s
  | .evicting agent line => Sys2Proof.Machine.execEvicting agent line s
  | .push agent line => Sys2Proof.Machine.execPush agent line s
  | .snoopTimeout agent line => Sys2Proof.Machine.execSnoopTimeout agent line s
  | .salvageWalkDone => Sys2Proof.Machine.execSalvageWalkDone s
  | .domainUp => Sys2Proof.Machine.execDomainUp s
  | .clean path value => Sys2Proof.Machine.execClean path value s
  | .cleanInv path value => Sys2Proof.Machine.execCleanInv path value s
  | .discard path value => Sys2Proof.Machine.execDiscard path value s
  | .lockFill path value => Sys2Proof.Machine.execLockFill path value s
  | .maintDone => Sys2Proof.Machine.execMaintDone s
  | .packetStart core value => Sys2Proof.Machine.execPacketStart core value s
  | .pushData core value => Sys2Proof.Machine.execPushData core value s
  | .pop core out => Sys2Proof.Machine.execPop core out s
  | .drop core value => Sys2Proof.Machine.execDrop core value s
  | .bobbinReset path value => Sys2Proof.Machine.execBobbinReset path value s
  | .bobbinResetDone bob => Sys2Proof.Machine.execBobbinResetDone bob s
  | .staleTailExpire bob => Sys2Proof.Machine.execStaleTailExpire bob s
  | .bobModeWrite path value => Sys2Proof.Machine.execBobModeWrite path value s
  | .keyLoad m => Sys2Proof.Machine.execKeyLoad m s
  | .keyErase m => Sys2Proof.Machine.execKeyErase m s
  | .keyStatus m => Sys2Proof.Machine.execKeyStatus m s
  | .keyRotate m => Sys2Proof.Machine.execKeyRotate m s
  | .keyUnlock m => Sys2Proof.Machine.execKeyUnlock m s
  | .macsecSaInstall m => Sys2Proof.Machine.execMacsecSaInstall m s
  | .macsecSaDelete m => Sys2Proof.Machine.execMacsecSaDelete m s
  | .macsecTxActivate m => Sys2Proof.Machine.execMacsecTxActivate m s
  | .macsecSaStatus m => Sys2Proof.Machine.execMacsecSaStatus m s
  | .jtagUnlock m => Sys2Proof.Machine.execJtagUnlock m s
  | .jtagLock m => Sys2Proof.Machine.execJtagLock m s
  | .jtagNonceRead => Sys2Proof.Machine.execJtagNonceRead s
  | .jtagUnlockSig scope key sig => Sys2Proof.Machine.execJtagUnlockSig scope key sig s
  | .jtagCloseExpire => Sys2Proof.Machine.execJtagCloseExpire s
  | .dmaRefused master addr => Sys2Proof.Machine.execDmaRefused master addr s
  | .rekeyNode => Sys2Proof.Machine.execRekeyNode s
  | .selvedgeCheckpoint => Sys2Proof.Machine.execSelvedgeCheckpoint s
  | .noticeGapEnd conn code keyId => Sys2Proof.Machine.execNoticeGapEnd conn code keyId s
  | .mbxPoll via => Sys2Proof.Machine.execMbxPoll via s
  | .mbxAbort via => Sys2Proof.Machine.execMbxAbort via s
  | .mbxEarlyExpire m => Sys2Proof.Machine.execMbxEarlyExpire m s
  | .mbxTimeout m => Sys2Proof.Machine.execMbxTimeout m s
  | .mbxCommandDone m => Sys2Proof.Machine.execMbxCommandDone m s
  | .identity m => Sys2Proof.Machine.execIdentity m s
  | .deviceStatus m => Sys2Proof.Machine.execDeviceStatus m s
  | .nonceGet m => Sys2Proof.Machine.execNonceGet m s
  | .certGet m => Sys2Proof.Machine.execCertGet m s
  | .provisionLock m => Sys2Proof.Machine.execProvisionLock m s
  | .adminKeySet m => Sys2Proof.Machine.execAdminKeySet m s
  | .adminKeyList m => Sys2Proof.Machine.execAdminKeyList m s
  | .consoleUnlock m => Sys2Proof.Machine.execConsoleUnlock m s
  | .consoleLock m => Sys2Proof.Machine.execConsoleLock m s
  | .consoleLine line => Sys2Proof.Machine.execConsoleLine line s
  | .consoleTimeout => Sys2Proof.Machine.execConsoleTimeout s
  | .sigCloseExpire => Sys2Proof.Machine.execSigCloseExpire s
  | .mbxSel mailbox buffer offset pecOk => Sys2Proof.Machine.execMbxSel mailbox buffer offset pecOk s
  | .mbxDataWrite bytes pecOk => Sys2Proof.Machine.execMbxDataWrite bytes pecOk s
  | .mbxDataRead n => Sys2Proof.Machine.execMbxDataRead n s
  | .mbxSubmit pecOk => Sys2Proof.Machine.execMbxSubmit pecOk s
  | .mbxState => Sys2Proof.Machine.execMbxState s
  | .regAddr off pecOk => Sys2Proof.Machine.execRegAddr off pecOk s
  | .regDataWrite value pecOk => Sys2Proof.Machine.execRegDataWrite value pecOk s
  | .regDataRead => Sys2Proof.Machine.execRegDataRead s
  | .regStatus => Sys2Proof.Machine.execRegStatus s
  | .alertCause => Sys2Proof.Machine.execAlertCause s
  | .alertResponse => Sys2Proof.Machine.execAlertResponse s
  | .smbusTimeout => Sys2Proof.Machine.execSmbusTimeout s
  | .keepPageWriteDone => Sys2Proof.Machine.execKeepPageWriteDone s
  | .operatingTimeSlot => Sys2Proof.Machine.execOperatingTimeSlot s
  | .registerWrite path off value => Sys2Proof.Machine.execRegisterWrite path off value s
  | .fwpWrite path idx value => Sys2Proof.Machine.execFwpWrite path idx value s
  | .pmcValueRead path idx => Sys2Proof.Machine.execPmcValueRead path idx s
  | .railFault rail => Sys2Proof.Machine.execRailFault rail s
  | .stepWorkDone out => Sys2Proof.Machine.execStepWorkDone out s
  | .seqAdvance => Sys2Proof.Machine.execSeqAdvance s
  | .stepTimeout => Sys2Proof.Machine.execStepTimeout s
  | .seqRestLeave => Sys2Proof.Machine.execSeqRestLeave s
  | .offTimeEnd => Sys2Proof.Machine.execOffTimeEnd s
  | .railDownNext => Sys2Proof.Machine.execRailDownNext s
  | .pbRelease held => Sys2Proof.Machine.execPbRelease held s
  | .pbForcedOff => Sys2Proof.Machine.execPbForcedOff s
  | .mrst => Sys2Proof.Machine.execMrst s
  | .holdSave => Sys2Proof.Machine.execHoldSave s
  | .holdRise => Sys2Proof.Machine.execHoldRise s
  | .quiesceGraceExpire => Sys2Proof.Machine.execQuiesceGraceExpire s
  | .autoRestart => Sys2Proof.Machine.execAutoRestart s
  | .vstbyLoss saved => Sys2Proof.Machine.execVstbyLoss saved s
  | .vstbyOn => Sys2Proof.Machine.execVstbyOn s
  | .idleAfterExpire => Sys2Proof.Machine.execIdleAfterExpire s
  | .capControlTick power mean rails => Sys2Proof.Machine.execCapControlTick power mean rails s
  | .thermalLevelTick => Sys2Proof.Machine.execThermalLevelTick s
  | .thermalModelUpdate model => Sys2Proof.Machine.execThermalModelUpdate model s
  | .sensorSweep => Sys2Proof.Machine.execSensorSweep s
  | .sweepDone readings => Sys2Proof.Machine.execSweepDone readings s
  | .thmSweepStart path value => Sys2Proof.Machine.execThmSweepStart path value s
  | .holdupTestEnd test => Sys2Proof.Machine.execHoldupTestEnd test s
  | .powerStatus m => Sys2Proof.Machine.execPowerStatus m s
  | .powerModeSetFull m => Sys2Proof.Machine.execPowerModeSetFull m s
  | .powerModeSetEconomy m => Sys2Proof.Machine.execPowerModeSetEconomy m s
  | .powerModeSetIdle m => Sys2Proof.Machine.execPowerModeSetIdle m s
  | .powerCapSet m => Sys2Proof.Machine.execPowerCapSet m s
  | .shutdownOrderly m => Sys2Proof.Machine.execShutdownOrderly m s
  | .shutdownForced m => Sys2Proof.Machine.execShutdownForced m s
  | .shutdownRestart m => Sys2Proof.Machine.execShutdownRestart m s
  | .thermalStatus m => Sys2Proof.Machine.execThermalStatus m s
  | .thermalSweep m => Sys2Proof.Machine.execThermalSweep m s
  | .throttleSet m => Sys2Proof.Machine.execThrottleSet m s
  | .holdupStatus m => Sys2Proof.Machine.execHoldupStatus m s
  | .bootLoad copiesA copiesB alive => Sys2Proof.Machine.execBootLoad copiesA copiesB alive s
  | .hkpRestart cause => Sys2Proof.Machine.execHkpRestart cause s
  | .liveSwapBusyTimeout => Sys2Proof.Machine.execLiveSwapBusyTimeout s
  | .bootOkTimeout => Sys2Proof.Machine.execBootOkTimeout s
  | .confirmTimeout => Sys2Proof.Machine.execConfirmTimeout s
  | .fwStatus m => Sys2Proof.Machine.execFwStatus m s
  | .fwDownload m => Sys2Proof.Machine.execFwDownload m s
  | .fwVerify m => Sys2Proof.Machine.execFwVerify m s
  | .fwActivateLive m => Sys2Proof.Machine.execFwActivateLive m s
  | .fwActivateRestart m => Sys2Proof.Machine.execFwActivateRestart m s
  | .fwActivateNextStart m => Sys2Proof.Machine.execFwActivateNextStart m s
  | .fwConfirm m => Sys2Proof.Machine.execFwConfirm m s
  | .fwDiscard m => Sys2Proof.Machine.execFwDiscard m s
  | .selftestReport m => Sys2Proof.Machine.execSelftestReport m s
  | .retest m t test => Sys2Proof.Machine.execRetest m t test s
  | .diagRun m => Sys2Proof.Machine.execDiagRun m s
  | .diagDone ok detail => Sys2Proof.Machine.execDiagDone ok detail s
  | .diagResult m => Sys2Proof.Machine.execDiagResult m s
  | .keepStatus m => Sys2Proof.Machine.execKeepStatus m s
  | .keepWearList m => Sys2Proof.Machine.execKeepWearList m s
  | .samplerOccurrence island => Sys2Proof.Machine.execSamplerOccurrence island s
  | .samplerGapExpire slot => Sys2Proof.Machine.execSamplerGapExpire slot s
  | .samplerRead m => Sys2Proof.Machine.execSamplerRead m s
  | .samplerClear m => Sys2Proof.Machine.execSamplerClear m s
  | .journalRead m => Sys2Proof.Machine.execJournalRead m s
  | .journalArchive m => Sys2Proof.Machine.execJournalArchive m s
  | .counterRead m => Sys2Proof.Machine.execCounterRead m s
  | .samplingSet m => Sys2Proof.Machine.execSamplingSet m s
  | .stackLinkTrainingLoss stack => Sys2Proof.Machine.execStackLinkTrainingLoss stack s
  | .routeAckSend dev => Sys2Proof.Machine.execRouteAckSend dev s
  | .resyncSend panel => Sys2Proof.Machine.execResyncSend panel s
  | .refreshAge matrix group => Sys2Proof.Machine.execRefreshAge matrix group s

end Sys2Proof.Machine
end

