-- ==== Sys2Proof/WellFormed.lean ====
section
/-!
DEFINITION. Well-formed commands: the units a command names exist (port 0 to 7, mailbox 0 to 15, link 0 to 15, die 0 to 71, …), and a list
that a frame carries has its length. The device has no other units, so no other command can arrive.
-/
namespace Sys2Proof

/-- Does every unit that the command names exist? -/
def Instr.wf : Instr → Bool
  | .frameReceive port _ | .frameTransmit port | .trainTimeout port | .portLinkUp port | .portDown port _ | .ethPortCfgWrite _ port _
  | .portAdminDown port =>
    decide (port < 8)
  | .pfcReceive port _ pause =>
    decide (port < 8) && pause.quanta.length == 8
  | .pfcPauseExpire port cls | .pfcXoffRepeat port cls =>
    decide (port < 8) && decide (cls < 8)
  | .openRx engine | .dataFrame engine | .ackFrame engine | .close engine | .resetReceive engine =>
    decide (engine < 8)
  | .openTimeout conn | .closeAckSend conn | .closeLingerExpire conn | .idleTimeout conn | .ackDelayExpire conn | .coalWaitExpire conn
  | .noticeRtoExpire conn | .slowGraceExpire conn | .creditCutRepeat conn | .noticeGapEnd conn _ _ =>
    decide (conn < 0xFFFF)
  | .stitchComplete _ | .shtConnCtlReset _ _ | .read _ | .write _ | .writeWaitTimeout _ | .flush _ | .fetchAdd _ | .swap _ | .cmpSwap _
  | .fetchAnd _ | .fetchOr _ | .fetchXor _ | .fetchMinS _ | .fetchMaxS _ | .fetchMinU _ | .fetchMaxU _ | .copy _ | .fill _ | .regRead _
  | .regWrite _ | .ctr _ | .mbx _ | .filetSubmitScore _ | .filetSubmitTopk _ | .filetSubmitThreshold _ | .filetResultRead _
  | .filetResultStatus _ | .filetResultRelease _ | .filetResultCancel _ | .epochPeriodEnd | .epochRecheck | .witnessProgramDone
  | .ladderRefit _ | .bandUpdate | .heatHalve | .levelPeriod | .tableCheckpoint | .govDayStart | .govTokenTick | .govRelease
  | .jobComplete _ | .resultHoldExpire _ | .discoverWaitExpire | .handoverGraceExpire | .scheduleRun _ | .lceCfgWrite _ _ | .scrubPassStart
  | .scrubPace | .scrubVisit | .dramPatrol _ _ | .dieFail _ _ | .dieReturn _ _ | .resilverSwatch _ | .dramAccessDone _ _ _
  | .channelErase _ _ | .channelReturn _ _ | .refillDone | .idleFillDone | .llcCfgWrite _ _ | .wayLock _ _ | .wayUnlock _ _
  | .wayReturn _ _ | .wayDisable _ _ | .salvageWalkDone | .domainUp | .clean _ _ | .cleanInv _ _ | .discard _ _ | .lockFill _ _
  | .maintDone | .bobbinReset _ _ | .bobModeWrite _ _ | .jtagNonceRead | .jtagCloseExpire | .rekeyNode | .selvedgeCheckpoint | .mbxPoll _
  | .mbxAbort _ | .consoleLine _ | .consoleTimeout | .sigCloseExpire | .mbxSel _ _ _ _ | .mbxDataWrite _ _ | .mbxDataRead _ | .mbxSubmit _
  | .mbxState | .regAddr _ _ | .regDataWrite _ _ | .regDataRead | .regStatus | .alertCause | .alertResponse | .smbusTimeout
  | .keepPageWriteDone | .operatingTimeSlot | .registerWrite _ _ _ | .stepWorkDone _ | .seqAdvance | .stepTimeout | .seqRestLeave
  | .offTimeEnd | .railDownNext | .pbRelease _ | .pbForcedOff | .mrst | .holdSave | .holdRise | .quiesceGraceExpire | .autoRestart
  | .vstbyLoss _ | .vstbyOn | .idleAfterExpire | .capControlTick _ _ _ | .thermalLevelTick | .thermalModelUpdate _ | .sensorSweep
  | .sweepDone _ | .thmSweepStart _ _ | .holdupTestEnd _ | .bootLoad _ _ _ | .hkpRestart _ | .liveSwapBusyTimeout | .bootOkTimeout
  | .confirmTimeout | .diagDone _ _ | .resyncSend _ | .refreshAge _ _ =>
    true
  | .regionCreate m | .regionDelete m | .regionList m | .grantSet m | .grantDelete m | .grantList m | .hintSet m | .hintGet m
  | .wearStatus m | .tierStatus m | .swatchRetire m | .matrixLoad m | .matrixUnload m | .matrixRefresh m | .matrixStatus m | .matrixList m
  | .filetStatus m | .tileReturn m | .hoopStatus m | .memberList m | .panelMap m | .hoopForm m | .memberAdmit m | .memberRemove m
  | .panelRelease m | .handover m | .schedule m | .scheduleCancel m | .scheduleStatus m | .keyLoad m | .keyErase m | .keyStatus m
  | .keyRotate m | .keyUnlock m | .macsecSaInstall m | .macsecSaDelete m | .macsecTxActivate m | .macsecSaStatus m | .jtagUnlock m
  | .jtagLock m | .mbxEarlyExpire m | .mbxTimeout m | .mbxCommandDone m | .identity m | .deviceStatus m | .nonceGet m | .certGet m
  | .provisionLock m | .adminKeySet m | .adminKeyList m | .consoleUnlock m | .consoleLock m | .powerStatus m | .powerModeSetFull m
  | .powerModeSetEconomy m | .powerModeSetIdle m | .powerCapSet m | .shutdownOrderly m | .shutdownForced m | .shutdownRestart m
  | .thermalStatus m | .thermalSweep m | .throttleSet m | .holdupStatus m | .fwStatus m | .fwDownload m | .fwVerify m | .fwActivateLive m
  | .fwActivateRestart m | .fwActivateNextStart m | .fwConfirm m | .fwDiscard m | .selftestReport m | .retest m _ _ | .diagRun m
  | .diagResult m | .keepStatus m | .keepWearList m | .samplerRead m | .samplerClear m | .journalRead m | .journalArchive m
  | .counterRead m | .samplingSet m =>
    decide (m < 16)
  | .senseComplete p f _ _ | .rowOpenTimeout p f | .programComplete p f _ _ =>
    decide (p < 2 ^ 34) && decide (f < 9)
  | .flitCrcFail stack _ | .stackLinkRetrain stack _ | .basRead _ stack | .stackLinkTrainingLoss stack =>
    decide (stack < 9)
  | .lineEvict line =>
    decide (line < 2 ^ 56)
  | .mappingFillDone lsw =>
    decide (lsw < 29360128)
  | .moveCopyDone slot _ _ | .moveFinish slot | .moveTimeout slot _ =>
    decide (slot < 64)
  | .passDone port _ _ =>
    decide (port < 144)
  | .audit tile _ | .tileProgramDone tile _ =>
    decide (tile < 9 * 2 ^ 17)
  | .heartbeat link _ | .forward link _ | .complete link _ | .routeAck link _ | .discover link _ | .announce link _ _ | .control link _ _
  | .resync link _ _ | .heartbeatSend link | .heartbeatTimeout link | .laceLinkLoss link | .laceLinkTrained link | .probationEnd link =>
    decide (link < 16)
  | .dieCheckDone d _ =>
    decide (d < 72)
  | .channelProbeDone group _ | .dramPause group _ _ =>
    decide (group < 2)
  | .wayCleanDone slice w | .wayJoinDone slice w | .wayTestDone slice w _ =>
    decide (slice < 32) && decide (w < 16)
  | .rdShared agent line | .rdOwn agent line | .ownNodata agent line | .upgrade agent line | .wb agent line _ | .evictClean agent line
  | .wr agent line _ _ | .atom agent line _ _ _ _ _ | .whint agent line _ _ _ | .snpShare agent line _ | .snpOwn agent line _
  | .snpInv agent line _ | .fwdData agent line | .grant agent line | .ack agent line | .evicting agent line | .push agent line
  | .snoopTimeout agent line =>
    decide (agent < 27) && decide (line < 2 ^ 56)
  | .packetStart core _ | .pushData core _ | .pop core _ | .drop core _ =>
    decide (core < 4)
  | .bobbinResetDone bob | .staleTailExpire bob =>
    decide (bob < 65536)
  | .jtagUnlockSig scope key sig =>
    decide (scope < 256) && decide (key < 256) && sig.length == 96
  | .dmaRefused master addr =>
    (master == 1 || master == 2) && decide (addr < 2 ^ 64)
  | .fwpWrite _ idx _ =>
    decide (idx < 8192)
  | .pmcValueRead _ idx =>
    decide (idx < 512)
  | .railFault rail =>
    decide (rail < 10)
  | .samplerOccurrence island =>
    decide (island < 46)
  | .samplerGapExpire slot =>
    decide (slot ≤ 2048)
  | .routeAckSend dev =>
    decide (dev < 64)

end Sys2Proof
end

