-- ==== Sys2Proof/Safety.lean ====
section
/-!
DEFINITION. What counts as sound in the terms claims use: the canonical form of the tables that hold registers, memory and work, the bounds
the spec gives to queues and rings, and when a step is safe.
-/
namespace Sys2Proof.Machine

/-- The register map is canonical: offsets strictly rising, no register listed that holds zero. -/
def State.RegsCanonical (s : State) : Prop := s.regs.wfD 0 = true

/-- The tables that hold the device's memory are canonical: stripes of the medium, LLC lines, the eviction buffer, the DRAM tier, agents'
lines, internal lines, tree nodes, programs in progress, pricking and ledger. -/
structure State.MemCanonical (s : State) : Prop where
  med : s.mem.med.wf = true
  llc : s.mem.llc.wf = true
  evb : s.mem.evb.wf = true
  tier : s.mem.tier.wf = true
  agents : s.mem.agents.wf = true
  nodes : s.mem.nodes.wf = true
  programs : s.mem.programs.wf = true
  intern : s.mem.intern.wfD 0 = true
  prk : s.mem.prk.wfD Prk.unwritten = true
  ldg : s.mem.ldg.wfD Ldg.unused = true

/-- The tables of connections and of operations are canonical. -/
def State.HostCanonical (s : State) : Prop := s.host.conns.wf = true ∧ s.host.ops.wf = true

/-- No island queues more than 16 occurrences toward the keep island (R540). -/
def State.QueuesBounded (s : State) : Prop := ∀ i, (s.kept.smpQ.filter (fun e => e.1 == i)).length ≤ 16

/-- The change journal's ring holds at most 8,192 entries (R466). -/
def State.RingBounded (s : State) : Prop := s.kept.journal.length ≤ 8192

/-- A device that has left its factory state holds an admin key (R450). -/
def State.LockedHasKey (s : State) : Prop := s.kept.factory = false → s.kept.adminKeys ≠ []

/-- What every step keeps. -/
structure State.Sound (s : State) : Prop where
  regs : s.RegsCanonical
  mem : s.MemCanonical
  host : s.HostCanonical
  queues : s.QueuesBounded
  ring : s.RingBounded
  locked : s.LockedHasKey

/-- A step is safe where it answers a next state. -/
def Safe (r : Result) : Prop := ∃ t, r = .next t

/-- Every command that waits names units the device has. -/
def State.QueueWf (s : State) : Prop := ∀ c ∈ s.pending, c.wf = true

/-! ### What statements about arriving frames and operations suppose -/

/-- A frame of type `ftype` on a connection is at the front of engine `e`'s inbox and passes the checks of Table 03-15 up to STATE: `d` is the
payload, `s1` the state once it is taken from the inbox and its CE mark is seen, `h` its header, `c` its connection and `g` the connection's
grant. -/
structure State.Arrives (s : State) (e ftype : Nat) (d : Delivered) (s1 : State) (h : FrameHdr) (c : Conn) (g : Grant) : Prop where
  engine : e < 8
  front : ∃ u, s.takeFront e = some (d, u) ∧ s1 = u.sawCe h.connId d ∧ u.host.conns.find h.connId = some c ∧
    u.mem.grants.find c.grant = some g
  good : classify d.bytes = .good h
  type : h.ftype = ftype
  source : grantPermits g d.peer.ip = true
  state : stateOk c h = true

/-- Operation `op` is the queued stitch `o`, and nothing issued earlier holds it back (R102, R113, R114). -/
structure State.Ready (s : State) (op : Nat) (o : Op) : Prop where
  found : s.host.ops.find op = some o
  queued : o.phase = .queued
  begins : s.mayBegin op o = true

/-- A stitch that addresses this device passes the checks of Table 04-2. -/
structure State.DeviceReady (s : State) (op opcode : Nat) (o : Op) : Prop where
  ready : s.Ready op o
  opcode : o.st.opcode = opcode
  passes : s.deviceCheck o = none
  here : o.st.device = s.self

/-- A FILET_RESULT of a SUBOP passes its checks and names the job `id`, which is `j` where the submitter may see one. -/
structure State.ResultReady (s : State) (op subop : Nat) (o : Op) (id : Nat) (j : Option FJob) : Prop where
  ready : s.Ready op o
  opcode : o.st.opcode = 8
  subop : o.st.subop = subop
  form : s.resultForm o.st = none
  passes : s.filetCheck o = none
  names : id = leAt o.st.payload 0 4
  job : j = (s.filet.jobs.find id).bind (fun j => if sameOwner j.owner o.origin &&
    j.matrix == (match s.matrixAt o.st.addr with | some (m, _) => m | none => 0) then some j else none)

/-! ### What statements about mailbox commands and lace frames suppose -/

/-- Mailbox `m` is BUSY with a request of command `code` that has not begun, the firmware serves, and checks 5 and 6 of R437 give the request
`r` its class `cls`; `t` is the state after them (a nonce is used up). -/
structure State.Asked (s : State) (m code cls : Nat) (r : Req) (t : State) : Prop where
  mailbox : m < 16
  busy : (s.box m).st = .busy
  code : (s.box m).code = code
  fresh : (s.box m).begun = false
  serving : s.serving = true
  right : s.authorise m (s.box m) cls = (.inl r, t)

/-- Check 9 of R437 passes: the journal has room, and the keep is not closed. -/
structure State.KeepOpen (t : State) : Prop where
  room : t.jnlFull = false
  running : t.kept.closed = false

/-- The change is in the journal, with its prior record and its data (R463). -/
def State.entered (t : State) (r : Req) (code : Nat) (old new : List Byte) : State := t.jAppend (t.jEntry r.author true code .ok old new)

/-- A long-running command runs; its response is held until MBX_COMMAND_DONE (R438). -/
def State.running (s : State) (m : Nat) (resp : List Byte) : State :=
  s.putBox m { s.box m with begun := true, status := .ok, resp := resp }

/-- A command that changes tables ends: at once with OK on a device without a standby, else held until the standby has applied the change
(R278). -/
def State.changed (s : State) (m : Nat) (l : List TableChange) : State :=
  if s.standbyDev.isNone then (s.change l .none).mbxComplete m .ok [] else (s.change l (.mailbox m)).running m []

/-- The state with what the lane words of a lace frame tell of the link. -/
def State.laceHeard (s : State) (n : Nat) (f : LaceIn) : State := f.fec.foldl (fun t w => t.laceFec n w) s

/-- The state once a lace frame is taken from its link, before its body acts. -/
def State.laceTaken (s : State) (n : Nat) (f : LaceIn) (h : LaceHdr) : State :=
  let v := s.laceHeard n f
  let u := (v.count (Reg.lceCount n 0) 1).linkTake n h
  if h.hoopId = v.hoopId then u.sawEpoch h.src h.epoch else u

/-- A lace frame of a type with header `h` comes on a link that is trained, passes the checks of R261, and is for this device; `t` is the
state once it is taken. -/
structure State.LaceArrives (s : State) (n ltype : Nat) (f : LaceIn) (h : LaceHdr) (t : State) : Prop where
  link : n < 16
  trained : (s.link n).st ≠ .down ∧ (s.link n).st ≠ .training
  header : h = parseLace f.bytes
  passes : (s.laceHeard n f).laceCause n f = 0
  type : h.ltype = ltype
  taken : t = if routeType ltype then (s.laceTaken n f h).routeTake h else s.laceTaken n f h
  here : routeType ltype = true → h.dst = (s.laceTaken n f h).self

/-- A lace frame of a route type with header `h` comes on a link that is trained, passes the checks of R261, and is for another device; `t`
is the state once it is taken from its link. -/
structure State.LacePasses (s : State) (n ltype : Nat) (f : LaceIn) (h : LaceHdr) (t : State) : Prop where
  link : n < 16
  trained : (s.link n).st ≠ .down ∧ (s.link n).st ≠ .training
  header : h = parseLace f.bytes
  passes : (s.laceHeard n f).laceCause n f = 0
  type : h.ltype = ltype
  taken : t = s.laceTaken n f h
  elsewhere : h.dst ≠ t.self

/-- A schedule that is armed becomes CANCELLED (R294). -/
def Sched.cancelled (x : Sched) : Sched := if x.st = 0 then { x with st := 2 } else x

/-- Mailbox `m`, which was `b`, runs a long-running command for which nothing is waited any more: the standby's copy of its change, a member's
panels, the handover, a matrix, a swatch's move, its keep pages, a sweep, a live swap and the panels of a deleted region (R438). -/
structure State.MayEnd (s : State) (m : Nat) (b : Mailbox) : Prop where
  mailbox : m < 16
  busy : b.st = .busy
  begun : b.begun = true
  jobs : s.lace.jobs.any (fun j => j.act == .mailbox m) = false
  panels : ∀ d, s.lace.removing ≠ some (d, m)
  handover : ∀ h, s.lace.handover = some h → h.mailbox ≠ some m
  matrix : s.filet.matrices.any (fun e => e.2.mailbox == some m) = false
  swatch : b.code = 0x0320 → s.retiring (leAt b.req 0 4) = false
  pages : s.sealing (boxWaiter m) = false
  sweep : s.pwr.sweepBoxes.contains m = false ∧ s.pwr.moreBoxes.contains m = false
  swap : ∀ x, s.boot.swap = some x → x.mailbox ≠ some m
  cleared : b.code = 0x0202 → s.allCleared = true

/-! ### Frames: what a command may change -/

/-- The parts of the state by which commands are told apart. -/
inductive Area where
  | tick | regs | timers | power | host | journal | events | factory | kept | mbx | tables | keys | data | mem | lace | filet | bob | pwr
  | boot | seen | macs | adminKeys
  deriving DecidableEq, Repr

/-- The part of `t` is that of `s`: `journal` is the ring and its SEQ, `events` the occurrences on their way to the keep island, `factory`,
`adminKeys` and `macs` the factory state, the admin keys and the MAC addresses, `kept` all that the keep island holds; `tables` regions, grants and directory,
`keys` the key slots, `data` the medium, the caches and the DRAM tier, `mem` the whole memory side; the others are the fields of their
names. -/
def Area.same (s t : State) : Area → Prop
  | .tick => t.tick = s.tick
  | .regs => t.regs = s.regs
  | .timers => t.timers = s.timers
  | .power => t.power = s.power
  | .host => t.host = s.host
  | .journal => t.kept.journal = s.kept.journal ∧ t.kept.nextSeq = s.kept.nextSeq
  | .events => t.kept.smpQ = s.kept.smpQ
  | .factory => t.kept.factory = s.kept.factory
  | .kept => t.kept = s.kept
  | .mbx => t.mbx = s.mbx
  | .tables => t.mem.regions = s.mem.regions ∧ t.mem.grants = s.mem.grants ∧ t.mem.dir = s.mem.dir
  | .keys => t.mem.keys = s.mem.keys
  | .data => t.mem.med = s.mem.med ∧ t.mem.llc = s.mem.llc ∧ t.mem.evb = s.mem.evb ∧ t.mem.tier = s.mem.tier ∧ t.mem.intern = s.mem.intern ∧
      t.mem.agents = s.mem.agents
  | .mem => t.mem = s.mem
  | .lace => t.lace = s.lace
  | .filet => t.filet = s.filet
  | .bob => t.bob = s.bob
  | .pwr => t.pwr = s.pwr
  | .boot => t.boot = s.boot
  | .seen => t.seen = s.seen
  | .macs => t.kept.macs = s.kept.macs
  | .adminKeys => t.kept.adminKeys = s.kept.adminKeys

/-- The parts that a command may change; it leaves the others alone. -/
def Instr.mayChange : Instr → List Area
  | .frameReceive _ _ | .pfcReceive _ _ _ | .pfcXoffRepeat _ _ | .trainTimeout _ | .portLinkUp _ | .openRx _ | .slowGraceExpire _
  | .creditCutRepeat _ =>
    [.regs, .host]
  | .pfcPauseExpire _ _ | .closeAckSend _ | .ackDelayExpire _ | .coalWaitExpire _ | .flush _ | .filetResultRead _ | .filetResultStatus _ =>
    [.host]
  | .frameTransmit _ | .portDown _ _ | .portAdminDown _ | .writeWaitTimeout _ =>
    [.regs, .host, .events, .kept]
  | .ethPortCfgWrite _ _ _ | .shtConnCtlReset _ _ | .regWrite _ | .lceCfgWrite _ _ | .dieFail _ _ | .dieReturn _ _ | .channelErase _ _
  | .channelReturn _ _ | .llcCfgWrite _ _ | .wayLock _ _ | .wayUnlock _ _ | .wayReturn _ _ | .wayDisable _ _ | .clean _ _ | .cleanInv _ _
  | .discard _ _ | .lockFill _ _ | .bobbinReset _ _ | .bobModeWrite _ _ | .regDataWrite _ _ | .registerWrite _ _ _ | .fwpWrite _ _ _
  | .thmSweepStart _ _ =>
    [.regs, .power, .host, .journal, .events, .kept, .mbx, .tables, .keys, .data, .mem, .lace, .filet, .bob, .pwr, .boot, .macs]
  | .openTimeout _ | .closeLingerExpire _ =>
    [.host, .mbx, .mem, .filet]
  | .dataFrame _ | .close _ =>
    [.regs, .power, .host, .mbx, .mem, .filet, .pwr]
  | .ackFrame _ | .resetReceive _ | .idleTimeout _ | .noticeRtoExpire _ =>
    [.regs, .host, .mbx, .mem, .filet]
  | .stitchComplete _ | .senseComplete _ _ _ _ =>
    [.regs, .host, .events, .kept, .keys, .data, .mem, .lace, .filet, .bob]
  | .read _ | .write _ | .fetchAdd _ | .swap _ | .cmpSwap _ | .fetchAnd _ | .fetchOr _ | .fetchXor _ | .fetchMinS _ | .fetchMaxS _
  | .fetchMinU _ | .fetchMaxU _ | .copy _ | .fill _ | .programComplete _ _ _ _ | .lineEvict _ | .resilverSwatch _ | .maintDone =>
    [.regs, .host, .events, .kept, .keys, .data, .mem, .lace]
  | .regRead _ | .ctr _ =>
    [.regs, .host, .lace]
  | .mbx _ | .mbxPoll _ | .mbxAbort _ =>
    [.regs, .host, .mbx, .lace]
  | .filetSubmitScore _ | .filetSubmitTopk _ | .filetSubmitThreshold _ =>
    [.regs, .host, .lace, .filet]
  | .filetResultRelease _ | .filetResultCancel _ =>
    [.regs, .host, .kept, .mbx, .tables, .data, .mem, .lace, .filet]
  | .regionCreate _ | .regionDelete _ | .grantSet _ | .grantDelete _ | .matrixUnload _ | .memberAdmit _ | .memberRemove _
  | .panelRelease _ =>
    [.regs, .host, .journal, .events, .kept, .mbx, .tables, .data, .mem, .lace, .filet]
  | .regionList _ | .grantList _ | .hintGet _ | .wearStatus _ | .tierStatus _ | .matrixStatus _ | .matrixList _ | .filetStatus _
  | .hoopStatus _ | .memberList _ | .panelMap _ | .scheduleStatus _ | .keyStatus _ | .macsecSaInstall _ | .macsecSaDelete _
  | .macsecTxActivate _ | .macsecSaStatus _ | .jtagLock _ | .identity _ | .deviceStatus _ | .nonceGet _ | .certGet _ | .adminKeyList _
  | .consoleUnlock _ | .consoleLock _ | .powerStatus _ | .powerCapSet _ | .thermalStatus _ | .throttleSet _ | .holdupStatus _
  | .fwStatus _ | .selftestReport _ | .diagResult _ | .keepStatus _ | .keepWearList _ | .samplerRead _ | .samplerClear _ | .journalRead _
  | .journalArchive _ =>
    [.regs, .host, .journal, .events, .kept, .mbx]
  | .rowOpenTimeout _ _ =>
    [.mem]
  | .epochPeriodEnd | .epochRecheck | .ladderRefit _ | .govDayStart | .scrubPassStart =>
    [.regs, .timers, .events, .kept, .mem]
  | .witnessProgramDone | .bandUpdate | .dramPatrol _ _ =>
    [.regs, .timers, .mem]
  | .flitCrcFail _ _ | .passDone _ _ _ | .audit _ _ | .dramAccessDone _ _ _ | .channelProbeDone _ _ | .stackLinkTrainingLoss _
  | .resyncSend _ | .refreshAge _ _ =>
    [.regs, .host, .events, .kept, .keys, .data, .mem, .lace, .filet]
  | .stackLinkRetrain _ _ =>
    [.regs, .mem, .filet]
  | .basRead _ _ | .regDataRead | .pmcValueRead _ _ =>
    [.regs, .mbx, .seen]
  | .mappingFillDone _ | .moveCopyDone _ _ _ =>
    [.regs, .events, .kept, .data, .mem]
  | .heatHalve | .tableCheckpoint | .scrubPace | .selvedgeCheckpoint =>
    [.timers, .mem]
  | .levelPeriod =>
    [.regs, .timers, .host, .events, .kept, .mem, .lace]
  | .moveFinish _ | .moveTimeout _ _ =>
    [.regs, .host, .events, .kept, .data, .mem, .lace]
  | .govTokenTick =>
    [.regs, .timers, .power, .host, .events, .kept, .data, .mem, .lace, .pwr]
  | .govRelease =>
    [.regs, .host, .mem, .lace]
  | .hintSet _ | .swatchRetire _ =>
    [.regs, .host, .journal, .events, .kept, .mbx, .mem, .lace]
  | .tileProgramDone _ _ | .matrixLoad _ | .matrixRefresh _ | .control _ _ _ =>
    [.regs, .host, .journal, .events, .kept, .mbx, .tables, .keys, .data, .mem, .lace, .filet]
  | .jobComplete _ =>
    [.regs, .host, .events, .kept, .mbx, .tables, .keys, .data, .mem, .lace, .filet]
  | .resultHoldExpire _ =>
    [.filet]
  | .tileReturn _ =>
    [.regs, .host, .journal, .events, .kept, .mbx, .filet]
  | .heartbeat _ _ | .complete _ _ | .routeAck _ _ | .discover _ _ | .announce _ _ _ | .resync _ _ _ | .heartbeatTimeout _
  | .laceLinkLoss _ | .discoverWaitExpire =>
    [.regs, .host, .events, .kept, .mbx, .tables, .data, .mem, .lace, .filet]
  | .forward _ _ =>
    [.regs, .power, .host, .events, .kept, .mbx, .tables, .data, .mem, .lace, .filet, .pwr]
  | .heartbeatSend _ | .routeAckSend _ =>
    [.regs, .lace]
  | .laceLinkTrained _ =>
    [.lace]
  | .probationEnd _ =>
    [.regs, .events, .kept, .lace]
  | .handoverGraceExpire =>
    [.regs, .host, .mbx, .mem, .lace, .filet]
  | .scheduleRun _ =>
    [.regs, .host, .events, .kept, .lace, .boot]
  | .hoopForm _ | .handover _ | .schedule _ | .scheduleCancel _ =>
    [.regs, .host, .journal, .events, .kept, .mbx, .lace]
  | .scrubVisit =>
    [.regs, .mem, .bob]
  | .dieCheckDone _ _ | .refillDone =>
    [.regs, .events, .kept, .mem]
  | .dramPause _ _ _ =>
    [.regs, .timers, .host, .events, .kept, .data, .mem, .lace]
  | .idleFillDone | .holdRise =>
    [.regs]
  | .wayCleanDone _ _ | .snpShare _ _ _ | .snpOwn _ _ _ | .push _ _ | .salvageWalkDone =>
    [.regs, .data, .mem]
  | .wayJoinDone _ _ =>
    [.regs, .mem]
  | .wayTestDone _ _ _ =>
    [.regs, .journal, .events, .kept, .mem]
  | .rdShared _ _ | .rdOwn _ _ | .ownNodata _ _ | .upgrade _ _ | .wr _ _ _ _ | .atom _ _ _ _ _ _ _ | .whint _ _ _ _ _ | .grant _ _
  | .ack _ _ | .evicting _ _ =>
    [.regs, .host, .events, .kept, .keys, .data, .mem, .lace, .filet, .bob, .boot]
  | .wb _ _ _ | .evictClean _ _ =>
    [.regs, .host, .events, .kept, .data, .mem, .lace, .filet, .bob, .boot]
  | .snpInv _ _ _ | .fwdData _ _ =>
    [.data, .mem]
  | .snoopTimeout _ _ =>
    [.regs, .host, .events, .kept, .mem, .lace, .filet, .bob, .boot]
  | .domainUp =>
    [.regs, .power, .events, .kept, .mem, .lace]
  | .packetStart _ _ | .staleTailExpire _ =>
    [.regs, .events, .kept, .bob]
  | .pushData _ _ | .drop _ _ =>
    [.regs, .bob]
  | .pop _ _ =>
    [.regs, .events, .kept, .bob, .seen]
  | .bobbinResetDone _ =>
    [.bob]
  | .keyLoad _ | .keyErase _ | .keyUnlock _ | .jtagUnlock _ | .jtagUnlockSig _ _ _ =>
    [.regs, .host, .journal, .events, .kept, .mbx, .keys, .mem, .lace]
  | .keyRotate _ =>
    [.regs, .timers, .host, .journal, .events, .kept, .mbx, .keys, .mem]
  | .jtagNonceRead | .consoleLine _ | .consoleTimeout | .mbxDataRead _ | .mbxState | .regStatus | .alertCause | .alertResponse
  | .smbusTimeout =>
    [.mbx]
  | .jtagCloseExpire | .sigCloseExpire | .mbxSel _ _ _ _ | .mbxDataWrite _ _ | .regAddr _ _ =>
    [.regs, .mbx]
  | .dmaRefused _ _ =>
    [.regs, .journal, .events, .kept]
  | .rekeyNode =>
    [.regs, .timers, .host, .events, .kept, .keys, .data, .mem, .lace]
  | .noticeGapEnd _ _ _ =>
    [.regs, .host, .mem]
  | .mbxEarlyExpire _ =>
    [.host, .mbx]
  | .mbxTimeout _ =>
    [.regs, .events, .kept, .mbx]
  | .mbxCommandDone _ | .railFault _ | .stepWorkDone _ | .seqAdvance | .stepTimeout | .seqRestLeave | .railDownNext | .pbRelease _
  | .pbForcedOff | .mrst | .holdSave | .thermalModelUpdate _ | .sweepDone _ | .shutdownOrderly _ | .shutdownForced _ | .shutdownRestart _ =>
    [.tick, .regs, .timers, .power, .host, .journal, .events, .kept, .mbx, .tables, .keys, .data, .mem, .lace, .filet, .bob, .pwr, .boot]
  | .provisionLock _ =>
    [.regs, .host, .journal, .events, .factory, .kept, .mbx]
  | .adminKeySet _ =>
    [.regs, .host, .journal, .events, .kept, .mbx, .adminKeys]
  | .mbxSubmit _ =>
    [.regs, .host, .mbx]
  | .keepPageWriteDone =>
    [.regs, .host, .journal, .events, .kept]
  | .operatingTimeSlot | .samplerGapExpire _ =>
    [.regs, .kept]
  | .offTimeEnd | .quiesceGraceExpire =>
    [.pwr]
  | .autoRestart | .holdupTestEnd _ =>
    [.regs, .events, .kept, .pwr]
  | .vstbyLoss _ =>
    [.tick, .regs, .timers, .power, .host, .events, .kept, .mbx, .keys, .data, .mem, .lace, .filet, .bob, .pwr]
  | .vstbyOn =>
    [.tick, .regs, .power, .mbx, .pwr]
  | .idleAfterExpire =>
    [.regs, .power, .host, .events, .kept, .data, .mem, .lace, .pwr]
  | .capControlTick _ _ _ | .thermalLevelTick =>
    [.regs, .timers, .host, .events, .kept, .lace, .pwr]
  | .sensorSweep =>
    [.timers, .pwr]
  | .powerModeSetFull _ | .powerModeSetEconomy _ | .powerModeSetIdle _ | .samplingSet _ =>
    [.regs, .power, .host, .journal, .events, .kept, .mbx, .tables, .keys, .data, .mem, .lace, .filet, .bob, .pwr, .macs]
  | .thermalSweep _ =>
    [.regs, .host, .journal, .events, .kept, .mbx, .pwr]
  | .bootLoad _ _ _ =>
    [.regs, .power, .host, .journal, .events, .kept, .mbx, .keys, .data, .mem, .lace, .filet, .bob, .boot]
  | .hkpRestart _ | .diagDone _ _ =>
    [.regs, .events, .kept, .bob, .boot]
  | .liveSwapBusyTimeout =>
    [.regs, .host, .events, .kept, .mbx, .keys, .data, .mem, .lace, .filet, .boot]
  | .bootOkTimeout =>
    [.regs, .host, .events, .kept, .mbx, .keys, .data, .mem, .lace, .filet, .bob, .boot]
  | .confirmTimeout =>
    [.boot]
  | .fwDownload _ | .fwVerify _ | .fwActivateLive _ | .fwActivateRestart _ | .fwActivateNextStart _ | .fwConfirm _ | .fwDiscard _ =>
    [.regs, .host, .journal, .events, .kept, .mbx, .boot]
  | .retest _ _ _ =>
    [.regs, .timers, .power, .host, .journal, .events, .kept, .mbx, .tables, .keys, .data, .mem, .lace, .filet, .pwr, .boot]
  | .diagRun _ =>
    [.regs, .host, .journal, .events, .kept, .mbx, .bob, .boot]
  | .samplerOccurrence _ =>
    [.regs, .events, .kept]
  | .counterRead _ =>
    [.regs, .host, .journal, .events, .kept, .mbx, .bob]

end Sys2Proof.Machine
end

