-- ==== Sys2Proof/Certificates/Slice0/Obligations.lean ====
section
/-!
DEFINITION. The statements for the provers, from the rules of spec/; OBLIGATIONS.json lists them.
-/
open Sys2Proof Sys2Proof.Machine

/-- A step takes the command at the front of the queue and runs it on the rest. For every state and command: with the command at the front
of the queue, a step is exec of that command on the state whose queue is the rest. -/
def Obligations.StepRunsTheFrontCommand : Prop :=
  ∀ (s : State) (c : Instr), step { s with pending := c :: s.pending } = exec c s

/-- On an empty queue a microsecond passes (the model's choice, log entry 1). With no command waiting a step answers the state `t.strike`
of a state t, which is t with what the error does that a store finds in that microsecond, if there is one (which is a free value, log
entry 23). In t the model's clock is 1,000 ns later and device time one tick later where it runs; hosts, mailboxes, filet compute,
bobbins, the power sequencer and state, firmware and start-up, lace and hoop, the periodic timers, the journal, regions, grants, directory
and keys are as before. Where device time does not run no store finds an error and nothing but the clock changes. That the empty queue is
the tick is the model's choice (log entry 1), no rule of the spec. -/
def Obligations.EmptyQueuePassesOneMicrosecond : Prop :=
  ∀ s : State, s.pending = [] → ∃ t : State, step s = .next t.strike ∧ t.now = s.now + 1000 ∧ t.tick = s.tick + (if s.ticking then 1 else 0) ∧
    t.pending = [] ∧ t.host = s.host ∧ t.mbx = s.mbx ∧ t.filet = s.filet ∧ t.bob = s.bob ∧ t.pwr = s.pwr ∧ t.power = s.power ∧
    t.boot = s.boot ∧ t.lace = s.lace ∧ t.timers = s.timers ∧ t.kept.journal = s.kept.journal ∧ t.mem.regions = s.mem.regions ∧
    t.mem.grants = s.mem.grants ∧ t.mem.dir = s.mem.dir ∧ t.mem.keys = s.mem.keys ∧
    (s.ticking = false → t.strike = { s with now := s.now + 1000 })

/-- After reset the device is in STANDBY at step 0, in its factory state, with nothing waiting. State.reset: no command waits; the power
state is STANDBY at SEQ_STEP 0, within the minimum off time of 50 ms; the device is in its factory state (KEP_STATUS FACTORY) without an
admin key; nothing is in the journal, in the queue of occurrences, on a lace link, in the medium, the LLC or the DRAM tier, in a mailbox,
in a port's queue or an engine's inbox, and there is no connection, operation, region or key; GLB_STATUS reads STANDBY_ONLY alone. The
values the spec gives no reset value for are the model's (log entry 8). -/
def Obligations.ResetIsStandbyInFactoryState : Prop :=
  State.reset.pending = [] ∧ State.reset.power = .standby ∧ State.reset.stepNo = 0 ∧ State.reset.pwr.deaf = some (ms 50) ∧
    State.reset.kept.factory = true ∧ State.reset.kept.adminKeys = [] ∧ State.reset.kept.journal = [] ∧
    State.reset.flag Reg.kepStatus 1 = true ∧ State.reset.rd Reg.glbStatus = 8 ∧ State.reset.host.conns = [] ∧ State.reset.host.ops = [] ∧
    State.reset.mem.med = [] ∧ State.reset.mem.llc = [] ∧ State.reset.mem.tier = [] ∧ State.reset.mbx.boxes = [] ∧
    State.reset.lace.links = [] ∧ State.reset.mem.regions = [] ∧ State.reset.mem.keys = [] ∧ State.reset.seen = 0 ∧
    State.reset.host.inbox = [] ∧ State.reset.host.txq = [] ∧ State.reset.kept.smpQ = []

/-- The state after reset meets the invariant of SoundnessIsKeptByEveryStep. State.reset is Sound: its tables are canonical, its island
queues and journal ring are within their bounds, and it needs no admin key because it is in its factory state. -/
def Obligations.ResetStateIsSound : Prop :=
  State.reset.Sound

/-- Every step keeps the canonical forms, the bounds of queues and ring, and the admin key of a locked device. From every sound state,
whatever command is at the front, a step that answers a next state answers a sound one: the register map lists no zero and rises strictly;
the tables of the medium, the LLC, the eviction buffer, the DRAM tier, agents' lines, internal lines, tree nodes, programs, pricking,
ledger, connections and operations keep their canonical form; no island queues more than 16 occurrences (R540); the journal ring holds at
most 8,192 entries (R465, R466); a device out of its factory state holds an admin key (R450). -/
def Obligations.SoundnessIsKeptByEveryStep : Prop :=
  ∀ s t : State, s.Sound → step s = .next t → t.Sound

/-- Every step keeps the canonical form of each table of memory on its own. For each table that holds memory, with no assumption about the
others: where it is canonical before a step it is canonical after. The tables: stripes of the medium, LLC, eviction buffer, DRAM tier,
internal lines, tree nodes, pricking entries, ledger entries, registers. -/
def Obligations.MemoryTablesStayCanonical : Prop :=
  ∀ s t : State, step s = .next t →
    (s.mem.med.wf = true → t.mem.med.wf = true) ∧ (s.mem.llc.wf = true → t.mem.llc.wf = true) ∧
    (s.mem.evb.wf = true → t.mem.evb.wf = true) ∧ (s.mem.tier.wf = true → t.mem.tier.wf = true) ∧
    (s.mem.intern.wfD 0 = true → t.mem.intern.wfD 0 = true) ∧ (s.mem.nodes.wf = true → t.mem.nodes.wf = true) ∧
    (s.mem.prk.wfD Prk.unwritten = true → t.mem.prk.wfD Prk.unwritten = true) ∧
    (s.mem.ldg.wfD Ldg.unused = true → t.mem.ldg.wfD Ldg.unused = true) ∧ (s.regs.wfD 0 = true → t.regs.wfD 0 = true)

/-- No island queues more than 16 occurrences toward the keep island, after any step from any state that meets it. R540 gives each island
a queue of 16 entries: where every island's queue holds at most 16 occurrences before a step, every island's queue does after it, whatever
the command. -/
def Obligations.IslandQueuesHoldAtMostSixteen : Prop :=
  ∀ s t : State, s.QueuesBounded → step s = .next t → t.QueuesBounded

/-- The change journal never holds more than its ring of 8,192 pages, and its SEQ never goes back. R465 and R466: where the journal holds
at most 8,192 entries before a step it does after it; and the SEQ of the next entry never decreases. -/
def Obligations.JournalRingHoldsAtMost8192 : Prop :=
  ∀ s t : State, step s = .next t → (s.RingBounded → t.RingBounded) ∧ s.kept.nextSeq ≤ t.kept.nextSeq

/-- A device that has left its factory state never returns to it, and keeps an admin key. R450: no step of any command brings back the
factory state; and where a device out of its factory state holds an admin key before a step, it holds one after it. -/
def Obligations.FactoryStateEndsForGood : Prop :=
  ∀ s t : State, step s = .next t → s.kept.factory = false →
    t.kept.factory = false ∧ (s.kept.adminKeys ≠ [] → t.kept.adminKeys ≠ [])

/-- Only PROVISION_LOCK ends the factory state, and only ADMIN_KEY_SET changes an admin key. Where exec answers a next state, every
command but PROVISION_LOCK leaves the factory state as it was, and every command but ADMIN_KEY_SET leaves the admin keys as they were. -/
def Obligations.OnlyTwoCommandsChangeTheLocks : Prop :=
  ∀ (c : Instr) (s t : State), exec c s = .next t →
    ((∀ m, c ≠ .provisionLock m) → t.kept.factory = s.kept.factory) ∧ ((∀ m, c ≠ .adminKeySet m) → t.kept.adminKeys = s.kept.adminKeys)

/-- SVN_FLOOR, the count of connection uses and the count of free values never go back. No step lowers SVN_FLOOR (R517 and Table 16-3 only
raise it), the number of the next use of a CONN_ID, or the count of free values that were taken. -/
def Obligations.SecurityVersionFloorNeverFalls : Prop :=
  ∀ s t : State, step s = .next t → s.boot.svnFloor ≤ t.boot.svnFloor ∧ s.host.nextGen ≤ t.host.nextGen ∧ s.free ≤ t.free

/-- A command changes neither the queue nor the clock. Where exec answers a next state, the queue and the model's clock are as before,
whatever the command (the model's choice of what a step is, log entry 1). -/
def Obligations.CommandsTakeNoTimeAndLeaveTheQueue : Prop :=
  ∀ (c : Instr) (s t : State), exec c s = .next t → t.pending = s.pending ∧ t.now = s.now

/-- Every command that names units the device has answers a next state in every state. No state stops a well-formed command: exec answers
a next state, never a fault or a refusal. -/
def Obligations.WellFormedCommandsAlwaysComplete : Prop :=
  ∀ (c : Instr) (s : State), c.wf = true → ∃ t, exec c s = .next t

/-- A command that names a unit the device does not have stops with noSuchUnit. exec of an ill-formed command (port 8, mailbox 16, die 72,
…) faults with noSuchUnit in every state, so it changes nothing. -/
def Obligations.CommandsOnMissingUnitsStop : Prop :=
  ∀ (c : Instr) (s : State), c.wf = false → exec c s = .fault .noSuchUnit

/-- What each command leaves unchanged: every part of the state outside its list. For every command and every part of the state (device
time, registers, timers, power state, the host side, the journal, the occurrences on their way to the keep, the locks, the MAC addresses,
the keep island, mailboxes, the region, grant and directory tables, key slots, line data of medium, caches and DRAM tier, the memory side,
lace and hoop, filet compute, bobbins, the power sequencer, firmware and start-up, the latest register read): where exec answers a next
state, a part outside Instr.mayChange of the command is exactly as before. -/
def Obligations.EveryCommandKeepsItsFrame : Prop :=
  ∀ (c : Instr) (s t : State) (a : Area), exec c s = .next t → a ∉ Instr.mayChange c → a.same s t

/-- What a received frame, a PFC frame and the two PFC timers do on a port. On an existing port that is up, and with s the state whose FEC
counters have taken the frame's codewords: FRAME_RECEIVE of a frame that passes every check of Table 02-2 is counted, its packet number is
taken where MACsec runs and the frame is not a MAC control frame, and the frame does what its kind asks (R30, R42, R89); one that fails a
check is dropped with the cause of the first check it fails. PFC_RECEIVE is such a frame, whole and addressed to the MAC: where it passes
the checks it is counted with its length, and each class it names is paused for its quanta, or released by quanta 0 (R34).
PFC_PAUSE_EXPIRE ends exactly the pause that is due, unless a PFC frame that waits in the queue names the class in the same microsecond
(R18). PFC_XOFF_REPEAT when due sends the XOFF again and restarts its timer where the condition of R35 holds, and else only restarts it. -/
def Obligations.PortsReceiveFramesAndPauses : Prop :=
  (∀ (u s : State) (p : Nat) (f : EthFrame), p < 8 → p < u.portCount → u.portUp p = true →
    s = f.fec.foldl (fun t w => t.fecCount p w) u → s.rxCause p f = 0 → s.macsec p = false ∨ f.ctrl ≠ none →
    exec (.frameReceive p f) u = .next (s.rxAccept p f)) ∧
  (∀ (u s : State) (p : Nat) (f : EthFrame), p < 8 → p < u.portCount → u.portUp p = true →
    s = f.fec.foldl (fun t w => t.fecCount p w) u → s.rxCause p f = 0 → s.macsec p = true → f.ctrl = none →
    exec (.frameReceive p f) u = .next ((s.sawPn p f).rxAccept p f)) ∧
  (∀ (u s : State) (p : Nat) (f : EthFrame), p < 8 → p < u.portCount → u.portUp p = true →
    s = f.fec.foldl (fun t w => t.fecCount p w) u → s.rxCause p f ≠ 0 → s.rxCause p f ≤ 0x0C →
    exec (.frameReceive p f) u = .next (s.rxDrop p (s.rxCause p f))) ∧
  (∀ (u s : State) (p : Nat) (f : EthFrame), p < 8 → p < u.portCount → u.portUp p = true →
    s = f.fec.foldl (fun t w => t.fecCount p w) u → 0x0C < s.rxCause p f →
    exec (.frameReceive p f) u = .next ((if s.macsec p && f.ctrl.isNone then s.sawPn p f else s).rxDrop p (s.rxCause p f))) ∧
  (∀ (s : State) (p : Nat) (m : BitVec 8) (q : PfcPause), p < 8 → q.quanta.length = 8 → p < s.portCount → s.portUp p = true →
    s.rxCause p (pfcFrame m q) = 0 →
    exec (.pfcReceive p m q) s = .next ((List.range 8).foldl (fun t c =>
      if m.getLsbD c then t.pauseClass p c (q.quanta.getD c 0 % 2 ^ 16) else t) (s.rxCount p (pfcFrame m q)))) ∧
  (∀ (s : State) (p : Nat) (m : BitVec 8) (q : PfcPause), p < 8 → q.quanta.length = 8 → p < s.portCount → s.portUp p = true →
    s.rxCause p (pfcFrame m q) ≠ 0 →
    exec (.pfcReceive p m q) s = .next (s.rxDrop p (s.rxCause p (pfcFrame m q)))) ∧
  (∀ (s : State) (p c d : Nat), p < 8 → c < 8 → s.host.pause.find (8 * p + c) = some d → d ≤ s.now → s.overtaken d (s.pausing p c) = false →
    exec (.pfcPauseExpire p c) s = .next { s with host := { s.host with pause := s.host.pause.drop (8 * p + c) } }) ∧
  (∀ (s : State) (p c d : Nat) (b : Bool), p < 8 → c < 8 → s.host.xoff.find (8 * p + c) = some (d, b) → d ≤ s.now →
    s.xoffHolds p c = true →
    exec (.pfcXoffRepeat p c) s = .next { s.sendPfc p c 0xFFFF with host := { (s.sendPfc p c 0xFFFF).host with
      xoff := (s.sendPfc p c 0xFFFF).host.xoff.put (8 * p + c) ((s.sendPfc p c 0xFFFF).now + (s.sendPfc p c 0xFFFF).quantaNs 32768, true) } }) ∧
  (∀ (s : State) (p c d : Nat) (b : Bool), p < 8 → c < 8 → s.host.xoff.find (8 * p + c) = some (d, b) → d ≤ s.now →
    s.xoffHolds p c = false →
    exec (.pfcXoffRepeat p c) s = .next { s with host := { s.host with
      xoff := s.host.xoff.put (8 * p + c) (s.now + s.quantaNs 32768, false) } })

/-- What frame transmission, training, link up and link down do on a port. On an enabled port that is up and is not on its way down, for
the first queued frame that no pause and no waiting connection blocks: FRAME_TRANSMIT of a frame within MAX_FRAME sends it without MACsec,
or with MACsec under the active transmit SA, whose SCI, AN and PN it carries and whose PN advances; the other frames stay queued (R32,
R34, R38). With MACsec and no active transmit SA, or none that can number a frame, nothing is sent and the queue is marked held, each
frame newly held counted in TX_HELD (R38). A frame above MAX_FRAME leaves the queue unsent (the model's choice, log entry 156).
TRAIN_TIMEOUT of a port that is down, when due and no PORT_LINK_UP of the port waits in the queue, counts TRAIN_FAIL and starts training
anew (R28). PORT_LINK_UP of an enabled port that is down sets LINK_UP, clears TRAINING, locks every lane, ends the training timer, queues
the gratuitous ARP where IPv4 has an address and the advertisement where IPv6 has one (R42, R46), and looks at the port's PFC condition.
PORT_DOWN on a port that is up takes it down with the loss's cause and the lanes that keep lock, and trains again where the port is
enabled (R43). PORT_ADMIN_DOWN on a port that is up and on its way down takes it down with cause 4, and trains again where it is enabled
by now (R47). -/
def Obligations.PortsTransmitAndChangeLink : Prop :=
  (∀ (s : State) (p : Nat) (f : TxFrame) (rest : List TxFrame), p < 8 → s.mayTransmit p = true →
    pickTx (s.txBlocked p) (s.host.txq.get p []) = some (f, rest) → f.len (s.macsec p) ≤ s.maxFrame p → s.macsec p = false →
    exec (.frameTransmit p) s = .next (({ s with host := { s.host with txq := s.host.txq.put p rest } } : State).emit p f none)) ∧
  (∀ (s : State) (p i : Nat) (a : MacSa) (f : TxFrame) (rest : List TxFrame), p < 8 → s.mayTransmit p = true →
    pickTx (s.txBlocked p) (s.host.txq.get p []) = some (f, rest) → f.len (s.macsec p) ≤ s.maxFrame p → s.macsec p = true →
    s.txSa p = some (i, a) → a.canSend = true →
    exec (.frameTransmit p) s = .next (({ s.usePn p i a with host := { (s.usePn p i a).host with
      txq := (s.usePn p i a).host.txq.put p rest } } : State).emit p f (some { sci := a.sci, an := a.an, pn := a.pn }))) ∧
  (∀ (s : State) (p : Nat) (f : TxFrame) (rest : List TxFrame), p < 8 → s.mayTransmit p = true →
    pickTx (s.txBlocked p) (s.host.txq.get p []) = some (f, rest) → f.len (s.macsec p) ≤ s.maxFrame p → s.macsec p = true →
    (∀ i a, s.txSa p = some (i, a) → a.canSend = false) → exec (.frameTransmit p) s = .next (s.holdTx p)) ∧
  (∀ (s : State) (p : Nat) (f : TxFrame) (rest : List TxFrame), p < 8 → s.mayTransmit p = true →
    pickTx (s.txBlocked p) (s.host.txq.get p []) = some (f, rest) → s.maxFrame p < f.len (s.macsec p) →
    exec (.frameTransmit p) s = .next { s with host := { s.host with txq := s.host.txq.put p rest } }) ∧
  (∀ (s : State) (p d : Nat) (a : Attempt), p < 8 → s.host.train.find p = some a → a.due = some d → d ≤ s.now →
    s.overtaken d (linksUp p) = false → s.portUp p = false →
    exec (.trainTimeout p) s = .next ((s.count (Reg.ethCount p 5) 1).startTraining p)) ∧
  (∀ (s u : State) (p : Nat), p < 8 → p < s.portCount → s.portEnabled p = true → s.portUp p = false →
    u = ((s.setFlag (Reg.ethPortStatus p) 0).clrFlag (Reg.ethPortStatus p) 1).setFld (Reg.ethPortStatus p) 5 2 (2 ^ s.portLanes - 1) →
    exec (.portLinkUp p) s = .next ((({ u with host := { u.host with
      train := u.host.train.modify p (fun a => { a with due := none }) } } : State).greet p).pfcUpdate p)) ∧
  (∀ (s : State) (p : Nat), s.ipv4 p = 0 → s.ipv6 p = 0 → s.greet p = s) ∧
  (∀ (s : State) (p : Nat), s.ipv4 p ≠ 0 → s.ipv6 p = 0 → s.greet p = s.queueTx p {
    conn := 0, pcp := 0, peer := { mac := 0xFFFFFFFFFFFF, ip := { v6 := false, addr := s.portIp p false }, udp := 0 }
    body := .gratuitousArp }) ∧
  (∀ (s : State) (p : Nat), s.ipv4 p = 0 → s.ipv6 p ≠ 0 → s.greet p = s.queueTx p {
    conn := 0, pcp := 0, peer := { mac := 0x333300000001, ip := { v6 := true, addr := s.portIp p true }, udp := 0 }
    body := .ndAdvert false }) ∧
  (∀ (s : State) (p : Nat), s.ipv4 p ≠ 0 → s.ipv6 p ≠ 0 → s.greet p = (s.queueTx p {
    conn := 0, pcp := 0, peer := { mac := 0xFFFFFFFFFFFF, ip := { v6 := false, addr := s.portIp p false }, udp := 0 }
    body := .gratuitousArp }).queueTx p {
    conn := 0, pcp := 0, peer := { mac := 0x333300000001, ip := { v6 := true, addr := s.portIp p true }, udp := 0 }
    body := .ndAdvert false }) ∧
  (∀ (s : State) (p : Nat) (l : LaneLoss), p < 8 → p < s.portCount → s.portUp p = true →
    (s.portEnabled p = true →
      exec (.portDown p l) s = .next ((s.portDown p l.loss.cause (l.locked.toNat % 2 ^ s.portLanes)).startTraining p)) ∧
    (s.portEnabled p = false → exec (.portDown p l) s = .next (s.portDown p l.loss.cause (l.locked.toNat % 2 ^ s.portLanes)))) ∧
  (∀ (s : State) (p : Nat), p < 8 → p < s.portCount → s.portUp p = true → s.host.closing.contains p = true →
    (s.portEnabled p = false → exec (.portAdminDown p) s = .next (s.portDown p 4 0)) ∧
    (s.portEnabled p = true → exec (.portAdminDown p) s = .next ((s.portDown p 4 0).startTraining p)))

/-- What the five frame types do when they arrive in order. The frame is at the front of its engine's inbox and passes the checks of Table
03-15 up to STATE; s1 is the state once it is taken from there and its CE mark is seen. DATA_FRAME and CLOSE whose SEQ is ACK + 1: the
frame is valid for its connection, the wait of R78 starts, the frame is taken, then the held frames that follow it, and an ACK is sent
where the next SEQ was held or ACK_REQ is set, or where ACK_DELAY is 0 and nothing has been sent (R70, R75, R78). ACK_FRAME: the frame is
valid for its connection, and an ACK answers ACK_REQ (R79). After each of these the connection closes where DONE has reached its CLOSE's
SEQ minus 1 (R69). RESET frees the connection and is counted (R71). OPEN that repeats none and passes R65 goes on to the assignment of
R66; one that repeats an open connection's OPEN sends that connection's OPEN_ACK again (R67). -/
def Obligations.FramesOfAConnectionAreTaken : Prop :=
  (∀ (s s1 : State) (e : Nat) (d : Delivered) (h : FrameHdr) (c : Conn) (g : Grant), s.Arrives e 0 d s1 h c g → seqAfter h.seq c.ack = true →
    seqDiff h.seq c.ack = 1 → exec (.dataFrame e) s = .next ((((((s1.validFrame h.connId c d h).ackWait h.connId).takeFrame h.connId h.seq
      d.bytes).takeHeld h.connId 32).ackNow h.connId (c.held.any (fun x => x.1 == (h.seq + 1) % 2 ^ 32) || h.ackReq)).closeDone h.connId)) ∧
  (∀ (s s1 : State) (e : Nat) (d : Delivered) (h : FrameHdr) (c : Conn) (g : Grant), s.Arrives e 4 d s1 h c g → seqAfter h.seq c.ack = true →
    seqDiff h.seq c.ack = 1 → exec (.close e) s = .next ((((((s1.validFrame h.connId c d h).ackWait h.connId).takeFrame h.connId h.seq
      d.bytes).takeHeld h.connId 32).ackNow h.connId (c.held.any (fun x => x.1 == (h.seq + 1) % 2 ^ 32) || h.ackReq)).closeDone h.connId)) ∧
  (∀ (s s1 : State) (e : Nat) (d : Delivered) (h : FrameHdr) (c : Conn) (g : Grant), s.Arrives e 1 d s1 h c g →
    (h.ackReq = true → exec (.ackFrame e) s = .next (((s1.validFrame h.connId c d h).sendAck h.connId).closeDone h.connId)) ∧
    (h.ackReq = false → exec (.ackFrame e) s = .next ((s1.validFrame h.connId c d h).closeDone h.connId))) ∧
  (∀ (s s1 : State) (e : Nat) (d : Delivered) (h : FrameHdr) (c : Conn) (g : Grant), s.Arrives e 6 d s1 h c g →
    exec (.resetReceive e) s = .next (((s1.freeConn h.connId).count (Reg.shtEvent 12) 1).closeDone h.connId)) ∧
  (∀ (s s1 : State) (e : Nat) (d : Delivered) (h : FrameHdr), e < 8 → s.takeFront e = some (d, s1) → classify d.bytes = .good h → h.ftype = 2 →
    s1.host.conns.find? (fun x => x.2.nonce == beAt d.bytes 24 4 && x.2.openSrc.ip == d.peer.ip && x.2.openSrc.udp == d.peer.udp &&
      x.2.st != .closing) = none → s1.openRefusal d (beAt d.bytes 34 2) (beAt d.bytes 28 2) = none →
    exec (.openRx e) s = .next (s1.accept d h)) ∧
  (∀ (s s1 : State) (e id : Nat) (d : Delivered) (h : FrameHdr) (c : Conn), e < 8 → s.takeFront e = some (d, s1) →
    classify d.bytes = .good h → h.ftype = 2 → s1.host.conns.find? (fun x => x.2.nonce == beAt d.bytes 24 4 && x.2.openSrc.ip == d.peer.ip &&
      x.2.openSrc.udp == d.peer.udp && x.2.st != .closing) = some (id, c) →
    exec (.openRx e) s = .next (s1.queueTx c.home { conn := id, pcp := c.tclass, peer := c.peer, body := .shuttle c.openAck }))

/-- What stale, far and refused frames do: acknowledged or reset, dropped and counted, with no stitch taken. A DATA frame that passes the
checks up to STATE and whose SEQ is not after ACK nor after DONE is acknowledged and dropped with cause STALE; one more than 32 ahead of
ACK is dropped with cause WINDOW; after either the connection closes where DONE has reached its CLOSE's SEQ minus 1 (R69). A DATA frame
whose source the connection's grant does not permit is dropped with cause SOURCE and nothing else; a DATA frame that names no connection
is answered as R72 says and dropped with cause UNKNOWN_CONN. An OPEN that a check of R65 refuses is answered with RESET and its reason,
and counted. -/
def Obligations.DuplicateStaleAndRefusedFrames : Prop :=
  (∀ (s s1 : State) (e : Nat) (d : Delivered) (h : FrameHdr) (c : Conn) (g : Grant), s.Arrives e 0 d s1 h c g → seqAfter h.seq c.ack = false →
    seqAfter h.seq c.done = false → exec (.dataFrame e) s = .next (((s1.sendAck h.connId).shtDrop e 8 h.connId).closeDone h.connId)) ∧
  (∀ (s s1 : State) (e : Nat) (d : Delivered) (h : FrameHdr) (c : Conn) (g : Grant), s.Arrives e 0 d s1 h c g → seqAfter h.seq c.ack = true →
    32 < seqDiff h.seq c.ack → exec (.dataFrame e) s = .next ((s1.shtDrop e 9 h.connId).closeDone h.connId)) ∧
  (∀ (s s1 : State) (e : Nat) (d : Delivered) (h : FrameHdr) (c : Conn), e < 8 → s.takeFront e = some (d, s1) →
    classify d.bytes = .good h → h.ftype = 0 → s1.host.conns.find h.connId = some c → s1.sourceOk c d.peer.ip = false →
    exec (.dataFrame e) s = .next (s1.shtDrop e 6 h.connId)) ∧
  (∀ (s s1 : State) (e : Nat) (d : Delivered) (h : FrameHdr), e < 8 → s.takeFront e = some (d, s1) →
    classify d.bytes = .good h → h.ftype = 0 → s1.host.conns.find h.connId = none →
    exec (.dataFrame e) s = .next ((s1.unknownConn d h).shtDrop e 5 h.connId)) ∧
  (∀ (s s1 : State) (e r : Nat) (d : Delivered) (h : FrameHdr), e < 8 → s.takeFront e = some (d, s1) → classify d.bytes = .good h →
    h.ftype = 2 → s1.host.conns.find? (fun x => x.2.nonce == beAt d.bytes 24 4 && x.2.openSrc.ip == d.peer.ip &&
      x.2.openSrc.udp == d.peer.udp && x.2.st != .closing) = none → s1.openRefusal d (beAt d.bytes 34 2) (beAt d.bytes 28 2) = some r →
    exec (.openRx e) s = .next ((s1.sendReset d.port (beAt d.bytes 30 1 % 8) d.peer 0 r (beAt d.bytes 24 4)).count (Reg.shtEvent 10) 1))

/-- What the timers of a connection do once they are due. Each when due. OPEN_TIMEOUT frees a half-open connection (R67) and IDLE_TIMEOUT
resets an open one with reason IDLE (R73), where no valid frame of the connection stands in its engine's inbox (R18). CLOSE_LINGER_EXPIRE
frees a closing one, whose queued frames still leave (R69; log entry 68). CLOSE_ACK_SEND sends CLOSE_ACK once no operation of the
connection and no ready response is left (R70). ACK_DELAY_EXPIRE sends the ACK (R78); COAL_WAIT_EXPIRE flushes the ready responses (R76).
NOTICE_RTO_EXPIRE, where no acknowledgement of it stands in the inbox, resends the first due NOTICE with its timer doubled to at most 10
ms and counts it, or resets the connection with reason 7 after RETRY_LIMIT retransmissions (R88). SLOW_GRACE_EXPIRE at the first due time
and CREDIT_CUT_REPEAT at the later ones cut the credit of a connection above its rates, and otherwise end the timer (R204, R498). -/
def Obligations.ConnectionTimersAct : Prop :=
  (∀ (s : State) (id : Nat) (c : Conn), id < 0xFFFF → s.host.conns.find id = some c → c.st = .halfOpen → c.openDue ≤ s.now →
    s.validWaits id c (fun _ => true) = false → exec (.openTimeout id) s = .next (s.freeConn id)) ∧
  (∀ (s : State) (id : Nat) (c : Conn), id < 0xFFFF → s.host.conns.find id = some c → c.st = .closing → c.lingerDue ≤ s.now →
    exec (.closeLingerExpire id) s = .next ((s.releaseFrames id).freeConn id)) ∧
  (∀ (s : State) (id : Nat) (c : Conn), id < 0xFFFF → s.host.conns.find id = some c → c.st = .opened →
    c.idleDue ≤ s.now → s.validWaits id c (fun _ => true) = false → exec (.idleTimeout id) s = .next (s.resetConn id 0x06)) ∧
  (∀ (s : State) (id : Nat) (c : Conn), id < 0xFFFF → s.host.conns.find id = some c → c.st = .closing → c.closeAcked = false →
    s.host.ops.any (fun e => e.2.origin == .conn id c.gen) = false → c.ready = [] →
    exec (.closeAckSend id) s = .next ((s.sendConn id c (c.header id 5 c.devSeq 0) []).modConn id (fun c => { c with closeAcked := true }))) ∧
  (∀ (s : State) (id d : Nat) (c : Conn), id < 0xFFFF → s.host.conns.find id = some c → c.ackDue = some d → d ≤ s.now →
    exec (.ackDelayExpire id) s = .next (s.sendAck id)) ∧
  (∀ (s : State) (id d : Nat) (c : Conn), id < 0xFFFF → s.host.conns.find id = some c → c.coalDue = some d → d ≤ s.now →
    exec (.coalWaitExpire id) s = .next (s.flushReady id)) ∧
  (∀ (s : State) (id : Nat) (c : Conn) (n : Notice), id < 0xFFFF → s.host.conns.find id = some c →
    c.notices.find? (fun n => s.due n.due && !s.validWaits id c (fun h => acknowledges h.ack h.sack n.seq)) = some n → n.retx < s.retryLimit →
    exec (.noticeRtoExpire id) s = .next (((s.sendNoticeFrame id c n).modConn id (fun c => { c with notices := c.notices.map (fun m =>
      if m.seq == n.seq then { n with retx := n.retx + 1, rto := min (ms 10) (2 * n.rto), due := s.now + min (ms 10) (2 * n.rto) } else m) })).count
      (Reg.shtEvent 8) 1)) ∧
  (∀ (s : State) (id : Nat) (c : Conn) (n : Notice), id < 0xFFFF → s.host.conns.find id = some c →
    c.notices.find? (fun n => s.due n.due && !s.validWaits id c (fun h => acknowledges h.ack h.sack n.seq)) = some n → s.retryLimit ≤ n.retx →
    exec (.noticeRtoExpire id) s = .next (s.resetConn id 0x07)) ∧
  (∀ (s : State) (id d : Nat) (c : Conn), id < 0xFFFF → s.host.conns.find id = some c → c.slowDue = some d → d ≤ s.now →
    c.slowRepeat = false →
    (s.aboveRates c = true → exec (.slowGraceExpire id) s = .next (s.cutCredit id c)) ∧
    (s.aboveRates c = false → exec (.slowGraceExpire id) s = .next (s.modConn id (fun c => { c with slowDue := none })))) ∧
  (∀ (s : State) (id d : Nat) (c : Conn), id < 0xFFFF → s.host.conns.find id = some c → c.slowDue = some d → d ≤ s.now →
    c.slowRepeat = true →
    (s.aboveRates c = true → exec (.creditCutRepeat id) s = .next (s.cutCredit id c)) ∧
    (s.aboveRates c = false → exec (.creditCutRepeat id) s = .next (s.modConn id (fun c => { c with slowDue := none }))))

/-- What each of the fourteen memory stitches does when it is executed: it begins, or answers the status of the first check that fails.
For READ, WRITE, each ATOMIC, COPY and FILL, with the OPCODE and SUBOP of Tables 04-1 and 04-4: a queued stitch that nothing issued
earlier holds back (R102, R113, R114) and whose checks of Table 04-2 up to 11 pass begins, here or on the devices that hold its lines; one
that fails a check ends with the status of the first check it fails. -/
def Obligations.MemoryStitchesBegin : Prop :=
  ∀ c ∈ [(Instr.read, 1, 0), (.write, 2, 0), (.fetchAdd, 4, 0), (.swap, 4, 1), (.cmpSwap, 4, 2), (.fetchAnd, 4, 3), (.fetchOr, 4, 4),
      (.fetchXor, 4, 5), (.fetchMinS, 4, 6), (.fetchMaxS, 4, 7), (.fetchMinU, 4, 8), (.fetchMaxU, 4, 9), (.copy, 5, 0), (.fill, 6, 0)],
    ∀ (s : State) (op : Nat) (o : Op), s.Ready op o → o.st.opcode = c.2.1 → o.st.subop = c.2.2 →
      (s.memCheck o = none → exec (c.1 op) s = .next (s.beginOp op o)) ∧
      (∀ st, s.memCheck o = some st → exec (c.1 op) s = .next (s.failOp op st))

/-- A memory stitch whose lines are all in the LLC runs at once. A memory stitch that is let begin and passes its checks, on the device
that holds its lines, outside a PREPARE, that the dirty ceiling does not hold back (R189), with every line it needs in the LLC or its
eviction buffer and no tree node of a line it writes lost (R416), runs in the same step: on the state that differs in the stitch's phase,
the hit counters and the record of use alone, it is performed as its OPCODE says: read, write, atomic, copy, or the write of the fill
pattern. -/
def Obligations.MemoryStitchesRunAtOnceOnResidentLines : Prop :=
  ∀ c ∈ [(Instr.read, 1, 0), (.write, 2, 0), (.fetchAdd, 4, 0), (.swap, 4, 1), (.cmpSwap, 4, 2), (.fetchAnd, 4, 3), (.fetchOr, 4, 4),
      (.fetchXor, 4, 5), (.fetchMinS, 4, 6), (.fetchMaxS, 4, 7), (.fetchMinU, 4, 8), (.fetchMaxU, 4, 9), (.copy, 5, 0), (.fill, 6, 0)],
    ∀ (s : State) (op : Nat) (o : Op), s.Ready op o → o.st.opcode = c.2.1 → o.st.subop = c.2.2 → s.memCheck o = none → o.mode ≠ .prepare →
      s.isLocal o = true → o.fails = [] → (∀ ln ∈ o.needs, (s.resident ln).isSome = true) → (∀ ln ∈ o.needs, s.filling ln = false) →
      s.gateHolds o.writes = false → (∀ ln ∈ o.writes, s.lineGone ln = false) →
      ∃ (r : Table Word) (l : Table Nat) (u : State) (x : Op),
        u = { s with regs := r, lace := { s.lace with used := l }, host := { s.host with
          ops := s.host.ops.modify op (fun y => { y with phase := .filling, admitted := true }) } } ∧
        x = { o with phase := .filling, admitted := true } ∧
        exec (c.1 op) s = .next (match c.2.1 with
          | 1 => u.doRead op x
          | 2 => u.doWrite op x o.st.payload
          | 4 => u.doAtomic op x
          | 5 => u.doCopy op x
          | _ => u.doWrite op x (fillBytes o.st.payload o.st.addr o.st.length))

/-- What READ, WRITE, ATOMIC and COPY leave and answer once their lines are there. Once the lines of an operation are there: a READ of a
range without poison answers OK with its bytes, one of a range with poison OK_POISON with the bytes and the mask of its sectors (R99,
R112). A write whose range has no sector that is poisoned and only partly covered stores its bytes and answers OK; one that has is
answered POISONED and stores nothing (R101, R112). A COPY whose source has no poison is the write of the bytes its source holds, and one
whose source has poison is answered POISONED (R105). An ATOMIC on a range without poison stores the value of Table 04-4 and answers the
bytes as they stood before, with RESULT 1 for CMP_SWAP; a CMP_SWAP whose bytes differ from its first operand stores nothing and answers
RESULT 0 with them; on poison an ATOMIC is answered POISONED and stores nothing (R103, R104). -/
def Obligations.MemoryStitchResults : Prop :=
  (∀ (s : State) (op : Nat) (o : Op), (s.rangePoison o.st.addr o.st.length).any (· == true) = false →
    s.doRead op o = s.finishOp op (o.answer .ok [] (s.readRange o.st.addr o.st.length))) ∧
  (∀ (s : State) (op : Nat) (o : Op), (s.rangePoison o.st.addr o.st.length).any (· == true) = true →
    s.doRead op o = ({ s with free := s.free + 1 } : State).finishOp op (o.answer .okPoison []
      (s.readRange o.st.addr o.st.length ++ poisonMask (s.rangePoison o.st.addr o.st.length)))) ∧
  (∀ (s : State) (op : Nat) (o : Op) (b : List Byte), s.writePoison o.st.addr o.st.length = none →
    s.doWrite op o b = (s.writeRange o.st.addr b).finishOp op (o.answer .ok [] [])) ∧
  (∀ (s : State) (op : Nat) (o : Op) (b : List Byte), s.writePoison o.st.addr o.st.length ≠ none →
    s.doWrite op o b = s.failOp op .poisoned) ∧
  (∀ (s : State) (op : Nat) (o : Op), (s.rangePoison o.src o.st.length).any (· == true) = false →
    s.doCopy op o = s.doWrite op o (s.readRange o.src o.st.length)) ∧
  (∀ (s : State) (op : Nat) (o : Op), (s.rangePoison o.src o.st.length).any (· == true) = true →
    s.doCopy op o = s.failOp op .poisoned) ∧
  (∀ (s : State) (op : Nat) (o : Op) (v : Nat), (s.rangePoison o.st.addr o.st.length).any (· == true) = false →
    atomicStore o.st.subop o.st.length (leNat (s.readRange o.st.addr o.st.length)) o.st.payload = some v →
    s.doAtomic op o = ((s.count (Reg.cohCount 6) 1).writeRange o.st.addr (leBytes o.st.length v)).finishOp op
      (o.answer .ok (if o.st.subop = 2 then [1] else []) (s.readRange o.st.addr o.st.length))) ∧
  (∀ (s : State) (op : Nat) (o : Op), (s.rangePoison o.st.addr o.st.length).any (· == true) = false → o.st.subop = 2 →
    leNat (s.readRange o.st.addr o.st.length) ≠ leNat (o.st.payload.take 16) →
    s.doAtomic op o = (s.count (Reg.cohCount 6) 1).finishOp op (o.answer .ok [0] (s.readRange o.st.addr o.st.length))) ∧
  (∀ (s : State) (op : Nat) (o : Op), (s.rangePoison o.st.addr o.st.length).any (· == true) = true → s.doAtomic op o = s.failOp op .poisoned)

/-- FILL: the byte at address a receives byte (a mod 8) of the pattern, by the rules of WRITE. R106: performing a FILL is performing a
WRITE of LENGTH bytes at ADDRESS, of which the byte for hoop address a is byte (a mod 8) of the 8-byte pattern; so an aligned word covered
in full holds the whole pattern. -/
def Obligations.FillWritesItsPattern : Prop :=
  (∀ (s : State) (op : Nat) (o : Op), o.mode ≠ .prepare → o.st.opcode = 6 →
    ∃ b : List Byte, b.length = o.st.length ∧ (∀ i, i < o.st.length → b[i]? = some (o.st.payload.getD ((o.st.addr + i) % 8) 0)) ∧
      (∀ k, k + 8 ≤ o.st.length → (o.st.addr + k) % 8 = 0 → o.st.payload.length = 8 → (b.drop k).take 8 = o.st.payload) ∧
      s.perform op o = s.doWrite op o b)

/-- What FLUSH, REG_READ, REG_WRITE, CTR, MBX, MBX_POLL and MBX_ABORT do. FLUSH of the right form, on a device whose data path is up and
that was not deposed, answers OK once nothing issued earlier holds it back, and a FLUSH of a wrong form ends with the status of the check
it fails (R102). The others are stitches for this device that pass the checks of Table 04-2. REG_READ reads registers from ADDRESS on and
answers the status, how many were read and their values; REG_WRITE writes them and answers the status and how many completed, at once or,
where keep pages wait, when they are sealed (R108, R458). CTR answers the counters from the target on where the firmware serves, and RETRY
where it does not (R109). While the housekeeping processor is up an MBX stitch without POLL and ABORT gives its segment to its mailbox,
MBX_POLL with POLL alone and MBX_ABORT with ABORT do the same, and RETRY answers each while it is down (R110, R433). A segment that is the
whole request of a known command makes an idle mailbox BUSY with it and the stitch waits; POLL of the submitter's own BUSY mailbox answers
PENDING, and ABORT of its completed response frees the mailbox and counts MBX_ABORTED; POLL and ABORT over SMBus do so for SMBus's own
(R438 to R440). -/
def Obligations.StitchesThatAddressADevice : Prop :=
  (∀ (s : State) (op : Nat) (o : Op), s.Ready op o → o.st.opcode = 3 → s.formCheck o.st = none → s.pathUp = true → s.lace.stopped = false →
    o.late = false → exec (.flush op) s = .next (s.finishOp op (o.answer .ok [] []))) ∧
  (∀ (s : State) (op : Nat) (o : Op) (st : Status), s.Ready op o → o.st.opcode = 3 → s.formCheck o.st = some st →
    exec (.flush op) s = .next (s.failOp op st)) ∧
  (∀ (s : State) (op : Nat) (o : Op), s.DeviceReady op 0x0A o → o.st.subop = 0 →
    exec (.regRead op) s = .next ((s.readRegs o.path o.st.target (o.st.length / 8)).2.2.finishOp op
      (o.answer (s.readRegs o.path o.st.target (o.st.length / 8)).2.1
        [BitVec.ofNat 8 (s.readRegs o.path o.st.target (o.st.length / 8)).1.length]
        ((s.readRegs o.path o.st.target (o.st.length / 8)).1.flatMap (fun v => leBytes 8 v.toNat))))) ∧
  (∀ (s : State) (op : Nat) (o : Op), s.DeviceReady op 0x0A o → o.st.subop = 1 →
    exec (.regWrite op) s = .next (
      if (s.writeRegs o.path op o.st.target (wordsIn o.st.payload)).2.2.1 then
        (s.writeRegs o.path op o.st.target (wordsIn o.st.payload)).2.2.2.modOp op (fun x => { x with
          phase := .sealing (o.answer (s.writeRegs o.path op o.st.target (wordsIn o.st.payload)).2.1
            [BitVec.ofNat 8 (s.writeRegs o.path op o.st.target (wordsIn o.st.payload)).1] []) })
      else (s.writeRegs o.path op o.st.target (wordsIn o.st.payload)).2.2.2.finishOp op
        (o.answer (s.writeRegs o.path op o.st.target (wordsIn o.st.payload)).2.1
          [BitVec.ofNat 8 (s.writeRegs o.path op o.st.target (wordsIn o.st.payload)).1] []))) ∧
  (∀ (s : State) (op : Nat) (o : Op), s.DeviceReady op 0x0B o → s.hkpUp = true → s.swapping = false →
    exec (.ctr op) s = .next (s.finishOp op (o.answer .ok []
      ((List.range (o.st.length / 16)).flatMap (fun i => s.counterBytes (o.st.target + i)))))) ∧
  (∀ (s : State) (op : Nat) (o : Op), s.DeviceReady op 0x0B o → s.hkpUp = false ∨ s.swapping = true →
    exec (.ctr op) s = .next (s.failOp op .retry)) ∧
  (∀ (s : State) (op : Nat) (o : Op), s.DeviceReady op 9 o →
    (o.segFlags.testBit 2 = false → o.segFlags.testBit 3 = false → exec (.mbx op) s = .next (s.mbxStitch op o.st.target o)) ∧
    (o.segFlags.testBit 2 = true → o.segFlags.testBit 3 = false →
      exec (.mbxPoll (.stitch op)) s = .next (s.mbxStitch op o.st.target o)) ∧
    (o.segFlags.testBit 3 = true → exec (.mbxAbort (.stitch op)) s = .next (s.mbxStitch op o.st.target o)) ∧
    (s.hkpUp = false → s.mbxStitch op o.st.target o = s.failOp op .retry)) ∧
  (∀ (s u : State) (op : Nat) (o : Op) (b : Mailbox), s.DeviceReady op 9 o → s.hkpUp = true → u = s.count (Reg.mbxCount 0) 1 →
    b = s.box o.st.target → b.st = .idle → b.claimed = false → u.swapping = false → u.rom = false →
    8 ≤ o.st.payload.length → leAt o.st.payload 4 2 ≤ 4088 → leAt o.st.payload 4 2 + 8 = o.st.payload.length → leAt o.st.payload 2 1 = 0 →
    leAt o.st.payload 3 1 = 0 → leAt o.st.payload 0 2 ∈ commandCodes → b.req = [] →
    exec (.mbx op) s = .next ((u.putBox o.st.target { b with
      owner := o.owner, claimed := false, code := leAt o.st.payload 0 2, seg := 0, req := o.st.payload.drop 8, signed := false
      begun := false, due := u.now + u.mbxTimeout, progress := 0, st := .busy, op := op
      early := some (u.now + u.mbxEarly) }).modOp op (fun y => { y with phase := .waiting 0 }))) ∧
  (∀ (s u : State) (op : Nat) (o : Op), s.DeviceReady op 9 o → s.hkpUp = true → u = s.count (Reg.mbxCount 0) 1 →
    (s.box o.st.target).st = .busy → (s.box o.st.target).owner = o.owner → leAt o.st.payload 2 1 = 4 →
    8 ≤ o.st.payload.length → leAt o.st.payload 4 2 ≤ 4088 → leAt o.st.payload 4 2 + 8 = o.st.payload.length →
    exec (.mbxPoll (.stitch op)) s = .next ((u.noteProgress o.st.target).answerOp op o.st.target { status := .ok, pending := true })) ∧
  (∀ (s u : State) (m : Nat) (b : Mailbox), s.power ≠ .off → s.serving = true → m = s.mbx.smb.mailbox → u = s.count (Reg.mbxCount 0) 1 →
    b = s.box m → b.st = .busy → b.owner = .smbus →
    (u.noteProgress m).box m = { b with progress := ((u.noteProgress m).box m).progress } ∧
    exec (.mbxPoll .smbus) s = .next ((u.noteProgress m).putBox m { (u.noteProgress m).box m with
      respBuf := ({ status := .ok, pending := true } : MbxAns).bytes ((u.noteProgress m).box m), due := u.now + u.mbxTimeout })) ∧
  (∀ (s u : State) (op : Nat) (o : Op), s.DeviceReady op 9 o → s.hkpUp = true → u = s.count (Reg.mbxCount 0) 1 →
    (s.box o.st.target).st = .done → (s.box o.st.target).owner = o.owner → leAt o.st.payload 2 1 = 8 →
    8 ≤ o.st.payload.length → leAt o.st.payload 4 2 ≤ 4088 → leAt o.st.payload 4 2 + 8 = o.st.payload.length →
    exec (.mbxAbort (.stitch op)) s = .next (((u.putBox o.st.target (s.box o.st.target).freed).count (Reg.mbxCount 6) 1).answerOp op
      o.st.target { status := .ok })) ∧
  (∀ (s u : State) (m : Nat) (b : Mailbox), s.power ≠ .off → s.serving = true → m = s.mbx.smb.mailbox → u = s.count (Reg.mbxCount 0) 1 →
    b = s.box m → b.st = .done → b.owner = .smbus →
    exec (.mbxAbort .smbus) s = .next ((u.putBox m b.freed).count (Reg.mbxCount 6) 1))

/-- How an operation ends: its response leaves for whoever asked, and a write that waited too long is refused. STITCH_COMPLETE on an
operation that is done: matrices that shadow the lines it wrote go stale (R219); a host's stitch, with its sampling record where it was
chosen (R541), gets its response on its connection (R76); a forwarded stitch answers the device that forwarded it, where that is still the
manager; a part goes back to the stitch it belongs to; the operation is left as leaveOp says. WRITE_WAIT_TIMEOUT of a write that waits at
the dirty ceiling and was not admitted, when due and no program completion waits in the queue in the same microsecond, answers THROTTLED,
counts it and raises the sampler event (R189, R18). -/
def Obligations.StitchesComplete : Prop :=
  (∀ (s u : State) (op i g : Nat) (o : Op) (r : Response), s.host.ops.find op = some o → o.phase = .done r → o.origin = .conn i g →
    u = (if s.wrote o r then s.staleWrite o.st.addr o.st.length else s) →
    exec (.stitchComplete op) s = .next (((u.sampleDone o r).respond o r).leaveOp op o r)) ∧
  (∀ (s u : State) (op d ref : Nat) (o : Op) (r : Response), s.host.ops.find op = some o → o.phase = .done r → o.origin = .lace d ref →
    u = (if s.wrote o r then s.staleWrite o.st.addr o.st.length else s) →
    exec (.stitchComplete op) s = .next ((if d = u.lace.mgr then u.sendComplete d ref o.conn r else u).leaveOp op o r)) ∧
  (∀ (s u : State) (op k i : Nat) (o : Op) (r : Response), s.host.ops.find op = some o → o.phase = .done r → o.origin = .part i k →
    u = (if s.wrote o r then s.staleWrite o.st.addr o.st.length else s) →
    exec (.stitchComplete op) s = .next ((u.leaveOp op o r).partDone i k r)) ∧
  (∀ (s : State) (op due : Nat) (o : Op), s.host.ops.find op = some o → o.phase = .waiting due → o.gate = some due → o.admitted = false →
    due ≤ s.now → s.overtaken due programEnds = false →
    exec (.writeWaitTimeout op) s = .next (((s.failOp op .throttled).count (Reg.plcCount 7) 1).raise 0x3008 s.self 0))

/-- What the three FILET_SUBMIT kinds and the four FILET_RESULT operations do. FILET_SUBMIT of each KIND that passes its checks and that
nothing holds back is accepted as a job of its matrix (R238). A FILET_RESULT that passes its checks and that nothing holds back, of a job
of the submitter on this matrix: READ of a job that still runs answers its JOB_STATE alone; of one that ended with a result, JOB_STATE and
the bytes of the result from the offset on, or ADDRESS where the offset lies past it, or UNCORRECTABLE where the result store found a word
of it beyond correction (R301); of one that ended otherwise, its status and JOB_STATE (R242). STATUS answers the job summary, with the
job's status once it has ended. RELEASE forgets the job, a job that still runs with its passes and sub-jobs, and answers 1. CANCEL ends a
running job as cancelled, counts it and answers 1; of an ended job it answers 1. Of a job that is not the submitter's on this matrix,
RELEASE and CANCEL answer 0, READ and STATUS end with ADDRESS (R244). -/
def Obligations.FiletStitches : Prop :=
  (∀ c ∈ [(Instr.filetSubmitScore, 0), (.filetSubmitTopk, 1), (.filetSubmitThreshold, 2)],
    ∀ (s : State) (op mid : Nat) (o : Op) (x : Matrix), s.Ready op o → o.st.opcode = 7 → kindOf o.st.subop = c.2 → s.submitCheck o = none →
      s.matrixAt o.st.addr = some (mid, x) → exec (c.1 op) s = .next (s.acceptJob op o mid x)) ∧
  (∀ (s : State) (op id : Nat) (o : Op) (j : FJob), s.ResultReady op 0 o id (some j) → 2 ≤ j.st → (j.status = .ok ∨ j.status = .okTruncated) →
    (j.spoiled = true → exec (.filetResultRead op) s = .next (s.failOp op .uncorrectable)) ∧
    (j.spoiled = false → leAt o.st.payload 4 4 < j.result.length →
      exec (.filetResultRead op) s = .next (s.finishOp op (o.answer j.status [BitVec.ofNat 8 j.st]
        (slice j.result (leAt o.st.payload 4 4) (min o.st.length (j.result.length - leAt o.st.payload 4 4)))))) ∧
    (j.spoiled = false → j.result.length ≤ leAt o.st.payload 4 4 → exec (.filetResultRead op) s = .next (s.failOp op .address))) ∧
  (∀ (s : State) (op id : Nat) (o : Op) (j : FJob), s.ResultReady op 0 o id (some j) → 2 ≤ j.st → j.status ≠ .ok → j.status ≠ .okTruncated →
    exec (.filetResultRead op) s = .next (s.finishOp op (o.answer j.status [BitVec.ofNat 8 j.st] []))) ∧
  (∀ (s : State) (op id : Nat) (o : Op) (j : FJob), s.ResultReady op 0 o id (some j) → j.st ≤ 1 →
    exec (.filetResultRead op) s = .next (s.finishOp op (o.answer .ok [BitVec.ofNat 8 j.st] []))) ∧
  (∀ (s : State) (op id : Nat) (o : Op) (j : FJob), s.ResultReady op 1 o id (some j) →
    exec (.filetResultStatus op) s = .next (s.finishOp op (o.answer (if j.st ≤ 1 then .ok else j.status) [] (j.summary id)))) ∧
  (∀ (s : State) (op id : Nat) (o : Op),
    (s.ResultReady op 0 o id none → exec (.filetResultRead op) s = .next (s.failOp op .address)) ∧
    (s.ResultReady op 1 o id none → exec (.filetResultStatus op) s = .next (s.failOp op .address))) ∧
  (∀ (s : State) (op id : Nat) (o : Op) (j : FJob), s.ResultReady op 2 o id (some j) → 2 ≤ j.st →
    exec (.filetResultRelease op) s = .next (({ s with filet := { s.filet with jobs := s.filet.jobs.drop id } } : State).finishOp op
      (o.answer .ok [1] []))) ∧
  (∀ (s u : State) (op id : Nat) (o : Op) (j : FJob), s.ResultReady op 2 o id (some j) → j.st ≤ 1 →
    u = { s with filet := { s.filet with jobs := s.filet.jobs.drop id } } →
    exec (.filetResultRelease op) s = .next ((((u.tellSubs id j 3).answerJob id { j with st := 3 }).unloadDone j.matrix).finishOp op
      (o.answer .ok [1] []))) ∧
  (∀ (s : State) (op id : Nat) (o : Op), s.ResultReady op 2 o id none →
    exec (.filetResultRelease op) s = .next (s.finishOp op (o.answer .ok [0] []))) ∧
  (∀ (s : State) (op id : Nat) (o : Op) (j k : FJob), s.ResultReady op 3 o id (some j) → j.st ≤ 1 →
    k = { j with st := 3, status := .ok, ended := s.now, todo := [], acc := [], subs := [], result := [], flags := 0 } →
    exec (.filetResultCancel op) s = .next (((((((s.tellSubs id j 3).modJob id (fun _ => k)).answerJob id k).unloadDone j.matrix).count
      (Reg.filCount 11) 1).finishOp op (o.answer .ok [1] [])))) ∧
  (∀ (s : State) (op id : Nat) (o : Op) (j : FJob), s.ResultReady op 3 o id (some j) → 2 ≤ j.st →
    exec (.filetResultCancel op) s = .next (s.finishOp op (o.answer .ok [1] []))) ∧
  (∀ (s : State) (op id : Nat) (o : Op), s.ResultReady op 3 o id none →
    exec (.filetResultCancel op) s = .next (s.finishOp op (o.answer .ok [0] [])))

/-- What ends of tile programs, audits, refreshes, passes, jobs and held results do. A tile program that verifies, of a group whose
columns are quantised (or whose shadow lines are all in the LLC, whole and of panels not lost, so that they are quantised now), is one
tile fewer to program, and the last one switches the group (R232, R233); while the firmware pauses only programs that replace failed tiles
end. A pass over an in-use tile of a group without fallback is converted into its job (R226); one whose converter failed its self-check
fails the tile; one over another tile, or of a group in fallback, puts the group in fallback (R234). A due audit of an in-use tile whose
shadow is there counts FILET_AUDITS, draws one free value, reports poisoned columns and the first failed column, tracks the tile, steps
its trims and ends as auditEnd says (R229). A tile that reaches REFRESH_AGE has its group refreshed (R232). A job whose passes and
sub-jobs are all in has the shadow of its fallback columns read, then, with VERIFY, that of its candidates; it ends with the status of a
shadow that cannot be read, and with VERIFY that of its lowest candidate that cannot be read (UNAVAILABLE where its panel is lost), and
else counts them and ends with the result of its columns (R239 to R241). RESULT_HOLD ends a held result (R244). -/
def Obligations.FiletEngineWorks : Prop :=
  (∀ (s : State) (tile : Nat) (p : FProg) (x : Matrix) (q : List Nat × List Nat × List (List Int)) (l : List Nat), tile < 1179648 →
    s.filet.progs.find? (fun p => p.left.contains tile) = some p → s.filet.matrices.find p.matrix = some x →
    s.fwPaused = false ∨ p.why = .failed → l = p.left.filter (· != tile) →
    p.quant = some q ∨ (p.quant = none ∧ s.allResident (x.lines (s.ownCols x p.group)) = true ∧
      s.shadowStatus x p.fails (s.ownCols x p.group) = none ∧ q = s.quantGroup x p.group) →
    exec (.tileProgramDone tile true) s = .next (if l.isEmpty then s.switchGroup { p with left := l, quant := some q } q
      else { s with filet := { s.filet with
        progs := s.filet.progs.map (fun e => if e.matrix = p.matrix && e.group == p.group then { p with left := l, quant := some q } else e) } })) ∧
  (∀ (s : State) (tile : Nat) (p : FProg) (x : Matrix), tile < 1179648 →
    s.filet.progs.find? (fun p => p.left.contains tile) = some p → s.filet.matrices.find p.matrix = some x →
    s.fwPaused = false ∨ p.why = .failed → exec (.tileProgramDone tile false) s = .next (s.progFails p tile)) ∧
  (∀ (s : State) (port tile : Nat) (codes : List (List Int)) (ids : Nat × Nat × Nat) (x : Matrix) (y : FGroup) (j : FJob), port < 144 →
    s.passAt port = some ids → tile = ids.2.1 → s.group (s.tile tile).matrix (s.tile tile).group = some (x, y) →
    s.filet.jobs.find ids.1 = some j →
    ((s.tile tile).st = .inUse → y.fallback = false →
      exec (.passDone port codes true) s = .next (s.passConverted ids.1 tile ids.2.2 x y j codes)) ∧
    ((s.tile tile).st ≠ .inUse ∨ y.fallback = true →
      exec (.passDone port codes true) s = .next (s.fallbackGroup (s.tile tile).matrix (s.tile tile).group tile)) ∧
    exec (.passDone port codes false) s = .next (s.failTile tile 2)) ∧
  (∀ (s u v w : State) (tile : Nat) (codes : List (List Int)) (x : Matrix) (y : FGroup) (good : List Nat) (rows bad : List AuditRow)
      (a : Tile), tile < 1179648 → a = s.tile tile → s.group a.matrix a.group = some (x, y) → s.fwPaused = false → y.stale = false →
    a.st = .inUse → a.audited + s.fld Reg.filCfg 27 16 ≤ s.opTime → s.allResident (x.lines (s.ownCols x a.group)) = true →
    good = (s.ownCols x a.group).filter (fun j => !s.colPoison x j) → rows = s.auditRows x y a codes good →
    bad = rows.filter (AuditRow.bad (s.fld Reg.filRefreshCfg 51 44)) →
    u = ({ s with free := s.free + 1 } : State).count (Reg.filCount 2) 1 →
    v = (if good.length < (s.ownCols x a.group).length then (u.raiseTile 0x4004 tile 0).count (Reg.filCount 10) 1 else u) →
    w = (match bad with | [] => v | r :: _ => v.raiseTile 0x4003 tile r.deviation) →
    exec (.audit tile codes) s = .next (w.auditEnd tile a
      { a.tracked (s.auditFit a codes) (residOver (s.fld Reg.filRefreshCfg 31 16) (s.auditFit a codes).resid) with
        trim := auditTrim x.width a.trim rows, colFails := bad.map (·.index), audited := s.opTime } y (s.auditFit a codes).degenerate)) ∧
  (∀ (s : State) (m g : Nat) (x : Matrix) (y : FGroup), s.group m g = some (x, y) →
    (∃ t ∈ y.tiles, (s.tile t).since + 3600 * s.fld Reg.filRefreshCfg 43 32 ≤ s.opTime) →
    exec (.refreshAge m g) s = .next (s.refreshNow m g)) ∧
  (∀ (s u : State) (job n : Nat) (j : FJob) (x : Matrix) (cols exact cc here : List Nat) (cand : List (List Ent)) (known : List Nat → Bool)
      (lost : Nat → Bool) (fail : Nat → Option Status),
    s.filet.jobs.find job = some j → s.filet.matrices.find j.matrix = some x → j.st ≤ 1 → j.todo = [] → (∀ y ∈ j.subs, y.finished = true) →
    cols = x.colsIn (descFirst j.desc) (descCount j.desc x.cols) j.mine → exact = cols.filter (fun c => j.fallback.contains (c / x.width)) →
    known = (fun l => (x.lines l).all (fun ln => (s.resident ln).isSome || j.fails.any (fun f => f.1 == ln))) →
    cand = (if verifyOf j.subop then (List.range j.queries.length).map (fun q => (candidates j.subop j.desc (cols.map (s.scoreCol x j q))).1) else []) →
    cc = sortOrd (fun a b => decide (a < b)) (cand.flatMap (fun l => l.map (·.col))).eraseDups →
    lost = (fun c => (s.mem.dir.find (x.panel c)).any (fun e => e.st == 2 || e.st == 3)) →
    here = cc.filter (fun c => !lost c) → fail = (fun c => if lost c then some .unavailable else s.shadowStatus x j.fails [c]) →
    n = (cand.map (·.length)).foldl (· + ·) 0 → u = (s.count (Reg.filCount 4) n).count (Reg.filCount 5) (exact.length * j.queries.length) →
    (known exact = false → exec (.jobComplete job) s = .next (s.fetchShadow (x.lines exact))) ∧
    (∀ st : Status, known exact = true → s.shadowStatus x j.fails exact = some st → exec (.jobComplete job) s = .next (s.endJob job j st [])) ∧
    (known exact = true → s.shadowStatus x j.fails exact = none →
      (known here = false → exec (.jobComplete job) s = .next (s.fetchShadow (x.lines here) .rescore)) ∧
      (∀ (st : Status) (p q : List Nat) (c : Nat), known here = true → cc = p ++ c :: q → (∀ k ∈ p, fail k = none) → fail c = some st →
        exec (.jobComplete job) s = .next (s.endJob job j st [])) ∧
      (known here = true → (∀ c ∈ cc, fail c = none) → exec (.jobComplete job) s = .next (u.finishJob job { j with verified := n }
        ((List.range j.queries.length).map (u.blockOf x j cols)))))) ∧
  (∀ (s : State) (job : Nat) (j : FJob), s.filet.jobs.find job = some j → 2 ≤ j.st → j.ended + ms (s.fld Reg.filCfg 47 32) ≤ s.now →
    exec (.resultHoldExpire job) s = .next { s with filet := { s.filet with jobs := s.filet.jobs.drop job } })

/-- What an occurrence does when it reaches the keep island, and what the end of a gap commits. SAMPLER_OCCURRENCE takes the oldest
occurrence of an island's queue and counts it. While SAMPLER_CLEAR runs it is held (R537), and so is one that needs a new record while the
keep is closed (R455, log entry 202). Where no record holds its code and source it makes one in the lowest free slot, committed at once
(R534, R536), or, where no slot is free, counts in OVERFLOW, committed where its gap is over; where a record holds them, that record takes
the occurrence, and is committed where nothing waited in it, its GAP and day budget allow and the keep is open. SAMPLER_GAP_EXPIRE commits
the waiting occurrences of a slot once the gap is over, its day budget allows, no clear runs and no occurrence of the record waits in the
queue in the same microsecond (R18), and OVERFLOW once its gap is over (R534, R536); in a closed keep nothing (R455). -/
def Obligations.SamplerKeepsOccurrences : Prop :=
  (∀ (s : State) (i k : Nat) (o : Occ) (u : State), i < 46 → s.kept.smpQ.find? (fun e => e.1 == i) = some (k, o) →
    u = ({ s with kept := { s.kept with smpQ := s.kept.smpQ.erase (k, o) } } : State).count (Reg.pmcValue 493) 1 → u.clearing = true →
    exec (.samplerOccurrence i) s = .next { u with kept := { u.kept with smpHeld := u.kept.smpHeld ++ [o] } }) ∧
  (∀ (s : State) (i k n : Nat) (o : Occ) (u : State), i < 46 → s.kept.smpQ.find? (fun e => e.1 == i) = some (k, o) →
    u = ({ s with kept := { s.kept with smpQ := s.kept.smpQ.erase (k, o) } } : State).count (Reg.pmcValue 493) 1 → u.clearing = false →
    u.kept.slots.find? (fun e => e.2.keep.code == o.code && e.2.keep.src == o.src) = none → u.kept.slots.firstFree 0 2048 = some n →
    u.kept.closed = false →
    exec (.samplerOccurrence i) s = .next (((u.putSlot n { keep := SmpRec.ofOcc o, before := none, pages := 2, work := SmpRec.ofOcc o, waiting := 0, lastCommit := u.now
                                                           day := u.dayBucket, commits := 1 }).count (Reg.pmcValue 494) 1).count (Reg.kepCount 0) 2)) ∧
  (∀ (s : State) (i k : Nat) (o : Occ) (u v : State), i < 46 → s.kept.smpQ.find? (fun e => e.1 == i) = some (k, o) →
    u = ({ s with kept := { s.kept with smpQ := s.kept.smpQ.erase (k, o) } } : State).count (Reg.pmcValue 493) 1 → u.clearing = false →
    u.kept.slots.find? (fun e => e.2.keep.code == o.code && e.2.keep.src == o.src) = none → u.kept.slots.firstFree 0 2048 = none → u.kept.closed = false →
    v = (u.setFld Reg.smpOverflow 31 0 (satAdd 32 (u.fld Reg.smpOverflow 31 0) 1)).count (Reg.pmcValue 497) 1 →
    exec (.samplerOccurrence i) s = .next (if v.due (v.kept.overflowAt + v.smpGap) then v.commitOverflow else v)) ∧
  (∀ (s : State) (i k : Nat) (o : Occ) (u : State), i < 46 → s.kept.smpQ.find? (fun e => e.1 == i) = some (k, o) →
    u = ({ s with kept := { s.kept with smpQ := s.kept.smpQ.erase (k, o) } } : State).count (Reg.pmcValue 493) 1 → u.clearing = false →
    u.kept.slots.find? (fun e => e.2.keep.code == o.code && e.2.keep.src == o.src) = none → u.kept.closed = true →
    exec (.samplerOccurrence i) s = .next { u with kept := { u.kept with smpHeld := u.kept.smpHeld ++ [o] } }) ∧
  (∀ (s : State) (i k n : Nat) (o : Occ) (u : State) (x : SmpSlot), i < 46 → s.kept.smpQ.find? (fun e => e.1 == i) = some (k, o) →
    u = ({ s with kept := { s.kept with smpQ := s.kept.smpQ.erase (k, o) } } : State).count (Reg.pmcValue 493) 1 → u.clearing = false →
    u.kept.slots.find? (fun e => e.2.keep.code == o.code && e.2.keep.src == o.src) = some (n, x) →
    exec (.samplerOccurrence i) s = .next (if x.waiting = 0 && u.gapOver x && u.inBudget x && !u.kept.closed
      then u.commitSlot n { x with work := x.work.add o, waiting := x.waiting + 1 } 0
      else u.putSlot n { x with work := x.work.add o, waiting := x.waiting + 1 })) ∧
  (∀ (s : State) (n : Nat) (x : SmpSlot), n < 2048 → s.kept.slots.find n = some x → x.waiting ≠ 0 → x.lastCommit + s.smpGap ≤ s.now →
    s.overtaken (x.lastCommit + s.smpGap) (s.joins x) = false → s.inBudget x = true → s.clearing = false → s.kept.closed = false →
    exec (.samplerGapExpire n) s = .next (s.commitSlot n x x.waiting)) ∧
  (∀ s : State, s.kept.overflow ≠ s.fld Reg.smpOverflow 31 0 → s.kept.overflowAt + s.smpGap ≤ s.now → s.kept.closed = false →
    exec (.samplerGapExpire 2048) s = .next { s with kept := { s.kept with overflow := s.fld Reg.smpOverflow 31 0, overflowAt := s.now } }) ∧
  (∀ (s : State) (n : Nat), n ≤ 2048 → s.kept.closed = true → exec (.samplerGapExpire n) s = .next s)

/-- An occurrence enters its island's queue of 16 entries, and is lost and counted where the queue is full. R540, with the model's map of
events to islands (log entry 13): raising a sampler occurrence while the island's queue holds 16 entries loses it and counts
SMP_EVENTS_LOST; while it holds fewer, the occurrence stands last in that queue with its code, source, value and time. -/
def Obligations.OccurrencesQueueTowardTheKeep : Prop :=
  (∀ (s : State) (code src val : Nat), 16 ≤ (s.kept.smpQ.filter (fun e => e.1 == s.islandOf code src)).length →
    s.raise code src val = s.count (Reg.pmcValue 496) 1) ∧
  (∀ (s : State) (code src val : Nat), (s.kept.smpQ.filter (fun e => e.1 == s.islandOf code src)).length < 16 →
    s.raise code src val = { s with kept := { s.kept with
      smpQ := s.kept.smpQ ++ [(s.islandOf code src, { code := code, src := src, val := val % 2 ^ 32, time := s.stamp })] } })

/-- What the window commands, the reset sweep and the stale-tail timer do to a bobbin. PACKET_START abandons and counts a packet still
open in the window; where the bobbin does not refuse it the window is reserved for its words, a length of 0 standing for 65,536 bytes;
where it refuses, the refusal is noted and the window holds its status (R384). PUSH_DATA stores a word, and with the last one commits the
packet; without an open packet it is counted (R385). POP of a whole bobbin whose cells read, corrected or not, gives the next word of its
oldest packet, and frees the packet with its last word; of an uncorrectable cell it gives the word as lost; of an empty bobbin 0, counted
(R386, R391). DROP of a bobbin with a packet discards the oldest (R387). The end of a reset sweep leaves the bobbin DISABLED and empty,
and its windows idle (R392). STALE_TAIL_EXPIRE, where the timer has run out and no pop of the bobbin waits in the queue in the same
microsecond (R18), fires once, sets the pending bit, counts it and raises the event (R390). -/
def Obligations.BobbinsQueuePackets : Prop :=
  (∀ (s u : State) (c b len : Nat) (v : Word), c < 4 → u = (if (s.pushWin c).left = 0 then s else (s.putWin c .idle).count (Reg.bobCount 10) 1) →
    b = v.field 15 0 → len = (if v.field 31 16 = 0 then 65536 else v.field 31 16) →
    (u.startRefused b len = none →
      exec (.packetStart c v) s = .next (u.putWin c { status := 0, bob := b, len := len, words := [], left := wordsOf len })) ∧
    (∀ st, u.startRefused b len = some st →
      exec (.packetStart c v) s = .next ((u.noCredit b len st).putWin c { PushWin.idle with status := st.code }))) ∧
  (∀ (s : State) (c : Nat) (v : Word) (w : PushWin), c < 4 → w = s.pushWin c → 1 < w.left →
    exec (.pushData c v) s = .next (s.putWin c { w with
      words := w.words ++ [(BitVec.ofNat 56 (v.toNat % 2 ^ 56), v.bit 60)]
      left := w.left - 1 })) ∧
  (∀ (s : State) (c : Nat) (v : Word) (w : PushWin), c < 4 → w = s.pushWin c → w.left = 1 →
    exec (.pushData c v) s = .next ((s.putWin c { w with words := [], left := 0 }).commitPkt w.bob {
      len := w.len
      words := w.words ++ [(BitVec.ofNat 56 (v.toNat % 2 ^ (8 * (w.len - 7 * w.words.length))), v.bit 60)] })) ∧
  (∀ (s : State) (c : Nat) (v : Word), c < 4 → (s.pushWin c).left = 0 → exec (.pushData c v) s = .next (s.count (Reg.bobCount 11) 1)) ∧
  (∀ (s u : State) (c b : Nat) (out : CellOutcome) (x : Bob) (p : BobPkt) (rest : List BobPkt), c < 4 → b = s.fld (Reg.bobPopSel c) 15 0 →
    x = s.bobbin b → x.broken = false → x.pkts = p :: rest →
    (out = .clean ∧ u = s) ∨ (∃ q, out = .corrected q ∧ u = s.count (Reg.bobCount (q % 4)) 1) →
    (x.popped + 1 < p.words.length →
      exec (.pop c out) s = .next { u.putBob b (u.restale { x with popped := x.popped + 1 }) with seen := p.word x.popped false }) ∧
    (x.popped + 1 = p.words.length →
      exec (.pop c out) s = .next { (u.putBob b (u.restale { x with pkts := rest, popped := 0 })).count (Reg.bobCount 6) 1 with
        seen := p.word x.popped false })) ∧
  (∀ (s u : State) (c b q : Nat) (x : Bob) (p : BobPkt) (rest : List BobPkt), c < 4 → b = s.fld (Reg.bobPopSel c) 15 0 →
    x = s.bobbin b → x.broken = false → x.pkts = p :: rest → u = (s.count (Reg.bobCount 4) 1).raise 0x9003 b q →
    x.popped + 1 < p.words.length →
    exec (.pop c (.uncorrectable q)) s = .next { u.putBob b (u.restale { x with popped := x.popped + 1 }) with seen := p.word x.popped true }) ∧
  (∀ (s : State) (c : Nat) (out : CellOutcome) (x : Bob), c < 4 → x = s.bobbin (s.fld (Reg.bobPopSel c) 15 0) → x.broken = false → x.pkts = [] →
    exec (.pop c out) s = .next { s.count (Reg.bobCount 8) 1 with seen := 0 }) ∧
  (∀ (s : State) (c b : Nat) (v : Word) (x : Bob) (p : BobPkt) (rest : List BobPkt), c < 4 → b = s.fld (Reg.bobPopSel c) 15 0 →
    x = s.bobbin b → x.broken = false → x.pkts = p :: rest → v.bit 0 = true →
    exec (.drop c v) s = .next ((s.putBob b (s.restale { x with pkts := rest, popped := 0 })).count (Reg.bobCount 9) 1)) ∧
  (∀ (s : State) (b d : Nat) (x : Bob), b < 65536 → x = s.bobbin b → x.sweep = some d →
    exec (.bobbinResetDone b) s = .next ((List.range 4).foldl
      (fun t c => if (t.pushWin c).bob = b then t.putWin c { PushWin.idle with status := (t.pushWin c).status } else t)
      (s.putBob b { x with enabled := false, broken := false, pkts := [], popped := 0, staleFrom := none, fired := false, sweep := none }))) ∧
  (∀ (s : State) (b d : Nat) (x : Bob), b < 65536 → x = s.bobbin b → x.staleFrom = some d → x.staleTime ≠ 0 →
    d + us (10 * x.staleTime) ≤ s.now → s.overtaken (d + us (10 * x.staleTime)) (s.popsFrom b) = false →
    exec (.staleTailExpire b) s = .next ((((s.putBob b { x with staleFrom := none, fired := true }).setFlag (Reg.bobStalePend b) (b % 64)).count
      (Reg.bobCount 13) 1).raise 0x9001 b 0))

/-- What the eviction of a line and the end of a zero fill do. LINE_EVICT of a line of the eviction buffer: a clean line is placed or
dropped and leaves the buffer; a dirty one whose tree node is lost leaves as a lost line; another dirty one that finds room in the tier or
a program slot is counted in WRITEBACKS and leaves, and one that finds none stays (R182). MAPPING_FILL_DONE, once all 512 lines are
filled, maps the logical swatch on its new physical swatch with a free rotation, labels its lines, and counts the fill (R173). -/
def Obligations.LinesLeaveTheCache : Prop :=
  (∀ (s : State) (ln l : Nat) (c : LlcLine), ln < 2 ^ 56 → s.mem.evb.find ln = some c → s.localLine ln = some l → c.dirty = 0 →
    exec (.lineEvict ln) s = .next ((s.placeClean ln l c).dropEvb ln)) ∧
  (∀ (s : State) (ln l : Nat) (c : LlcLine), ln < 2 ^ 56 → s.mem.evb.find ln = some c → s.localLine ln = some l → c.dirty ≠ 0 →
    s.nodeGone l = true → exec (.lineEvict ln) s = .next ((s.dropEvb ln).loseNode ln l)) ∧
  (∀ (s : State) (ln l : Nat) (c : LlcLine), ln < 2 ^ 56 → s.mem.evb.find ln = some c → s.localLine ln = some l → c.dirty ≠ 0 →
    s.nodeGone l = false →
    ((s.placeDirty ln l c).1 = true → exec (.lineEvict ln) s = .next (((s.placeDirty ln l c).2.count (Reg.llcCount 3) 1).dropEvb ln)) ∧
    ((s.placeDirty ln l c).1 = false → exec (.lineEvict ln) s = .next (s.placeDirty ln l c).2)) ∧
  (∀ (s : State) (lsw d : Nat), lsw < 29360128 → s.mem.filled.get lsw 0 = 512 → s.mem.zeroFill.find lsw = some d →
    ∃ (u v t : State), u = ({ s with free := s.free + 1 } : State).putPrk lsw { s.prk lsw with
        ps := d, rot := (Config.free64 s.free).toNat % 512, st := .mapped } ∧
      v = (u.putLdg d { u.ldg d with zeroLabel := s.epochLabel }).addProgs d 0 ∧
      t = (({ v with mem := { v.mem with
        zeroFill := v.mem.zeroFill.drop lsw
        filled := v.mem.filled.drop lsw
        med := v.mem.med.filter (fun x => x.1 / 512 != d) } } : State).markCurrent d).count (Reg.plcCount 10) 1 ∧
      exec (.mappingFillDone lsw) s = .next (if t.mem.zeroFill.isEmpty then t.clrFlag Reg.plcStatus 1 else t))

/-- What the timers of heat, levelling, tables and the wear governor do when they are due. Each when its timer is due, which starts again
for its period. HEAT_HALVE halves both heats of every physical swatch (R179). LEVEL_PERIOD, while the firmware does not pause placement
work (R520), sorts the free pool, starts the retirements that wait, the levelling moves and the moves the filet shell asks for (R184,
R191, R197). TABLE_CHECKPOINT writes the placement tables every 60 s (R175). GOV_DAY_START starts a governor day every 86,400 s (R201).
GOV_TOKEN_TICK every 1 ms adds tokens and runs the cleaner, or before IDLE the flush that precedes it (R188, R190, R201). GOV_RELEASE, 10
s after the governor stopped LIMITING, which is 1 s after its last wait, lifts SLOW, reports it, and clears LIMITING (R204). -/
def Obligations.PlacementTimersAct : Prop :=
  (∀ (s : State) (d : Nat), s.timers.find Timer.heat = some d → d ≤ s.now →
    exec .heatHalve s = .next (({ s with mem := { s.mem with
      ldg := (s.mem.ldg.map (fun e => (e.1, { e.2 with heatR := e.2.heatR / 2, heatW := e.2.heatW / 2 }))).filter
        (fun e => !decide (e.2 = Ldg.unused)) } } : State).arm Timer.heat (sec (s.fld Reg.plcCfg 15 8)))) ∧
  (∀ (s u : State) (d : Nat), s.timers.find Timer.level = some d → d ≤ s.now → s.fwPaused = false → u = s.sortPool.retireWaiting.levelMoves →
    exec .levelPeriod s = .next ((({ u with free := u.free + 1 } : State).filetMoves u.filetAsks).arm Timer.level
      (sec (s.fld Reg.plcMoveCfg 15 8)))) ∧
  (∀ (s : State) (d : Nat), s.timers.find Timer.table = some d → d ≤ s.now → exec .tableCheckpoint s = .next (s.toTable.arm Timer.table (sec 60))) ∧
  (∀ (s : State) (d : Nat), s.timers.find Timer.govDay = some d → d ≤ s.now →
    exec .govDayStart s = .next (s.govDayStart.arm Timer.govDay (sec 86400))) ∧
  (∀ (s : State) (d : Nat), s.timers.find Timer.govTick = some d → d ≤ s.now →
    (s.pwr.idling = false → exec .govTokenTick s = .next (s.govTick.cleaner.arm Timer.govTick (ms 1))) ∧
    (s.pwr.idling = true → exec .govTokenTick s = .next (s.govTick.idleWork.arm Timer.govTick (ms 1)))) ∧
  (∀ (s u : State) (t : Nat), s.mem.gov.lastWait = some t → t + sec 11 ≤ s.now →
    u = (s.wearLift s.self).report (.slow s.self 3 0 0xFFFFFFFF 0xFFFFFFFF) →
    exec .govRelease s = .next (({ u with mem := { u.mem with gov := { u.mem.gov with lastWait := none, lastSlow := none } } } : State).clrFlag
      Reg.plcGovStatus 0))

/-- What the copy, the finish and the timeout of a move do. MOVE_COPY_DONE of a move not yet switched whose 512 lines are all copied puts
poisoned lines where a line could not be recovered, maps the logical swatch on its destination, takes over the heat, and marks the move
switched (R192, R194, R180). MOVE_FINISH of a switched move whose source no read still uses maps the destination, frees the source, or
retires it where it was a retirement, forgets the move and counts it (R192). MOVE_TIMEOUT of a due move neither switched nor fully copied
gives the destination back, leaves the mapping, raises the sampler event with the lines copied, and retries a retirement (R193). A report
of either whose count of lines is not the move's is one it cannot give, and changes nothing (the model's choice: log entry 3). -/
def Obligations.SwatchesMove : Prop :=
  (∀ (s u v w : State) (k : Nat) (bad : List Nat) (mv : Move), k < 64 → s.mem.moves.find k = some mv → mv.switched = false →
    mv.map = BitVec.allOnes 512 →
    u = ((bad.filter (· < 512)).eraseDups).foldl (fun t i => t.copyLost mv i) s →
    v = u.putPrk mv.lsw { u.prk mv.lsw with ps := mv.dst, rot := mv.rot, st := .mapped, slot := 0 } →
    w = v.putLdg mv.dst { v.ldg mv.dst with heatR := (v.ldg mv.src).heatR, heatW := (v.ldg mv.src).heatW, zeroLabel := s.epochLabel } →
    exec (.moveCopyDone k bad mv.again) s = .next (({ w with mem := { w.mem with
      programs := w.mem.programs.filter (fun x => x.1 / 512 != mv.src)
      moves := w.mem.moves.put k { mv with switched := true } } } : State).markCurrent mv.dst)) ∧
  (∀ (s u v w x : State) (k : Nat) (mv : Move), k < 64 → s.mem.moves.find k = some mv → mv.switched = true →
    s.mem.senses.any (fun e => e.1 / 512 == mv.src) = false →
    u = s.putLdg mv.dst { s.ldg mv.dst with st := .mapped, lsw := mv.lsw } →
    v = u.putLdg mv.src { u.ldg mv.src with st := .free, lsw := 0, heatR := 0, heatW := 0 } →
    w = { v with mem := { v.mem with moves := v.mem.moves.drop k, med := v.mem.med.filter (fun x => x.1 / 512 != mv.src) } } →
    (∃ c, mv.why = .retire c ∧ x = w.setRetired mv.src c) ∨ ((∀ c, mv.why ≠ .retire c) ∧ x = w) →
    exec (.moveFinish k) s = .next ((((x.setFld Reg.plcMoveStatus 6 0 (x.fld Reg.plcMoveStatus 6 0 - 1)).setFld Reg.plcMoveStatus 63 32
      (x.fld Reg.plcMoveStatus 63 32 + 1)).count (Reg.plcCount 8) 1).retireWaiting)) ∧
  (∀ (s u v w x : State) (k : Nat) (mv : Move), k < 64 → s.mem.moves.find k = some mv → mv.switched = false →
    mv.map ≠ BitVec.allOnes 512 → mv.due ≤ s.now →
    u = s.putLdg mv.dst { s.ldg mv.dst with st := .free, lsw := 0 } →
    v = u.putPrk mv.lsw { u.prk mv.lsw with st := .mapped, slot := 0 } →
    w = { v with mem := { v.mem with moves := v.mem.moves.drop k, med := v.mem.med.filter (fun x => x.1 / 512 != mv.dst) } } →
    x = (w.setFld Reg.plcMoveStatus 6 0 (w.fld Reg.plcMoveStatus 6 0 - 1)).raise 0x3005 (mv.src % 2 ^ 16) mv.copied →
    (∀ c, mv.why = .retire c → exec (.moveTimeout k mv.copied) s = .next (x.retireSwatch mv.src c)) ∧
    ((∀ c, mv.why ≠ .retire c) → exec (.moveTimeout k mv.copied) s = .next x)) ∧
  (∀ (s : State) (k n : Nat) (bad : List Nat) (mv : Move), k < 64 → s.mem.moves.find k = some mv →
    (n ≠ mv.again → exec (.moveCopyDone k bad n) s = .next s) ∧ (n ≠ mv.copied → exec (.moveTimeout k n) s = .next s))

/-- What the end of a NOTICE gap does. NOTICE_GAP_END (R428) ends the gap of one connection, alarm code and key: where an alarm came
within it, one NOTICE with the latest values is sent and the gap starts again, else the gap is forgotten. -/
def Obligations.NoticeGapsEnd : Prop :=
  (∀ (s : State) (conn code key : Nat) (g : NoticeGap), conn < 0xFFFF →
    s.mem.gaps.find? (fun g => g.conn == conn && g.code == code && g.keyId == key) = some g → g.due ≤ s.now → g.latest = none →
    exec (.noticeGapEnd conn code key) s = .next { s with mem := { s.mem with
      gaps := s.mem.gaps.filter (fun x => !(x.conn == conn && x.code == code && x.keyId == key)) } }) ∧
  (∀ (s : State) (conn code key d a r : Nat) (g : NoticeGap), conn < 0xFFFF →
    s.mem.gaps.find? (fun g => g.conn == conn && g.code == code && g.keyId == key) = some g → g.due ≤ s.now → g.latest = some (d, a, r) →
    exec (.noticeGapEnd conn code key) s = .next (({ s with mem := { s.mem with
      gaps := s.mem.gaps.filter (fun x => !(x.conn == conn && x.code == code && x.keyId == key)) } } : State).alarmNotice d conn code key a r))

/-- How the fragments of a read and of a program end, and what the row timeout does. SENSE_COMPLETE of a fragment that has not ended
senses its cells; an epoch check that fails at the first sense is counted and evented (R158). A slot that decodes ends the fragment with
its count of corrections, 3 or more of them counted, and the line is settled; one that fails with re-senses left is sensed again with its
ladder index kept, counted by its attempt; one that fails for good is an erasure: counted, evented, repaired, settled and held against its
die (R159). ROW_OPEN_TIMEOUT when due closes the row. PROGRAM_COMPLETE of a running fragment, while its stack stops no programs, counts
the slots and pulses; a program that passes ends its fragment, its row remapped where it was retried; one that fails is counted, and where
it was retried or no spare row is left the fragment fails and the swatch is retired, else its row's seven other slots are read and it
takes a spare row (R140, R141). -/
def Obligations.MediumAccessesEnd : Prop :=
  (∀ (s u : State) (p f : Nat) (cells epochCells drift : List Int) (e : Sense) (x : FragState), drift = slotDrift cells epochCells → p < 2 ^ 34 → f < 9 → s.mem.senses.find p = some e →
    e.frags[f]? = some x → x.ended = none →
    u = (if x.attempts = 0 && !(s.senseFrag p f e x drift).2.1
      then (s.count (Reg.stkCount (fragStack p f) 5) 1).raise 0x2008 (fragDie p f) (s.senseFrag p f e x drift).1 else s) →
    exec (.senseComplete p f cells epochCells) s = .next (match (s.senseFrag p f e x drift).2.2.2 with
      | .decoded c b => (if 3 ≤ c then (u.endFrag p f (.decoded c b)).count (Reg.stkCount (fragStack p f) 12) 1
          else u.endFrag p f (.decoded c b)).settleSense p
      | .failed => if x.attempts < s.retryMax then ({ u with mem := { u.mem with
            senses := u.mem.senses.put p { e with frags := e.frags.set f { x with
              attempts := x.attempts + 1, index := (s.senseFrag p f e x drift).2.2.1 } } } } : State).count
                (Reg.stkCount (fragStack p f) (1 + x.attempts)) 1
          else ((((((u.endFrag p f .failed).count (Reg.stkCount (fragStack p f) 3) 1).raise 0x2001 (fragDie p f)
            (s.senseFrag p f e x drift).2.2.1).repairLine p).settleSense p).dieErasure (fragDie p f)))) ∧
  (∀ (s : State) (p f d : Nat) (e : Sense) (x : FragState), p < 2 ^ 34 → f < 9 → s.mem.senses.find p = some e → e.frags[f]? = some x →
    x.rowOpen = some d → d ≤ s.now → exec (.rowOpenTimeout p f) s = .next { s with mem := { s.mem with
      senses := s.mem.senses.put p { e with frags := e.frags.set f { x with rowOpen := none } } } }) ∧
  (∀ (s u v : State) (p f n k q : Nat) (out : List Nat) (g : Program), p < 2 ^ 34 → f < 9 → s.mem.programs.find p = some g →
    g.running f = true → s.flag (Reg.stkPort (fragStack p f)) 2 = false → k = (if g.retried.contains f then 8 else 1) →
    q = (if out.isEmpty then max k (min (k * s.pulseMax) n) else max (k * s.pulseMax) 1) →
    u = (s.count (Reg.stkCount (fragStack p f) 6) k).count (Reg.stkCount (fragStack p f) 7) q →
    v = (if g.retried.contains f then u.remapRow (fragDie p f) (lineBank p) (lineRow p) q else u) → s.programPasses out = true →
    exec (.programComplete p f out n) s = .next (({ v with mem := { v.mem with
      programs := v.mem.programs.put p { g with frags := g.frags.set f (some true) } } } : State).settleProgram p)) ∧
  (∀ (s u : State) (p f n k q : Nat) (out : List Nat) (g : Program), p < 2 ^ 34 → f < 9 → s.mem.programs.find p = some g →
    g.running f = true → s.flag (Reg.stkPort (fragStack p f)) 2 = false → k = (if g.retried.contains f then 8 else 1) →
    q = (if out.isEmpty then max k (min (k * s.pulseMax) n) else max (k * s.pulseMax) 1) →
    u = ((s.count (Reg.stkCount (fragStack p f) 6) k).count (Reg.stkCount (fragStack p f) 7) q).count (Reg.stkCount (fragStack p f) 8) 1 →
    s.programPasses out = false →
    exec (.programComplete p f out n) s = .next (
      if g.retried.contains f || u.spareRowsLeft (fragDie p f) (lineBank p) = 0 then
        (({ u with mem := { u.mem with programs := u.mem.programs.put p { g with frags := g.frags.set f (some false) } } } : State).retireSwatch
          (p / 512) (if g.retried.contains f then 1 else 2)).settleProgram p
      else { ({ u with mem := { u.mem with programs := u.mem.programs.put p { g with retried := g.retried ++ [f] } } } : State).count
          (Reg.stkCount (fragStack p f) 0) 7 with mem := { u.mem with
            programs := u.mem.programs.put p { g with retried := g.retried ++ [f] }
            spareUsed := u.mem.spareUsed.put (fragDie p f * 64 + lineBank p) (u.mem.spareUsed.get (fragDie p f * 64 + lineBank p) 0 + 1) } }))

/-- What the epoch, refit, band and stack link rows do when they are due. EPOCH_PERIOD_END and EPOCH_RECHECK when due try to advance the
epoch (R150). WITNESS_PROGRAM_DONE while the epoch advances makes the next label current, gives it fresh AGE entries on all 72 dies,
treats the witness groups that failed, and starts the period. LADDER_REFIT when due, while the firmware does not pause it, refits from the
sweeps (R155, R520); BAND_UPDATE when due moves each die's band by its temperature estimate, with a new ladder set where the band changes
(R147, R148). A flit CRC error is counted as a replay, and the fourth in a row of one flit takes the stack link down, as training loss
does; a retrain that succeeds when due brings it up and has the dies it failed checked, one that fails is tried again after 1 s (R164). -/
def Obligations.EpochsAndLinksOfTheStacks : Prop :=
  (∀ (s : State) (d : Nat), s.timers.find Timer.epoch = some d → d ≤ s.now → exec .epochPeriodEnd s = .next (s.disarm Timer.epoch).tryAdvance) ∧
  (∀ (s : State) (d : Nat), s.timers.find Timer.epochRecheck = some d → d ≤ s.now → exec .epochRecheck s = .next s.tryAdvance) ∧
  (∀ (s u : State), s.mem.epochAdvance = true → u = ((((({ s with free := s.free + 1, mem := { s.mem with
      epochAdvance := false
      ages := (List.range 72).foldl (fun t d => t.put (d * 64 + s.nextLabel)
        { index := 0, early := false, residual := 0, fitTime := s.tick32 (Island.stack (d / 8)) }) s.mem.ages
      noWitness := s.mem.noWitness.filter (fun e => e.1 % 64 != s.nextLabel) } } : State).saturate Reg.stkEpoch 31 8).setFld Reg.stkEpoch 5 0
        s.nextLabel).clrFlag Reg.stkEpoch 6).setFld Reg.stkEpoch 63 32 0) →
    exec .witnessProgramDone s = .next
      ((s.witnessBad.foldl (fun t x => t.witnessFail s.nextLabel x) u).arm Timer.epoch (sec (u.fld Reg.stkEpochCfg 15 0)))) ∧
  (∀ (s : State) (d : Nat) (l : List Sweep), s.timers.find Timer.refit = some d → d ≤ s.now → s.fwPaused = false →
    exec (.ladderRefit l) s = .next ((s.refitAll l).arm Timer.refit (sec (s.fld Reg.stkEpochCfg 31 24)))) ∧
  (∀ (s : State) (d : Nat) (band : Nat → Nat), s.timers.find Timer.band = some d → d ≤ s.now →
    (∀ k, band k = nextBand (s.band k) (7 * signed16 (s.fld (Reg.stkPort (k / 8)) 23 8) + (signed16 (s.fld (Reg.stkPort (k / 8)) 39 24) -
        signed16 (s.fld (Reg.stkPort (k / 8)) 23 8)) * ((k % 8 : Nat) : Int))) →
    exec .bandUpdate s = .next (((List.range 72).foldl (fun t k => if band k = s.band k then t
      else (t.setFld (Reg.stkDieState (k / 8)) (8 * (k % 8) + 3) (8 * (k % 8) + 2) (band k)).newSet k (band k)) s).arm Timer.band (us 100))) ∧
  (∀ (s u : State) (k : Nat), k < 9 → u = ({ s with mem := { s.mem with flitReplays := s.mem.flitReplays.put k 1 } } : State).count (Reg.stkCount k 11) 1 →
    exec (.flitCrcFail k false) s = .next u) ∧
  (∀ (s u : State) (k n : Nat), k < 9 → n = s.mem.flitReplays.get k 0 + 1 →
    u = ({ s with mem := { s.mem with flitReplays := s.mem.flitReplays.put k n } } : State).count (Reg.stkCount k 11) 1 →
    exec (.flitCrcFail k true) s = .next (if 4 ≤ n then u.stackDown k else u)) ∧
  (∀ (s : State) (k : Nat), k < 9 → exec (.stackLinkTrainingLoss k) s = .next (s.stackDown k)) ∧
  (∀ (s u : State) (k d : Nat), k < 9 → s.mem.retrain.find k = some d → d ≤ s.now → u = (s.setFlag (Reg.stkPort k) 0).setFlag Reg.stkStatus k →
    exec (.stackLinkRetrain k true) s = .next ((List.range 8).foldl (fun t d =>
      if (t.die (8 * k + d)).st = .failed && (t.die (8 * k + d)).cause == 1 then t.putDie (8 * k + d) { t.die (8 * k + d) with checking := true } else t)
      (({ u with mem := { u.mem with retrain := u.mem.retrain.drop k } } : State).tilesBack k))) ∧
  (∀ (s : State) (k d : Nat), k < 9 → s.mem.retrain.find k = some d → d ≤ s.now →
    exec (.stackLinkRetrain k false) s = .next { s with mem := { s.mem with retrain := s.mem.retrain.put k (s.now + sec 1) } })

/-- What a scrub pass, its pace and visits, the check of a die, and resilvering do. SCRUB_PASS_START when due starts a pass, with BEHIND
and its event where lines were left, and its areas to be read (R306, R309, R311); SCRUB_PACE when due sets the lines a second that the
rest of the pass needs, within SCRUB_MAX (R309). SCRUB_VISIT visits the line of the repair queue where it is one that is scrubbed, and
drops it where not; without one an early line; without one the pass's areas while they are due; without them the next line of the pass,
counting the pass with the last one (R307, R308, R311). DIE_CHECK_DONE of a FAILED die in check shows its sweep and makes it REJOINING, or
keeps it FAILED and sets the flag (R316). RESILVER_SWATCH of a die that rejoins, where no swatch is being filled, rebuilds the lines of
the next swatch that is not current as dirty lines; where one is being filled, it pushes its lines out, and once every line is programmed
makes it current; then the die is ONLINE where nothing is left (R317). -/
def Obligations.ScrubbingAndResilvering : Prop :=
  (∀ (s u : State) (d : Nat), s.timers.find Timer.scrubPass = some d → d ≤ s.now →
    u = (if s.passLeft = 0 then s.clrFlag Reg.scrStatus 1 else (s.setFlag Reg.scrStatus 1).raise 0x200C s.self (s.passLeft / 1024)) →
    exec .scrubPassStart s = .next (({ u with mem := { u.mem with scrubNext := 0, passEnd := u.now + u.passPeriod, areasDue := true } } : State).arm
      Timer.scrubPass s.passPeriod)) ∧
  (∀ (s : State) (d n : Nat), s.timers.find Timer.scrubPace = some d → d ≤ s.now →
    n = min (s.passLeft / max 1 ((s.mem.passEnd - s.now) / sec 1)) (s.fld Reg.scrCfg 48 44 * 109000000000 / 100 / 256) →
    exec .scrubPace s = .next (({ s with mem := { s.mem with pace := n } } : State).arm Timer.scrubPace (sec 1))) ∧
  (∀ (s u : State) (l : List Byte), s.bobTake 2 = some (l, u) →
    exec .scrubVisit s = .next (if u.scrubbed (leNat l / 512) then u.visit (leNat l) else u)) ∧
  (∀ (s : State) (p : Nat), s.bobTake 2 = none → s.earlyLine = some p → exec .scrubVisit s = .next (s.visit p)) ∧
  (∀ s : State, s.bobTake 2 = none → s.earlyLine = none → s.mem.areasDue = true →
    exec .scrubVisit s = .next (({ s with free := s.free + 1 } : State).scrubAreas s.areasRead.1 s.areasRead.2)) ∧
  (∀ (s u : State) (p : Nat), s.bobTake 2 = none → s.earlyLine = none → s.mem.areasDue = false →
    s.passNext s.mem.scrubNext = some p → u = ({ s with mem := { s.mem with scrubNext := p + 1 } } : State).visit p →
    exec .scrubVisit s = .next (if (u.passNext (p + 1)).isNone then u.saturate Reg.scrStatus 47 16 else u)) ∧
  (∀ (s : State) (d : Nat) (h : List Nat), d < 72 → (s.die d).checking = true → (s.die d).st = .failed →
    (∃ u : State, u = s.showSweep d s.epochLabel 15 false h ∧
      exec (.dieCheckDone d { ok := true, hist := h }) s = .next ((u.putDie d { u.die d with
        st := .rejoining, cause := 0, erasures := [], current := [], checking := false }).raise 0x200A d 0)) ∧
    (∃ u : State, u = s.showSweep d s.epochLabel 15 true h ∧
      exec (.dieCheckDone d { ok := false, hist := h }) s = .next ((u.putDie d { s.die d with checking := false }).setFlag Reg.scrStatus 2))) ∧
  (∀ (s u : State) (d ps : Nat) (bad rest : List Nat), s.resilverDie = some d →
    u = (s.setFld Reg.scrResilver 6 0 d).setFlag Reg.scrResilver 7 → (u.die d).filling = none → u.notCurrent d = ps :: rest →
    ∃ v : State, v = (List.range 512).foldl (fun (t : State) i => t.resilverLine bad (u.ldg ps).lsw i) u ∧
      exec (.resilverSwatch bad) s = .next ((v.putDie d { v.die d with filling := some ps }).dieOnline d)) ∧
  (∀ (s u v : State) (d ps : Nat) (bad : List Nat), s.resilverDie = some d →
    u = (s.setFld Reg.scrResilver 6 0 d).setFlag Reg.scrResilver 7 → (u.die d).filling = some ps → v = u.pushOut ps →
    exec (.resilverSwatch bad) s = .next (if v.settledSwatch ps then (v.swatchCurrent d ps).dieOnline d else v))

/-- What the ends of DRAM accesses, probes, refills and pauses do. DRAM_ACCESS_DONE of a tier read that was issued and is not held, in a
group that is not being probed: a codeword of a group with an erased channel decodes with its 32 erasures; another is corrected up to 16
bytes and beyond correction above (R358, R320, the model's reading, log entry 191). Clean, or served from the write queue, the read
delivers its line; corrected it counts the corrections by channel, notes the error and delivers; erased it notes and counts the erasure
and delivers; beyond correction it is noted and counted, held, and its group is probed (R371, R375). CHANNEL_PROBE_DONE without a failed
channel raises the event where no read of the group is held, else loses the lines held; with failed channels it erases them, and the held
reads decode with an erasure while the DRAM is in use, and are lost otherwise (R319). REFILL_DONE ends the erasure of the channel (R322);
IDLE_FILL_DONE ends the idle fill (R373). DRAM_PAUSE when due, once the group's reads are done, pauses the group, counts the pause and the
retrained channels and trains each (R366, R367). DRAM_PATROL when due counts the bytes it read and what it corrected, and treats the lines
beyond correction (R312). -/
def Obligations.DramAccessesAndChannels : Prop :=
  (∀ (s : State) (ln cw : Nat), s.mem.dramReads.any (fun d => d.line == ln && d.issued && !d.bad) = true →
    s.mem.probing.has (dramGroup (s.targetAddr (.tier ln))) = false →
    (s.mem.dramReads.any (fun d => d.line == ln && d.fwd) = true →
      ∀ out, exec (.dramAccessDone (.tier ln) cw out) s = .next (s.tierDelivered ln)) ∧
    (s.mem.dramReads.any (fun d => d.line == ln && d.fwd) = false →
      ∀ out a, a = s.targetAddr (.tier ln) →
      (s.codewordEnd (dramGroup a) out = .clean → exec (.dramAccessDone (.tier ln) cw out) s = .next (s.tierDelivered ln)) ∧
      (s.codewordEnd (dramGroup a) out = .erasure → exec (.dramAccessDone (.tier ln) cw out) s =
        .next (((s.errLast 2 a cw 0 0).count (Reg.drcCount 11) 1).tierDelivered ln)) ∧
      (∀ l, s.codewordEnd (dramGroup a) out = .corrected l → exec (.dramAccessDone (.tier ln) cw out) s =
        .next ((((l.foldl (fun x c => x.corrBytes c.1 c.2) s).errLast 1 a cw (l.foldl (fun a c => a + c.2) 0)
          (l.foldl (fun a c => a ||| 2 ^ c.1) 0)).count (Reg.drcCount 10) 1).tierDelivered ln)) ∧
      (∀ u : State, s.codewordEnd (dramGroup a) out = .uncorrectable → u = ((s.errLast 3 a cw 0 0).count (Reg.drcCount 12) 1).count (Reg.scrCount 8) 1 →
        exec (.dramAccessDone (.tier ln) cw out) s = .next (({ u with mem := { u.mem with
          dramReads := u.mem.dramReads.map (fun d => if d.line = ln then { d with bad := true } else d) } } : State).startProbe a)))) ∧
  (∀ (s : State) (g : Nat) (l : List (Nat × Nat)),
    (s.codewordEnd g .uncorrectable = .uncorrectable) ∧
    ((groupChannels g).any s.erased = true → s.codewordEnd g .clean = .erasure ∧ s.codewordEnd g (.corrected l) = .erasure) ∧
    ((groupChannels g).any s.erased = false → s.codewordEnd g .clean = .clean ∧
      (16 < ((l.filter (fun c => c.1 / 5 == g)).foldl (fun (a : Nat) c => a + c.2) 0) → s.codewordEnd g (.corrected l) = .uncorrectable))) ∧
  (∀ (s u : State) (g a : Nat) (f bad : List Nat), g < 2 → s.mem.probing.find g = some a →
    u = ({ s with mem := { s.mem with probing := s.mem.probing.drop g } } : State).serveDram →
    bad = (u.mem.dramReads.filter (fun d => d.bad && dramGroup (u.targetAddr (.tier d.line)) == g)).map (·.line) →
    (f.filter (fun c => c / 5 == g) = [] → bad = [] → exec (.channelProbeDone g f) s = .next (u.raise 0x8003 s.self 0)) ∧
    (f.filter (fun c => c / 5 == g) = [] → bad ≠ [] → exec (.channelProbeDone g f) s = .next (bad.foldl (fun x ln => x.tierLost ln) u))) ∧
  (∀ (s u v : State) (g a : Nat) (f bad : List Nat), g < 2 → s.mem.probing.find g = some a →
    u = ({ s with mem := { s.mem with probing := s.mem.probing.drop g } } : State).serveDram →
    bad = (u.mem.dramReads.filter (fun d => d.bad && dramGroup (u.targetAddr (.tier d.line)) == g)).map (·.line) →
    f.filter (fun c => c / 5 == g) ≠ [] → v = (f.filter (fun c => c / 5 == g)).foldl (fun x c => (x.restartRefill c).eraseChannel c) u →
    exec (.channelProbeDone g f) s = .next (if v.flag Reg.glbStatus 2
      then bad.foldl (fun x ln => ((x.errLast 2 a 0 0 0).count (Reg.drcCount 11) 1).tierDelivered ln) v
      else bad.foldl (fun x ln => x.tierLost ln) v)) ∧
  (∀ (s u : State), s.flag Reg.scrDramStatus 10 = true →
    u = (((s.clrFlag Reg.scrDramStatus 10).setFld Reg.scrDramStatus 63 32 0).clrFlag Reg.scrDramStatus (s.fld Reg.scrDramStatus 19 16)).raise 0x8002
      (s.fld Reg.scrDramStatus 19 16) (s.fld Reg.scrDramStatus 19 16) →
    exec .refillDone s = .next (if u.fld Reg.scrDramStatus 9 0 = 0
      then ({ u with mem := { u.mem with wantReturn := u.mem.wantReturn.filter (· != s.fld Reg.scrDramStatus 19 16) } } : State).clrFlag Reg.scrStatus 3
      else { u with mem := { u.mem with wantReturn := u.mem.wantReturn.filter (· != s.fld Reg.scrDramStatus 19 16) } })) ∧
  (∀ s : State, s.flag Reg.drcStatus 2 = true → exec .idleFillDone s = .next (s.clrFlag Reg.drcStatus 2)) ∧
  (∀ (s : State) (g d : Nat) (r f : List Nat), g < 2 → s.groupReads g = false → s.timers.find (Timer.pause g) = some d → d ≤ s.now →
    exec (.dramPause g r f) s = .next (((groupChannels g).foldl (fun t c => t.trained c (!f.contains c)) (((s.pauseGroup g).count (Reg.drcCount 14)
      1).count (Reg.drcCount 15) (r.filter (fun c => c / 5 == g)).length)).arm (Timer.pause g) (ms 64))) ∧
  (∀ (s : State) (n d : Nat) (bad : List Nat), s.timers.find Timer.patrol = some d → d ≤ s.now →
    exec (.dramPatrol n bad) s = .next ((bad.foldl State.patrolBad
      ((s.count (Reg.drcBytes 6) (s.groupMib * 8192)).count (Reg.scrCount 7) n)).arm Timer.patrol (sec (60 * s.fld Reg.scrCfg 31 24))))

/-- How ways are cleaned, joined and tested, and how maintenance goes on and ends. WAY_CLEAN_DONE of a CLEANING way of which the eviction
buffer holds no dirty line makes it OFF, or DISABLED where it was disabled (R334). WAY_JOIN_DONE of a JOINING way makes it ON and counts
it; with the last one LLC_STATUS JOINING clears (R335). WAY_TEST_DONE of a way in test makes it JOINING, clears its LLC_WAY_DIS bit and
sets JOINING, or leaves it and sets RETURN_REFUSED (R336). MAINT_DONE carries the maintenance on as maintGo says and shows what is left;
where it is complete BUSY clears and DONE sets, with REFUSED and its event where lines could not be locked (R349, R337). -/
def Obligations.WaysChangeAndMaintenanceEnds : Prop :=
  (∀ (s : State) (k w : Nat) (x : Way), k < 32 → w < 16 → x = s.way k w → x.st = .cleaning →
    s.mem.evb.any (fun e => homeSlice e.1 == k && e.2.way == w && e.2.dirty != 0) = false →
    exec (.wayCleanDone k w) s = .next ((s.putWay k w { x with st := if x.why = 0 then .off else .disabled, why := 0 }).followWays k)) ∧
  (∀ (s u : State) (k w : Nat) (x : Way), k < 32 → w < 16 → x = s.way k w → x.st = .joining →
    u = (s.putWay k w { x with st := .on }).count (Reg.llcCount 9) 1 →
    exec (.wayJoinDone k w) s = .next (if u.mem.ways.values.any (fun y => y.st == .joining) then u else u.clrFlag Reg.llcStatus 2)) ∧
  (∀ (s : State) (k w : Nat) (x : Way), k < 32 → w < 16 → x = s.way k w → x.testing = true →
    exec (.wayTestDone k w true) s = .next (((s.putWay k w { x with st := .joining, testing := false }).wayDis k w false).setFlag Reg.llcStatus 2) ∧
    exec (.wayTestDone k w false) s = .next ((s.putWay k w { x with testing := false }).setFlag Reg.llcStatus 1)) ∧
  (∀ (s v w : State) (m : Maint), s.mem.maint = some m → v = (s.maintGo m).2.setFld Reg.llcMaintStatus 63 32 ((s.maintGo m).2.maintLeft m) →
    w = (({ v with mem := { v.mem with maint := none } } : State).clrFlag Reg.llcMaintStatus 0).setFlag Reg.llcMaintStatus 1 →
    exec .maintDone s = .next (match (s.maintGo m).1 with
      | none => v
      | some false => w
      | some true => (w.setFlag Reg.llcMaintStatus 2).raise 0x7005 w.self 0))

/-- What an agent's seven requests do, and that the protocol refuses the others. While the domain is UP, a request that Table 10-3 lets
the agent make is taken by the line's home: RD_SHARED of an agent 0 to 23, RD_OWN and OWN_NODATA of an agent that may own the line, each
without a copy of it; UPGRADE of an agent that may own it; WR; ATOM of an operation of Table 04-4 within the line; WHINT of an agent 24 to
26 (R342 to R345). RD_OWN and UPGRADE of an agent that may not own the line fail the domain with PROTOCOL (R350). -/
def Obligations.AgentsRequestLines : Prop :=
  (∀ (s : State) (a ln : Nat), a < 24 → ln < 2 ^ 56 → s.domainIsUp = true → s.copyOf a ln = none →
    exec (.rdShared a ln) s = .next (s.request ln a .rdShared)) ∧
  (∀ (s : State) (a ln : Nat), a < 27 → ln < 2 ^ 56 → s.domainIsUp = true → s.copyOf a ln = none → mayOwn a ln = true →
    exec (.rdOwn a ln) s = .next (s.request ln a .rdOwn) ∧ exec (.ownNodata a ln) s = .next (s.request ln a .ownNoData)) ∧
  (∀ (s : State) (a ln : Nat), a < 27 → ln < 2 ^ 56 → s.domainIsUp = true → mayOwn a ln = true →
    exec (.upgrade a ln) s = .next (s.request ln a .upgrade)) ∧
  (∀ (s : State) (a ln : Nat) (m : BitVec 4) (d : LineBits), a < 27 → ln < 2 ^ 56 → s.domainIsUp = true →
    exec (.wr a ln m d) s = .next (s.request ln a (.wr m d))) ∧
  (∀ (s : State) (a ln f off len x y : Nat), a < 27 → ln < 2 ^ 56 → s.domainIsUp = true → f ≤ 9 → off + len ≤ 256 →
    exec (.atom a ln f off len x y) s = .next (s.request ln a (.atom f off len x y))) ∧
  (∀ (s : State) (a ln : Nat) (m : BitVec 4) (d : LineBits) (t : Option Nat), 24 ≤ a → a < 27 → ln < 2 ^ 56 → s.domainIsUp = true →
    exec (.whint a ln m d t) s = .next (s.request ln a (.whint m d t))) ∧
  (∀ (s : State) (a ln : Nat), a < 27 → ln < 2 ^ 56 → s.domainIsUp = true → mayOwn a ln = false →
    exec (.rdOwn a ln) s = .next (s.domainFail 4 a) ∧ exec (.upgrade a ln) s = .next (s.domainFail 4 a))

/-- What write-backs, evictions and snoops do to an agent's copy. While the domain is UP, WB of an E, M or O copy puts its data in the
home dirty, ends the copy and is counted; EVICT_CLEAN of an S or E copy ends it (R346, R341). A snoop on its way to an agent that holds
the line, with what the agent wrote before it came: SNP_SHARE forwards the data to the requester, leaves O of M or O and S of the others,
and acknowledges; SNP_OWN forwards it, as E of E or S and as M of the others, leaves nothing and acknowledges; SNP_INV leaves nothing and
acknowledges with the data of M or O (R341). An agent without the line answers each with EVICTING (R347). -/
def Obligations.CopiesAreGivenBackAndForwarded : Prop :=
  (∀ (s : State) (a ln : Nat) (d : LineBits) (c : AgentLine), a < 27 → ln < 2 ^ 56 → s.domainIsUp = true → s.copyOf a ln = some c → c.st ≠ .s →
    exec (.wb a ln d) s = .next (((s.putCopy a ln none).modLlc ln (fun l => { l with
      data := d, valid := 15, dirty := 15, poison := c.poison, dir := l.dir.filter (fun x => x.1 != a) })).count (Reg.cohCount 2) 1)) ∧
  (∀ (s : State) (a ln : Nat) (c : AgentLine), a < 27 → ln < 2 ^ 56 → s.domainIsUp = true → s.copyOf a ln = some c → (c.st = .s ∨ c.st = .e) →
    exec (.evictClean a ln) s = .next ((s.putCopy a ln none).modLlc ln (fun l => { l with dir := l.dir.filter (fun x => x.1 != a) }))) ∧
  (∀ (s t : State) (a ln q : Nat) (w : Option LineBits) (b c : AgentLine), a < 27 → ln < 2 ^ 56 →
    s.take (CohMsg.isSnpShare a ln) = some (.snpShare a ln q, t) → t.copyOf a ln = some b → c = b.now w →
    exec (.snpShare a ln w) s = .next (((((t.putCopy a ln (some { c with
      st := match c.st with | .m => .o | .o => .o | _ => .s })).send (.fwdData q ln .s c.data c.poison)).send
      (.ack a ln (some (match c.st with | .m => .o | .o => .o | _ => .s)) none))).count (Reg.cohCount 1) 1)) ∧
  (∀ (s t : State) (a ln q : Nat) (w : Option LineBits) (b c : AgentLine), a < 27 → ln < 2 ^ 56 →
    s.take (CohMsg.isSnpOwn a ln) = some (.snpOwn a ln q, t) → t.copyOf a ln = some b → c = b.now w →
    exec (.snpOwn a ln w) s = .next ((((t.putCopy a ln none).send
      (.fwdData q ln (if c.st = .e || c.st = .s then .e else .m) c.data c.poison)).send (.ack a ln none none)).count (Reg.cohCount 1) 1)) ∧
  (∀ (s t : State) (a ln : Nat) (w : Option LineBits) (b c : AgentLine), a < 27 → ln < 2 ^ 56 →
    s.take (CohMsg.isSnpInv a ln) = some (.snpInv a ln, t) → t.copyOf a ln = some b → c = b.now w →
    exec (.snpInv a ln w) s = .next ((t.putCopy a ln none).send
      (.ack a ln none (if c.st = .m || c.st = .o then some (c.data, c.poison) else none)))) ∧
  (∀ (s t : State) (a ln q : Nat) (w : Option LineBits), a < 27 → ln < 2 ^ 56 → t.copyOf a ln = none →
    (s.take (CohMsg.isSnpShare a ln) = some (.snpShare a ln q, t) → exec (.snpShare a ln w) s = .next (t.send (.evicting a ln))) ∧
    (s.take (CohMsg.isSnpOwn a ln) = some (.snpOwn a ln q, t) → exec (.snpOwn a ln w) s = .next (t.send (.evicting a ln))) ∧
    (s.take (CohMsg.isSnpInv a ln) = some (.snpInv a ln, t) → exec (.snpInv a ln w) s = .next (t.send (.evicting a ln))))

/-- What forwarded data, grants, acknowledgements, pushes and the domain's failure and return do. Of the message of its kind that is on
its way: FWD_DATA gives the agent its copy and the home's directory its state; GRANT gives the agent its copy, with the data it held where
the home sends none (R341). ACK updates the home's directory, and its data where it brings some, and counts as the awaited answer;
EVICTING is counted and counts as the answer too (R341, R347). PUSH is installed in E where the agent has room and the home has the line
and no copy of it elsewhere, and is otherwise discarded and counted (R344). SNOOP_TIMEOUT of an agent still awaited, when due and no
answer of it waits in the queue in the same microsecond (R18), fails the domain with cause 3 (R350). SALVAGE_WALK_DONE in SALVAGE writes
every line back, keeps the internal lines that agents own, empties the LLC, the directory and the agents' caches, ends every read but the
scrubber's, and enters the restart. DOMAIN_UP in the restart, with the data path's flag set, takes the domain into service with its time
out, or after a second failure enters HELD (R351, R353). -/
def Obligations.CoherenceAnswersArrive : Prop :=
  (∀ (s t : State) (a ln : Nat) (st : CohSt) (d : LineBits) (p : BitVec 4), a < 27 → ln < 2 ^ 56 →
    s.take (CohMsg.isFwdData a ln) = some (.fwdData a ln st d p, t) →
    exec (.fwdData a ln) s = .next ((t.putCopy a ln (some { st := st, data := d, poison := p })).modLlc ln
      (fun l => { l with dir := dirSet l.dir a st }))) ∧
  (∀ (s t : State) (a ln : Nat) (st : CohSt) (d : Option LineBits) (p : BitVec 4), a < 27 → ln < 2 ^ 56 →
    s.mem.net.any (CohMsg.isGrant a ln) = true → s.take (CohMsg.isGrant a ln) = some (.grant a ln st d p, t) →
    exec (.grant a ln) s = .next (t.putCopy a ln (some { st := st, data := d.getD (((t.copyOf a ln).map (·.data)).getD 0), poison := p }))) ∧
  (∀ (s t : State) (a ln : Nat) (st : Option CohSt), a < 27 → ln < 2 ^ 56 →
    s.take (CohMsg.isAck a ln) = some (.ack a ln st none, t) →
    exec (.ack a ln) s = .next ((t.modLlc ln (fun l => { l with dir := match st with
      | some x => dirSet l.dir a x
      | none => l.dir.filter (fun y => y.1 != a) })).answered ln a false)) ∧
  (∀ (s t : State) (a ln : Nat) (st : Option CohSt) (d : LineBits) (p : BitVec 4), a < 27 → ln < 2 ^ 56 →
    s.take (CohMsg.isAck a ln) = some (.ack a ln st (some (d, p)), t) →
    exec (.ack a ln) s = .next (((t.modLlc ln (fun l => { l with dir := match st with
      | some x => dirSet l.dir a x
      | none => l.dir.filter (fun y => y.1 != a) })).modLlc ln (fun l => { l with
        data := d, valid := 15, dirty := 15, poison := p })).answered ln a false)) ∧
  (∀ (s t : State) (a ln : Nat) (m : CohMsg), a < 27 → ln < 2 ^ 56 →
    s.take (CohMsg.isEvicting a ln) = some (m, t) →
    exec (.evicting a ln) s = .next ((t.count (Reg.cohCount 3) 1).answered ln a true)) ∧
  (∀ (s t : State) (a ln h : Nat) (d : LineBits) (p : BitVec 4) (l : LlcLine), a < 27 → ln < 2 ^ 56 →
    s.take (CohMsg.isPush a ln) = some (.push a ln d p, t) →
    h = (t.mem.agents.filter (fun e => e.1 / 2 ^ 56 == a)).length → t.resident ln = some l →
    exec (.push a ln) s = .next (if h < agentLines a && l.dir.isEmpty
      then (t.putCopy a ln (some { st := .e, data := d, poison := p })).modLlc ln (fun l => { l with dir := dirSet l.dir a .e })
      else t.count (Reg.cohCount 5) 1)) ∧
  (∀ (s : State) (a ln : Nat) (t : CohTxn), a < 27 → ln < 2 ^ 56 → s.mem.txns.find ln = some t → t.await.contains a = true → t.due ≤ s.now →
    s.overtaken t.due (answers a ln) = false → exec (.snoopTimeout a ln) s = .next (s.domainFail 3 a)) ∧
  (∀ (s u : State), s.fld Reg.cohStatus 1 0 = 2 → u = (s.mem.llc ++ s.mem.evb).foldl (fun t e => t.salvageLine e.1 e.2) (s.wr Reg.cohSalvage 0) →
    ∃ i : Table LineBits, i = (u.mem.agents.filter (fun e => e.2.st == .m || e.2.st == .o)).foldl (fun t e => t.set (e.1 % 2 ^ 48) e.2.data 0) u.mem.intern ∧
    exec .salvageWalkDone s = .next (({ u with mem := { u.mem with
      llc := [], evb := [], agents := [], plru := [], txns := [], net := [], maint := none, conv := [], intern := i
      senses := u.mem.senses.map (fun e => (e.1, { e.2 with readers := e.2.readers.filter (· == .scrub) })) } } : State).setFld Reg.cohStatus 1 0 3)) ∧
  (∀ (s u : State), s.fld Reg.cohStatus 1 0 = 3 → s.flag Reg.glbStatus 1 = true → s.mem.domSecond = false →
    u = ((s.setFld Reg.cohStatus 1 0 0).setFld Reg.cohSalvage 63 48 ((s.now - s.mem.domFailAt) / ms 1)).raise 0x7004 s.self
      ((s.now - s.mem.domFailAt) / ms 1) →
    exec .domainUp s = .next ({ u with mem := { u.mem with domUp := some u.now } } : State).sendAnnounce) ∧
  (∀ (s : State), s.fld Reg.cohStatus 1 0 = 3 → s.flag Reg.glbStatus 1 = true → s.mem.domSecond = true →
    exec .domainUp s = .next (((({ s with power := .held } : State).setFld Reg.cohStatus 1 0 1).clrFlag Reg.glbStatus 2).raise 0xE002 s.self 2))

/-- What the mailbox queries without request data answer. IDENTITY, DEVICE_STATUS, ADMIN_KEY_LIST, CERT_GET (R451), WEAR_STATUS,
TIER_STATUS (R212), POWER_STATUS, THERMAL_STATUS, HOLDUP_STATUS (R501), FW_STATUS and SELFTEST_REPORT (R526) of a request of their class
without data complete at once with OK and their data; with data each answers LENGTH. -/
def Obligations.QueriesAnswer : Prop :=
  ∀ c ∈ [(Instr.identity, 0x0101, State.identityData), (.deviceStatus, 0x0102, State.deviceStatusData), (.adminKeyList, 0x0112, State.adminKeyData),
      (.certGet, 0x0104, fun _ => Config.identityCert), (.wearStatus, 0x0310, State.wearData), (.tierStatus, 0x0311, State.tierData),
      (.powerStatus, 0x0701, State.powerData), (.thermalStatus, 0x0710, State.thermalData), (.holdupStatus, 0x0720, State.holdupData),
      (.fwStatus, 0x0901, State.fwStatusData), (.selftestReport, 0x0A01, State.reportData)],
    ∀ (s t : State) (m : Nat) (r : Req), s.Asked m c.2.1 1 r t →
      (r.data = [] → exec (c.1 m) s = .next (t.mbxComplete m .ok (c.2.2 t))) ∧ (r.data ≠ [] → exec (c.1 m) s = .next (t.mbxComplete m .length []))

/-- KEEP_STATUS takes no data and returns KEP_STATUS, JNL_STATUS and JNL_SEQ as they read. R469: a KEEP_STATUS request of its class that
carries data is refused with LENGTH; one without answers OK with 24 bytes, the values of KEP_STATUS, JNL_STATUS and JNL_SEQ (at 0x100010),
each as the register reads at that moment, little-endian. -/
def Obligations.KeepStatusReturnsThreeRegisters : Prop :=
  ∀ (s t : State) (m : Nat) (r : Req), s.Asked m 0x0B01 1 r t →
    (r.data ≠ [] → exec (.keepStatus m) s = .next (t.mbxComplete m .length [])) ∧
    (r.data = [] → ∃ d : List Byte, d = leBytes 8 (t.view Reg.kepStatus).toNat ++ leBytes 8 (t.view Reg.jnlStatus).toNat ++
      leBytes 8 (t.view 0x100010).toNat ∧ d.length = 24 ∧ exec (.keepStatus m) s = .next (t.mbxComplete m .ok d))

/-- What the region and grant commands do. REGION_CREATE that passes its checks enters the region and its panels where the directory
places them; GRANT_SET and GRANT_DELETE that pass theirs change the grant; each is journaled first and ends with OK, at once on a device
without a standby, else once the standby has applied the change (R124, R125, R278). REGION_DELETE without a matrix over the region is
journaled, removes the region and leaves its panels CLEARING, and its response is held (R125, R174). REGION_LIST and GRANT_LIST answer
from the first ID at or after the one asked (R124). -/
def Obligations.RegionsAndGrants : Prop :=
  (∀ (s t e : State) (m : Nat) (r : Req) (x : Region) (dir : Table DirEntry), s.Asked m 0x0201 3 r t → t.KeepOpen → e = t.entered r 0x0201 [] r.data →
    r.data.length = 24 → zeroAt r.data 4 4 = true → leAt r.data 3 1 < 2 →
    x = { keyId := leAt r.data 2 1, mirrored := leAt r.data 3 1 == 1, base := leAt r.data 8 8, size := leAt r.data 16 8 } →
    x.base % 2 ^ 30 = 0 → x.size ≠ 0 → x.size % 2 ^ 30 = 0 → 1 ≤ leAt r.data 0 2 → leAt r.data 0 2 ≤ 4095 →
    t.mem.regions.has (leAt r.data 0 2) = false → x.base + x.size ≤ 2 ^ 56 →
    t.mem.regions.any (fun e => decide (e.2.base < x.base + x.size) && decide (x.base < e.2.base + e.2.size)) = false → x.keyId ≠ 255 →
    t.placeRegion (leAt r.data 0 2) x.keyId x.mirrored x.base x.size = some dir →
    e.placeRegion (leAt r.data 0 2) x.keyId x.mirrored x.base x.size = some dir →
    exec (.regionCreate m) s = .next (e.changed m (.region (leAt r.data 0 2) (some x) :: dirChanges e.mem.dir dir))) ∧
  (∀ (s t e : State) (m : Nat) (r : Req) (x : Region), s.Asked m 0x0202 3 r t → t.KeepOpen → lengthZero 8 2 6 r = none →
    t.mem.regions.find (leAt r.data 0 2) = some x →
    t.filet.matrices.any (fun e => decide (x.base ≤ e.2.source % 2 ^ 56) && decide (e.2.source % 2 ^ 56 < x.base + x.size)) = false →
    e = t.entered r 0x0202 (t.regionEntry (leAt r.data 0 2) x) r.data →
    exec (.regionDelete m) s = .next ((e.change (((e.mem.dir.filter (fun e => e.2.region == leAt r.data 0 2)).map (fun e => TableChange.dir e.1 (some { e.2 with st := 4 }))) ++
      [.region (leAt r.data 0 2) none]) (.mailbox m)).running m [])) ∧
  (∀ (s t : State) (m : Nat) (r : Req) (l : List (Nat × Region)), s.Asked m 0x0203 1 r t → lengthZero 4 2 2 r = none →
    l = t.mem.regions.filter (fun e => decide (leAt r.data 0 2 ≤ e.1)) →
    exec (.regionList m) s = .next (t.mbxComplete m .ok (leBytes 2 (l.take 170).length ++
      leBytes 2 (match l.drop 170 with | [] => 0 | e :: _ => e.1) ++ zeros 4 ++ (l.take 170).flatMap (fun e => t.regionEntry e.1 e.2)))) ∧
  (∀ (s t e : State) (m : Nat) (r : Req), s.Asked m 0x0210 3 r t → t.KeepOpen → t.grantCheck r = none →
    e = t.entered r 0x0210 (match t.mem.grants.find (leAt r.data 0 2) with | some g => grantBody (leAt r.data 0 2) g | none => []) r.data →
    exec (.grantSet m) s = .next (e.changed m [.grant (leAt r.data 0 2) (some (grantOf r.data))])) ∧
  (∀ (s t e : State) (m : Nat) (r : Req) (g : Grant), s.Asked m 0x0211 3 r t → t.KeepOpen → lengthZero 8 2 6 r = none →
    t.mem.grants.find (leAt r.data 0 2) = some g → e = t.entered r 0x0211 (grantBody (leAt r.data 0 2) g) r.data →
    exec (.grantDelete m) s = .next (e.changed m [.grant (leAt r.data 0 2) none])) ∧
  (∀ (s t : State) (m k : Nat) (r : Req) (g : Grant), s.Asked m 0x0212 2 r t → lengthZero 4 2 2 r = none →
    t.mem.grants.nextKey (leAt r.data 0 2) = some k → t.mem.grants.find k = some g →
    exec (.grantList m) s = .next (t.mbxComplete m .ok (leBytes 2 ((t.mem.grants.nextKey (k + 1)).getD 0) ++ zeros 6 ++ grantBody k g)))

/-- What HINT_SET, HINT_GET and SWATCH_RETIRE do. HINT_SET that passes its checks sets the hint of its swatches here and tells every other
device; HINT_GET that passes its checks answers the hints of its range (R213). SWATCH_RETIRE of a swatch that is neither RETIRED nor the
destination of a move is journaled, starts the retirement for cause 3 and holds its response (R213). -/
def Obligations.HintsAndRetirement : Prop :=
  (∀ (s t : State) (m : Nat) (r : Req), s.Asked m 0x0301 2 r t → lengthZero 24 17 7 r = none →
    t.hintCheck r (leAt r.data 0 8) (leAt r.data 8 8) (leAt r.data 8 8 % 131072 == 0 && leAt r.data 8 8 != 0) true (leAt r.data 16 1 ≤ 4) = none →
    exec (.hintSet m) s = .next (((t.setHints (leAt r.data 0 8) (leAt r.data 8 8) (leAt r.data 16 1)).sendAll
      (.hint (leAt r.data 0 8) (leAt r.data 8 8) (leAt r.data 16 1))).mbxComplete m .ok [])) ∧
  (∀ (s t : State) (m : Nat) (r : Req), s.Asked m 0x0302 1 r t → lengthZero 16 10 6 r = none →
    t.hintCheck r (leAt r.data 0 8) (131072 * leAt r.data 8 2) true (1 ≤ leAt r.data 8 2 && leAt r.data 8 2 ≤ 4000) true = none →
    exec (.hintGet m) s = .next (t.mbxComplete m .ok ((List.range (leAt r.data 8 2)).map
      (fun i => BitVec.ofNat 8 (t.hintAt (leAt r.data 0 8 + 131072 * i)))))) ∧
  (∀ (s t : State) (m : Nat) (r : Req), s.Asked m 0x0320 3 r t → t.KeepOpen → lengthZero 8 4 4 r = none → leAt r.data 0 4 ≤ 33554431 →
    (t.ldg (leAt r.data 0 4)).st ≠ .retired → (t.ldg (leAt r.data 0 4)).st ≠ .moveDst →
    exec (.swatchRetire m) s = .next (((t.entered r 0x0320 [] r.data).retireSwatch (leAt r.data 0 4) 3).running m []))

/-- What the matrix and tile commands do. Each that passes its checks: MATRIX_LOAD is journaled, takes a free MATRIX_ID, changes the
tables of the hoop, starts the load here where the device holds columns of it, and holds its response (R251). MATRIX_UNLOAD is journaled,
marks the matrix UNLOADING, ends it where nothing uses it, and holds its response (R126). MATRIX_REFRESH tells the other devices that hold
columns, starts the programs of the groups here, and holds its response (R232). MATRIX_STATUS answers 56 bytes that begin with the
request, size, state and tiles of the matrix; MATRIX_LIST up to 500 IDs from the one asked and the next; FILET_STATUS the counts of free,
used and failed tiles and of jobs (R250). TILE_RETURN of a FAILED tile is journaled and makes it REJOINING with two proofs to give (R235). -/
def Obligations.FiletCommands : Prop :=
  (∀ (s t e : State) (m k : Nat) (r : Req) (x : Matrix), s.Asked m 0x0401 2 r t → t.KeepOpen → t.loadCheck r = none →
    e = { t.entered r 0x0401 [] r.data with free := (t.entered r 0x0401 [] r.data).free + 1 } →
    ((List.range 1023).map (fun i => ((Config.free64 (t.entered r 0x0401 [] r.data).free).toNat + i) % 1023 + 1)).find?
      (fun k => !e.filet.matrices.has k) = some k →
    x = { matrixOf r.data with
      hoopTiles := ((e.matrixDevs (matrixOf r.data)).map (e.matrixTiles (matrixOf r.data))).foldl (· + ·) 0
      waits := e.matrixDevs (matrixOf r.data)
      mailbox := some m } →
    ∃ u : State, u = ({ e with filet := { e.filet with matrices := e.filet.matrices.put k x } } : State).change [.matrix k (some r.data)] .none ∧
      exec (.matrixLoad m) s = .next ((if (e.matrixDevs (matrixOf r.data)).contains u.self then u.startLoad k else u).running m
        (leBytes 2 k ++ zeros 2 ++ leBytes 4 x.hoopTiles))) ∧
  (∀ (s t e : State) (m : Nat) (r : Req) (x : Matrix), s.Asked m 0x0402 2 r t → t.KeepOpen → t.matrixCheck r = none →
    t.filet.matrices.find (leAt r.data 0 2) = some x → e = t.entered r 0x0402 x.request r.data →
    exec (.matrixUnload m) s = .next (((e.modMatrix (leAt r.data 0 2) (fun x => { x with st := 2, waits := [], mailbox := some m })).unloadDone
      (leAt r.data 0 2)).running m [])) ∧
  (∀ (s t u : State) (m k : Nat) (r : Req) (x : Matrix), s.Asked m 0x0403 2 r t → t.matrixCheck r = none → k = leAt r.data 0 2 →
    t.filet.matrices.find k = some x → u = ((t.modMatrix k (fun y => { y with waits := t.matrixDevs x, mailbox := some m }))) →
    ∃ v w : State, v = ((t.matrixDevs x).filter (· != t.self)).foldl (fun a d => a.sendControl d (.refresh k)) u ∧
      w = v.refreshMatrix k x ∧
      exec (.matrixRefresh m) s = .next ((if w.progsDone k then w.matrixDone k w.self .ok else w).running m [])) ∧
  (∀ (s t : State) (m : Nat) (r : Req) (x : Matrix), s.Asked m 0x0404 1 r t → t.matrixCheck r = none →
    t.filet.matrices.find (leAt r.data 0 2) = some x → ∃ d : List Byte, d.length = 28 ∧ exec (.matrixStatus m) s = .next (t.mbxComplete m .ok
      (x.request.take 8 ++ leBytes 4 x.cols ++ leBytes 2 x.dim ++ [BitVec.ofNat 8 x.wide.toNat, BitVec.ofNat 8 x.st] ++ leBytes 4 x.hoopTiles ++ d))) ∧
  (∀ (s t : State) (m : Nat) (r : Req) (l : List Nat), s.Asked m 0x0405 1 r t → lengthZero 8 2 6 r = none →
    l = t.filet.matrices.keys.filter (fun k => decide (leAt r.data 0 2 ≤ k)) →
    exec (.matrixList m) s = .next (t.mbxComplete m .ok (leBytes 2 (l.take 500).length ++ leBytes 2 ((l.drop 500).headD 0) ++ zeros 4 ++
      (l.take 500).flatMap (fun k => leBytes 2 k ++ zeros 6)))) ∧
  (∀ (s t : State) (m : Nat) (r : Req), s.Asked m 0x0410 1 r t → r.data = [] →
    exec (.filetStatus m) s = .next (t.mbxComplete m .ok (leBytes 4 (144 * 8192 - t.filet.tiles.length) ++ leBytes 4 t.tilesUsed ++
      leBytes 4 t.tilesFailed ++ leBytes 4 t.filet.jobs.length ++ zeros 16))) ∧
  (∀ (s t e : State) (m : Nat) (r : Req), s.Asked m 0x0411 3 r t → t.KeepOpen → lengthZero 8 4 4 r = none → (t.tile (leAt r.data 0 4)).st = .failed →
    e = t.entered r 0x0411 [] r.data →
    exec (.tileReturn m) s = .next ((e.putTile (leAt r.data 0 4) { e.tile (leAt r.data 0 4) with st := .rejoining, proofs := 2, badRuns := 0 }).mbxComplete
      m .ok []))

/-- What nonces, locks, admin keys and the console do. NONCE_GET answers a free 32-byte value, and holds it for 60 s (R449).
PROVISION_LOCK with an admin key ends the factory state and clears SEC_JTAG's state; ADMIN_KEY_SET sets a key, or deletes one that is not
the last one set (R450); both are journaled. CONSOLE_UNLOCK, journaled, opens the console for 1,800 s, a line renews it, CONSOLE_LOCK,
journaled, closes it, and so does the timeout where no line waits in the queue in the same microsecond (R445, R18). OPERATING_TIME_SLOT at
a 6-minute point not kept yet keeps the operating time (R457). -/
def Obligations.AdminAndConsoleCommands : Prop :=
  (∀ (s t u : State) (m : Nat) (r : Req), s.Asked m 0x0103 1 r t → r.data = [] → u = t.draw256.2 →
    exec (.nonceGet m) s = .next ((u.putBox m { u.box m with nonce := some (beBytes 32 t.draw256.1.toNat, u.now + sec 60) }).mbxComplete m .ok
      (beBytes 32 t.draw256.1.toNat))) ∧
  (∀ (s t e : State) (m : Nat) (r : Req), s.Asked m 0x0110 3 r t → t.KeepOpen → t.kept.wp = false → r.data = [] → t.kept.adminKeys ≠ [] → e = t.entered r 0x0110 [] [] →
    exec (.provisionLock m) s = .next (((({ e with kept := { e.kept with factory := false } } : State).clrFlag Reg.kepStatus 1).setFld
      Reg.secJtag 1 0 0).mbxComplete m .ok [])) ∧
  (∀ (s t e : State) (m i : Nat) (r : Req), s.Asked m 0x0111 3 r t → t.KeepOpen → t.kept.wp = false → lengthZero 104 2 6 r = none → i = leAt r.data 0 1 → i < 8 →
    e = t.entered r 0x0111 ((t.kept.adminKeys.find i).getD []) r.data →
    (leAt r.data 1 1 = 0 → exec (.adminKeySet m) s = .next (({ e with kept := { e.kept with
      adminKeys := e.kept.adminKeys.put i (slice r.data 8 96) } } : State).mbxComplete m .ok [])) ∧
    (leAt r.data 1 1 = 1 → ¬ (t.kept.adminKeys.has i = true ∧ t.kept.adminKeys.length = 1) → exec (.adminKeySet m) s = .next (({ e with kept := { e.kept with
      adminKeys := e.kept.adminKeys.drop i } } : State).mbxComplete m .ok []))) ∧
  (∀ (s t e : State) (m : Nat) (r : Req), s.Asked m 0x0113 3 r t → t.KeepOpen → r.data = [] → e = t.entered r 0x0113 [] [] →
    exec (.consoleUnlock m) s = .next (({ e with mbx := { e.mbx with console := some (e.now + sec 1800) } } : State).mbxComplete m .ok [])) ∧
  (∀ (s t e : State) (m : Nat) (r : Req), s.Asked m 0x0114 2 r t → t.kept.closed = false → r.data = [] →
    e = t.jAlways (t.jEntry r.author true 0x0114 .ok [] []) →
    exec (.consoleLock m) s = .next (({ e with mbx := { e.mbx with console := none } } : State).mbxComplete m .ok [])) ∧
  (∀ (s : State) (d : Nat) (l : List Byte), s.mbx.console = some d → s.now < d →
    exec (.consoleLine l) s = .next { s with mbx := { s.mbx with console := some (s.now + sec 1800), lines := s.mbx.lines ++ [l] } }) ∧
  (∀ (s : State) (d : Nat), s.mbx.console = some d → d ≤ s.now →
    s.overtaken d consoleSpeaks = false → exec .consoleTimeout s = .next { s with mbx := { s.mbx with console := none } }) ∧
  (∀ s : State, s.fld Reg.kepTime 35 24 % 360 = 0 → s.opSeconds ≠ s.kept.timeSlot → s.kept.closed = false →
    exec .operatingTimeSlot s = .next (({ s with kept := { s.kept with timeSlot := s.opSeconds } } : State).count (Reg.kepCount 0) 1))

/-- What the sampler, journal, counter and wear-list commands do. Each of the right form: KEEP_WEAR_LIST answers up to 500 keep registers
with their write counts (R465). SAMPLER_READ answers up to N of the records that match (R544); SAMPLER_CLEAR is journaled, sets CLEARING,
drops what waits in the records and holds its response (R537). JOURNAL_READ answers up to N entries from a SEQ on that was given (R545);
JOURNAL_ARCHIVE with the right hash drops the entries up to its SEQ, raises its event and is itself journaled (R467). COUNTER_READ of KIND
0 answers counters within the window of its grant, of KIND 1 the oldest samples, for class OPERATOR or more (R545); SAMPLING_SET writes
its four registers and answers the status of that, N of 0 in MODE 0 leaving the interval (R545). -/
def Obligations.SamplerJournalAndCounterCommands : Prop :=
  (∀ (s t : State) (m k : Nat) (r : Req), s.Asked m 0x0B02 1 r t → lengthZero 8 2 6 r = none → k = leAt r.data 0 2 →
    exec (.keepWearList m) s = .next (t.mbxComplete m .ok (leBytes 2 ((keepRegs.drop k).take 500).length ++
      leBytes 2 (if k + 500 < keepRegs.length then k + 500 else 0) ++ zeros 4 ++
      ((keepRegs.drop k).take 500).flatMap (fun o => leBytes 4 o ++ leBytes 4 (t.kept.counts.get o 0))))) ∧
  (∀ (s t : State) (m n : Nat) (r : Req) (l : List Nat), s.Asked m 0x0801 1 r t → r.data.length = 8 → n = leAt r.data 2 2 → 1 ≤ n → n ≤ 511 →
    l = t.matchSlots (leAt r.data 0 2) (leAt r.data 4 2) (leAt r.data 6 2) →
    exec (.samplerRead m) s = .next (t.mbxComplete m .ok (leBytes 2 (l.take n).length ++ leBytes 2 ((l.drop n).headD 0xFFFF) ++ zeros 4 ++
      (l.take n).flatMap t.slotBytes))) ∧
  (∀ (s t e u : State) (m : Nat) (r : Req), s.Asked m 0x0802 3 r t → t.KeepOpen → r.data = [] → e = t.entered r 0x0802 [] [] →
    u = (e.draw.2.setFlag Reg.smpStatus 13).putBox m { e.draw.2.box m with keyIndex := some (r.key.getD (e.draw.1.toNat % 65536)) } →
    exec (.samplerClear m) s = .next (({ u with kept := { u.kept with
      slots := u.kept.slots.map (fun x => (x.1, { x.2 with work := x.2.keep, waiting := 0 })) } } : State).running m
        (leBytes 2 e.kept.slots.length ++ zeros 6))) ∧
  (∀ (s t : State) (m : Nat) (r : Req) (l : List JEntry), s.Asked m 0x0810 1 r t → lengthZero 8 6 2 r = none → 1 ≤ leAt r.data 4 2 →
    leAt r.data 4 2 ≤ 1023 → leAt r.data 0 4 ≠ t.nextSeq32 → seqAfter (leAt r.data 0 4) t.nextSeq32 = false →
    l = (t.kept.journal.filter (fun e => e.seq == leAt r.data 0 4 || seqAfter e.seq (leAt r.data 0 4))).take (leAt r.data 4 2) →
    exec (.journalRead m) s = .next (t.mbxComplete m .ok (leBytes 2 l.length ++ zeros 2 ++ leBytes 4 t.nextSeq32 ++ l.flatMap JEntry.bytes))) ∧
  (∀ (s t u v : State) (m : Nat) (r : Req) (l : List JEntry), s.Asked m 0x0811 3 r t → lengthZero 56 4 4 r = none → t.heldUpTo (leAt r.data 0 4) = some l →
    Config.sha384 (l.flatMap JEntry.bytes) = r.data.drop 8 → t.kept.closed = false →
    u = { t with kept := { t.kept with journal := t.kept.journal.drop l.length } } →
    v = ((u.setFld Reg.jnlArchived 31 0 (leAt r.data 0 4)).count (Reg.jnlCount 4) 1).raise 0xB005 u.self l.length →
    exec (.journalArchive m) s = .next ((v.jAlways (v.jEntry r.author true 0x0811 .ok [] r.data)).mbxComplete m .ok (leBytes 4 l.length ++ zeros 4))) ∧
  (∀ (s t : State) (m i n : Nat) (r : Req), s.Asked m 0x0820 1 r t → r.data.length = 8 → zeroAt r.data 1 1 = true → zeroAt r.data 6 2 = true →
    leAt r.data 0 1 = 0 → i = leAt r.data 2 2 → n = leAt r.data 4 2 → 1 ≤ n → i + n ≤ 512 → t.inWindow r.owner i n = true →
    exec (.counterRead m) s = .next (t.mbxComplete m .ok ((List.range n).flatMap (fun k => t.counterBytes (i + k))))) ∧
  (∀ (s t : State) (m n : Nat) (r : Req), s.Asked m 0x0820 1 r t → r.data.length = 8 → zeroAt r.data 1 1 = true → zeroAt r.data 6 2 = true →
    leAt r.data 0 1 = 1 → n = leAt r.data 4 2 → 1 ≤ n → n ≤ 1170 → 2 ≤ r.cls →
    exec (.counterRead m) s = .next ((t.popSamples n).2.mbxComplete m .ok (leBytes 2 (t.popSamples n).1.length ++ zeros 6 ++ (t.popSamples n).1.flatten))) ∧
  (∀ (s t : State) (m n : Nat) (r : Req), s.Asked m 0x0821 2 r t → r.data.length = 32 → zeroAt r.data 1 1 = true → zeroAt r.data 28 4 = true →
    leAt r.data 0 1 < 2 → leAt r.data 0 1 = 0 ∨ leAt r.data 2 2 ≠ 0 →
    n = (if leAt r.data 2 2 = 0 then t.fld Reg.pmcSampleCfg 31 16 else leAt r.data 2 2) →
    ∃ w : Status × State, w = t.writeWords r.author [(Reg.pmcSampleAddr, word (leAt r.data 8 8)), (Reg.pmcSampleSize, word (leAt r.data 16 8)),
      (Reg.pmcSampleMin, word (leAt r.data 24 4)),
      (Reg.pmcSampleCfg, word (leAt r.data 0 1 + 2 ^ 16 * n + 2 ^ 32 * leAt r.data 4 2 + 2 ^ 48 * leAt r.data 6 2))] ∧
    exec (.samplingSet m) s = .next (w.2.mbxComplete m w.1 []))

/-- What each of the eight types of lace frame does when it arrives. A lace frame that arrives on a trained link, passes the checks of
R261 and is for this device is taken from its link and route and then acts by its type (Table 08-3): HEARTBEAT tells the peer, its role
and hoop time (R262, R293); FORWARD brings a stitch once all its segments have come, or commits or aborts a prepared one (R271, R274);
COMPLETE answers the part or filet sub-job that its OPREF names; ROUTE_ACK carries only its header; DISCOVER is answered by a worker with
ANNOUNCE and passed on (R266); ANNOUNCE is heard by the manager, and passed toward it by another device that has no link to the manager
itself; CONTROL and RESYNC do what their body says (R268, R290). A FORWARD, COMPLETE, ROUTE_ACK, CONTROL or RESYNC frame for another
device is passed on (R265). A frame on a link that is not trained is not received, and one that fails a check of its link's frame is
counted and dropped with the cause. None stops. -/
def Obligations.LaceFramesAct : Prop :=
  (∀ (s t : State) (n : Nat) (f : LaceIn) (h : LaceHdr), s.LaceArrives n 0 f h t → exec (.heartbeat n f) s = .next (t.heartbeat n h f.bytes)) ∧
  (∀ (s t u : State) (n o c : Nat) (f : LaceIn) (h : LaceHdr) (x y : Stitch), s.LaceArrives n 1 f h t → laceStitch (f.bytes.take (32 + h.plen)) = some (o, c, x) →
    ((h.commit || h.abort) = true → exec (.forward n f) s = .next (t.commitOp h o)) ∧
    ((h.commit || h.abort) = false → t.laceSegment h.src 1 o x = (some y, u) → exec (.forward n f) s = .next (u.forwarded h o c y)) ∧
    ((h.commit || h.abort) = false → t.laceSegment h.src 1 o x = (none, u) → exec (.forward n f) s = .next u)) ∧
  (∀ (s t u : State) (n o c i k : Nat) (f : LaceIn) (h : LaceHdr) (x y : Stitch), s.LaceArrives n 2 f h t →
    laceStitch (f.bytes.take (32 + h.plen)) = some (o, c, x) →
    (t.laceSegment h.src 2 o x = (none, u) → exec (.complete n f) s = .next u) ∧
    (t.laceSegment h.src 2 o x = (some y, u) → u.lace.refs.find o = none → exec (.complete n f) s = .next u) ∧
    (t.laceSegment h.src 2 o x = (some y, u) → u.lace.refs.find o = some (i, k) → i < 2 ^ 64 →
      exec (.complete n f) s = .next (u.partDone i k (responseOf y))) ∧
    (t.laceSegment h.src 2 o x = (some y, u) → u.lace.refs.find o = some (i, k) → 2 ^ 64 ≤ i →
      exec (.complete n f) s = .next (u.subDone (i - 2 ^ 64) k (responseOf y)))) ∧
  (∀ (s t : State) (n : Nat) (f : LaceIn) (h : LaceHdr), s.LaceArrives n 3 f h t → exec (.routeAck n f) s = .next t) ∧
  (∀ (s t u : State) (n : Nat) (f : LaceIn) (h : LaceHdr), s.LaceArrives n 4 f h t →
    (t.isManager = true → exec (.discover n f) s = .next t) ∧
    (t.isManager = false → u = t.sendOn n { src := t.self, dst := h.src, body := .announce t.announcement } →
      exec (.discover n f) s = .next ((u.upLinks.filter (fun k => k != n && decide (2 ≤ (u.link k).peerDev) && !(u.link k).mgrLink)).foldl
        (fun v k => v.sendOn k { src := h.src, dst := (v.link k).peerDev, body := .discover }) u))) ∧
  (∀ (s t v : State) (n : Nat) (f : LaceIn) (h : LaceHdr) (a : Announce), s.LaceArrives n 5 f h t →
    (t.isManager = true → exec (.announce n f a) s = .next (t.heard h.hoopId a)) ∧
    (t.isManager = false → v = (if t.actingRole = 1 then
        { t with lace := { t.lace with members := t.lace.members.modify a.dev (fun m => { m with said := some a }) } } else t) →
      ((v.link n).mgrLink = true ∨ (v.link n).peerDev = v.lace.mgr → exec (.announce n f a) s = .next v) ∧
      ((v.link n).mgrLink = false → (v.link n).peerDev ≠ v.lace.mgr →
        (v.nextHop v.lace.mgr = none → exec (.announce n f a) s = .next v) ∧
        (∀ k : Nat, v.nextHop v.lace.mgr = some k → exec (.announce n f a) s =
          .next (v.sendOn k { src := h.src, dst := v.lace.mgr, carried := some (h.epoch, 0, 0), body := .announce a }))))) ∧
  (∀ (s t : State) (n : Nat) (f : LaceIn) (h : LaceHdr) (c : Control), s.LaceArrives n 6 f h t → exec (.control n f c) s = .next (t.control h.src c)) ∧
  (∀ (s t : State) (n : Nat) (f : LaceIn) (h : LaceHdr) (r : ResyncLine), s.LaceArrives n 7 f h t → exec (.resync n f r) s = .next (t.resyncLine r)) ∧
  (∀ (s t : State) (n o k : Nat) (f : LaceIn) (h : LaceHdr) (x : Stitch), laceStitch (f.bytes.take (32 + h.plen)) = some (o, k, x) →
    (s.LacePasses n 1 f h t → exec (.forward n f) s = .next (t.relay h (.forward o k x))) ∧
    (s.LacePasses n 2 f h t → exec (.complete n f) s = .next (t.relay h (.complete o k x)))) ∧
  (∀ (s t : State) (n : Nat) (f : LaceIn) (h : LaceHdr) (c : Control) (r : ResyncLine),
    (s.LacePasses n 3 f h t → exec (.routeAck n f) s = .next (t.relay h .routeAck)) ∧
    (s.LacePasses n 6 f h t → exec (.control n f c) s = .next (t.relay h (.control c))) ∧
    (s.LacePasses n 7 f h t → exec (.resync n f r) s = .next (t.relay h (.resync r)))) ∧
  (∀ (s : State) (n k : Nat) (f : LaceIn) (a : Announce) (c : Control) (r : ResyncLine), n < 16 →
    ∀ i ∈ [Instr.heartbeat n f, .forward n f, .complete n f, .routeAck n f, .discover n f, .announce n f a, .control n f c, .resync n f r],
      ((s.link n).st = .down ∨ (s.link n).st = .training → exec i s = .next s) ∧
      ((s.link n).st ≠ .down → (s.link n).st ≠ .training → (s.laceHeard n f).laceCause n f = k → 0 < k → k < 0xB →
        exec i s = .next (((s.laceHeard n f).count (Reg.lceCount n 0) 1).laceDrop n k)))

/-- What the timers of lace links, routes, discovery, handover and schedules do. A heartbeat is due every 2 µs on a link in use (R262),
but on a manager whose coherence stands still; 6 µs without one, none waiting behind the expiry in the same microsecond (R18), or the loss
of the PHY, fails the link (R262); a trained link enters PROBATION, and 1 ms of heartbeats makes it UP, or IDLE with event 0x500A where
Table 08-5 has no such link (R263). A due ROUTE_ACK goes out (R270). RESYNC_SEND ends a resync whose chunks are all copied, and else sends
the next line once it is resident and counts it (R290). DISCOVER_WAIT's end fixes the hoop and the manager accepts connections (R266). The
end of the handover grace, with no stitch under way, resets the connections with ADMIN and passes the role (R287). A schedule whose time
has come, with no cancel waiting in that microsecond, is DONE (R294); a device it names that is in the hoop runs its action, and where it
ran says so with event 0x500B and RAN. -/
def Obligations.LaceAndHoopTimersAct : Prop :=
  (∀ (s : State) (n : Nat) (l : LaceLink), n < 16 → l = s.link n → l.st = .up ∨ l.st = .probation ∨ l.st = .idle → l.sendDue ≤ s.now →
    (s.isManager && s.fld Reg.cohStatus 1 0 != 0) = false →
    exec (.heartbeatSend n) s = .next ((s.putLink n { l with sendDue := s.now + us 2 }).emitLace n l.txSeq {
      src := s.self, dst := l.peerDev
      body := .heartbeat (s.rd Reg.hopTime).toNat l.echo (s.now - l.echoAt) s.actingRole
        (s.mgrLink.toNat + (if s.power = .save ∨ s.power = .down then 2 else 0)) })) ∧
  (∀ (s : State) (n d v : Nat), n < 16 → (s.link n).failDue = some d → d ≤ s.now → s.overtaken d (beatOn n) = false → (s.link n).st ≠ .down → (s.link n).st ≠ .training →
    v = min 15 (s.fld (Reg.lceLinkStatus n) 7 4 + 3) →
    exec (.heartbeatTimeout n) s = .next (((s.setFld (Reg.lceLinkStatus n) 7 4 v).count (Reg.lceCount n 2) 3).linkFail n 1)) ∧
  (∀ (s : State) (n : Nat), n < 16 → exec (.laceLinkLoss n) s = .next (s.linkFail n 2)) ∧
  (∀ (s : State) (n : Nat), n < 16 → (s.link n).st = .training →
    exec (.laceLinkTrained n) s = .next (s.putLink n { s.link n with
      st := .probation, probation := s.now, lastBeat := s.now, failDue := none, credit := 256 * Config.laceBuffer.toNat })) ∧
  (∀ (s : State) (n : Nat) (l : LaceLink), n < 16 → l = s.link n → l.st = .probation → l.probation + ms 1 ≤ s.now → s.now ≤ l.lastBeat + us 4 → l.failDue ≠ none →
    (s.linkUse n = some false → exec (.probationEnd n) s = .next ((s.putLink n { l with st := .idle }).raise 0x500A n 0)) ∧
    (s.linkUse n = some true → exec (.probationEnd n) s = .next ((s.putLink n { l with st := .up }).linkBack s n)) ∧
    (s.linkUse n = none → exec (.probationEnd n) s = .next s)) ∧
  (∀ (s : State) (k d : Nat), k < 64 → (s.route k).ackDue = some d → d ≤ s.now →
    exec (.routeAckSend k) s = .next ((s.putRoute k { s.route k with ackDue := none }).sendPath { src := s.self, dst := k, body := .routeAck })) ∧
  (∀ (s : State) (p : Nat) (r : ResyncOut), s.lace.resyncs.find? (fun x => x.panel == p) = some r → r.chunks = [] →
    exec (.resyncSend p) s = .next (({ s with lace := { s.lace with resyncs := s.lace.resyncs.filter (fun x => x.panel != p) } } : State).sendControl r.target
      (.copied r.target p r.copied))) ∧
  (∀ (s : State) (p c line key : Nat) (cs : List Nat) (r : ResyncOut), s.lace.resyncs.find? (fun x => x.panel == p) = some r → r.chunks = c :: cs →
    line = c * 4096 + r.line → key = ((s.mem.dir.find p).map (·.keyId)).getD 0 →
    (∀ l : LlcLine, s.resident (panelLine p line key) = some l → exec (.resyncSend p) s = .next (((s.sendRoute {
      src := s.self, dst := r.target
      body := .resync { panel := p, line := line, keyId := key, data := l.data, poison := l.poison, cause := l.cause } }).count (Reg.hopCount 7) 1).putResync r.next)) ∧
    (s.resident (panelLine p line key) = none →
      (s.filling (panelLine p line key) = true → exec (.resyncSend p) s = .next s) ∧
      (s.filling (panelLine p line key) = false → ∀ t : State,
        (s.startFill (panelLine p line key) .maint = (.ready, t) ∨ s.startFill (panelLine p line key) .maint = (.pending, t) →
          exec (.resyncSend p) s = .next t) ∧
        (∀ x : Status, s.startFill (panelLine p line key) .maint = (.fails x, t) → exec (.resyncSend p) s = .next (t.fillBad (panelLine p line key) x 0))))) ∧
  (∀ (s : State) (d : Nat), s.lace.discover = some d → d ≤ s.now → s.isManager = true →
    (s.lace.members = [] → exec .discoverWaitExpire s =
      .next ((({ s with lace := { s.lace with discover := none } } : State).bumpEpoch).setFlag Reg.shtStatus 15)) ∧
    (s.lace.members ≠ [] → exec .discoverWaitExpire s = .next (s.fixHoop.setFlag Reg.shtStatus 15))) ∧
  (∀ (s t : State) (h : Handover), s.lace.handover = some h → h.due ≤ s.now → s.connOps = false →
    t = (s.resetAll 0x09).sendControl (if s.self = 0 then 1 else 0) .role →
    exec .handoverGraceExpire s = .next (((({ t with lace := { t.lace with
      handover := none, mgr := if s.self = 0 then 1 else 0, standbyCurrent := false } } : State).setFld Reg.hopStatus 3 2 1).setFlag Reg.hopStatus 11).lockDirectory)) ∧
  (∀ (s t : State) (i : Nat) (x : Sched), s.lace.scheds.find i = some x → x.st = 0 → x.at' ≤ (s.rd Reg.hopTime).toNat → s.cancelWaits i x = false →
    t = { s with lace := { s.lace with scheds := s.lace.scheds.put i { x with st := 1 } } } →
    (t.namedBy x = false ∨ t.inHoop = false → exec (.scheduleRun i) s = .next t) ∧
    (t.namedBy x = true → t.inHoop = true → ∀ u : State,
      (t.runAction x.action = (false, u) → exec (.scheduleRun i) s = .next u) ∧
      (∀ v : State, t.runAction x.action = (true, u) → v = u.raise 0x500B u.self x.action → exec (.scheduleRun i) s = .next
        (State.report { v with lace := { v.lace with scheds := v.lace.scheds.modify i (fun y => { y with ran := Nat.lor y.ran (2 ^ v.self) }) } } (.ran v.self i)))))

/-- What the hoop, member, panel, handover and schedule commands do. HOOP_STATUS, MEMBER_LIST, PANEL_MAP and SCHEDULE_STATUS answer from
the tables (R295, R296). HOOP_FORM on a manager without members takes this device and those that answered discovery as members, tells them
the HOOP_ID, and starts hoop time at 0 (R267); MEMBER_ADMIT makes a STRANGER the member of its number, told of the hoop where it is
present at once, else with a new epoch; MEMBER_REMOVE begins to move its panels and holds its response (R279); PANEL_RELEASE makes a LOST
panel NORMAL (R288), and ends at once without a standby, else once the standby has applied it (R278). HANDOVER begins with the grace and
holds its response (R287). SCHEDULE arms an action on every member and answers its ID; SCHEDULE_CANCEL cancels it if armed (R294). Each
change is journaled first. -/
def Obligations.HoopCommandsAct : Prop :=
  (∀ (s t : State) (m : Nat) (r : Req), s.Asked m 0x0501 1 r t → r.data = [] →
    exec (.hoopStatus m) s = .next (t.mbxComplete m .ok (leBytes 2 t.hoopId ++ [BitVec.ofNat 8 t.lace.mgr, BitVec.ofNat 8 t.lace.members.length,
      BitVec.ofNat 8 t.absentCount, BitVec.ofNat 8 (t.redundant.toNat + 2 * (t.fld Reg.hopStatus 12 12) + 4 * t.lace.standbyCurrent.toNat), 0, 0] ++
      leBytes 4 t.hoopEpoch ++ zeros 4 ++ leBytes 8 (t.rd Reg.hopTime).toNat))) ∧
  (∀ (s t : State) (m : Nat) (r : Req), s.Asked m 0x0502 1 r t → r.data = [] →
    exec (.memberList m) s = .next (t.mbxComplete m .ok ((List.range 64).flatMap (fun d => leBytes 8 (t.memberSerial d) ++ [BitVec.ofNat 8 (t.memberState d),
      BitVec.ofNat 8 (t.memberRole d), BitVec.ofNat 8 (t.parentsOf d).1, BitVec.ofNat 8 (t.parentsOf d).2] ++
      leBytes 2 (usedPanels t.mem.dir d).length ++ zeros 2)))) ∧
  (∀ (s t : State) (m k : Nat) (r : Req) (l : Table DirEntry), s.Asked m 0x0503 2 r t → lengthZero 8 2 2 r = none → t.mem.regions.has (leAt r.data 0 2) = true →
    k = leAt r.data 4 4 → l = (t.mem.dir.filter (fun e => e.2.region == leAt r.data 0 2)).drop k →
    exec (.panelMap m) s = .next (t.mbxComplete m .ok (leBytes 2 (l.take 500).length ++ zeros 2 ++ leBytes 4 (if l.length ≤ 500 then 0 else k + 500) ++
      (l.take 500).flatMap (fun e => [BitVec.ofNat 8 e.2.devA, BitVec.ofNat 8 e.2.devB, BitVec.ofNat 8 e.2.st, BitVec.ofNat 8 e.2.copyA,
        BitVec.ofNat 8 e.2.copyB, 0, 0, 0])))) ∧
  (∀ (s t e u v : State) (m i : Nat) (r : Req) (own : Member) (list : Table Member), s.Asked m 0x0510 3 r t → t.KeepOpen → t.kept.wp = false → lengthZero 8 2 6 r = none →
    t.lace.members = [] → t.isManager = true → i = leAt r.data 0 2 → e = t.entered r 0x0510 (leBytes 2 t.hoopId) r.data →
    own = { serial := Config.serial.toNat, present := true, parents := [], said := none, readOnly := false, badKeys := [] } →
    list = Table.put (e.lace.strangers.map (fun x => (x.1, { x.2 with present := true }))) e.self own →
    u = { e with lace := { e.lace with members := list, strangers := [] } } →
    v = (((u.sendAll (.form i)).setFld Reg.hopHoopId 15 0 i).wr Reg.hopTime 0).bumpEpoch →
    exec (.hoopForm m) s = .next ((v.othersPresent.foldl (fun w d => w.sendTables d) v).mbxComplete m .ok ([BitVec.ofNat 8 list.length] ++ zeros 7))) ∧
  (∀ (s t e u v : State) (m d : Nat) (r : Req) (x : Member), s.Asked m 0x0511 3 r t → t.KeepOpen → t.kept.wp = false → lengthZero 8 1 7 r = none → d = leAt r.data 0 1 →
    t.lace.strangers.find d = some x → e = t.entered r 0x0511 [] r.data →
    u = ({ e with lace := { e.lace with strangers := e.lace.strangers.drop d, members := e.lace.members.put d { x with present := false } } } : State).change
      [.member d (some x.serial)] .none →
    v = (match x.said with | some a => u.rejoin a | none => u) →
    exec (.memberAdmit m) s = .next ((if v.lace.members.any (fun y => y.1 == d && y.2.present)
      then v.sendControl d (.form v.hoopId) else v.bumpEpoch).mbxComplete m .ok [])) ∧
  (∀ (s t e : State) (m d : Nat) (r : Req), s.Asked m 0x0512 3 r t → t.KeepOpen → t.kept.wp = false → lengthZero 8 1 7 r = none → d = leAt r.data 0 1 → d ≠ 0 → ¬ (d = 1 ∧ t.self = 1 ∧ t.isManager = true) →
    t.lace.members.has d = true → (usedPanels t.mem.dir d).length ≤ t.freeElsewhere d → e = t.entered r 0x0512 [] r.data →
    exec (.memberRemove m) s = .next (State.running (({ e with lace := { e.lace with removing := some (d, m) } } : State).nextMove) m [])) ∧
  (∀ (s t e : State) (m k : Nat) (r : Req) (x : DirEntry), s.Asked m 0x0513 3 r t → t.KeepOpen → lengthZero 8 2 2 r = none →
    (t.mem.dir.filter (fun e => e.2.region == leAt r.data 0 2))[leAt r.data 4 4]? = some (k, x) → x.st = 3 → e = t.entered r 0x0513 [] r.data →
    exec (.panelRelease m) s = .next (e.changed m [.dir k (some { x with st := 0 })])) ∧
  (∀ (s t e : State) (m : Nat) (r : Req), s.Asked m 0x0514 3 r t → t.KeepOpen → r.data = [] → t.isManager = true → t.standbyDev ≠ none →
    t.lace.standbyCurrent = true → e = t.entered r 0x0514 [] [] →
    exec (.handover m) s = .next (State.running (e.startHandover (some m)) m [])) ∧
  (∀ (s t e : State) (m i : Nat) (r : Req) (x : Sched), s.Asked m 0x0520 3 r t → t.KeepOpen → lengthZero 24 18 6 r = none →
    leAt r.data 16 2 = 1 ∨ leAt r.data 16 2 = 2 → (t.rd Reg.hopTime).toNat + 100000 ≤ leAt r.data 0 8 →
    leAt r.data 0 8 ≤ (t.rd Reg.hopTime).toNat + 7 * 86400 * 1000000 → t.armed < 16 → e = t.entered r 0x0520 [] r.data → i = e.lace.nextSched % 2 ^ 16 →
    x = { at' := leAt r.data 0 8, devices := leAt r.data 8 8, action := leAt r.data 16 2, st := 0, ran := 0 } →
    exec (.schedule m) s = .next ((({ e with lace := { e.lace with scheds := e.lace.scheds.put i x, nextSched := e.lace.nextSched + 1 } } : State).sendAll
      (.schedule i x.at' x.devices x.action)).mbxComplete m .ok (leBytes 2 i ++ zeros 6))) ∧
  (∀ (s t e : State) (m i : Nat) (r : Req), s.Asked m 0x0521 3 r t → t.KeepOpen → lengthZero 8 2 6 r = none → i = leAt r.data 0 2 →
    t.lace.scheds.has i = true → e = t.entered r 0x0521 [] r.data →
    exec (.scheduleCancel m) s = .next ((({ e with lace := { e.lace with
      scheds := e.lace.scheds.modify i Sched.cancelled } } : State).sendAll (.cancel i)).mbxComplete m .ok [])) ∧
  (∀ (s t : State) (m i : Nat) (r : Req) (x : Sched), s.Asked m 0x0522 1 r t → lengthZero 8 2 6 r = none → i = leAt r.data 0 2 →
    t.lace.scheds.find i = some x →
    exec (.scheduleStatus m) s = .next (t.mbxComplete m .ok ([BitVec.ofNat 8 x.st] ++ zeros 7 ++ leBytes 8 x.ran)))

/-- What the tenant key commands and the rekey walker do. KEY_LOAD of a key that passes R401 loads its version, unless it is there
already, and the key IDs that cannot be used are reported (R400 to R402). KEY_ERASE of a key ID that no region and no panel of the
directory uses empties its slot and ends its rekey (R403). A key kept over power needs WP_N high (R460). KEY_STATUS answers the slot's
record and the nodes left (R430). KEY_ROTATE loads the other version, and the walker starts at the key ID's first node (R418). KEY_UNLOCK
clears the lockdown, on every member where this device manages (R429). The walker passes nodes under the new version, converts the others,
waits for a key that is locked or not loaded and for a node under conversion, and ends the rekey after the last (R419); every second the
selvedge goes to the table area (R421). Changes are journaled first. -/
def Obligations.KeyCommandsAndRekeyWalkerAct : Prop :=
  (∀ (s t e : State) (m : Nat) (r : Req) (k : KeySlot) (key : List Byte), s.Asked m 0x0601 3 r t → t.KeepOpen → keyForm r = none → t.keyBad r = false →
    (t.keySlot r.keyId).admits r.ver = true → (r.persist = true → t.kept.wp = false) → e = t.entered r 0x0601 (t.oldKey r.keyId) (r.data.take 16) → k = e.keySlot r.keyId → r.key' = some key →
    (k.key r.ver ≠ none → exec (.keyLoad m) s = .next (e.mbxComplete m .ok [])) ∧
    (k.key r.ver = none → k.st = .empty → exec (.keyLoad m) s =
      .next ((e.putKey r.keyId { k.load r.ver r.persist key with st := .loaded, active := r.ver }).reportKeys.mbxComplete m .ok [])) ∧
    (k.key r.ver = none → k.st = .absent → exec (.keyLoad m) s =
      .next ((e.putKey r.keyId { k.load r.ver r.persist key with st := .loaded }).reportKeys.mbxComplete m .ok [])) ∧
    (k.key r.ver = none → k.st ≠ .empty → k.st ≠ .absent → exec (.keyLoad m) s =
      .next ((e.putKey r.keyId (k.load r.ver r.persist key)).reportKeys.mbxComplete m .ok []))) ∧
  (∀ (s t e u : State) (m : Nat) (r : Req) (k : KeySlot), s.Asked m 0x0602 3 r t → t.KeepOpen → lengthZero 8 1 7 r = none → r.keyId ≠ 0 → r.keyId ≠ 255 →
    t.mem.regions.any (fun x => x.2.keyId == r.keyId) = false → t.mem.dir.any (fun x => x.2.keyId == r.keyId) = false →
    ((t.keySlot r.keyId).persist = true → t.kept.wp = false) → e = t.entered r 0x0602 (t.oldKey r.keyId) (r.data ++ zeros 8) → k = e.keySlot r.keyId →
    u = e.putKey r.keyId { KeySlot.empty with locked := k.locked, alarms := k.alarms, windowEnd := k.windowEnd } →
    ((∀ w : Rekey, t.mem.rekey = some w → w.keyId ≠ r.keyId) → exec (.keyErase m) s = .next (u.reportKeys.mbxComplete m .ok [])) ∧
    (∀ w : Rekey, t.mem.rekey = some w → w.keyId = r.keyId → exec (.keyErase m) s =
      .next ((({ u with mem := { u.mem with rekey := none } } : State).wr Reg.secRekey 0).reportKeys.mbxComplete m .ok []))) ∧
  (∀ (s t : State) (m : Nat) (r : Req), s.Asked m 0x0603 1 r t → lengthZero 8 1 7 r = none → r.keyId ≠ 0 → r.keyId ≠ 255 →
    ((∀ w : Rekey, t.mem.rekey = some w → w.keyId ≠ r.keyId) → exec (.keyStatus m) s = .next (t.mbxComplete m .ok (keyRecord r.keyId (t.windowAlarms (t.keySlot r.keyId)) 0))) ∧
    (∀ w : Rekey, t.mem.rekey = some w → w.keyId = r.keyId →
      exec (.keyStatus m) s = .next (t.mbxComplete m .ok (keyRecord r.keyId (t.windowAlarms (t.keySlot r.keyId)) w.left)))) ∧
  (∀ (s t e u : State) (m a : Nat) (r : Req) (k : KeySlot) (key : List Byte) (l : List Nat), s.Asked m 0x0604 3 r t → t.KeepOpen → keyForm r = none →
    r.ver ≠ (t.keySlot r.keyId).active → (∀ w : Rekey, t.mem.rekey = some w → w.keyId = r.keyId) → (t.keySlot r.keyId).st = .loaded → t.keyBad r = false → (r.persist = true → t.kept.wp = false) →
    e = t.entered r 0x0604 (t.oldKey r.keyId) (r.data.take 16) → k = e.keySlot r.keyId → r.key' = some key → l = e.keyNodes r.keyId → a = l.headD 0 →
    u = (({ e with mem := { e.mem with
        nodes := l.foldl (fun x n => if x.has n then x else x.put n { major := 0, ver := k.active, minors := [] }) e.mem.nodes
        rekey := some { keyId := r.keyId, next := a, left := l.length, checkpoint := a, started := e.now } } } : State).putKey r.keyId
      { k.load r.ver r.persist key with st := .rekey }) →
    exec (.keyRotate m) s = .next ((((u.wr Reg.secSelvedge (BitVec.ofNat 64 a)).wr Reg.secRekey
      (BitVec.ofNat 64 (r.keyId + 256 + l.length * 2 ^ 32))).arm Timer.selvedge (sec 1)).mbxComplete m .ok [])) ∧
  (∀ (s t e u : State) (m : Nat) (r : Req), s.Asked m 0x0605 3 r t → t.KeepOpen → lengthZero 8 1 7 r = none → r.keyId ≠ 0 → r.keyId ≠ 255 →
    e = t.entered r 0x0605 (t.oldKey r.keyId) (r.data ++ zeros 8) →
    u = e.putKey r.keyId { e.keySlot r.keyId with locked := false, alarms := 0, windowEnd := 0 } →
    (u.isManager = false → exec (.keyUnlock m) s = .next (u.mbxComplete m .ok [])) ∧
    (u.isManager = true → exec (.keyUnlock m) s = .next ((u.sendAll (.lock r.keyId false)).mbxComplete m .ok []))) ∧
  (∀ (s : State) (w : Rekey) (k : KeySlot), s.mem.rekey = some w → k = s.keySlot w.keyId →
    (k.locked = true ∨ k.key0 = none ∨ k.key1 = none → exec .rekeyNode s = .next s) ∧
    (k.locked = false → k.key0 ≠ none → k.key1 ≠ none → (s.keyNodes w.keyId).find? (fun n => w.next ≤ n) = none →
      (s.mem.conv.any (fun e => e.2.rekey) = true → exec .rekeyNode s = .next s) ∧
      (s.mem.conv.any (fun e => e.2.rekey) = false → exec .rekeyNode s = .next (s.rekeyDone w))) ∧
    (∀ n : Nat, k.locked = false → k.key0 ≠ none → k.key1 ≠ none → (s.keyNodes w.keyId).find? (fun n => w.next ≤ n) = some n →
      ∀ ln : Nat, s.lineOf (64 * n) = some ln →
        ((s.nodeOf ln (64 * n)).ver = (!k.active) → exec .rekeyNode s = .next (s.selvedgePast n)) ∧
        ((s.nodeOf ln (64 * n)).ver = k.active → s.mem.conv.has n = true → exec .rekeyNode s = .next s) ∧
        ((s.nodeOf ln (64 * n)).ver = k.active → s.mem.conv.has n = false → exec .rekeyNode s = .next (s.startConv ln (64 * n) (!k.active) true)))) ∧
  (∀ (s : State) (w : Rekey), s.mem.rekey = some w → s.ripe Timer.selvedge = true →
    exec .selvedgeCheckpoint s = .next (({ s with mem := { s.mem with
      rekey := some { w with checkpoint := w.next }, saved := { s.mem.saved with selvedge := w.next } } } : State).arm Timer.selvedge (sec 1)))

/-- What the MACsec, JTAG and DMA rows do. MACSEC_SA_INSTALL with a valid wrapped key takes the port's first free slot (R426);
MACSEC_SA_DELETE frees it (R427); MACSEC_TX_ACTIVATE makes an SA the port's only active transmit SA (R426); MACSEC_SA_STATUS answers it
(R430). JTAG_UNLOCK opens a scope and JTAG_LOCK closes it; both are journaled (R424, R425). A JTAG nonce is free; a signature over it that
verifies opens the scope, once; one that does not, or that has no nonce, key or scope, counts toward the closing of the register; a closed
register takes none (R425). A DMA or JTAG access to a tenant's key ID is refused, journaled, counted and raised; to key ID 0 it is not
(R423). -/
def Obligations.MacsecJtagAndDmaAct : Prop :=
  (∀ (s t e : State) (m p i : Nat) (r : Req) (key : List Byte), s.Asked m 0x0610 3 r t → t.KeepOpen → lengthZero 176 4 4 r = none → p = leAt r.data 0 1 →
    leAt r.data 3 1 = 1 ∨ zeroAt r.data 24 16 = true → p < t.portCount →
    t.host.sas.any (fun x => x.1 / 32 == p && x.2.tx == (leAt r.data 1 1 == 1) && x.2.an == leAt r.data 2 1 && x.2.sci == leAt r.data 8 8) = false →
    leAt r.data 1 1 < 2 → leAt r.data 2 1 < 4 → leAt r.data 3 1 < 2 → (leAt r.data 3 1 == 1) = t.flag (Reg.ethMsecCfg p) 16 → sakOf r = some key →
    t.saCount p < 32 → e = t.entered r 0x0610 [] (saEntry p (leAt r.data 1 1 == 1) (leAt r.data 2 1) (leAt r.data 8 8)) →
    e.host.sas.firstFree (32 * p) 32 = some i →
    exec (.macsecSaInstall m) s = .next ((e.putSa i {
      tx := leAt r.data 1 1 == 1, an := leAt r.data 2 1, xpn := leAt r.data 3 1 == 1, sci := leAt r.data 8 8, pn := leAt r.data 16 8, key := key
      ssci := leAt r.data 24 4, salt := slice r.data 28 12, active := !(leAt r.data 1 1 == 1), warned := false }).mbxComplete m .ok
        (BitVec.ofNat 8 (i % 32) :: zeros 7))) ∧
  (∀ (s t e : State) (m i : Nat) (r : Req) (a : MacSa), s.Asked m 0x0611 3 r t → t.KeepOpen → lengthZero 8 2 6 r = none → t.saOf r = some (i, a) →
    e = t.entered r 0x0611 (saEntry (i / 32) a.tx a.an a.sci) (saEntry (i / 32) a.tx a.an a.sci) →
    exec (.macsecSaDelete m) s = .next (({ e with host := { e.host with sas := e.host.sas.drop i } } : State).mbxComplete m .ok [])) ∧
  (∀ (s t e : State) (m i : Nat) (r : Req) (a : MacSa), s.Asked m 0x0612 3 r t → t.KeepOpen → lengthZero 8 2 6 r = none → t.saOf r = some (i, a) → a.tx = true →
    e = t.entered r 0x0612 (saEntry (i / 32) a.tx a.an a.sci) (saEntry (i / 32) a.tx a.an a.sci) →
    exec (.macsecTxActivate m) s = .next (({ e with host := { e.host with
      sas := e.host.sas.map (fun x => if x.1 / 32 = i / 32 && x.2.tx then (x.1, { x.2 with active := x.1 == i }) else x) } } : State).mbxComplete m .ok [])) ∧
  (∀ (s t : State) (m i : Nat) (r : Req) (a : MacSa), s.Asked m 0x0613 1 r t → lengthZero 8 2 6 r = none → t.saOf r = some (i, a) →
    exec (.macsecSaStatus m) s = .next (t.mbxComplete m .ok ([BitVec.ofNat 8 a.tx.toNat, BitVec.ofNat 8 a.an, BitVec.ofNat 8 a.active.toNat] ++ zeros 5 ++
      leBytes 8 a.sci ++ leBytes 8 a.pn))) ∧
  (∀ (s t e : State) (m : Nat) (r : Req), s.Asked m 0x0620 3 r t → t.KeepOpen → lengthZero 8 1 7 r = none → leAt r.data 0 1 < 4 →
    e = t.entered r 0x0620 [BitVec.ofNat 8 (t.fld Reg.secJtag 1 0)] r.data →
    exec (.jtagUnlock m) s = .next ((e.jtagOpen (leAt r.data 0 1)).mbxComplete m .ok [])) ∧
  (∀ (s t e : State) (m : Nat) (r : Req), s.Asked m 0x0621 2 r t → t.kept.closed = false → r.data = [] →
    e = t.jAlways (t.jEntry r.author true 0x0621 .ok [BitVec.ofNat 8 (t.fld Reg.secJtag 1 0)] []) →
    exec (.jtagLock m) s = .next ((e.setFld Reg.secJtag 1 0 (if e.kept.factory then 3 else 0)).mbxComplete m .ok [])) ∧
  (∀ s t : State, t = s.draw256.2 → exec .jtagNonceRead s = .next { t with mbx := { t.mbx with jtagNonce := some (beBytes 32 s.draw256.1.toNat) } }) ∧
  (∀ (s t : State) (scope key : Nat) (sig : List Byte), scope < 256 → key < 256 → sig.length = 96 → t = { s with mbx := { s.mbx with jtagNonce := none } } →
    (s.flag Reg.secJtag 4 = true → exec (.jtagUnlockSig scope key sig) s = .next s) ∧
    (s.flag Reg.secJtag 4 = false → s.mbx.jtagNonce = none ∨ s.kept.adminKeys.find key = none ∨ 4 ≤ scope →
      exec (.jtagUnlockSig scope key sig) s = .next t.jtagFail) ∧
    (∀ (u : State) (n k : List Byte), s.flag Reg.secJtag 4 = false → s.mbx.jtagNonce = some n → s.kept.adminKeys.find key = some k → scope < 4 →
      (Config.ecdsaOk k (n ++ serialBytes ++ [BitVec.ofNat 8 scope, BitVec.ofNat 8 key]) sig = false → exec (.jtagUnlockSig scope key sig) s = .next t.jtagFail) ∧
      (Config.ecdsaOk k (n ++ serialBytes ++ [BitVec.ofNat 8 scope, BitVec.ofNat 8 key]) sig = true →
        (t.jnlFull = true → exec (.jtagUnlockSig scope key sig) s = .next t.jRefuse) ∧
        (t.jnlFull = false → u = t.jChange { iface := 3, cred := 0x8000 + key } true 0x0620 [BitVec.ofNat 8 (t.fld Reg.secJtag 1 0)] [BitVec.ofNat 8 scope] →
          exec (.jtagUnlockSig scope key sig) s = .next ((u.setFld Reg.secJtag 3 2 0).jtagOpen scope))))) ∧
  (∀ (s : State) (d : Nat), s.mbx.jtagClosed = some d → d ≤ s.now → exec .jtagCloseExpire s =
    .next ((({ s with mbx := { s.mbx with jtagClosed := none } } : State).clrFlag Reg.secJtag 4).setFld Reg.secJtag 3 2 0)) ∧
  (∀ (s : State) (x a : Nat), x = 1 ∨ x = 2 → a < 2 ^ 64 → (a / 2 ^ 56 = 0 → exec (.dmaRefused x a) s = .next s) ∧
    (a / 2 ^ 56 ≠ 0 → exec (.dmaRefused x a) s = .next (((s.jAlways (s.jEntry { iface := if x = 1 then 3 else 4 } true 0 .denied [] (leBytes 8 a))).count
      (Reg.secCount 6) 1).raise 0xA002 (a / 2 ^ 56) x)))

/-- What the power and thermal commands, their timers and the end of the hold-up test do. POWER_MODE_SET writes MODE of PWR_MODE as any
register write (R501, R550), and answers the write's status; POWER_CAP_SET sets or clears the cap, journaled (R493). SHUTDOWN makes the
off request of its KIND, and RESTART latches an on request with it (R482, R501); it is journaled even where the journal is full.
THERMAL_SWEEP requests a sweep and holds its response (R495); THROTTLE_SET writes THM_CFG and waits for its keep pages (R458). The model's
update, the sweep and its end, the thermal level, the cap control and IDLE_AFTER act when due (R491, R493 to R498); IDLE_AFTER yields to a
stitch that waits behind its expiry (R18). The hold-up measurement that runs in step SELFTEST ends with its readings (R487). -/
def Obligations.PowerModesCapAndTemperature : Prop :=
  (∀ c ∈ [(Instr.powerModeSetFull, 0), (.powerModeSetEconomy, 1), (.powerModeSetIdle, 2)],
    ∀ (s t u : State) (m : Nat) (r : Req) (d : RegDesc) (st : Status), s.Asked m 0x0702 2 r t → leAt (s.box m).req 0 1 = c.2 → leAt r.data 0 1 = c.2 →
    lengthZero 8 1 7 r = none → (c.2 = 2 → t.power ≠ .held ∧ t.jobRuns = false) → regDesc Reg.pwrMode = some d →
    t.writeWord r.author Reg.pwrMode d ((t.view Reg.pwrMode).withField 1 0 c.2) = (st, u) →
    exec (c.1 m) s = .next (u.mbxComplete m st [])) ∧
  (∀ (s t e : State) (m c : Nat) (r : Req), s.Asked m 0x0703 2 r t → t.KeepOpen → lengthZero 8 2 6 r = none → c = leAt r.data 0 2 → c = 0 ∨ 40 ≤ c ∧ c ≤ 118 →
    e = t.entered r 0x0703 (leBytes 2 (t.fld Reg.pwrMode 23 8)) r.data →
    exec (.powerCapSet m) s = .next ((e.setFld Reg.pwrMode 23 8 c).mbxComplete m .ok [])) ∧
  (∀ (s t e : State) (m k : Nat) (r : Req), s.Asked m 0x0704 3 r t → t.kept.closed = false → lengthZero 8 1 7 r = none → leAt (s.box m).req 0 1 = k →
    leAt r.data 0 1 = k → e = t.jAlways (t.jEntry r.author true 0x0704 .ok [] r.data) →
    (k = 0 → exec (.shutdownOrderly m) s = .next ((e.askOff 1).mbxComplete m .ok [])) ∧
    (k = 1 → exec (.shutdownForced m) s = .next ((e.askOff 2).mbxComplete m .ok [])) ∧
    (k = 2 → exec (.shutdownRestart m) s = .next ((({ e with pwr := { e.pwr with onReq := true } } : State).askOff 1).mbxComplete m .ok []))) ∧
  (∀ (s t : State) (m : Nat) (r : Req), s.Asked m 0x0711 2 r t → r.data = [] →
    exec (.thermalSweep m) s = .next (State.running (t.requestSweep (some m)) m [])) ∧
  (∀ (s t u : State) (m : Nat) (r : Req) (d : RegDesc), s.Asked m 0x0712 3 r t → r.data.length = 8 → zeroAt r.data 1 1 = true → zeroAt r.data 7 1 = true →
    leAt r.data 0 1 ≤ 1 → 10 ≤ leAt r.data 2 2 → leAt r.data 2 2 ≤ 1000 → 85 ≤ leAt r.data 4 1 → leAt r.data 4 1 ≤ 105 → 70 ≤ leAt r.data 5 1 →
    leAt r.data 5 1 ≤ 85 → 5 ≤ leAt r.data 6 1 → leAt r.data 6 1 ≤ 50 → regDesc Reg.thmCfg = some d →
    (t.writeKeep r.author false (boxWaiter m) Reg.thmCfg d (throttleWord r.data) = (.queued, u) → exec (.throttleSet m) s = .next (u.running m [])) ∧
    (∀ st : Status, t.writeKeep r.author false (boxWaiter m) Reg.thmCfg d (throttleWord r.data) = (.done st, u) →
      exec (.throttleSet m) s = .next (u.mbxComplete m st []))) ∧
  (∀ (s : State) (l : List Int), s.ripe Timer.thermModel = true →
    exec (.thermalModelUpdate l) s = .next (((s.takeModel l).shutdownCheck).arm Timer.thermModel (us 100))) ∧
  (∀ (s : State) (l : List Int), (s.pwr.sweeping = true → exec (.sweepDone l) s = .next ((s.takeSweep l).sweepEnd.shutdownCheck)) ∧
    (s.pwr.sweeping = false → exec (.sweepDone l) s = .next s)) ∧
  (∀ (s : State) (h : HoldTest), s.stepNo = 11 → s.pwr.holdTest = true → s.local' = false →
    exec (.holdupTestEnd h) s = .next (s.takeHoldup h)) ∧
  (∀ s : State, s.power = .full ∨ s.power = .economy → s.fld Reg.pwrCfg 39 28 ≠ 0 → s.host.ops = [] → s.jobRuns = false → s.pwr.idling = false →
    s.host.lastWork + sec (s.fld Reg.pwrCfg 39 28) ≤ s.now → s.overtaken (s.host.lastWork + sec (s.fld Reg.pwrCfg 39 28)) bringsStitch = false → exec .idleAfterExpire s = .next s.toIdle) ∧
  (∀ (s t : State) (p q : Nat) (l : List (Nat × Nat)), s.ripe Timer.capTick = true →
    t = (List.range (min 10 l.length)).foldl (fun u r => match l[r]? with
      | some x => (u.setFld (Reg.pwrRail r) 15 0 x.1).setFld (Reg.pwrRail r) 31 16 x.2
      | none => u) ((s.setFld Reg.pwrStatus 31 16 p).setFld Reg.pwrStatus 47 32 q) →
    exec (.capControlTick p q l) s = .next ((t.capTick p).arm Timer.capTick (ms 10))) ∧
  (∀ s : State, s.ripe Timer.thermTick = true → exec .thermalLevelTick s = .next (s.thermTick.arm Timer.thermTick (ms 100))) ∧
  (∀ s : State, s.ripe Timer.sweep = true → exec .sensorSweep s = .next ((s.requestSweep none).arm Timer.sweep s.sweepPeriod))

/-- What the update and diagnostic commands, boot, live swap and the end of a long-running command do. FW_DOWNLOAD extends staging (R516);
FW_VERIFY enters stage VERIFYING with the result of Table 16-6 held (R517); FW_ACTIVATE enters ACTIVATING, with no valid image in the slot
that it copies to (R518, R525); FW_CONFIRM commits the pending slot (R522); FW_DISCARD clears staging, the pending flag, or swaps back
(R524). MBX_COMMAND_DONE has the panels of a deleted region cleared (R174), and once nothing is waited for gives the held response, sets a
verification's stage, and seals an activation, which then acts by its MODE. BOOT_LOAD loads the image that the update record names, goes
on with a live swap, or ends in ROM recovery (R505, R512, R520); an unplanned restart, BOOT_OK's, a busy swap's and the confirmation's
timeouts act when due (R433, R520, R524). RETEST runs items 2 to 10 in HELD (R511). DIAG_RUN starts a test with the bobbins in TEST,
DIAG_DONE ends it, DIAG_RESULT answers (R527). -/
def Obligations.FirmwareUpdateAndDiagnostics : Prop :=
  (∀ (s t e : State) (m a n : Nat) (r : Req), s.Asked m 0x0902 3 r t → t.KeepOpen → 9 ≤ r.data.length → a = leAt r.data 0 4 → n = leAt r.data 4 4 →
    a = 0 ∨ a = t.boot.staging.length ∧ n = t.boot.total → n ≤ 20 * 2 ^ 20 → a + (r.data.length - 8) ≤ n → t.boot.stage ≠ 6 → e = t.entered r 0x0902 [] r.data →
    exec (.fwDownload m) s = .next (({ e with boot := { e.boot with
      staging := e.boot.staging.take a ++ r.data.drop 8, total := n, verify := 0
      stage := if (e.boot.staging.take a ++ r.data.drop 8).length = n then 2 else 1 } } : State).mbxComplete m .ok [])) ∧
  (∀ (s t e u : State) (m : Nat) (r : Req), s.Asked m 0x0903 3 r t → t.KeepOpen → r.data = [] → t.boot.stage = 2 ∨ t.boot.stage = 4 →
    e = t.entered r 0x0903 [] [] → u = ({ e with boot := { e.boot with stage := 3 } } : State).jSecond .yes (t.jEntry r.author true 0x0903 .ok [] []) (verifyStatus e.verifyResult) →
    exec (.fwVerify m) s = .next (u.putBox m { u.box m with
      begun := true, status := verifyStatus e.verifyResult, resp := leBytes 1 e.verifyResult ++ zeros 7 })) ∧
  (∀ c ∈ [(Instr.fwActivateLive, 0), (.fwActivateRestart, 1), (.fwActivateNextStart, 2)],
    ∀ (s t e : State) (m : Nat) (r : Req), s.Asked m 0x0904 3 r t → t.KeepOpen → lengthZero 8 1 7 r = none → leAt (s.box m).req 0 1 = c.2 → leAt r.data 0 1 = c.2 →
    t.boot.stage = 4 → t.boot.active ≠ 2 ∨ c.2 = 1 → (c.2 = 0 → (pkgOf t.boot.staging).liveOk = true ∧ t.swapping = false) → e = t.entered r 0x0904 [] r.data →
    exec (c.1 m) s = .next (State.running { e with boot := { e.boot with
      stage := 5, slots := if e.boot.active = 2 then [] else e.boot.slots.drop (1 - e.boot.active) } } m [])) ∧
  (∀ (s t e : State) (m : Nat) (r : Req), s.Asked m 0x0905 3 r t → t.KeepOpen → r.data = [] → t.pendingRuns = true → e = t.entered r 0x0905 [] [] →
    exec (.fwConfirm m) s = .next ((({ e with boot := { e.boot with
      running := e.boot.pendingSlot, stage := 0, svnFloor := max e.boot.svnFloor e.fwSvn, activatedAt := none, twoStores := false } } : State).raise 0xE006 e.self 0).mbxComplete m .ok [])) ∧
  (∀ (s t e : State) (m : Nat) (r : Req), s.Asked m 0x0906 3 r t → t.KeepOpen → r.data = [] → t.boot.stage ≠ 0 → t.boot.stage ≠ 5 → e = t.entered r 0x0906 [] [] →
    (t.boot.stage ≠ 6 → exec (.fwDiscard m) s =
      .next (({ e with boot := { e.boot with stage := 0, staging := [], total := 0, verify := 0 } } : State).mbxComplete m .ok [])) ∧
    (t.boot.stage = 6 → t.swapping = false → t.boot.active ≠ t.boot.pendingSlot → exec (.fwDiscard m) s =
      .next (({ e with boot := { e.boot with stage := 0, activatedAt := none, attempts := 0, twoStores := false } } : State).mbxComplete m .ok [])) ∧
    (t.boot.stage = 6 → t.swapping = false → t.boot.active = t.boot.pendingSlot → exec (.fwDiscard m) s = .next (State.running (e.startSwap (some m) 4) m []))) ∧
  (∀ (r s u : State) (m : Nat) (b : Mailbox), m < 16 → b = r.box m →
    s = (if b.st = .busy && b.begun && b.code == 0x0202 && !r.lace.jobs.any (fun j => j.act == .mailbox m) then r.clearPanels (.mailbox m) else r) →
    (¬ s.MayEnd m b → exec (.mbxCommandDone m) r = .next s) ∧
    (s.MayEnd m b →
      ((b.code = 0x0802 → s.clearing = false) → (b.code = 0x0903 → s.boot.stage ≠ 3) → (b.code = 0x0904 → s.boot.stage ≠ 5) →
        exec (.mbxCommandDone m) r = .next (s.mbxComplete m b.status b.resp)) ∧
      (b.code = 0x0802 → s.clearing = true → exec (.mbxCommandDone m) r =
        .next ((s.clearEnd (b.keyIndex.getD 0) (leAt b.resp 0 2)).mbxComplete m b.status b.resp)) ∧
      (b.code = 0x0903 → s.boot.stage = 3 → exec (.mbxCommandDone m) r = .next (({ s with boot := { s.boot with
        verify := leAt b.resp 0 1, stage := if leAt b.resp 0 1 = 1 then 4 else 2 } } : State).mbxComplete m b.status b.resp)) ∧
      (b.code = 0x0904 → s.boot.stage = 5 → u = (s.sealPending (leAt b.req 0 1)).mbxComplete m b.status b.resp →
        (leAt b.req 0 1 = 0 → exec (.mbxCommandDone m) r = .next ((s.sealPending 0).startSwap (some m) 0)) ∧
        (leAt b.req 0 1 = 1 → exec (.mbxCommandDone m) r = .next (({ u with pwr := { u.pwr with onReq := true } } : State).askOff 1)) ∧
        (leAt b.req 0 1 ≠ 0 → leAt b.req 0 1 ≠ 1 → exec (.mbxCommandDone m) r = .next u)))) ∧
  (∀ (s u v : State) (a b c d : List Bool) (alive : Bool), s.boot.loading = true → s.power ≠ .off → c = a.take 3 → d = b.take 3 →
    (∀ x : Swap, s.boot.swap = some x →
      (s.busyBoxes x = true → exec (.bootLoad a b alive) s = .next s) ∧
      (s.busyBoxes x = false → exec (.bootLoad a b alive) s = .next (s.swapLoad x (fun k => if k = 0 then c else d) alive))) ∧
    (s.boot.swap = none → u = s.romLoad (fun k => if k = 0 then c else d) →
      v = (if s.stepNo = 11 then u.recordItems [(0, grade false (decide ((c ++ d).length < 6) || (c ++ d).any (· == false) || decide (u.boot.slots.length < 2)))]
        else u) →
      (v.boot.active = 2 → s.stepNo = 11 → exec (.bootLoad a b alive) s = .next { v with boot := { v.boot with loading := false } }) ∧
      (v.boot.active = 2 → s.stepNo ≠ 11 → exec (.bootLoad a b alive) s =
        .next ((State.enterHeld { v with boot := { v.boot with loading := false } } 3).clrFlag Reg.glbStatus 2)) ∧
      (v.boot.active ≠ 2 → alive = false → exec (.bootLoad a b alive) s = .next v) ∧
      (v.boot.active ≠ 2 → alive = true → s.stepNo = 11 → exec (.bootLoad a b alive) s = .next { v with boot := { v.boot with loading := false } }) ∧
      (v.boot.active ≠ 2 → alive = true → s.stepNo ≠ 11 → exec (.bootLoad a b alive) s =
        .next (State.firmwareBack { v with boot := { v.boot with loading := false } })))) ∧
  (∀ (s : State) (c : Nat), 11 ≤ s.stepNo → s.stepNo ≤ 13 → s.local' = false → s.boot.active ≠ 2 → s.boot.loading = false → s.boot.bootOkDue = none →
    exec (.hkpRestart c) s = .next ((s.raise 0xE007 s.self c).hkpDown)) ∧
  (∀ (s : State) (x : Swap), s.boot.swap = some x → x.handed = false → x.due ≤ s.now → s.overtaken x.due endsCommand = false → s.busyBoxes x = true →
    exec .liveSwapBusyTimeout s = .next (s.endSwap x .unavailable)) ∧
  (∀ (s u : State) (x : Swap) (d : Nat), s.boot.swap = some x → s.boot.bootOkDue = some d → d ≤ s.now → s.overtaken d bootsAlive = false →
    u = (if s.boot.stage = 6 then s.fallBack 2 else s) →
    exec .bootOkTimeout s = .next ((((u.runSlot u.boot.running).bobEnter 0).setFlag Reg.glbStatus 1).endSwap x .internal)) ∧
  (∀ (s : State) (a : Nat), s.boot.activatedAt = some a → s.pendingRuns = true → a + 259200 ≤ s.opSeconds → s.swapping = false → s.hkpUp = true →
    exec .confirmTimeout s = .next (s.startSwap none 3)) ∧
  (∀ (s t e u : State) (m : Nat) (r : Req) (d : SelfTest) (h : HoldTest), s.Asked m 0x0A02 3 r t → t.kept.closed = false → lengthZero 8 1 7 r = none →
    leAt r.data 0 1 < 2 → t.power = .held → e = t.jAlways (t.jEntry r.author true 0x0A02 .ok [] r.data) → u = e.retest d h (leAt r.data 0 1 == 1) →
    exec (.retest m d h) s = .next (u.mbxComplete m .ok (leBytes 1 u.testResult ++ zeros 7))) ∧
  (∀ (s t e : State) (m k i : Nat) (r : Req), s.Asked m 0x0A10 3 r t → t.KeepOpen → r.data.length = 8 → leAt r.data 2 2 = 0 → k = leAt r.data 0 2 →
    k ≠ 0 → k < 8 → t.diagUnit k (leAt r.data 4 4) = true → t.diagRuns = false → t.power = .held ∨ t.diagIdle k (leAt r.data 4 4) = true →
    e = t.entered r 0x0A10 [] r.data → i = e.boot.nextDiag % 2 ^ 32 →
    exec (.diagRun m) s = .next ((({ e with boot := { e.boot with
      diag := some { id := i, test := k, target := leAt r.data 4 4, began := e.now, ended := none }
      nextDiag := e.boot.nextDiag + 1 } } : State).bobEnter 2).mbxComplete m .ok (leBytes 4 i ++ zeros 4))) ∧
  (∀ (s u : State) (ok : Bool) (k : Nat) (d : Diag), s.boot.diag = some d → d.ended = none →
    u = ({ s with boot := { s.boot with diag := some { d with ended := some (if ok then 0 else 1, (s.now - d.began) / ms 1, k) } } } : State).bobEnter 0 →
    (ok = true → exec (.diagDone ok k) s = .next u) ∧ (ok = false → exec (.diagDone ok k) s = .next (u.raise 0xF001 d.test (k % 2 ^ 32)))) ∧
  (∀ (s t : State) (m : Nat) (r : Req) (d : Diag) (x : Nat × Nat × Nat), s.Asked m 0x0A11 1 r t → lengthZero 8 4 4 r = none → t.boot.diag = some d →
    d.id = leAt r.data 0 4 → x = d.ended.getD (0, (t.now - d.began) / ms 1, 0) →
    exec (.diagResult m) s = .next (t.mbxComplete m .ok ([BitVec.ofNat 8 d.ended.isSome.toNat, BitVec.ofNat 8 x.1] ++ zeros 2 ++ leBytes 4 x.2.1 ++
      leBytes 8 x.2.2)))

/-- What the SMBus rows, the mailbox timers and the end of a keep page write do. On VSTBY, an SMBus write whose PEC fails is discarded and
counted (R443); MBX_SEL and REG_ADDR select; MBX_DATA stores up to 32 bytes in the request buffer of a mailbox that is free or owned over
SMBus, and reads give bytes of its buffers and end a response read to its end; SUBMIT hands over the segment (R442). REG_DATA writes and
reads a register and advances its address by 8 (R443); REG_STATUS, ALERT_CAUSE and MBX_STATE answer; the Alert Response Address answers
only while ALERT_N is held (R444); a timeout abandons the transaction. MBX_EARLY answers PENDING (R438) and MBX_TIMEOUT frees a mailbox
with event 0xB007 (R436), where no command of their moment outruns them (R18); SIG_CLOSED ends (R449). A finished page of the keep is
sealed, and its waiter goes on (R453, R458). -/
def Obligations.SmbusRowsMailboxTimersAndKeepPages : Prop :=
  (∀ (s : State) (a b k n : Nat) (v : Word) (l : List Byte) (q : Bool),
    (s.power ≠ .off → ∀ c ∈ [Instr.mbxSel a b k false, .regAddr a false, .mbxDataWrite l false, .regDataWrite v false, .mbxSubmit false],
      exec c s = .next (s.count (Reg.mbxCount 7) 1)) ∧
    (s.power = .off → ∀ c ∈ [Instr.mbxSel a b k q, .regAddr a q, .mbxDataWrite l q, .regDataWrite v q, .mbxSubmit q, .mbxDataRead n, .regDataRead, .regStatus,
      .alertCause, .smbusTimeout, .mbxState], exec c s = .next s)) ∧
  (∀ (s : State) (a b c : Nat), s.power ≠ .off → exec (.mbxSel a b c true) s = .next { s with mbx := { s.mbx with smb := { s.mbx.smb with
    mailbox := a % 16, buffer := b % 2, offset := c % 2 ^ 16 } } }) ∧
  (∀ (s : State) (a : Nat), s.power ≠ .off → exec (.regAddr a true) s = .next { s with mbx := { s.mbx with smb := { s.mbx.smb with regAddr := a % 2 ^ 24 } } }) ∧
  (∀ (s t : State) (b : Mailbox) (m : Nat) (l : List Byte), s.power ≠ .off → m = s.mbx.smb.mailbox → b = s.box m → l ≠ [] → l.length ≤ 32 →
    t = s.modSmb (fun y => { y with offset := (y.offset + l.length) % 2 ^ 16 }) →
    (s.mbx.smb.buffer = 1 → exec (.mbxDataWrite l true) s = .next t) ∧
    (b.st ≠ .idle ∨ b.claimed = true → b.owner ≠ .smbus → exec (.mbxDataWrite l true) s = .next t) ∧
    (s.mbx.smb.buffer ≠ 1 → b.st = .idle ∧ b.claimed = false ∨ b.owner = .smbus → exec (.mbxDataWrite l true) s = .next (t.putBox m { b with
      owner := .smbus, claimed := b.claimed || b.st == .idle, due := s.now + s.mbxTimeout, reqBuf := bufPut b.reqBuf s.mbx.smb.offset l }))) ∧
  (∀ (s t : State) (n o : Nat) (b : Mailbox) (buf : List Byte), s.power ≠ .off → 1 ≤ n → n ≤ 32 → b = s.box s.mbx.smb.mailbox → o = s.mbx.smb.offset →
    buf = (if b.owner ≠ .smbus then [] else if s.mbx.smb.buffer = 0 then b.reqBuf else b.respBuf) →
    t = (s.smbTouch s.mbx.smb.mailbox).modSmb (fun y => { y with offset := (y.offset + n) % 2 ^ 16 }) →
    exec (.mbxDataRead n) s = .next (State.modSmb (if s.mbx.smb.buffer = 1 ∧ b.owner = .smbus ∧ b.respBuf ≠ [] ∧ 8 + leAt b.respBuf 4 2 ≤ o + n ∧ b.st = .done ∧
      b.segments ≤ b.respSeg then t.putBox s.mbx.smb.mailbox b.freed else t) (fun y => { y with out := [slice (buf ++ zeros (4096 - buf.length)) o n] }))) ∧
  (∀ (s : State) (b : Mailbox) (m : Nat), s.power ≠ .off → m = s.mbx.smb.mailbox → b = s.box m →
    (s.serving = false ∨ b.owner ≠ .smbus → exec (.mbxSubmit true) s = .next s) ∧
    (s.serving = true → b.owner = .smbus → exec (.mbxSubmit true) s =
      .next ((s.smbSegment m (b.reqBuf.take (8 + leAt b.reqBuf 4 2))).smbTouch m))) ∧
  (∀ (s : State) (v : Word), s.power ≠ .off → exec (.regDataWrite v true) s =
    .next ((s.writeRow .smbus s.mbx.smb.regAddr v).modSmb (fun x => { x with regAddr := (x.regAddr + 8) % 2 ^ 24 }))) ∧
  (∀ s : State, s.power ≠ .off → exec .regDataRead s =
    .next ((s.readRow .smbus s.mbx.smb.regAddr).modSmb (fun x => { x with regAddr := (x.regAddr + 8) % 2 ^ 24 }))) ∧
  (∀ s : State, s.power ≠ .off → exec .regStatus s = .next (s.modSmb (fun x => { x with out := [[BitVec.ofNat 8 s.mbx.smb.regStatus.code]] }))) ∧
  (∀ s : State, s.power ≠ .off → exec .alertCause s = .next (s.modSmb (fun x => { x with out := [leBytes 2 s.alertCauses] }))) ∧
  (∀ s : State, (s.alertCauses = 0 → exec .alertResponse s = .next s) ∧ (s.alertCauses ≠ 0 → s.power ≠ .off →
    exec .alertResponse s = .next (s.modSmb (fun x => { x with out := [[BitVec.ofNat 8 (2 * s.smbAddr)]] })))) ∧
  (∀ s : State, s.power ≠ .off → exec .smbusTimeout s = .next (s.modSmb (fun x => { x with out := [] }))) ∧
  (∀ (s : State) (b : Mailbox), s.power ≠ .off → b = s.box s.mbx.smb.mailbox →
    exec .mbxState s = .next ((s.smbTouch s.mbx.smb.mailbox).modSmb (fun x => { x with out := [[BitVec.ofNat 8 (b.st.num +
      bitAt ((b.st != .idle || b.claimed) && b.owner != .smbus) 6 + bitAt (!s.serving) 7)]] }))) ∧
  (∀ (s : State) (m d : Nat) (b : Mailbox), m < 16 → b = s.box m → b.st = .busy → b.early = some d → d ≤ s.now → s.overtaken d (doneIn m) = false →
    exec (.mbxEarlyExpire m) s = .next ((s.putBox m { b with early := none }).mbxAnswer m { status := .ok, pending := true })) ∧
  (∀ (s : State) (m : Nat) (b : Mailbox), m < 16 → b = s.box m → b.st = .receiving ∨ b.st = .done ∨ b.st = .delivering ∨ b.st = .idle ∧ b.claimed = true →
    b.due ≤ s.now → s.overtaken b.due (s.ownerAsks m) = false → exec (.mbxTimeout m) s = .next (((s.putBox m b.freed).count (Reg.mbxCount 5) 1).raise 0xB007 m 0)) ∧
  (∀ (s : State) (d : Nat), s.mbx.sigClosed = some d → d ≤ s.now →
    exec .sigCloseExpire s = .next (({ s with mbx := { s.mbx with sigClosed := none } } : State).clrFlag Reg.mbxStatus 17)) ∧
  (∀ (s t : State) (q : KeepWrite) (rest : List KeepWrite), s.kept.queue = q :: rest → t = { s with kept := { s.kept with queue := rest } } →
    (∀ (e : JEntry) (w : Nat), q = .journal e w → exec .keepPageWriteDone s = .next ((t.jAlways { e with seq := t.kept.nextSeq % 2 ^ 32 }).sealed w)) ∧
    (∀ (off w : Nat) (v : Word), q = .regPage off v w → exec .keepPageWriteDone s = .next ((t.sealReg off v).sealed w)))

/-- What the rows of register accesses do: which register each names, and how a write ends. Each register row writes or reads the register
it names by its path; a row for one action of a register does nothing where the value asks for another action. A path that is not open
changes nothing; REG_STATUS takes the status of an SMBus write. A block that is not reachable answers UNAVAILABLE; a register without
fields to write, and a locked one of a device out of its factory state, DENIED; a dead window takes the write without effect. A value out
of range, or at odds with a related field, is ignored with CFG_IGNORED; a write that changes no RW field only acknowledges W1C bits; with
the journal FULL a change is refused with JOURNAL_FULL; else it is journaled with its old and new value, and takes effect (R550). A write
of a keep register is refused under WP_N or when worn, and a change waits its turn: RETRY by a path that does not wait, else its journal
page and its own are queued (R458). -/
def Obligations.RegisterRowsWrite : Prop :=
  (∀ (s : State) (p : Path) (off n : Nat) (v : Word), exec (.registerWrite p off v) s = .next (s.writeRow p off v) ∧
    exec (.lceCfgWrite p v) s = .next (s.writeRow p 0x020008 v) ∧ exec (.llcCfgWrite p v) s = .next (s.writeRow p 0x050008 v) ∧
    exec (.bobModeWrite p v) s = .next (s.writeRow p 0x0C0008 v) ∧ (n < 8192 → exec (.fwpWrite p n v) s = .next (s.writeRow p (0x800000 + 8 * n) v)) ∧
    (n < 8 → exec (.ethPortCfgWrite p n v) s = .next (s.writeRow p (0x011000 + 0x1000 * n) v)) ∧
    (n < 512 → exec (.pmcValueRead p n) s = .next (s.readRow p (0x141000 + 8 * n))) ∧
    (n < 9 → exec (.basRead p n) s = .next (s.readRow p (0x081018 + 0x1000 * n)))) ∧
  (∀ c ∈ [(Instr.shtConnCtlReset, 0x031020, fun v : Word => v.bit 0), (.dieFail, 0x160028, fun v => v.field 9 8 == 1), (.dieReturn, 0x160028, fun v => v.field 9 8 == 2),
      (.channelErase, 0x160040, fun v => v.field 9 8 == 1), (.channelReturn, 0x160040, fun v => v.field 9 8 == 2),
      (.wayLock, 0x050028, fun v => v.field 14 12 == 1), (.wayUnlock, 0x050028, fun v => v.field 14 12 == 2), (.wayReturn, 0x050028, fun v => v.field 14 12 == 3),
      (.wayDisable, 0x050028, fun v => v.field 14 12 == 4), (.clean, 0x050040, fun v => v.field 2 0 == 1), (.cleanInv, 0x050040, fun v => v.field 2 0 == 2),
      (.discard, 0x050040, fun v => v.field 2 0 == 3), (.lockFill, 0x050040, fun v => v.field 2 0 == 4), (.bobbinReset, 0x0C0038, fun v => v.bit 0),
      (.thmSweepStart, 0x120028, fun v => v.bit 0)],
    ∀ (s : State) (p : Path) (v : Word), (c.2.2 v = true → exec (c.1 p v) s = .next (s.writeRow p c.2.1 v)) ∧ (c.2.2 v = false → exec (c.1 p v) s = .next s)) ∧
  (∀ (s : State) (p : Path) (off : Nat) (v : Word), s.pathOpen p = false → s.writeRow p off v = s ∧ s.readRow p off = s) ∧
  (∀ (s : State) (p : Path) (off : Nat) (v : Word), s.pathOpen p = true →
    (p ≠ .smbus → s.writeRow p off v = (s.writeReg p 0 off v).2) ∧
    (∀ (e : WriteEnd) (u : State), s.writeReg .smbus smbusWaiter off v = (e, u) → p = .smbus → s.writeRow p off v = { u with mbx := { u.mbx with
      smb := { u.mbx.smb with regStatus := (match e with | .done x => x | .queued => .ok) } } })) ∧
  (∀ (s : State) (p : Path) (w off : Nat) (v : Word) (d : RegDesc), off < 0x800000 → regDesc off = some d →
    (s.reach p off = false → s.writeReg p w off v = (.done .unavailable, s)) ∧
    (s.reach p off = true → bobWindow off = true → s.writeReg p w off v = (.done (s.writeWindow p off v).1, (s.writeWindow p off v).2)) ∧
    (s.reach p off = true → bobWindow off = false →
      (d.rw + d.kp + d.w1c = 0 → d.wo = false → s.writeReg p w off v = (.done .denied, s)) ∧
      (d.rw + d.kp + d.w1c ≠ 0 ∨ d.wo = true → d.lk = true → s.kept.factory = false → s.writeReg p w off v = (.done .denied, s)) ∧
      (d.rw + d.kp + d.w1c ≠ 0 ∨ d.wo = true → d.lk = false ∨ s.kept.factory = true →
        (s.deadWindow off = true → s.writeReg p w off v = (.done .ok, s)) ∧
        (s.deadWindow off = false → d.kp ≠ 0 → s.writeReg p w off v = s.writeKeep (s.pathAuthor p) (pathRetries p) w off d v) ∧
        (s.deadWindow off = false → d.kp = 0 → s.writeReg p w off v =
          (.done (s.writeWord (s.pathAuthor p) off d v).1, (s.writeWord (s.pathAuthor p) off d v).2))))) ∧
  (∀ (s u j : State) (a : Author) (off : Nat) (v : Word) (d : RegDesc) (same : Bool),
    same = (!d.wo && (s.view off ^^^ v) &&& word d.rw == 0) → j = s.jChange a false off (leBytes 8 (s.view off).toNat) (leBytes 8 v.toNat) →
    ((d.inRange v && s.related off v) = false → s.writeWord a off d v = (.ok, s.ignoredWrite off)) ∧
    ((d.inRange v && s.related off v) = true →
      (same = true → s.writeWord a off d v = (.ok, s.acknowledge off d v)) ∧
      (same = false → s.kept.closed = true → s.writeWord a off d v = (.unavailable, s)) ∧
      (same = false → s.kept.closed = false →
        (s.jnlFull = true → s.writeWord a off d v = (.journalFull, s.jRefuse)) ∧
        (s.jnlFull = false → s.regEffect (a.iface == 4) off d v = none → s.writeWord a off d v = (.ok, s.ignoredWrite off)) ∧
        (s.jnlFull = false → s.regEffect (a.iface == 4) off d v = some u →
          (d.wo = false → u.view off = s.view off → s.writeWord a off d v = (.ok, u)) ∧
          (d.wo = true ∨ u.view off ≠ s.view off → s.writeWord a off d v = (.ok, (j.regEffect (a.iface == 4) off d v).getD j)))))) ∧
  (∀ (s : State) (a : Author) (retry : Bool) (w off : Nat) (v x : Word) (d : RegDesc), x = (s.kpCurrent off &&& ~~~(word d.kp)) ||| (v &&& word d.kp) →
    (s.kept.wp = true → s.writeKeep a retry w off d v = (.done .writeProtected, s.count (Reg.kepCount 4) 1)) ∧
    (s.kept.wp = false → 100000 ≤ s.kept.counts.get off 0 → s.writeKeep a retry w off d v = (.done .keepWorn, s.count (Reg.kepCount 5) 1)) ∧
    (s.kept.wp = false → s.kept.counts.get off 0 < 100000 →
      ((d.inRange v && s.related off v) = false → s.writeKeep a retry w off d v = (.done .ok, s.ignoredWrite off)) ∧
      ((d.inRange v && s.related off v) = true →
        (x = s.kpCurrent off → s.writeKeep a retry w off d v = (.done .ok, s)) ∧
        (x ≠ s.kpCurrent off → s.kept.closed = true → s.writeKeep a retry w off d v = (.done .unavailable, s)) ∧
        (x ≠ s.kpCurrent off → s.kept.closed = false → s.jnlFull = true → s.writeKeep a retry w off d v = (.done .journalFull, s.jRefuse)) ∧
        (x ≠ s.kpCurrent off → s.kept.closed = false → s.jnlFull = false →
          (retry = true → 31 < s.kept.queue.length → s.writeKeep a retry w off d v = (.done .retry, s.count (Reg.kepCount 6) 1)) ∧
          (retry = false ∨ s.kept.queue.length ≤ 31 → s.writeKeep a retry w off d v = (.queued, { s with kept := { s.kept with
            queue := s.kept.queue ++ [.journal (s.jEntry a false off .ok (leBytes 8 (s.kpCurrent off).toNat) (leBytes 8 x.toNat)) w, .regPage off x w] } }))))))

/-- What the sequencer's rows, its requests, rail faults, hold-up save and VSTBY do. Requests by PB_N, MRST and HOLD_N act by the step
(R480 to R482): PB_N held 50 ms to 4 s asks for on at step 0 and from 13, else for off; MRST locks the console. The work of each step ends
and releases SEQSYNC (R475, R477), but a first sweep above the throttle point aborts step 2 (R478); the next step follows SEQSYNC, step 0
follows 15; a step that times out is aborted, counted and raised (R478). A rest step is left by SEQSYNC (R479); rails fall one by one
(R475); grace, off time and restart expire (R479, R483, R485). A rail fault is recorded where it is the first and the keep is open (log
entry 192), raised, counted, and starts a local sequence (R486). VSTBY's loss leaves the device off with the keep's queue and the
mailboxes' console gone (R490); VSTBY_ON resets the POR registers and enters STANDBY with the off time running (R553). -/
def Obligations.PowerSequenceAdvances : Prop :=
  (∀ (s : State) (n : Nat), s.power ≠ .off → (50 ≤ n → n ≤ 4000 → s.stepNo = 0 ∨ 13 ≤ s.stepNo → exec (.pbRelease n) s = .next s.askOn) ∧
    (50 ≤ n → n ≤ 4000 → s.stepNo ≠ 0 → s.stepNo < 13 → exec (.pbRelease n) s = .next (s.askOff 1)) ∧
    (n < 50 ∨ 4000 < n ∧ n < 8000 → exec (.pbRelease n) s = .next (s.count (Reg.pwrCount 6) 1)) ∧ (8000 ≤ n → exec (.pbRelease n) s = .next s)) ∧
  (∀ s : State, s.power ≠ .off → exec .pbForcedOff s = .next (s.askOff 2) ∧ exec .holdRise s = .next (s.clrFlag Reg.pwrStatus 8)) ∧
  (∀ s t : State, s.power ≠ .off → s.stepNo ≠ 0 → t = { s with mbx := { s.mbx with console := none }, pwr := { s.pwr with onReq := true } } →
    exec .mrst s = .next (t.askOff 7)) ∧
  (∀ s t : State, s.power ≠ .off → s.stepNo = 0 → t = State.islandReset { s with mbx := { s.mbx with console := none } } →
    exec .mrst s = .next { t with
      mbx := { t.mbx with smb := { mailbox := 0, buffer := 0, offset := 0, regAddr := 0, regStatus := .ok, out := [] } }
      pwr := { t.pwr with autoDue := none, onReq := false } }) ∧
  (∀ s : State, s.power = .off → ∀ c ∈ [Instr.pbRelease 100, .pbForcedOff, .holdSave, .holdRise, .seqAdvance, .seqRestLeave, .stepTimeout, .stepWorkDone .plain],
    exec c s = .next s) ∧
  (∀ s t : State, s.power ≠ .off → t = s.setFlag Reg.pwrStatus 8 → (s.stepNo = 0 → exec .holdSave s = .next t) ∧
    (s.stepNo ≠ 0 → s.local' = true ∨ s.stepNo = 15 ∨ s.stepNo = 14 ∧ t.closeKeep.pwr.forced = true →
      exec .holdSave s = .next t.closeKeep) ∧
    (1 ≤ s.stepNo → s.stepNo ≤ 11 → s.local' = false → exec .holdSave s = .next (t.closeKeep.stopAfter 3)) ∧
    (s.stepNo = 12 ∨ s.stepNo = 13 ∨ s.stepNo = 14 ∧ t.closeKeep.pwr.forced = false → s.local' = false → exec .holdSave s = .next (t.closeKeep.localSequence 3))) ∧
  (∀ (s : State) (n k : Nat), s.power ≠ .off → n = s.stepNo →
    (s.pwr.descent = .saving → exec (.stepWorkDone (.flushed k)) s = .next (s.saveDone k)) ∧
    (∀ d : Nat, s.pwr.descent = .rails d → n = 15 → s.pwr.rails = 0 → s.pwr.hold = true → s.local' = false →
      exec (.stepWorkDone .plain) s = .next s.workDone)) ∧
  (∀ (s : State) (n : Nat), s.power ≠ .off → n = s.stepNo → s.pwr.descent = .none → s.pwr.hold = true → s.local' = false →
    (∀ (a b c : Nat) (e : Bool), n = 1 → exec (.stepWorkDone (.straps a b c e)) s =
      .next ((({ s with pwr := { s.pwr with testEn := e } } : State).wr Reg.glbStrap (word (a % 4 + 4 * (b % 64) + 256 * (c % 8)))).workDone)) ∧
    (∀ (t : State) (l : List Int), n = 2 → t = s.takeSweep l →
      (t.aboveThrottle l = false → exec (.stepWorkDone (.sweep l)) s = .next t.workDone) ∧
      (t.aboveThrottle l = true → exec (.stepWorkDone (.sweep l)) s = .next (((t.raise 0xC004 t.self 2).count (Reg.pwrCount 5) 1).localSequence 6))) ∧
    (3 ≤ n → n ≤ 8 → exec (.stepWorkDone .plain) s = .next ((s.railsUp (railsAfter n)).workDone)) ∧
    (n = 9 ∨ n = 10 → exec (.stepWorkDone .plain) s = .next s.workDone) ∧
    (∀ (t : State) (x : SelfTest), n = 11 → s.boot.loading = false → s.pwr.held = true ∨ s.flag Reg.plcCeilingOvr 0 = true → t = s.takeTest x false →
      exec (.stepWorkDone (.selftest x)) s = .next (State.workDone (if t.boot.active = 2 then t else t.firmwareUp))) ∧
    (n = 13 → s.pwr.refuse ≠ none → s.host.ops = [] → s.pwr.forced = true ∨ s.forksCovered = true →
      exec (.stepWorkDone .plain) s = .next s.quiesced.workDone) ∧
    (n = 14 → s.pwr.forced = false → exec (.stepWorkDone .plain) s = .next s.saveOrderly.workDone) ∧
    (∀ k : Nat, n = 14 → s.pwr.forced = true → exec (.stepWorkDone (.flushed k)) s = .next ((s.saveForced k).workDone))) ∧
  (∀ s : State, s.power ≠ .off → s.pwr.hold = false → (s.stepNo = 15 → exec .seqAdvance s = .next (s.enterStep 0)) ∧
    (s.stepNo ≠ 0 → s.stepNo ≠ 12 → s.stepNo ≠ 15 → exec .seqAdvance s = .next (s.enterStep (s.stepNo + 1)))) ∧
  (∀ (s : State) (n : Nat), s.power ≠ .off → s.local' = false → s.stepTimeout s.stepNo = some n → s.pwr.stepAt + n ≤ s.now →
    s.overtaken (s.pwr.stepAt + n) s.advances = false →
    exec .stepTimeout s = .next (((s.raise 0xC004 s.self s.stepNo).count (Reg.pwrCount 5) 1).localSequence 6)) ∧
  (∀ s : State, s.power ≠ .off → s.local' = false → (s.stepNo = 0 → s.pwr.deaf = none → exec .seqRestLeave s = .next (s.enterStep 1)) ∧
    (s.stepNo = 12 → s.pwr.hold = true → exec .seqRestLeave s = .next (s.enterStep 13)) ∧
    (s.stepNo = 12 → s.pwr.hold = false → exec .seqRestLeave s =
      .next (State.enterStep { s with pwr := { s.pwr with cause := 1, causeStep := 12, forced := false } } 13))) ∧
  (∀ (s : State) (d : Nat), s.pwr.deaf = some d → d ≤ s.now → s.stepNo = 0 → exec .offTimeEnd s = .next { s with pwr := { s.pwr with
    deaf := none, onReq := false, hold := s.pwr.hold || s.pwr.onReq } }) ∧
  (∀ (s : State) (d : Nat), s.pwr.descent = .rails d → (s.pwr.rails ≠ 0 → exec .railDownNext s = .next s.lowerRail) ∧
    (s.pwr.rails = 0 → s.local' = true → exec .railDownNext s = .next (s.enterStep 0))) ∧
  (∀ (s : State) (d : Nat), s.pwr.graceDue = some d → d ≤ s.now →
    exec .quiesceGraceExpire s = .next { s with pwr := { s.pwr with graceDue := none, refuse := some s.now } }) ∧
  (∀ (s t : State) (d : Nat), s.pwr.autoDue = some d → d ≤ s.now → t = { s with pwr := { s.pwr with autoDue := none } } →
    (t.flag Reg.pwrStatus 8 = true ∨ t.stepNo ≠ 0 → exec .autoRestart s = .next t) ∧
    (t.flag Reg.pwrStatus 8 = false → t.stepNo = 0 → exec .autoRestart s = .next (((t.raise 0xC006 t.self 0).count (Reg.pwrCount 7) 1).askOn))) ∧
  (∀ (s t u : State) (k : Nat), k < 10 → t = ((s.setFlag (Reg.pwrRail k) 34).raise 0xC001 s.self k).count (Reg.pwrCount 4) 1 →
    u = (if s.railsSound = true ∧ s.kept.closed = false then
        (t.wr Reg.pwrLastFault (word (k + 2 ^ 8 * s.stepNo + 2 ^ 32 * s.fld Reg.kepCycle 31 0))).setFlag Reg.pwrStatus 10
      else t) →
    (s.monitored k = false ∨ s.flag (Reg.pwrRail k) 34 = true → exec (.railFault k) s = .next s) ∧
    (s.monitored k = true → s.flag (Reg.pwrRail k) 34 = false → s.local' = true ∨ s.stepNo = 15 → exec (.railFault k) s = .next u) ∧
    (s.monitored k = true → s.flag (Reg.pwrRail k) 34 = false → s.local' = false → s.stepNo ≠ 15 →
      exec (.railFault k) s = .next (u.localSequence 4))) ∧
  (∀ (s : State) (k : Nat), ∃ t, exec (.vstbyLoss k) s = .next t ∧ t.power = .off ∧ t.tick = 0 ∧ t.kept.queue = [] ∧ t.kept.smpQ = [] ∧ t.mbx.console = none ∧
    t.pwr.rails = 0 ∧ t.pwr.hold = false ∧ t.pwr.dramRst = false ∧ t.pwr.holdTest = false) ∧
  (∀ s : State, (s.power ≠ .off → exec .vstbyOn s = .next s) ∧ (s.power = .off → ∃ t, exec .vstbyOn s = .next t ∧ t.regs = s.porReset.regs ∧
    t.power = .standby ∧ t.tick = 0 ∧ t.pwr.hold = false ∧ t.pwr.deaf = some (t.now + ms 50) ∧ t.mbx.smb.out = []))
end

