-- ==== Sys2Proof/Laws/Answers.lean ====
section
/-!
SUPPORT. When the shared forms of a meaning answer a next state, and when they stop: `within` and the mailbox commands stop only where a
unit does not exist.
-/
namespace Sys2Proof.Machine
set_option Elab.async false

/-- A meaning within its units answers the state it computes. -/
theorem within_next {ok : Bool} (h : ok = true) (t : State) : within ok t = .next t := by rw [within, if_pos h]

/-- A meaning beyond the units stops. -/
theorem within_stops {ok : Bool} (h : ok = false) (t : State) : within ok t = .fault .noSuchUnit := by rw [within, if_neg (by simp [h])]

/-- A mailbox command on one of the 16 mailboxes answers a next state. -/
theorem State.command_safe (s : State) (m : Nat) (c : Command) (h : decide (m < 16) = true) : Safe (s.command m c) := by
  unfold State.command
  exact ⟨_, within_next h _⟩

/-- A mailbox command on any other stops. -/
theorem State.command_stops (s : State) (m : Nat) (c : Command) (h : decide (m < 16) = false) : s.command m c = .fault .noSuchUnit := by
  unfold State.command
  exact within_stops h _

/-- The rows that share a command code answer a next state on the 16 mailboxes. -/
theorem State.choice_safe (s : State) (m k : Nat) (c : Command) (h : decide (m < 16) = true) : Safe (s.choice m k c) := by
  unfold State.choice
  split
  · exact ⟨_, rfl⟩
  · exact State.command_safe _ _ _ h

/-- And stop on any other. -/
theorem State.choice_stops (s : State) (m k : Nat) (c : Command) (h : decide (m < 16) = false) : s.choice m k c = .fault .noSuchUnit := by
  unfold State.choice
  rw [if_neg (by simp [h])]
  exact State.command_stops s m c h

end Sys2Proof.Machine
end

