-- ==== Sys2Proof/Laws/Commands.lean ====
section
/-!
SUPPORT. What a mailbox command comes to once its request has its class and its checks pass, what a lace frame comes to once it is taken,
and what the rows of stitches come to once nothing holds them back.
-/
namespace Sys2Proof.Machine
set_option Elab.async false

/-- The request names its own mailbox. -/
theorem State.authorise_box {s t : State} {m cls : Nat} {b : Mailbox} {r : Req} (h : s.authorise m b cls = (.inl r, t)) : r.m = m := by
  unfold State.authorise at h
  repeat' split at h
  all_goals first | (cases h; rfl) | cases h

theorem State.Asked.box {s t : State} {m code cls : Nat} {r : Req} (h : s.Asked m code cls r t) : r.m = m := State.authorise_box h.right

/-- A command that is not journaled runs. -/
theorem State.Asked.runs {s t : State} {m : Nat} {r : Req} (c : Command) (h : s.Asked m c.code c.cls r t) (hm : c.mark = .no)
    (hc : c.check t r = none) (hw : c.wp t r = false) :
    s.command m c = .next (t.finishCmd c r (t.jEntry r.author true c.code .ok (c.old t r) (c.new t r))) := by
  have h1 : decide (m < 16) = true := by simpa using h.mailbox
  simp [State.command, within, h1, h.busy, h.code, h.fresh, h.serving, h.right, hc, hw, hm]

/-- A journaled command enters its change and runs. -/
theorem State.Asked.runs_journaled {s t : State} {m : Nat} {r : Req} (c : Command) (h : s.Asked m c.code c.cls r t) (hm : c.mark = .yes)
    (hc : c.check t r = none) (hw : (c.wp t r && t.kept.wp) = false) (hk : t.KeepOpen) :
    s.command m c = .next ((t.entered r c.code (c.old t r) (c.new t r)).finishCmd c r (t.jEntry r.author true c.code .ok (c.old t r) (c.new t r))) := by
  have h1 : decide (m < 16) = true := by simpa using h.mailbox
  simp [State.command, within, h1, h.busy, h.code, h.fresh, h.serving, h.right, hc, hm, hw, hk.room, hk.running, State.entered]

/-- A command that is journaled even where the journal is full runs. -/
theorem State.Asked.runs_always {s t : State} {m : Nat} {r : Req} (c : Command) (h : s.Asked m c.code c.cls r t) (hm : c.mark = .always)
    (hc : c.check t r = none) (hw : c.wp t r = false) (hk : t.kept.closed = false) :
    s.command m c = .next ((t.jAlways (t.jEntry r.author true c.code .ok (c.old t r) (c.new t r))).finishCmd c r (t.jEntry r.author true c.code .ok (c.old t r) (c.new t r))) := by
  have h1 : decide (m < 16) = true := by simpa using h.mailbox
  simp [State.command, within, h1, h.busy, h.code, h.fresh, h.serving, h.right, hc, hm, hw, hk]

/-- A command that ends at once with OK. -/
theorem State.finishCmd_done {s u : State} {c : Command} {r : Req} {j : JEntry} {resp : List Byte} (h : c.eff s r = .done .ok resp u) :
    s.finishCmd c r j = u.mbxComplete r.m .ok resp := by
  simp [State.finishCmd, h, State.jSecond]

/-- A command that runs on with OK. -/
theorem State.finishCmd_later {s u : State} {c : Command} {r : Req} {j : JEntry} {resp : List Byte} (h : c.eff s r = .later .ok resp u) :
    s.finishCmd c r j = u.running r.m resp := by
  simp [State.finishCmd, h, State.jSecond, State.running]

/-- A command that changes tables ends at once, or runs on until the standby has applied the change. -/
theorem State.finishCmd_changed {s : State} {c : Command} {r : Req} {j : JEntry} {l : List TableChange} (h : c.eff s r = s.changeEnd r l) :
    s.finishCmd c r j = s.changed r.m l := by
  unfold State.changed
  unfold State.changeEnd at h
  split at h
  · rw [State.finishCmd_done h, if_pos (by assumption)]
  · rw [State.finishCmd_later h, if_neg (by assumption)]

/-! ### What a journal entry leaves -/

/-- An occurrence on its way to the keep island changes nothing but the keep's queues and counters. -/
theorem State.raise_leaves {α : Type} (f : State → α) (hf : ∀ (s : State) k r, f { s with kept := k, regs := r } = f s) (s : State) (c x v : Nat) :
    f (s.raise c x v) = f s := by
  unfold State.raise State.raiseAt
  split
  · exact hf s _ s.regs
  · exact hf s s.kept _

/-- A journal entry changes nothing but the keep and counters. -/
theorem State.jAppend_leaves {α : Type} (f : State → α) (hf : ∀ (s : State) k r, f { s with kept := k, regs := r } = f s) (s : State) (e : JEntry) :
    f (s.jAppend e) = f s := by
  unfold State.jAppend
  simp only
  split
  · rw [State.raise_leaves f hf]; exact hf s _ _
  split
  · rw [State.raise_leaves f hf]; exact hf s _ _
  · exact hf s _ _

@[simp] theorem State.entered_lace (t : State) (r : Req) (c : Nat) (o n : List Byte) : (t.entered r c o n).lace = t.lace :=
  State.jAppend_leaves State.lace (fun _ _ _ => rfl) t _
@[simp] theorem State.entered_mem (t : State) (r : Req) (c : Nat) (o n : List Byte) : (t.entered r c o n).mem = t.mem :=
  State.jAppend_leaves State.mem (fun _ _ _ => rfl) t _
@[simp] theorem State.entered_host (t : State) (r : Req) (c : Nat) (o n : List Byte) : (t.entered r c o n).host = t.host :=
  State.jAppend_leaves State.host (fun _ _ _ => rfl) t _
@[simp] theorem State.entered_mbx (t : State) (r : Req) (c : Nat) (o n : List Byte) : (t.entered r c o n).mbx = t.mbx :=
  State.jAppend_leaves State.mbx (fun _ _ _ => rfl) t _
@[simp] theorem State.entered_filet (t : State) (r : Req) (c : Nat) (o n : List Byte) : (t.entered r c o n).filet = t.filet :=
  State.jAppend_leaves State.filet (fun _ _ _ => rfl) t _
@[simp] theorem State.entered_boot (t : State) (r : Req) (c : Nat) (o n : List Byte) : (t.entered r c o n).boot = t.boot :=
  State.jAppend_leaves State.boot (fun _ _ _ => rfl) t _
@[simp] theorem State.entered_pwr (t : State) (r : Req) (c : Nat) (o n : List Byte) : (t.entered r c o n).pwr = t.pwr :=
  State.jAppend_leaves State.pwr (fun _ _ _ => rfl) t _
@[simp] theorem State.entered_power (t : State) (r : Req) (c : Nat) (o n : List Byte) : (t.entered r c o n).power = t.power :=
  State.jAppend_leaves State.power (fun _ _ _ => rfl) t _
@[simp] theorem State.entered_now (t : State) (r : Req) (c : Nat) (o n : List Byte) : (t.entered r c o n).now = t.now :=
  State.jAppend_leaves State.now (fun _ _ _ => rfl) t _

@[simp] theorem State.entered_saOf (t : State) (r q : Req) (c : Nat) (o n : List Byte) : (t.entered r c o n).saOf q = t.saOf q := by
  simp [State.saOf]
@[simp] theorem State.entered_keySlot (t : State) (r : Req) (c k : Nat) (o n : List Byte) : (t.entered r c o n).keySlot k = t.keySlot k := by
  simp [State.keySlot]

/-- A frame that arrives on a connection passes its checks and is acted on; then the connection may have closed. -/
theorem State.Arrives.acts {s s1 : State} {e ftype : Nat} {d : Delivered} {h : FrameHdr} {c : Conn} {g : Grant} (a : s.Arrives e ftype d s1 h c g) :
    ∃ u, s.takeFront e = some (d, u) ∧ ∀ k, u.onConn e d h k = (k s1 c).closeDone h.connId := by
  obtain ⟨u, hf, rfl, hc, hg⟩ := a.front
  refine ⟨u, hf, fun k => ?_⟩
  have hs : u.sourceOk c d.peer.ip = true := by simp [State.sourceOk, hg, a.source]
  simp [State.onConn, hc, hs, a.state]

/-- A lace frame that arrives is acted on. -/
theorem State.LaceArrives.acts {s t : State} {n ltype : Nat} {f : LaceIn} {h : LaceHdr} (a : s.LaceArrives n ltype f h t)
    (body : LaceHdr → Option LaceBody) (k : State → LaceHdr → State) : s.laceRx n f ltype body k = k t h := by
  have h1 := a.trained.1
  have h2 := a.trained.2
  have h3 := a.header
  have h4 := a.passes
  have h5 := a.type
  have h6 := a.here
  have h7 := a.taken
  subst h3
  unfold State.laceHeard at h4
  unfold State.laceRx
  simp only [h1, h2, decide_false, Bool.or_self, Bool.false_eq_true, if_false, h4, if_true, h5, ne_eq, not_true_eq_false]
  cases hr : routeType ltype
  · simp [hr] at h7
    subst h7
    rfl
  · simp only [hr, if_true] at h7
    subst h7
    have := h6 hr
    simp only [Bool.not_true, Bool.false_eq_true, if_false]
    unfold State.laceTaken State.laceHeard at this ⊢
    simp only at this ⊢
    rw [if_pos this]

/-- A lace frame of another device goes on. -/
theorem State.LacePasses.acts {s t : State} {n ltype : Nat} {f : LaceIn} {h : LaceHdr} (a : s.LacePasses n ltype f h t) (hr : routeType ltype = true)
    (body : LaceHdr → Option LaceBody) (k : State → LaceHdr → State) :
    s.laceRx n f ltype body k = match body h with | some b => t.relay h b | none => t := by
  have h1 := a.trained.1
  have h2 := a.trained.2
  have h3 := a.header
  have h4 := a.passes
  have h5 := a.type
  have h6 := a.elsewhere
  have h7 := a.taken
  subst h3 h7
  unfold State.laceHeard at h4
  unfold State.laceRx
  simp only [h1, h2, decide_false, Bool.or_self, Bool.false_eq_true, if_false, h4, if_true, h5, ne_eq, not_true_eq_false, hr, Bool.not_true]
  unfold State.laceTaken State.laceHeard at h6 ⊢
  simp only at h6 ⊢
  rw [if_neg h6]
  all_goals cases body (parseLace f.bytes) <;> rfl

/-- A FILET_RESULT whose checks pass is carried out on the job it names. -/
theorem State.ResultReady.acts {s : State} {op subop id : Nat} {o : Op} {j : Option FJob} (a : s.ResultReady op subop o id j)
    (k : State → Op → Nat → Option FJob → State) : s.resultRow op subop k = k s o id j := by
  have h1 := a.ready.found
  have h2 := a.ready.queued
  have h3 := a.ready.begins
  have h4 := a.names
  have h5 := a.job
  subst h4 h5
  simp only [State.resultRow, h1, h2, h3, a.opcode, a.subop, a.form, a.passes]
  simp
  all_goals rfl

/-- A stitch that addresses this device is carried out. -/
theorem State.DeviceReady.row {s : State} {op code : Nat} {o : Op} (h : s.DeviceReady op code o) (ok : Op → Bool) (f : State → Op → State)
    (hk : ok o = true) : s.deviceRow op code ok f = f s o := by
  have h1 := h.ready.found
  have h2 := h.ready.queued
  have h3 := h.ready.begins
  simp [State.deviceRow, h1, h2, h3, h.opcode, h.passes, h.here, hk]

end Sys2Proof.Machine
end

