-- ==== Sys2Proof/Laws/Frame.lean ====
section
/-!
SUPPORT. What every operation leaves alone: `State.Frame w s t` says that `t` agrees with `s` in every part of the state that is not in the set
`w` (bits numbered by `Area.bit`). One lemma per operation in the files that follow, for every set that holds the parts it may change; the
sets for the commands are those of `Instr.mayChange`.
-/
namespace Sys2Proof.Machine
set_option Elab.async false

/-- The bit of a part in a set of parts. -/
def Area.bit : Area → Nat
  | .tick => 0
  | .regs => 1
  | .timers => 2
  | .power => 3
  | .host => 4
  | .journal => 5
  | .events => 6
  | .factory => 7
  | .kept => 8
  | .mbx => 9
  | .tables => 10
  | .keys => 11
  | .data => 12
  | .mem => 13
  | .lace => 14
  | .filet => 15
  | .bob => 16
  | .pwr => 17
  | .boot => 18
  | .seen => 19
  | .macs => 20
  | .adminKeys => 21

/-- The set of parts `a` lies in the set `b`. -/
abbrev Area.sub (a b : Nat) : Prop := a &&& b = a

theorem Area.sub_trans {a b c : Nat} (h : Area.sub a b) (g : Area.sub b c) : Area.sub a c := by
  show a &&& c = a
  rw [← h, Nat.and_assoc, g]

theorem Area.sub_bit {a b i : Nat} (h : Area.sub a b) (g : a.testBit i = true) : b.testBit i = true := by
  rw [← h, Nat.testBit_and, Bool.and_eq_true] at g
  exact g.2

/-- What the set `w` lets change in the keep island: the rest is as before. -/
structure KeptFrame (w : Nat) (k l : KeepSide) : Prop where
  journal : w.testBit 5 = true ∨ (l.journal = k.journal ∧ l.nextSeq = k.nextSeq)
  events : w.testBit 6 = true ∨ l.smpQ = k.smpQ
  factory : w.testBit 7 = true ∨ l.factory = k.factory
  adminKeys : w.testBit 21 = true ∨ l.adminKeys = k.adminKeys
  macs : w.testBit 20 = true ∨ l.macs = k.macs
  all : w.testBit 8 = true ∨ l = k

/-- The same of the memory side. -/
structure MemFrame (w : Nat) (a b : MemSide) : Prop where
  tables : w.testBit 10 = true ∨ (b.regions = a.regions ∧ b.grants = a.grants ∧ b.dir = a.dir)
  keys : w.testBit 11 = true ∨ b.keys = a.keys
  data : w.testBit 12 = true ∨ (b.med = a.med ∧ b.llc = a.llc ∧ b.evb = a.evb ∧ b.tier = a.tier ∧ b.intern = a.intern ∧ b.agents = a.agents)
  all : w.testBit 13 = true ∨ b = a

theorem KeptFrame.same {w : Nat} {k : KeepSide} : KeptFrame w k k := ⟨.inr ⟨rfl, rfl⟩, .inr rfl, .inr rfl, .inr rfl, .inr rfl, .inr rfl⟩
theorem MemFrame.same {w : Nat} {a : MemSide} : MemFrame w a a :=
  ⟨.inr ⟨rfl, rfl, rfl⟩, .inr rfl, .inr ⟨rfl, rfl, rfl, rfl, rfl, rfl⟩, .inr rfl⟩

theorem KeptFrame.trans {w : Nat} {j k l : KeepSide} (a : KeptFrame w j k) (b : KeptFrame w k l) : KeptFrame w j l where
  journal := b.journal.elim .inl fun x => a.journal.imp id fun y => ⟨x.1.trans y.1, x.2.trans y.2⟩
  events := b.events.elim .inl fun x => a.events.imp id fun y => x.trans y
  factory := b.factory.elim .inl fun x => a.factory.imp id fun y => x.trans y
  adminKeys := b.adminKeys.elim .inl fun x => a.adminKeys.imp id fun y => x.trans y
  macs := b.macs.elim .inl fun x => a.macs.imp id fun y => x.trans y
  all := b.all.elim .inl fun x => a.all.imp id fun y => x.trans y

theorem MemFrame.trans {w : Nat} {j k l : MemSide} (a : MemFrame w j k) (b : MemFrame w k l) : MemFrame w j l where
  tables := b.tables.elim .inl fun x => a.tables.imp id fun y => ⟨x.1.trans y.1, x.2.1.trans y.2.1, x.2.2.trans y.2.2⟩
  keys := b.keys.elim .inl fun x => a.keys.imp id fun y => x.trans y
  data := b.data.elim .inl fun x => a.data.imp id fun y =>
    ⟨x.1.trans y.1, x.2.1.trans y.2.1, x.2.2.1.trans y.2.2.1, x.2.2.2.1.trans y.2.2.2.1, x.2.2.2.2.1.trans y.2.2.2.2.1, x.2.2.2.2.2.trans y.2.2.2.2.2⟩
  all := b.all.elim .inl fun x => a.all.imp id fun y => x.trans y

/-- What the set `w` of parts lets change from `z` to `t`: every other part is as before. -/
structure State.Frame (w : Nat) (z t : State) : Prop where
  tick : w.testBit 0 = true ∨ t.tick = z.tick
  regs : w.testBit 1 = true ∨ t.regs = z.regs
  timers : w.testBit 2 = true ∨ t.timers = z.timers
  power : w.testBit 3 = true ∨ t.power = z.power
  host : w.testBit 4 = true ∨ t.host = z.host
  mbx : w.testBit 9 = true ∨ t.mbx = z.mbx
  lace : w.testBit 14 = true ∨ t.lace = z.lace
  filet : w.testBit 15 = true ∨ t.filet = z.filet
  bob : w.testBit 16 = true ∨ t.bob = z.bob
  pwr : w.testBit 17 = true ∨ t.pwr = z.pwr
  boot : w.testBit 18 = true ∨ t.boot = z.boot
  seen : w.testBit 19 = true ∨ t.seen = z.seen
  kept : KeptFrame w z.kept t.kept
  mem : MemFrame w z.mem t.mem

namespace State.Frame
variable {w0 : Nat} {z0 s t : State}

theorem refl (w : Nat) (s : State) : State.Frame w s s := by
  constructor <;> first | exact .same | exact .inr rfl

theorem kUpd {tick : Nat} {regs : Table Word} {free : Nat} {timers : Table Nat} {power : PowerSt} {host : HostSide} {kept : KeepSide} {mbx : MbxSide} {mem : MemSide} {lace : LaceSide} {filet : FiletSide} {bob : BobSide} {pwr : PowerSide} {boot : BootSide} {seen : Word}
    (h : State.Frame w0 z0 t)
    (h0 : w0.testBit 0 = true ∨ tick = t.tick := by first | exact .inl (Area.sub_bit (by assumption) rfl) | with_reducible exact .inr rfl)
    (h1 : w0.testBit 1 = true ∨ regs = t.regs := by first | exact .inl (Area.sub_bit (by assumption) rfl) | with_reducible exact .inr rfl)
    (h2 : w0.testBit 2 = true ∨ timers = t.timers := by first | exact .inl (Area.sub_bit (by assumption) rfl) | with_reducible exact .inr rfl)
    (h3 : w0.testBit 3 = true ∨ power = t.power := by first | exact .inl (Area.sub_bit (by assumption) rfl) | with_reducible exact .inr rfl)
    (h4 : w0.testBit 4 = true ∨ host = t.host := by first | exact .inl (Area.sub_bit (by assumption) rfl) | with_reducible exact .inr rfl)
    (h9 : w0.testBit 9 = true ∨ mbx = t.mbx := by first | exact .inl (Area.sub_bit (by assumption) rfl) | with_reducible exact .inr rfl)
    (h14 : w0.testBit 14 = true ∨ lace = t.lace := by first | exact .inl (Area.sub_bit (by assumption) rfl) | with_reducible exact .inr rfl)
    (h15 : w0.testBit 15 = true ∨ filet = t.filet := by first | exact .inl (Area.sub_bit (by assumption) rfl) | with_reducible exact .inr rfl)
    (h16 : w0.testBit 16 = true ∨ bob = t.bob := by first | exact .inl (Area.sub_bit (by assumption) rfl) | with_reducible exact .inr rfl)
    (h17 : w0.testBit 17 = true ∨ pwr = t.pwr := by first | exact .inl (Area.sub_bit (by assumption) rfl) | with_reducible exact .inr rfl)
    (h18 : w0.testBit 18 = true ∨ boot = t.boot := by first | exact .inl (Area.sub_bit (by assumption) rfl) | with_reducible exact .inr rfl)
    (h19 : w0.testBit 19 = true ∨ seen = t.seen := by first | exact .inl (Area.sub_bit (by assumption) rfl) | with_reducible exact .inr rfl)
    (hk : KeptFrame w0 t.kept kept := by
      first
      | with_reducible exact .same
      | (constructor <;> first
          | exact .inl (Area.sub_bit (by assumption) rfl)
          | with_reducible exact .inr rfl | with_reducible exact .inr ⟨rfl, rfl⟩))
    (hx : MemFrame w0 t.mem mem := by
      first
      | with_reducible exact .same
      | (constructor <;> first
          | exact .inl (Area.sub_bit (by assumption) rfl)
          | with_reducible exact .inr rfl | with_reducible exact .inr ⟨rfl, rfl, rfl⟩
          | with_reducible exact .inr ⟨rfl, rfl, rfl, rfl, rfl, rfl⟩)) :
    State.Frame w0 z0 (State.mk t.pending t.now tick regs free timers power host kept mbx mem lace filet bob pwr boot seen) where
  tick := h0.elim .inl fun x => h.tick.imp id fun y => x.trans y
  regs := h1.elim .inl fun x => h.regs.imp id fun y => x.trans y
  timers := h2.elim .inl fun x => h.timers.imp id fun y => x.trans y
  power := h3.elim .inl fun x => h.power.imp id fun y => x.trans y
  host := h4.elim .inl fun x => h.host.imp id fun y => x.trans y
  mbx := h9.elim .inl fun x => h.mbx.imp id fun y => x.trans y
  lace := h14.elim .inl fun x => h.lace.imp id fun y => x.trans y
  filet := h15.elim .inl fun x => h.filet.imp id fun y => x.trans y
  bob := h16.elim .inl fun x => h.bob.imp id fun y => x.trans y
  pwr := h17.elim .inl fun x => h.pwr.imp id fun y => x.trans y
  boot := h18.elim .inl fun x => h.boot.imp id fun y => x.trans y
  seen := h19.elim .inl fun x => h.seen.imp id fun y => x.trans y
  kept := h.kept.trans hk
  mem := h.mem.trans hx

theorem kIte {c : Prop} [Decidable c] {a b : State} (ha : State.Frame w0 z0 a) (hb : State.Frame w0 z0 b) : State.Frame w0 z0 (if c then a else b) := by
  split <;> assumption

theorem kFoldl {α : Type} {f : State → α → State} (l : List α) (h : State.Frame w0 z0 s) (hf : ∀ t x, State.Frame w0 z0 t → State.Frame w0 z0 (f t x)) :
    State.Frame w0 z0 (l.foldl f s) := by
  induction l generalizing s with
  | nil => exact h
  | cons x l ih => exact ih (hf _ _ h)

theorem kSnd {α : Type} {p : α × State} {a : α} {u : State} (e : p = (a, u)) (h : State.Frame w0 z0 p.2) : State.Frame w0 z0 u := by
  subst e; exact h

/-- An operation that may not answer: where it answers, it holds the frame. -/
def Opt (w0 : Nat) (z0 : State) (o : Option State) : Prop := ∀ u, o = some u → State.Frame w0 z0 u

/-- The same of one that answers a value too. -/
def OptP {α : Type} (w0 : Nat) (z0 : State) (o : Option (α × State)) : Prop := ∀ r, o = some r → State.Frame w0 z0 r.2

theorem optNone : Opt w0 z0 none := by intro u h; cases h
theorem optSome (h : State.Frame w0 z0 s) : Opt w0 z0 (some s) := by intro u e; cases e; exact h
theorem optIte {c : Prop} [Decidable c] {a b : Option State} (ha : Opt w0 z0 a) (hb : Opt w0 z0 b) : Opt w0 z0 (if c then a else b) := by
  split <;> assumption
theorem ofOpt {o : Option State} {u : State} (e : o = some u) (h : Opt w0 z0 o) : State.Frame w0 z0 u := h u e
theorem optPNone {α : Type} : OptP (α := α) w0 z0 none := by intro u h; cases h
theorem optPSome {α : Type} {r : α × State} (h : State.Frame w0 z0 r.2) : OptP w0 z0 (some r) := by intro u e; cases e; exact h
theorem optPIte {α : Type} {c : Prop} [Decidable c] {a b : Option (α × State)} (ha : OptP w0 z0 a) (hb : OptP w0 z0 b) : OptP w0 z0 (if c then a else b) := by
  split <;> assumption
theorem ofOptP {α : Type} {o : Option (α × State)} {a : α} {u : State} (e : o = some (a, u)) (h : OptP w0 z0 o) : State.Frame w0 z0 u := h (a, u) e
theorem ofOptP' {α : Type} {o : Option (α × State)} {r : α × State} (e : o = some r) (h : OptP w0 z0 o) : State.Frame w0 z0 r.2 := h r e
theorem optMap {α : Type} {o : Option α} {f : α → State} (h : ∀ x, State.Frame w0 z0 (f x)) : Opt w0 z0 (o.map f) := by
  cases o with
  | none => exact optNone
  | some x => exact optSome (h x)
theorem optPMap {α β : Type} {o : Option α} {f : α → β × State} (h : ∀ x, State.Frame w0 z0 (f x).2) : OptP w0 z0 (o.map f) := by
  cases o with
  | none => exact optPNone
  | some x => exact optPSome (h x)
theorem optMapS {o : Option State} {f : State → State} (ho : Opt w0 z0 o) (h : ∀ x, State.Frame w0 z0 x → State.Frame w0 z0 (f x)) : Opt w0 z0 (o.map f) := by
  cases o with
  | none => exact optNone
  | some x => exact optSome (h x (ho x rfl))
theorem optPMapS {β : Type} {o : Option State} {f : State → β × State} (ho : Opt w0 z0 o) (h : ∀ x, State.Frame w0 z0 x → State.Frame w0 z0 (f x).2) :
    OptP w0 z0 (o.map f) := by
  cases o with
  | none => exact optPNone
  | some x => exact optPSome (h x (ho x rfl))
theorem optFindSome {α : Type} (l : List α) {f : α → Option State} (h : ∀ x, Opt w0 z0 (f x)) : Opt w0 z0 (l.findSome? f) := by
  induction l with
  | nil => exact optNone
  | cons x l ih =>
    intro u e
    rw [List.findSome?_cons] at e
    cases hx : f x with
    | none => rw [hx] at e; exact ih u e
    | some v => rw [hx] at e; exact h x u (hx.trans e)
theorem optOrElse {a : Option State} {b : Unit → Option State} (ha : Opt w0 z0 a) (hb : ∀ u, Opt w0 z0 (b u)) : Opt w0 z0 (a.orElse b) := by
  cases a with
  | none => exact hb ()
  | some u => exact ha
theorem optPGetD {α : Type} {o : Option (α × State)} {r : α × State} (h : OptP w0 z0 o) (hs : State.Frame w0 z0 r.2) : State.Frame w0 z0 (o.getD r).2 := by
  cases o with
  | none => exact hs
  | some u => exact h u rfl
theorem optGetD {o : Option State} (h : Opt w0 z0 o) (hs : State.Frame w0 z0 s) : State.Frame w0 z0 (o.getD s) := by
  cases o with
  | none => exact hs
  | some u => exact h u rfl
theorem iteP {α : Type} {c : Prop} [Decidable c] {a b : α × State} (ha : State.Frame w0 z0 a.2) (hb : State.Frame w0 z0 b.2) : State.Frame w0 z0 (if c then a else b).2 := by
  split <;> assumption
theorem foldlP {α β : Type} {f : β × State → α → β × State} {p : β × State} (l : List α) (h : State.Frame w0 z0 p.2)
    (hf : ∀ q x, State.Frame w0 z0 q.2 → State.Frame w0 z0 (f q x).2) : State.Frame w0 z0 (l.foldl f p).2 := by
  induction l generalizing p with
  | nil => exact h
  | cons x l ih => exact ih (hf _ _ h)
theorem foldlQ {α β : Type} {f : State × β → α → State × β} {p : State × β} (l : List α) (h : State.Frame w0 z0 p.1)
    (hf : ∀ q x, State.Frame w0 z0 q.1 → State.Frame w0 z0 (f q x).1) : State.Frame w0 z0 (l.foldl f p).1 := by
  induction l generalizing p with
  | nil => exact h
  | cons x l ih => exact ih (hf _ _ h)
theorem snd2 {α β : Type} {p : α × β × State} {a : α} {b : β} {u : State} (e : p = (a, b, u)) (h : State.Frame w0 z0 p.2.2) : State.Frame w0 z0 u := by
  subst e; exact h
/-- The end of a mailbox command's effect holds the frame. -/
def End (w0 : Nat) (z0 : State) : CmdEnd → Prop
  | .done _ _ t => State.Frame w0 z0 t
  | .later _ _ t => State.Frame w0 z0 t
theorem endDone {st : Status} {l : List Byte} (h : State.Frame w0 z0 s) : End w0 z0 (.done st l s) := h
theorem endLater {st : Status} {l : List Byte} (h : State.Frame w0 z0 s) : End w0 z0 (.later st l s) := h
theorem endIte {c : Prop} [Decidable c] {a b : CmdEnd} (ha : End w0 z0 a) (hb : End w0 z0 b) : End w0 z0 (if c then a else b) := by
  split <;> assumption
/-- A meaning's next state holds the frame. -/
def Ans (w0 : Nat) (z0 : State) (r : Result) : Prop := ∀ t, r = .next t → State.Frame w0 z0 t
theorem ansNext (h : State.Frame w0 z0 s) : Ans w0 z0 (.next s) := by intro t e; cases e; exact h
theorem ansWithin {ok : Bool} (h : State.Frame w0 z0 s) : Ans w0 z0 (within ok s) := by
  intro t e; unfold within at e; split at e
  · cases e; exact h
  · cases e
theorem ansIte {c : Prop} [Decidable c] {a b : Result} (ha : Ans w0 z0 a) (hb : Ans w0 z0 b) : Ans w0 z0 (if c then a else b) := by
  split <;> assumption
theorem pair {α : Type} {a : α} (h : State.Frame w0 z0 s) : State.Frame w0 z0 (a, s).2 := h

end State.Frame

/-- A part outside the set is the same. -/
theorem State.Frame.part {w : Nat} {s t : State} (h : State.Frame w s t) (p : Area) (hp : w.testBit p.bit = false) : p.same s t := by
  cases p <;> simp only [Area.bit] at hp <;> simp only [Area.same]
  · exact h.tick.resolve_left (by simp [hp])
  · exact h.regs.resolve_left (by simp [hp])
  · exact h.timers.resolve_left (by simp [hp])
  · exact h.power.resolve_left (by simp [hp])
  · exact h.host.resolve_left (by simp [hp])
  · exact h.kept.journal.resolve_left (by simp [hp])
  · exact h.kept.events.resolve_left (by simp [hp])
  · exact h.kept.factory.resolve_left (by simp [hp])
  · exact h.kept.all.resolve_left (by simp [hp])
  · exact h.mbx.resolve_left (by simp [hp])
  · exact h.mem.tables.resolve_left (by simp [hp])
  · exact h.mem.keys.resolve_left (by simp [hp])
  · exact h.mem.data.resolve_left (by simp [hp])
  · exact h.mem.all.resolve_left (by simp [hp])
  · exact h.lace.resolve_left (by simp [hp])
  · exact h.filet.resolve_left (by simp [hp])
  · exact h.bob.resolve_left (by simp [hp])
  · exact h.pwr.resolve_left (by simp [hp])
  · exact h.boot.resolve_left (by simp [hp])
  · exact h.seen.resolve_left (by simp [hp])
  · exact h.kept.macs.resolve_left (by simp [hp])
  · exact h.kept.adminKeys.resolve_left (by simp [hp])

end Sys2Proof.Machine
end

