-- ==== Sys2Proof/Laws/FrameOps.lean ====
section
/-!
SUPPORT. What the operations leave alone (Laws/Frame.lean): the shared operations.
-/
namespace Sys2Proof.Machine
set_option Elab.async false
open State.Frame

/-! ### Machine/Regs.lean -/

theorem State.wr_frame {w0 : Nat} {z0 : State} (s : State) (off : Nat) (v : Word) (hw : Area.sub 2 w0) (h_s : State.Frame w0 z0 s) :
    State.Frame w0 z0 (State.wr s off v) := by
  unfold State.wr
  try dsimp only
  with_reducible repeat' first | (refine kUpd ?_; assumption)

theorem State.setFld_frame {w0 : Nat} {z0 : State} (s : State) (off : Nat) (hi : Nat) (lo : Nat) (n : Nat) (hw : Area.sub 2 w0) (h_s : State.Frame w0 z0 s) :
    State.Frame w0 z0 (State.setFld s off hi lo n) := by
  unfold State.setFld
  try dsimp only
  with_reducible repeat' first | assumption | apply State.wr_frame

theorem State.setFlag_frame {w0 : Nat} {z0 : State} (s : State) (off : Nat) (b : Nat) (hw : Area.sub 2 w0) (h_s : State.Frame w0 z0 s) :
    State.Frame w0 z0 (State.setFlag s off b) := by
  unfold State.setFlag
  try dsimp only
  with_reducible repeat' first | assumption | apply State.setFld_frame

theorem State.clrFlag_frame {w0 : Nat} {z0 : State} (s : State) (off : Nat) (b : Nat) (hw : Area.sub 2 w0) (h_s : State.Frame w0 z0 s) :
    State.Frame w0 z0 (State.clrFlag s off b) := by
  unfold State.clrFlag
  try dsimp only
  with_reducible repeat' first | assumption | apply State.setFld_frame

theorem State.putFlag_frame {w0 : Nat} {z0 : State} (s : State) (off : Nat) (b : Nat) (v : Bool) (hw : Area.sub 2 w0) (h_s : State.Frame w0 z0 s) :
    State.Frame w0 z0 (State.putFlag s off b v) := by
  unfold State.putFlag
  try dsimp only
  with_reducible repeat' first | assumption | apply State.setFld_frame

theorem State.count_frame {w0 : Nat} {z0 : State} (s : State) (off : Nat) (n : Nat) (hw : Area.sub 2 w0) (h_s : State.Frame w0 z0 s) :
    State.Frame w0 z0 (State.count s off n) := by
  unfold State.count
  try dsimp only
  with_reducible repeat' first | assumption | apply State.wr_frame

theorem State.saturate_frame {w0 : Nat} {z0 : State} (s : State) (off : Nat) (hi : Nat) (lo : Nat) (hw : Area.sub 2 w0) (h_s : State.Frame w0 z0 s) :
    State.Frame w0 z0 (State.saturate s off hi lo) := by
  unfold State.saturate
  try dsimp only
  with_reducible repeat' first | assumption | apply State.setFld_frame | apply kIte

/-! ### Machine/Ops.lean -/

theorem State.arm_frame {w0 : Nat} {z0 : State} (s : State) (k : Nat) (ns : Nat) (hw : Area.sub 4 w0) (h_s : State.Frame w0 z0 s) :
    State.Frame w0 z0 (State.arm s k ns) := by
  unfold State.arm
  try dsimp only
  with_reducible repeat' first | (refine kUpd ?_; assumption)

theorem State.disarm_frame {w0 : Nat} {z0 : State} (s : State) (k : Nat) (hw : Area.sub 4 w0) (h_s : State.Frame w0 z0 s) :
    State.Frame w0 z0 (State.disarm s k) := by
  unfold State.disarm
  try dsimp only
  with_reducible repeat' first | (refine kUpd ?_; assumption)

theorem State.periodic_frame {w0 : Nat} {z0 : State} (s : State) (k : Nat) (ns : Nat) (f : State → State) (hw : Area.sub 4 w0) (h_s : State.Frame w0 z0 s) (hf : ∀ (y0 : State), State.Frame w0 z0 y0 → State.Frame w0 z0 (f y0)) :
    State.Frame w0 z0 (State.periodic s k ns f) := by
  unfold State.periodic
  try dsimp only
  with_reducible repeat' first | assumption | apply hf | apply State.arm_frame | apply kIte

theorem State.draw_frame {w0 : Nat} {z0 : State} (s : State) (hw : Area.sub 0 w0) (h_s : State.Frame w0 z0 s) :
    State.Frame w0 z0 (State.draw s).2 := by
  unfold State.draw
  try dsimp only
  with_reducible repeat' first | (refine kUpd ?_; assumption)

theorem State.draw256_frame {w0 : Nat} {z0 : State} (s : State) (hw : Area.sub 0 w0) (h_s : State.Frame w0 z0 s) :
    State.Frame w0 z0 (State.draw256 s).2 := by
  unfold State.draw256
  try dsimp only
  with_reducible repeat' first | (refine kUpd ?_; assumption)

theorem State.raiseAt_frame {w0 : Nat} {z0 : State} (s : State) (isl : Nat) (code : Nat) (src : Nat) (val : Nat) (hw : Area.sub 322 w0) (h_s : State.Frame w0 z0 s) :
    State.Frame w0 z0 (State.raiseAt s isl code src val) := by
  unfold State.raiseAt
  try dsimp only
  with_reducible repeat' first
    | assumption | exact Area.sub_trans (by decide) hw | apply State.count_frame | apply kIte | (refine kUpd ?_; assumption)

theorem State.raise_frame {w0 : Nat} {z0 : State} (s : State) (code : Nat) (src : Nat) (val : Nat) (hw : Area.sub 322 w0) (h_s : State.Frame w0 z0 s) :
    State.Frame w0 z0 (State.raise s code src val) := by
  unfold State.raise
  try dsimp only
  with_reducible repeat' first | assumption | apply State.raiseAt_frame

theorem State.raiseTile_frame {w0 : Nat} {z0 : State} (s : State) (code : Nat) (tile : Nat) (val : Nat) (hw : Area.sub 322 w0) (h_s : State.Frame w0 z0 s) :
    State.Frame w0 z0 (State.raiseTile s code tile val) := by
  unfold State.raiseTile
  try dsimp only
  with_reducible repeat' first | assumption | apply State.raiseAt_frame

theorem State.jAppend_frame {w0 : Nat} {z0 : State} (s : State) (e : JEntry) (hw : Area.sub 354 w0) (h_s : State.Frame w0 z0 s) :
    State.Frame w0 z0 (State.jAppend s e) := by
  unfold State.jAppend
  try dsimp only
  with_reducible repeat' first
    | exact Area.sub_trans (by decide) hw | apply State.count_frame | apply State.raise_frame | apply kIte | (refine kUpd ?_; assumption)

theorem State.jRefuse_frame {w0 : Nat} {z0 : State} (s : State) (hw : Area.sub 2 w0) (h_s : State.Frame w0 z0 s) :
    State.Frame w0 z0 (State.jRefuse s) := by
  unfold State.jRefuse
  try dsimp only
  with_reducible repeat' first | assumption | apply State.count_frame

theorem State.jAlways_frame {w0 : Nat} {z0 : State} (s : State) (e : JEntry) (hw : Area.sub 354 w0) (h_s : State.Frame w0 z0 s) :
    State.Frame w0 z0 (State.jAlways s e) := by
  unfold State.jAlways
  try dsimp only
  with_reducible repeat' first
    | assumption | exact Area.sub_trans (by decide) hw | apply State.jAppend_frame | apply State.count_frame | apply kIte

theorem State.jPlain_frame {w0 : Nat} {z0 : State} (s : State) (e : JEntry) (hw : Area.sub 354 w0) (h_s : State.Frame w0 z0 s) :
    State.Frame w0 z0 (State.jPlain s e) := by
  unfold State.jPlain
  try dsimp only
  with_reducible repeat' first
    | assumption | exact Area.sub_trans (by decide) hw | apply State.jAppend_frame | apply kIte

theorem State.jChange_frame {w0 : Nat} {z0 : State} (s : State) (a : Author) (cmd : Bool) (object : Nat) (old : List Byte) (new : List Byte) (hw : Area.sub 354 w0) (h_s : State.Frame w0 z0 s) :
    State.Frame w0 z0 (State.jChange s a cmd object old new) := by
  unfold State.jChange
  try dsimp only
  with_reducible repeat' first | assumption | apply State.jAppend_frame

/-! ### Machine/Records.lean -/

theorem State.putSlot_frame {w0 : Nat} {z0 : State} (s : State) (i : Nat) (x : SmpSlot) (hw : Area.sub 256 w0) (h_s : State.Frame w0 z0 s) :
    State.Frame w0 z0 (State.putSlot s i x) := by
  unfold State.putSlot
  try dsimp only
  with_reducible repeat' first | (refine kUpd ?_; assumption)

theorem State.commitSlot_frame {w0 : Nat} {z0 : State} (s : State) (i : Nat) (x : SmpSlot) (deferred : Nat) (hw : Area.sub 258 w0) (h_s : State.Frame w0 z0 s) :
    State.Frame w0 z0 (State.commitSlot s i x deferred) := by
  unfold State.commitSlot
  try dsimp only
  with_reducible repeat' first | assumption | exact Area.sub_trans (by decide) hw | apply State.putSlot_frame | apply State.count_frame

theorem State.commitOverflow_frame {w0 : Nat} {z0 : State} (s : State) (hw : Area.sub 256 w0) (h_s : State.Frame w0 z0 s) :
    State.Frame w0 z0 (State.commitOverflow s) := by
  unfold State.commitOverflow
  try dsimp only
  with_reducible repeat' first | (refine kUpd ?_; assumption)

theorem State.recordOcc_frame {w0 : Nat} {z0 : State} (s : State) (o : Occ) (hw : Area.sub 258 w0) (h_s : State.Frame w0 z0 s) :
    State.Frame w0 z0 (State.recordOcc s o) := by
  unfold State.recordOcc
  try dsimp only
  repeat' first
    | (with_reducible first
       | assumption | exact Area.sub_trans (by decide) hw | apply State.commitSlot_frame | apply State.putSlot_frame
       | apply State.count_frame | apply State.setFld_frame | apply State.commitOverflow_frame | apply kIte
       | (refine kUpd ?_; assumption))
    | split

theorem execSamplerOccurrence_frame {w0 : Nat} {z0 : State} (island : Nat) (s : State) (hw : Area.sub 322 w0) (h_s : State.Frame w0 z0 s) :
    State.Frame.Ans w0 z0 (execSamplerOccurrence island s) := by
  unfold execSamplerOccurrence
  try dsimp only
  repeat' first
    | (with_reducible first
       | assumption | exact Area.sub_trans (by decide) hw | apply State.count_frame | apply State.recordOcc_frame | apply ansWithin
       | apply kIte | (refine kUpd ?_; first | assumption | apply State.count_frame))
    | split

theorem execSamplerGapExpire_frame {w0 : Nat} {z0 : State} (slot : Nat) (s : State) (hw : Area.sub 258 w0) (h_s : State.Frame w0 z0 s) :
    State.Frame.Ans w0 z0 (execSamplerGapExpire slot s) := by
  unfold execSamplerGapExpire
  try dsimp only
  repeat' first
    | (with_reducible first
       | assumption | exact Area.sub_trans (by decide) hw | apply State.commitOverflow_frame | apply State.commitSlot_frame
       | apply ansWithin | apply kIte)
    | split

theorem State.commitAll_frame {w0 : Nat} {z0 : State} (s : State) (hw : Area.sub 258 w0) (h_s : State.Frame w0 z0 s) :
    State.Frame w0 z0 (State.commitAll s) := by
  unfold State.commitAll
  try dsimp only
  with_reducible repeat' first
    | assumption | exact Area.sub_trans (by decide) hw | intro _ | apply State.commitSlot_frame | apply State.commitOverflow_frame
    | apply kIte | apply kFoldl

theorem State.clearEnd_frame {w0 : Nat} {z0 : State} (s : State) (src : Nat) (cleared : Nat) (hw : Area.sub 258 w0) (h_s : State.Frame w0 z0 s) :
    State.Frame w0 z0 (State.clearEnd s src cleared) := by
  unfold State.clearEnd
  try dsimp only
  with_reducible repeat' first
    | assumption | exact Area.sub_trans (by decide) hw | intro _ | apply State.setFld_frame | apply State.clrFlag_frame
    | apply State.count_frame | apply State.recordOcc_frame | apply kFoldl | (refine kUpd ?_; assumption)

theorem State.clearBelow_frame {w0 : Nat} {z0 : State} (s : State) (n : Nat) (hw : Area.sub 258 w0) (h_s : State.Frame w0 z0 s) :
    State.Frame w0 z0 (State.clearBelow s n) := by
  unfold State.clearBelow
  try dsimp only
  with_reducible repeat' first
    | assumption | exact Area.sub_trans (by decide) hw | apply State.clrFlag_frame | (refine kUpd ?_; assumption)


theorem State.recordHeld_frame {w0 : Nat} {z0 : State} (s : State) (hw : Area.sub 258 w0) (h_s : State.Frame w0 z0 s) :
    State.Frame w0 z0 (State.recordHeld s) := by
  unfold State.recordHeld
  try dsimp only
  with_reducible repeat' first
    | assumption | exact Area.sub_trans (by decide) hw | intro _ | apply State.recordOcc_frame | apply kFoldl | (refine kUpd ?_; assumption)


theorem State.clearCut_frame {w0 : Nat} {z0 : State} (s : State) (hw : Area.sub 258 w0) (h_s : State.Frame w0 z0 s) :
    State.Frame w0 z0 (State.clearCut s) := by
  unfold State.clearCut
  try dsimp only
  with_reducible repeat' first
    | assumption | exact Area.sub_trans (by decide) hw | apply State.recordHeld_frame | apply State.clearBelow_frame | apply State.draw_frame | apply kIte


theorem State.settleSlot_frame {w0 : Nat} {z0 : State} (s : State) (i : Nat) (x : SmpSlot) (o : Option SmpRec) (hw : Area.sub 256 w0) (h_s : State.Frame w0 z0 s) :
    State.Frame w0 z0 (State.settleSlot s i x o) := by
  cases o with
  | none => exact h_s
  | some k => exact State.putSlot_frame _ _ _ hw h_s


theorem State.loseWork_frame {w0 : Nat} {z0 : State} (s : State) (hw : Area.sub 322 w0) (h_s : State.Frame w0 z0 s) :
    State.Frame w0 z0 (State.loseWork s) := by
  unfold State.loseWork
  try dsimp only
  with_reducible repeat' first
    | assumption | exact Area.sub_trans (by decide) hw | intro _ | apply State.clearBelow_frame | apply State.draw_frame | apply State.draw256_frame | apply State.settleSlot_frame | apply kFoldl | apply kIte | (refine kUpd ?_; first | assumption | apply kIte | apply kFoldl)


/-! ### Machine/Heat.lean -/

theorem State.wake_frame {w0 : Nat} {z0 : State} (s : State) (hw : Area.sub 131082 w0) (h_s : State.Frame w0 z0 s) :
    State.Frame w0 z0 (State.wake s) := by
  unfold State.wake
  try dsimp only
  with_reducible repeat' first
    | assumption | exact Area.sub_trans (by decide) hw | apply State.setFld_frame | apply State.clrFlag_frame | apply kIte
    | (refine kUpd ?_; first | apply State.setFlag_frame | apply kIte)

/-! ### Machine/Bobbin.lean -/

theorem State.putBob_frame {w0 : Nat} {z0 : State} (s : State) (b : Nat) (x : Bob) (hw : Area.sub 65536 w0) (h_s : State.Frame w0 z0 s) :
    State.Frame w0 z0 (State.putBob s b x) := by
  unfold State.putBob
  try dsimp only
  with_reducible repeat' first | (refine kUpd ?_; assumption)

theorem State.putWin_frame {w0 : Nat} {z0 : State} (s : State) (c : Nat) (w : PushWin) (hw : Area.sub 65536 w0) (h_s : State.Frame w0 z0 s) :
    State.Frame w0 z0 (State.putWin s c w) := by
  unfold State.putWin
  try dsimp only
  with_reducible repeat' first | (refine kUpd ?_; assumption)

theorem State.noCredit_frame {w0 : Nat} {z0 : State} (s : State) (b : Nat) (len : Nat) (st : Status) (hw : Area.sub 322 w0) (h_s : State.Frame w0 z0 s) :
    State.Frame w0 z0 (State.noCredit s b len st) := by
  unfold State.noCredit
  try dsimp only
  with_reducible repeat' first
    | assumption | exact Area.sub_trans (by decide) hw | apply State.count_frame | apply State.raise_frame | apply kIte

theorem State.levelIrq_frame {w0 : Nat} {z0 : State} (s : State) (b : Nat) (hw : Area.sub 2 w0) (h_s : State.Frame w0 z0 s) :
    State.Frame w0 z0 (State.levelIrq s b) := by
  unfold State.levelIrq
  try dsimp only
  with_reducible repeat' first | assumption | apply State.setFlag_frame | apply State.count_frame

theorem State.commitPkt_frame {w0 : Nat} {z0 : State} (s : State) (b : Nat) (p : BobPkt) (hw : Area.sub 65538 w0) (h_s : State.Frame w0 z0 s) :
    State.Frame w0 z0 (State.commitPkt s b p) := by
  unfold State.commitPkt
  try dsimp only
  with_reducible repeat' first
    | assumption | exact Area.sub_trans (by decide) hw | apply State.putBob_frame | apply State.count_frame | apply State.levelIrq_frame
    | apply kIte

theorem State.bobPush_frame {w0 : Nat} {z0 : State} (s : State) (b : Nat) (l : List Byte) (hw : Area.sub 65858 w0) (h_s : State.Frame w0 z0 s) :
    State.Frame w0 z0 (State.bobPush s b l).2 := by
  unfold State.bobPush
  try dsimp only
  repeat' first
    | (with_reducible first | assumption | exact Area.sub_trans (by decide) hw | apply State.noCredit_frame | apply State.commitPkt_frame)
    | split

theorem State.bobTake_frame {w0 : Nat} {z0 : State} (s : State) (b : Nat) (hw : Area.sub 65538 w0) (h_s : State.Frame w0 z0 s) :
    State.Frame.OptP w0 z0 (State.bobTake s b) := by
  unfold State.bobTake
  try dsimp only
  repeat' first
    | (with_reducible first
       | assumption | exact Area.sub_trans (by decide) hw | apply State.putBob_frame | apply State.count_frame | exact optPNone
       | apply optPSome | apply optPIte)
    | split

theorem State.packetStart_frame {w0 : Nat} {z0 : State} (s : State) (core : Nat) (value : Word) (hw : Area.sub 65858 w0) (h_s : State.Frame w0 z0 s) :
    State.Frame w0 z0 (State.packetStart s core value) := by
  unfold State.packetStart
  try dsimp only
  repeat' first
    | (with_reducible first
       | assumption | exact Area.sub_trans (by decide) hw | apply State.putWin_frame | apply State.count_frame
       | apply State.noCredit_frame | apply kIte)
    | split

theorem execPacketStart_frame {w0 : Nat} {z0 : State} (core : Nat) (value : Word) (s : State) (hw : Area.sub 65858 w0) (h_s : State.Frame w0 z0 s) :
    State.Frame.Ans w0 z0 (execPacketStart core value s) := by
  unfold execPacketStart
  try dsimp only
  with_reducible repeat' first | assumption | apply State.packetStart_frame | apply ansWithin

theorem State.pushData_frame {w0 : Nat} {z0 : State} (s : State) (core : Nat) (value : Word) (hw : Area.sub 65538 w0) (h_s : State.Frame w0 z0 s) :
    State.Frame w0 z0 (State.pushData s core value) := by
  unfold State.pushData
  try dsimp only
  with_reducible repeat' first
    | assumption | exact Area.sub_trans (by decide) hw | apply State.count_frame | apply State.putWin_frame | apply State.commitPkt_frame
    | apply kIte

theorem execPushData_frame {w0 : Nat} {z0 : State} (core : Nat) (value : Word) (s : State) (hw : Area.sub 65538 w0) (h_s : State.Frame w0 z0 s) :
    State.Frame.Ans w0 z0 (execPushData core value s) := by
  unfold execPushData
  try dsimp only
  with_reducible repeat' first | assumption | apply State.pushData_frame | apply ansWithin

theorem State.breakBob_frame {w0 : Nat} {z0 : State} (s : State) (b : Nat) (hw : Area.sub 65858 w0) (h_s : State.Frame w0 z0 s) :
    State.Frame w0 z0 (State.breakBob s b) := by
  unfold State.breakBob
  try dsimp only
  with_reducible repeat' first | assumption | exact Area.sub_trans (by decide) hw | apply State.putBob_frame | apply State.raise_frame

theorem State.pop_frame {w0 : Nat} {z0 : State} (s : State) (b : Nat) (out : CellOutcome) (hw : Area.sub 65858 w0) (h_s : State.Frame w0 z0 s) :
    State.Frame w0 z0 (State.pop s b out).2 := by
  unfold State.pop
  try dsimp only
  repeat' first
    | (with_reducible first
       | assumption | exact Area.sub_trans (by decide) hw | apply State.count_frame | apply State.breakBob_frame | apply State.raise_frame
       | apply State.putBob_frame | apply iteP | apply kIte)
    | split

theorem execPop_frame {w0 : Nat} {z0 : State} (core : Nat) (out : CellOutcome) (s : State) (hw : Area.sub 590146 w0) (h_s : State.Frame w0 z0 s) :
    State.Frame.Ans w0 z0 (execPop core out s) := by
  unfold execPop
  try dsimp only
  with_reducible repeat' first
    | assumption | exact Area.sub_trans (by decide) hw | apply ansWithin | (refine kUpd ?_; apply State.pop_frame)

theorem State.dropPkt_frame {w0 : Nat} {z0 : State} (s : State) (core : Nat) (value : Word) (hw : Area.sub 65538 w0) (h_s : State.Frame w0 z0 s) :
    State.Frame w0 z0 (State.dropPkt s core value) := by
  unfold State.dropPkt
  try dsimp only
  repeat' first
    | (with_reducible first | assumption | exact Area.sub_trans (by decide) hw | apply State.putBob_frame | apply State.count_frame | apply kIte)
    | split

theorem execDrop_frame {w0 : Nat} {z0 : State} (core : Nat) (value : Word) (s : State) (hw : Area.sub 65538 w0) (h_s : State.Frame w0 z0 s) :
    State.Frame.Ans w0 z0 (execDrop core value s) := by
  unfold execDrop
  try dsimp only
  with_reducible repeat' first | assumption | apply State.dropPkt_frame | apply ansWithin

theorem State.bobCfg0_frame {w0 : Nat} {z0 : State} (s : State) (v : Word) (hw : Area.sub 65536 w0) (h_s : State.Frame w0 z0 s) :
    State.Frame.Opt w0 z0 (State.bobCfg0 s v) := by
  unfold State.bobCfg0
  try dsimp only
  with_reducible repeat' first | assumption | apply State.putBob_frame | exact optNone | apply optSome | apply optIte

theorem State.bobCfg1_frame {w0 : Nat} {z0 : State} (s : State) (v : Word) (hw : Area.sub 65536 w0) (h_s : State.Frame w0 z0 s) :
    State.Frame.Opt w0 z0 (State.bobCfg1 s v) := by
  unfold State.bobCfg1
  try dsimp only
  with_reducible repeat' first | assumption | apply State.putBob_frame | exact optNone | apply optSome | apply optIte

theorem State.bobCtl_frame {w0 : Nat} {z0 : State} (s : State) (v : Word) (hw : Area.sub 65536 w0) (h_s : State.Frame w0 z0 s) :
    State.Frame w0 z0 (State.bobCtl s v) := by
  unfold State.bobCtl
  try dsimp only
  with_reducible repeat' first | assumption | apply State.putBob_frame | apply kIte

theorem execBobbinResetDone_frame {w0 : Nat} {z0 : State} (bob : Nat) (s : State) (hw : Area.sub 65536 w0) (h_s : State.Frame w0 z0 s) :
    State.Frame.Ans w0 z0 (execBobbinResetDone bob s) := by
  unfold execBobbinResetDone
  try dsimp only
  with_reducible repeat' first
    | assumption | intro _ | apply State.putBob_frame | apply State.putWin_frame | apply ansWithin | apply kIte | apply kFoldl

theorem State.bobEnter_frame {w0 : Nat} {z0 : State} (s : State) (mode : Nat) (hw : Area.sub 65538 w0) (h_s : State.Frame w0 z0 s) :
    State.Frame w0 z0 (State.bobEnter s mode) := by
  unfold State.bobEnter
  try dsimp only
  with_reducible repeat' first
    | assumption | exact Area.sub_trans (by decide) hw | intro _ | apply State.setFld_frame | apply State.putBob_frame
    | apply State.levelIrq_frame | apply kIte | apply kFoldl

theorem State.bobModeEffect_frame {w0 : Nat} {z0 : State} (s : State) (v : Word) (hw : Area.sub 65538 w0) (h_s : State.Frame w0 z0 s) :
    State.Frame w0 z0 (State.bobModeEffect s v) := by
  unfold State.bobModeEffect
  try dsimp only
  with_reducible repeat' first | assumption | apply State.bobEnter_frame | apply kIte

theorem execStaleTailExpire_frame {w0 : Nat} {z0 : State} (bob : Nat) (s : State) (hw : Area.sub 65858 w0) (h_s : State.Frame w0 z0 s) :
    State.Frame.Ans w0 z0 (execStaleTailExpire bob s) := by
  unfold execStaleTailExpire
  try dsimp only
  repeat' first
    | (with_reducible first
       | assumption | exact Area.sub_trans (by decide) hw | apply State.putBob_frame | apply State.setFlag_frame | apply State.count_frame
       | apply State.raise_frame | apply ansWithin | apply kIte)
    | split

theorem State.bobStart_frame {w0 : Nat} {z0 : State} (s : State) (hw : Area.sub 65538 w0) (h_s : State.Frame w0 z0 s) :
    State.Frame w0 z0 (State.bobStart s) := by
  unfold State.bobStart
  try dsimp only
  with_reducible repeat' first | exact Area.sub_trans (by decide) hw | apply State.setFld_frame | (refine kUpd ?_; assumption)

end Sys2Proof.Machine
end

