-- ==== Sys2Proof/Laws/FrameHost.lean ====
section
/-!
SUPPORT. What the operations leave alone (Laws/Frame.lean): ports, transport and alarms.
-/
namespace Sys2Proof.Machine
set_option Elab.async false
open State.Frame

/-! ### Machine/Wire.lean -/

theorem State.putLink_frame {w0 : Nat} {z0 : State} (s : State) (n : Nat) (l : LaceLink) (hw : Area.sub 16384 w0) (h_s : State.Frame w0 z0 s) :
    State.Frame w0 z0 (State.putLink s n l) := by
  unfold State.putLink
  try dsimp only
  with_reducible repeat' first | (refine kUpd ?_; assumption)

theorem State.putRoute_frame {w0 : Nat} {z0 : State} (s : State) (d : Nat) (r : Route) (hw : Area.sub 16384 w0) (h_s : State.Frame w0 z0 s) :
    State.Frame w0 z0 (State.putRoute s d r) := by
  unfold State.putRoute
  try dsimp only
  with_reducible repeat' first | (refine kUpd ?_; assumption)

theorem State.saveHoopTime_frame {w0 : Nat} {z0 : State} (s : State) (hw : Area.sub 256 w0) (h_s : State.Frame w0 z0 s) :
    State.Frame w0 z0 (State.saveHoopTime s) := by
  unfold State.saveHoopTime
  try dsimp only
  with_reducible repeat' first | (refine kUpd ?_; assumption)

theorem State.emitLace_frame {w0 : Nat} {z0 : State} (s : State) (n : Nat) (lseq : Nat) (f : LaceFrame) (hw : Area.sub 16386 w0) (h_s : State.Frame w0 z0 s) :
    State.Frame w0 z0 (State.emitLace s n lseq f) := by
  unfold State.emitLace
  try dsimp only
  with_reducible repeat' first
    | assumption | exact Area.sub_trans (by decide) hw | apply State.putRoute_frame | apply State.putLink_frame | apply State.count_frame
    | apply kIte | (refine kUpd ?_; apply kIte)

theorem State.pumpLink_frame {w0 : Nat} {z0 : State} (s : State) (n : Nat) (r0 : Nat) (hw : Area.sub 16386 w0) (h_s : State.Frame w0 z0 s) :
    State.Frame w0 z0 (State.pumpLink s n r0) := by
  induction r0 generalizing s n with
  | zero =>
    unfold State.pumpLink
    try dsimp only
    repeat' first
      | (with_reducible first
         | assumption | exact Area.sub_trans (by decide) hw | apply State.putLink_frame | apply State.emitLace_frame | apply kIte)
      | split
  | succ _ ih =>
    unfold State.pumpLink
    try dsimp only
    repeat' first
      | (with_reducible first
         | assumption | exact Area.sub_trans (by decide) hw | apply ih | apply State.putLink_frame | apply State.emitLace_frame
         | apply kIte)
      | split

theorem State.sendOn_frame {w0 : Nat} {z0 : State} (s : State) (n : Nat) (f : LaceFrame) (hw : Area.sub 16386 w0) (h_s : State.Frame w0 z0 s) :
    State.Frame w0 z0 (State.sendOn s n f) := by
  unfold State.sendOn
  try dsimp only
  with_reducible repeat' first | assumption | exact Area.sub_trans (by decide) hw | apply State.putLink_frame | apply State.pumpLink_frame

theorem State.sendPath_frame {w0 : Nat} {z0 : State} (s : State) (f : LaceFrame) (hw : Area.sub 16386 w0) (h_s : State.Frame w0 z0 s) :
    State.Frame w0 z0 (State.sendPath s f) := by
  unfold State.sendPath
  try dsimp only
  repeat' first | (with_reducible first | assumption | apply State.sendOn_frame) | split

theorem State.sendRoute_frame {w0 : Nat} {z0 : State} (s : State) (f : LaceFrame) (hw : Area.sub 16386 w0) (h_s : State.Frame w0 z0 s) :
    State.Frame w0 z0 (State.sendRoute s f) := by
  unfold State.sendRoute
  try dsimp only
  with_reducible repeat' first
    | assumption | exact Area.sub_trans (by decide) hw | apply State.putRoute_frame | apply State.count_frame | apply State.sendPath_frame
    | apply kIte

theorem State.routeRoom_frame {w0 : Nat} {z0 : State} (s : State) (d : Nat) (hw : Area.sub 16386 w0) (h_s : State.Frame w0 z0 s) :
    State.Frame w0 z0 (State.routeRoom s d) := by
  unfold State.routeRoom
  try dsimp only
  with_reducible repeat' first
    | assumption | exact Area.sub_trans (by decide) hw | intro _ | apply State.sendRoute_frame | apply State.putRoute_frame | apply kFoldl

theorem State.sendControl_frame {w0 : Nat} {z0 : State} (s : State) (d : Nat) (c : Control) (hw : Area.sub 16386 w0) (h_s : State.Frame w0 z0 s) :
    State.Frame w0 z0 (State.sendControl s d c) := by
  unfold State.sendControl
  try dsimp only
  with_reducible repeat' first | assumption | apply State.sendRoute_frame

theorem State.sendAll_frame {w0 : Nat} {z0 : State} (s : State) (c : Control) (hw : Area.sub 16386 w0) (h_s : State.Frame w0 z0 s) :
    State.Frame w0 z0 (State.sendAll s c) := by
  unfold State.sendAll
  try dsimp only
  with_reducible repeat' first | assumption | intro _ | apply State.sendControl_frame | apply kFoldl

theorem State.report_frame {w0 : Nat} {z0 : State} (s : State) (c : Control) (hw : Area.sub 16386 w0) (h_s : State.Frame w0 z0 s) :
    State.Frame w0 z0 (State.report s c) := by
  unfold State.report
  try dsimp only
  with_reducible repeat' first | assumption | apply State.sendControl_frame | apply kIte

theorem State.sendLeave_frame {w0 : Nat} {z0 : State} (s : State) (why : Nat) (hw : Area.sub 16386 w0) (h_s : State.Frame w0 z0 s) :
    State.Frame w0 z0 (State.sendLeave s why) := by
  unfold State.sendLeave
  try dsimp only
  with_reducible repeat' first | assumption | intro _ | apply State.sendControl_frame | apply kFoldl

theorem State.sendAnnounce_frame {w0 : Nat} {z0 : State} (s : State) (hw : Area.sub 16386 w0) (h_s : State.Frame w0 z0 s) :
    State.Frame w0 z0 (State.sendAnnounce s) := by
  unfold State.sendAnnounce
  try dsimp only
  with_reducible repeat' first | assumption | intro _ | apply State.sendOn_frame | apply kFoldl

/-! ### Machine/Eth.lean -/

theorem State.emit_frame {w0 : Nat} {z0 : State} (s : State) (p : Nat) (f : TxFrame) (sec : Option TxTag) (hw : Area.sub 18 w0) (h_s : State.Frame w0 z0 s) :
    State.Frame w0 z0 (State.emit s p f sec) := by
  unfold State.emit
  try dsimp only
  repeat' first
    | (with_reducible first | exact Area.sub_trans (by decide) hw | apply State.count_frame | (refine kUpd ?_; assumption))
    | split

theorem State.queueTx_frame {w0 : Nat} {z0 : State} (s : State) (p : Nat) (f : TxFrame) (hw : Area.sub 16 w0) (h_s : State.Frame w0 z0 s) :
    State.Frame w0 z0 (State.queueTx s p f) := by
  unfold State.queueTx
  try dsimp only
  with_reducible repeat' first | (refine kUpd ?_; assumption)

theorem State.sendPfc_frame {w0 : Nat} {z0 : State} (s : State) (p : Nat) (c : Nat) (quanta : Nat) (hw : Area.sub 18 w0) (h_s : State.Frame w0 z0 s) :
    State.Frame w0 z0 (State.sendPfc s p c quanta) := by
  unfold State.sendPfc
  try dsimp only
  with_reducible repeat' first | assumption | apply State.emit_frame | apply kIte

theorem State.xoffClass_frame {w0 : Nat} {z0 : State} (s : State) (p : Nat) (c : Nat) (hw : Area.sub 18 w0) (h_s : State.Frame w0 z0 s) :
    State.Frame w0 z0 (State.xoffClass s p c) := by
  unfold State.xoffClass
  try dsimp only
  with_reducible repeat' first | assumption | (refine kUpd ?_; apply State.sendPfc_frame)

theorem State.pfcClass_frame {w0 : Nat} {z0 : State} (s : State) (p : Nat) (c : Nat) (hw : Area.sub 18 w0) (h_s : State.Frame w0 z0 s) :
    State.Frame w0 z0 (State.pfcClass s p c) := by
  unfold State.pfcClass
  try dsimp only
  repeat' first
    | (with_reducible first
       | assumption | apply State.xoffClass_frame | apply kIte | (refine kUpd ?_; first | assumption | apply State.sendPfc_frame))
    | split

theorem State.pfcUpdate_frame {w0 : Nat} {z0 : State} (s : State) (p : Nat) (hw : Area.sub 18 w0) (h_s : State.Frame w0 z0 s) :
    State.Frame w0 z0 (State.pfcUpdate s p) := by
  unfold State.pfcUpdate
  try dsimp only
  with_reducible repeat' first | assumption | intro _ | apply State.pfcClass_frame | apply kIte | apply kFoldl

theorem State.ctrlUse_frame {w0 : Nat} {z0 : State} (s : State) (p : Nat) (hw : Area.sub 16 w0) (h_s : State.Frame w0 z0 s) :
    State.Frame w0 z0 (State.ctrlUse s p) := by
  unfold State.ctrlUse
  try dsimp only
  with_reducible repeat' first | (refine kUpd ?_; assumption)

theorem State.rxDrop_frame {w0 : Nat} {z0 : State} (s : State) (p : Nat) (cause : Nat) (hw : Area.sub 2 w0) (h_s : State.Frame w0 z0 s) :
    State.Frame w0 z0 (State.rxDrop s p cause) := by
  unfold State.rxDrop
  try dsimp only
  with_reducible repeat' first | assumption | apply State.count_frame | apply State.wr_frame

theorem State.rxCount_frame {w0 : Nat} {z0 : State} (s : State) (p : Nat) (f : EthFrame) (hw : Area.sub 2 w0) (h_s : State.Frame w0 z0 s) :
    State.Frame w0 z0 (State.rxCount s p f) := by
  unfold State.rxCount
  try dsimp only
  with_reducible repeat' first | assumption | apply State.count_frame

theorem State.sawPn_frame {w0 : Nat} {z0 : State} (s : State) (p : Nat) (f : EthFrame) (hw : Area.sub 16 w0) (h_s : State.Frame w0 z0 s) :
    State.Frame w0 z0 (State.sawPn s p f) := by
  unfold State.sawPn
  try dsimp only
  repeat' first | (with_reducible first | assumption | (refine kUpd ?_; assumption)) | split

theorem State.fecCount_frame {w0 : Nat} {z0 : State} (s : State) (p : Nat) (w : FecWord) (hw : Area.sub 18 w0) (h_s : State.Frame w0 z0 s) :
    State.Frame w0 z0 (State.fecCount s p w) := by
  unfold State.fecCount
  try dsimp only
  repeat' first
    | (with_reducible first
       | assumption | exact Area.sub_trans (by decide) hw | intro _ | apply State.count_frame | apply kIte | apply kFoldl
       | (refine kUpd ?_; apply State.count_frame))
    | split

theorem State.deliver_frame {w0 : Nat} {z0 : State} (s : State) (d : Delivered) (hw : Area.sub 18 w0) (h_s : State.Frame w0 z0 s) :
    State.Frame w0 z0 (State.deliver s d) := by
  unfold State.deliver
  try dsimp only
  with_reducible repeat' first
    | assumption | exact Area.sub_trans (by decide) hw | apply State.count_frame | apply State.pfcUpdate_frame
    | (refine kUpd ?_; assumption)

theorem State.answer_frame {w0 : Nat} {z0 : State} (s : State) (p : Nat) (mac : Nat) (ip : IpAddr) (b : TxBody) (hw : Area.sub 16 w0) (h_s : State.Frame w0 z0 s) :
    State.Frame w0 z0 (State.answer s p mac ip b) := by
  unfold State.answer
  try dsimp only
  with_reducible repeat' first | assumption | apply State.ctrlUse_frame | apply State.queueTx_frame

theorem State.pauseClass_frame {w0 : Nat} {z0 : State} (s : State) (p : Nat) (c : Nat) (q : Nat) (hw : Area.sub 18 w0) (h_s : State.Frame w0 z0 s) :
    State.Frame w0 z0 (State.pauseClass s p c q) := by
  unfold State.pauseClass
  try dsimp only
  with_reducible repeat' first | assumption | exact Area.sub_trans (by decide) hw | (refine kUpd ?_; apply State.count_frame)

theorem State.rxAccept_frame {w0 : Nat} {z0 : State} (s : State) (p : Nat) (f : EthFrame) (hw : Area.sub 18 w0) (h_s : State.Frame w0 z0 s) :
    State.Frame w0 z0 (State.rxAccept s p f) := by
  unfold State.rxAccept
  try dsimp only
  repeat' first
    | (with_reducible first
       | assumption | exact Area.sub_trans (by decide) hw | intro _ | apply State.rxCount_frame | apply State.pauseClass_frame
       | apply State.deliver_frame | apply State.answer_frame | apply kIte | apply kFoldl)
    | split

theorem State.received_frame {w0 : Nat} {z0 : State} (s : State) (p : Nat) (f : EthFrame) (hw : Area.sub 18 w0) (h_s : State.Frame w0 z0 s) :
    State.Frame w0 z0 (State.received s p f) := by
  unfold State.received
  try dsimp only
  with_reducible repeat' first
    | assumption | exact Area.sub_trans (by decide) hw | apply State.sawPn_frame | apply State.rxAccept_frame | apply State.rxDrop_frame
    | apply kIte

theorem execFrameReceive_frame {w0 : Nat} {z0 : State} (port : Nat) (f : EthFrame) (s : State) (hw : Area.sub 18 w0) (h_s : State.Frame w0 z0 s) :
    State.Frame.Ans w0 z0 (execFrameReceive port f s) := by
  unfold execFrameReceive
  try dsimp only
  with_reducible repeat' first
    | assumption | intro _ | apply State.fecCount_frame | apply State.received_frame | apply ansWithin | apply kIte | apply kFoldl

theorem execPfcReceive_frame {w0 : Nat} {z0 : State} (port : Nat) (classes : BitVec 8) (pause : PfcPause) (s : State) (hw : Area.sub 18 w0) (h_s : State.Frame w0 z0 s) :
    State.Frame.Ans w0 z0 (execPfcReceive port classes pause s) := by
  unfold execPfcReceive
  try dsimp only
  with_reducible repeat' first | assumption | apply State.received_frame | apply ansWithin | apply kIte

theorem execPfcPauseExpire_frame {w0 : Nat} {z0 : State} (port : Nat) (cls : Nat) (s : State) (hw : Area.sub 16 w0) (h_s : State.Frame w0 z0 s) :
    State.Frame.Ans w0 z0 (execPfcPauseExpire port cls s) := by
  unfold execPfcPauseExpire
  try dsimp only
  repeat' first | (with_reducible first | assumption | apply ansWithin | apply kIte | (refine kUpd ?_; assumption)) | split

theorem execPfcXoffRepeat_frame {w0 : Nat} {z0 : State} (port : Nat) (cls : Nat) (s : State) (hw : Area.sub 18 w0) (h_s : State.Frame w0 z0 s) :
    State.Frame.Ans w0 z0 (execPfcXoffRepeat port cls s) := by
  unfold execPfcXoffRepeat
  try dsimp only
  repeat' first
    | (with_reducible first | assumption | apply State.xoffClass_frame | apply ansWithin | apply kIte | (refine kUpd ?_; assumption))
    | split

theorem State.usePn_frame {w0 : Nat} {z0 : State} (s : State) (p : Nat) (slot : Nat) (a : MacSa) (hw : Area.sub 338 w0) (h_s : State.Frame w0 z0 s) :
    State.Frame w0 z0 (State.usePn s p slot a) := by
  unfold State.usePn
  try dsimp only
  with_reducible repeat' first | exact Area.sub_trans (by decide) hw | apply State.raise_frame | apply kIte | (refine kUpd ?_; assumption)

theorem State.holdTx_frame {w0 : Nat} {z0 : State} (s : State) (p : Nat) (hw : Area.sub 18 w0) (h_s : State.Frame w0 z0 s) :
    State.Frame w0 z0 (State.holdTx s p) := by
  unfold State.holdTx
  try dsimp only
  with_reducible repeat' first | assumption | exact Area.sub_trans (by decide) hw | (refine kUpd ?_; apply State.count_frame)

theorem execFrameTransmit_frame {w0 : Nat} {z0 : State} (port : Nat) (s : State) (hw : Area.sub 338 w0) (h_s : State.Frame w0 z0 s) :
    State.Frame.Ans w0 z0 (execFrameTransmit port s) := by
  unfold execFrameTransmit
  try dsimp only
  repeat' first
    | (with_reducible first
       | assumption | exact Area.sub_trans (by decide) hw | apply State.holdTx_frame | apply State.emit_frame | apply ansWithin
       | apply kIte | (refine kUpd ?_; first | assumption | apply State.usePn_frame))
    | split

theorem State.startTraining_frame {w0 : Nat} {z0 : State} (s : State) (p : Nat) (hw : Area.sub 18 w0) (h_s : State.Frame w0 z0 s) :
    State.Frame w0 z0 (State.startTraining s p) := by
  unfold State.startTraining
  try dsimp only
  with_reducible repeat' first | assumption | exact Area.sub_trans (by decide) hw | (refine kUpd ?_; apply State.putFlag_frame)

theorem execTrainTimeout_frame {w0 : Nat} {z0 : State} (port : Nat) (s : State) (hw : Area.sub 18 w0) (h_s : State.Frame w0 z0 s) :
    State.Frame.Ans w0 z0 (execTrainTimeout port s) := by
  unfold execTrainTimeout
  try dsimp only
  repeat' first
    | (with_reducible first
       | assumption | exact Area.sub_trans (by decide) hw | apply State.count_frame | apply State.startTraining_frame | apply ansWithin
       | apply kIte)
    | split

theorem State.greet_frame {w0 : Nat} {z0 : State} (s : State) (p : Nat) (hw : Area.sub 16 w0) (h_s : State.Frame w0 z0 s) :
    State.Frame w0 z0 (State.greet s p) := by
  unfold State.greet
  try dsimp only
  with_reducible repeat' first | assumption | apply State.queueTx_frame | apply kIte

theorem execPortLinkUp_frame {w0 : Nat} {z0 : State} (port : Nat) (s : State) (hw : Area.sub 18 w0) (h_s : State.Frame w0 z0 s) :
    State.Frame.Ans w0 z0 (execPortLinkUp port s) := by
  unfold execPortLinkUp
  try dsimp only
  with_reducible repeat' first
    | assumption | exact Area.sub_trans (by decide) hw | apply State.setFlag_frame | apply State.clrFlag_frame | apply State.greet_frame
    | apply State.pfcUpdate_frame | apply ansWithin | apply kIte | (refine kUpd ?_; apply State.setFld_frame)

theorem State.moveFrames_frame {w0 : Nat} {z0 : State} (s : State) (p : Nat) (hw : Area.sub 16 w0) (h_s : State.Frame w0 z0 s) :
    State.Frame w0 z0 (State.moveFrames s p) := by
  unfold State.moveFrames
  try dsimp only
  with_reducible repeat' first | (refine kUpd ?_; assumption)

theorem State.moveConns_frame {w0 : Nat} {z0 : State} (s : State) (p : Nat) (hw : Area.sub 18 w0) (h_s : State.Frame w0 z0 s) :
    State.Frame w0 z0 (State.moveConns s p) := by
  unfold State.moveConns
  try dsimp only
  with_reducible repeat' first
    | assumption | exact Area.sub_trans (by decide) hw | apply State.setFlag_frame | apply State.moveFrames_frame
    | (refine kUpd ?_; apply kIte)

theorem State.portDown_frame {w0 : Nat} {z0 : State} (s : State) (p : Nat) (cause : Nat) (locked : Nat) (hw : Area.sub 338 w0) (h_s : State.Frame w0 z0 s) :
    State.Frame w0 z0 (State.portDown s p cause locked) := by
  unfold State.portDown
  try dsimp only
  with_reducible repeat' first
    | assumption | exact Area.sub_trans (by decide) hw | apply State.clrFlag_frame | apply State.setFld_frame | apply State.setFlag_frame
    | apply State.raise_frame | apply State.moveConns_frame | (refine kUpd ?_; apply State.saturate_frame)

theorem execPortDown_frame {w0 : Nat} {z0 : State} (port : Nat) (lanes : LaneLoss) (s : State) (hw : Area.sub 338 w0) (h_s : State.Frame w0 z0 s) :
    State.Frame.Ans w0 z0 (execPortDown port lanes s) := by
  unfold execPortDown
  try dsimp only
  with_reducible repeat' first
    | assumption | exact Area.sub_trans (by decide) hw | apply State.portDown_frame | apply State.startTraining_frame | apply ansWithin
    | apply kIte

theorem execPortAdminDown_frame {w0 : Nat} {z0 : State} (port : Nat) (s : State) (hw : Area.sub 338 w0) (h_s : State.Frame w0 z0 s) :
    State.Frame.Ans w0 z0 (execPortAdminDown port s) := by
  unfold execPortAdminDown
  try dsimp only
  with_reducible repeat' first
    | assumption | exact Area.sub_trans (by decide) hw | apply State.portDown_frame | apply State.startTraining_frame | apply ansWithin
    | apply kIte

theorem State.ethPortCfgEffect_frame {w0 : Nat} {z0 : State} (s : State) (p : Nat) (v : Word) (hw : Area.sub 18 w0) (h_s : State.Frame w0 z0 s) :
    State.Frame w0 z0 (State.ethPortCfgEffect s p v) := by
  unfold State.ethPortCfgEffect
  try dsimp only
  with_reducible repeat' first
    | assumption | exact Area.sub_trans (by decide) hw | apply State.wr_frame | apply State.setFlag_frame
    | apply State.startTraining_frame | apply State.pfcUpdate_frame | apply kIte
    | (refine kUpd ?_; first | apply State.clrFlag_frame | apply kIte)

/-! ### Machine/Transport.lean -/

theorem State.putConn_frame {w0 : Nat} {z0 : State} (s : State) (id : Nat) (c : Conn) (hw : Area.sub 16 w0) (h_s : State.Frame w0 z0 s) :
    State.Frame w0 z0 (State.putConn s id c) := by
  unfold State.putConn
  try dsimp only
  with_reducible repeat' first | (refine kUpd ?_; assumption)

theorem State.modConn_frame {w0 : Nat} {z0 : State} (s : State) (id : Nat) (f : Conn → Conn) (hw : Area.sub 16 w0) (h_s : State.Frame w0 z0 s) :
    State.Frame w0 z0 (State.modConn s id f) := by
  unfold State.modConn
  try dsimp only
  with_reducible repeat' first | (refine kUpd ?_; assumption)

theorem State.sendConn_frame {w0 : Nat} {z0 : State} (s : State) (id : Nat) (c : Conn) (h : FrameHdr) (body : List Byte) (hw : Area.sub 16 w0) (h_s : State.Frame w0 z0 s) :
    State.Frame w0 z0 (State.sendConn s id c h body) := by
  unfold State.sendConn
  try dsimp only
  with_reducible repeat' first | assumption | apply State.queueTx_frame | apply State.modConn_frame

theorem State.sendAck_frame {w0 : Nat} {z0 : State} (s : State) (id : Nat) (hw : Area.sub 16 w0) (h_s : State.Frame w0 z0 s) :
    State.Frame w0 z0 (State.sendAck s id) := by
  unfold State.sendAck
  try dsimp only
  repeat' first | (with_reducible first | assumption | apply State.sendConn_frame) | split

theorem State.sendResetAs_frame {w0 : Nat} {z0 : State} (s : State) (port : Nat) (pcp : Nat) (peer : Peer) (h : FrameHdr) (reason : Nat) (nonce : Nat) (hw : Area.sub 18 w0) (h_s : State.Frame w0 z0 s) :
    State.Frame w0 z0 (State.sendResetAs s port pcp peer h reason nonce) := by
  unfold State.sendResetAs
  try dsimp only
  with_reducible repeat' first | assumption | exact Area.sub_trans (by decide) hw | apply State.queueTx_frame | apply State.count_frame

theorem State.sendReset_frame {w0 : Nat} {z0 : State} (s : State) (port : Nat) (pcp : Nat) (peer : Peer) (id : Nat) (reason : Nat) (nonce : Nat) (hw : Area.sub 18 w0) (h_s : State.Frame w0 z0 s) :
    State.Frame w0 z0 (State.sendReset s port pcp peer id reason nonce) := by
  unfold State.sendReset
  try dsimp only
  with_reducible repeat' first | assumption | apply State.sendResetAs_frame

theorem State.releaseBoxes_frame {w0 : Nat} {z0 : State} (s : State) (id : Nat) (c : Conn) (hw : Area.sub 512 w0) (h_s : State.Frame w0 z0 s) :
    State.Frame w0 z0 (State.releaseBoxes s id c) := by
  unfold State.releaseBoxes
  try dsimp only
  with_reducible repeat' first | (refine kUpd ?_; assumption)

theorem State.freeConn_frame {w0 : Nat} {z0 : State} (s : State) (id : Nat) (hw : Area.sub 41488 w0) (h_s : State.Frame w0 z0 s) :
    State.Frame w0 z0 (State.freeConn s id) := by
  unfold State.freeConn
  try dsimp only
  repeat' first
    | (with_reducible first | assumption | exact Area.sub_trans (by decide) hw | (refine kUpd ?_; apply State.releaseBoxes_frame))
    | split

theorem State.releaseFrames_frame {w0 : Nat} {z0 : State} (s : State) (id : Nat) (hw : Area.sub 16 w0) (h_s : State.Frame w0 z0 s) :
    State.Frame w0 z0 (State.releaseFrames s id) := by
  unfold State.releaseFrames
  try dsimp only
  with_reducible repeat' first | (refine kUpd ?_; assumption)

theorem State.resetConn_frame {w0 : Nat} {z0 : State} (s : State) (id : Nat) (reason : Nat) (hw : Area.sub 41490 w0) (h_s : State.Frame w0 z0 s) :
    State.Frame w0 z0 (State.resetConn s id reason) := by
  unfold State.resetConn
  try dsimp only
  repeat' first
    | (with_reducible first | assumption | exact Area.sub_trans (by decide) hw | apply State.freeConn_frame | apply State.sendResetAs_frame)
    | split

theorem State.shtDrop_frame {w0 : Nat} {z0 : State} (s : State) (e : Nat) (cause : Nat) (connId : Nat) (hw : Area.sub 2 w0) (h_s : State.Frame w0 z0 s) :
    State.Frame w0 z0 (State.shtDrop s e cause connId) := by
  unfold State.shtDrop
  try dsimp only
  with_reducible repeat' first | assumption | apply State.count_frame | apply State.wr_frame

theorem State.takeFront_frame {w0 : Nat} {z0 : State} (s : State) (e : Nat) (hw : Area.sub 18 w0) (h_s : State.Frame w0 z0 s) :
    State.Frame.OptP w0 z0 (State.takeFront s e) := by
  unfold State.takeFront
  try dsimp only
  repeat' first
    | (with_reducible first | assumption | apply State.pfcUpdate_frame | exact optPNone | apply optPSome | (refine kUpd ?_; assumption))
    | split

theorem State.unknownConn_frame {w0 : Nat} {z0 : State} (s : State) (d : Delivered) (h : FrameHdr) (hw : Area.sub 18 w0) (h_s : State.Frame w0 z0 s) :
    State.Frame w0 z0 (State.unknownConn s d h) := by
  unfold State.unknownConn
  try dsimp only
  with_reducible repeat' first | assumption | apply State.sendReset_frame | apply kIte | (refine kUpd ?_; assumption)

theorem State.flushReady_frame {w0 : Nat} {z0 : State} (s : State) (id : Nat) (hw : Area.sub 16 w0) (h_s : State.Frame w0 z0 s) :
    State.Frame w0 z0 (State.flushReady s id) := by
  unfold State.flushReady
  try dsimp only
  repeat' first
    | (with_reducible first | assumption | intro _ | apply State.sendConn_frame | apply State.putConn_frame | apply kIte | apply kFoldl)
    | split

theorem State.pushReady_frame {w0 : Nat} {z0 : State} (s : State) (id : Nat) (r : Response) (hw : Area.sub 16 w0) (h_s : State.Frame w0 z0 s) :
    State.Frame w0 z0 (State.pushReady s id r) := by
  unfold State.pushReady
  try dsimp only
  with_reducible repeat' first | assumption | apply State.modConn_frame | apply State.flushReady_frame | apply kIte

theorem State.refuseNow_frame {w0 : Nat} {z0 : State} (s : State) (id : Nat) (seq : Nat) (idx : Nat) (t : Stitch) (st : Status) (hw : Area.sub 16 w0) (h_s : State.Frame w0 z0 s) :
    State.Frame w0 z0 (State.refuseNow s id seq idx t st) := by
  unfold State.refuseNow
  try dsimp only
  with_reducible repeat' first | assumption | apply State.modConn_frame | apply State.pushReady_frame

theorem State.sampleTake_frame {w0 : Nat} {z0 : State} (s : State) (id : Nat) (t : Stitch) (hw : Area.sub 16 w0) (h_s : State.Frame w0 z0 s) :
    State.Frame w0 z0 (State.sampleTake s id t).2 := by
  unfold State.sampleTake
  try dsimp only
  repeat' first | (with_reducible first | assumption | apply iteP) | dsimp only | (with_reducible refine kUpd ?_; with_reducible assumption)

theorem State.issue_frame {w0 : Nat} {z0 : State} (s0 : State) (id : Nat) (c : Conn) (seq : Nat) (idx : Nat) (t : Stitch) (reexec : Bool) (hw : Area.sub 131098 w0) (h_s0 : State.Frame w0 z0 s0) :
    State.Frame w0 z0 (State.issue s0 id c seq idx t reexec) := by
  unfold State.issue
  try dsimp only
  with_reducible repeat' first
    | assumption | exact Area.sub_trans (by decide) hw | apply State.wake_frame | (refine kUpd ?_; apply State.sampleTake_frame)

theorem State.issueWhole_frame {w0 : Nat} {z0 : State} (s : State) (id : Nat) (c : Conn) (seq : Nat) (idx : Nat) (t : Stitch) (hw : Area.sub 131098 w0) (h_s : State.Frame w0 z0 s) :
    State.Frame w0 z0 (State.issueWhole s id c seq idx t) := by
  unfold State.issueWhole
  try dsimp only
  with_reducible repeat' first | assumption | (refine kUpd ?_; apply State.issue_frame)

theorem State.judge_frame {w0 : Nat} {z0 : State} (s : State) (id : Nat) (seq : Nat) (idx : Nat) (t : Stitch) (hw : Area.sub 41490 w0) (h_s : State.Frame w0 z0 s) :
    State.Frame w0 z0 (State.judge s id seq idx t).2 := by
  unfold State.judge
  try dsimp only
  repeat' first
    | (with_reducible first
       | assumption | exact Area.sub_trans (by decide) hw | apply State.count_frame | apply State.resetConn_frame
       | apply State.modConn_frame | apply State.refuseNow_frame | apply State.pushReady_frame | apply iteP)
    | split

theorem State.takeStitch_frame {w0 : Nat} {z0 : State} (s : State) (id : Nat) (seq : Nat) (idx : Nat) (count : Nat) (t : Stitch) (hw : Area.sub 172570 w0) (h_s : State.Frame w0 z0 s) :
    State.Frame w0 z0 (State.takeStitch s id seq idx count t) := by
  unfold State.takeStitch
  try dsimp only
  repeat' first
    | (with_reducible first
       | assumption | exact Area.sub_trans (by decide) hw | apply State.count_frame | apply State.judge_frame | apply State.modConn_frame
       | apply State.refuseNow_frame | apply State.issue_frame | apply State.issueWhole_frame | apply kIte)
    | split

theorem State.takeStitches_frame {w0 : Nat} {z0 : State} (s : State) (id : Nat) (seq : Nat) (count : Nat) (r0 : Nat) (r1 : List Stitch) (hw : Area.sub 172570 w0) (h_s : State.Frame w0 z0 s) :
    State.Frame w0 z0 (State.takeStitches s id seq count r0 r1) := by
  induction r1 generalizing s id seq count r0 with
  | nil =>
    unfold State.takeStitches
    try dsimp only
    with_reducible repeat' first | assumption | apply State.takeStitch_frame
  | cons _ _ ih =>
    unfold State.takeStitches
    try dsimp only
    with_reducible repeat' first | assumption | apply ih | apply State.takeStitch_frame

theorem State.endSegment_frame {w0 : Nat} {z0 : State} (s : State) (id : Nat) (hw : Area.sub 16 w0) (h_s : State.Frame w0 z0 s) :
    State.Frame w0 z0 (State.endSegment s id) := by
  unfold State.endSegment
  try dsimp only
  repeat' first | (with_reducible first | assumption | apply State.modConn_frame | apply State.refuseNow_frame | apply kIte) | split

theorem State.takeFrame_frame {w0 : Nat} {z0 : State} (s : State) (id : Nat) (seq : Nat) (b : List Byte) (hw : Area.sub 172570 w0) (h_s : State.Frame w0 z0 s) :
    State.Frame w0 z0 (State.takeFrame s id seq b) := by
  unfold State.takeFrame
  try dsimp only
  with_reducible repeat' first
    | assumption | exact Area.sub_trans (by decide) hw | apply State.modConn_frame | apply State.endSegment_frame
    | apply State.takeStitches_frame | apply kIte

theorem State.takeHeld_frame {w0 : Nat} {z0 : State} (s : State) (id : Nat) (r0 : Nat) (hw : Area.sub 172570 w0) (h_s : State.Frame w0 z0 s) :
    State.Frame w0 z0 (State.takeHeld s id r0) := by
  induction r0 generalizing s id with
  | zero =>
    unfold State.takeHeld
    try dsimp only
    repeat' first
      | (with_reducible first
         | assumption | exact Area.sub_trans (by decide) hw | intro _ | apply State.shtDrop_frame | apply State.modConn_frame
         | apply State.takeFrame_frame | apply kIte | apply kFoldl)
      | split
  | succ _ ih =>
    unfold State.takeHeld
    try dsimp only
    repeat' first
      | (with_reducible first
         | assumption | exact Area.sub_trans (by decide) hw | intro _ | apply ih | apply State.shtDrop_frame | apply State.modConn_frame
         | apply State.takeFrame_frame | apply kIte | apply kFoldl)
      | split

theorem State.runAgain_frame {w0 : Nat} {z0 : State} (s : State) (id : Nat) (c : Conn) (seq : Nat) (idx : Nat) (t : Stitch) (hw : Area.sub 172570 w0) (h_s : State.Frame w0 z0 s) :
    State.Frame w0 z0 (State.runAgain s id c seq idx t) := by
  unfold State.runAgain
  try dsimp only
  with_reducible repeat' first
    | assumption | exact Area.sub_trans (by decide) hw | apply State.count_frame | apply State.issue_frame | apply State.judge_frame
    | apply kIte

theorem State.dupStitch_frame {w0 : Nat} {z0 : State} (s : State) (id : Nat) (seq : Nat) (idx : Nat) (t : Stitch) (hw : Area.sub 172570 w0) (h_s : State.Frame w0 z0 s) :
    State.Frame w0 z0 (State.dupStitch s id seq idx t) := by
  unfold State.dupStitch
  try dsimp only
  repeat' first
    | (with_reducible first
       | assumption | exact Area.sub_trans (by decide) hw | apply State.modConn_frame | apply State.runAgain_frame
       | apply State.count_frame | apply State.pushReady_frame | apply kIte)
    | split

theorem State.dupStitches_frame {w0 : Nat} {z0 : State} (s : State) (id : Nat) (seq : Nat) (r0 : Nat) (r1 : List Stitch) (hw : Area.sub 172570 w0) (h_s : State.Frame w0 z0 s) :
    State.Frame w0 z0 (State.dupStitches s id seq r0 r1) := by
  induction r1 generalizing s id seq r0 with
  | nil =>
    unfold State.dupStitches
    try dsimp only
    with_reducible repeat' first | assumption | apply State.dupStitch_frame
  | cons _ _ ih =>
    unfold State.dupStitches
    try dsimp only
    with_reducible repeat' first | assumption | apply ih | apply State.dupStitch_frame

theorem State.doneBoxes_frame {w0 : Nat} {z0 : State} (s : State) (id : Nat) (c : Conn) (hw : Area.sub 512 w0) (h_s : State.Frame w0 z0 s) :
    State.Frame w0 z0 (State.doneBoxes s id c) := by
  unfold State.doneBoxes
  try dsimp only
  with_reducible repeat' first | (refine kUpd ?_; assumption)

theorem State.validFrame_frame {w0 : Nat} {z0 : State} (s : State) (id : Nat) (c : Conn) (d : Delivered) (h : FrameHdr) (hw : Area.sub 530 w0) (h_s : State.Frame w0 z0 s) :
    State.Frame w0 z0 (State.validFrame s id c d h) := by
  unfold State.validFrame
  try dsimp only
  with_reducible repeat' first
    | assumption | exact Area.sub_trans (by decide) hw | apply State.setFlag_frame | apply State.putConn_frame
    | apply State.doneBoxes_frame | apply State.moveFrames_frame | apply State.count_frame | apply kIte

theorem State.sendCloseAck_frame {w0 : Nat} {z0 : State} (s : State) (id : Nat) (hw : Area.sub 16 w0) (h_s : State.Frame w0 z0 s) :
    State.Frame w0 z0 (State.sendCloseAck s id) := by
  unfold State.sendCloseAck
  try dsimp only
  repeat' first | (with_reducible first | assumption | apply State.sendConn_frame | apply State.modConn_frame) | split

theorem State.closeDone_frame {w0 : Nat} {z0 : State} (s : State) (id : Nat) (hw : Area.sub 41488 w0) (h_s : State.Frame w0 z0 s) :
    State.Frame w0 z0 (State.closeDone s id) := by
  unfold State.closeDone
  try dsimp only
  repeat' first
    | (with_reducible first
       | assumption | exact Area.sub_trans (by decide) hw | apply State.sendCloseAck_frame | apply State.releaseFrames_frame
       | apply State.freeConn_frame | apply kIte)
    | split

theorem State.ackWait_frame {w0 : Nat} {z0 : State} (s : State) (id : Nat) (hw : Area.sub 16 w0) (h_s : State.Frame w0 z0 s) :
    State.Frame w0 z0 (State.ackWait s id) := by
  unfold State.ackWait
  try dsimp only
  with_reducible repeat' first | assumption | apply State.modConn_frame

theorem State.ackNow_frame {w0 : Nat} {z0 : State} (s : State) (id : Nat) (now : Bool) (hw : Area.sub 16 w0) (h_s : State.Frame w0 z0 s) :
    State.Frame w0 z0 (State.ackNow s id now) := by
  unfold State.ackNow
  try dsimp only
  repeat' first | (with_reducible first | assumption | apply State.sendAck_frame | apply kIte) | split

theorem State.sequenced_frame {w0 : Nat} {z0 : State} (s : State) (e : Nat) (id : Nat) (c : Conn) (d : Delivered) (h : FrameHdr) (hw : Area.sub 172570 w0) (h_s : State.Frame w0 z0 s) :
    State.Frame w0 z0 (State.sequenced s e id c d h) := by
  unfold State.sequenced
  try dsimp only
  with_reducible repeat' first
    | assumption | exact Area.sub_trans (by decide) hw | apply State.sendAck_frame | apply State.shtDrop_frame
    | apply State.validFrame_frame | apply State.count_frame | apply State.sendCloseAck_frame | apply State.dupStitches_frame
    | apply State.ackWait_frame | apply State.takeFrame_frame | apply State.takeHeld_frame | apply State.ackNow_frame
    | apply State.modConn_frame | apply kIte

theorem State.sawCe_frame {w0 : Nat} {z0 : State} (s : State) (id : Nat) (d : Delivered) (hw : Area.sub 18 w0) (h_s : State.Frame w0 z0 s) :
    State.Frame w0 z0 (State.sawCe s id d) := by
  unfold State.sawCe
  try dsimp only
  with_reducible repeat' first
    | assumption | exact Area.sub_trans (by decide) hw | apply State.modConn_frame | apply State.count_frame | apply kIte

theorem State.onConn_frame {w0 : Nat} {z0 : State} (s : State) (e : Nat) (d : Delivered) (h : FrameHdr) (k : State → Conn → State) (hw : Area.sub 41490 w0) (h_s : State.Frame w0 z0 s) (hk : ∀ (y0 : State) (y1 : Conn), State.Frame w0 z0 y0 → State.Frame w0 z0 (k y0 y1)) :
    State.Frame w0 z0 (State.onConn s e d h k) := by
  unfold State.onConn
  try dsimp only
  repeat' first
    | (with_reducible first
       | assumption | exact Area.sub_trans (by decide) hw | apply hk | apply State.unknownConn_frame | apply State.shtDrop_frame
       | apply State.sawCe_frame | apply State.closeDone_frame | apply kIte)
    | split

theorem State.frontOf_frame {w0 : Nat} {z0 : State} (s : State) (e : Nat) (ftype : Nat → Bool) (k : State → Delivered → FrameHdr → State) (hw : Area.sub 18 w0) (h_s : State.Frame w0 z0 s) (hk : ∀ (y0 : State) (y1 : Delivered) (y2 : FrameHdr), State.Frame w0 z0 y0 → State.Frame w0 z0 (k y0 y1 y2)) :
    State.Frame w0 z0 (State.frontOf s e ftype k) := by
  unfold State.frontOf
  try dsimp only
  repeat' first
    | (with_reducible first
       | assumption | apply hk | apply kIte | (refine kUpd ?_; (refine ofOptP (by assumption) ?_; apply State.takeFront_frame)))
    | split

theorem execDataFrame_frame {w0 : Nat} {z0 : State} (engine : Nat) (s : State) (hw : Area.sub 172570 w0) (h_s : State.Frame w0 z0 s) :
    State.Frame.Ans w0 z0 (execDataFrame engine s) := by
  unfold execDataFrame
  try dsimp only
  repeat' first
    | (with_reducible first
       | assumption | exact Area.sub_trans (by decide) hw | intro _ | apply State.shtDrop_frame | apply State.onConn_frame
       | apply State.sequenced_frame | apply ansWithin | apply kIte
       | (refine kUpd ?_; (refine ofOptP (by assumption) ?_; apply State.takeFront_frame)))
    | split

theorem execAckFrame_frame {w0 : Nat} {z0 : State} (engine : Nat) (s : State) (hw : Area.sub 41490 w0) (h_s : State.Frame w0 z0 s) :
    State.Frame.Ans w0 z0 (execAckFrame engine s) := by
  unfold execAckFrame
  try dsimp only
  with_reducible repeat' first
    | assumption | exact Area.sub_trans (by decide) hw | intro _ | apply State.frontOf_frame | apply State.onConn_frame
    | apply State.validFrame_frame | apply State.sendAck_frame | apply ansWithin | apply kIte

theorem execClose_frame {w0 : Nat} {z0 : State} (engine : Nat) (s : State) (hw : Area.sub 172570 w0) (h_s : State.Frame w0 z0 s) :
    State.Frame.Ans w0 z0 (execClose engine s) := by
  unfold execClose
  try dsimp only
  with_reducible repeat' first
    | assumption | exact Area.sub_trans (by decide) hw | intro _ | apply State.frontOf_frame | apply State.onConn_frame
    | apply State.sequenced_frame | apply ansWithin

theorem execResetReceive_frame {w0 : Nat} {z0 : State} (engine : Nat) (s : State) (hw : Area.sub 41490 w0) (h_s : State.Frame w0 z0 s) :
    State.Frame.Ans w0 z0 (execResetReceive engine s) := by
  unfold execResetReceive
  try dsimp only
  with_reducible repeat' first
    | assumption | exact Area.sub_trans (by decide) hw | intro _ | apply State.frontOf_frame | apply State.onConn_frame
    | apply State.freeConn_frame | apply State.count_frame | apply ansWithin

theorem execCloseAckSend_frame {w0 : Nat} {z0 : State} (conn : Nat) (s : State) (hw : Area.sub 16 w0) (h_s : State.Frame w0 z0 s) :
    State.Frame.Ans w0 z0 (execCloseAckSend conn s) := by
  unfold execCloseAckSend
  try dsimp only
  repeat' first | (with_reducible first | assumption | apply State.sendCloseAck_frame | apply ansWithin | apply kIte) | split

theorem execCloseLingerExpire_frame {w0 : Nat} {z0 : State} (conn : Nat) (s : State) (hw : Area.sub 41488 w0) (h_s : State.Frame w0 z0 s) :
    State.Frame.Ans w0 z0 (execCloseLingerExpire conn s) := by
  unfold execCloseLingerExpire
  try dsimp only
  repeat' first
    | (with_reducible first
       | assumption | exact Area.sub_trans (by decide) hw | apply State.releaseFrames_frame | apply State.freeConn_frame | apply ansWithin
       | apply kIte)
    | split

theorem execOpenTimeout_frame {w0 : Nat} {z0 : State} (conn : Nat) (s : State) (hw : Area.sub 41488 w0) (h_s : State.Frame w0 z0 s) :
    State.Frame.Ans w0 z0 (execOpenTimeout conn s) := by
  unfold execOpenTimeout
  try dsimp only
  repeat' first | (with_reducible first | assumption | apply State.freeConn_frame | apply ansWithin | apply kIte) | split

theorem execIdleTimeout_frame {w0 : Nat} {z0 : State} (conn : Nat) (s : State) (hw : Area.sub 41490 w0) (h_s : State.Frame w0 z0 s) :
    State.Frame.Ans w0 z0 (execIdleTimeout conn s) := by
  unfold execIdleTimeout
  try dsimp only
  repeat' first | (with_reducible first | assumption | apply State.resetConn_frame | apply ansWithin | apply kIte) | split

theorem execAckDelayExpire_frame {w0 : Nat} {z0 : State} (conn : Nat) (s : State) (hw : Area.sub 16 w0) (h_s : State.Frame w0 z0 s) :
    State.Frame.Ans w0 z0 (execAckDelayExpire conn s) := by
  unfold execAckDelayExpire
  try dsimp only
  repeat' first | (with_reducible first | assumption | apply State.sendAck_frame | apply ansWithin | apply kIte) | split

theorem execCoalWaitExpire_frame {w0 : Nat} {z0 : State} (conn : Nat) (s : State) (hw : Area.sub 16 w0) (h_s : State.Frame w0 z0 s) :
    State.Frame.Ans w0 z0 (execCoalWaitExpire conn s) := by
  unfold execCoalWaitExpire
  try dsimp only
  repeat' first | (with_reducible first | assumption | apply State.flushReady_frame | apply ansWithin | apply kIte) | split

theorem State.sendOpenAck_frame {w0 : Nat} {z0 : State} (s : State) (id : Nat) (c : Conn) (hw : Area.sub 16 w0) (h_s : State.Frame w0 z0 s) :
    State.Frame w0 z0 (State.sendOpenAck s id c) := by
  unfold State.sendOpenAck
  try dsimp only
  with_reducible repeat' first | assumption | apply State.queueTx_frame

theorem State.accept_frame {w0 : Nat} {z0 : State} (s : State) (d : Delivered) (h : FrameHdr) (hw : Area.sub 18 w0) (h_s : State.Frame w0 z0 s) :
    State.Frame w0 z0 (State.accept s d h) := by
  unfold State.accept
  try dsimp only
  repeat' first
    | (with_reducible first
       | assumption | exact Area.sub_trans (by decide) hw | apply State.draw_frame | apply State.sendReset_frame
       | apply State.putConn_frame | apply State.sendOpenAck_frame | apply State.count_frame | apply kIte
       | (refine kUpd ?_; apply State.draw_frame))
    | split

theorem execOpenRx_frame {w0 : Nat} {z0 : State} (engine : Nat) (s : State) (hw : Area.sub 18 w0) (h_s : State.Frame w0 z0 s) :
    State.Frame.Ans w0 z0 (execOpenRx engine s) := by
  unfold execOpenRx
  try dsimp only
  repeat' first
    | (with_reducible first
       | assumption | exact Area.sub_trans (by decide) hw | apply State.sendReset_frame | apply State.count_frame
       | apply State.shtDrop_frame | apply State.sendOpenAck_frame | apply State.accept_frame | apply ansWithin | apply kIte
       | (refine kUpd ?_; (refine ofOptP (by assumption) ?_; apply State.takeFront_frame)))
    | split

theorem State.sendNoticeFrame_frame {w0 : Nat} {z0 : State} (s : State) (id : Nat) (c : Conn) (n : Notice) (hw : Area.sub 16 w0) (h_s : State.Frame w0 z0 s) :
    State.Frame w0 z0 (State.sendNoticeFrame s id c n) := by
  unfold State.sendNoticeFrame
  try dsimp only
  with_reducible repeat' first | assumption | apply State.sendConn_frame

theorem State.noticeFor_frame {w0 : Nat} {z0 : State} (s : State) (dev : Nat) (id : Nat) (kind : Nat) (payload : List Byte) (hw : Area.sub 18 w0) (h_s : State.Frame w0 z0 s) :
    State.Frame w0 z0 (State.noticeFor s dev id kind payload) := by
  unfold State.noticeFor
  try dsimp only
  repeat' first
    | (with_reducible first
       | assumption | exact Area.sub_trans (by decide) hw | apply State.sendNoticeFrame_frame | apply State.modConn_frame
       | apply State.count_frame)
    | split

theorem State.notice_frame {w0 : Nat} {z0 : State} (s : State) (id : Nat) (kind : Nat) (payload : List Byte) (hw : Area.sub 18 w0) (h_s : State.Frame w0 z0 s) :
    State.Frame w0 z0 (State.notice s id kind payload) := by
  unfold State.notice
  try dsimp only
  with_reducible repeat' first | assumption | apply State.noticeFor_frame

theorem State.noticeCredit_frame {w0 : Nat} {z0 : State} (s : State) (id : Nat) (limit : Nat) (cause : Nat) (hw : Area.sub 18 w0) (h_s : State.Frame w0 z0 s) :
    State.Frame w0 z0 (State.noticeCredit s id limit cause) := by
  unfold State.noticeCredit
  try dsimp only
  repeat' first
    | (with_reducible first | assumption | exact Area.sub_trans (by decide) hw | apply State.notice_frame | apply State.modConn_frame)
    | split

theorem State.slowFor_frame {w0 : Nat} {z0 : State} (s : State) (dev : Nat) (id : Nat) (cause : Nat) (graceMs : Nat) (stitchRate : Nat) (byteRate : Nat) (hw : Area.sub 18 w0) (h_s : State.Frame w0 z0 s) :
    State.Frame w0 z0 (State.slowFor s dev id cause graceMs stitchRate byteRate) := by
  unfold State.slowFor
  try dsimp only
  with_reducible repeat' first | assumption | exact Area.sub_trans (by decide) hw | apply State.noticeFor_frame | apply State.modConn_frame

theorem State.slowTo_frame {w0 : Nat} {z0 : State} (s : State) (id : Nat) (cause : Nat) (graceMs : Nat) (stitchRate : Nat) (byteRate : Nat) (hw : Area.sub 18 w0) (h_s : State.Frame w0 z0 s) :
    State.Frame w0 z0 (State.slowTo s id cause graceMs stitchRate byteRate) := by
  unfold State.slowTo
  try dsimp only
  with_reducible repeat' first | assumption | apply State.slowFor_frame

theorem State.slowLiftFor_frame {w0 : Nat} {z0 : State} (s : State) (dev : Nat) (id : Nat) (hw : Area.sub 18 w0) (h_s : State.Frame w0 z0 s) :
    State.Frame w0 z0 (State.slowLiftFor s dev id) := by
  unfold State.slowLiftFor
  try dsimp only
  repeat' first
    | (with_reducible first | assumption | exact Area.sub_trans (by decide) hw | apply State.modConn_frame | apply State.slowFor_frame)
    | split

theorem State.slowLift_frame {w0 : Nat} {z0 : State} (s : State) (id : Nat) (hw : Area.sub 18 w0) (h_s : State.Frame w0 z0 s) :
    State.Frame w0 z0 (State.slowLift s id) := by
  unfold State.slowLift
  try dsimp only
  with_reducible repeat' first | assumption | apply State.slowLiftFor_frame

theorem State.slowShare_frame {w0 : Nat} {z0 : State} (s : State) (dev : Nat) (id : Nat) (cause : Nat) (graceMs : Nat) (share : Nat) (hw : Area.sub 18 w0) (h_s : State.Frame w0 z0 s) :
    State.Frame w0 z0 (State.slowShare s dev id cause graceMs share) := by
  unfold State.slowShare
  try dsimp only
  repeat' first
    | (with_reducible first | assumption | exact Area.sub_trans (by decide) hw | apply State.putConn_frame | apply State.slowFor_frame)
    | split

theorem State.cutCredit_frame {w0 : Nat} {z0 : State} (s : State) (id : Nat) (c : Conn) (hw : Area.sub 18 w0) (h_s : State.Frame w0 z0 s) :
    State.Frame w0 z0 (State.cutCredit s id c) := by
  unfold State.cutCredit
  try dsimp only
  with_reducible repeat' first
    | assumption | exact Area.sub_trans (by decide) hw | apply State.noticeCredit_frame | apply State.count_frame
    | apply State.modConn_frame | apply kIte

theorem execSlowGraceExpire_frame {w0 : Nat} {z0 : State} (conn : Nat) (s : State) (hw : Area.sub 18 w0) (h_s : State.Frame w0 z0 s) :
    State.Frame.Ans w0 z0 (execSlowGraceExpire conn s) := by
  unfold execSlowGraceExpire
  try dsimp only
  repeat' first
    | (with_reducible first
       | assumption | exact Area.sub_trans (by decide) hw | apply State.cutCredit_frame | apply State.modConn_frame | apply ansWithin
       | apply kIte)
    | split

theorem execCreditCutRepeat_frame {w0 : Nat} {z0 : State} (conn : Nat) (s : State) (hw : Area.sub 18 w0) (h_s : State.Frame w0 z0 s) :
    State.Frame.Ans w0 z0 (execCreditCutRepeat conn s) := by
  unfold execCreditCutRepeat
  try dsimp only
  repeat' first
    | (with_reducible first
       | assumption | exact Area.sub_trans (by decide) hw | apply State.cutCredit_frame | apply State.modConn_frame | apply ansWithin
       | apply kIte)
    | split

theorem execNoticeRtoExpire_frame {w0 : Nat} {z0 : State} (conn : Nat) (s : State) (hw : Area.sub 41490 w0) (h_s : State.Frame w0 z0 s) :
    State.Frame.Ans w0 z0 (execNoticeRtoExpire conn s) := by
  unfold execNoticeRtoExpire
  try dsimp only
  repeat' first
    | (with_reducible first
       | assumption | exact Area.sub_trans (by decide) hw | apply State.resetConn_frame | apply State.sendNoticeFrame_frame
       | apply State.modConn_frame | apply State.count_frame | apply ansWithin | apply kIte)
    | split

/-! ### Machine/Lines.lean -/

theorem State.bumpMinor_frame {w0 : Nat} {z0 : State} (s : State) (ln : Nat) (l : Nat) (hw : Area.sub 8192 w0) (h_s : State.Frame w0 z0 s) :
    State.Frame w0 z0 (State.bumpMinor s ln l) := by
  unfold State.bumpMinor
  try dsimp only
  with_reducible repeat' first | (refine kUpd ?_; assumption)

theorem State.sealLine_frame {w0 : Nat} {z0 : State} (s : State) (ln : Nat) (l : Nat) (data : LineBits) (poison : BitVec 4) (cause : Nat) (hw : Area.sub 8192 w0) (h_s : State.Frame w0 z0 s) :
    State.Frame.OptP w0 z0 (State.sealLine s ln l data poison cause) := by
  unfold State.sealLine
  try dsimp only
  with_reducible repeat' first | assumption | intro _ | apply State.bumpMinor_frame | apply optPMap

theorem State.touchWay_frame {w0 : Nat} {z0 : State} (s : State) (slot : Nat) (w : Nat) (hw : Area.sub 8192 w0) (h_s : State.Frame w0 z0 s) :
    State.Frame w0 z0 (State.touchWay s slot w) := by
  unfold State.touchWay
  try dsimp only
  with_reducible repeat' first | (refine kUpd ?_; assumption)

theorem State.dropAgents_frame {w0 : Nat} {z0 : State} (s : State) (ln : Nat) (dir : List (Nat × CohSt)) (hw : Area.sub 12288 w0) (h_s : State.Frame w0 z0 s) :
    State.Frame w0 z0 (State.dropAgents s ln dir) := by
  unfold State.dropAgents
  try dsimp only
  with_reducible repeat' first | (refine kUpd ?_; assumption)

theorem State.sampleHeat_frame {w0 : Nat} {z0 : State} (s : State) (ln : Nat) (write : Bool) (hw : Area.sub 8192 w0) (h_s : State.Frame w0 z0 s) :
    State.Frame w0 z0 (State.sampleHeat s ln write) := by
  unfold State.sampleHeat
  try dsimp only
  repeat' first | (with_reducible first | assumption | (refine kUpd ?_; assumption)) | split

theorem State.toEvb_frame {w0 : Nat} {z0 : State} (s : State) (ln : Nat) (l : LlcLine) (hw : Area.sub 12288 w0) (h_s : State.Frame w0 z0 s) :
    State.Frame w0 z0 (State.toEvb s ln l) := by
  unfold State.toEvb
  try dsimp only
  with_reducible repeat' first
    | assumption | exact Area.sub_trans (by decide) hw | apply State.sampleHeat_frame | (refine kUpd ?_; apply kIte)

theorem State.evictTo_frame {w0 : Nat} {z0 : State} (s : State) (ln : Nat) (l : LlcLine) (hw : Area.sub 12290 w0) (h_s : State.Frame w0 z0 s) :
    State.Frame w0 z0 (State.evictTo s ln l) := by
  unfold State.evictTo
  try dsimp only
  with_reducible repeat' first
    | assumption | exact Area.sub_trans (by decide) hw | apply State.dropAgents_frame | apply State.count_frame | apply State.toEvb_frame
    | apply kIte

theorem State.allocWay_frame {w0 : Nat} {z0 : State} (s : State) (slot : Nat) (hw : Area.sub 12290 w0) (h_s : State.Frame w0 z0 s) :
    State.Frame.OptP w0 z0 (State.allocWay s slot) := by
  unfold State.allocWay
  try dsimp only
  repeat' first | (with_reducible first | assumption | apply State.evictTo_frame | exact optPNone | apply optPSome | apply optPIte) | split

theorem State.putLine_frame {w0 : Nat} {z0 : State} (s : State) (ln : Nat) (l : LlcLine) (hw : Area.sub 12288 w0) (h_s : State.Frame w0 z0 s) :
    State.Frame w0 z0 (State.putLine s ln l) := by
  unfold State.putLine
  try dsimp only
  with_reducible repeat' first | apply kIte | (refine kUpd ?_; assumption)

theorem State.install_frame {w0 : Nat} {z0 : State} (s : State) (ln : Nat) (data : LineBits) (dirty : BitVec 4) (poison : BitVec 4) (cause : Nat) (hw : Area.sub 12290 w0) (h_s : State.Frame w0 z0 s) :
    State.Frame w0 z0 (State.install s ln data dirty poison cause) := by
  unfold State.install
  try dsimp only
  repeat' first
    | (with_reducible first
       | assumption | exact Area.sub_trans (by decide) hw | apply State.touchWay_frame | apply State.count_frame
       | (refine kUpd ?_; first | assumption | (refine ofOptP (by assumption) ?_; apply State.allocWay_frame)))
    | split

theorem State.poisonSet_frame {w0 : Nat} {z0 : State} (s : State) (l : Nat) (sectors : BitVec 4) (cause : Nat) (hw : Area.sub 322 w0) (h_s : State.Frame w0 z0 s) :
    State.Frame w0 z0 (State.poisonSet s l sectors cause) := by
  unfold State.poisonSet
  try dsimp only
  with_reducible repeat' first
    | assumption | exact Area.sub_trans (by decide) hw | apply State.raise_frame | apply State.wr_frame | apply State.count_frame

theorem State.poisonLine_frame {w0 : Nat} {z0 : State} (s : State) (ln : Nat) (cause : Nat) (hw : Area.sub 12610 w0) (h_s : State.Frame w0 z0 s) :
    State.Frame w0 z0 (State.poisonLine s ln cause) := by
  unfold State.poisonLine
  try dsimp only
  with_reducible repeat' first
    | assumption | exact Area.sub_trans (by decide) hw | apply State.poisonSet_frame | (refine kUpd ?_; apply State.install_frame)

theorem State.homeWrite_frame {w0 : Nat} {z0 : State} (s : State) (ln : Nat) (lo : Nat) (bytes : List Byte) (hw : Area.sub 12290 w0) (h_s : State.Frame w0 z0 s) :
    State.Frame w0 z0 (State.homeWrite s ln lo bytes) := by
  unfold State.homeWrite
  try dsimp only
  repeat' first
    | (with_reducible first
       | assumption | exact Area.sub_trans (by decide) hw | apply State.dropAgents_frame | apply State.count_frame
       | apply State.install_frame | apply State.touchWay_frame | apply kIte | (refine kUpd ?_; apply State.putLine_frame))
    | split

theorem State.noteWrite_frame {w0 : Nat} {z0 : State} (s : State) (ln : Nat) (hw : Area.sub 16384 w0) (h_s : State.Frame w0 z0 s) :
    State.Frame w0 z0 (State.noteWrite s ln) := by
  unfold State.noteWrite
  try dsimp only
  with_reducible repeat' first | (refine kUpd ?_; assumption)

theorem State.writeRange_frame {w0 : Nat} {z0 : State} (s0 : State) (addr : Nat) (bytes : List Byte) (hw : Area.sub 28674 w0) (h_s0 : State.Frame w0 z0 s0) :
    State.Frame w0 z0 (State.writeRange s0 addr bytes) := by
  unfold State.writeRange
  try dsimp only
  with_reducible repeat' first
    | assumption | exact Area.sub_trans (by decide) hw | intro _ | apply State.noteWrite_frame | apply State.homeWrite_frame
    | apply kFoldl

/-! ### Machine/Ports.lean -/

theorem State.payPort_frame {w0 : Nat} {z0 : State} (s : State) (p : Nat) (hw : Area.sub 8192 w0) (h_s : State.Frame w0 z0 s) :
    State.Frame w0 z0 (State.payPort s p) := by
  unfold State.payPort
  try dsimp only
  with_reducible repeat' first | assumption | apply kIte | (refine kUpd ?_; assumption)

theorem State.regulate_frame {w0 : Nat} {z0 : State} (s : State) (p : Nat) (hw : Area.sub 8194 w0) (h_s : State.Frame w0 z0 s) :
    State.Frame w0 z0 (State.regulate s p) := by
  unfold State.regulate
  try dsimp only
  with_reducible repeat' first | exact Area.sub_trans (by decide) hw | apply State.count_frame | apply kIte | (refine kUpd ?_; assumption)

theorem State.serveReq_frame {w0 : Nat} {z0 : State} (s : State) (r : DramReq) (hw : Area.sub 8194 w0) (h_s : State.Frame w0 z0 s) :
    State.Frame w0 z0 (State.serveReq s r) := by
  unfold State.serveReq
  try dsimp only
  with_reducible repeat' first
    | exact Area.sub_trans (by decide) hw | apply State.payPort_frame | apply State.count_frame | apply kIte
    | (refine kUpd ?_; first | assumption | apply State.count_frame)

theorem State.drainOne_frame {w0 : Nat} {z0 : State} (s : State) (g : Nat) (left : Nat) (hw : Area.sub 8192 w0) (h_s : State.Frame w0 z0 s) :
    State.Frame w0 z0 (State.drainOne s g left) := by
  unfold State.drainOne
  try dsimp only
  with_reducible repeat' first | (refine kUpd ?_; assumption)

theorem State.dramStep_frame {w0 : Nat} {z0 : State} (s : State) (hw : Area.sub 8194 w0) (h_s : State.Frame w0 z0 s) :
    State.Frame.Opt w0 z0 (State.dramStep s) := by
  unfold State.dramStep
  try dsimp only
  repeat' first
    | (with_reducible first
       | assumption | exact Area.sub_trans (by decide) hw | intro _ | apply State.drainOne_frame | apply State.serveReq_frame
       | apply optSome | apply optMap | (refine kUpd ?_; assumption))
    | split

theorem State.arbitrate_frame {w0 : Nat} {z0 : State} (s : State) (r0 : Nat) (hw : Area.sub 8194 w0) (h_s : State.Frame w0 z0 s) :
    State.Frame w0 z0 (State.arbitrate s r0) := by
  induction r0 generalizing s with
  | zero =>
    unfold State.arbitrate
    try dsimp only
    repeat' first
      | (with_reducible first | assumption | (refine kUpd ?_; (refine ofOpt (by assumption) ?_; apply State.dramStep_frame)))
      | split
  | succ _ ih =>
    unfold State.arbitrate
    try dsimp only
    repeat' first
      | (with_reducible first | assumption | apply ih | (refine kUpd ?_; (refine ofOpt (by assumption) ?_; apply State.dramStep_frame)))
      | split

theorem State.serveDram_frame {w0 : Nat} {z0 : State} (s : State) (hw : Area.sub 8194 w0) (h_s : State.Frame w0 z0 s) :
    State.Frame w0 z0 (State.serveDram s) := by
  unfold State.serveDram
  try dsimp only
  with_reducible repeat' first | assumption | apply State.arbitrate_frame

theorem State.dramAccess_frame {w0 : Nat} {z0 : State} (s : State) (port : Nat) (write : Bool) (addr : Nat) (line : Option Nat := none) (hw : Area.sub 8194 w0) (h_s : State.Frame w0 z0 s) :
    State.Frame w0 z0 (State.dramAccess s port write addr line) := by
  unfold State.dramAccess
  try dsimp only
  with_reducible repeat' first
    | assumption | exact Area.sub_trans (by decide) hw | apply State.count_frame | apply State.serveDram_frame | apply kIte
    | (refine kUpd ?_; assumption)

theorem State.pauseGroup_frame {w0 : Nat} {z0 : State} (s : State) (g : Nat) (hw : Area.sub 8194 w0) (h_s : State.Frame w0 z0 s) :
    State.Frame w0 z0 (State.pauseGroup s g) := by
  unfold State.pauseGroup
  try dsimp only
  with_reducible repeat' first
    | exact Area.sub_trans (by decide) hw | apply State.count_frame | apply State.setFlag_frame | apply kIte
    | (refine kUpd ?_; assumption)

theorem State.resumeGroup_frame {w0 : Nat} {z0 : State} (s : State) (g : Nat) (hw : Area.sub 8194 w0) (h_s : State.Frame w0 z0 s) :
    State.Frame w0 z0 (State.resumeGroup s g) := by
  unfold State.resumeGroup
  try dsimp only
  with_reducible repeat' first
    | assumption | exact Area.sub_trans (by decide) hw | apply State.clrFlag_frame | apply kIte
    | (refine kUpd ?_; apply State.clrFlag_frame)

theorem State.dramTick_frame {w0 : Nat} {z0 : State} (s : State) (hw : Area.sub 8194 w0) (h_s : State.Frame w0 z0 s) :
    State.Frame w0 z0 (State.dramTick s) := by
  unfold State.dramTick
  try dsimp only
  with_reducible repeat' first
    | assumption | intro _ | apply State.regulate_frame | apply State.resumeGroup_frame | apply State.serveDram_frame | apply kIte
    | apply kFoldl

/-! ### Machine/Alarm.lean -/

theorem State.putKey_frame {w0 : Nat} {z0 : State} (s : State) (id : Nat) (k : KeySlot) (hw : Area.sub 10240 w0) (h_s : State.Frame w0 z0 s) :
    State.Frame w0 z0 (State.putKey s id k) := by
  unfold State.putKey
  try dsimp only
  with_reducible repeat' first | (refine kUpd ?_; assumption)

theorem State.alarmCount_frame {w0 : Nat} {z0 : State} (s : State) (code : Nat) (keyId : Nat) (hw : Area.sub 8192 w0) (h_s : State.Frame w0 z0 s) :
    State.Frame w0 z0 (State.alarmCount s code keyId).2 := by
  unfold State.alarmCount
  try dsimp only
  with_reducible repeat' first | (refine kUpd ?_; assumption)

theorem State.alarmNotice_frame {w0 : Nat} {z0 : State} (s : State) (dev : Nat) (conn : Nat) (code : Nat) (keyId : Nat) (addr : Nat) (range : Nat) (hw : Area.sub 8210 w0) (h_s : State.Frame w0 z0 s) :
    State.Frame w0 z0 (State.alarmNotice s dev conn code keyId addr range) := by
  unfold State.alarmNotice
  try dsimp only
  with_reducible repeat' first
    | assumption | exact Area.sub_trans (by decide) hw | apply State.noticeFor_frame | (refine kUpd ?_; apply State.count_frame)

theorem State.alarmTo_frame {w0 : Nat} {z0 : State} (s : State) (dev : Nat) (conn : Nat) (code : Nat) (keyId : Nat) (addr : Nat) (range : Nat) (hw : Area.sub 8210 w0) (h_s : State.Frame w0 z0 s) :
    State.Frame w0 z0 (State.alarmTo s dev conn code keyId addr range) := by
  unfold State.alarmTo
  try dsimp only
  with_reducible repeat' first | assumption | apply State.alarmNotice_frame | apply kIte | (refine kUpd ?_; assumption)

theorem State.alarmBare_frame {w0 : Nat} {z0 : State} (s : State) (code : Nat) (src : Nat) (keyId : Nat) (val : Nat) (addr : Nat) (range : Nat) (hw : Area.sub 24914 w0) (h_s : State.Frame w0 z0 s) :
    State.Frame w0 z0 (State.alarmBare s code src keyId val addr range) := by
  unfold State.alarmBare
  try dsimp only
  with_reducible repeat' first
    | assumption | exact Area.sub_trans (by decide) hw | intro _ | apply State.setFlag_frame | apply State.raise_frame
    | apply State.alarmCount_frame | apply State.alarmTo_frame | apply State.report_frame | apply kIte | apply kFoldl

theorem State.lockKey_frame {w0 : Nat} {z0 : State} (s : State) (keyId : Nat) (addr : Nat) (hw : Area.sub 26962 w0) (h_s : State.Frame w0 z0 s) :
    State.Frame w0 z0 (State.lockKey s keyId addr) := by
  unfold State.lockKey
  try dsimp only
  with_reducible repeat' first
    | assumption | exact Area.sub_trans (by decide) hw | apply State.putKey_frame | apply State.alarmBare_frame
    | apply State.sendAll_frame | apply State.report_frame | apply kIte

theorem State.attack_frame {w0 : Nat} {z0 : State} (s : State) (keyId : Nat) (addr : Nat) (hw : Area.sub 26962 w0) (h_s : State.Frame w0 z0 s) :
    State.Frame w0 z0 (State.attack s keyId addr) := by
  unfold State.attack
  try dsimp only
  with_reducible repeat' first
    | assumption | exact Area.sub_trans (by decide) hw | apply State.putKey_frame | apply State.lockKey_frame | apply kIte

theorem State.alarm_frame {w0 : Nat} {z0 : State} (s : State) (code : Nat) (keyId : Nat) (val : Nat) (addr : Nat) (range : Nat) (hw : Area.sub 26962 w0) (h_s : State.Frame w0 z0 s) :
    State.Frame w0 z0 (State.alarm s code keyId val addr range) := by
  unfold State.alarm
  try dsimp only
  with_reducible repeat' first
    | assumption | exact Area.sub_trans (by decide) hw | apply State.alarmBare_frame | apply State.attack_frame | apply kIte

theorem State.tagFail_frame {w0 : Nat} {z0 : State} (s : State) (ln : Nat) (hw : Area.sub 26962 w0) (h_s : State.Frame w0 z0 s) :
    State.Frame w0 z0 (State.tagFail s ln) := by
  unfold State.tagFail
  try dsimp only
  with_reducible repeat' first | assumption | exact Area.sub_trans (by decide) hw | apply State.count_frame | apply State.alarm_frame

theorem execNoticeGapEnd_frame {w0 : Nat} {z0 : State} (conn : Nat) (code : Nat) (keyId : Nat) (s : State) (hw : Area.sub 8210 w0) (h_s : State.Frame w0 z0 s) :
    State.Frame.Ans w0 z0 (execNoticeGapEnd conn code keyId s) := by
  unfold execNoticeGapEnd
  try dsimp only
  repeat' first
    | (with_reducible first | assumption | apply State.alarmNotice_frame | apply ansWithin | apply kIte | (refine kUpd ?_; assumption))
    | split

end Sys2Proof.Machine
end

