-- ==== Sys2Proof/Laws/FrameMem.lean ====
section
/-!
SUPPORT. What the operations leave alone (Laws/Frame.lean): lines, placement, the medium, DRAM, cache and coherence.
-/
namespace Sys2Proof.Machine
set_option Elab.async false
open State.Frame

/-! ### Machine/Fill.lean -/

theorem State.issueSense_frame {w0 : Nat} {z0 : State} (s : State) (ln : Nat) (p : Nat) (r : Reader) (hw : Area.sub 8194 w0) (h_s : State.Frame w0 z0 s) :
    State.Frame w0 z0 (State.issueSense s ln p r) := by
  unfold State.issueSense
  try dsimp only
  repeat' first
    | (with_reducible first
       | assumption | exact Area.sub_trans (by decide) hw | intro _ | apply State.count_frame | apply kIte | apply kFoldl
       | (refine kUpd ?_; assumption))
    | split

theorem State.rebuildNode_frame {w0 : Nat} {z0 : State} (s : State) (ln : Nat) (l : Nat) (lv : Nat) (hw : Area.sub 31058 w0) (h_s : State.Frame w0 z0 s) :
    State.Frame w0 z0 (State.rebuildNode s ln l lv) := by
  unfold State.rebuildNode
  try dsimp only
  repeat' first
    | (with_reducible first
       | assumption | exact Area.sub_trans (by decide) hw | intro _ | apply State.poisonLine_frame | apply State.count_frame
       | apply State.wr_frame | apply State.alarm_frame | apply kFoldl | (refine kUpd ?_; assumption))
    | split

theorem State.nodeFails_frame {w0 : Nat} {z0 : State} (s : State) (ln : Nat) (n : Nat) (lv : Nat) (hw : Area.sub 26962 w0) (h_s : State.Frame w0 z0 s) :
    State.Frame w0 z0 (State.nodeFails s ln n lv) := by
  unfold State.nodeFails
  try dsimp only
  with_reducible repeat' first
    | assumption | exact Area.sub_trans (by decide) hw | apply State.count_frame | apply State.alarm_frame | (refine kUpd ?_; assumption)

theorem State.loseNode_frame {w0 : Nat} {z0 : State} (s : State) (ln : Nat) (l : Nat) (hw : Area.sub 31058 w0) (h_s : State.Frame w0 z0 s) :
    State.Frame w0 z0 (State.loseNode s ln l) := by
  unfold State.loseNode
  try dsimp only
  repeat' first
    | (with_reducible first
       | assumption | exact Area.sub_trans (by decide) hw | apply State.rebuildNode_frame | apply State.nodeFails_frame | apply kIte)
    | split

theorem State.prefetch_frame {w0 : Nat} {z0 : State} (s : State) (ln : Nat) (l : Nat) (hw : Area.sub 8194 w0) (h_s : State.Frame w0 z0 s) :
    State.Frame w0 z0 (State.prefetch s ln l) := by
  unfold State.prefetch
  try dsimp only
  repeat' first
    | (with_reducible first
       | assumption | exact Area.sub_trans (by decide) hw | intro _ | apply State.issueSense_frame | apply State.count_frame | apply kIte
       | apply kFoldl)
    | split

theorem State.startFill_frame {w0 : Nat} {z0 : State} (s : State) (ln : Nat) (r : Reader) (hw : Area.sub 31058 w0) (h_s : State.Frame w0 z0 s) :
    State.Frame w0 z0 (State.startFill s ln r).2 := by
  unfold State.startFill
  try dsimp only
  repeat' first
    | (with_reducible first
       | assumption | exact Area.sub_trans (by decide) hw | apply State.count_frame | apply State.loseNode_frame
       | apply State.sampleHeat_frame | apply State.dramAccess_frame | apply State.install_frame | apply State.issueSense_frame
       | apply State.prefetch_frame | apply iteP | apply kIte)
    | dsimp only
    | (with_reducible refine kUpd ?_; with_reducible apply State.count_frame)
    | split

theorem State.modOp_frame {w0 : Nat} {z0 : State} (s : State) (id : Nat) (f : Op → Op) (hw : Area.sub 16 w0) (h_s : State.Frame w0 z0 s) :
    State.Frame w0 z0 (State.modOp s id f) := by
  unfold State.modOp
  try dsimp only
  with_reducible repeat' first | (refine kUpd ?_; assumption)

theorem State.finishOp_frame {w0 : Nat} {z0 : State} (s : State) (id : Nat) (r : Response) (hw : Area.sub 16 w0) (h_s : State.Frame w0 z0 s) :
    State.Frame w0 z0 (State.finishOp s id r) := by
  unfold State.finishOp
  try dsimp only
  with_reducible repeat' first | assumption | apply State.modOp_frame

theorem State.failOp_frame {w0 : Nat} {z0 : State} (s : State) (id : Nat) (st : Status) (hw : Area.sub 16 w0) (h_s : State.Frame w0 z0 s) :
    State.Frame w0 z0 (State.failOp s id st) := by
  unfold State.failOp
  try dsimp only
  with_reducible repeat' first | assumption | apply State.modOp_frame

theorem State.noteShadow_frame {w0 : Nat} {z0 : State} (s : State) (ln : Nat) (st : Status) (hw : Area.sub 32768 w0) (h_s : State.Frame w0 z0 s) :
    State.Frame w0 z0 (State.noteShadow s ln st) := by
  unfold State.noteShadow
  try dsimp only
  with_reducible repeat' first | assumption | apply kIte | (refine kUpd ?_; assumption)

theorem State.noteFail_frame {w0 : Nat} {z0 : State} (s0 : State) (ln : Nat) (st : Status) (hw : Area.sub 32784 w0) (h_s0 : State.Frame w0 z0 s0) :
    State.Frame w0 z0 (State.noteFail s0 ln st) := by
  unfold State.noteFail
  try dsimp only
  with_reducible repeat' first | assumption | exact Area.sub_trans (by decide) hw | (refine kUpd ?_; apply State.noteShadow_frame)

/-! ### Machine/Stitch.lean -/

theorem State.gateWait_frame {w0 : Nat} {z0 : State} (s : State) (id : Nat) (o : Op) (hw : Area.sub 16 w0) (h_s : State.Frame w0 z0 s) :
    State.Frame w0 z0 (State.gateWait s id o) := by
  unfold State.gateWait
  try dsimp only
  with_reducible repeat' first | assumption | apply State.modOp_frame

theorem State.doWrite_frame {w0 : Nat} {z0 : State} (s : State) (id : Nat) (o : Op) (bytes : List Byte) (hw : Area.sub 28690 w0) (h_s : State.Frame w0 z0 s) :
    State.Frame w0 z0 (State.doWrite s id o bytes) := by
  unfold State.doWrite
  try dsimp only
  repeat' first
    | (with_reducible first
       | assumption | exact Area.sub_trans (by decide) hw | apply State.failOp_frame | apply State.writeRange_frame
       | apply State.finishOp_frame)
    | split

theorem State.doRead_frame {w0 : Nat} {z0 : State} (s : State) (id : Nat) (o : Op) (hw : Area.sub 16 w0) (h_s : State.Frame w0 z0 s) :
    State.Frame w0 z0 (State.doRead s id o) := by
  unfold State.doRead
  try dsimp only
  with_reducible repeat' first | assumption | apply State.finishOp_frame | apply kIte | (refine kUpd ?_; assumption)

theorem State.doAtomic_frame {w0 : Nat} {z0 : State} (s : State) (id : Nat) (o : Op) (hw : Area.sub 28690 w0) (h_s : State.Frame w0 z0 s) :
    State.Frame w0 z0 (State.doAtomic s id o) := by
  unfold State.doAtomic
  try dsimp only
  repeat' first
    | (with_reducible first
       | assumption | exact Area.sub_trans (by decide) hw | apply State.failOp_frame | apply State.count_frame
       | apply State.writeRange_frame | apply State.finishOp_frame | apply kIte)
    | split

theorem State.doCopy_frame {w0 : Nat} {z0 : State} (s : State) (id : Nat) (o : Op) (hw : Area.sub 28690 w0) (h_s : State.Frame w0 z0 s) :
    State.Frame w0 z0 (State.doCopy s id o) := by
  unfold State.doCopy
  try dsimp only
  with_reducible repeat' first
    | assumption | exact Area.sub_trans (by decide) hw | apply State.failOp_frame | apply State.doWrite_frame | apply kIte

theorem State.prepareOp_frame {w0 : Nat} {z0 : State} (s : State) (id : Nat) (o : Op) (hw : Area.sub 16 w0) (h_s : State.Frame w0 z0 s) :
    State.Frame w0 z0 (State.prepareOp s id o) := by
  unfold State.prepareOp
  try dsimp only
  with_reducible repeat' first | assumption | apply State.finishOp_frame

theorem State.perform_frame {w0 : Nat} {z0 : State} (s : State) (id : Nat) (o : Op) (hw : Area.sub 28690 w0) (h_s : State.Frame w0 z0 s) :
    State.Frame w0 z0 (State.perform s id o) := by
  unfold State.perform
  try dsimp only
  repeat' first
    | (with_reducible first
       | assumption | exact Area.sub_trans (by decide) hw | apply State.prepareOp_frame | apply State.doRead_frame
       | apply State.doWrite_frame | apply State.doAtomic_frame | apply State.doCopy_frame | apply kIte)
    | split

theorem State.startFills_frame {w0 : Nat} {z0 : State} (s : State) (id : Nat) (o : Op) (hw : Area.sub 31058 w0) (h_s : State.Frame w0 z0 s) :
    State.Frame w0 z0 (State.startFills s id o) := by
  unfold State.startFills
  try dsimp only
  repeat' first
    | (with_reducible first
       | assumption | exact Area.sub_trans (by decide) hw | intro _ | apply State.modOp_frame | apply kIte | apply kFoldl
       | (refine kUpd ?_; (refine kSnd (by assumption) ?_; apply State.startFill_frame)))
    | split

theorem State.resumeOp_frame {w0 : Nat} {z0 : State} (s : State) (id : Nat) (hw : Area.sub 31058 w0) (h_s : State.Frame w0 z0 s) :
    State.Frame w0 z0 (State.resumeOp s id) := by
  unfold State.resumeOp
  try dsimp only
  repeat' first
    | (with_reducible first
       | assumption | exact Area.sub_trans (by decide) hw | apply State.failOp_frame | apply State.perform_frame
       | apply State.startFills_frame | apply kIte)
    | split

theorem State.noteUse_frame {w0 : Nat} {z0 : State} (s : State) (o : Op) (hw : Area.sub 16384 w0) (h_s : State.Frame w0 z0 s) :
    State.Frame w0 z0 (State.noteUse s o) := by
  unfold State.noteUse
  try dsimp only
  repeat' first | (with_reducible first | assumption | (refine kUpd ?_; assumption)) | split

theorem State.runLocal_frame {w0 : Nat} {z0 : State} (s : State) (id : Nat) (hw : Area.sub 31058 w0) (h_s : State.Frame w0 z0 s) :
    State.Frame w0 z0 (State.runLocal s id) := by
  unfold State.runLocal
  try dsimp only
  repeat' first
    | (with_reducible first
       | assumption | exact Area.sub_trans (by decide) hw | apply State.gateWait_frame | apply State.loseNode_frame
       | apply State.failOp_frame | apply State.modOp_frame | apply State.noteUse_frame | apply State.startFills_frame
       | apply State.resumeOp_frame | apply kIte)
    | split

theorem State.proceed_frame {w0 : Nat} {z0 : State} (s : State) (id : Nat) (hw : Area.sub 31058 w0) (h_s : State.Frame w0 z0 s) :
    State.Frame w0 z0 (State.proceed s id) := by
  unfold State.proceed
  try dsimp only
  repeat' first | (with_reducible first | assumption | apply State.runLocal_frame | apply State.resumeOp_frame | apply kIte) | split

theorem State.resumeOps_frame {w0 : Nat} {z0 : State} (s : State) (hw : Area.sub 31058 w0) (h_s : State.Frame w0 z0 s) :
    State.Frame w0 z0 (State.resumeOps s) := by
  unfold State.resumeOps
  try dsimp only
  with_reducible repeat' first | assumption | intro _ | apply State.proceed_frame | apply kFoldl

theorem State.fillGood_frame {w0 : Nat} {z0 : State} (s : State) (ln : Nat) (data : LineBits) (poison : BitVec 4) (cause : Nat) (hw : Area.sub 31058 w0) (h_s : State.Frame w0 z0 s) :
    State.Frame w0 z0 (State.fillGood s ln data poison cause) := by
  unfold State.fillGood
  try dsimp only
  with_reducible repeat' first
    | assumption | exact Area.sub_trans (by decide) hw | apply State.resumeOps_frame | apply State.install_frame | apply kIte

theorem State.fillBad_frame {w0 : Nat} {z0 : State} (s : State) (ln : Nat) (st : Status) (cause : Nat) (hw : Area.sub 63826 w0) (h_s : State.Frame w0 z0 s) :
    State.Frame w0 z0 (State.fillBad s ln st cause) := by
  unfold State.fillBad
  try dsimp only
  with_reducible repeat' first
    | assumption | exact Area.sub_trans (by decide) hw | apply State.resumeOps_frame | apply State.noteFail_frame
    | apply State.poisonLine_frame | apply kIte

/-! ### Machine/Place.lean -/

theorem State.putPrk_frame {w0 : Nat} {z0 : State} (s : State) (lsw : Nat) (e : Prk) (hw : Area.sub 8192 w0) (h_s : State.Frame w0 z0 s) :
    State.Frame w0 z0 (State.putPrk s lsw e) := by
  unfold State.putPrk
  try dsimp only
  with_reducible repeat' first | (refine kUpd ?_; assumption)

theorem State.putLdg_frame {w0 : Nat} {z0 : State} (s : State) (ps : Nat) (e : Ldg) (hw : Area.sub 8192 w0) (h_s : State.Frame w0 z0 s) :
    State.Frame w0 z0 (State.putLdg s ps e) := by
  unfold State.putLdg
  try dsimp only
  with_reducible repeat' first | (refine kUpd ?_; assumption)

theorem State.sortPool_frame {w0 : Nat} {z0 : State} (s : State) (hw : Area.sub 8192 w0) (h_s : State.Frame w0 z0 s) :
    State.Frame w0 z0 (State.sortPool s) := by
  unfold State.sortPool
  try dsimp only
  with_reducible repeat' first | (refine kUpd ?_; assumption)

theorem State.wearSlowFor_frame {w0 : Nat} {z0 : State} (s : State) (dev : Nat) (rate : Nat) (hw : Area.sub 8210 w0) (h_s : State.Frame w0 z0 s) :
    State.Frame w0 z0 (State.wearSlowFor s dev rate) := by
  unfold State.wearSlowFor
  try dsimp only
  repeat' first
    | (with_reducible first
       | assumption | exact Area.sub_trans (by decide) hw | intro _ | apply kIte | apply kFoldl
       | (refine kUpd ?_; apply State.slowFor_frame))
    | split

theorem State.wearSlow_frame {w0 : Nat} {z0 : State} (s : State) (rate : Nat) (hw : Area.sub 24594 w0) (h_s : State.Frame w0 z0 s) :
    State.Frame w0 z0 (State.wearSlow s rate) := by
  unfold State.wearSlow
  try dsimp only
  with_reducible repeat' first
    | assumption | exact Area.sub_trans (by decide) hw | apply State.wearSlowFor_frame | apply kIte
    | (refine kUpd ?_; apply State.report_frame)

theorem State.wearLift_frame {w0 : Nat} {z0 : State} (s : State) (dev : Nat) (hw : Area.sub 8210 w0) (h_s : State.Frame w0 z0 s) :
    State.Frame w0 z0 (State.wearLift s dev) := by
  unfold State.wearLift
  try dsimp only
  repeat' first
    | (with_reducible first
       | assumption | exact Area.sub_trans (by decide) hw | intro _ | apply State.slowLiftFor_frame | apply kIte
       | (refine kUpd ?_; apply kFoldl))
    | split

theorem State.govWait_frame {w0 : Nat} {z0 : State} (s : State) (hw : Area.sub 24914 w0) (h_s : State.Frame w0 z0 s) :
    State.Frame w0 z0 (State.govWait s) := by
  unfold State.govWait
  try dsimp only
  with_reducible repeat' first
    | exact Area.sub_trans (by decide) hw | apply State.count_frame | apply State.setFlag_frame | apply State.raise_frame
    | apply State.wearSlow_frame | apply kIte | (refine kUpd ?_; assumption)

theorem State.takeToken_frame {w0 : Nat} {z0 : State} (s : State) (hw : Area.sub 8192 w0) (h_s : State.Frame w0 z0 s) :
    State.Frame.Opt w0 z0 (State.takeToken s) := by
  unfold State.takeToken
  try dsimp only
  with_reducible repeat' first | exact optNone | apply optSome | apply optIte | (refine kUpd ?_; assumption)

theorem State.govDayStart_frame {w0 : Nat} {z0 : State} (s : State) (hw : Area.sub 8514 w0) (h_s : State.Frame w0 z0 s) :
    State.Frame w0 z0 (State.govDayStart s) := by
  unfold State.govDayStart
  try dsimp only
  with_reducible repeat' first
    | exact Area.sub_trans (by decide) hw | apply State.setFld_frame | apply State.raise_frame | apply kIte | (refine kUpd ?_; assumption)

theorem State.govTick_frame {w0 : Nat} {z0 : State} (s : State) (hw : Area.sub 8194 w0) (h_s : State.Frame w0 z0 s) :
    State.Frame w0 z0 (State.govTick s) := by
  unfold State.govTick
  try dsimp only
  with_reducible repeat' first
    | exact Area.sub_trans (by decide) hw | apply State.setFld_frame | apply State.putFlag_frame | (refine kUpd ?_; assumption)

theorem State.govOpen_frame {w0 : Nat} {z0 : State} (s : State) (hw : Area.sub 8514 w0) (h_s : State.Frame w0 z0 s) :
    State.Frame w0 z0 (State.govOpen s) := by
  have h : ∀ t : State, State.Frame w0 z0 t → State.Frame w0 z0 { t with mem := { t.mem with gov := t.mem.gov.burst } } := fun _ ht => State.Frame.kUpd ht
  exact h _ (State.govTick_frame _ (Area.sub_trans (by decide) hw) (State.govDayStart_frame _ (Area.sub_trans (by decide) hw) h_s))

theorem State.wearEvent_frame {w0 : Nat} {z0 : State} (s : State) (t : State) (hw : Area.sub 322 w0) (h_s : State.Frame w0 z0 s) (h_t : State.Frame w0 z0 t) :
    State.Frame w0 z0 (State.wearEvent s t) := by
  unfold State.wearEvent
  try dsimp only
  with_reducible repeat' first | assumption | apply State.raise_frame | apply kIte

theorem State.addProgs_frame {w0 : Nat} {z0 : State} (s : State) (ps : Nat) (n : Nat) (hw : Area.sub 8514 w0) (h_s : State.Frame w0 z0 s) :
    State.Frame w0 z0 (State.addProgs s ps n) := by
  unfold State.addProgs
  try dsimp only
  with_reducible repeat' first | assumption | exact Area.sub_trans (by decide) hw | apply State.wearEvent_frame | apply State.putLdg_frame

theorem State.uncopy_frame {w0 : Nat} {z0 : State} (s : State) (p : Nat) (hw : Area.sub 8192 w0) (h_s : State.Frame w0 z0 s) :
    State.Frame w0 z0 (State.uncopy s p) := by
  unfold State.uncopy
  try dsimp only
  with_reducible repeat' first | (refine kUpd ?_; assumption)

theorem State.startProgram_frame {w0 : Nat} {z0 : State} (s : State) (ln : Nat) (p : Nat) (img : LineImg) (user : Bool) (serial : Bool := false) (hw : Area.sub 8514 w0) (h_s : State.Frame w0 z0 s) :
    State.Frame w0 z0 (State.startProgram s ln p img user serial) := by
  unfold State.startProgram
  try dsimp only
  with_reducible repeat' first
    | assumption | exact Area.sub_trans (by decide) hw | apply State.addProgs_frame | apply State.uncopy_frame
    | (refine kUpd ?_; assumption)

theorem State.convLine_frame {w0 : Nat} {z0 : State} (s : State) (rekey : Bool) (ln : Nat) (hw : Area.sub 12288 w0) (h_s : State.Frame w0 z0 s) :
    State.Frame w0 z0 (State.convLine s rekey ln) := by
  unfold State.convLine
  try dsimp only
  with_reducible repeat' first | (refine kUpd ?_; assumption)

theorem State.selvedgePast_frame {w0 : Nat} {z0 : State} (s : State) (n : Nat) (hw : Area.sub 8194 w0) (h_s : State.Frame w0 z0 s) :
    State.Frame w0 z0 (State.selvedgePast s n) := by
  unfold State.selvedgePast
  try dsimp only
  repeat' first
    | (with_reducible first
       | assumption | exact Area.sub_trans (by decide) hw | apply State.wr_frame | apply State.setFld_frame | (refine kUpd ?_; assumption))
    | split

theorem State.convFinish_frame {w0 : Nat} {z0 : State} (s : State) (n : Nat) (c : NodeConv) (hw : Area.sub 12290 w0) (h_s : State.Frame w0 z0 s) :
    State.Frame w0 z0 (State.convFinish s n c) := by
  unfold State.convFinish
  try dsimp only
  with_reducible repeat' first
    | assumption | exact Area.sub_trans (by decide) hw | intro _ | apply State.convLine_frame | apply State.selvedgePast_frame
    | apply State.count_frame | apply kIte | (refine kUpd ?_; apply kFoldl)

theorem State.convSettle_frame {w0 : Nat} {z0 : State} (s : State) (hw : Area.sub 12290 w0) (h_s : State.Frame w0 z0 s) :
    State.Frame w0 z0 (State.convSettle s) := by
  unfold State.convSettle
  try dsimp only
  with_reducible repeat' first | assumption | intro _ | apply State.convFinish_frame | apply kFoldl

theorem State.startConv_frame {w0 : Nat} {z0 : State} (s : State) (ln : Nat) (l : Nat) (ver : Bool) (rekey : Bool) (hw : Area.sub 31058 w0) (h_s : State.Frame w0 z0 s) :
    State.Frame w0 z0 (State.startConv s ln l ver rekey) := by
  unfold State.startConv
  try dsimp only
  repeat' first
    | (with_reducible first
       | assumption | exact Area.sub_trans (by decide) hw | intro _ | apply State.poisonLine_frame | apply State.convSettle_frame
       | apply kIte | apply kFoldl | (refine kUpd ?_; first | assumption | (refine kSnd (by assumption) ?_; apply State.startFill_frame)))
    | split

theorem State.markCurrent_frame {w0 : Nat} {z0 : State} (s : State) (ps : Nat) (hw : Area.sub 8192 w0) (h_s : State.Frame w0 z0 s) :
    State.Frame w0 z0 (State.markCurrent s ps) := by
  unfold State.markCurrent
  try dsimp only
  with_reducible repeat' first | (refine kUpd ?_; assumption)

theorem State.startMapping_frame {w0 : Nat} {z0 : State} (s : State) (lsw : Nat) (hw : Area.sub 8194 w0) (h_s : State.Frame w0 z0 s) :
    State.Frame w0 z0 (State.startMapping s lsw) := by
  unfold State.startMapping
  try dsimp only
  repeat' first
    | (with_reducible first
       | assumption | exact Area.sub_trans (by decide) hw | apply State.setFlag_frame | apply State.putPrk_frame | apply kIte
       | (refine kUpd ?_; apply State.putLdg_frame))
    | split

theorem State.programTier_frame {w0 : Nat} {z0 : State} (s : State) (ln : Nat) (t : TierLine) (hw : Area.sub 12610 w0) (h_s : State.Frame w0 z0 s) :
    State.Frame.Opt w0 z0 (State.programTier s ln t) := by
  unfold State.programTier
  try dsimp only
  repeat' first
    | (with_reducible first
       | assumption | exact Area.sub_trans (by decide) hw | intro _ | apply State.takeToken_frame | apply State.dramAccess_frame
       | exact optNone | apply optSome | apply optIte | apply optMapS | (refine kUpd ?_; apply State.startProgram_frame))
    | split

theorem State.holdBack_frame {w0 : Nat} {z0 : State} (s : State) (ln : Nat) (hw : Area.sub 24914 w0) (h_s : State.Frame w0 z0 s) :
    State.Frame w0 z0 (State.holdBack s ln) := by
  unfold State.holdBack
  try dsimp only
  repeat' first
    | (with_reducible first
       | assumption | exact Area.sub_trans (by decide) hw | apply State.startMapping_frame | apply State.govWait_frame | apply kIte)
    | split

theorem State.tierSlot_frame {w0 : Nat} {z0 : State} (s : State) (hw : Area.sub 29010 w0) (h_s : State.Frame w0 z0 s) :
    State.Frame w0 z0 (State.tierSlot s).2 := by
  unfold State.tierSlot
  try dsimp only
  repeat' first
    | (with_reducible first | assumption | exact Area.sub_trans (by decide) hw | apply State.count_frame | apply State.holdBack_frame | apply iteP)
    | dsimp only
    | (with_reducible refine kUpd ?_; with_reducible first | apply State.count_frame | (refine ofOpt (by assumption) ?_; with_reducible apply State.programTier_frame))
    | split

theorem State.admitClean_frame {w0 : Nat} {z0 : State} (s : State) (ln : Nat) (l : Nat) (c : LlcLine) (hw : Area.sub 29010 w0) (h_s : State.Frame w0 z0 s) :
    State.Frame w0 z0 (State.admitClean s ln l c) := by
  unfold State.admitClean
  try dsimp only
  repeat' first
    | (with_reducible first
       | assumption | exact Area.sub_trans (by decide) hw | apply State.count_frame | apply State.dramAccess_frame
       | (refine kUpd ?_; (refine kSnd (by assumption) ?_; apply State.tierSlot_frame)))
    | split

theorem State.cleanTier_frame {w0 : Nat} {z0 : State} (s : State) (floor : Nat) (r0 : Nat) (hw : Area.sub 29010 w0) (h_s : State.Frame w0 z0 s) :
    State.Frame w0 z0 (State.cleanTier s floor r0) := by
  induction r0 generalizing s floor with
  | zero =>
    unfold State.cleanTier
    try dsimp only
    repeat' first
      | (with_reducible first
         | assumption | exact Area.sub_trans (by decide) hw | apply State.count_frame | apply State.holdBack_frame | apply kIte
         | (refine kUpd ?_; (refine ofOpt (by assumption) ?_; apply State.programTier_frame)))
      | split
  | succ _ ih =>
    unfold State.cleanTier
    try dsimp only
    repeat' first
      | (with_reducible first
         | assumption | exact Area.sub_trans (by decide) hw | apply ih | apply State.count_frame | apply State.holdBack_frame | apply kIte
         | (refine kUpd ?_; (refine ofOpt (by assumption) ?_; apply State.programTier_frame)))
      | split

theorem State.cleaner_frame {w0 : Nat} {z0 : State} (s : State) (hw : Area.sub 29010 w0) (h_s : State.Frame w0 z0 s) :
    State.Frame w0 z0 (State.cleaner s) := by
  unfold State.cleaner
  try dsimp only
  with_reducible repeat' first | assumption | apply kIte | (refine kUpd ?_; first | assumption | apply State.cleanTier_frame)

theorem State.mappingDone_frame {w0 : Nat} {z0 : State} (s : State) (lsw : Nat) (hw : Area.sub 12610 w0) (h_s : State.Frame w0 z0 s) :
    State.Frame w0 z0 (State.mappingDone s lsw) := by
  unfold State.mappingDone
  try dsimp only
  repeat' first
    | (with_reducible first
       | assumption | exact Area.sub_trans (by decide) hw | apply State.draw_frame | apply State.putPrk_frame | apply State.putLdg_frame
       | apply State.markCurrent_frame | apply State.count_frame | apply State.clrFlag_frame | apply kIte
       | (refine kUpd ?_; apply State.addProgs_frame))
    | split

theorem execMappingFillDone_frame {w0 : Nat} {z0 : State} (lsw : Nat) (s : State) (hw : Area.sub 12610 w0) (h_s : State.Frame w0 z0 s) :
    State.Frame.Ans w0 z0 (execMappingFillDone lsw s) := by
  unfold execMappingFillDone
  try dsimp only
  with_reducible repeat' first | assumption | apply State.mappingDone_frame | apply ansWithin | apply kIte

theorem State.dropEvb_frame {w0 : Nat} {z0 : State} (s : State) (ln : Nat) (hw : Area.sub 12288 w0) (h_s : State.Frame w0 z0 s) :
    State.Frame w0 z0 (State.dropEvb s ln) := by
  unfold State.dropEvb
  try dsimp only
  with_reducible repeat' first | (refine kUpd ?_; assumption)

theorem State.slotFor_frame {w0 : Nat} {z0 : State} (s : State) (ln : Nat) (hw : Area.sub 29010 w0) (h_s : State.Frame w0 z0 s) :
    State.Frame w0 z0 (State.slotFor s ln).2 := by
  unfold State.slotFor
  try dsimp only
  repeat' first | (with_reducible first | assumption | apply State.tierSlot_frame) | split

theorem State.tierDirty_frame {w0 : Nat} {z0 : State} (s : State) (ln : Nat) (l : Nat) (c : LlcLine) (hw : Area.sub 29010 w0) (h_s : State.Frame w0 z0 s) :
    State.Frame w0 z0 (State.tierDirty s ln l c).2 := by
  unfold State.tierDirty
  try dsimp only
  repeat' first
    | (with_reducible first
       | assumption | exact Area.sub_trans (by decide) hw | apply State.dramAccess_frame | apply State.count_frame
       | apply State.cleaner_frame)
    | dsimp only
    | (with_reducible refine kUpd ?_; with_reducible first | (refine kSnd (by assumption) ?_; with_reducible apply State.slotFor_frame) | (refine ofOptP (by assumption) ?_; with_reducible apply State.sealLine_frame))
    | split

theorem State.placeDirty_frame {w0 : Nat} {z0 : State} (s : State) (ln : Nat) (l : Nat) (c : LlcLine) (hw : Area.sub 31058 w0) (h_s : State.Frame w0 z0 s) :
    State.Frame w0 z0 (State.placeDirty s ln l c).2 := by
  unfold State.placeDirty
  try dsimp only
  repeat' first
    | (with_reducible first
       | assumption | exact Area.sub_trans (by decide) hw | apply State.startConv_frame | apply State.startMapping_frame
       | apply State.takeToken_frame | apply State.startProgram_frame | apply State.count_frame | apply State.govWait_frame
       | apply State.tierDirty_frame | apply iteP | (refine kUpd ?_; (refine ofOptP (by assumption) ?_; apply State.sealLine_frame)))
    | split
    | (with_reducible first | apply optSome | (refine ofOpt (by assumption) ?_; first | split | apply optIte | apply optFindSome))

theorem State.placeClean_frame {w0 : Nat} {z0 : State} (s : State) (ln : Nat) (l : Nat) (c : LlcLine) (hw : Area.sub 29010 w0) (h_s : State.Frame w0 z0 s) :
    State.Frame w0 z0 (State.placeClean s ln l c) := by
  unfold State.placeClean
  try dsimp only
  with_reducible repeat' first
    | assumption | exact Area.sub_trans (by decide) hw | apply State.count_frame | apply State.admitClean_frame | apply kIte

theorem State.evictLine_frame {w0 : Nat} {z0 : State} (s : State) (ln : Nat) (hw : Area.sub 31058 w0) (h_s : State.Frame w0 z0 s) :
    State.Frame w0 z0 (State.evictLine s ln) := by
  unfold State.evictLine
  try dsimp only
  repeat' first
    | (with_reducible first
       | assumption | exact Area.sub_trans (by decide) hw | apply State.dropEvb_frame | apply State.count_frame
       | apply State.placeClean_frame | apply State.loseNode_frame | apply State.placeDirty_frame | apply kIte
       | (refine kUpd ?_; apply State.dropEvb_frame))
    | split

theorem execLineEvict_frame {w0 : Nat} {z0 : State} (line : Nat) (s : State) (hw : Area.sub 31058 w0) (h_s : State.Frame w0 z0 s) :
    State.Frame.Ans w0 z0 (execLineEvict line s) := by
  unfold execLineEvict
  try dsimp only
  with_reducible repeat' first | assumption | apply State.evictLine_frame | apply ansWithin

theorem State.spareFalls_frame {w0 : Nat} {z0 : State} (s : State) (hw : Area.sub 24914 w0) (h_s : State.Frame w0 z0 s) :
    State.Frame w0 z0 (State.spareFalls s) := by
  unfold State.spareFalls
  try dsimp only
  with_reducible repeat' first
    | assumption | exact Area.sub_trans (by decide) hw | apply State.setFld_frame | apply State.raise_frame | apply State.wearSlow_frame
    | apply State.report_frame | apply kIte

theorem State.setRetired_frame {w0 : Nat} {z0 : State} (s : State) (ps : Nat) (cause : Nat) (hw : Area.sub 24914 w0) (h_s : State.Frame w0 z0 s) :
    State.Frame w0 z0 (State.setRetired s ps cause) := by
  unfold State.setRetired
  try dsimp only
  with_reducible repeat' first
    | assumption | exact Area.sub_trans (by decide) hw | apply State.wearEvent_frame | apply State.putLdg_frame
    | apply State.spareFalls_frame | apply State.raise_frame

theorem State.startMove_frame {w0 : Nat} {z0 : State} (s : State) (lsw : Nat) (young : Bool) (why : MoveWhy) (hw : Area.sub 8194 w0) (h_s : State.Frame w0 z0 s) :
    State.Frame.Opt w0 z0 (State.startMove s lsw young why) := by
  unfold State.startMove
  try dsimp only
  repeat' first
    | (with_reducible first
       | assumption | exact Area.sub_trans (by decide) hw | apply State.draw_frame | apply State.putPrk_frame | apply State.setFld_frame
       | exact optNone | apply optSome | (refine kUpd ?_; apply State.putLdg_frame))
    | split

theorem State.retireSwatch_frame {w0 : Nat} {z0 : State} (s : State) (ps : Nat) (cause : Nat) (hw : Area.sub 24914 w0) (h_s : State.Frame w0 z0 s) :
    State.Frame w0 z0 (State.retireSwatch s ps cause) := by
  unfold State.retireSwatch
  try dsimp only
  repeat' first
    | (with_reducible first
       | assumption | exact Area.sub_trans (by decide) hw | apply State.setRetired_frame | apply kIte
       | (refine kUpd ?_; first | assumption | (refine ofOpt (by assumption) ?_; apply State.startMove_frame)))
    | split

theorem State.retireWaiting_frame {w0 : Nat} {z0 : State} (s : State) (hw : Area.sub 24914 w0) (h_s : State.Frame w0 z0 s) :
    State.Frame w0 z0 (State.retireWaiting s) := by
  unfold State.retireWaiting
  try dsimp only
  with_reducible repeat' first | assumption | intro _ | apply State.retireSwatch_frame | apply kFoldl | (refine kUpd ?_; assumption)

theorem State.putCopy'_frame {w0 : Nat} {z0 : State} (s : State) (mv : Move) (i : Nat) (img : LineImg) (hw : Area.sub 12288 w0) (h_s : State.Frame w0 z0 s) :
    State.Frame w0 z0 (State.putCopy' s mv i img) := by
  unfold State.putCopy'
  try dsimp only
  with_reducible repeat' first | (refine kUpd ?_; assumption)

theorem State.copyLine_frame {w0 : Nat} {z0 : State} (s : State) (mv : Move) (i : Nat) (hw : Area.sub 12288 w0) (h_s : State.Frame w0 z0 s) :
    State.Frame w0 z0 (State.copyLine s mv i) := by
  unfold State.copyLine
  try dsimp only
  repeat' first | (with_reducible first | assumption | apply State.putCopy'_frame) | split

theorem State.copyLost_frame {w0 : Nat} {z0 : State} (s : State) (mv : Move) (i : Nat) (hw : Area.sub 12610 w0) (h_s : State.Frame w0 z0 s) :
    State.Frame w0 z0 (State.copyLost s mv i) := by
  unfold State.copyLost
  try dsimp only
  repeat' first
    | (with_reducible first
       | assumption | exact Area.sub_trans (by decide) hw | apply State.putCopy'_frame | apply State.poisonSet_frame
       | apply State.poisonLine_frame | (refine kUpd ?_; (refine ofOptP (by assumption) ?_; apply State.sealLine_frame)))
    | split

set_option maxRecDepth 4000 in
theorem State.copyNext_frame {w0 : Nat} {z0 : State} (s : State) (k : Nat) (mv : Move) (hw : Area.sub 12610 w0) (h_s : State.Frame w0 z0 s) :
    State.Frame.Opt w0 z0 (State.copyNext s k mv) := by
  unfold State.copyNext
  try dsimp only
  with_reducible repeat' first
    | assumption | exact Area.sub_trans (by decide) hw | intro _ | apply State.copyLine_frame | apply State.addProgs_frame
    | apply State.count_frame | exact optNone | apply optIte | apply optMap | (refine kUpd ?_; apply kIte)

theorem State.fillNext_frame {w0 : Nat} {z0 : State} (s : State) (lsw : Nat) (d : Nat) (hw : Area.sub 8514 w0) (h_s : State.Frame w0 z0 s) :
    State.Frame.Opt w0 z0 (State.fillNext s lsw d) := by
  unfold State.fillNext
  try dsimp only
  with_reducible repeat' first
    | assumption | apply State.addProgs_frame | exact optNone | apply optSome | apply optIte | (refine kUpd ?_; assumption)

theorem State.shareNext_frame {w0 : Nat} {z0 : State} (s : State) (hw : Area.sub 12610 w0) (h_s : State.Frame w0 z0 s) :
    State.Frame.Opt w0 z0 (State.shareNext s) := by
  unfold State.shareNext
  try dsimp only
  with_reducible repeat' first
    | assumption | exact Area.sub_trans (by decide) hw | intro _ | apply State.fillNext_frame | apply State.copyNext_frame
    | apply optFindSome | apply optOrElse

theorem State.shareWork_frame {w0 : Nat} {z0 : State} (s : State) (r0 : Nat) (hw : Area.sub 12610 w0) (h_s : State.Frame w0 z0 s) :
    State.Frame w0 z0 (State.shareWork s r0) := by
  induction r0 generalizing s with
  | zero =>
    unfold State.shareWork
    try dsimp only
    repeat' first
      | (with_reducible first | assumption | apply kIte | (refine kUpd ?_; (refine ofOpt (by assumption) ?_; apply State.shareNext_frame)))
      | split
  | succ _ ih =>
    unfold State.shareWork
    try dsimp only
    repeat' first
      | (with_reducible first
         | assumption | apply ih | apply kIte | (refine kUpd ?_; (refine ofOpt (by assumption) ?_; apply State.shareNext_frame)))
      | split

theorem State.retireWork_frame {w0 : Nat} {z0 : State} (s : State) (r0 : Nat) (hw : Area.sub 12610 w0) (h_s : State.Frame w0 z0 s) :
    State.Frame w0 z0 (State.retireWork s r0) := by
  induction r0 generalizing s with
  | zero =>
    unfold State.retireWork
    try dsimp only
    repeat' first
      | (with_reducible first | assumption | intro _ | apply State.copyNext_frame)
      | split
      | (with_reducible refine ofOpt (by assumption) ?_; with_reducible first | split | apply optIte | apply optFindSome)
  | succ _ ih =>
    unfold State.retireWork
    try dsimp only
    repeat' first
      | (with_reducible first | assumption | intro _ | apply ih | apply State.copyNext_frame)
      | split
      | (with_reducible refine ofOpt (by assumption) ?_; with_reducible first | split | apply optIte | apply optFindSome)

theorem State.copyTick_frame {w0 : Nat} {z0 : State} (s : State) (hw : Area.sub 12610 w0) (h_s : State.Frame w0 z0 s) :
    State.Frame w0 z0 (State.copyTick s) := by
  unfold State.copyTick
  try dsimp only
  with_reducible repeat' first
    | assumption | apply State.shareWork_frame | apply State.retireWork_frame | apply kIte | (refine kUpd ?_; assumption)

theorem execMoveCopyDone_frame {w0 : Nat} {z0 : State} (slot : Nat) (bad : List Nat) (recopied : Nat) (s : State) (hw : Area.sub 12610 w0) (h_s : State.Frame w0 z0 s) :
    State.Frame.Ans w0 z0 (execMoveCopyDone slot bad recopied s) := by
  unfold execMoveCopyDone
  try dsimp only
  repeat' first
    | (with_reducible first
       | assumption | exact Area.sub_trans (by decide) hw | intro _ | apply State.copyLost_frame | apply State.putPrk_frame
       | apply State.markCurrent_frame | apply ansWithin | apply kIte | apply kFoldl | (refine kUpd ?_; apply State.putLdg_frame))
    | split

theorem execMoveFinish_frame {w0 : Nat} {z0 : State} (slot : Nat) (s : State) (hw : Area.sub 29010 w0) (h_s : State.Frame w0 z0 s) :
    State.Frame.Ans w0 z0 (execMoveFinish slot s) := by
  unfold execMoveFinish
  try dsimp only
  repeat' first
    | (with_reducible first
       | assumption | exact Area.sub_trans (by decide) hw | apply State.putLdg_frame | apply State.setRetired_frame
       | apply State.setFld_frame | apply State.count_frame | apply State.retireWaiting_frame | apply ansWithin | apply kIte
       | (refine kUpd ?_; apply State.putLdg_frame))
    | split

theorem execMoveTimeout_frame {w0 : Nat} {z0 : State} (slot : Nat) (copied : Nat) (s : State) (hw : Area.sub 29010 w0) (h_s : State.Frame w0 z0 s) :
    State.Frame.Ans w0 z0 (execMoveTimeout slot copied s) := by
  unfold execMoveTimeout
  try dsimp only
  repeat' first
    | (with_reducible first
       | assumption | exact Area.sub_trans (by decide) hw | apply State.putLdg_frame | apply State.setFld_frame | apply State.raise_frame
       | apply State.retireSwatch_frame | apply ansWithin | apply kIte | (refine kUpd ?_; apply State.putPrk_frame))
    | split

theorem execHeatHalve_frame {w0 : Nat} {z0 : State} (s : State) (hw : Area.sub 8196 w0) (h_s : State.Frame w0 z0 s) :
    State.Frame.Ans w0 z0 (execHeatHalve s) := by
  unfold execHeatHalve
  try dsimp only
  with_reducible repeat' first
    | assumption | exact Area.sub_trans (by decide) hw | intro _ | apply State.periodic_frame | apply ansNext
    | (refine kUpd ?_; assumption)

theorem State.levelMoves_frame {w0 : Nat} {z0 : State} (s : State) (hw : Area.sub 8194 w0) (h_s : State.Frame w0 z0 s) :
    State.Frame w0 z0 (State.levelMoves s) := by
  unfold State.levelMoves
  try dsimp only
  with_reducible repeat' first | assumption | intro _ | apply State.startMove_frame | apply optGetD | apply kIte | apply kFoldl

theorem State.filetMoves_frame {w0 : Nat} {z0 : State} (s : State) (swatches : List Nat) (hw : Area.sub 8194 w0) (h_s : State.Frame w0 z0 s) :
    State.Frame w0 z0 (State.filetMoves s swatches) := by
  unfold State.filetMoves
  try dsimp only
  with_reducible repeat' first | assumption | intro _ | apply State.startMove_frame | apply optGetD | apply kIte | apply kFoldl

theorem execLevelPeriod_frame {w0 : Nat} {z0 : State} (s : State) (hw : Area.sub 24918 w0) (h_s : State.Frame w0 z0 s) :
    State.Frame.Ans w0 z0 (execLevelPeriod s) := by
  unfold execLevelPeriod
  try dsimp only
  with_reducible repeat' first
    | assumption | exact Area.sub_trans (by decide) hw | intro _ | apply State.periodic_frame | apply State.sortPool_frame
    | apply State.retireWaiting_frame | apply State.levelMoves_frame | apply State.filetMoves_frame | apply ansNext | apply kIte
    | (refine kUpd ?_; apply State.levelMoves_frame)

theorem State.toTable_frame {w0 : Nat} {z0 : State} (s : State) (hw : Area.sub 8192 w0) (h_s : State.Frame w0 z0 s) :
    State.Frame w0 z0 (State.toTable s) := by
  unfold State.toTable
  try dsimp only
  with_reducible repeat' first | (refine kUpd ?_; assumption)

theorem execTableCheckpoint_frame {w0 : Nat} {z0 : State} (s : State) (hw : Area.sub 8196 w0) (h_s : State.Frame w0 z0 s) :
    State.Frame.Ans w0 z0 (execTableCheckpoint s) := by
  unfold execTableCheckpoint
  try dsimp only
  with_reducible repeat' first
    | assumption | exact Area.sub_trans (by decide) hw | intro _ | apply State.periodic_frame | apply State.toTable_frame | apply ansNext

theorem execGovDayStart_frame {w0 : Nat} {z0 : State} (s : State) (hw : Area.sub 8518 w0) (h_s : State.Frame w0 z0 s) :
    State.Frame.Ans w0 z0 (execGovDayStart s) := by
  unfold execGovDayStart
  try dsimp only
  with_reducible repeat' first
    | assumption | exact Area.sub_trans (by decide) hw | intro _ | apply State.periodic_frame | apply State.govDayStart_frame
    | apply ansNext

theorem execGovRelease_frame {w0 : Nat} {z0 : State} (s : State) (hw : Area.sub 24594 w0) (h_s : State.Frame w0 z0 s) :
    State.Frame.Ans w0 z0 (execGovRelease s) := by
  unfold execGovRelease
  try dsimp only
  repeat' first
    | (with_reducible first
       | assumption | exact Area.sub_trans (by decide) hw | apply State.wearLift_frame | apply State.clrFlag_frame | apply ansNext
       | apply kIte | (refine kUpd ?_; apply State.report_frame))
    | split

theorem execWriteWaitTimeout_frame {w0 : Nat} {z0 : State} (op : Nat) (s : State) (hw : Area.sub 338 w0) (h_s : State.Frame w0 z0 s) :
    State.Frame.Ans w0 z0 (execWriteWaitTimeout op s) := by
  unfold execWriteWaitTimeout
  try dsimp only
  repeat' first
    | (with_reducible first
       | assumption | exact Area.sub_trans (by decide) hw | apply State.failOp_frame | apply State.count_frame | apply State.raise_frame
       | apply ansNext | apply kIte)
    | split

/-! ### Machine/Media.lean -/

theorem State.putDie_frame {w0 : Nat} {z0 : State} (s : State) (d : Nat) (x : Die) (hw : Area.sub 8194 w0) (h_s : State.Frame w0 z0 s) :
    State.Frame w0 z0 (State.putDie s d x) := by
  unfold State.putDie
  try dsimp only
  with_reducible repeat' first | exact Area.sub_trans (by decide) hw | apply State.setFld_frame | (refine kUpd ?_; assumption)

theorem State.reprogram_frame {w0 : Nat} {z0 : State} (s : State) (ln : Nat) (p : Nat) (img : LineImg) (data : LineBits) (poison : BitVec 4) (cause : Nat) (hw : Area.sub 12610 w0) (h_s : State.Frame w0 z0 s) :
    State.Frame w0 z0 (State.reprogram s ln p img data poison cause) := by
  unfold State.reprogram
  try dsimp only
  with_reducible repeat' first
    | assumption | exact Area.sub_trans (by decide) hw | apply State.count_frame | apply State.startProgram_frame | apply kIte
    | (refine kUpd ?_; apply State.install_frame)

theorem State.scrubAct_frame {w0 : Nat} {z0 : State} (s : State) (p : Nat) (l : Nat) (e : Sense) (r : ReadEnd) (hw : Area.sub 31058 w0) (h_s : State.Frame w0 z0 s) :
    State.Frame w0 z0 (State.scrubAct s p l e r) := by
  unfold State.scrubAct
  try dsimp only
  repeat' first
    | (with_reducible first
       | assumption | exact Area.sub_trans (by decide) hw | apply State.count_frame | apply State.poisonLine_frame
       | apply State.tagFail_frame | apply State.reprogram_frame | apply kIte)
    | split

theorem State.metaEvent_frame {w0 : Nat} {z0 : State} (s : State) (p : Nat) (hw : Area.sub 322 w0) (h_s : State.Frame w0 z0 s) :
    State.Frame w0 z0 (State.metaEvent s p) := by
  unfold State.metaEvent
  try dsimp only
  with_reducible repeat' first | assumption | apply State.raise_frame

theorem State.fillEnd_frame {w0 : Nat} {z0 : State} (s : State) (ln : Nat) (r : ReadEnd) (hw : Area.sub 63826 w0) (h_s : State.Frame w0 z0 s) :
    State.Frame w0 z0 (State.fillEnd s ln r) := by
  unfold State.fillEnd
  try dsimp only
  repeat' first
    | (with_reducible first
       | assumption | exact Area.sub_trans (by decide) hw | apply State.fillGood_frame | apply State.fillBad_frame
       | apply State.tagFail_frame | apply State.noteFail_frame | apply State.resumeOps_frame)
    | split

theorem State.rescored_frame {w0 : Nat} {z0 : State} (s : State) (ln : Nat) (l : Nat) (hw : Area.sub 29010 w0) (h_s : State.Frame w0 z0 s) :
    State.Frame w0 z0 (State.rescored s ln l) := by
  unfold State.rescored
  try dsimp only
  repeat' first | (with_reducible first | assumption | apply State.admitClean_frame | apply kIte) | split

theorem State.settleSense_frame {w0 : Nat} {z0 : State} (s : State) (p : Nat) (hw : Area.sub 63826 w0) (h_s : State.Frame w0 z0 s) :
    State.Frame w0 z0 (State.settleSense s p) := by
  unfold State.settleSense
  try dsimp only
  repeat' first
    | (with_reducible first
       | assumption | exact Area.sub_trans (by decide) hw | intro _ | apply State.resumeOps_frame | apply State.count_frame
       | apply State.metaEvent_frame | apply State.fillEnd_frame | apply State.rescored_frame | apply State.scrubAct_frame
       | apply State.convSettle_frame | apply kIte | apply kFoldl | (refine kUpd ?_; assumption))
    | split

theorem State.endFrag_frame {w0 : Nat} {z0 : State} (s : State) (p : Nat) (f : Nat) (o : FragOutcome) (hw : Area.sub 8192 w0) (h_s : State.Frame w0 z0 s) :
    State.Frame w0 z0 (State.endFrag s p f o) := by
  unfold State.endFrag
  try dsimp only
  with_reducible repeat' first | (refine kUpd ?_; assumption)

theorem State.repairLine_frame {w0 : Nat} {z0 : State} (s : State) (p : Nat) (hw : Area.sub 65858 w0) (h_s : State.Frame w0 z0 s) :
    State.Frame w0 z0 (State.repairLine s p) := by
  unfold State.repairLine
  try dsimp only
  repeat' first
    | (with_reducible first
       | assumption | exact Area.sub_trans (by decide) hw | apply State.count_frame
       | (refine kUpd ?_; (refine kSnd (by assumption) ?_; apply State.bobPush_frame)))
    | split

theorem State.dieFail_frame {w0 : Nat} {z0 : State} (s : State) (d : Nat) (cause : Nat) (hw : Area.sub 63826 w0) (h_s : State.Frame w0 z0 s) :
    State.Frame w0 z0 (State.dieFail s d cause) := by
  unfold State.dieFail
  try dsimp only
  repeat' first
    | (with_reducible first
       | assumption | exact Area.sub_trans (by decide) hw | intro _ | apply State.putDie_frame | apply State.raise_frame
       | apply State.wr_frame | apply State.endFrag_frame | apply State.settleSense_frame | apply kIte | apply kFoldl
       | (refine kUpd ?_; apply kFoldl))
    | split

theorem State.dieErasure_frame {w0 : Nat} {z0 : State} (s : State) (d : Nat) (hw : Area.sub 63826 w0) (h_s : State.Frame w0 z0 s) :
    State.Frame w0 z0 (State.dieErasure s d) := by
  unfold State.dieErasure
  try dsimp only
  with_reducible repeat' first
    | assumption | exact Area.sub_trans (by decide) hw | apply State.putDie_frame | apply State.dieFail_frame | apply kIte

theorem State.fragSensed_frame {w0 : Nat} {z0 : State} (s : State) (p : Nat) (f : Nat) (e : Sense) (x : FragState) (label : Nat) (okE : Bool) (n : Nat) (out : FragOutcome) (hw : Area.sub 129362 w0) (h_s : State.Frame w0 z0 s) :
    State.Frame w0 z0 (State.fragSensed s p f e x label okE n out) := by
  unfold State.fragSensed
  try dsimp only
  repeat' first
    | (with_reducible first
       | assumption | exact Area.sub_trans (by decide) hw | apply State.count_frame | apply State.raise_frame | apply State.endFrag_frame
       | apply State.settleSense_frame | apply State.repairLine_frame | apply State.dieErasure_frame | apply kIte
       | (refine kUpd ?_; apply kIte))
    | split

theorem execSenseComplete_frame {w0 : Nat} {z0 : State} (p : Nat) (f : Nat) (cells : List Int) (epochCells : List Int) (s : State) (hw : Area.sub 129362 w0) (h_s : State.Frame w0 z0 s) :
    State.Frame.Ans w0 z0 (execSenseComplete p f cells epochCells s) := by
  unfold execSenseComplete
  try dsimp only
  repeat' first | (with_reducible first | assumption | apply State.fragSensed_frame | apply ansWithin | apply kIte) | split

theorem execRowOpenTimeout_frame {w0 : Nat} {z0 : State} (p : Nat) (f : Nat) (s : State) (hw : Area.sub 8192 w0) (h_s : State.Frame w0 z0 s) :
    State.Frame.Ans w0 z0 (execRowOpenTimeout p f s) := by
  unfold execRowOpenTimeout
  try dsimp only
  repeat' first | (with_reducible first | assumption | apply ansWithin | apply kIte | (refine kUpd ?_; assumption)) | split

theorem State.settleProgram_frame {w0 : Nat} {z0 : State} (s : State) (p : Nat) (hw : Area.sub 31058 w0) (h_s : State.Frame w0 z0 s) :
    State.Frame w0 z0 (State.settleProgram s p) := by
  unfold State.settleProgram
  try dsimp only
  repeat' first | (with_reducible first | assumption | apply State.resumeOps_frame | apply kIte | (refine kUpd ?_; assumption)) | split

theorem State.remapRow_frame {w0 : Nat} {z0 : State} (s : State) (d : Nat) (bank : Nat) (row : Nat) (pulses : Nat) (hw : Area.sub 8514 w0) (h_s : State.Frame w0 z0 s) :
    State.Frame w0 z0 (State.remapRow s d bank row pulses) := by
  unfold State.remapRow
  try dsimp only
  with_reducible repeat' first
    | exact Area.sub_trans (by decide) hw | apply State.count_frame | apply State.raise_frame | apply kIte | (refine kUpd ?_; assumption)

theorem execProgramComplete_frame {w0 : Nat} {z0 : State} (p : Nat) (f : Nat) (outside : List Nat) (pulses : Nat) (s : State) (hw : Area.sub 31058 w0) (h_s : State.Frame w0 z0 s) :
    State.Frame.Ans w0 z0 (execProgramComplete p f outside pulses s) := by
  unfold execProgramComplete
  try dsimp only
  repeat' first
    | (with_reducible first
       | assumption | exact Area.sub_trans (by decide) hw | apply State.count_frame | apply State.remapRow_frame
       | apply State.settleProgram_frame | apply State.retireSwatch_frame | apply ansWithin | apply kIte
       | (refine kUpd ?_; first | apply State.count_frame | apply kIte))
    | split

theorem State.tryAdvance_frame {w0 : Nat} {z0 : State} (s : State) (hw : Area.sub 8518 w0) (h_s : State.Frame w0 z0 s) :
    State.Frame w0 z0 (State.tryAdvance s) := by
  unfold State.tryAdvance
  try dsimp only
  with_reducible repeat' first
    | assumption | exact Area.sub_trans (by decide) hw | apply State.setFlag_frame | apply State.raise_frame | apply State.arm_frame
    | apply State.disarm_frame | apply kIte | (refine kUpd ?_; assumption)

theorem execEpochPeriodEnd_frame {w0 : Nat} {z0 : State} (s : State) (hw : Area.sub 8518 w0) (h_s : State.Frame w0 z0 s) :
    State.Frame.Ans w0 z0 (execEpochPeriodEnd s) := by
  unfold execEpochPeriodEnd
  try dsimp only
  with_reducible repeat' first
    | assumption | exact Area.sub_trans (by decide) hw | apply State.disarm_frame | apply State.tryAdvance_frame | apply ansNext
    | apply kIte

theorem execEpochRecheck_frame {w0 : Nat} {z0 : State} (s : State) (hw : Area.sub 8518 w0) (h_s : State.Frame w0 z0 s) :
    State.Frame.Ans w0 z0 (execEpochRecheck s) := by
  unfold execEpochRecheck
  try dsimp only
  with_reducible repeat' first | assumption | apply State.tryAdvance_frame | apply ansNext | apply kIte

theorem State.witnessFail_frame {w0 : Nat} {z0 : State} (s : State) (L : Nat) (x : Nat × Nat) (hw : Area.sub 8192 w0) (h_s : State.Frame w0 z0 s) :
    State.Frame w0 z0 (State.witnessFail s L x) := by
  unfold State.witnessFail
  try dsimp only
  with_reducible repeat' first | apply kIte | (refine kUpd ?_; assumption)

theorem execWitnessProgramDone_frame {w0 : Nat} {z0 : State} (s : State) (hw : Area.sub 8198 w0) (h_s : State.Frame w0 z0 s) :
    State.Frame.Ans w0 z0 (execWitnessProgramDone s) := by
  unfold execWitnessProgramDone
  try dsimp only
  with_reducible repeat' first
    | assumption | exact Area.sub_trans (by decide) hw | intro _ | apply State.saturate_frame | apply State.setFld_frame
    | apply State.clrFlag_frame | apply State.witnessFail_frame | apply State.arm_frame | apply ansNext | apply kIte | apply kFoldl
    | (refine kUpd ?_; assumption)

theorem State.showSweep_frame {w0 : Nat} {z0 : State} (s : State) (d : Nat) (label : Nat) (plane : Nat) (fail : Bool) (hist : List Nat) (hw : Area.sub 8192 w0) (h_s : State.Frame w0 z0 s) :
    State.Frame w0 z0 (State.showSweep s d label plane fail hist) := by
  unfold State.showSweep
  try dsimp only
  with_reducible repeat' first | (refine kUpd ?_; assumption)

theorem State.refit_frame {w0 : Nat} {z0 : State} (s : State) (sweeps : List Sweep) (d : Nat) (label : Nat) (hw : Area.sub 8514 w0) (h_s : State.Frame w0 z0 s) :
    State.Frame w0 z0 (State.refit s sweeps d label) := by
  unfold State.refit
  try dsimp only
  with_reducible repeat' first
    | exact Area.sub_trans (by decide) hw | apply State.showSweep_frame | apply State.raise_frame | apply kIte
    | (refine kUpd ?_; assumption)

theorem State.setFallback_frame {w0 : Nat} {z0 : State} (s : State) (hw : Area.sub 2 w0) (h_s : State.Frame w0 z0 s) :
    State.Frame w0 z0 (State.setFallback s) := by
  unfold State.setFallback
  try dsimp only
  repeat' first | (with_reducible first | assumption | apply State.setFld_frame) | split

theorem State.refitAll_frame {w0 : Nat} {z0 : State} (s : State) (sweeps : List Sweep) (hw : Area.sub 8514 w0) (h_s : State.Frame w0 z0 s) :
    State.Frame w0 z0 (State.refitAll s sweeps) := by
  unfold State.refitAll
  try dsimp only
  with_reducible repeat' first
    | assumption | exact Area.sub_trans (by decide) hw | intro _ | apply State.refit_frame | apply State.setFallback_frame | apply kFoldl

theorem execLadderRefit_frame {w0 : Nat} {z0 : State} (sweeps : List Sweep) (s : State) (hw : Area.sub 8518 w0) (h_s : State.Frame w0 z0 s) :
    State.Frame.Ans w0 z0 (execLadderRefit sweeps s) := by
  unfold execLadderRefit
  try dsimp only
  with_reducible repeat' first
    | assumption | exact Area.sub_trans (by decide) hw | intro _ | apply State.periodic_frame | apply State.refitAll_frame | apply ansNext
    | apply kIte

theorem State.newSet_frame {w0 : Nat} {z0 : State} (s : State) (d : Nat) (band : Nat) (hw : Area.sub 8192 w0) (h_s : State.Frame w0 z0 s) :
    State.Frame w0 z0 (State.newSet s d band) := by
  unfold State.newSet
  try dsimp only
  with_reducible repeat' first | (refine kUpd ?_; assumption)

theorem execBandUpdate_frame {w0 : Nat} {z0 : State} (s : State) (hw : Area.sub 8198 w0) (h_s : State.Frame w0 z0 s) :
    State.Frame.Ans w0 z0 (execBandUpdate s) := by
  unfold execBandUpdate
  try dsimp only
  with_reducible repeat' first
    | assumption | exact Area.sub_trans (by decide) hw | intro _ | apply State.periodic_frame | apply State.setFld_frame
    | apply State.newSet_frame | apply ansNext | apply kIte | apply kFoldl

theorem State.stackDown_frame {w0 : Nat} {z0 : State} (s : State) (k : Nat) (hw : Area.sub 63826 w0) (h_s : State.Frame w0 z0 s) :
    State.Frame w0 z0 (State.stackDown s k) := by
  unfold State.stackDown
  try dsimp only
  with_reducible repeat' first
    | assumption | exact Area.sub_trans (by decide) hw | intro _ | apply State.clrFlag_frame | apply State.setFlag_frame
    | apply State.dieFail_frame | apply State.raise_frame | apply kIte | apply kFoldl | (refine kUpd ?_; apply State.clrFlag_frame)

theorem State.tilesBack_frame {w0 : Nat} {z0 : State} (s : State) (k : Nat) (hw : Area.sub 32768 w0) (h_s : State.Frame w0 z0 s) :
    State.Frame w0 z0 (State.tilesBack s k) := by
  unfold State.tilesBack
  try dsimp only
  with_reducible repeat' first | (refine kUpd ?_; assumption)

theorem execFlitCrcFail_frame {w0 : Nat} {z0 : State} (stack : Nat) (same : Bool) (s : State) (hw : Area.sub 63826 w0) (h_s : State.Frame w0 z0 s) :
    State.Frame.Ans w0 z0 (execFlitCrcFail stack same s) := by
  unfold execFlitCrcFail
  try dsimp only
  with_reducible repeat' first
    | assumption | exact Area.sub_trans (by decide) hw | apply State.count_frame | apply State.stackDown_frame | apply ansWithin
    | apply kIte | (refine kUpd ?_; assumption)

theorem execStackLinkTrainingLoss_frame {w0 : Nat} {z0 : State} (stack : Nat) (s : State) (hw : Area.sub 63826 w0) (h_s : State.Frame w0 z0 s) :
    State.Frame.Ans w0 z0 (execStackLinkTrainingLoss stack s) := by
  unfold execStackLinkTrainingLoss
  try dsimp only
  with_reducible repeat' first | assumption | apply State.stackDown_frame | apply ansWithin

theorem execStackLinkRetrain_frame {w0 : Nat} {z0 : State} (stack : Nat) (ok : Bool) (s : State) (hw : Area.sub 40962 w0) (h_s : State.Frame w0 z0 s) :
    State.Frame.Ans w0 z0 (execStackLinkRetrain stack ok s) := by
  unfold execStackLinkRetrain
  try dsimp only
  repeat' first
    | (with_reducible first
       | assumption | exact Area.sub_trans (by decide) hw | intro _ | apply State.setFlag_frame | apply State.tilesBack_frame
       | apply State.putDie_frame | apply ansWithin | apply kIte | apply kFoldl
       | (refine kUpd ?_; first | assumption | apply State.setFlag_frame))
    | split

/-! ### Machine/Integrity.lean -/

theorem execScrubPassStart_frame {w0 : Nat} {z0 : State} (s : State) (hw : Area.sub 8518 w0) (h_s : State.Frame w0 z0 s) :
    State.Frame.Ans w0 z0 (execScrubPassStart s) := by
  unfold execScrubPassStart
  try dsimp only
  with_reducible repeat' first
    | assumption | exact Area.sub_trans (by decide) hw | intro _ | apply State.periodic_frame | apply State.clrFlag_frame
    | apply State.setFlag_frame | apply State.raise_frame | apply ansNext | (refine kUpd ?_; apply kIte)

theorem execScrubPace_frame {w0 : Nat} {z0 : State} (s : State) (hw : Area.sub 8196 w0) (h_s : State.Frame w0 z0 s) :
    State.Frame.Ans w0 z0 (execScrubPace s) := by
  unfold execScrubPace
  try dsimp only
  with_reducible repeat' first
    | assumption | exact Area.sub_trans (by decide) hw | intro _ | apply State.periodic_frame | apply ansNext
    | (refine kUpd ?_; assumption)

theorem State.visit_frame {w0 : Nat} {z0 : State} (s : State) (p : Nat) (hw : Area.sub 8194 w0) (h_s : State.Frame w0 z0 s) :
    State.Frame w0 z0 (State.visit s p) := by
  unfold State.visit
  try dsimp only
  repeat' first
    | (with_reducible first
       | assumption | exact Area.sub_trans (by decide) hw | apply State.count_frame | apply State.issueSense_frame | apply kIte)
    | split

theorem State.scrubAreas_frame {w0 : Nat} {z0 : State} (s : State) (tables : Nat) (boot : List Nat) (hw : Area.sub 8194 w0) (h_s : State.Frame w0 z0 s) :
    State.Frame w0 z0 (State.scrubAreas s tables boot) := by
  unfold State.scrubAreas
  try dsimp only
  with_reducible repeat' first | assumption | exact Area.sub_trans (by decide) hw | (refine kUpd ?_; apply State.count_frame)

theorem execScrubVisit_frame {w0 : Nat} {z0 : State} (s : State) (hw : Area.sub 73730 w0) (h_s : State.Frame w0 z0 s) :
    State.Frame.Ans w0 z0 (execScrubVisit s) := by
  unfold execScrubVisit
  try dsimp only
  repeat' first
    | (with_reducible first
       | assumption | exact Area.sub_trans (by decide) hw | apply State.visit_frame | apply State.scrubAreas_frame
       | apply State.saturate_frame | apply ansNext | apply kIte
       | (refine kUpd ?_; first | assumption | (refine ofOptP (by assumption) ?_; apply State.bobTake_frame)))
    | split

theorem State.dieCtl_frame {w0 : Nat} {z0 : State} (s : State) (d : Nat) (action : Nat) (hw : Area.sub 63826 w0) (h_s : State.Frame w0 z0 s) :
    State.Frame.Opt w0 z0 (State.dieCtl s d action) := by
  unfold State.dieCtl
  try dsimp only
  with_reducible repeat' first
    | assumption | exact Area.sub_trans (by decide) hw | apply State.dieFail_frame | apply State.putDie_frame | exact optNone
    | apply optSome | apply optIte

theorem execDieCheckDone_frame {w0 : Nat} {z0 : State} (d : Nat) (check : DieCheck) (s0 : State) (hw : Area.sub 8514 w0) (h_s0 : State.Frame w0 z0 s0) :
    State.Frame.Ans w0 z0 (execDieCheckDone d check s0) := by
  unfold execDieCheckDone
  try dsimp only
  with_reducible repeat' first
    | assumption | exact Area.sub_trans (by decide) hw | apply State.showSweep_frame | apply State.putDie_frame | apply State.raise_frame
    | apply State.setFlag_frame | apply ansWithin | apply kIte

theorem State.resilverLine_frame {w0 : Nat} {z0 : State} (s : State) (bad : List Nat) (lsw : Nat) (i : Nat) (hw : Area.sub 31058 w0) (h_s : State.Frame w0 z0 s) :
    State.Frame w0 z0 (State.resilverLine s bad lsw i) := by
  unfold State.resilverLine
  try dsimp only
  repeat' first
    | (with_reducible first
       | assumption | exact Area.sub_trans (by decide) hw | apply State.poisonLine_frame | apply State.startProgram_frame
       | apply State.tagFail_frame | apply kIte | (refine kUpd ?_; apply State.install_frame))
    | split

theorem State.pushOut_frame {w0 : Nat} {z0 : State} (s : State) (ps : Nat) (hw : Area.sub 12290 w0) (h_s : State.Frame w0 z0 s) :
    State.Frame w0 z0 (State.pushOut s ps) := by
  unfold State.pushOut
  try dsimp only
  repeat' first | (with_reducible first | assumption | intro _ | apply State.evictTo_frame | apply kIte | apply kFoldl) | split

theorem State.dieOnline_frame {w0 : Nat} {z0 : State} (s : State) (d : Nat) (hw : Area.sub 8514 w0) (h_s : State.Frame w0 z0 s) :
    State.Frame w0 z0 (State.dieOnline s d) := by
  unfold State.dieOnline
  try dsimp only
  with_reducible repeat' first
    | assumption | exact Area.sub_trans (by decide) hw | apply State.putDie_frame | apply State.raise_frame | apply State.wr_frame
    | apply State.setFld_frame | apply kIte

theorem State.swatchCurrent_frame {w0 : Nat} {z0 : State} (s : State) (d : Nat) (ps : Nat) (hw : Area.sub 8194 w0) (h_s : State.Frame w0 z0 s) :
    State.Frame w0 z0 (State.swatchCurrent s d ps) := by
  unfold State.swatchCurrent
  try dsimp only
  with_reducible repeat' first | assumption | exact Area.sub_trans (by decide) hw | apply State.putDie_frame | apply State.count_frame

theorem execResilverSwatch_frame {w0 : Nat} {z0 : State} (bad : List Nat) (s : State) (hw : Area.sub 31058 w0) (h_s : State.Frame w0 z0 s) :
    State.Frame.Ans w0 z0 (execResilverSwatch bad s) := by
  unfold execResilverSwatch
  try dsimp only
  repeat' first
    | (with_reducible first
       | assumption | exact Area.sub_trans (by decide) hw | intro _ | apply State.setFld_frame | apply State.setFlag_frame
       | apply State.pushOut_frame | apply State.swatchCurrent_frame | apply State.dieOnline_frame | apply State.resilverLine_frame
       | apply State.putDie_frame | apply ansNext | apply kIte | apply kFoldl)
    | split

/-! ### Machine/Dram.lean -/

theorem State.errLast_frame {w0 : Nat} {z0 : State} (s : State) (kind : Nat) (addr : Nat) (codeword : Nat) (bytes : Nat) (chans : Nat) (hw : Area.sub 2 w0) (h_s : State.Frame w0 z0 s) :
    State.Frame w0 z0 (State.errLast s kind addr codeword bytes chans) := by
  unfold State.errLast
  try dsimp only
  with_reducible repeat' first | assumption | apply State.wr_frame

theorem State.corrBytes_frame {w0 : Nat} {z0 : State} (s : State) (ch : Nat) (n : Nat) (hw : Area.sub 8514 w0) (h_s : State.Frame w0 z0 s) :
    State.Frame w0 z0 (State.corrBytes s ch n) := by
  unfold State.corrBytes
  try dsimp only
  with_reducible repeat' first
    | exact Area.sub_trans (by decide) hw | apply State.count_frame | apply State.raise_frame | apply kIte | (refine kUpd ?_; assumption)

theorem State.eraseChannel_frame {w0 : Nat} {z0 : State} (s : State) (ch : Nat) (hw : Area.sub 29010 w0) (h_s : State.Frame w0 z0 s) :
    State.Frame w0 z0 (State.eraseChannel s ch) := by
  unfold State.eraseChannel
  try dsimp only
  with_reducible repeat' first
    | assumption | exact Area.sub_trans (by decide) hw | intro _ | apply State.setFlag_frame | apply State.poisonLine_frame
    | apply State.raise_frame | apply State.clrFlag_frame | apply State.sendLeave_frame | apply State.cleanTier_frame | apply kIte
    | apply kFoldl

theorem State.restartRefill_frame {w0 : Nat} {z0 : State} (s : State) (ch : Nat) (hw : Area.sub 2 w0) (h_s : State.Frame w0 z0 s) :
    State.Frame w0 z0 (State.restartRefill s ch) := by
  unfold State.restartRefill
  try dsimp only
  with_reducible repeat' first | assumption | apply State.clrFlag_frame | apply State.setFld_frame | apply kIte

theorem State.tierLost_frame {w0 : Nat} {z0 : State} (s : State) (ln : Nat) (hw : Area.sub 63826 w0) (h_s : State.Frame w0 z0 s) :
    State.Frame w0 z0 (State.tierLost s ln) := by
  unfold State.tierLost
  try dsimp only
  repeat' first
    | (with_reducible first
       | assumption | exact Area.sub_trans (by decide) hw | apply State.noteFail_frame | apply State.resumeOps_frame
       | apply State.poisonLine_frame | apply kIte
       | (refine kUpd ?_; first | assumption | (refine kSnd (by assumption) ?_; apply State.startFill_frame)))
    | split

theorem State.startProbe_frame {w0 : Nat} {z0 : State} (s : State) (addr : Nat) (hw : Area.sub 8194 w0) (h_s : State.Frame w0 z0 s) :
    State.Frame w0 z0 (State.startProbe s addr) := by
  unfold State.startProbe
  try dsimp only
  with_reducible repeat' first | exact Area.sub_trans (by decide) hw | apply State.count_frame | (refine kUpd ?_; assumption)

theorem State.tierDelivered_frame {w0 : Nat} {z0 : State} (s : State) (ln : Nat) (hw : Area.sub 63826 w0) (h_s : State.Frame w0 z0 s) :
    State.Frame w0 z0 (State.tierDelivered s ln) := by
  unfold State.tierDelivered
  try dsimp only
  repeat' first
    | (with_reducible first
       | assumption | exact Area.sub_trans (by decide) hw | apply State.noteFail_frame | apply State.resumeOps_frame
       | apply State.fillGood_frame | apply State.convSettle_frame | apply State.fillBad_frame | apply State.tagFail_frame | apply kIte
       | (refine kUpd ?_; assumption))
    | split

theorem execDramAccessDone_frame {w0 : Nat} {z0 : State} (t : DramTarget) (codeword : Nat) (out : BurstOutcome) (s : State) (hw : Area.sub 63826 w0) (h_s : State.Frame w0 z0 s) :
    State.Frame.Ans w0 z0 (execDramAccessDone t codeword out s) := by
  unfold execDramAccessDone
  try dsimp only
  repeat' first
    | (with_reducible first
       | assumption | exact Area.sub_trans (by decide) hw | intro _ | apply State.tierDelivered_frame | apply State.corrBytes_frame
       | apply State.errLast_frame | apply State.count_frame | apply State.startProbe_frame | apply ansNext | apply kIte | apply kFoldl
       | (refine kUpd ?_; apply State.count_frame))
    | split

theorem execChannelProbeDone_frame {w0 : Nat} {z0 : State} (group : Nat) (failed : List Nat) (s : State) (hw : Area.sub 63826 w0) (h_s : State.Frame w0 z0 s) :
    State.Frame.Ans w0 z0 (execChannelProbeDone group failed s) := by
  unfold execChannelProbeDone
  try dsimp only
  repeat' first
    | (with_reducible first
       | assumption | exact Area.sub_trans (by decide) hw | intro _ | apply State.serveDram_frame | apply State.raise_frame
       | apply State.tierLost_frame | apply State.restartRefill_frame | apply State.eraseChannel_frame | apply State.errLast_frame
       | apply State.count_frame | apply State.tierDelivered_frame | apply ansWithin | apply kIte | apply kFoldl
       | (refine kUpd ?_; assumption))
    | split

theorem State.dramCtl_frame {w0 : Nat} {z0 : State} (s : State) (ch : Nat) (action : Nat) (hw : Area.sub 29010 w0) (h_s : State.Frame w0 z0 s) :
    State.Frame.Opt w0 z0 (State.dramCtl s ch action) := by
  unfold State.dramCtl
  try dsimp only
  with_reducible repeat' first
    | assumption | apply State.eraseChannel_frame | exact optNone | apply optSome | apply optIte | (refine kUpd ?_; assumption)

theorem execRefillDone_frame {w0 : Nat} {z0 : State} (s : State) (hw : Area.sub 8514 w0) (h_s : State.Frame w0 z0 s) :
    State.Frame.Ans w0 z0 (execRefillDone s) := by
  unfold execRefillDone
  try dsimp only
  with_reducible repeat' first
    | assumption | exact Area.sub_trans (by decide) hw | apply State.clrFlag_frame | apply State.setFld_frame | apply ansNext | apply kIte
    | (refine kUpd ?_; apply State.raise_frame)

theorem State.tryReturn_frame {w0 : Nat} {z0 : State} (s : State) (ch : Nat) (hw : Area.sub 2 w0) (h_s : State.Frame w0 z0 s) :
    State.Frame w0 z0 (State.tryReturn s ch) := by
  unfold State.tryReturn
  try dsimp only
  with_reducible repeat' first | assumption | apply State.setFlag_frame | apply State.setFld_frame | apply kIte

theorem State.trained_frame {w0 : Nat} {z0 : State} (s : State) (ch : Nat) (ok : Bool) (hw : Area.sub 29010 w0) (h_s : State.Frame w0 z0 s) :
    State.Frame w0 z0 (State.trained s ch ok) := by
  unfold State.trained
  try dsimp only
  with_reducible repeat' first
    | assumption | exact Area.sub_trans (by decide) hw | apply State.tryReturn_frame | apply State.restartRefill_frame
    | apply State.eraseChannel_frame | apply State.raise_frame | apply kIte | (refine kUpd ?_; assumption)

theorem execDramPause_frame {w0 : Nat} {z0 : State} (group : Nat) (retrained : List Nat) (failed : List Nat) (s : State) (hw : Area.sub 29014 w0) (h_s : State.Frame w0 z0 s) :
    State.Frame.Ans w0 z0 (execDramPause group retrained failed s) := by
  unfold execDramPause
  try dsimp only
  with_reducible repeat' first
    | assumption | exact Area.sub_trans (by decide) hw | intro _ | apply State.periodic_frame | apply State.pauseGroup_frame
    | apply State.count_frame | apply State.trained_frame | apply ansWithin | apply kIte | apply kFoldl

theorem State.patrolBad_frame {w0 : Nat} {z0 : State} (s : State) (ln : Nat) (hw : Area.sub 8194 w0) (h_s : State.Frame w0 z0 s) :
    State.Frame w0 z0 (State.patrolBad s ln) := by
  unfold State.patrolBad
  try dsimp only
  with_reducible repeat' first
    | assumption | exact Area.sub_trans (by decide) hw | apply State.errLast_frame | apply State.count_frame
    | apply State.startProbe_frame | apply kIte | (refine kUpd ?_; assumption)

theorem execDramPatrol_frame {w0 : Nat} {z0 : State} (corrected : Nat) (bad : List Nat) (s : State) (hw : Area.sub 8198 w0) (h_s : State.Frame w0 z0 s) :
    State.Frame.Ans w0 z0 (execDramPatrol corrected bad s) := by
  unfold execDramPatrol
  try dsimp only
  with_reducible repeat' first
    | assumption | exact Area.sub_trans (by decide) hw | intro _ | apply State.periodic_frame | apply State.count_frame
    | apply State.patrolBad_frame | apply ansNext | apply kFoldl

theorem execIdleFillDone_frame {w0 : Nat} {z0 : State} (s : State) (hw : Area.sub 2 w0) (h_s : State.Frame w0 z0 s) :
    State.Frame.Ans w0 z0 (execIdleFillDone s) := by
  unfold execIdleFillDone
  try dsimp only
  with_reducible repeat' first | assumption | apply State.clrFlag_frame | apply ansNext | apply kIte

/-! ### Machine/Ways.lean -/

theorem State.putWay_frame {w0 : Nat} {z0 : State} (s : State) (slice : Nat) (w : Nat) (x : Way) (hw : Area.sub 8192 w0) (h_s : State.Frame w0 z0 s) :
    State.Frame w0 z0 (State.putWay s slice w x) := by
  unfold State.putWay
  try dsimp only
  with_reducible repeat' first | (refine kUpd ?_; assumption)

theorem State.cleanWay_frame {w0 : Nat} {z0 : State} (s : State) (slice : Nat) (w : Nat) (why : Nat) (hw : Area.sub 12290 w0) (h_s : State.Frame w0 z0 s) :
    State.Frame w0 z0 (State.cleanWay s slice w why) := by
  unfold State.cleanWay
  try dsimp only
  with_reducible repeat' first
    | assumption | exact Area.sub_trans (by decide) hw | intro _ | apply State.putWay_frame | apply State.evictTo_frame | apply kIte
    | apply kFoldl | (refine kUpd ?_; apply State.dropAgents_frame)

theorem State.followWays_frame {w0 : Nat} {z0 : State} (s : State) (slice : Nat) (hw : Area.sub 12290 w0) (h_s : State.Frame w0 z0 s) :
    State.Frame w0 z0 (State.followWays s slice) := by
  unfold State.followWays
  try dsimp only
  repeat' first
    | (with_reducible first
       | assumption | exact Area.sub_trans (by decide) hw | intro _ | apply State.cleanWay_frame | apply State.putWay_frame
       | apply State.setFlag_frame | apply kIte | apply kFoldl)
    | split

theorem State.llcCfgEffect_frame {w0 : Nat} {z0 : State} (s : State) (v : Word) (hw : Area.sub 12290 w0) (h_s : State.Frame w0 z0 s) :
    State.Frame w0 z0 (State.llcCfgEffect s v) := by
  unfold State.llcCfgEffect
  try dsimp only
  with_reducible repeat' first
    | assumption | exact Area.sub_trans (by decide) hw | intro _ | apply State.setFlag_frame | apply State.followWays_frame
    | apply State.setFld_frame | apply kIte | apply kFoldl

theorem State.wayDis_frame {w0 : Nat} {z0 : State} (s : State) (slice : Nat) (w : Nat) (on : Bool) (hw : Area.sub 354 w0) (h_s : State.Frame w0 z0 s) :
    State.Frame w0 z0 (State.wayDis s slice w on) := by
  unfold State.wayDis
  try dsimp only
  with_reducible repeat' first
    | assumption | exact Area.sub_trans (by decide) hw | apply State.putFlag_frame | apply kIte
    | (refine kUpd ?_; apply State.jAlways_frame)

theorem execWayCleanDone_frame {w0 : Nat} {z0 : State} (slice : Nat) (w : Nat) (s : State) (hw : Area.sub 12290 w0) (h_s : State.Frame w0 z0 s) :
    State.Frame.Ans w0 z0 (execWayCleanDone slice w s) := by
  unfold execWayCleanDone
  try dsimp only
  with_reducible repeat' first
    | assumption | exact Area.sub_trans (by decide) hw | apply State.putWay_frame | apply State.followWays_frame | apply ansWithin
    | apply kIte

theorem execWayJoinDone_frame {w0 : Nat} {z0 : State} (slice : Nat) (w : Nat) (s : State) (hw : Area.sub 8194 w0) (h_s : State.Frame w0 z0 s) :
    State.Frame.Ans w0 z0 (execWayJoinDone slice w s) := by
  unfold execWayJoinDone
  try dsimp only
  with_reducible repeat' first
    | assumption | exact Area.sub_trans (by decide) hw | apply State.putWay_frame | apply State.count_frame | apply State.clrFlag_frame
    | apply ansWithin | apply kIte

theorem execWayTestDone_frame {w0 : Nat} {z0 : State} (slice : Nat) (w : Nat) (ok : Bool) (s : State) (hw : Area.sub 8546 w0) (h_s : State.Frame w0 z0 s) :
    State.Frame.Ans w0 z0 (execWayTestDone slice w ok s) := by
  unfold execWayTestDone
  try dsimp only
  with_reducible repeat' first
    | assumption | exact Area.sub_trans (by decide) hw | apply State.putWay_frame | apply State.wayDis_frame | apply State.setFlag_frame
    | apply ansWithin | apply kIte

theorem State.moveLock_frame {w0 : Nat} {z0 : State} (s : State) (slice : Nat) (w : Nat) (hw : Area.sub 12290 w0) (h_s : State.Frame w0 z0 s) :
    State.Frame.Opt w0 z0 (State.moveLock s slice w) := by
  unfold State.moveLock
  try dsimp only
  with_reducible repeat' first
    | assumption | exact Area.sub_trans (by decide) hw | intro _ | apply State.evictTo_frame | apply State.putWay_frame | apply optMap
    | apply kFoldl | (refine kUpd ?_; assumption)

theorem State.disableWay_frame {w0 : Nat} {z0 : State} (s : State) (slice : Nat) (w : Nat) (why : Nat) (hw : Area.sub 12642 w0) (h_s : State.Frame w0 z0 s) :
    State.Frame w0 z0 (State.disableWay s slice w why) := by
  unfold State.disableWay
  try dsimp only
  repeat' first
    | (with_reducible first
       | assumption | exact Area.sub_trans (by decide) hw | apply State.raise_frame | apply State.cleanWay_frame
       | apply State.wayDis_frame | apply kIte | (refine kUpd ?_; (refine ofOpt (by assumption) ?_; apply State.moveLock_frame)))
    | split

theorem State.wayCtl_frame {w0 : Nat} {z0 : State} (s : State) (v : Word) (hw : Area.sub 12642 w0) (h_s : State.Frame w0 z0 s) :
    State.Frame.Opt w0 z0 (State.wayCtl s v) := by
  unfold State.wayCtl
  try dsimp only
  repeat' first
    | (with_reducible first
       | assumption | exact Area.sub_trans (by decide) hw | apply State.raise_frame | apply State.putWay_frame
       | apply State.disableWay_frame | exact optNone | apply optSome | apply optIte | apply kIte)
    | split

theorem State.cleanLine_frame {w0 : Nat} {z0 : State} (s : State) (ln : Nat) (hw : Area.sub 31058 w0) (h_s : State.Frame w0 z0 s) :
    State.Frame w0 z0 (State.cleanLine s ln).2 := by
  unfold State.cleanLine
  try dsimp only
  repeat' first
    | (with_reducible first | assumption | apply State.placeDirty_frame | apply iteP)
    | dsimp only
    | (with_reducible refine kUpd ?_; with_reducible first | assumption | apply State.placeDirty_frame)
    | split

theorem State.invalidate_frame {w0 : Nat} {z0 : State} (s : State) (ln : Nat) (hw : Area.sub 12288 w0) (h_s : State.Frame w0 z0 s) :
    State.Frame w0 z0 (State.invalidate s ln) := by
  unfold State.invalidate
  try dsimp only
  with_reducible repeat' first | assumption | (refine kUpd ?_; apply State.dropAgents_frame)

theorem State.lockFill_frame {w0 : Nat} {z0 : State} (s : State) (ln : Nat) (r0 : Nat) (hw : Area.sub 31058 w0) (h_s : State.Frame w0 z0 s) :
    State.Frame w0 z0 (State.lockFill s ln r0).2 := by
  induction r0 generalizing s ln with
  | zero =>
    unfold State.lockFill
    try dsimp only
    repeat' first
      | (with_reducible first
         | assumption | exact Area.sub_trans (by decide) hw | apply State.startFill_frame | apply State.count_frame | apply iteP
         | apply kIte | (refine kUpd ?_; apply kIte))
      | split
  | succ _ ih =>
    unfold State.lockFill
    try dsimp only
    repeat' first
      | (with_reducible first
         | assumption | exact Area.sub_trans (by decide) hw | apply ih | apply State.startFill_frame | apply State.count_frame
         | apply iteP | apply kIte | (refine kUpd ?_; apply kIte))
      | split

theorem State.maintGo_frame {w0 : Nat} {z0 : State} (s : State) (m : Maint) (hw : Area.sub 31058 w0) (h_s : State.Frame w0 z0 s) :
    State.Frame w0 z0 (State.maintGo s m).2 := by
  unfold State.maintGo
  try dsimp only
  repeat' first
    | (with_reducible first
       | assumption | exact Area.sub_trans (by decide) hw | intro _ | apply State.invalidate_frame | apply State.lockFill_frame
       | apply State.cleanLine_frame | apply iteP | apply kIte | apply kFoldl | apply foldlP)
    | split

theorem State.maintCtl_frame {w0 : Nat} {z0 : State} (s : State) (firmware : Bool) (v : Word) (hw : Area.sub 31058 w0) (h_s : State.Frame w0 z0 s) :
    State.Frame.Opt w0 z0 (State.maintCtl s firmware v) := by
  unfold State.maintCtl
  try dsimp only
  with_reducible repeat' first
    | assumption | exact Area.sub_trans (by decide) hw | apply State.setFlag_frame | apply State.maintGo_frame | apply State.setFld_frame
    | exact optNone | apply optSome | apply optIte | (refine kUpd ?_; assumption)

theorem execMaintDone_frame {w0 : Nat} {z0 : State} (s : State) (hw : Area.sub 31058 w0) (h_s : State.Frame w0 z0 s) :
    State.Frame.Ans w0 z0 (execMaintDone s) := by
  unfold execMaintDone
  try dsimp only
  repeat' first
    | (with_reducible first
       | assumption | exact Area.sub_trans (by decide) hw | apply State.maintGo_frame | apply State.setFld_frame
       | apply State.clrFlag_frame | apply State.setFlag_frame | apply State.raise_frame | apply ansNext | apply kIte
       | (refine kUpd ?_; apply State.setFld_frame))
    | split

/-! ### Machine/Coherence.lean -/

theorem State.send_frame {w0 : Nat} {z0 : State} (s : State) (m : CohMsg) (hw : Area.sub 8192 w0) (h_s : State.Frame w0 z0 s) :
    State.Frame w0 z0 (State.send s m) := by
  unfold State.send
  try dsimp only
  with_reducible repeat' first | (refine kUpd ?_; assumption)

theorem State.take_frame {w0 : Nat} {z0 : State} (s : State) (p : CohMsg → Bool) (hw : Area.sub 8192 w0) (h_s : State.Frame w0 z0 s) :
    State.Frame.OptP w0 z0 (State.take s p) := by
  unfold State.take
  try dsimp only
  repeat' first | (with_reducible first | intro _ | apply optPMap) | dsimp only | (with_reducible refine kUpd ?_; with_reducible assumption)

theorem State.modLlc_frame {w0 : Nat} {z0 : State} (s : State) (ln : Nat) (f : LlcLine → LlcLine) (hw : Area.sub 12288 w0) (h_s : State.Frame w0 z0 s) :
    State.Frame w0 z0 (State.modLlc s ln f) := by
  unfold State.modLlc
  try dsimp only
  with_reducible repeat' first | apply kIte | (refine kUpd ?_; assumption)

theorem State.putCopy_frame {w0 : Nat} {z0 : State} (s : State) (agent : Nat) (ln : Nat) (c : Option AgentLine) (hw : Area.sub 12288 w0) (h_s : State.Frame w0 z0 s) :
    State.Frame w0 z0 (State.putCopy s agent ln c) := by
  unfold State.putCopy
  try dsimp only
  with_reducible repeat' first | (refine kUpd ?_; assumption)

theorem State.hkpDown_frame {w0 : Nat} {z0 : State} (s : State) (hw : Area.sub 327682 w0) (h_s : State.Frame w0 z0 s) :
    State.Frame w0 z0 (State.hkpDown s) := by
  unfold State.hkpDown
  try dsimp only
  with_reducible repeat' first
    | assumption | exact Area.sub_trans (by decide) hw | apply State.clrFlag_frame | (refine kUpd ?_; apply State.bobEnter_frame)

theorem State.domainFail_frame {w0 : Nat} {z0 : State} (s : State) (cause : Nat) (agent : Nat) (hw : Area.sub 385362 w0) (h_s : State.Frame w0 z0 s) :
    State.Frame w0 z0 (State.domainFail s cause agent) := by
  unfold State.domainFail
  try dsimp only
  with_reducible repeat' first
    | assumption | exact Area.sub_trans (by decide) hw | apply State.saturate_frame | apply State.setFld_frame | apply State.count_frame
    | apply State.sendLeave_frame | apply State.hkpDown_frame | apply kIte | (refine kUpd ?_; apply State.raise_frame)

theorem State.protocol_frame {w0 : Nat} {z0 : State} (s : State) (agent : Nat) (hw : Area.sub 385362 w0) (h_s : State.Frame w0 z0 s) :
    State.Frame w0 z0 (State.protocol s agent) := by
  unfold State.protocol
  try dsimp only
  with_reducible repeat' first | assumption | apply State.domainFail_frame

theorem State.openTxn_frame {w0 : Nat} {z0 : State} (s : State) (ln : Nat) (agent : Nat) (r : CohReq) (await : List Nat) (forward : Bool) (hw : Area.sub 8194 w0) (h_s : State.Frame w0 z0 s) :
    State.Frame w0 z0 (State.openTxn s ln agent r await forward) := by
  unfold State.openTxn
  try dsimp only
  with_reducible repeat' first | exact Area.sub_trans (by decide) hw | apply State.count_frame | (refine kUpd ?_; assumption)

theorem State.grantLine_frame {w0 : Nat} {z0 : State} (s : State) (ln : Nat) (agent : Nat) (st : CohSt) (l : LlcLine) (data : Bool) (hw : Area.sub 12288 w0) (h_s : State.Frame w0 z0 s) :
    State.Frame w0 z0 (State.grantLine s ln agent st l data) := by
  unfold State.grantLine
  try dsimp only
  with_reducible repeat' first | assumption | exact Area.sub_trans (by decide) hw | apply State.modLlc_frame | apply State.send_frame

theorem State.homeSectors_frame {w0 : Nat} {z0 : State} (s : State) (ln : Nat) (mask : BitVec 4) (d : LineBits) (hw : Area.sub 12288 w0) (h_s : State.Frame w0 z0 s) :
    State.Frame w0 z0 (State.homeSectors s ln mask d) := by
  unfold State.homeSectors
  try dsimp only
  with_reducible repeat' first | assumption | apply State.modLlc_frame

theorem State.homeExec_frame {w0 : Nat} {z0 : State} (s : State) (ln : Nat) (r : CohReq) (hw : Area.sub 12290 w0) (h_s : State.Frame w0 z0 s) :
    State.Frame w0 z0 (State.homeExec s ln r) := by
  unfold State.homeExec
  try dsimp only
  repeat' first
    | (with_reducible first
       | assumption | exact Area.sub_trans (by decide) hw | apply State.homeSectors_frame | apply State.count_frame
       | apply State.send_frame | apply kIte)
    | split

theorem State.present_frame {w0 : Nat} {z0 : State} (s : State) (ln : Nat) (hw : Area.sub 31058 w0) (h_s : State.Frame w0 z0 s) :
    State.Frame.Opt w0 z0 (State.present s ln) := by
  unfold State.present
  try dsimp only
  repeat' first
    | (with_reducible first
       | assumption | exact Area.sub_trans (by decide) hw | apply State.install_frame | exact optNone | apply optSome | apply optIte
       | (refine kUpd ?_; (refine kSnd (by assumption) ?_; apply State.startFill_frame)))
    | split

theorem State.serve_frame {w0 : Nat} {z0 : State} (s : State) (ln : Nat) (agent : Nat) (r : CohReq) (hw : Area.sub 389458 w0) (h_s : State.Frame w0 z0 s) :
    State.Frame w0 z0 (State.serve s ln agent r) := by
  unfold State.serve
  try dsimp only
  repeat' first
    | (with_reducible first
       | assumption | exact Area.sub_trans (by decide) hw | intro _ | apply State.send_frame | apply State.openTxn_frame
       | apply State.protocol_frame | apply State.grantLine_frame | apply State.count_frame | apply State.homeExec_frame | apply kIte
       | apply kFoldl)
    | split

theorem State.request_frame {w0 : Nat} {z0 : State} (s : State) (ln : Nat) (agent : Nat) (r : CohReq) (hw : Area.sub 391506 w0) (h_s : State.Frame w0 z0 s) :
    State.Frame w0 z0 (State.request s ln agent r) := by
  unfold State.request
  try dsimp only
  repeat' first
    | (with_reducible first
       | assumption | exact Area.sub_trans (by decide) hw | apply State.send_frame | apply State.serve_frame | apply State.startFill_frame
       | apply kIte | (refine kUpd ?_; (refine ofOpt (by assumption) ?_; apply State.present_frame)))
    | split

theorem State.pump_frame {w0 : Nat} {z0 : State} (s : State) (ln : Nat) (r0 : Nat) (hw : Area.sub 391506 w0) (h_s : State.Frame w0 z0 s) :
    State.Frame w0 z0 (State.pump s ln r0) := by
  induction r0 generalizing s ln with
  | zero =>
    unfold State.pump
    try dsimp only
    repeat' first
      | (with_reducible first
         | assumption | exact Area.sub_trans (by decide) hw | apply State.serve_frame | apply kIte
         | (refine kUpd ?_; first | (refine ofOpt (by assumption) ?_; apply State.present_frame) | (refine ofOptP (by assumption) ?_; apply State.take_frame)))
      | split
  | succ _ ih =>
    unfold State.pump
    try dsimp only
    repeat' first
      | (with_reducible first
         | assumption | exact Area.sub_trans (by decide) hw | apply ih | apply State.serve_frame | apply kIte
         | (refine kUpd ?_; first | (refine ofOpt (by assumption) ?_; apply State.present_frame) | (refine ofOptP (by assumption) ?_; apply State.take_frame)))
      | split

theorem State.pumpAll_frame {w0 : Nat} {z0 : State} (s : State) (ln : Nat) (hw : Area.sub 391506 w0) (h_s : State.Frame w0 z0 s) :
    State.Frame w0 z0 (State.pumpAll s ln) := by
  unfold State.pumpAll
  try dsimp only
  with_reducible repeat' first | assumption | apply State.pump_frame

theorem State.endTxn_frame {w0 : Nat} {z0 : State} (s : State) (ln : Nat) (t : CohTxn) (hw : Area.sub 391506 w0) (h_s : State.Frame w0 z0 s) :
    State.Frame w0 z0 (State.endTxn s ln t) := by
  unfold State.endTxn
  try dsimp only
  repeat' first
    | (with_reducible first
       | assumption | exact Area.sub_trans (by decide) hw | apply State.grantLine_frame | apply State.homeExec_frame
       | apply State.pumpAll_frame | apply kIte | (refine kUpd ?_; assumption))
    | split

theorem State.answered_frame {w0 : Nat} {z0 : State} (s : State) (ln : Nat) (agent : Nat) (noData : Bool) (hw : Area.sub 391506 w0) (h_s : State.Frame w0 z0 s) :
    State.Frame w0 z0 (State.answered s ln agent noData) := by
  unfold State.answered
  try dsimp only
  repeat' first
    | (with_reducible first
       | assumption | exact Area.sub_trans (by decide) hw | apply State.protocol_frame | apply State.endTxn_frame | apply kIte
       | (refine kUpd ?_; assumption))
    | split

theorem State.agentRequest_frame {w0 : Nat} {z0 : State} (s : State) (agent : Nat) (ln : Nat) (r : CohReq) (ok : Bool) (hw : Area.sub 391506 w0) (h_s : State.Frame w0 z0 s) :
    State.Frame.Ans w0 z0 (State.agentRequest s agent ln r ok) := by
  unfold State.agentRequest
  try dsimp only
  with_reducible repeat' first
    | assumption | exact Area.sub_trans (by decide) hw | apply State.request_frame | apply State.protocol_frame | apply ansWithin
    | apply kIte

theorem execRdShared_frame {w0 : Nat} {z0 : State} (agent : Nat) (line : Nat) (s : State) (hw : Area.sub 391506 w0) (h_s : State.Frame w0 z0 s) :
    State.Frame.Ans w0 z0 (execRdShared agent line s) := by
  unfold execRdShared
  try dsimp only
  with_reducible repeat' first | assumption | apply State.agentRequest_frame

theorem execRdOwn_frame {w0 : Nat} {z0 : State} (agent : Nat) (line : Nat) (s : State) (hw : Area.sub 391506 w0) (h_s : State.Frame w0 z0 s) :
    State.Frame.Ans w0 z0 (execRdOwn agent line s) := by
  unfold execRdOwn
  try dsimp only
  with_reducible repeat' first | assumption | apply State.agentRequest_frame

theorem execOwnNodata_frame {w0 : Nat} {z0 : State} (agent : Nat) (line : Nat) (s : State) (hw : Area.sub 391506 w0) (h_s : State.Frame w0 z0 s) :
    State.Frame.Ans w0 z0 (execOwnNodata agent line s) := by
  unfold execOwnNodata
  try dsimp only
  with_reducible repeat' first | assumption | apply State.agentRequest_frame

theorem execUpgrade_frame {w0 : Nat} {z0 : State} (agent : Nat) (line : Nat) (s : State) (hw : Area.sub 391506 w0) (h_s : State.Frame w0 z0 s) :
    State.Frame.Ans w0 z0 (execUpgrade agent line s) := by
  unfold execUpgrade
  try dsimp only
  with_reducible repeat' first | assumption | apply State.agentRequest_frame

theorem execWr_frame {w0 : Nat} {z0 : State} (agent : Nat) (line : Nat) (mask : BitVec 4) (data : LineBits) (s : State) (hw : Area.sub 391506 w0) (h_s : State.Frame w0 z0 s) :
    State.Frame.Ans w0 z0 (execWr agent line mask data s) := by
  unfold execWr
  try dsimp only
  with_reducible repeat' first | assumption | apply State.agentRequest_frame

theorem execAtom_frame {w0 : Nat} {z0 : State} (agent : Nat) (line : Nat) (f : Nat) (off : Nat) (len : Nat) (operand : Nat) (cmp : Nat) (s : State) (hw : Area.sub 391506 w0) (h_s : State.Frame w0 z0 s) :
    State.Frame.Ans w0 z0 (execAtom agent line f off len operand cmp s) := by
  unfold execAtom
  try dsimp only
  with_reducible repeat' first | assumption | apply State.agentRequest_frame

theorem execWhint_frame {w0 : Nat} {z0 : State} (agent : Nat) (line : Nat) (mask : BitVec 4) (data : LineBits) (target : Option Nat) (s : State) (hw : Area.sub 391506 w0) (h_s : State.Frame w0 z0 s) :
    State.Frame.Ans w0 z0 (execWhint agent line mask data target s) := by
  unfold execWhint
  try dsimp only
  with_reducible repeat' first | assumption | apply State.agentRequest_frame

theorem execWb_frame {w0 : Nat} {z0 : State} (agent : Nat) (line : Nat) (data : LineBits) (s : State) (hw : Area.sub 389458 w0) (h_s : State.Frame w0 z0 s) :
    State.Frame.Ans w0 z0 (execWb agent line data s) := by
  unfold execWb
  try dsimp only
  repeat' first
    | (with_reducible first
       | assumption | exact Area.sub_trans (by decide) hw | apply State.protocol_frame | apply State.putCopy_frame
       | apply State.modLlc_frame | apply State.count_frame | apply ansWithin | apply kIte)
    | split

theorem execEvictClean_frame {w0 : Nat} {z0 : State} (agent : Nat) (line : Nat) (s : State) (hw : Area.sub 389458 w0) (h_s : State.Frame w0 z0 s) :
    State.Frame.Ans w0 z0 (execEvictClean agent line s) := by
  unfold execEvictClean
  try dsimp only
  repeat' first
    | (with_reducible first
       | assumption | exact Area.sub_trans (by decide) hw | apply State.putCopy_frame | apply State.modLlc_frame
       | apply State.protocol_frame | apply ansWithin | apply kIte)
    | split

theorem execSnpShare_frame {w0 : Nat} {z0 : State} (agent : Nat) (line : Nat) (wrote : Option LineBits) (s : State) (hw : Area.sub 12290 w0) (h_s : State.Frame w0 z0 s) :
    State.Frame.Ans w0 z0 (execSnpShare agent line wrote s) := by
  unfold execSnpShare
  try dsimp only
  repeat' first
    | (with_reducible first
       | assumption | exact Area.sub_trans (by decide) hw | apply State.putCopy_frame | apply State.send_frame | apply State.count_frame
       | apply ansWithin | (refine kUpd ?_; (refine ofOptP (by assumption) ?_; apply State.take_frame)))
    | split

theorem execSnpOwn_frame {w0 : Nat} {z0 : State} (agent : Nat) (line : Nat) (wrote : Option LineBits) (s : State) (hw : Area.sub 12290 w0) (h_s : State.Frame w0 z0 s) :
    State.Frame.Ans w0 z0 (execSnpOwn agent line wrote s) := by
  unfold execSnpOwn
  try dsimp only
  repeat' first
    | (with_reducible first
       | assumption | exact Area.sub_trans (by decide) hw | apply State.putCopy_frame | apply State.send_frame | apply State.count_frame
       | apply ansWithin | (refine kUpd ?_; (refine ofOptP (by assumption) ?_; apply State.take_frame)))
    | split

theorem execSnpInv_frame {w0 : Nat} {z0 : State} (agent : Nat) (line : Nat) (wrote : Option LineBits) (s : State) (hw : Area.sub 12288 w0) (h_s : State.Frame w0 z0 s) :
    State.Frame.Ans w0 z0 (execSnpInv agent line wrote s) := by
  unfold execSnpInv
  try dsimp only
  repeat' first
    | (with_reducible first
       | assumption | exact Area.sub_trans (by decide) hw | apply State.putCopy_frame | apply State.send_frame | apply ansWithin
       | (refine kUpd ?_; (refine ofOptP (by assumption) ?_; apply State.take_frame)))
    | split

theorem execFwdData_frame {w0 : Nat} {z0 : State} (agent : Nat) (line : Nat) (s : State) (hw : Area.sub 12288 w0) (h_s : State.Frame w0 z0 s) :
    State.Frame.Ans w0 z0 (execFwdData agent line s) := by
  unfold execFwdData
  try dsimp only
  repeat' first
    | (with_reducible first
       | assumption | exact Area.sub_trans (by decide) hw | apply State.putCopy_frame | apply State.modLlc_frame | apply ansWithin
       | (refine kUpd ?_; (refine ofOptP (by assumption) ?_; apply State.take_frame)))
    | split

theorem execGrant_frame {w0 : Nat} {z0 : State} (agent : Nat) (line : Nat) (s : State) (hw : Area.sub 391506 w0) (h_s : State.Frame w0 z0 s) :
    State.Frame.Ans w0 z0 (execGrant agent line s) := by
  unfold execGrant
  try dsimp only
  repeat' first
    | (with_reducible first
       | assumption | exact Area.sub_trans (by decide) hw | apply State.pumpAll_frame | apply State.putCopy_frame | apply ansWithin
       | apply kIte | (refine kUpd ?_; (refine ofOptP (by assumption) ?_; apply State.take_frame)))
    | split

theorem execAck_frame {w0 : Nat} {z0 : State} (agent : Nat) (line : Nat) (s : State) (hw : Area.sub 391506 w0) (h_s : State.Frame w0 z0 s) :
    State.Frame.Ans w0 z0 (execAck agent line s) := by
  unfold execAck
  try dsimp only
  repeat' first
    | (with_reducible first
       | assumption | exact Area.sub_trans (by decide) hw | apply State.modLlc_frame | apply State.answered_frame
       | apply State.protocol_frame | apply ansWithin | apply kIte
       | (refine kUpd ?_; (refine ofOptP (by assumption) ?_; apply State.take_frame)))
    | split

theorem execEvicting_frame {w0 : Nat} {z0 : State} (agent : Nat) (line : Nat) (s : State) (hw : Area.sub 391506 w0) (h_s : State.Frame w0 z0 s) :
    State.Frame.Ans w0 z0 (execEvicting agent line s) := by
  unfold execEvicting
  try dsimp only
  repeat' first
    | (with_reducible first
       | assumption | exact Area.sub_trans (by decide) hw | apply State.count_frame | apply State.answered_frame
       | apply State.protocol_frame | apply ansWithin | apply kIte
       | (refine kUpd ?_; (refine ofOptP (by assumption) ?_; apply State.take_frame)))
    | split

theorem execPush_frame {w0 : Nat} {z0 : State} (agent : Nat) (line : Nat) (s : State) (hw : Area.sub 12290 w0) (h_s : State.Frame w0 z0 s) :
    State.Frame.Ans w0 z0 (execPush agent line s) := by
  unfold execPush
  try dsimp only
  repeat' first
    | (with_reducible first
       | assumption | exact Area.sub_trans (by decide) hw | apply State.putCopy_frame | apply State.modLlc_frame | apply State.count_frame
       | apply ansWithin | apply kIte | (refine kUpd ?_; (refine ofOptP (by assumption) ?_; apply State.take_frame)))
    | split

theorem execSnoopTimeout_frame {w0 : Nat} {z0 : State} (agent : Nat) (line : Nat) (s : State) (hw : Area.sub 385362 w0) (h_s : State.Frame w0 z0 s) :
    State.Frame.Ans w0 z0 (execSnoopTimeout agent line s) := by
  unfold execSnoopTimeout
  try dsimp only
  repeat' first | (with_reducible first | assumption | apply State.domainFail_frame | apply ansWithin | apply kIte) | split

theorem State.salvageSlot_frame {w0 : Nat} {z0 : State} (s : State) (hw : Area.sub 12288 w0) (h_s : State.Frame w0 z0 s) :
    State.Frame w0 z0 (State.salvageSlot s).2 := by
  unfold State.salvageSlot
  try dsimp only
  repeat' first
    | (with_reducible first | assumption | apply iteP)
    | dsimp only
    | (with_reducible refine kUpd ?_; with_reducible assumption)
    | split

theorem State.salvageLine_frame {w0 : Nat} {z0 : State} (s : State) (ln : Nat) (c : LlcLine) (hw : Area.sub 12290 w0) (h_s : State.Frame w0 z0 s) :
    State.Frame w0 z0 (State.salvageLine s ln c) := by
  unfold State.salvageLine
  try dsimp only
  repeat' first
    | (with_reducible first
       | assumption | exact Area.sub_trans (by decide) hw | apply State.setFld_frame | apply State.salvageSlot_frame
       | apply State.sealLine_frame | apply State.dramAccess_frame | apply kIte)
    | dsimp only
    | (with_reducible refine kUpd ?_; with_reducible first | apply State.setFld_frame | apply State.salvageSlot_frame | apply optPGetD)
    | split

theorem execSalvageWalkDone_frame {w0 : Nat} {z0 : State} (s : State) (hw : Area.sub 12290 w0) (h_s : State.Frame w0 z0 s) :
    State.Frame.Ans w0 z0 (execSalvageWalkDone s) := by
  unfold execSalvageWalkDone
  try dsimp only
  with_reducible repeat' first
    | assumption | exact Area.sub_trans (by decide) hw | intro _ | apply State.wr_frame | apply State.salvageLine_frame
    | apply State.setFld_frame | apply ansNext | apply kIte | (refine kUpd ?_; apply kFoldl)

theorem execDomainUp_frame {w0 : Nat} {z0 : State} (s : State) (hw : Area.sub 24906 w0) (h_s : State.Frame w0 z0 s) :
    State.Frame.Ans w0 z0 (execDomainUp s) := by
  unfold execDomainUp
  try dsimp only
  with_reducible repeat' first
    | assumption | exact Area.sub_trans (by decide) hw | apply State.setFld_frame | apply State.clrFlag_frame | apply State.raise_frame
    | apply State.sendAnnounce_frame | apply ansNext | apply kIte | (refine kUpd ?_; first | assumption | apply State.raise_frame)

end Sys2Proof.Machine
end

