-- ==== Sys2Proof/Laws/FrameMbx.lean ====
section
/-!
SUPPORT. What the operations leave alone (Laws/Frame.lean): mailboxes, keys and tables.
-/
namespace Sys2Proof.Machine
set_option Elab.async false
open State.Frame

/-! ### Machine/Mailbox.lean -/

theorem State.putBox_frame {w0 : Nat} {z0 : State} (s : State) (m : Nat) (b : Mailbox) (hw : Area.sub 512 w0) (h_s : State.Frame w0 z0 s) :
    State.Frame w0 z0 (State.putBox s m b) := by
  unfold State.putBox
  try dsimp only
  with_reducible repeat' first | (refine kUpd ?_; assumption)

theorem State.answerOp_frame {w0 : Nat} {z0 : State} (s : State) (id : Nat) (m : Nat) (a : MbxAns) (hw : Area.sub 16 w0) (h_s : State.Frame w0 z0 s) :
    State.Frame w0 z0 (State.answerOp s id m a) := by
  unfold State.answerOp
  try dsimp only
  repeat' first | (with_reducible first | assumption | apply State.finishOp_frame) | split

theorem State.deliverSeg_frame {w0 : Nat} {z0 : State} (s : State) (m : Nat) (seq : Nat) (hw : Area.sub 512 w0) (h_s : State.Frame w0 z0 s) :
    State.Frame w0 z0 (State.deliverSeg s m seq).2 := by
  unfold State.deliverSeg
  try dsimp only
  with_reducible repeat' first | assumption | apply State.putBox_frame

theorem State.mbxAnswer_frame {w0 : Nat} {z0 : State} (s : State) (m : Nat) (a : MbxAns) (hw : Area.sub 528 w0) (h_s : State.Frame w0 z0 s) :
    State.Frame w0 z0 (State.mbxAnswer s m a) := by
  unfold State.mbxAnswer
  try dsimp only
  repeat' first
    | (with_reducible first
       | assumption | exact Area.sub_trans (by decide) hw | apply State.putBox_frame | apply State.answerOp_frame | apply kIte)
    | split

theorem State.mbxComplete_frame {w0 : Nat} {z0 : State} (s : State) (m : Nat) (st : Status) (resp : List Byte) (hw : Area.sub 528 w0) (h_s : State.Frame w0 z0 s) :
    State.Frame w0 z0 (State.mbxComplete s m st resp) := by
  unfold State.mbxComplete
  try dsimp only
  repeat' first
    | (with_reducible first
       | assumption | exact Area.sub_trans (by decide) hw | apply State.putBox_frame | apply State.deliverSeg_frame
       | apply State.mbxAnswer_frame | apply kIte)
    | split

theorem State.segLength_frame {w0 : Nat} {z0 : State} (s : State) (m : Nat) (hw : Area.sub 514 w0) (h_s : State.Frame w0 z0 s) :
    State.Frame w0 z0 (State.segLength s m).2 := by
  unfold State.segLength
  try dsimp only
  with_reducible repeat' first
    | assumption | exact Area.sub_trans (by decide) hw | apply State.count_frame | apply State.putBox_frame | apply kIte

theorem State.mbxAbort_frame {w0 : Nat} {z0 : State} (s : State) (m : Nat) (hw : Area.sub 514 w0) (h_s : State.Frame w0 z0 s) :
    State.Frame w0 z0 (State.mbxAbort s m).2 := by
  unfold State.mbxAbort
  try dsimp only
  repeat' first
    | (with_reducible first | assumption | exact Area.sub_trans (by decide) hw | apply State.putBox_frame | apply State.count_frame | apply iteP)
    | split

theorem State.noteProgress_frame {w0 : Nat} {z0 : State} (s : State) (m : Nat) (hw : Area.sub 512 w0) (h_s : State.Frame w0 z0 s) :
    State.Frame w0 z0 (State.noteProgress s m) := by
  unfold State.noteProgress
  try dsimp only
  with_reducible repeat' first
    | assumption | exact Area.sub_trans (by decide) hw | apply State.draw_frame | apply State.putBox_frame | apply kIte

theorem State.mbxPoll_frame {w0 : Nat} {z0 : State} (s : State) (m : Nat) (seq : Nat) (hw : Area.sub 514 w0) (h_s : State.Frame w0 z0 s) :
    State.Frame w0 z0 (State.mbxPoll s m seq).2 := by
  unfold State.mbxPoll
  try dsimp only
  repeat' first
    | (with_reducible first
       | assumption | exact Area.sub_trans (by decide) hw | apply State.noteProgress_frame | apply State.deliverSeg_frame
       | apply State.count_frame | apply iteP)
    | split

theorem State.mbxSegment_frame {w0 : Nat} {z0 : State} (s0 : State) (m : Nat) (who : MbxOwner) (seg : List Byte) (op : Nat) (seq : Nat) (hw : Area.sub 530 w0) (h_s0 : State.Frame w0 z0 s0) :
    State.Frame w0 z0 (State.mbxSegment s0 m who seg op seq).2 := by
  unfold State.mbxSegment
  try dsimp only
  with_reducible repeat' first
    | assumption | exact Area.sub_trans (by decide) hw | apply State.count_frame | apply State.segLength_frame
    | apply State.mbxAbort_frame | apply State.mbxPoll_frame | apply State.putBox_frame | apply State.mbxComplete_frame | apply iteP

theorem State.sigFail_frame {w0 : Nat} {z0 : State} (s : State) (m : Nat) (key : Nat) (hw : Area.sub 834 w0) (h_s : State.Frame w0 z0 s) :
    State.Frame w0 z0 (State.sigFail s m key) := by
  unfold State.sigFail
  try dsimp only
  with_reducible repeat' first
    | assumption | exact Area.sub_trans (by decide) hw | apply State.raise_frame | apply State.setFlag_frame | apply kIte
    | (refine kUpd ?_; apply State.count_frame)

theorem State.verify_frame {w0 : Nat} {z0 : State} (s : State) (m : Nat) (b : Mailbox) (hw : Area.sub 834 w0) (h_s : State.Frame w0 z0 s) :
    State.Frame w0 z0 (State.verify s m b).2 := by
  unfold State.verify
  try dsimp only
  with_reducible repeat' first
    | assumption | exact Area.sub_trans (by decide) hw | apply State.putBox_frame | apply State.sigFail_frame | apply iteP

theorem State.authorise_frame {w0 : Nat} {z0 : State} (s : State) (m : Nat) (b : Mailbox) (cls : Nat) (hw : Area.sub 834 w0) (h_s : State.Frame w0 z0 s) :
    State.Frame w0 z0 (State.authorise s m b cls).2 := by
  unfold State.authorise
  try dsimp only
  repeat' first
    | (with_reducible first | assumption | exact Area.sub_trans (by decide) hw | apply State.putBox_frame | apply iteP)
    | dsimp only
    | (with_reducible refine kUpd ?_; with_reducible (refine kSnd (by assumption) ?_; with_reducible apply State.verify_frame))
    | split

theorem State.jSecond_frame {w0 : Nat} {z0 : State} (s : State) (c : JMark) (e : JEntry) (st : Status) (hw : Area.sub 354 w0) (h_s : State.Frame w0 z0 s) :
    State.Frame w0 z0 (State.jSecond s c e st) := by
  unfold State.jSecond
  try dsimp only
  repeat' first
    | (with_reducible first | assumption | apply State.jAlways_frame | apply State.jPlain_frame | apply kIte)
    | split

theorem State.finishCmd_frame {w0 : Nat} {z0 : State} (s : State) (c : Command) (r : Req) (j : JEntry) (hw : Area.sub 882 w0) (h_s : State.Frame w0 z0 s)
    (he : State.Frame.End w0 z0 (c.eff s r)) : State.Frame w0 z0 (s.finishCmd c r j) := by
  unfold State.finishCmd
  split
  · rename_i e
    rw [e] at he
    exact State.mbxComplete_frame _ _ _ _ (Area.sub_trans (by decide) hw) (State.jSecond_frame _ _ _ _ (Area.sub_trans (by decide) hw) he)
  · rename_i e
    rw [e] at he
    exact State.putBox_frame _ _ _ (Area.sub_trans (by decide) hw) (State.jSecond_frame _ _ _ _ (Area.sub_trans (by decide) hw) he)

theorem State.command_frame {w0 : Nat} {z0 : State} (s : State) (m : Nat) (c : Command) (hw : Area.sub 882 w0) (h_s : State.Frame w0 z0 s)
    (he : ∀ (u : State) (r : Req), State.Frame w0 z0 u → State.Frame.End w0 z0 (c.eff u r))
    (hr : ∀ (t : State) (r : Req) (st : Status), State.Frame w0 z0 t → State.Frame w0 z0 (c.refused t r st)) :
    State.Frame.Ans w0 z0 (s.command m c) := by
  unfold State.command
  dsimp only
  apply State.Frame.ansWithin
  split
  · have ha := State.authorise_frame (w0 := w0) (z0 := z0) s m (s.box m) c.cls (Area.sub_trans (by decide) hw) h_s
    split
    · rename_i e
      rw [e] at ha
      with_reducible repeat' first
        | assumption | exact Area.sub_trans (by decide) hw | apply State.mbxComplete_frame | apply State.jPlain_frame | apply State.count_frame | apply State.Frame.kIte
    · rename_i r t e
      rw [e] at ha
      repeat' first
        | (with_reducible first
           | assumption | exact Area.sub_trans (by decide) hw | apply State.mbxComplete_frame | apply hr | apply State.jAlways_frame
           | apply State.count_frame | apply State.jRefuse_frame | apply State.jAppend_frame | (apply State.finishCmd_frame) | apply he | apply State.Frame.kIte)
        | split
  · exact h_s

theorem execMbxEarlyExpire_frame {w0 : Nat} {z0 : State} (m : Nat) (s : State) (hw : Area.sub 528 w0) (h_s : State.Frame w0 z0 s) :
    State.Frame.Ans w0 z0 (execMbxEarlyExpire m s) := by
  unfold execMbxEarlyExpire
  try dsimp only
  repeat' first
    | (with_reducible first
       | assumption | exact Area.sub_trans (by decide) hw | apply State.putBox_frame | apply State.mbxAnswer_frame | apply ansWithin
       | apply kIte)
    | split

theorem execMbxTimeout_frame {w0 : Nat} {z0 : State} (m : Nat) (s : State) (hw : Area.sub 834 w0) (h_s : State.Frame w0 z0 s) :
    State.Frame.Ans w0 z0 (execMbxTimeout m s) := by
  unfold execMbxTimeout
  try dsimp only
  with_reducible repeat' first
    | assumption | exact Area.sub_trans (by decide) hw | apply State.putBox_frame | apply State.count_frame | apply State.raise_frame
    | apply ansWithin | apply kIte

theorem execSigCloseExpire_frame {w0 : Nat} {z0 : State} (s : State) (hw : Area.sub 514 w0) (h_s : State.Frame w0 z0 s) :
    State.Frame.Ans w0 z0 (execSigCloseExpire s) := by
  unfold execSigCloseExpire
  try dsimp only
  repeat' first
    | (with_reducible first
       | assumption | exact Area.sub_trans (by decide) hw | apply State.clrFlag_frame | apply ansNext | apply kIte
       | (refine kUpd ?_; assumption))
    | split

theorem State.mbxStitch_frame {w0 : Nat} {z0 : State} (s : State) (id : Nat) (m : Nat) (o : Op) (hw : Area.sub 530 w0) (h_s : State.Frame w0 z0 s) :
    State.Frame w0 z0 (State.mbxStitch s id m o) := by
  unfold State.mbxStitch
  try dsimp only
  repeat' first
    | (with_reducible first
       | assumption | exact Area.sub_trans (by decide) hw | apply State.failOp_frame | apply State.answerOp_frame
       | apply State.modOp_frame | apply kIte | (refine kUpd ?_; (refine kSnd (by assumption) ?_; apply State.mbxSegment_frame)))
    | split

/-! ### Machine/MbxCmds.lean -/

theorem execIdentity_frame {w0 : Nat} {z0 : State} (m : Nat) (s : State) (hw : Area.sub 882 w0) (h_s : State.Frame w0 z0 s) :
    State.Frame.Ans w0 z0 (execIdentity m s) := by
  unfold execIdentity
  try dsimp only
  repeat' first | (with_reducible first | assumption | intro _ | apply State.command_frame | apply endDone) | (unfold queryCmd; dsimp only)

theorem execDeviceStatus_frame {w0 : Nat} {z0 : State} (m : Nat) (s : State) (hw : Area.sub 882 w0) (h_s : State.Frame w0 z0 s) :
    State.Frame.Ans w0 z0 (execDeviceStatus m s) := by
  unfold execDeviceStatus
  try dsimp only
  repeat' first | (with_reducible first | assumption | intro _ | apply State.command_frame | apply endDone) | (unfold queryCmd; dsimp only)

theorem execCertGet_frame {w0 : Nat} {z0 : State} (m : Nat) (s : State) (hw : Area.sub 882 w0) (h_s : State.Frame w0 z0 s) :
    State.Frame.Ans w0 z0 (execCertGet m s) := by
  unfold execCertGet
  try dsimp only
  repeat' first | (with_reducible first | assumption | intro _ | apply State.command_frame | apply endDone) | (unfold queryCmd; dsimp only)

theorem execAdminKeyList_frame {w0 : Nat} {z0 : State} (m : Nat) (s : State) (hw : Area.sub 882 w0) (h_s : State.Frame w0 z0 s) :
    State.Frame.Ans w0 z0 (execAdminKeyList m s) := by
  unfold execAdminKeyList
  try dsimp only
  repeat' first | (with_reducible first | assumption | intro _ | apply State.command_frame | apply endDone) | (unfold queryCmd; dsimp only)

theorem execNonceGet_frame {w0 : Nat} {z0 : State} (m : Nat) (s : State) (hw : Area.sub 882 w0) (h_s : State.Frame w0 z0 s) :
    State.Frame.Ans w0 z0 (execNonceGet m s) := by
  unfold execNonceGet
  try dsimp only
  with_reducible repeat' first
    | assumption | exact Area.sub_trans (by decide) hw | intro _ | apply State.command_frame | apply State.draw256_frame
    | apply State.putBox_frame | apply endDone

theorem execProvisionLock_frame {w0 : Nat} {z0 : State} (m : Nat) (s : State) (hw : Area.sub 1010 w0) (h_s : State.Frame w0 z0 s) :
    State.Frame.Ans w0 z0 (execProvisionLock m s) := by
  unfold execProvisionLock
  try dsimp only
  with_reducible repeat' first
    | assumption | exact Area.sub_trans (by decide) hw | intro _ | apply State.command_frame | apply State.clrFlag_frame
    | apply State.setFld_frame | apply endDone | (refine kUpd ?_; assumption)

theorem execAdminKeySet_frame {w0 : Nat} {z0 : State} (m : Nat) (s : State) (hw : Area.sub 2098034 w0) (h_s : State.Frame w0 z0 s) :
    State.Frame.Ans w0 z0 (execAdminKeySet m s) := by
  unfold execAdminKeySet
  try dsimp only
  with_reducible repeat' first
    | assumption | exact Area.sub_trans (by decide) hw | intro _ | apply State.command_frame | apply endDone
    | (refine kUpd ?_; assumption)

theorem execConsoleUnlock_frame {w0 : Nat} {z0 : State} (m : Nat) (s : State) (hw : Area.sub 882 w0) (h_s : State.Frame w0 z0 s) :
    State.Frame.Ans w0 z0 (execConsoleUnlock m s) := by
  unfold execConsoleUnlock
  try dsimp only
  with_reducible repeat' first | assumption | intro _ | apply State.command_frame | apply endDone | (refine kUpd ?_; assumption)

theorem execConsoleLock_frame {w0 : Nat} {z0 : State} (m : Nat) (s : State) (hw : Area.sub 882 w0) (h_s : State.Frame w0 z0 s) :
    State.Frame.Ans w0 z0 (execConsoleLock m s) := by
  unfold execConsoleLock
  try dsimp only
  with_reducible repeat' first | assumption | intro _ | apply State.command_frame | apply endDone | (refine kUpd ?_; assumption)

theorem execConsoleLine_frame {w0 : Nat} {z0 : State} (line : List Byte) (s : State) (hw : Area.sub 512 w0) (h_s : State.Frame w0 z0 s) :
    State.Frame.Ans w0 z0 (execConsoleLine line s) := by
  unfold execConsoleLine
  try dsimp only
  repeat' first | (with_reducible first | assumption | apply ansNext | apply kIte | (refine kUpd ?_; assumption)) | split

theorem execConsoleTimeout_frame {w0 : Nat} {z0 : State} (s : State) (hw : Area.sub 512 w0) (h_s : State.Frame w0 z0 s) :
    State.Frame.Ans w0 z0 (execConsoleTimeout s) := by
  unfold execConsoleTimeout
  try dsimp only
  repeat' first | (with_reducible first | assumption | apply ansNext | apply kIte | (refine kUpd ?_; assumption)) | split

theorem execOperatingTimeSlot_frame {w0 : Nat} {z0 : State} (s : State) (hw : Area.sub 258 w0) (h_s : State.Frame w0 z0 s) :
    State.Frame.Ans w0 z0 (execOperatingTimeSlot s) := by
  unfold execOperatingTimeSlot
  try dsimp only
  with_reducible repeat' first
    | assumption | exact Area.sub_trans (by decide) hw | apply State.count_frame | apply ansNext | apply kIte
    | (refine kUpd ?_; assumption)

/-! ### Machine/Keys.lean -/

theorem State.reportKeys_frame {w0 : Nat} {z0 : State} (s : State) (hw : Area.sub 16386 w0) (h_s : State.Frame w0 z0 s) :
    State.Frame w0 z0 (State.reportKeys s) := by
  unfold State.reportKeys
  try dsimp only
  with_reducible repeat' first | assumption | apply State.report_frame

theorem keyRefused_frame {w0 : Nat} {z0 : State} (s : State) (r : Req) (st : Status) (hw : Area.sub 322 w0) (h_s : State.Frame w0 z0 s) :
    State.Frame w0 z0 (keyRefused s r st) := by
  unfold keyRefused
  try dsimp only
  with_reducible repeat' first
    | assumption | exact Area.sub_trans (by decide) hw | apply State.raise_frame | apply State.count_frame | apply kIte

theorem execKeyLoad_frame {w0 : Nat} {z0 : State} (m : Nat) (s : State) (hw : Area.sub 27506 w0) (h_s : State.Frame w0 z0 s) :
    State.Frame.Ans w0 z0 (execKeyLoad m s) := by
  unfold execKeyLoad
  try dsimp only
  repeat' first
    | (with_reducible first
       | assumption | exact Area.sub_trans (by decide) hw | intro _ | apply State.command_frame | apply keyRefused_frame
       | apply State.putKey_frame | apply State.reportKeys_frame | apply endDone | apply endIte)
    | split

theorem execKeyRotate_frame {w0 : Nat} {z0 : State} (m : Nat) (s : State) (hw : Area.sub 11126 w0) (h_s : State.Frame w0 z0 s) :
    State.Frame.Ans w0 z0 (execKeyRotate m s) := by
  unfold execKeyRotate
  try dsimp only
  repeat' first
    | (with_reducible first
       | assumption | exact Area.sub_trans (by decide) hw | intro _ | apply State.command_frame | apply keyRefused_frame
       | apply State.putKey_frame | apply State.wr_frame | apply State.arm_frame | apply endDone)
    | dsimp only
    | (with_reducible refine kUpd ?_; with_reducible assumption)
    | split

theorem execKeyErase_frame {w0 : Nat} {z0 : State} (m : Nat) (s : State) (hw : Area.sub 27506 w0) (h_s : State.Frame w0 z0 s) :
    State.Frame.Ans w0 z0 (execKeyErase m s) := by
  unfold execKeyErase
  try dsimp only
  with_reducible repeat' first
    | assumption | exact Area.sub_trans (by decide) hw | intro _ | apply State.command_frame | apply State.putKey_frame
    | apply State.wr_frame | apply State.reportKeys_frame | apply endDone | apply kIte | (refine kUpd ?_; apply State.putKey_frame)

theorem execKeyStatus_frame {w0 : Nat} {z0 : State} (m : Nat) (s : State) (hw : Area.sub 882 w0) (h_s : State.Frame w0 z0 s) :
    State.Frame.Ans w0 z0 (execKeyStatus m s) := by
  unfold execKeyStatus
  try dsimp only
  with_reducible repeat' first | assumption | intro _ | apply State.command_frame | apply endDone

theorem State.unlockKey_frame {w0 : Nat} {z0 : State} (s : State) (id : Nat) (hw : Area.sub 10240 w0) (h_s : State.Frame w0 z0 s) :
    State.Frame w0 z0 (State.unlockKey s id) := by
  unfold State.unlockKey
  try dsimp only
  with_reducible repeat' first | assumption | apply State.putKey_frame

theorem execKeyUnlock_frame {w0 : Nat} {z0 : State} (m : Nat) (s : State) (hw : Area.sub 27506 w0) (h_s : State.Frame w0 z0 s) :
    State.Frame.Ans w0 z0 (execKeyUnlock m s) := by
  unfold execKeyUnlock
  try dsimp only
  with_reducible repeat' first
    | assumption | exact Area.sub_trans (by decide) hw | intro _ | apply State.command_frame | apply State.unlockKey_frame
    | apply State.sendAll_frame | apply endDone | apply kIte

theorem State.rekeyDone_frame {w0 : Nat} {z0 : State} (s : State) (w : Rekey) (hw : Area.sub 26950 w0) (h_s : State.Frame w0 z0 s) :
    State.Frame w0 z0 (State.rekeyDone s w) := by
  unfold State.rekeyDone
  try dsimp only
  with_reducible repeat' first
    | assumption | exact Area.sub_trans (by decide) hw | apply State.wr_frame | apply State.disarm_frame | apply State.raise_frame
    | apply State.reportKeys_frame | (refine kUpd ?_; apply State.putKey_frame)

theorem State.walkNode_frame {w0 : Nat} {z0 : State} (s : State) (w : Rekey) (hw : Area.sub 31062 w0) (h_s : State.Frame w0 z0 s) :
    State.Frame w0 z0 (State.walkNode s w) := by
  unfold State.walkNode
  try dsimp only
  repeat' first
    | (with_reducible first
       | assumption | exact Area.sub_trans (by decide) hw | apply State.rekeyDone_frame | apply State.selvedgePast_frame
       | apply State.startConv_frame | apply kIte)
    | split

theorem execRekeyNode_frame {w0 : Nat} {z0 : State} (s : State) (hw : Area.sub 31062 w0) (h_s : State.Frame w0 z0 s) :
    State.Frame.Ans w0 z0 (execRekeyNode s) := by
  unfold execRekeyNode
  try dsimp only
  repeat' first | (with_reducible first | assumption | apply State.walkNode_frame | apply ansNext) | split

theorem execSelvedgeCheckpoint_frame {w0 : Nat} {z0 : State} (s : State) (hw : Area.sub 8196 w0) (h_s : State.Frame w0 z0 s) :
    State.Frame.Ans w0 z0 (execSelvedgeCheckpoint s) := by
  unfold execSelvedgeCheckpoint
  try dsimp only
  repeat' first
    | (with_reducible first
       | assumption | exact Area.sub_trans (by decide) hw | intro _ | apply State.periodic_frame | apply ansNext
       | (refine kUpd ?_; assumption))
    | split

theorem State.jtagOpen_frame {w0 : Nat} {z0 : State} (s : State) (scope : Nat) (hw : Area.sub 26946 w0) (h_s : State.Frame w0 z0 s) :
    State.Frame w0 z0 (State.jtagOpen s scope) := by
  unfold State.jtagOpen
  try dsimp only
  with_reducible repeat' first
    | assumption | exact Area.sub_trans (by decide) hw | apply State.setFld_frame | apply State.raise_frame | apply State.reportKeys_frame
    | apply kIte | (refine kUpd ?_; apply State.raise_frame)

theorem State.jtagLock_frame {w0 : Nat} {z0 : State} (s : State) (hw : Area.sub 2 w0) (h_s : State.Frame w0 z0 s) :
    State.Frame w0 z0 (State.jtagLock s) := by
  unfold State.jtagLock
  try dsimp only
  with_reducible repeat' first | assumption | apply State.setFld_frame

theorem execJtagUnlock_frame {w0 : Nat} {z0 : State} (m : Nat) (s : State) (hw : Area.sub 27506 w0) (h_s : State.Frame w0 z0 s) :
    State.Frame.Ans w0 z0 (execJtagUnlock m s) := by
  unfold execJtagUnlock
  try dsimp only
  with_reducible repeat' first
    | assumption | exact Area.sub_trans (by decide) hw | intro _ | apply State.command_frame | apply State.jtagOpen_frame | apply endDone

theorem execJtagLock_frame {w0 : Nat} {z0 : State} (m : Nat) (s : State) (hw : Area.sub 882 w0) (h_s : State.Frame w0 z0 s) :
    State.Frame.Ans w0 z0 (execJtagLock m s) := by
  unfold execJtagLock
  try dsimp only
  with_reducible repeat' first
    | assumption | exact Area.sub_trans (by decide) hw | intro _ | apply State.command_frame | apply State.jtagLock_frame | apply endDone

theorem execJtagNonceRead_frame {w0 : Nat} {z0 : State} (s : State) (hw : Area.sub 512 w0) (h_s : State.Frame w0 z0 s) :
    State.Frame.Ans w0 z0 (execJtagNonceRead s) := by
  unfold execJtagNonceRead
  try dsimp only
  with_reducible repeat' first
    | assumption | exact Area.sub_trans (by decide) hw | apply ansNext | (refine kUpd ?_; apply State.draw256_frame)

theorem State.jtagFail_frame {w0 : Nat} {z0 : State} (s : State) (hw : Area.sub 27474 w0) (h_s : State.Frame w0 z0 s) :
    State.Frame w0 z0 (State.jtagFail s) := by
  unfold State.jtagFail
  try dsimp only
  with_reducible repeat' first
    | assumption | exact Area.sub_trans (by decide) hw | apply State.setFld_frame | apply State.setFlag_frame | apply State.alarm_frame
    | apply kIte | (refine kUpd ?_; apply State.setFld_frame)

theorem execJtagUnlockSig_frame {w0 : Nat} {z0 : State} (scope : Nat) (key : Nat) (sig : List Byte) (s : State) (hw : Area.sub 27506 w0) (h_s : State.Frame w0 z0 s) :
    State.Frame.Ans w0 z0 (execJtagUnlockSig scope key sig s) := by
  unfold execJtagUnlockSig
  try dsimp only
  repeat' first
    | (with_reducible first
       | assumption | exact Area.sub_trans (by decide) hw | apply State.jtagFail_frame | apply State.jRefuse_frame
       | apply State.jChange_frame | apply State.setFld_frame | apply State.jtagOpen_frame | apply ansWithin
       | (refine kUpd ?_; assumption))
    | split

theorem execJtagCloseExpire_frame {w0 : Nat} {z0 : State} (s : State) (hw : Area.sub 514 w0) (h_s : State.Frame w0 z0 s) :
    State.Frame.Ans w0 z0 (execJtagCloseExpire s) := by
  unfold execJtagCloseExpire
  try dsimp only
  repeat' first
    | (with_reducible first
       | assumption | exact Area.sub_trans (by decide) hw | apply State.clrFlag_frame | apply State.setFld_frame | apply ansNext
       | apply kIte | (refine kUpd ?_; assumption))
    | split

theorem execDmaRefused_frame {w0 : Nat} {z0 : State} (master : Nat) (addr : Nat) (s : State) (hw : Area.sub 354 w0) (h_s : State.Frame w0 z0 s) :
    State.Frame.Ans w0 z0 (execDmaRefused master addr s) := by
  unfold execDmaRefused
  try dsimp only
  with_reducible repeat' first
    | assumption | exact Area.sub_trans (by decide) hw | apply State.jAlways_frame | apply State.count_frame | apply State.raise_frame
    | apply ansWithin | apply kIte

theorem State.putSa_frame {w0 : Nat} {z0 : State} (s : State) (k : Nat) (a : MacSa) (hw : Area.sub 16 w0) (h_s : State.Frame w0 z0 s) :
    State.Frame w0 z0 (State.putSa s k a) := by
  unfold State.putSa
  try dsimp only
  with_reducible repeat' first | (refine kUpd ?_; assumption)

theorem execMacsecSaInstall_frame {w0 : Nat} {z0 : State} (m : Nat) (s : State) (hw : Area.sub 882 w0) (h_s : State.Frame w0 z0 s) :
    State.Frame.Ans w0 z0 (execMacsecSaInstall m s) := by
  unfold execMacsecSaInstall
  try dsimp only
  repeat' first
    | (with_reducible first
       | assumption | exact Area.sub_trans (by decide) hw | intro _ | apply State.command_frame | apply State.putSa_frame | apply endDone)
    | dsimp only
    | split

theorem execMacsecSaDelete_frame {w0 : Nat} {z0 : State} (m : Nat) (s : State) (hw : Area.sub 882 w0) (h_s : State.Frame w0 z0 s) :
    State.Frame.Ans w0 z0 (execMacsecSaDelete m s) := by
  unfold execMacsecSaDelete
  try dsimp only
  repeat' first
    | (with_reducible first | assumption | intro _ | apply State.command_frame | apply endDone)
    | dsimp only
    | (with_reducible refine kUpd ?_; with_reducible assumption)
    | split

theorem execMacsecTxActivate_frame {w0 : Nat} {z0 : State} (m : Nat) (s : State) (hw : Area.sub 882 w0) (h_s : State.Frame w0 z0 s) :
    State.Frame.Ans w0 z0 (execMacsecTxActivate m s) := by
  unfold execMacsecTxActivate
  try dsimp only
  repeat' first
    | (with_reducible first | assumption | intro _ | apply State.command_frame | apply endDone)
    | dsimp only
    | (with_reducible refine kUpd ?_; with_reducible assumption)
    | split

theorem execMacsecSaStatus_frame {w0 : Nat} {z0 : State} (m : Nat) (s : State) (hw : Area.sub 882 w0) (h_s : State.Frame w0 z0 s) :
    State.Frame.Ans w0 z0 (execMacsecSaStatus m s) := by
  unfold execMacsecSaStatus
  try dsimp only
  repeat' first | (with_reducible first | assumption | intro _ | apply State.command_frame | apply endDone) | dsimp only | split

/-! ### Machine/Tables.lean -/

theorem State.clearPanel_frame {w0 : Nat} {z0 : State} (s : State) (hp : Nat) (lp : Nat) (hw : Area.sub 12544 w0) (h_s : State.Frame w0 z0 s) :
    State.Frame w0 z0 (State.clearPanel s hp lp) := by
  unfold State.clearPanel
  try dsimp only
  with_reducible repeat' first | (refine kUpd ?_; assumption)

theorem State.hintHere_frame {w0 : Nat} {z0 : State} (s : State) (a : Nat) (hw : Area.sub 8192 w0) (h_s : State.Frame w0 z0 s) :
    State.Frame w0 z0 (State.hintHere s a) := by
  unfold State.hintHere
  try dsimp only
  repeat' first | (with_reducible first | assumption | (refine kUpd ?_; assumption)) | split

theorem State.setHints_frame {w0 : Nat} {z0 : State} (s : State) (base : Nat) (size : Nat) (hint : Nat) (hw : Area.sub 24576 w0) (h_s : State.Frame w0 z0 s) :
    State.Frame w0 z0 (State.setHints s base size hint) := by
  unfold State.setHints
  try dsimp only
  with_reducible repeat' first
    | assumption | exact Area.sub_trans (by decide) hw | intro _ | apply State.hintHere_frame | apply kFoldl
    | (refine kUpd ?_; assumption)

theorem State.takeHints_frame {w0 : Nat} {z0 : State} (s : State) (l : Table Nat) (hw : Area.sub 24576 w0) (h_s : State.Frame w0 z0 s) :
    State.Frame w0 z0 (State.takeHints s l) := by
  unfold State.takeHints
  try dsimp only
  with_reducible repeat' first
    | assumption | exact Area.sub_trans (by decide) hw | intro _ | apply State.hintHere_frame | apply kFoldl
    | (refine kUpd ?_; assumption)

theorem State.freshPanel_frame {w0 : Nat} {z0 : State} (s : State) (lp : Nat) (keyId : Nat) (hw : Area.sub 8192 w0) (h_s : State.Frame w0 z0 s) :
    State.Frame w0 z0 (State.freshPanel s lp keyId) := by
  unfold State.freshPanel
  try dsimp only
  with_reducible repeat' first | (refine kUpd ?_; assumption)

theorem State.regrant_frame {w0 : Nat} {z0 : State} (s : State) (id : Nat) (g : Option Grant) (hw : Area.sub 41490 w0) (h_s : State.Frame w0 z0 s) :
    State.Frame w0 z0 (State.regrant s id g) := by
  unfold State.regrant
  try dsimp only
  with_reducible repeat' first | assumption | intro _ | apply State.resetConn_frame | apply kIte | apply kFoldl

theorem State.keepMap_frame {w0 : Nat} {z0 : State} (s : State) (hp : Nat) (d : DirEntry) (hw : Area.sub 16384 w0) (h_s : State.Frame w0 z0 s) :
    State.Frame w0 z0 (State.keepMap s hp d) := by
  unfold State.keepMap
  try dsimp only
  with_reducible repeat' first | (refine kUpd ?_; assumption)

theorem State.putDir_frame {w0 : Nat} {z0 : State} (s : State) (hp : Nat) (e : Option DirEntry) (hw : Area.sub 29952 w0) (h_s : State.Frame w0 z0 s) :
    State.Frame w0 z0 (State.putDir s hp e) := by
  unfold State.putDir
  try dsimp only
  repeat' first
    | (with_reducible first
       | assumption | exact Area.sub_trans (by decide) hw | intro _ | apply State.clearPanel_frame | apply State.keepMap_frame
       | apply State.freshPanel_frame | apply State.hintHere_frame | apply kIte | apply kFoldl)
    | dsimp only
    | (with_reducible refine kUpd ?_; with_reducible apply kFoldl)
    | split

theorem State.applyChange_frame {w0 : Nat} {z0 : State} (s : State) (c : TableChange) (hw : Area.sub 63250 w0) (h_s : State.Frame w0 z0 s) :
    State.Frame w0 z0 (State.applyChange s c) := by
  unfold State.applyChange
  try dsimp only
  repeat' first
    | (with_reducible first
       | assumption | exact Area.sub_trans (by decide) hw | intro _ | apply State.regrant_frame | apply State.putDir_frame | apply kIte
       | (refine kUpd ?_; first | assumption | apply kFoldl))
    | split

theorem State.applyChanges_frame {w0 : Nat} {z0 : State} (s : State) (l : List TableChange) (hw : Area.sub 63250 w0) (h_s : State.Frame w0 z0 s) :
    State.Frame w0 z0 (State.applyChanges s l) := by
  unfold State.applyChanges
  try dsimp only
  with_reducible repeat' first | assumption | intro _ | apply State.applyChange_frame | apply kFoldl

theorem State.panelNotice_frame {w0 : Nat} {z0 : State} (s : State) (kind : Nat) (panels : List Nat) (hw : Area.sub 18 w0) (h_s : State.Frame w0 z0 s) :
    State.Frame w0 z0 (State.panelNotice s kind panels) := by
  unfold State.panelNotice
  try dsimp only
  with_reducible repeat' first | assumption | intro _ | apply State.notice_frame | apply kIte | apply kFoldl

theorem State.syncAct_frame {w0 : Nat} {z0 : State} (s : State) (a : SyncAct) (hw : Area.sub 16402 w0) (h_s : State.Frame w0 z0 s) :
    State.Frame w0 z0 (State.syncAct s a) := by
  unfold State.syncAct
  try dsimp only
  repeat' first
    | (with_reducible first | assumption | exact Area.sub_trans (by decide) hw | apply State.panelNotice_frame | (refine kUpd ?_; assumption))
    | split

theorem State.change_frame {w0 : Nat} {z0 : State} (s : State) (l : List TableChange) (a : SyncAct) (hw : Area.sub 63250 w0) (h_s : State.Frame w0 z0 s) :
    State.Frame w0 z0 (State.change s l a) := by
  unfold State.change
  try dsimp only
  repeat' first
    | (with_reducible first
       | assumption | exact Area.sub_trans (by decide) hw | intro _ | apply State.sendControl_frame | apply State.applyChanges_frame
       | apply State.syncAct_frame | apply kIte | apply kFoldl | (refine kUpd ?_; apply State.sendControl_frame))
    | split

theorem State.synced_frame {w0 : Nat} {z0 : State} (s : State) (rack : Nat) (hw : Area.sub 63250 w0) (h_s : State.Frame w0 z0 s) :
    State.Frame w0 z0 (State.synced s rack) := by
  unfold State.synced
  try dsimp only
  with_reducible repeat' first
    | assumption | exact Area.sub_trans (by decide) hw | intro _ | apply State.applyChanges_frame | apply State.syncAct_frame
    | apply kFoldl | (refine kUpd ?_; assumption)

theorem State.syncedAll_frame {w0 : Nat} {z0 : State} (s : State) (hw : Area.sub 63250 w0) (h_s : State.Frame w0 z0 s) :
    State.Frame w0 z0 (State.syncedAll s) := by
  unfold State.syncedAll
  try dsimp only
  with_reducible repeat' first
    | assumption | exact Area.sub_trans (by decide) hw | intro _ | apply State.applyChanges_frame | apply State.syncAct_frame
    | apply kFoldl | (refine kUpd ?_; assumption)

theorem State.changeEnd_frame {w0 : Nat} {z0 : State} (s : State) (r : Req) (l : List TableChange) (hw : Area.sub 63250 w0) (h_s : State.Frame w0 z0 s) :
    State.Frame.End w0 z0 (State.changeEnd s r l) := by
  unfold State.changeEnd
  try dsimp only
  with_reducible repeat' first | assumption | apply State.change_frame | apply endDone | apply endLater | apply endIte

theorem execRegionCreate_frame {w0 : Nat} {z0 : State} (m : Nat) (s : State) (hw : Area.sub 63346 w0) (h_s : State.Frame w0 z0 s) :
    State.Frame.Ans w0 z0 (execRegionCreate m s) := by
  unfold execRegionCreate
  try dsimp only
  repeat' first
    | (with_reducible first
       | assumption | exact Area.sub_trans (by decide) hw | intro _ | apply State.command_frame | apply State.changeEnd_frame
       | apply endDone)
    | dsimp only
    | split

theorem execRegionDelete_frame {w0 : Nat} {z0 : State} (m : Nat) (s : State) (hw : Area.sub 63346 w0) (h_s : State.Frame w0 z0 s) :
    State.Frame.Ans w0 z0 (execRegionDelete m s) := by
  unfold execRegionDelete
  try dsimp only
  with_reducible repeat' first
    | assumption | exact Area.sub_trans (by decide) hw | intro _ | apply State.command_frame | apply State.change_frame | apply endLater

theorem execRegionList_frame {w0 : Nat} {z0 : State} (m : Nat) (s : State) (hw : Area.sub 882 w0) (h_s : State.Frame w0 z0 s) :
    State.Frame.Ans w0 z0 (execRegionList m s) := by
  unfold execRegionList
  try dsimp only
  with_reducible repeat' first | assumption | intro _ | apply State.command_frame | apply endDone

theorem execGrantSet_frame {w0 : Nat} {z0 : State} (m : Nat) (s : State) (hw : Area.sub 63346 w0) (h_s : State.Frame w0 z0 s) :
    State.Frame.Ans w0 z0 (execGrantSet m s) := by
  unfold execGrantSet
  try dsimp only
  with_reducible repeat' first
    | assumption | exact Area.sub_trans (by decide) hw | intro _ | apply State.command_frame | apply State.changeEnd_frame

theorem execGrantDelete_frame {w0 : Nat} {z0 : State} (m : Nat) (s : State) (hw : Area.sub 63346 w0) (h_s : State.Frame w0 z0 s) :
    State.Frame.Ans w0 z0 (execGrantDelete m s) := by
  unfold execGrantDelete
  try dsimp only
  with_reducible repeat' first
    | assumption | exact Area.sub_trans (by decide) hw | intro _ | apply State.command_frame | apply State.changeEnd_frame

theorem execGrantList_frame {w0 : Nat} {z0 : State} (m : Nat) (s : State) (hw : Area.sub 882 w0) (h_s : State.Frame w0 z0 s) :
    State.Frame.Ans w0 z0 (execGrantList m s) := by
  unfold execGrantList
  try dsimp only
  repeat' first | (with_reducible first | assumption | intro _ | apply State.command_frame | apply endDone) | dsimp only | split

/-! ### Machine/Opcodes.lean -/

theorem State.clearPanels_frame {w0 : Nat} {z0 : State} (s : State) (a : SyncAct) (hw : Area.sub 63250 w0) (h_s : State.Frame w0 z0 s) :
    State.Frame w0 z0 (State.clearPanels s a) := by
  unfold State.clearPanels
  try dsimp only
  with_reducible repeat' first | assumption | apply State.change_frame | apply kIte

theorem State.putSplit_frame {w0 : Nat} {z0 : State} (s : State) (id : Nat) (x : Split) (hw : Area.sub 16384 w0) (h_s : State.Frame w0 z0 s) :
    State.Frame w0 z0 (State.putSplit s id x) := by
  unfold State.putSplit
  try dsimp only
  with_reducible repeat' first | (refine kUpd ?_; assumption)

theorem State.modPart_frame {w0 : Nat} {z0 : State} (s : State) (id : Nat) (k : Nat) (f : Part → Part) (hw : Area.sub 16384 w0) (h_s : State.Frame w0 z0 s) :
    State.Frame w0 z0 (State.modPart s id k f) := by
  unfold State.modPart
  try dsimp only
  with_reducible repeat' first | (refine kUpd ?_; assumption)

theorem State.refOf_frame {w0 : Nat} {z0 : State} (s : State) (id : Nat) (k : Nat) (hw : Area.sub 16384 w0) (h_s : State.Frame w0 z0 s) :
    State.Frame w0 z0 (State.refOf s id k).2 := by
  unfold State.refOf
  try dsimp only
  repeat' first | with_reducible assumption | dsimp only | (with_reducible refine kUpd ?_; with_reducible assumption) | split

theorem State.forwardFrames_frame {w0 : Nat} {z0 : State} (s : State) (f : LaceFrame) (opref : Nat) (conn : Nat) (t : Stitch) (hw : Area.sub 16386 w0) (h_s : State.Frame w0 z0 s) :
    State.Frame w0 z0 (State.forwardFrames s f opref conn t) := by
  unfold State.forwardFrames
  try dsimp only
  with_reducible repeat' first | assumption | intro _ | apply State.sendRoute_frame | apply kFoldl

theorem State.sendPart_frame {w0 : Nat} {z0 : State} (s : State) (id : Nat) (k : Nat) (o : Op) (p : Part) (prepare : Bool) (commit : Bool) (abort : Bool) (hw : Area.sub 16402 w0) (h_s : State.Frame w0 z0 s) :
    State.Frame w0 z0 (State.sendPart s id k o p prepare commit abort) := by
  unfold State.sendPart
  try dsimp only
  with_reducible repeat' first
    | assumption | exact Area.sub_trans (by decide) hw | apply State.refOf_frame | apply State.forwardFrames_frame
    | apply State.count_frame | apply State.modPart_frame | apply kIte | (refine kUpd ?_; first | assumption | apply State.count_frame)

theorem State.sendParts_frame {w0 : Nat} {z0 : State} (s : State) (id : Nat) (o : Op) (l : List Part) (prepare : Bool) (commit : Bool) (abort : Bool) (hw : Area.sub 16402 w0) (h_s : State.Frame w0 z0 s) :
    State.Frame w0 z0 (State.sendParts s id o l prepare commit abort) := by
  unfold State.sendParts
  try dsimp only
  repeat' first | (with_reducible first | assumption | intro _ | apply State.sendPart_frame | apply kFoldl) | split

theorem State.beginWrite_frame {w0 : Nat} {z0 : State} (s : State) (id : Nat) (o : Op) (l : List Part) (hw : Area.sub 16402 w0) (h_s : State.Frame w0 z0 s) :
    State.Frame w0 z0 (State.beginWrite s id o l) := by
  unfold State.beginWrite
  try dsimp only
  with_reducible repeat' first
    | assumption | exact Area.sub_trans (by decide) hw | apply State.putSplit_frame | apply State.count_frame
    | apply State.sendParts_frame | apply kIte

theorem State.startSplit_frame {w0 : Nat} {z0 : State} (s0 : State) (id : Nat) (o : Op) (hw : Area.sub 16402 w0) (h_s0 : State.Frame w0 z0 s0) :
    State.Frame w0 z0 (State.startSplit s0 id o) := by
  unfold State.startSplit
  try dsimp only
  repeat' first
    | (with_reducible first
       | assumption | exact Area.sub_trans (by decide) hw | apply State.modOp_frame | apply State.count_frame | apply State.putSplit_frame
       | apply State.sendParts_frame | apply State.beginWrite_frame | apply kIte)
    | split

theorem State.beginOp_frame {w0 : Nat} {z0 : State} (s : State) (id : Nat) (o : Op) (hw : Area.sub 31058 w0) (h_s : State.Frame w0 z0 s) :
    State.Frame w0 z0 (State.beginOp s id o) := by
  unfold State.beginOp
  try dsimp only
  repeat' first
    | (with_reducible first
       | assumption | exact Area.sub_trans (by decide) hw | apply State.runLocal_frame | apply State.startSplit_frame | apply kIte)
    | split

theorem State.repairRead_frame {w0 : Nat} {z0 : State} (s : State) (id : Nat) (o : Op) (x : Split) (bad : Nat) (good : Nat) (hw : Area.sub 16402 w0) (h_s : State.Frame w0 z0 s) :
    State.Frame w0 z0 (State.repairRead s id o x bad good) := by
  unfold State.repairRead
  try dsimp only
  repeat' first
    | (with_reducible first | assumption | exact Area.sub_trans (by decide) hw | apply State.putSplit_frame | apply State.sendPart_frame)
    | split

theorem State.endSplit_frame {w0 : Nat} {z0 : State} (s : State) (id : Nat) (r : Response) (hw : Area.sub 16400 w0) (h_s : State.Frame w0 z0 s) :
    State.Frame w0 z0 (State.endSplit s id r) := by
  unfold State.endSplit
  try dsimp only
  with_reducible repeat' first | exact Area.sub_trans (by decide) hw | apply State.finishOp_frame | (refine kUpd ?_; assumption)

theorem State.settleRun_frame {w0 : Nat} {z0 : State} (s : State) (id : Nat) (o : Op) (x : Split) (hw : Area.sub 16402 w0) (h_s : State.Frame w0 z0 s) :
    State.Frame w0 z0 (State.settleRun s id o x) := by
  unfold State.settleRun
  try dsimp only
  repeat' first
    | (with_reducible first
       | assumption | exact Area.sub_trans (by decide) hw | apply State.repairRead_frame | apply State.putSplit_frame
       | apply State.sendPart_frame | apply State.endSplit_frame | apply kIte | (refine kUpd ?_; assumption))
    | split

theorem State.settlePrepare_frame {w0 : Nat} {z0 : State} (s : State) (id : Nat) (o : Op) (x : Split) (hw : Area.sub 16402 w0) (h_s : State.Frame w0 z0 s) :
    State.Frame w0 z0 (State.settlePrepare s id o x) := by
  unfold State.settlePrepare
  try dsimp only
  repeat' first
    | (with_reducible first
       | assumption | exact Area.sub_trans (by decide) hw | intro _ | apply State.sendParts_frame | apply State.endSplit_frame
       | apply State.putSplit_frame | apply State.sendPart_frame | apply kIte | apply kFoldl)
    | split

theorem State.settleCopy_frame {w0 : Nat} {z0 : State} (s : State) (id : Nat) (o : Op) (x : Split) (hw : Area.sub 16402 w0) (h_s : State.Frame w0 z0 s) :
    State.Frame w0 z0 (State.settleCopy s id o x) := by
  unfold State.settleCopy
  try dsimp only
  repeat' first
    | (with_reducible first
       | assumption | exact Area.sub_trans (by decide) hw | apply State.endSplit_frame | apply State.beginWrite_frame
       | (refine kUpd ?_; assumption))
    | split

theorem State.settleGood_frame {w0 : Nat} {z0 : State} (s : State) (id : Nat) (o : Op) (x : Split) (bad : Nat) (hw : Area.sub 16722 w0) (h_s : State.Frame w0 z0 s) :
    State.Frame w0 z0 (State.settleGood s id o x bad) := by
  unfold State.settleGood
  try dsimp only
  repeat' first
    | (with_reducible first
       | assumption | exact Area.sub_trans (by decide) hw | apply State.count_frame | apply State.raise_frame | apply State.putSplit_frame
       | apply State.sendPart_frame | apply kIte | (refine kUpd ?_; apply kIte))
    | split

theorem State.settle_frame {w0 : Nat} {z0 : State} (s : State) (id : Nat) (hw : Area.sub 16722 w0) (h_s : State.Frame w0 z0 s) :
    State.Frame w0 z0 (State.settle s id) := by
  unfold State.settle
  try dsimp only
  repeat' first
    | (with_reducible first
       | assumption | exact Area.sub_trans (by decide) hw | apply State.settleRun_frame | apply State.settlePrepare_frame
       | apply State.settleCopy_frame | apply State.settleGood_frame | apply kIte | (refine kUpd ?_; apply State.putSplit_frame))
    | split

theorem State.partDone_frame {w0 : Nat} {z0 : State} (s : State) (id : Nat) (k : Nat) (r : Response) (hw : Area.sub 16722 w0) (h_s : State.Frame w0 z0 s) :
    State.Frame w0 z0 (State.partDone s id k r) := by
  unfold State.partDone
  try dsimp only
  repeat' first
    | (with_reducible first | assumption | exact Area.sub_trans (by decide) hw | apply State.modPart_frame | apply State.settle_frame)
    | split

theorem State.memRow_frame {w0 : Nat} {z0 : State} (s : State) (op : Nat) (opcode : Nat) (subop : Nat) (hw : Area.sub 31058 w0) (h_s : State.Frame w0 z0 s) :
    State.Frame w0 z0 (State.memRow s op opcode subop) := by
  unfold State.memRow
  try dsimp only
  repeat' first
    | (with_reducible first | assumption | exact Area.sub_trans (by decide) hw | apply State.failOp_frame | apply State.beginOp_frame | apply kIte)
    | split

theorem execRead_frame {w0 : Nat} {z0 : State} (op : Nat) (s : State) (hw : Area.sub 31058 w0) (h_s : State.Frame w0 z0 s) :
    State.Frame.Ans w0 z0 (execRead op s) := by
  unfold execRead
  try dsimp only
  with_reducible repeat' first | assumption | apply State.memRow_frame | apply ansNext

theorem execWrite_frame {w0 : Nat} {z0 : State} (op : Nat) (s : State) (hw : Area.sub 31058 w0) (h_s : State.Frame w0 z0 s) :
    State.Frame.Ans w0 z0 (execWrite op s) := by
  unfold execWrite
  try dsimp only
  with_reducible repeat' first | assumption | apply State.memRow_frame | apply ansNext

theorem execFetchAdd_frame {w0 : Nat} {z0 : State} (op : Nat) (s : State) (hw : Area.sub 31058 w0) (h_s : State.Frame w0 z0 s) :
    State.Frame.Ans w0 z0 (execFetchAdd op s) := by
  unfold execFetchAdd
  try dsimp only
  with_reducible repeat' first | assumption | apply State.memRow_frame | apply ansNext

theorem execSwap_frame {w0 : Nat} {z0 : State} (op : Nat) (s : State) (hw : Area.sub 31058 w0) (h_s : State.Frame w0 z0 s) :
    State.Frame.Ans w0 z0 (execSwap op s) := by
  unfold execSwap
  try dsimp only
  with_reducible repeat' first | assumption | apply State.memRow_frame | apply ansNext

theorem execCmpSwap_frame {w0 : Nat} {z0 : State} (op : Nat) (s : State) (hw : Area.sub 31058 w0) (h_s : State.Frame w0 z0 s) :
    State.Frame.Ans w0 z0 (execCmpSwap op s) := by
  unfold execCmpSwap
  try dsimp only
  with_reducible repeat' first | assumption | apply State.memRow_frame | apply ansNext

theorem execFetchAnd_frame {w0 : Nat} {z0 : State} (op : Nat) (s : State) (hw : Area.sub 31058 w0) (h_s : State.Frame w0 z0 s) :
    State.Frame.Ans w0 z0 (execFetchAnd op s) := by
  unfold execFetchAnd
  try dsimp only
  with_reducible repeat' first | assumption | apply State.memRow_frame | apply ansNext

theorem execFetchOr_frame {w0 : Nat} {z0 : State} (op : Nat) (s : State) (hw : Area.sub 31058 w0) (h_s : State.Frame w0 z0 s) :
    State.Frame.Ans w0 z0 (execFetchOr op s) := by
  unfold execFetchOr
  try dsimp only
  with_reducible repeat' first | assumption | apply State.memRow_frame | apply ansNext

theorem execFetchXor_frame {w0 : Nat} {z0 : State} (op : Nat) (s : State) (hw : Area.sub 31058 w0) (h_s : State.Frame w0 z0 s) :
    State.Frame.Ans w0 z0 (execFetchXor op s) := by
  unfold execFetchXor
  try dsimp only
  with_reducible repeat' first | assumption | apply State.memRow_frame | apply ansNext

theorem execFetchMinS_frame {w0 : Nat} {z0 : State} (op : Nat) (s : State) (hw : Area.sub 31058 w0) (h_s : State.Frame w0 z0 s) :
    State.Frame.Ans w0 z0 (execFetchMinS op s) := by
  unfold execFetchMinS
  try dsimp only
  with_reducible repeat' first | assumption | apply State.memRow_frame | apply ansNext

theorem execFetchMaxS_frame {w0 : Nat} {z0 : State} (op : Nat) (s : State) (hw : Area.sub 31058 w0) (h_s : State.Frame w0 z0 s) :
    State.Frame.Ans w0 z0 (execFetchMaxS op s) := by
  unfold execFetchMaxS
  try dsimp only
  with_reducible repeat' first | assumption | apply State.memRow_frame | apply ansNext

theorem execFetchMinU_frame {w0 : Nat} {z0 : State} (op : Nat) (s : State) (hw : Area.sub 31058 w0) (h_s : State.Frame w0 z0 s) :
    State.Frame.Ans w0 z0 (execFetchMinU op s) := by
  unfold execFetchMinU
  try dsimp only
  with_reducible repeat' first | assumption | apply State.memRow_frame | apply ansNext

theorem execFetchMaxU_frame {w0 : Nat} {z0 : State} (op : Nat) (s : State) (hw : Area.sub 31058 w0) (h_s : State.Frame w0 z0 s) :
    State.Frame.Ans w0 z0 (execFetchMaxU op s) := by
  unfold execFetchMaxU
  try dsimp only
  with_reducible repeat' first | assumption | apply State.memRow_frame | apply ansNext

theorem execCopy_frame {w0 : Nat} {z0 : State} (op : Nat) (s : State) (hw : Area.sub 31058 w0) (h_s : State.Frame w0 z0 s) :
    State.Frame.Ans w0 z0 (execCopy op s) := by
  unfold execCopy
  try dsimp only
  with_reducible repeat' first | assumption | apply State.memRow_frame | apply ansNext

theorem execFill_frame {w0 : Nat} {z0 : State} (op : Nat) (s : State) (hw : Area.sub 31058 w0) (h_s : State.Frame w0 z0 s) :
    State.Frame.Ans w0 z0 (execFill op s) := by
  unfold execFill
  try dsimp only
  with_reducible repeat' first | assumption | apply State.memRow_frame | apply ansNext

theorem execFlush_frame {w0 : Nat} {z0 : State} (op : Nat) (s : State) (hw : Area.sub 16 w0) (h_s : State.Frame w0 z0 s) :
    State.Frame.Ans w0 z0 (execFlush op s) := by
  unfold execFlush
  try dsimp only
  repeat' first
    | (with_reducible first | assumption | apply State.failOp_frame | apply State.finishOp_frame | apply ansNext | apply kIte)
    | split

end Sys2Proof.Machine
end

