-- ==== Sys2Proof/Laws/FrameHoop.lean ====
section
/-!
SUPPORT. What the operations leave alone (Laws/Frame.lean): filet compute and the hoop.
-/
namespace Sys2Proof.Machine
set_option Elab.async false
open State.Frame

/-! ### Machine/Tiles.lean -/

theorem State.putTile_frame {w0 : Nat} {z0 : State} (s : State) (t : Nat) (x : Tile) (hw : Area.sub 32768 w0) (h_s : State.Frame w0 z0 s) :
    State.Frame w0 z0 (State.putTile s t x) := by
  unfold State.putTile
  try dsimp only
  with_reducible repeat' first | (refine kUpd ?_; assumption)

theorem State.modMatrix_frame {w0 : Nat} {z0 : State} (s : State) (id : Nat) (f : Matrix → Matrix) (hw : Area.sub 32768 w0) (h_s : State.Frame w0 z0 s) :
    State.Frame w0 z0 (State.modMatrix s id f) := by
  unfold State.modMatrix
  try dsimp only
  with_reducible repeat' first | (refine kUpd ?_; assumption)

theorem State.modGroup_frame {w0 : Nat} {z0 : State} (s : State) (id : Nat) (g : Nat) (f : FGroup → FGroup) (hw : Area.sub 32768 w0) (h_s : State.Frame w0 z0 s) :
    State.Frame w0 z0 (State.modGroup s id g f) := by
  unfold State.modGroup
  try dsimp only
  with_reducible repeat' first | assumption | apply State.modMatrix_frame

theorem State.modJobs_frame {w0 : Nat} {z0 : State} (s : State) (id : Nat) (f : FJob → FJob) (hw : Area.sub 32768 w0) (h_s : State.Frame w0 z0 s) :
    State.Frame w0 z0 (State.modJobs s id f) := by
  unfold State.modJobs
  try dsimp only
  with_reducible repeat' first | (refine kUpd ?_; assumption)

theorem State.fetchShadow_frame {w0 : Nat} {z0 : State} (s : State) (lines : List Nat) (r : Reader := .maint) (hw : Area.sub 63826 w0) (h_s : State.Frame w0 z0 s) :
    State.Frame w0 z0 (State.fetchShadow s lines r) := by
  unfold State.fetchShadow
  try dsimp only
  repeat' first
    | (with_reducible first
       | assumption | exact Area.sub_trans (by decide) hw | intro _ | apply State.noteShadow_frame | apply kIte | apply kFoldl
       | (refine kUpd ?_; (refine kSnd (by assumption) ?_; apply State.startFill_frame)))
    | split

theorem State.takeTiles_frame {w0 : Nat} {z0 : State} (s : State) (id : Nat) (g : Nat) (tiles : List Nat) (hw : Area.sub 32768 w0) (h_s : State.Frame w0 z0 s) :
    State.Frame w0 z0 (State.takeTiles s id g tiles) := by
  unfold State.takeTiles
  try dsimp only
  with_reducible repeat' first | assumption | intro _ | apply State.putTile_frame | apply kFoldl

theorem State.fallbackGroup_frame {w0 : Nat} {z0 : State} (s : State) (id : Nat) (g : Nat) (tile : Nat) (hw : Area.sub 33090 w0) (h_s : State.Frame w0 z0 s) :
    State.Frame w0 z0 (State.fallbackGroup s id g tile) := by
  unfold State.fallbackGroup
  try dsimp only
  repeat' first
    | (with_reducible first
       | assumption | exact Area.sub_trans (by decide) hw | apply State.modGroup_frame | apply State.raiseTile_frame
       | apply State.modJobs_frame | apply kIte)
    | split

theorem State.startProg_frame {w0 : Nat} {z0 : State} (s : State) (id : Nat) (g : Nat) (why : ProgWhy) (hw : Area.sub 63826 w0) (h_s : State.Frame w0 z0 s) :
    State.Frame w0 z0 (State.startProg s id g why) := by
  unfold State.startProg
  try dsimp only
  repeat' first
    | (with_reducible first
       | assumption | exact Area.sub_trans (by decide) hw | apply State.raiseTile_frame | apply State.fallbackGroup_frame
       | apply State.fetchShadow_frame | apply kIte | (refine kUpd ?_; apply State.takeTiles_frame))
    | split

theorem State.refreshNow_frame {w0 : Nat} {z0 : State} (s : State) (id : Nat) (g : Nat) (hw : Area.sub 63826 w0) (h_s : State.Frame w0 z0 s) :
    State.Frame w0 z0 (State.refreshNow s id g) := by
  unfold State.refreshNow
  try dsimp only
  repeat' first | (with_reducible first | assumption | apply State.startProg_frame | apply kIte) | split

theorem State.refreshMatrix_frame {w0 : Nat} {z0 : State} (s : State) (id : Nat) (x : Matrix) (hw : Area.sub 63826 w0) (h_s : State.Frame w0 z0 s) :
    State.Frame w0 z0 (State.refreshMatrix s id x) := by
  unfold State.refreshMatrix
  with_reducible repeat' first | assumption | intro _ | apply State.startProg_frame | apply kFoldl

theorem State.staleWrite_frame {w0 : Nat} {z0 : State} (s : State) (addr : Nat) (len : Nat) (hw : Area.sub 63826 w0) (h_s : State.Frame w0 z0 s) :
    State.Frame w0 z0 (State.staleWrite s addr len) := by
  unfold State.staleWrite
  try dsimp only
  with_reducible repeat' first
    | assumption | exact Area.sub_trans (by decide) hw | intro _ | apply State.modGroup_frame | apply State.refreshNow_frame | apply kIte
    | apply kFoldl | (refine kUpd ?_; assumption)

theorem State.failTile_frame {w0 : Nat} {z0 : State} (s : State) (t : Nat) (cause : Nat) (hw : Area.sub 63826 w0) (h_s : State.Frame w0 z0 s) :
    State.Frame w0 z0 (State.failTile s t cause) := by
  unfold State.failTile
  try dsimp only
  with_reducible repeat' first
    | assumption | exact Area.sub_trans (by decide) hw | apply State.putTile_frame | apply State.raiseTile_frame | apply State.count_frame
    | apply State.fallbackGroup_frame | apply State.startProg_frame

theorem State.freeTiles_frame {w0 : Nat} {z0 : State} (s : State) (l : List Nat) (hw : Area.sub 32768 w0) (h_s : State.Frame w0 z0 s) :
    State.Frame w0 z0 (State.freeTiles s l) := by
  unfold State.freeTiles
  try dsimp only
  with_reducible repeat' first | assumption | intro _ | apply State.putTile_frame | apply kIte | apply kFoldl

theorem State.freeMatrix_frame {w0 : Nat} {z0 : State} (s : State) (id : Nat) (hw : Area.sub 32768 w0) (h_s : State.Frame w0 z0 s) :
    State.Frame w0 z0 (State.freeMatrix s id) := by
  unfold State.freeMatrix
  try dsimp only
  with_reducible repeat' first | assumption | (refine kUpd ?_; apply State.freeTiles_frame)

theorem State.dropMatrix_frame {w0 : Nat} {z0 : State} (s : State) (id : Nat) (a : SyncAct) (hw : Area.sub 63250 w0) (h_s : State.Frame w0 z0 s) :
    State.Frame w0 z0 (State.dropMatrix s id a) := by
  unfold State.dropMatrix
  try dsimp only
  with_reducible repeat' first | assumption | exact Area.sub_trans (by decide) hw | apply State.freeMatrix_frame | apply State.change_frame

theorem State.matrixDone_frame {w0 : Nat} {z0 : State} (s : State) (id : Nat) (dev : Nat) (st : Status) (hw : Area.sub 63346 w0) (h_s : State.Frame w0 z0 s) :
    State.Frame w0 z0 (State.matrixDone s id dev st) := by
  unfold State.matrixDone
  try dsimp only
  repeat' first
    | (with_reducible first
       | assumption | exact Area.sub_trans (by decide) hw | apply State.modMatrix_frame | apply State.report_frame
       | apply State.putBox_frame | apply State.jSecond_frame | apply State.dropMatrix_frame | apply kIte)
    | split

theorem State.groupsDone_frame {w0 : Nat} {z0 : State} (s : State) (id : Nat) (why : ProgWhy) (hw : Area.sub 63346 w0) (h_s : State.Frame w0 z0 s) :
    State.Frame w0 z0 (State.groupsDone s id why) := by
  unfold State.groupsDone
  try dsimp only
  with_reducible repeat' first
    | assumption | exact Area.sub_trans (by decide) hw | apply State.raise_frame | apply State.matrixDone_frame | apply kIte

theorem State.switchGroup_frame {w0 : Nat} {z0 : State} (s : State) (p : FProg) (q : List Nat × List Nat × List (List Int)) (hw : Area.sub 65394 w0) (h_s : State.Frame w0 z0 s) :
    State.Frame w0 z0 (State.switchGroup s p q) := by
  unfold State.switchGroup
  try dsimp only
  repeat' first
    | (with_reducible first
       | assumption | exact Area.sub_trans (by decide) hw | intro _ | apply State.freeTiles_frame | apply State.draw_frame
       | apply State.putTile_frame | apply State.modMatrix_frame | apply State.count_frame | apply State.groupsDone_frame
       | apply State.refreshNow_frame | apply kIte | apply foldlQ | (refine kUpd ?_; apply State.modJobs_frame))
    | split

theorem State.progStops_frame {w0 : Nat} {z0 : State} (s : State) (p : FProg) (st : Status) (hw : Area.sub 63346 w0) (h_s : State.Frame w0 z0 s) :
    State.Frame w0 z0 (State.progStops s p st) := by
  unfold State.progStops
  try dsimp only
  with_reducible repeat' first
    | assumption | exact Area.sub_trans (by decide) hw | intro _ | apply State.matrixDone_frame | apply State.freeMatrix_frame
    | apply State.putTile_frame | apply State.freeTiles_frame | apply State.raiseTile_frame | apply State.count_frame
    | apply State.groupsDone_frame | apply kIte | apply kFoldl | (refine kUpd ?_; assumption)

theorem State.progFails_frame {w0 : Nat} {z0 : State} (s : State) (p : FProg) (t : Nat) (hw : Area.sub 65394 w0) (h_s : State.Frame w0 z0 s) :
    State.Frame w0 z0 (State.progFails s p t) := by
  unfold State.progFails
  try dsimp only
  repeat' first
    | (with_reducible first
       | assumption | exact Area.sub_trans (by decide) hw | apply State.putTile_frame | apply State.raiseTile_frame
       | apply State.count_frame | apply State.freeTiles_frame | apply State.startProg_frame | apply State.matrixDone_frame
       | apply State.groupsDone_frame | apply kIte | (refine kUpd ?_; first | apply State.count_frame | apply kIte))
    | split

theorem execTileProgramDone_frame {w0 : Nat} {z0 : State} (tile : Nat) (ok : Bool) (s : State) (hw : Area.sub 65394 w0) (h_s : State.Frame w0 z0 s) :
    State.Frame.Ans w0 z0 (execTileProgramDone tile ok s) := by
  unfold execTileProgramDone
  try dsimp only
  repeat' first
    | (with_reducible first
       | assumption | exact Area.sub_trans (by decide) hw | apply State.progFails_frame | apply State.fetchShadow_frame
       | apply State.progStops_frame | apply State.switchGroup_frame | apply ansWithin | apply kIte | (refine kUpd ?_; assumption))
    | split

theorem State.startLoad_frame {w0 : Nat} {z0 : State} (s : State) (id : Nat) (hw : Area.sub 65394 w0) (h_s : State.Frame w0 z0 s) :
    State.Frame w0 z0 (State.startLoad s id) := by
  unfold State.startLoad
  try dsimp only
  repeat' first
    | (with_reducible first
       | assumption | exact Area.sub_trans (by decide) hw | intro _ | apply State.startProg_frame | apply State.matrixDone_frame
       | apply kIte | apply kFoldl)
    | split

theorem State.startLoads_frame {w0 : Nat} {z0 : State} (s : State) (hw : Area.sub 65394 w0) (h_s : State.Frame w0 z0 s) :
    State.Frame w0 z0 (State.startLoads s) := by
  unfold State.startLoads
  try dsimp only
  with_reducible repeat' first | assumption | intro _ | apply State.startLoad_frame | apply kIte | apply kFoldl

theorem State.refreshStale_frame {w0 : Nat} {z0 : State} (s : State) (hw : Area.sub 63826 w0) (h_s : State.Frame w0 z0 s) :
    State.Frame w0 z0 (State.refreshStale s) := by
  unfold State.refreshStale
  try dsimp only
  with_reducible repeat' first | assumption | intro _ | apply State.refreshNow_frame | apply kIte | apply kFoldl

theorem State.filetTables_frame {w0 : Nat} {z0 : State} (s : State) (hw : Area.sub 65394 w0) (h_s : State.Frame w0 z0 s) :
    State.Frame w0 z0 (State.filetTables s) := by
  unfold State.filetTables
  try dsimp only
  with_reducible repeat' first
    | assumption | exact Area.sub_trans (by decide) hw | apply State.refreshStale_frame | apply State.startLoads_frame
    | (refine kUpd ?_; assumption)

theorem State.trackTile_frame {w0 : Nat} {z0 : State} (s : State) (tile : Nat) (t1 : Tile) (degenerate : Bool) (hw : Area.sub 32770 w0) (h_s : State.Frame w0 z0 s) :
    State.Frame w0 z0 (State.trackTile s tile t1 degenerate) := by
  unfold State.trackTile
  try dsimp only
  with_reducible repeat' first
    | assumption | exact Area.sub_trans (by decide) hw | apply State.putTile_frame | apply State.count_frame | apply kIte

theorem State.residRefresh_frame {w0 : Nat} {z0 : State} (s : State) (tile : Nat) (t1 : Tile) (hw : Area.sub 63826 w0) (h_s : State.Frame w0 z0 s) :
    State.Frame w0 z0 (State.residRefresh s tile t1) := by
  unfold State.residRefresh
  try dsimp only
  with_reducible repeat' first
    | assumption | exact Area.sub_trans (by decide) hw | apply State.refreshNow_frame | apply State.raiseTile_frame | apply kIte

theorem State.auditEnd_frame {w0 : Nat} {z0 : State} (s : State) (tile : Nat) (t : Tile) (t1 : Tile) (y : FGroup) (degenerate : Bool) (hw : Area.sub 63826 w0) (h_s : State.Frame w0 z0 s) :
    State.Frame w0 z0 (State.auditEnd s tile t t1 y degenerate) := by
  unfold State.auditEnd
  try dsimp only
  with_reducible repeat' first
    | assumption | exact Area.sub_trans (by decide) hw | apply State.trackTile_frame | apply State.failTile_frame
    | apply State.putTile_frame | apply State.modGroup_frame | apply State.startProg_frame | apply State.refreshNow_frame
    | apply State.residRefresh_frame | apply kIte

theorem State.auditPass_frame {w0 : Nat} {z0 : State} (s : State) (tile : Nat) (codes : List (List Int)) (x : Matrix) (y : FGroup) (cols : List Nat) (hw : Area.sub 63826 w0) (h_s : State.Frame w0 z0 s) :
    State.Frame w0 z0 (State.auditPass s tile codes x y cols) := by
  unfold State.auditPass
  try dsimp only
  repeat' first
    | (with_reducible first
       | assumption | exact Area.sub_trans (by decide) hw | apply State.count_frame | apply State.raiseTile_frame
       | apply State.auditEnd_frame | apply kIte | (refine kUpd ?_; assumption))
    | split

theorem execAudit_frame {w0 : Nat} {z0 : State} (tile : Nat) (codes : List (List Int)) (s : State) (hw : Area.sub 63826 w0) (h_s : State.Frame w0 z0 s) :
    State.Frame.Ans w0 z0 (execAudit tile codes s) := by
  unfold execAudit
  try dsimp only
  repeat' first
    | (with_reducible first
       | assumption | exact Area.sub_trans (by decide) hw | apply State.putTile_frame | apply State.fetchShadow_frame
       | apply State.auditPass_frame | apply ansWithin | apply kIte)
    | split

set_option maxRecDepth 4000 in
theorem execRefreshAge_frame {w0 : Nat} {z0 : State} (matrix : Nat) (group : Nat) (s : State) (hw : Area.sub 63826 w0) (h_s : State.Frame w0 z0 s) :
    State.Frame.Ans w0 z0 (execRefreshAge matrix group s) := by
  unfold execRefreshAge
  try dsimp only
  repeat' first | (with_reducible first | assumption | apply State.refreshNow_frame | apply ansNext | apply kIte) | split

/-! ### Machine/Filet.lean -/

theorem State.sendSub_frame {w0 : Nat} {z0 : State} (s : State) (job : Nat) (k : Nat) (dev : Nat) (t : Stitch) (hw : Area.sub 16386 w0) (h_s : State.Frame w0 z0 s) :
    State.Frame w0 z0 (State.sendSub s job k dev t) := by
  unfold State.sendSub
  try dsimp only
  with_reducible repeat' first
    | assumption | exact Area.sub_trans (by decide) hw | apply State.refOf_frame | apply State.forwardFrames_frame
    | apply State.count_frame

theorem State.modJob_frame {w0 : Nat} {z0 : State} (s : State) (id : Nat) (f : FJob → FJob) (hw : Area.sub 32768 w0) (h_s : State.Frame w0 z0 s) :
    State.Frame w0 z0 (State.modJob s id f) := by
  unfold State.modJob
  try dsimp only
  with_reducible repeat' first | (refine kUpd ?_; assumption)

theorem State.addSubs_frame {w0 : Nat} {z0 : State} (s : State) (id : Nat) (x : Matrix) (l : List (Nat × List Nat × Nat × Nat)) (hw : Area.sub 49154 w0) (h_s : State.Frame w0 z0 s) :
    State.Frame w0 z0 (State.addSubs s id x l) := by
  unfold State.addSubs
  try dsimp only
  repeat' first
    | (with_reducible first
       | assumption | exact Area.sub_trans (by decide) hw | intro _ | apply State.modJob_frame | apply State.sendSub_frame | apply kFoldl)
    | split

theorem State.scoreHere_frame {w0 : Nat} {z0 : State} (s : State) (id : Nat) (x : Matrix) (panels : List Nat) (hw : Area.sub 32770 w0) (h_s : State.Frame w0 z0 s) :
    State.Frame w0 z0 (State.scoreHere s id x panels) := by
  unfold State.scoreHere
  try dsimp only
  repeat' first
    | (with_reducible first | assumption | exact Area.sub_trans (by decide) hw | apply State.modJob_frame | apply State.count_frame)
    | split

theorem State.newJobId_frame {w0 : Nat} {z0 : State} (s : State) (hw : Area.sub 0 w0) (h_s : State.Frame w0 z0 s) :
    State.Frame w0 z0 (State.newJobId s).2 := by
  unfold State.newJobId
  try dsimp only
  with_reducible repeat' first | assumption | apply State.draw_frame

theorem State.acceptJob_frame {w0 : Nat} {z0 : State} (s : State) (op : Nat) (o : Op) (mid : Nat) (x : Matrix) (hw : Area.sub 49170 w0) (h_s : State.Frame w0 z0 s) :
    State.Frame w0 z0 (State.acceptJob s op o mid x) := by
  unfold State.acceptJob
  try dsimp only
  repeat' first
    | (with_reducible first
       | assumption | exact Area.sub_trans (by decide) hw | apply State.scoreHere_frame | apply State.count_frame
       | apply State.addSubs_frame | apply State.finishOp_frame | apply State.modOp_frame | apply kIte
       | (refine kUpd ?_; apply State.newJobId_frame))
    | split

theorem State.submitRow_frame {w0 : Nat} {z0 : State} (s : State) (op : Nat) (kind : Nat) (hw : Area.sub 49170 w0) (h_s : State.Frame w0 z0 s) :
    State.Frame w0 z0 (State.submitRow s op kind) := by
  unfold State.submitRow
  try dsimp only
  repeat' first
    | (with_reducible first
       | assumption | exact Area.sub_trans (by decide) hw | apply State.failOp_frame | apply State.acceptJob_frame | apply kIte)
    | split

theorem execFiletSubmitScore_frame {w0 : Nat} {z0 : State} (op : Nat) (s : State) (hw : Area.sub 49170 w0) (h_s : State.Frame w0 z0 s) :
    State.Frame.Ans w0 z0 (execFiletSubmitScore op s) := by
  unfold execFiletSubmitScore
  try dsimp only
  with_reducible repeat' first | assumption | apply State.submitRow_frame | apply ansNext

theorem execFiletSubmitTopk_frame {w0 : Nat} {z0 : State} (op : Nat) (s : State) (hw : Area.sub 49170 w0) (h_s : State.Frame w0 z0 s) :
    State.Frame.Ans w0 z0 (execFiletSubmitTopk op s) := by
  unfold execFiletSubmitTopk
  try dsimp only
  with_reducible repeat' first | assumption | apply State.submitRow_frame | apply ansNext

theorem execFiletSubmitThreshold_frame {w0 : Nat} {z0 : State} (op : Nat) (s : State) (hw : Area.sub 49170 w0) (h_s : State.Frame w0 z0 s) :
    State.Frame.Ans w0 z0 (execFiletSubmitThreshold op s) := by
  unfold execFiletSubmitThreshold
  try dsimp only
  with_reducible repeat' first | assumption | apply State.submitRow_frame | apply ansNext

theorem State.addPass_frame {w0 : Nat} {z0 : State} (s : State) (id : Nat) (tile : Nat) (q : Nat) (first : Nat) (group : Nat) (stale : Bool) (fresh : Bool) (parts : List Int) (hw : Area.sub 32770 w0) (h_s : State.Frame w0 z0 s) :
    State.Frame w0 z0 (State.addPass s id tile q first group stale fresh parts) := by
  unfold State.addPass
  try dsimp only
  with_reducible repeat' first
    | exact Area.sub_trans (by decide) hw | apply State.modJob_frame | apply State.count_frame | (refine kUpd ?_; assumption)

theorem State.passConverted_frame {w0 : Nat} {z0 : State} (s : State) (id : Nat) (tile : Nat) (q : Nat) (x : Matrix) (y : FGroup) (j : FJob) (codes : List (List Int)) (hw : Area.sub 63826 w0) (h_s : State.Frame w0 z0 s) :
    State.Frame w0 z0 (State.passConverted s id tile q x y j codes) := by
  unfold State.passConverted
  try dsimp only
  with_reducible repeat' first
    | assumption | exact Area.sub_trans (by decide) hw | apply State.trackTile_frame | apply State.failTile_frame
    | apply State.addPass_frame | apply State.residRefresh_frame | apply kIte

theorem execPassDone_frame {w0 : Nat} {z0 : State} (port : Nat) (codes : List (List Int)) (ok : Bool) (s : State) (hw : Area.sub 63826 w0) (h_s : State.Frame w0 z0 s) :
    State.Frame.Ans w0 z0 (execPassDone port codes ok s) := by
  unfold execPassDone
  try dsimp only
  repeat' first
    | (with_reducible first
       | assumption | exact Area.sub_trans (by decide) hw | apply State.failTile_frame | apply State.fallbackGroup_frame
       | apply State.passConverted_frame | apply ansWithin | apply kIte)
    | split

theorem State.answerJob_frame {w0 : Nat} {z0 : State} (s : State) (id : Nat) (j : FJob) (hw : Area.sub 16 w0) (h_s : State.Frame w0 z0 s) :
    State.Frame w0 z0 (State.answerJob s id j) := by
  unfold State.answerJob
  try dsimp only
  repeat' first | (with_reducible first | assumption | apply State.finishOp_frame | apply State.failOp_frame | apply kIte) | split

theorem State.unloadDone_frame {w0 : Nat} {z0 : State} (s : State) (id : Nat) (hw : Area.sub 63250 w0) (h_s : State.Frame w0 z0 s) :
    State.Frame w0 z0 (State.unloadDone s id) := by
  unfold State.unloadDone
  try dsimp only
  repeat' first | (with_reducible first | assumption | apply State.dropMatrix_frame | apply kIte) | split

theorem State.endJob_frame {w0 : Nat} {z0 : State} (s : State) (id : Nat) (j : FJob) (st : Status) (blocks : List Block) (hw : Area.sub 63250 w0) (h_s : State.Frame w0 z0 s) :
    State.Frame w0 z0 (State.endJob s id j st blocks) := by
  unfold State.endJob
  try dsimp only
  with_reducible repeat' first
    | assumption | exact Area.sub_trans (by decide) hw | apply State.count_frame | apply State.answerJob_frame
    | apply State.unloadDone_frame | apply kIte | (refine kUpd ?_; assumption)

theorem State.finishJob_frame {w0 : Nat} {z0 : State} (s : State) (id : Nat) (j : FJob) (own : List Block) (hw : Area.sub 63250 w0) (h_s : State.Frame w0 z0 s) :
    State.Frame w0 z0 (State.finishJob s id j own) := by
  unfold State.finishJob
  try dsimp only
  with_reducible repeat' first | assumption | apply State.endJob_frame | (refine kUpd ?_; assumption)

theorem execJobComplete_frame {w0 : Nat} {z0 : State} (job : Nat) (s : State) (hw : Area.sub 65362 w0) (h_s : State.Frame w0 z0 s) :
    State.Frame.Ans w0 z0 (execJobComplete job s) := by
  unfold execJobComplete
  try dsimp only
  repeat' first
    | (with_reducible first
       | assumption | exact Area.sub_trans (by decide) hw | apply State.fetchShadow_frame | apply State.endJob_frame
       | apply State.count_frame | apply State.finishJob_frame | apply ansNext | apply kIte)
    | split

theorem execResultHoldExpire_frame {w0 : Nat} {z0 : State} (job : Nat) (s : State) (hw : Area.sub 32768 w0) (h_s : State.Frame w0 z0 s) :
    State.Frame.Ans w0 z0 (execResultHoldExpire job s) := by
  unfold execResultHoldExpire
  try dsimp only
  repeat' first | (with_reducible first | assumption | apply ansNext | apply kIte | (refine kUpd ?_; assumption)) | split

theorem State.subDone_frame {w0 : Nat} {z0 : State} (s : State) (id : Nat) (k : Nat) (r : Response) (hw : Area.sub 63250 w0) (h_s : State.Frame w0 z0 s) :
    State.Frame w0 z0 (State.subDone s id k r) := by
  unfold State.subDone
  try dsimp only
  repeat' first
    | (with_reducible first
       | assumption | exact Area.sub_trans (by decide) hw | apply State.modJob_frame | apply State.endJob_frame
       | apply State.sendSub_frame | apply kIte)
    | split

theorem State.subsLost_frame {w0 : Nat} {z0 : State} (s : State) (gone : Nat → Bool) (hw : Area.sub 63250 w0) (h_s : State.Frame w0 z0 s) :
    State.Frame w0 z0 (State.subsLost s gone) := by
  unfold State.subsLost
  try dsimp only
  repeat' first
    | (with_reducible first
       | assumption | exact Area.sub_trans (by decide) hw | intro _ | apply State.endJob_frame | apply State.modJob_frame
       | apply State.scoreHere_frame | apply State.addSubs_frame | apply kIte | apply kFoldl)
    | split

theorem State.resultRow_frame {w0 : Nat} {z0 : State} (s : State) (op : Nat) (subop : Nat) (k : State → Op → Nat → Option FJob → State) (hw : Area.sub 16 w0) (h_s : State.Frame w0 z0 s) (hk : ∀ (y0 : State) (y1 : Op) (y2 : Nat) (y3 : Option FJob), State.Frame w0 z0 y0 → State.Frame w0 z0 (k y0 y1 y2 y3)) :
    State.Frame w0 z0 (State.resultRow s op subop k) := by
  unfold State.resultRow
  try dsimp only
  repeat' first | (with_reducible first | assumption | apply hk | apply State.failOp_frame | apply kIte) | split

theorem execFiletResultRead_frame {w0 : Nat} {z0 : State} (op : Nat) (s : State) (hw : Area.sub 16 w0) (h_s : State.Frame w0 z0 s) :
    State.Frame.Ans w0 z0 (execFiletResultRead op s) := by
  unfold execFiletResultRead
  try dsimp only
  repeat' first
    | (with_reducible first
       | assumption | intro _ | apply State.resultRow_frame | apply State.failOp_frame | apply State.finishOp_frame | apply ansNext
       | apply kIte)
    | split

theorem execFiletResultStatus_frame {w0 : Nat} {z0 : State} (op : Nat) (s : State) (hw : Area.sub 16 w0) (h_s : State.Frame w0 z0 s) :
    State.Frame.Ans w0 z0 (execFiletResultStatus op s) := by
  unfold execFiletResultStatus
  try dsimp only
  repeat' first
    | (with_reducible first
       | assumption | intro _ | apply State.resultRow_frame | apply State.failOp_frame | apply State.finishOp_frame | apply ansNext)
    | split

theorem State.tellSubs_frame {w0 : Nat} {z0 : State} (s : State) (id : Nat) (j : FJob) (subop : Nat) (hw : Area.sub 16386 w0) (h_s : State.Frame w0 z0 s) :
    State.Frame w0 z0 (State.tellSubs s id j subop) := by
  unfold State.tellSubs
  try dsimp only
  repeat' first | (with_reducible first | assumption | intro _ | apply State.sendSub_frame | apply kIte | apply kFoldl) | split

theorem execFiletResultRelease_frame {w0 : Nat} {z0 : State} (op : Nat) (s : State) (hw : Area.sub 63250 w0) (h_s : State.Frame w0 z0 s) :
    State.Frame.Ans w0 z0 (execFiletResultRelease op s) := by
  unfold execFiletResultRelease
  try dsimp only
  repeat' first
    | (with_reducible first
       | assumption | exact Area.sub_trans (by decide) hw | intro _ | apply State.resultRow_frame | apply State.finishOp_frame
       | apply State.tellSubs_frame | apply State.answerJob_frame | apply State.unloadDone_frame | apply ansNext | apply kIte
       | (refine kUpd ?_; assumption))
    | split

theorem execFiletResultCancel_frame {w0 : Nat} {z0 : State} (op : Nat) (s : State) (hw : Area.sub 63250 w0) (h_s : State.Frame w0 z0 s) :
    State.Frame.Ans w0 z0 (execFiletResultCancel op s) := by
  unfold execFiletResultCancel
  try dsimp only
  repeat' first
    | (with_reducible first
       | assumption | exact Area.sub_trans (by decide) hw | intro _ | apply State.resultRow_frame | apply State.finishOp_frame
       | apply State.tellSubs_frame | apply State.modJob_frame | apply State.answerJob_frame | apply State.unloadDone_frame
       | apply State.count_frame | apply ansNext | apply kIte)
    | split

/-! ### Machine/Lace.lean -/

theorem State.respond_frame {w0 : Nat} {z0 : State} (s : State) (o : Op) (r : Response) (hw : Area.sub 16 w0) (h_s : State.Frame w0 z0 s) :
    State.Frame w0 z0 (State.respond s o r) := by
  unfold State.respond
  try dsimp only
  repeat' first | (with_reducible first | assumption | apply State.modConn_frame | apply State.pushReady_frame | apply kIte) | split

theorem State.answerAll_frame {w0 : Nat} {z0 : State} (s : State) (st : Status) (hw : Area.sub 16400 w0) (h_s : State.Frame w0 z0 s) :
    State.Frame w0 z0 (State.answerAll s st) := by
  unfold State.answerAll
  try dsimp only
  repeat' first
    | (with_reducible first
       | assumption | exact Area.sub_trans (by decide) hw | intro _ | apply State.respond_frame | apply State.flushReady_frame
       | apply kFoldl | (refine kUpd ?_; assumption))
    | split

theorem State.resetAfter_frame {w0 : Nat} {z0 : State} (s : State) (id : Nat) (reason : Nat) (hw : Area.sub 41490 w0) (h_s : State.Frame w0 z0 s) :
    State.Frame w0 z0 (State.resetAfter s id reason) := by
  unfold State.resetAfter
  try dsimp only
  with_reducible repeat' first
    | assumption | exact Area.sub_trans (by decide) hw | apply State.releaseFrames_frame | apply State.resetConn_frame

theorem State.resetAll_frame {w0 : Nat} {z0 : State} (s : State) (reason : Nat) (hw : Area.sub 41490 w0) (h_s : State.Frame w0 z0 s) :
    State.Frame w0 z0 (State.resetAll s reason) := by
  unfold State.resetAll
  try dsimp only
  with_reducible repeat' first | assumption | intro _ | apply State.resetAfter_frame | apply kFoldl

theorem State.adopt_frame {w0 : Nat} {z0 : State} (s : State) (e : Nat) (hw : Area.sub 258 w0) (h_s : State.Frame w0 z0 s) :
    State.Frame w0 z0 (State.adopt s e) := by
  unfold State.adopt
  try dsimp only
  with_reducible repeat' first
    | assumption | exact Area.sub_trans (by decide) hw | apply State.saveHoopTime_frame | apply State.setFld_frame
    | apply State.count_frame

theorem State.bumpEpoch_frame {w0 : Nat} {z0 : State} (s : State) (hw : Area.sub 16642 w0) (h_s : State.Frame w0 z0 s) :
    State.Frame w0 z0 (State.bumpEpoch s) := by
  unfold State.bumpEpoch
  try dsimp only
  with_reducible repeat' first | assumption | exact Area.sub_trans (by decide) hw | apply State.adopt_frame | apply State.sendAll_frame

theorem State.handoverNotice_frame {w0 : Nat} {z0 : State} (s : State) (grace : Nat) (hw : Area.sub 18 w0) (h_s : State.Frame w0 z0 s) :
    State.Frame w0 z0 (State.handoverNotice s grace) := by
  unfold State.handoverNotice
  try dsimp only
  with_reducible repeat' first | assumption | intro _ | apply State.notice_frame | apply kIte | apply kFoldl

theorem State.lockDirectory_frame {w0 : Nat} {z0 : State} (s : State) (hw : Area.sub 8192 w0) (h_s : State.Frame w0 z0 s) :
    State.Frame w0 z0 (State.lockDirectory s) := by
  unfold State.lockDirectory
  try dsimp only
  with_reducible repeat' first | assumption | intro _ | apply State.putWay_frame | apply kIte | apply kFoldl

theorem State.stopManager_frame {w0 : Nat} {z0 : State} (s : State) (hw : Area.sub 57874 w0) (h_s : State.Frame w0 z0 s) :
    State.Frame w0 z0 (State.stopManager s) := by
  unfold State.stopManager
  try dsimp only
  with_reducible repeat' first
    | assumption | exact Area.sub_trans (by decide) hw | apply State.answerAll_frame | apply State.handoverNotice_frame
    | apply State.clrFlag_frame | (refine kUpd ?_; apply State.resetAll_frame)

theorem State.sawEpoch_frame {w0 : Nat} {z0 : State} (s : State) (src : Nat) (e : Nat) (hw : Area.sub 58194 w0) (h_s : State.Frame w0 z0 s) :
    State.Frame w0 z0 (State.sawEpoch s src e) := by
  unfold State.sawEpoch
  try dsimp only
  with_reducible repeat' first
    | assumption | exact Area.sub_trans (by decide) hw | apply State.adopt_frame | apply State.raise_frame | apply State.stopManager_frame
    | apply State.setFld_frame | apply State.clrFlag_frame | apply kIte | (refine kUpd ?_; apply State.lockDirectory_frame)

theorem State.repath_frame {w0 : Nat} {z0 : State} (s : State) (old : State) (hw : Area.sub 16386 w0) (h_s : State.Frame w0 z0 s) (h_old : State.Frame w0 z0 old) :
    State.Frame w0 z0 (State.repath s old) := by
  unfold State.repath
  try dsimp only
  with_reducible repeat' first
    | assumption | exact Area.sub_trans (by decide) hw | intro _ | apply State.sendPath_frame | apply State.count_frame | apply kIte
    | apply kFoldl

theorem State.dropRoute_frame {w0 : Nat} {z0 : State} (s : State) (d : Nat) (hw : Area.sub 16384 w0) (h_s : State.Frame w0 z0 s) :
    State.Frame w0 z0 (State.dropRoute s d) := by
  unfold State.dropRoute
  try dsimp only
  with_reducible repeat' first | assumption | apply State.putRoute_frame

theorem State.resyncOut_frame {w0 : Nat} {z0 : State} (s : State) (panel : Nat) (target : Nat) (chunks : Option (List Nat)) (hw : Area.sub 16384 w0) (h_s : State.Frame w0 z0 s) :
    State.Frame w0 z0 (State.resyncOut s panel target chunks) := by
  unfold State.resyncOut
  try dsimp only
  with_reducible repeat' first | (refine kUpd ?_; assumption)

theorem State.orderResync_frame {w0 : Nat} {z0 : State} (s : State) (panel : Nat) (target : Nat) (chunks : Option (List Nat)) (hw : Area.sub 16386 w0) (h_s : State.Frame w0 z0 s) :
    State.Frame w0 z0 (State.orderResync s panel target chunks) := by
  unfold State.orderResync
  try dsimp only
  repeat' first
    | (with_reducible first
       | assumption | exact Area.sub_trans (by decide) hw | apply State.resyncOut_frame | apply State.sendControl_frame | apply kIte)
    | split

theorem State.nextMove_frame {w0 : Nat} {z0 : State} (s : State) (hw : Area.sub 63250 w0) (h_s : State.Frame w0 z0 s) :
    State.Frame w0 z0 (State.nextMove s) := by
  unfold State.nextMove
  try dsimp only
  repeat' first
    | (with_reducible first
       | assumption | exact Area.sub_trans (by decide) hw | apply State.change_frame | apply State.dropRoute_frame
       | apply State.bumpEpoch_frame | apply State.orderResync_frame | apply kIte | (refine kUpd ?_; assumption))
    | split

theorem State.copyDone_frame {w0 : Nat} {z0 : State} (s : State) (dev : Nat) (panel : Nat) (chunks : Nat) (hw : Area.sub 63314 w0) (h_s : State.Frame w0 z0 s) :
    State.Frame w0 z0 (State.copyDone s dev panel chunks) := by
  unfold State.copyDone
  try dsimp only
  repeat' first
    | (with_reducible first
       | assumption | exact Area.sub_trans (by decide) hw | apply State.change_frame | apply State.raise_frame
       | apply State.nextMove_frame)
    | split

theorem State.reissuePart_frame {w0 : Nat} {z0 : State} (s : State) (id : Nat) (k : Nat) (o : Op) (x : Split) (p : Part) (hw : Area.sub 16402 w0) (h_s : State.Frame w0 z0 s) :
    State.Frame w0 z0 (State.reissuePart s id k o x p) := by
  unfold State.reissuePart
  try dsimp only
  repeat' first
    | (with_reducible first
       | assumption | exact Area.sub_trans (by decide) hw | apply State.modPart_frame | apply State.sendPart_frame
       | apply State.count_frame | apply kIte | (refine kUpd ?_; assumption))
    | split

theorem State.reissue_frame {w0 : Nat} {z0 : State} (s : State) (hw : Area.sub 63314 w0) (h_s : State.Frame w0 z0 s) :
    State.Frame w0 z0 (State.reissue s) := by
  unfold State.reissue
  try dsimp only
  repeat' first
    | (with_reducible first
       | assumption | exact Area.sub_trans (by decide) hw | intro _ | apply State.subsLost_frame | apply State.reissuePart_frame
       | apply State.settle_frame | apply kIte | apply kFoldl)
    | split

theorem State.changeNow_frame {w0 : Nat} {z0 : State} (s : State) (l : List TableChange) (a : SyncAct) (hw : Area.sub 63314 w0) (h_s : State.Frame w0 z0 s) :
    State.Frame w0 z0 (State.changeNow s l a) := by
  unfold State.changeNow
  try dsimp only
  with_reducible repeat' first
    | assumption | exact Area.sub_trans (by decide) hw | apply State.change_frame | apply State.reissue_frame | apply kIte

theorem State.absent_frame {w0 : Nat} {z0 : State} (s : State) (d : Nat) (why : Nat) (hw : Area.sub 63314 w0) (h_s : State.Frame w0 z0 s) :
    State.Frame w0 z0 (State.absent s d why) := by
  unfold State.absent
  try dsimp only
  repeat' first
    | (with_reducible first
       | assumption | exact Area.sub_trans (by decide) hw | apply State.dropRoute_frame | apply State.bumpEpoch_frame
       | apply State.raise_frame | apply State.syncedAll_frame | apply State.changeNow_frame | apply State.nextMove_frame | apply kIte
       | (refine kUpd ?_; assumption))
    | split

theorem State.checkAbsent_frame {w0 : Nat} {z0 : State} (s : State) (hw : Area.sub 63314 w0) (h_s : State.Frame w0 z0 s) :
    State.Frame w0 z0 (State.checkAbsent s) := by
  unfold State.checkAbsent
  try dsimp only
  with_reducible repeat' first | assumption | intro _ | apply State.absent_frame | apply kIte | apply kFoldl

theorem State.sendTables_frame {w0 : Nat} {z0 : State} (s : State) (d : Nat) (hw : Area.sub 16386 w0) (h_s : State.Frame w0 z0 s) :
    State.Frame w0 z0 (State.sendTables s d) := by
  unfold State.sendTables
  try dsimp only
  with_reducible repeat' first | assumption | apply State.sendControl_frame | apply kIte | (refine kUpd ?_; apply State.sendControl_frame)

theorem State.treatCopies_frame {w0 : Nat} {z0 : State} (s : State) (d : Nat) (kept : Bool) (hw : Area.sub 63314 w0) (h_s : State.Frame w0 z0 s) :
    State.Frame w0 z0 (State.treatCopies s d kept) := by
  unfold State.treatCopies
  try dsimp only
  with_reducible repeat' first
    | assumption | exact Area.sub_trans (by decide) hw | intro _ | apply State.changeNow_frame | apply State.raise_frame
    | apply State.orderResync_frame | apply kIte | apply kFoldl

theorem State.rejoin_frame {w0 : Nat} {z0 : State} (s : State) (a : Announce) (hw : Area.sub 63314 w0) (h_s : State.Frame w0 z0 s) :
    State.Frame w0 z0 (State.rejoin s a) := by
  unfold State.rejoin
  try dsimp only
  repeat' first
    | (with_reducible first
       | assumption | exact Area.sub_trans (by decide) hw | apply State.bumpEpoch_frame | apply State.sendTables_frame
       | apply State.treatCopies_frame | apply State.nextMove_frame | apply kIte | (refine kUpd ?_; assumption))
    | split

theorem State.repairFork_frame {w0 : Nat} {z0 : State} (s : State) (addr : Nat) (len : Nat) (hw : Area.sub 16402 w0) (h_s : State.Frame w0 z0 s) :
    State.Frame w0 z0 (State.repairFork s addr len) := by
  unfold State.repairFork
  try dsimp only
  repeat' first
    | (with_reducible first
       | assumption | exact Area.sub_trans (by decide) hw | apply State.putSplit_frame | apply State.repairRead_frame
       | (refine kUpd ?_; assumption))
    | split

theorem State.takeRole_frame {w0 : Nat} {z0 : State} (s : State) (hw : Area.sub 63314 w0) (h_s : State.Frame w0 z0 s) :
    State.Frame w0 z0 (State.takeRole s) := by
  unfold State.takeRole
  try dsimp only
  with_reducible repeat' first
    | assumption | exact Area.sub_trans (by decide) hw | intro _ | apply State.bumpEpoch_frame | apply State.repairFork_frame
    | apply State.lockDirectory_frame | apply State.setFlag_frame | apply kFoldl
    | (refine kUpd ?_; first | assumption | apply State.setFld_frame | apply State.checkAbsent_frame)

theorem State.tryTakeover_frame {w0 : Nat} {z0 : State} (s : State) (hw : Area.sub 63314 w0) (h_s : State.Frame w0 z0 s) :
    State.Frame w0 z0 (State.tryTakeover s) := by
  unfold State.tryTakeover
  try dsimp only
  with_reducible repeat' first
    | assumption | exact Area.sub_trans (by decide) hw | apply State.setFlag_frame | apply State.raise_frame | apply State.takeRole_frame
    | apply State.count_frame | apply kIte

theorem State.tellStandby_frame {w0 : Nat} {z0 : State} (s : State) (peer : Nat) (c : Control) (hw : Area.sub 16386 w0) (h_s : State.Frame w0 z0 s) :
    State.Frame w0 z0 (State.tellStandby s peer c) := by
  unfold State.tellStandby
  try dsimp only
  with_reducible repeat' first | assumption | apply State.sendControl_frame | apply kIte

theorem State.linkGone_frame {w0 : Nat} {z0 : State} (s : State) (old : State) (peer : Nat) (hw : Area.sub 63314 w0) (h_s : State.Frame w0 z0 s) (h_old : State.Frame w0 z0 old) :
    State.Frame w0 z0 (State.linkGone s old peer) := by
  unfold State.linkGone
  try dsimp only
  with_reducible repeat' first
    | assumption | exact Area.sub_trans (by decide) hw | apply State.report_frame | apply State.tellStandby_frame
    | apply State.repath_frame | apply State.checkAbsent_frame | apply State.stopManager_frame | apply State.tryTakeover_frame
    | apply kIte | (refine kUpd ?_; apply State.checkAbsent_frame)

theorem State.linkFail_frame {w0 : Nat} {z0 : State} (s : State) (n : Nat) (why : Nat) (hw : Area.sub 63314 w0) (h_s : State.Frame w0 z0 s) :
    State.Frame w0 z0 (State.linkFail s n why) := by
  unfold State.linkFail
  try dsimp only
  with_reducible repeat' first
    | assumption | exact Area.sub_trans (by decide) hw | apply State.putLink_frame | apply State.setFlag_frame
    | apply State.saturate_frame | apply State.count_frame | apply State.raise_frame | apply State.linkGone_frame | apply kIte

/-! ### Machine/LaceRx.lean -/

theorem State.laceDrop_frame {w0 : Nat} {z0 : State} (s : State) (n : Nat) (cause : Nat) (hw : Area.sub 2 w0) (h_s : State.Frame w0 z0 s) :
    State.Frame w0 z0 (State.laceDrop s n cause) := by
  unfold State.laceDrop
  try dsimp only
  with_reducible repeat' first | assumption | apply State.count_frame | apply State.wr_frame

theorem State.replay_frame {w0 : Nat} {z0 : State} (s : State) (n : Nat) (hw : Area.sub 63314 w0) (h_s : State.Frame w0 z0 s) :
    State.Frame w0 z0 (State.replay s n) := by
  unfold State.replay
  try dsimp only
  with_reducible repeat' first
    | assumption | exact Area.sub_trans (by decide) hw | intro _ | apply State.linkFail_frame | apply State.putLink_frame
    | apply State.count_frame | apply State.emitLace_frame | apply kIte | apply kFoldl

theorem State.linkTake_frame {w0 : Nat} {z0 : State} (s : State) (n : Nat) (h : LaceHdr) (hw : Area.sub 63314 w0) (h_s : State.Frame w0 z0 s) :
    State.Frame w0 z0 (State.linkTake s n h) := by
  unfold State.linkTake
  try dsimp only
  with_reducible repeat' first
    | assumption | exact Area.sub_trans (by decide) hw | apply State.putLink_frame | apply State.replay_frame | apply State.pumpLink_frame
    | apply kIte

theorem State.routeTake_frame {w0 : Nat} {z0 : State} (s : State) (h : LaceHdr) (hw : Area.sub 63314 w0) (h_s : State.Frame w0 z0 s) :
    State.Frame w0 z0 (State.routeTake s h) := by
  unfold State.routeTake
  try dsimp only
  with_reducible repeat' first
    | assumption | exact Area.sub_trans (by decide) hw | apply State.putRoute_frame | apply State.synced_frame | apply State.reissue_frame
    | apply kIte | (refine kUpd ?_; apply State.routeRoom_frame)

theorem State.ackRoute_frame {w0 : Nat} {z0 : State} (s : State) (d : Nat) (hw : Area.sub 16384 w0) (h_s : State.Frame w0 z0 s) :
    State.Frame w0 z0 (State.ackRoute s d) := by
  unfold State.ackRoute
  try dsimp only
  with_reducible repeat' first | assumption | apply State.putRoute_frame

theorem State.relay_frame {w0 : Nat} {z0 : State} (s : State) (h : LaceHdr) (b : LaceBody) (hw : Area.sub 16386 w0) (h_s : State.Frame w0 z0 s) :
    State.Frame w0 z0 (State.relay s h b) := by
  unfold State.relay
  try dsimp only
  with_reducible repeat' first | assumption | apply State.sendPath_frame

theorem State.laceFec_frame {w0 : Nat} {z0 : State} (s : State) (n : Nat) (w : FecWord) (hw : Area.sub 2 w0) (h_s : State.Frame w0 z0 s) :
    State.Frame w0 z0 (State.laceFec s n w) := by
  unfold State.laceFec
  try dsimp only
  repeat' first | (with_reducible first | assumption | apply State.count_frame | apply kIte) | split

theorem State.laceRx_frame {w0 : Nat} {z0 : State} (s0 : State) (n : Nat) (f : LaceIn) (ltype : Nat) (body : LaceHdr → Option LaceBody) (k : State → LaceHdr → State) (hw : Area.sub 63314 w0) (h_s0 : State.Frame w0 z0 s0) (hk : ∀ (y0 : State) (y1 : LaceHdr), State.Frame w0 z0 y0 → State.Frame w0 z0 (k y0 y1)) :
    State.Frame w0 z0 (State.laceRx s0 n f ltype body k) := by
  unfold State.laceRx
  try dsimp only
  repeat' first
    | (with_reducible first
       | assumption | exact Area.sub_trans (by decide) hw | intro _ | apply hk | apply State.laceFec_frame | apply State.count_frame
       | apply State.linkTake_frame | apply State.sawEpoch_frame | apply State.routeTake_frame | apply State.relay_frame
       | apply State.laceDrop_frame | apply State.putLink_frame | apply State.ackRoute_frame | apply kIte | apply kFoldl)
    | split

theorem State.heartbeat_frame {w0 : Nat} {z0 : State} (s : State) (n : Nat) (h : LaceHdr) (b : List Byte) (hw : Area.sub 63314 w0) (h_s : State.Frame w0 z0 s) :
    State.Frame w0 z0 (State.heartbeat s n h b) := by
  unfold State.heartbeat
  try dsimp only
  with_reducible repeat' first
    | assumption | exact Area.sub_trans (by decide) hw | apply State.putLink_frame | apply State.setFld_frame | apply State.count_frame
    | apply State.wr_frame | apply State.tryTakeover_frame | apply kIte | (refine kUpd ?_; apply kIte)

theorem execHeartbeat_frame {w0 : Nat} {z0 : State} (link : Nat) (f : LaceIn) (s : State) (hw : Area.sub 63314 w0) (h_s : State.Frame w0 z0 s) :
    State.Frame.Ans w0 z0 (execHeartbeat link f s) := by
  unfold execHeartbeat
  try dsimp only
  with_reducible repeat' first | assumption | intro _ | apply State.laceRx_frame | apply State.heartbeat_frame | apply ansWithin

theorem State.laceSegment_frame {w0 : Nat} {z0 : State} (s : State) (src : Nat) (ltype : Nat) (opref : Nat) (t : Stitch) (hw : Area.sub 16384 w0) (h_s : State.Frame w0 z0 s) :
    State.Frame w0 z0 (State.laceSegment s src ltype opref t).2 := by
  unfold State.laceSegment
  try dsimp only
  repeat' first | with_reducible apply iteP | dsimp only | (with_reducible refine kUpd ?_; with_reducible assumption)

theorem State.forwarded_frame {w0 : Nat} {z0 : State} (s0 : State) (h : LaceHdr) (opref : Nat) (conn : Nat) (t : Stitch) (hw : Area.sub 147482 w0) (h_s0 : State.Frame w0 z0 s0) :
    State.Frame w0 z0 (State.forwarded s0 h opref conn t) := by
  unfold State.forwarded
  try dsimp only
  with_reducible repeat' first | assumption | exact Area.sub_trans (by decide) hw | (refine kUpd ?_; apply State.wake_frame)

theorem State.commitOp_frame {w0 : Nat} {z0 : State} (s : State) (h : LaceHdr) (opref : Nat) (hw : Area.sub 16 w0) (h_s : State.Frame w0 z0 s) :
    State.Frame w0 z0 (State.commitOp s h opref) := by
  unfold State.commitOp
  try dsimp only
  with_reducible repeat' first | (refine kUpd ?_; assumption)

theorem execForward_frame {w0 : Nat} {z0 : State} (link : Nat) (f : LaceIn) (s : State) (hw : Area.sub 194394 w0) (h_s : State.Frame w0 z0 s) :
    State.Frame.Ans w0 z0 (execForward link f s) := by
  unfold execForward
  try dsimp only
  repeat' first
    | (with_reducible first
       | assumption | exact Area.sub_trans (by decide) hw | intro _ | apply State.laceRx_frame | apply State.commitOp_frame
       | apply State.forwarded_frame | apply ansWithin | apply kIte
       | (refine kUpd ?_; (refine kSnd (by assumption) ?_; apply State.laceSegment_frame)))
    | split

theorem State.sendComplete_frame {w0 : Nat} {z0 : State} (s : State) (dev : Nat) (opref : Nat) (conn : Nat) (r : Response) (hw : Area.sub 16386 w0) (h_s : State.Frame w0 z0 s) :
    State.Frame w0 z0 (State.sendComplete s dev opref conn r) := by
  unfold State.sendComplete
  try dsimp only
  with_reducible repeat' first | assumption | intro _ | apply State.sendRoute_frame | apply kFoldl

theorem execComplete_frame {w0 : Nat} {z0 : State} (link : Nat) (f : LaceIn) (s : State) (hw : Area.sub 63314 w0) (h_s : State.Frame w0 z0 s) :
    State.Frame.Ans w0 z0 (execComplete link f s) := by
  unfold execComplete
  try dsimp only
  repeat' first
    | (with_reducible first
       | assumption | exact Area.sub_trans (by decide) hw | intro _ | apply State.laceRx_frame | apply State.subDone_frame
       | apply State.partDone_frame | apply ansWithin | apply kIte
       | (refine kUpd ?_; (refine kSnd (by assumption) ?_; apply State.laceSegment_frame)))
    | split

theorem execRouteAck_frame {w0 : Nat} {z0 : State} (link : Nat) (f : LaceIn) (s : State) (hw : Area.sub 63314 w0) (h_s : State.Frame w0 z0 s) :
    State.Frame.Ans w0 z0 (execRouteAck link f s) := by
  unfold execRouteAck
  try dsimp only
  with_reducible repeat' first | assumption | intro _ | apply State.laceRx_frame | apply ansWithin

theorem execRouteAckSend_frame {w0 : Nat} {z0 : State} (dev : Nat) (s : State) (hw : Area.sub 16386 w0) (h_s : State.Frame w0 z0 s) :
    State.Frame.Ans w0 z0 (execRouteAckSend dev s) := by
  unfold execRouteAckSend
  try dsimp only
  repeat' first
    | (with_reducible first
       | assumption | exact Area.sub_trans (by decide) hw | apply State.putRoute_frame | apply State.sendPath_frame | apply ansWithin
       | apply kIte)
    | split

theorem execDiscover_frame {w0 : Nat} {z0 : State} (link : Nat) (f : LaceIn) (s : State) (hw : Area.sub 63314 w0) (h_s : State.Frame w0 z0 s) :
    State.Frame.Ans w0 z0 (execDiscover link f s) := by
  unfold execDiscover
  try dsimp only
  with_reducible repeat' first
    | assumption | exact Area.sub_trans (by decide) hw | intro _ | apply State.laceRx_frame | apply State.sendOn_frame | apply ansWithin
    | apply kIte | apply kFoldl

theorem State.heard_frame {w0 : Nat} {z0 : State} (s : State) (hoopId : Nat) (a : Announce) (hw : Area.sub 63314 w0) (h_s : State.Frame w0 z0 s) :
    State.Frame w0 z0 (State.heard s hoopId a) := by
  unfold State.heard
  try dsimp only
  repeat' first
    | (with_reducible first
       | assumption | exact Area.sub_trans (by decide) hw | apply State.rejoin_frame | apply State.raise_frame | apply kIte
       | (refine kUpd ?_; assumption))
    | split

theorem execAnnounce_frame {w0 : Nat} {z0 : State} (link : Nat) (f : LaceIn) (a : Announce) (s : State) (hw : Area.sub 63314 w0) (h_s : State.Frame w0 z0 s) :
    State.Frame.Ans w0 z0 (execAnnounce link f a s) := by
  unfold execAnnounce
  try dsimp only
  repeat' first
    | (with_reducible first
       | assumption | exact Area.sub_trans (by decide) hw | intro _ | apply State.laceRx_frame | apply State.heard_frame
       | apply State.sendOn_frame | apply ansWithin | apply kIte | (refine kUpd ?_; assumption))
    | split

theorem State.linkReport_frame {w0 : Nat} {z0 : State} (s : State) (dev : Nat) (peer : Nat) (up : Bool) (hw : Area.sub 63314 w0) (h_s : State.Frame w0 z0 s) :
    State.Frame w0 z0 (State.linkReport s dev peer up) := by
  unfold State.linkReport
  try dsimp only
  with_reducible repeat' first
    | assumption | exact Area.sub_trans (by decide) hw | apply State.repath_frame | apply State.checkAbsent_frame
    | apply State.tryTakeover_frame | apply kIte | (refine kUpd ?_; assumption)

theorem State.newManager_frame {w0 : Nat} {z0 : State} (s : State) (d : Nat) (hw : Area.sub 16386 w0) (h_s : State.Frame w0 z0 s) :
    State.Frame w0 z0 (State.newManager s d) := by
  unfold State.newManager
  try dsimp only
  with_reducible repeat' first | assumption | apply State.sendControl_frame | apply kIte | (refine kUpd ?_; assumption)

theorem State.copied_frame {w0 : Nat} {z0 : State} (s : State) (dev : Nat) (panel : Nat) (chunks : Nat) (hw : Area.sub 63314 w0) (h_s : State.Frame w0 z0 s) :
    State.Frame w0 z0 (State.copied s dev panel chunks) := by
  unfold State.copied
  try dsimp only
  with_reducible repeat' first
    | assumption | exact Area.sub_trans (by decide) hw | apply State.copyDone_frame | apply State.report_frame | apply kIte
    | (refine kUpd ?_; assumption)

theorem State.control_frame {w0 : Nat} {z0 : State} (s : State) (src : Nat) (c : Control) (hw : Area.sub 65394 w0) (h_s : State.Frame w0 z0 s) :
    State.Frame w0 z0 (State.control s src c) := by
  unfold State.control
  try dsimp only
  repeat' first
    | (with_reducible first
       | assumption | exact Area.sub_trans (by decide) hw | intro _ | apply State.absent_frame | apply State.newManager_frame
       | apply State.linkReport_frame | apply State.putKey_frame | apply State.sendAll_frame | apply State.nextMove_frame
       | apply State.wearLift_frame | apply State.wearSlowFor_frame | apply State.slowLiftFor_frame | apply State.slowShare_frame
       | apply State.alarmTo_frame | apply State.applyChanges_frame | apply State.filetTables_frame | apply State.setHints_frame
       | apply State.takeHints_frame | apply State.setFlag_frame | apply State.repairFork_frame | apply State.takeRole_frame
       | apply State.setFld_frame | apply State.resyncOut_frame | apply State.copied_frame | apply State.matrixDone_frame
       | apply State.refreshMatrix_frame | apply kIte | apply kFoldl | (refine kUpd ?_; first | assumption | apply State.takeRole_frame))
    | split

theorem execControl_frame {w0 : Nat} {z0 : State} (link : Nat) (f : LaceIn) (c : Control) (s : State) (hw : Area.sub 65394 w0) (h_s : State.Frame w0 z0 s) :
    State.Frame.Ans w0 z0 (execControl link f c s) := by
  unfold execControl
  try dsimp only
  with_reducible repeat' first
    | assumption | exact Area.sub_trans (by decide) hw | intro _ | apply State.laceRx_frame | apply State.control_frame | apply ansWithin

theorem State.markChunk_frame {w0 : Nat} {z0 : State} (s : State) (panel : Nat) (line : Nat) (hw : Area.sub 16384 w0) (h_s : State.Frame w0 z0 s) :
    State.Frame w0 z0 (State.markChunk s panel line) := by
  unfold State.markChunk
  try dsimp only
  with_reducible repeat' first | assumption | apply kIte | (refine kUpd ?_; assumption)

theorem State.takeLine_frame {w0 : Nat} {z0 : State} (s : State) (ln : Nat) (r : ResyncLine) (hw : Area.sub 12290 w0) (h_s : State.Frame w0 z0 s) :
    State.Frame w0 z0 (State.takeLine s ln r) := by
  unfold State.takeLine
  try dsimp only
  repeat' first
    | (with_reducible first
       | assumption | exact Area.sub_trans (by decide) hw | apply State.dropAgents_frame | (refine kUpd ?_; apply State.install_frame))
    | split

theorem State.resyncLine_frame {w0 : Nat} {z0 : State} (s : State) (r : ResyncLine) (hw : Area.sub 28674 w0) (h_s : State.Frame w0 z0 s) :
    State.Frame w0 z0 (State.resyncLine s r) := by
  unfold State.resyncLine
  try dsimp only
  repeat' first
    | (with_reducible first
       | assumption | exact Area.sub_trans (by decide) hw | apply State.markChunk_frame | apply State.takeLine_frame | apply kIte)
    | split

theorem execResync_frame {w0 : Nat} {z0 : State} (link : Nat) (f : LaceIn) (r : ResyncLine) (s : State) (hw : Area.sub 63314 w0) (h_s : State.Frame w0 z0 s) :
    State.Frame.Ans w0 z0 (execResync link f r s) := by
  unfold execResync
  try dsimp only
  with_reducible repeat' first
    | assumption | exact Area.sub_trans (by decide) hw | intro _ | apply State.laceRx_frame | apply State.resyncLine_frame
    | apply ansWithin

theorem State.putResync_frame {w0 : Nat} {z0 : State} (s : State) (r : ResyncOut) (hw : Area.sub 16384 w0) (h_s : State.Frame w0 z0 s) :
    State.Frame w0 z0 (State.putResync s r) := by
  unfold State.putResync
  try dsimp only
  with_reducible repeat' first | (refine kUpd ?_; assumption)

theorem execResyncSend_frame {w0 : Nat} {z0 : State} (panel : Nat) (s : State) (hw : Area.sub 63826 w0) (h_s : State.Frame w0 z0 s) :
    State.Frame.Ans w0 z0 (execResyncSend panel s) := by
  unfold execResyncSend
  try dsimp only
  repeat' first
    | (with_reducible first
       | assumption | exact Area.sub_trans (by decide) hw | apply State.sendControl_frame | apply State.sendRoute_frame
       | apply State.count_frame | apply State.putResync_frame | apply State.fillBad_frame | apply ansNext | apply kIte
       | (refine kUpd ?_; first | assumption | (refine kSnd (by assumption) ?_; apply State.startFill_frame)))
    | split

theorem execHeartbeatSend_frame {w0 : Nat} {z0 : State} (link : Nat) (s : State) (hw : Area.sub 16386 w0) (h_s : State.Frame w0 z0 s) :
    State.Frame.Ans w0 z0 (execHeartbeatSend link s) := by
  unfold execHeartbeatSend
  try dsimp only
  with_reducible repeat' first
    | assumption | exact Area.sub_trans (by decide) hw | apply State.putLink_frame | apply State.emitLace_frame | apply ansWithin
    | apply kIte

theorem execHeartbeatTimeout_frame {w0 : Nat} {z0 : State} (link : Nat) (s : State) (hw : Area.sub 63314 w0) (h_s : State.Frame w0 z0 s) :
    State.Frame.Ans w0 z0 (execHeartbeatTimeout link s) := by
  unfold execHeartbeatTimeout
  try dsimp only
  repeat' first
    | (with_reducible first
       | assumption | exact Area.sub_trans (by decide) hw | apply State.setFld_frame | apply State.count_frame
       | apply State.linkFail_frame | apply ansWithin | apply kIte)
    | split

theorem execLaceLinkLoss_frame {w0 : Nat} {z0 : State} (link : Nat) (s : State) (hw : Area.sub 63314 w0) (h_s : State.Frame w0 z0 s) :
    State.Frame.Ans w0 z0 (execLaceLinkLoss link s) := by
  unfold execLaceLinkLoss
  try dsimp only
  with_reducible repeat' first | assumption | apply State.linkFail_frame | apply ansWithin

theorem execLaceLinkTrained_frame {w0 : Nat} {z0 : State} (link : Nat) (s : State) (hw : Area.sub 16384 w0) (h_s : State.Frame w0 z0 s) :
    State.Frame.Ans w0 z0 (execLaceLinkTrained link s) := by
  unfold execLaceLinkTrained
  try dsimp only
  with_reducible repeat' first | assumption | apply State.putLink_frame | apply ansWithin | apply kIte

theorem State.linkBack_frame {w0 : Nat} {z0 : State} (s : State) (old : State) (n : Nat) (hw : Area.sub 16386 w0) (h_s : State.Frame w0 z0 s) (h_old : State.Frame w0 z0 old) :
    State.Frame w0 z0 (State.linkBack s old n) := by
  unfold State.linkBack
  try dsimp only
  with_reducible repeat' first
    | assumption | exact Area.sub_trans (by decide) hw | apply State.report_frame | apply State.tellStandby_frame
    | apply State.repath_frame | apply State.setFlag_frame | apply State.sendOn_frame | apply kIte
    | (refine kUpd ?_; apply State.repath_frame)

theorem execProbationEnd_frame {w0 : Nat} {z0 : State} (link : Nat) (s : State) (hw : Area.sub 16706 w0) (h_s : State.Frame w0 z0 s) :
    State.Frame.Ans w0 z0 (execProbationEnd link s) := by
  unfold execProbationEnd
  try dsimp only
  repeat' first
    | (with_reducible first
       | assumption | exact Area.sub_trans (by decide) hw | apply State.putLink_frame | apply State.raise_frame
       | apply State.linkBack_frame | apply ansWithin | apply kIte)
    | split

theorem State.lceCfgEffect_frame {w0 : Nat} {z0 : State} (s : State) (v : Word) (hw : Area.sub 63314 w0) (h_s : State.Frame w0 z0 s) :
    State.Frame w0 z0 (State.lceCfgEffect s v) := by
  unfold State.lceCfgEffect
  try dsimp only
  with_reducible repeat' first
    | assumption | exact Area.sub_trans (by decide) hw | intro _ | apply State.putLink_frame | apply State.linkGone_frame
    | apply State.wr_frame | apply kIte | apply kFoldl

/-! ### Machine/Hoop.lean -/

theorem State.fixHoop_frame {w0 : Nat} {z0 : State} (s : State) (hw : Area.sub 63314 w0) (h_s : State.Frame w0 z0 s) :
    State.Frame w0 z0 (State.fixHoop s) := by
  unfold State.fixHoop
  try dsimp only
  repeat' first
    | (with_reducible first
       | assumption | exact Area.sub_trans (by decide) hw | intro _ | apply State.bumpEpoch_frame | apply State.sendTables_frame
       | apply State.change_frame | apply State.treatCopies_frame | apply kIte | apply kFoldl | (refine kUpd ?_; assumption))
    | split

theorem execDiscoverWaitExpire_frame {w0 : Nat} {z0 : State} (s : State) (hw : Area.sub 63314 w0) (h_s : State.Frame w0 z0 s) :
    State.Frame.Ans w0 z0 (execDiscoverWaitExpire s) := by
  unfold execDiscoverWaitExpire
  try dsimp only
  repeat' first
    | (with_reducible first
       | assumption | exact Area.sub_trans (by decide) hw | apply State.bumpEpoch_frame | apply State.fixHoop_frame
       | apply State.setFlag_frame | apply ansNext | apply kIte | (refine kUpd ?_; assumption))
    | split

theorem State.startHandover_frame {w0 : Nat} {z0 : State} (s : State) (mailbox : Option Nat) (hw : Area.sub 16402 w0) (h_s : State.Frame w0 z0 s) :
    State.Frame w0 z0 (State.startHandover s mailbox) := by
  unfold State.startHandover
  try dsimp only
  with_reducible repeat' first
    | assumption | exact Area.sub_trans (by decide) hw | apply State.handoverNotice_frame | (refine kUpd ?_; apply State.clrFlag_frame)

theorem execHandoverGraceExpire_frame {w0 : Nat} {z0 : State} (s : State) (hw : Area.sub 57874 w0) (h_s : State.Frame w0 z0 s) :
    State.Frame.Ans w0 z0 (execHandoverGraceExpire s) := by
  unfold execHandoverGraceExpire
  try dsimp only
  repeat' first
    | (with_reducible first
       | assumption | exact Area.sub_trans (by decide) hw | apply State.resetAll_frame | apply State.setFld_frame
       | apply State.setFlag_frame | apply State.lockDirectory_frame | apply ansNext | apply kIte
       | (refine kUpd ?_; apply State.sendControl_frame))
    | split

theorem execHoopStatus_frame {w0 : Nat} {z0 : State} (m : Nat) (s : State) (hw : Area.sub 882 w0) (h_s : State.Frame w0 z0 s) :
    State.Frame.Ans w0 z0 (execHoopStatus m s) := by
  unfold execHoopStatus
  try dsimp only
  with_reducible repeat' first | assumption | intro _ | apply State.command_frame | apply endDone

theorem execMemberList_frame {w0 : Nat} {z0 : State} (m : Nat) (s : State) (hw : Area.sub 882 w0) (h_s : State.Frame w0 z0 s) :
    State.Frame.Ans w0 z0 (execMemberList m s) := by
  unfold execMemberList
  try dsimp only
  with_reducible repeat' first | assumption | intro _ | apply State.command_frame | apply endDone

theorem execPanelMap_frame {w0 : Nat} {z0 : State} (m : Nat) (s : State) (hw : Area.sub 882 w0) (h_s : State.Frame w0 z0 s) :
    State.Frame.Ans w0 z0 (execPanelMap m s) := by
  unfold execPanelMap
  try dsimp only
  with_reducible repeat' first | assumption | intro _ | apply State.command_frame | apply endDone

theorem execHoopForm_frame {w0 : Nat} {z0 : State} (m : Nat) (s : State) (hw : Area.sub 17266 w0) (h_s : State.Frame w0 z0 s) :
    State.Frame.Ans w0 z0 (execHoopForm m s) := by
  unfold execHoopForm
  try dsimp only
  with_reducible repeat' first
    | assumption | exact Area.sub_trans (by decide) hw | intro _ | apply State.command_frame | apply State.sendAll_frame
    | apply State.setFld_frame | apply State.wr_frame | apply State.bumpEpoch_frame | apply State.sendTables_frame | apply endDone
    | apply kFoldl | (refine kUpd ?_; assumption)

theorem execMemberAdmit_frame {w0 : Nat} {z0 : State} (m : Nat) (s : State) (hw : Area.sub 63346 w0) (h_s : State.Frame w0 z0 s) :
    State.Frame.Ans w0 z0 (execMemberAdmit m s) := by
  unfold execMemberAdmit
  try dsimp only
  repeat' first
    | (with_reducible first
       | assumption | exact Area.sub_trans (by decide) hw | intro _ | apply State.command_frame | apply State.change_frame
       | apply State.rejoin_frame | apply State.sendControl_frame | apply State.bumpEpoch_frame | apply endDone | apply kIte)
    | dsimp only
    | (with_reducible refine kUpd ?_; with_reducible assumption)
    | split

theorem execMemberRemove_frame {w0 : Nat} {z0 : State} (m : Nat) (s : State) (hw : Area.sub 63346 w0) (h_s : State.Frame w0 z0 s) :
    State.Frame.Ans w0 z0 (execMemberRemove m s) := by
  unfold execMemberRemove
  try dsimp only
  with_reducible repeat' first
    | assumption | exact Area.sub_trans (by decide) hw | intro _ | apply State.command_frame | apply State.nextMove_frame | apply endLater
    | (refine kUpd ?_; assumption)

theorem execPanelRelease_frame {w0 : Nat} {z0 : State} (m : Nat) (s : State) (hw : Area.sub 63346 w0) (h_s : State.Frame w0 z0 s) :
    State.Frame.Ans w0 z0 (execPanelRelease m s) := by
  unfold execPanelRelease
  try dsimp only
  repeat' first
    | (with_reducible first
       | assumption | exact Area.sub_trans (by decide) hw | intro _ | apply State.command_frame | apply State.changeEnd_frame
       | apply endDone)
    | dsimp only
    | split

theorem execHandover_frame {w0 : Nat} {z0 : State} (m : Nat) (s : State) (hw : Area.sub 17266 w0) (h_s : State.Frame w0 z0 s) :
    State.Frame.Ans w0 z0 (execHandover m s) := by
  unfold execHandover
  try dsimp only
  with_reducible repeat' first
    | assumption | exact Area.sub_trans (by decide) hw | intro _ | apply State.command_frame | apply State.startHandover_frame
    | apply endLater

theorem execSchedule_frame {w0 : Nat} {z0 : State} (m : Nat) (s : State) (hw : Area.sub 17266 w0) (h_s : State.Frame w0 z0 s) :
    State.Frame.Ans w0 z0 (execSchedule m s) := by
  unfold execSchedule
  try dsimp only
  with_reducible repeat' first
    | assumption | exact Area.sub_trans (by decide) hw | intro _ | apply State.command_frame | apply State.sendAll_frame | apply endDone
    | (refine kUpd ?_; assumption)

theorem execScheduleCancel_frame {w0 : Nat} {z0 : State} (m : Nat) (s : State) (hw : Area.sub 17266 w0) (h_s : State.Frame w0 z0 s) :
    State.Frame.Ans w0 z0 (execScheduleCancel m s) := by
  unfold execScheduleCancel
  try dsimp only
  with_reducible repeat' first
    | assumption | exact Area.sub_trans (by decide) hw | intro _ | apply State.command_frame | apply State.sendAll_frame | apply endDone
    | (refine kUpd ?_; assumption)

theorem execScheduleStatus_frame {w0 : Nat} {z0 : State} (m : Nat) (s : State) (hw : Area.sub 882 w0) (h_s : State.Frame w0 z0 s) :
    State.Frame.Ans w0 z0 (execScheduleStatus m s) := by
  unfold execScheduleStatus
  try dsimp only
  repeat' first | (with_reducible first | assumption | intro _ | apply State.command_frame | apply endDone) | dsimp only | split

/-! ### Machine/FiletCmds.lean -/

theorem execMatrixLoad_frame {w0 : Nat} {z0 : State} (m : Nat) (s : State) (hw : Area.sub 65394 w0) (h_s : State.Frame w0 z0 s) :
    State.Frame.Ans w0 z0 (execMatrixLoad m s) := by
  unfold execMatrixLoad
  try dsimp only
  with_reducible repeat' first
    | assumption | exact Area.sub_trans (by decide) hw | intro _ | apply State.command_frame | apply State.change_frame
    | apply State.startLoad_frame | apply endLater | apply kIte | (refine kUpd ?_; apply State.draw_frame)

theorem execMatrixUnload_frame {w0 : Nat} {z0 : State} (m : Nat) (s : State) (hw : Area.sub 63346 w0) (h_s : State.Frame w0 z0 s) :
    State.Frame.Ans w0 z0 (execMatrixUnload m s) := by
  unfold execMatrixUnload
  try dsimp only
  with_reducible repeat' first
    | assumption | exact Area.sub_trans (by decide) hw | intro _ | apply State.command_frame | apply State.modMatrix_frame
    | apply State.unloadDone_frame | apply endLater

theorem execMatrixRefresh_frame {w0 : Nat} {z0 : State} (m : Nat) (s : State) (hw : Area.sub 65394 w0) (h_s : State.Frame w0 z0 s) :
    State.Frame.Ans w0 z0 (execMatrixRefresh m s) := by
  unfold execMatrixRefresh
  try dsimp only
  repeat' first
    | (with_reducible first
       | assumption | exact Area.sub_trans (by decide) hw | intro _ | apply State.command_frame | apply State.modMatrix_frame
       | apply State.sendControl_frame | apply State.refreshMatrix_frame | apply State.matrixDone_frame | apply endDone | apply endLater
       | apply kIte | apply kFoldl)
    | dsimp only
    | split

theorem execMatrixStatus_frame {w0 : Nat} {z0 : State} (m : Nat) (s : State) (hw : Area.sub 882 w0) (h_s : State.Frame w0 z0 s) :
    State.Frame.Ans w0 z0 (execMatrixStatus m s) := by
  unfold execMatrixStatus
  try dsimp only
  repeat' first | (with_reducible first | assumption | intro _ | apply State.command_frame | apply endDone) | dsimp only | split

theorem execMatrixList_frame {w0 : Nat} {z0 : State} (m : Nat) (s : State) (hw : Area.sub 882 w0) (h_s : State.Frame w0 z0 s) :
    State.Frame.Ans w0 z0 (execMatrixList m s) := by
  unfold execMatrixList
  try dsimp only
  with_reducible repeat' first | assumption | intro _ | apply State.command_frame | apply endDone

theorem execFiletStatus_frame {w0 : Nat} {z0 : State} (m : Nat) (s : State) (hw : Area.sub 882 w0) (h_s : State.Frame w0 z0 s) :
    State.Frame.Ans w0 z0 (execFiletStatus m s) := by
  unfold execFiletStatus
  try dsimp only
  with_reducible repeat' first | assumption | intro _ | apply State.command_frame | apply endDone

theorem execTileReturn_frame {w0 : Nat} {z0 : State} (m : Nat) (s : State) (hw : Area.sub 33650 w0) (h_s : State.Frame w0 z0 s) :
    State.Frame.Ans w0 z0 (execTileReturn m s) := by
  unfold execTileReturn
  try dsimp only
  with_reducible repeat' first
    | assumption | exact Area.sub_trans (by decide) hw | intro _ | apply State.command_frame | apply State.putTile_frame | apply endDone

/-! ### Machine/Placement.lean -/

theorem execHintSet_frame {w0 : Nat} {z0 : State} (m : Nat) (s : State) (hw : Area.sub 25458 w0) (h_s : State.Frame w0 z0 s) :
    State.Frame.Ans w0 z0 (execHintSet m s) := by
  unfold execHintSet
  try dsimp only
  with_reducible repeat' first
    | assumption | exact Area.sub_trans (by decide) hw | intro _ | apply State.command_frame | apply State.setHints_frame
    | apply State.sendAll_frame | apply endDone

theorem execHintGet_frame {w0 : Nat} {z0 : State} (m : Nat) (s : State) (hw : Area.sub 882 w0) (h_s : State.Frame w0 z0 s) :
    State.Frame.Ans w0 z0 (execHintGet m s) := by
  unfold execHintGet
  try dsimp only
  with_reducible repeat' first | assumption | intro _ | apply State.command_frame | apply endDone

theorem execWearStatus_frame {w0 : Nat} {z0 : State} (m : Nat) (s : State) (hw : Area.sub 882 w0) (h_s : State.Frame w0 z0 s) :
    State.Frame.Ans w0 z0 (execWearStatus m s) := by
  unfold execWearStatus
  try dsimp only
  repeat' first | (with_reducible first | assumption | intro _ | apply State.command_frame | apply endDone) | (unfold queryCmd; dsimp only)

theorem execTierStatus_frame {w0 : Nat} {z0 : State} (m : Nat) (s : State) (hw : Area.sub 882 w0) (h_s : State.Frame w0 z0 s) :
    State.Frame.Ans w0 z0 (execTierStatus m s) := by
  unfold execTierStatus
  try dsimp only
  repeat' first | (with_reducible first | assumption | intro _ | apply State.command_frame | apply endDone) | (unfold queryCmd; dsimp only)

theorem execSwatchRetire_frame {w0 : Nat} {z0 : State} (m : Nat) (s : State) (hw : Area.sub 25458 w0) (h_s : State.Frame w0 z0 s) :
    State.Frame.Ans w0 z0 (execSwatchRetire m s) := by
  unfold execSwatchRetire
  try dsimp only
  with_reducible repeat' first
    | assumption | exact Area.sub_trans (by decide) hw | intro _ | apply State.command_frame | apply State.retireSwatch_frame
    | apply endLater

end Sys2Proof.Machine
end

