-- ==== Sys2Proof/Laws/FramePower.lean ====
section
/-!
SUPPORT. What the operations leave alone (Laws/Frame.lean): registers, the sampler, power, start-up and update.
-/
namespace Sys2Proof.Machine
set_option Elab.async false
open State.Frame

/-! ### Machine/Save.lean -/

theorem State.agentsBack_frame {w0 : Nat} {z0 : State} (s : State) (hw : Area.sub 12290 w0) (h_s : State.Frame w0 z0 s) :
    State.Frame w0 z0 (State.agentsBack s) := by
  unfold State.agentsBack
  try dsimp only
  with_reducible repeat' first | assumption | intro _ | apply State.install_frame | (refine kUpd ?_; apply kFoldl)

theorem State.programNow_frame {w0 : Nat} {z0 : State} (s : State) (p : Nat) (img : LineImg) (hw : Area.sub 12610 w0) (h_s : State.Frame w0 z0 s) :
    State.Frame w0 z0 (State.programNow s p img) := by
  unfold State.programNow
  try dsimp only
  with_reducible repeat' first
    | exact Area.sub_trans (by decide) hw | apply State.addProgs_frame | apply State.uncopy_frame | apply State.count_frame
    | (refine kUpd ?_; assumption)

theorem State.payFor_frame {w0 : Nat} {z0 : State} (s : State) (unpaid : Bool) (paced : Bool) (hw : Area.sub 8192 w0) (h_s : State.Frame w0 z0 s) :
    State.Frame.Opt w0 z0 (State.payFor s unpaid paced) := by
  unfold State.payFor
  try dsimp only
  with_reducible repeat' first | assumption | apply State.takeToken_frame | apply optSome | apply optIte | (refine kUpd ?_; assumption)

theorem State.mapNow_frame {w0 : Nat} {z0 : State} (s : State) (lsw : Nat) (hw : Area.sub 12610 w0) (h_s : State.Frame w0 z0 s) :
    State.Frame w0 z0 (State.mapNow s lsw) := by
  unfold State.mapNow
  try dsimp only
  with_reducible repeat' first
    | assumption | exact Area.sub_trans (by decide) hw | apply State.startMapping_frame | apply State.mappingDone_frame | apply kIte

theorem State.flushTier_frame {w0 : Nat} {z0 : State} (s : State) (paced : Bool) (ln : Nat) (t : TierLine) (hw : Area.sub 29010 w0) (h_s : State.Frame w0 z0 s) :
    State.Frame w0 z0 (State.flushTier s paced ln t).2 := by
  unfold State.flushTier
  try dsimp only
  repeat' first
    | (with_reducible first
       | assumption | exact Area.sub_trans (by decide) hw | apply State.mapNow_frame | apply State.dramAccess_frame
       | apply State.govWait_frame | apply iteP)
    | dsimp only
    | (with_reducible refine kUpd ?_; with_reducible first | apply State.programNow_frame | (refine ofOpt (by assumption) ?_; with_reducible apply State.payFor_frame))
    | split

theorem State.downImage_frame {w0 : Nat} {z0 : State} (s : State) (ln : Nat) (l : Nat) (c : LlcLine) (hw : Area.sub 8192 w0) (h_s : State.Frame w0 z0 s) :
    State.Frame.OptP w0 z0 (State.downImage s ln l c) := by
  unfold State.downImage
  try dsimp only
  with_reducible repeat' first | assumption | apply State.sealLine_frame | apply optPSome | apply optPIte

theorem State.markClean_frame {w0 : Nat} {z0 : State} (s : State) (ln : Nat) (hw : Area.sub 12288 w0) (h_s : State.Frame w0 z0 s) :
    State.Frame w0 z0 (State.markClean s ln) := by
  unfold State.markClean
  try dsimp only
  with_reducible repeat' first | (refine kUpd ?_; assumption)

theorem State.flushLlc_frame {w0 : Nat} {z0 : State} (s : State) (paced : Bool) (ln : Nat) (c : LlcLine) (hw : Area.sub 29010 w0) (h_s : State.Frame w0 z0 s) :
    State.Frame w0 z0 (State.flushLlc s paced ln c).2 := by
  unfold State.flushLlc
  try dsimp only
  repeat' first
    | (with_reducible first
       | assumption | exact Area.sub_trans (by decide) hw | apply State.markClean_frame | apply State.mapNow_frame
       | apply State.govWait_frame | apply iteP
       | (refine kUpd ?_; first | assumption | apply State.programNow_frame | (refine ofOpt (by assumption) ?_; apply State.payFor_frame) | (refine ofOptP (by assumption) ?_; apply State.downImage_frame)))
    | split

theorem State.treeHome_frame {w0 : Nat} {z0 : State} (s : State) (hw : Area.sub 8194 w0) (h_s : State.Frame w0 z0 s) :
    State.Frame w0 z0 (State.treeHome s) := by
  unfold State.treeHome
  try dsimp only
  with_reducible repeat' first | exact Area.sub_trans (by decide) hw | apply State.count_frame | (refine kUpd ?_; assumption)

theorem State.treeTick_frame {w0 : Nat} {z0 : State} (s : State) (hw : Area.sub 8194 w0) (h_s : State.Frame w0 z0 s) :
    State.Frame w0 z0 (State.treeTick s) := by
  unfold State.treeTick
  try dsimp only
  with_reducible repeat' first | assumption | apply State.treeHome_frame | apply kIte

theorem State.cleanAll_frame {w0 : Nat} {z0 : State} {α : Type} (s : State) (f : State → Nat → α → Bool × State) (l : List (Nat × α)) (hw : Area.sub 0 w0) (h_s : State.Frame w0 z0 s) (hf : ∀ (y0 : State) (y1 : Nat) (y2 : α), State.Frame w0 z0 y0 → State.Frame w0 z0 (f y0 y1 y2).2) :
    State.Frame w0 z0 (State.cleanAll s f l).2 := by
  unfold State.cleanAll
  try dsimp only
  with_reducible repeat' first | assumption | intro _ | apply hf | apply iteP | apply foldlP

theorem State.flushAll_frame {w0 : Nat} {z0 : State} (s : State) (paced : Bool) (hw : Area.sub 29010 w0) (h_s : State.Frame w0 z0 s) :
    State.Frame w0 z0 (State.flushAll s paced).2 := by
  unfold State.flushAll
  try dsimp only
  with_reducible repeat' first
    | assumption | exact Area.sub_trans (by decide) hw | intro _ | apply State.agentsBack_frame | apply State.cleanAll_frame
    | apply State.flushTier_frame | apply State.flushLlc_frame | apply State.treeHome_frame | apply iteP | apply kFoldl
    | (refine kUpd ?_; assumption)

theorem State.allClean_frame {w0 : Nat} {z0 : State} (s : State) (hw : Area.sub 12288 w0) (h_s : State.Frame w0 z0 s) :
    State.Frame w0 z0 (State.allClean s) := by
  unfold State.allClean
  try dsimp only
  with_reducible repeat' first | (refine kUpd ?_; assumption)

theorem State.saveDirty_frame {w0 : Nat} {z0 : State} (s0 : State) (written : Nat) (hw : Area.sub 143362 w0) (h_s0 : State.Frame w0 z0 s0) :
    State.Frame w0 z0 (State.saveDirty s0 written) := by
  unfold State.saveDirty
  try dsimp only
  with_reducible repeat' first
    | assumption | exact Area.sub_trans (by decide) hw | apply kIte | (refine kUpd ?_; apply State.agentsBack_frame)

theorem State.loseVolatile_frame {w0 : Nat} {z0 : State} (s : State) (hw : Area.sub 129556 w0) (h_s : State.Frame w0 z0 s) :
    State.Frame w0 z0 (State.loseVolatile s) := by
  unfold State.loseVolatile
  try dsimp only
  with_reducible repeat' first | (refine kUpd ?_; assumption)

theorem State.coolAll_frame {w0 : Nat} {z0 : State} (s : State) (hw : Area.sub 8192 w0) (h_s : State.Frame w0 z0 s) :
    State.Frame w0 z0 (State.coolAll s) := by
  unfold State.coolAll
  try dsimp only
  with_reducible repeat' first | (refine kUpd ?_; assumption)

theorem State.fromTable_frame {w0 : Nat} {z0 : State} (s : State) (hw : Area.sub 8192 w0) (h_s : State.Frame w0 z0 s) :
    State.Frame w0 z0 (State.fromTable s) := by
  unfold State.fromTable
  try dsimp only
  with_reducible repeat' first | (refine kUpd ?_; assumption)

theorem State.cleanExcess_frame {w0 : Nat} {z0 : State} (s : State) (r0 : Nat) (hw : Area.sub 29010 w0) (h_s : State.Frame w0 z0 s) :
    State.Frame w0 z0 (State.cleanExcess s r0) := by
  induction r0 generalizing s with
  | zero =>
    unfold State.cleanExcess
    try dsimp only
    repeat' first | (with_reducible first | assumption | apply State.flushTier_frame | apply kIte) | split
  | succ _ ih =>
    unfold State.cleanExcess
    try dsimp only
    repeat' first | (with_reducible first | assumption | apply ih | apply State.flushTier_frame | apply kIte) | split

theorem State.replaySave_frame {w0 : Nat} {z0 : State} (s : State) (g : SaveGen) (hw : Area.sub 29010 w0) (h_s : State.Frame w0 z0 s) :
    State.Frame w0 z0 (State.replaySave s g) := by
  unfold State.replaySave
  try dsimp only
  with_reducible repeat' first
    | assumption | exact Area.sub_trans (by decide) hw | intro _ | apply State.poisonLine_frame | apply State.cleanExcess_frame
    | apply State.raise_frame | apply State.count_frame | apply kIte | apply kFoldl | (refine kUpd ?_; assumption)

/-! ### Machine/Mode.lean -/

theorem State.toEconomy_frame {w0 : Nat} {z0 : State} (s : State) (hw : Area.sub 143370 w0) (h_s : State.Frame w0 z0 s) :
    State.Frame w0 z0 (State.toEconomy s) := by
  unfold State.toEconomy
  try dsimp only
  with_reducible repeat' first
    | assumption | exact Area.sub_trans (by decide) hw | apply State.llcCfgEffect_frame | apply kIte | (refine kUpd ?_; assumption)

theorem State.toFull_frame {w0 : Nat} {z0 : State} (s : State) (hw : Area.sub 143370 w0) (h_s : State.Frame w0 z0 s) :
    State.Frame w0 z0 (State.toFull s) := by
  unfold State.toFull
  try dsimp only
  with_reducible repeat' first
    | assumption | exact Area.sub_trans (by decide) hw | apply State.llcCfgEffect_frame | apply kIte | (refine kUpd ?_; assumption)

theorem State.enterIdle_frame {w0 : Nat} {z0 : State} (s0 : State) (hw : Area.sub 143370 w0) (h_s0 : State.Frame w0 z0 s0) :
    State.Frame w0 z0 (State.enterIdle s0) := by
  unfold State.enterIdle
  try dsimp only
  with_reducible repeat' first
    | assumption | exact Area.sub_trans (by decide) hw | apply State.setFlag_frame | apply State.setFld_frame | apply State.count_frame
    | (refine kUpd ?_; apply State.allClean_frame)

theorem State.idleWork_frame {w0 : Nat} {z0 : State} (s : State) (hw : Area.sub 160090 w0) (h_s : State.Frame w0 z0 s) :
    State.Frame w0 z0 (State.idleWork s) := by
  unfold State.idleWork
  try dsimp only
  with_reducible repeat' first
    | assumption | exact Area.sub_trans (by decide) hw | apply State.flushAll_frame | apply State.enterIdle_frame | apply kIte

theorem State.toIdle_frame {w0 : Nat} {z0 : State} (s : State) (hw : Area.sub 160090 w0) (h_s : State.Frame w0 z0 s) :
    State.Frame w0 z0 (State.toIdle s) := by
  unfold State.toIdle
  try dsimp only
  with_reducible repeat' first | assumption | apply State.idleWork_frame | (refine kUpd ?_; assumption)

theorem execGovTokenTick_frame {w0 : Nat} {z0 : State} (s : State) (hw : Area.sub 160094 w0) (h_s : State.Frame w0 z0 s) :
    State.Frame.Ans w0 z0 (execGovTokenTick s) := by
  unfold execGovTokenTick
  try dsimp only
  with_reducible repeat' first
    | assumption | exact Area.sub_trans (by decide) hw | intro _ | apply State.periodic_frame | apply State.govTick_frame
    | apply State.idleWork_frame | apply State.cleaner_frame | apply ansNext | apply kIte

theorem State.modeWrite_frame {w0 : Nat} {z0 : State} (s : State) (v : Word) (hw : Area.sub 160090 w0) (h_s : State.Frame w0 z0 s) :
    State.Frame.Opt w0 z0 (State.modeWrite s v) := by
  unfold State.modeWrite
  try dsimp only
  with_reducible repeat' first
    | assumption | exact Area.sub_trans (by decide) hw | apply State.setFld_frame | apply State.toIdle_frame | apply State.wake_frame
    | apply State.toEconomy_frame | apply State.toFull_frame | exact optNone | apply optSome | apply optIte | apply kIte

theorem execIdleAfterExpire_frame {w0 : Nat} {z0 : State} (s : State) (hw : Area.sub 160090 w0) (h_s : State.Frame w0 z0 s) :
    State.Frame.Ans w0 z0 (execIdleAfterExpire s) := by
  unfold execIdleAfterExpire
  try dsimp only
  with_reducible repeat' first | assumption | apply State.toIdle_frame | apply ansNext | apply kIte

theorem State.levelChanged_frame {w0 : Nat} {z0 : State} (s : State) (old : Nat) (hw : Area.sub 147794 w0) (h_s : State.Frame w0 z0 s) :
    State.Frame w0 z0 (State.levelChanged s old) := by
  unfold State.levelChanged
  try dsimp only
  with_reducible repeat' first
    | assumption | exact Area.sub_trans (by decide) hw | intro _ | apply State.slowLift_frame | apply State.report_frame
    | apply State.count_frame | apply State.raise_frame | apply State.slowShare_frame | apply kIte | apply kFoldl
    | (refine kUpd ?_; first | apply State.report_frame | apply State.count_frame)

theorem State.thermTick_frame {w0 : Nat} {z0 : State} (s : State) (hw : Area.sub 147794 w0) (h_s : State.Frame w0 z0 s) :
    State.Frame w0 z0 (State.thermTick s) := by
  unfold State.thermTick
  try dsimp only
  with_reducible repeat' first | assumption | apply State.levelChanged_frame | (refine kUpd ?_; assumption)

theorem execThermalLevelTick_frame {w0 : Nat} {z0 : State} (s : State) (hw : Area.sub 147798 w0) (h_s : State.Frame w0 z0 s) :
    State.Frame.Ans w0 z0 (execThermalLevelTick s) := by
  unfold execThermalLevelTick
  try dsimp only
  with_reducible repeat' first
    | assumption | exact Area.sub_trans (by decide) hw | intro _ | apply State.periodic_frame | apply State.thermTick_frame
    | apply ansNext

theorem State.capTick_frame {w0 : Nat} {z0 : State} (s : State) (power : Nat) (hw : Area.sub 147794 w0) (h_s : State.Frame w0 z0 s) :
    State.Frame w0 z0 (State.capTick s power) := by
  unfold State.capTick
  try dsimp only
  with_reducible repeat' first | assumption | apply State.levelChanged_frame | apply kIte | (refine kUpd ?_; assumption)

theorem execCapControlTick_frame {w0 : Nat} {z0 : State} (power : Nat) (mean : Nat) (rails : List (Nat × Nat)) (s : State) (hw : Area.sub 147798 w0) (h_s : State.Frame w0 z0 s) :
    State.Frame.Ans w0 z0 (execCapControlTick power mean rails s) := by
  unfold execCapControlTick
  try dsimp only
  repeat' first
    | (with_reducible first
       | assumption | exact Area.sub_trans (by decide) hw | intro _ | apply State.periodic_frame | apply State.capTick_frame
       | apply State.setFld_frame | apply ansNext | apply kFoldl)
    | split

theorem State.requestSweep_frame {w0 : Nat} {z0 : State} (s : State) (m : Option Nat) (hw : Area.sub 131072 w0) (h_s : State.Frame w0 z0 s) :
    State.Frame w0 z0 (State.requestSweep s m) := by
  unfold State.requestSweep
  try dsimp only
  with_reducible repeat' first | apply kIte | (refine kUpd ?_; assumption)

theorem execSensorSweep_frame {w0 : Nat} {z0 : State} (s : State) (hw : Area.sub 131076 w0) (h_s : State.Frame w0 z0 s) :
    State.Frame.Ans w0 z0 (execSensorSweep s) := by
  unfold execSensorSweep
  try dsimp only
  with_reducible repeat' first
    | assumption | exact Area.sub_trans (by decide) hw | intro _ | apply State.periodic_frame | apply State.requestSweep_frame
    | apply ansNext

theorem State.takeSweep_frame {w0 : Nat} {z0 : State} (s : State) (readings : List Int) (hw : Area.sub 139586 w0) (h_s : State.Frame w0 z0 s) :
    State.Frame w0 z0 (State.takeSweep s readings) := by
  unfold State.takeSweep
  try dsimp only
  with_reducible repeat' first
    | assumption | exact Area.sub_trans (by decide) hw | intro _ | apply State.raise_frame | apply State.count_frame
    | (refine kUpd ?_; apply kFoldl)

theorem State.sweepEnd_frame {w0 : Nat} {z0 : State} (s : State) (hw : Area.sub 131600 w0) (h_s : State.Frame w0 z0 s) :
    State.Frame w0 z0 (State.sweepEnd s) := by
  unfold State.sweepEnd
  try dsimp only
  with_reducible repeat' first
    | assumption | exact Area.sub_trans (by decide) hw | intro _ | apply State.mbxComplete_frame | (refine kUpd ?_; apply kFoldl)

theorem State.rates_frame {w0 : Nat} {z0 : State} (s : State) (hw : Area.sub 131394 w0) (h_s : State.Frame w0 z0 s) :
    State.Frame w0 z0 (State.rates s) := by
  unfold State.rates
  try dsimp only
  with_reducible repeat' first
    | assumption | exact Area.sub_trans (by decide) hw | intro _ | apply State.count_frame | apply State.raise_frame | apply kFoldl
    | (refine kUpd ?_; apply State.count_frame)

theorem State.takeModel_frame {w0 : Nat} {z0 : State} (s : State) (model : List Int) (hw : Area.sub 131394 w0) (h_s : State.Frame w0 z0 s) :
    State.Frame w0 z0 (State.takeModel s model) := by
  unfold State.takeModel
  try dsimp only
  with_reducible repeat' first
    | assumption | exact Area.sub_trans (by decide) hw | intro _ | apply State.setFld_frame | apply State.rates_frame
    | (refine kUpd ?_; first | assumption | apply kFoldl)

/-! ### Machine/Registers.lean -/

theorem State.acknowledge_frame {w0 : Nat} {z0 : State} (s : State) (off : Nat) (d : RegDesc) (v : Word) (hw : Area.sub 2 w0) (h_s : State.Frame w0 z0 s) :
    State.Frame w0 z0 (State.acknowledge s off d v) := by
  unfold State.acknowledge
  try dsimp only
  repeat' first | (with_reducible first | assumption | intro _ | apply State.wr_frame | apply kFoldl) | split

theorem State.merge_frame {w0 : Nat} {z0 : State} (s : State) (off : Nat) (d : RegDesc) (v : Word) (hw : Area.sub 2 w0) (h_s : State.Frame w0 z0 s) :
    State.Frame w0 z0 (State.merge s off d v) := by
  unfold State.merge
  try dsimp only
  with_reducible repeat' first | assumption | apply State.wr_frame

theorem State.regEffect_frame {w0 : Nat} {z0 : State} (s : State) (fw : Bool) (off : Nat) (d : RegDesc) (v : Word) (hw : Area.sub 1310586 w0) (h_s : State.Frame w0 z0 s) :
    State.Frame.Opt w0 z0 (State.regEffect s fw off d v) := by
  unfold State.regEffect
  try dsimp only
  repeat' first
    | (with_reducible first
       | assumption | exact Area.sub_trans (by decide) hw | apply State.lceCfgEffect_frame | apply State.resetConn_frame
       | apply State.llcCfgEffect_frame | apply State.wayCtl_frame | apply State.maintCtl_frame | apply State.merge_frame
       | apply State.refreshStale_frame | apply State.bobModeEffect_frame | apply State.bobCfg0_frame | apply State.bobCfg1_frame
       | apply State.bobCtl_frame | apply State.modeWrite_frame | apply State.requestSweep_frame | apply State.dieCtl_frame
       | apply State.dramCtl_frame | apply State.ethPortCfgEffect_frame | apply State.acknowledge_frame | apply optSome | apply optIte
       | apply kIte | (refine kUpd ?_; assumption))
    | split

theorem State.ignoredWrite_frame {w0 : Nat} {z0 : State} (s : State) (off : Nat) (hw : Area.sub 2 w0) (h_s : State.Frame w0 z0 s) :
    State.Frame w0 z0 (State.ignoredWrite s off) := by
  unfold State.ignoredWrite
  try dsimp only
  repeat' first | (with_reducible first | assumption | apply State.setFlag_frame) | split

theorem State.writeWord_frame {w0 : Nat} {z0 : State} (s : State) (a : Author) (off : Nat) (d : RegDesc) (v : Word) (hw : Area.sub 1310586 w0) (h_s : State.Frame w0 z0 s) :
    State.Frame w0 z0 (State.writeWord s a off d v).2 := by
  unfold State.writeWord
  try dsimp only
  repeat' first
    | (with_reducible first
       | assumption | exact Area.sub_trans (by decide) hw | apply State.ignoredWrite_frame | apply State.acknowledge_frame
       | apply State.jRefuse_frame | apply State.regEffect_frame | apply State.jChange_frame | apply optGetD)
    | dsimp only
    | (with_reducible refine kUpd ?_; with_reducible (refine ofOpt (by assumption) ?_; with_reducible apply State.regEffect_frame))
    | split

theorem State.writeKeep_frame {w0 : Nat} {z0 : State} (s : State) (a : Author) (retry : Bool) (w : Nat) (off : Nat) (d : RegDesc) (v : Word) (hw : Area.sub 258 w0) (h_s : State.Frame w0 z0 s) :
    State.Frame w0 z0 (State.writeKeep s a retry w off d v).2 := by
  unfold State.writeKeep
  try dsimp only
  repeat' first
    | (with_reducible first
       | assumption | exact Area.sub_trans (by decide) hw | apply State.count_frame | apply State.ignoredWrite_frame
       | apply State.jRefuse_frame | apply iteP)
    | dsimp only
    | (with_reducible refine kUpd ?_; with_reducible assumption)

theorem State.sealReg_frame {w0 : Nat} {z0 : State} (s : State) (off : Nat) (v : Word) (hw : Area.sub 322 w0) (h_s : State.Frame w0 z0 s) :
    State.Frame w0 z0 (State.sealReg s off v) := by
  unfold State.sealReg
  try dsimp only
  with_reducible repeat' first
    | assumption | exact Area.sub_trans (by decide) hw | apply State.count_frame | apply State.wr_frame | apply State.setFld_frame
    | apply State.raise_frame | apply State.setFlag_frame | apply kIte | (refine kUpd ?_; assumption)

theorem State.sealed_frame {w0 : Nat} {z0 : State} (s : State) (w : Nat) (hw : Area.sub 16 w0) (h_s : State.Frame w0 z0 s) :
    State.Frame w0 z0 (State.sealed s w) := by
  unfold State.sealed
  try dsimp only
  repeat' first | (with_reducible first | assumption | apply State.finishOp_frame | apply kIte) | split

theorem execKeepPageWriteDone_frame {w0 : Nat} {z0 : State} (s : State) (hw : Area.sub 370 w0) (h_s : State.Frame w0 z0 s) :
    State.Frame.Ans w0 z0 (execKeepPageWriteDone s) := by
  unfold execKeepPageWriteDone
  try dsimp only
  repeat' first
    | (with_reducible first
       | assumption | exact Area.sub_trans (by decide) hw | apply State.jAlways_frame | apply State.sealed_frame
       | apply State.sealReg_frame | apply ansNext | (refine kUpd ?_; assumption))
    | split

theorem State.closeKeep_frame {w0 : Nat} {z0 : State} (s : State) (hw : Area.sub 784 w0) (h_s : State.Frame w0 z0 s) :
    State.Frame w0 z0 (State.closeKeep s) := by
  unfold State.closeKeep
  try dsimp only
  repeat' first
    | (with_reducible first
       | assumption | exact Area.sub_trans (by decide) hw | intro _ | apply State.mbxComplete_frame | apply State.failOp_frame
       | apply kIte | apply kFoldl | (refine kUpd ?_; assumption))
    | split

theorem State.writeFwp_frame {w0 : Nat} {z0 : State} (s : State) (p : Path) (i : Nat) (v : Word) (hw : Area.sub 262498 w0) (h_s : State.Frame w0 z0 s) :
    State.Frame w0 z0 (State.writeFwp s p i v).2 := by
  unfold State.writeFwp
  try dsimp only
  repeat' first
    | (with_reducible first | assumption | exact Area.sub_trans (by decide) hw | apply State.setFlag_frame | apply State.jRefuse_frame)
    | dsimp only
    | (with_reducible refine kUpd ?_; with_reducible apply State.jChange_frame)
    | split

theorem State.writeWindow_frame {w0 : Nat} {z0 : State} (s : State) (p : Path) (off : Nat) (v : Word) (hw : Area.sub 65858 w0) (h_s : State.Frame w0 z0 s) :
    State.Frame w0 z0 (State.writeWindow s p off v).2 := by
  unfold State.writeWindow
  try dsimp only
  repeat' first
    | (with_reducible first
       | assumption | exact Area.sub_trans (by decide) hw | apply State.packetStart_frame | apply State.pushData_frame
       | apply State.setFld_frame | apply State.dropPkt_frame | apply iteP)
    | split

theorem State.writeReg_frame {w0 : Nat} {z0 : State} (s : State) (p : Path) (w : Nat) (off : Nat) (v : Word) (hw : Area.sub 1572730 w0) (h_s : State.Frame w0 z0 s) :
    State.Frame w0 z0 (State.writeReg s p w off v).2 := by
  unfold State.writeReg
  try dsimp only
  repeat' first
    | (with_reducible first
       | assumption | exact Area.sub_trans (by decide) hw | apply State.writeFwp_frame | apply State.writeWindow_frame
       | apply State.writeKeep_frame | apply State.writeWord_frame | apply iteP)
    | split

theorem State.readBas_frame {w0 : Nat} {z0 : State} (s : State) (k : Nat) (hw : Area.sub 2 w0) (h_s : State.Frame w0 z0 s) :
    State.Frame w0 z0 (State.readBas s k).2 := by
  unfold State.readBas
  try dsimp only
  repeat' first | (with_reducible first | assumption | apply State.setFld_frame | apply State.setFlag_frame | apply kIte) | split

theorem State.readCounter_frame {w0 : Nat} {z0 : State} (s : State) (i : Nat) (hw : Area.sub 2 w0) (h_s : State.Frame w0 z0 s) :
    State.Frame w0 z0 (State.readCounter s i).2 := by
  unfold State.readCounter
  try dsimp only
  with_reducible repeat' first | assumption | apply State.wr_frame

theorem State.readReg_frame {w0 : Nat} {z0 : State} (s : State) (p : Path) (off : Nat) (hw : Area.sub 2 w0) (h_s : State.Frame w0 z0 s) :
    State.Frame w0 z0 (State.readReg s p off).2.2 := by
  unfold State.readReg
  try dsimp only
  repeat' first | (with_reducible first | assumption | apply State.readBas_frame | apply State.readCounter_frame) | split

theorem State.writeRow_frame {w0 : Nat} {z0 : State} (s : State) (p : Path) (off : Nat) (v : Word) (hw : Area.sub 1572730 w0) (h_s : State.Frame w0 z0 s) :
    State.Frame w0 z0 (State.writeRow s p off v) := by
  unfold State.writeRow
  try dsimp only
  with_reducible repeat' first | assumption | apply State.writeReg_frame | apply kIte | (refine kUpd ?_; apply State.writeReg_frame)

theorem State.readRow_frame {w0 : Nat} {z0 : State} (s : State) (p : Path) (off : Nat) (hw : Area.sub 524802 w0) (h_s : State.Frame w0 z0 s) :
    State.Frame w0 z0 (State.readRow s p off) := by
  unfold State.readRow
  try dsimp only
  with_reducible repeat' first | assumption | exact Area.sub_trans (by decide) hw | apply kIte | (refine kUpd ?_; apply State.readReg_frame)

theorem State.actionRow_frame {w0 : Nat} {z0 : State} (s : State) (asks : Bool) (p : Path) (off : Nat) (v : Word) (hw : Area.sub 1572730 w0) (h_s : State.Frame w0 z0 s) :
    State.Frame.Ans w0 z0 (State.actionRow s asks p off v) := by
  unfold State.actionRow
  try dsimp only
  with_reducible repeat' first | assumption | apply State.writeRow_frame | apply ansNext | apply kIte

theorem execRegisterWrite_frame {w0 : Nat} {z0 : State} (path : Path) (off : Nat) (value : Word) (s : State) (hw : Area.sub 1572730 w0) (h_s : State.Frame w0 z0 s) :
    State.Frame.Ans w0 z0 (execRegisterWrite path off value s) := by
  unfold execRegisterWrite
  try dsimp only
  with_reducible repeat' first | assumption | apply State.writeRow_frame | apply ansNext

theorem execFwpWrite_frame {w0 : Nat} {z0 : State} (path : Path) (i : Nat) (value : Word) (s : State) (hw : Area.sub 1572730 w0) (h_s : State.Frame w0 z0 s) :
    State.Frame.Ans w0 z0 (execFwpWrite path i value s) := by
  unfold execFwpWrite
  try dsimp only
  with_reducible repeat' first | assumption | apply State.writeRow_frame | apply ansWithin

theorem execPmcValueRead_frame {w0 : Nat} {z0 : State} (path : Path) (i : Nat) (s : State) (hw : Area.sub 524802 w0) (h_s : State.Frame w0 z0 s) :
    State.Frame.Ans w0 z0 (execPmcValueRead path i s) := by
  unfold execPmcValueRead
  try dsimp only
  with_reducible repeat' first | assumption | apply State.readRow_frame | apply ansWithin

theorem execBasRead_frame {w0 : Nat} {z0 : State} (path : Path) (stack : Nat) (s : State) (hw : Area.sub 524802 w0) (h_s : State.Frame w0 z0 s) :
    State.Frame.Ans w0 z0 (execBasRead path stack s) := by
  unfold execBasRead
  try dsimp only
  with_reducible repeat' first | assumption | apply State.readRow_frame | apply ansWithin

theorem execEthPortCfgWrite_frame {w0 : Nat} {z0 : State} (path : Path) (port : Nat) (value : Word) (s : State) (hw : Area.sub 1572730 w0) (h_s : State.Frame w0 z0 s) :
    State.Frame.Ans w0 z0 (execEthPortCfgWrite path port value s) := by
  unfold execEthPortCfgWrite
  try dsimp only
  with_reducible repeat' first | assumption | apply State.writeRow_frame | apply ansWithin

theorem execShtConnCtlReset_frame {w0 : Nat} {z0 : State} (path : Path) (value : Word) (s : State) (hw : Area.sub 1572730 w0) (h_s : State.Frame w0 z0 s) :
    State.Frame.Ans w0 z0 (execShtConnCtlReset path value s) := by
  unfold execShtConnCtlReset
  try dsimp only
  with_reducible repeat' first | assumption | apply State.actionRow_frame

theorem execLceCfgWrite_frame {w0 : Nat} {z0 : State} (path : Path) (value : Word) (s : State) (hw : Area.sub 1572730 w0) (h_s : State.Frame w0 z0 s) :
    State.Frame.Ans w0 z0 (execLceCfgWrite path value s) := by
  unfold execLceCfgWrite
  try dsimp only
  with_reducible repeat' first | assumption | apply State.writeRow_frame | apply ansNext

theorem execDieFail_frame {w0 : Nat} {z0 : State} (path : Path) (value : Word) (s : State) (hw : Area.sub 1572730 w0) (h_s : State.Frame w0 z0 s) :
    State.Frame.Ans w0 z0 (execDieFail path value s) := by
  unfold execDieFail
  try dsimp only
  with_reducible repeat' first | assumption | apply State.actionRow_frame

theorem execDieReturn_frame {w0 : Nat} {z0 : State} (path : Path) (value : Word) (s : State) (hw : Area.sub 1572730 w0) (h_s : State.Frame w0 z0 s) :
    State.Frame.Ans w0 z0 (execDieReturn path value s) := by
  unfold execDieReturn
  try dsimp only
  with_reducible repeat' first | assumption | apply State.actionRow_frame

theorem execChannelErase_frame {w0 : Nat} {z0 : State} (path : Path) (value : Word) (s : State) (hw : Area.sub 1572730 w0) (h_s : State.Frame w0 z0 s) :
    State.Frame.Ans w0 z0 (execChannelErase path value s) := by
  unfold execChannelErase
  try dsimp only
  with_reducible repeat' first | assumption | apply State.actionRow_frame

theorem execChannelReturn_frame {w0 : Nat} {z0 : State} (path : Path) (value : Word) (s : State) (hw : Area.sub 1572730 w0) (h_s : State.Frame w0 z0 s) :
    State.Frame.Ans w0 z0 (execChannelReturn path value s) := by
  unfold execChannelReturn
  try dsimp only
  with_reducible repeat' first | assumption | apply State.actionRow_frame

theorem execLlcCfgWrite_frame {w0 : Nat} {z0 : State} (path : Path) (value : Word) (s : State) (hw : Area.sub 1572730 w0) (h_s : State.Frame w0 z0 s) :
    State.Frame.Ans w0 z0 (execLlcCfgWrite path value s) := by
  unfold execLlcCfgWrite
  try dsimp only
  with_reducible repeat' first | assumption | apply State.writeRow_frame | apply ansNext

theorem execWayLock_frame {w0 : Nat} {z0 : State} (path : Path) (value : Word) (s : State) (hw : Area.sub 1572730 w0) (h_s : State.Frame w0 z0 s) :
    State.Frame.Ans w0 z0 (execWayLock path value s) := by
  unfold execWayLock
  try dsimp only
  with_reducible repeat' first | assumption | apply State.actionRow_frame

theorem execWayUnlock_frame {w0 : Nat} {z0 : State} (path : Path) (value : Word) (s : State) (hw : Area.sub 1572730 w0) (h_s : State.Frame w0 z0 s) :
    State.Frame.Ans w0 z0 (execWayUnlock path value s) := by
  unfold execWayUnlock
  try dsimp only
  with_reducible repeat' first | assumption | apply State.actionRow_frame

theorem execWayReturn_frame {w0 : Nat} {z0 : State} (path : Path) (value : Word) (s : State) (hw : Area.sub 1572730 w0) (h_s : State.Frame w0 z0 s) :
    State.Frame.Ans w0 z0 (execWayReturn path value s) := by
  unfold execWayReturn
  try dsimp only
  with_reducible repeat' first | assumption | apply State.actionRow_frame

theorem execWayDisable_frame {w0 : Nat} {z0 : State} (path : Path) (value : Word) (s : State) (hw : Area.sub 1572730 w0) (h_s : State.Frame w0 z0 s) :
    State.Frame.Ans w0 z0 (execWayDisable path value s) := by
  unfold execWayDisable
  try dsimp only
  with_reducible repeat' first | assumption | apply State.actionRow_frame

theorem execClean_frame {w0 : Nat} {z0 : State} (path : Path) (value : Word) (s : State) (hw : Area.sub 1572730 w0) (h_s : State.Frame w0 z0 s) :
    State.Frame.Ans w0 z0 (execClean path value s) := by
  unfold execClean
  try dsimp only
  with_reducible repeat' first | assumption | apply State.actionRow_frame

theorem execCleanInv_frame {w0 : Nat} {z0 : State} (path : Path) (value : Word) (s : State) (hw : Area.sub 1572730 w0) (h_s : State.Frame w0 z0 s) :
    State.Frame.Ans w0 z0 (execCleanInv path value s) := by
  unfold execCleanInv
  try dsimp only
  with_reducible repeat' first | assumption | apply State.actionRow_frame

theorem execDiscard_frame {w0 : Nat} {z0 : State} (path : Path) (value : Word) (s : State) (hw : Area.sub 1572730 w0) (h_s : State.Frame w0 z0 s) :
    State.Frame.Ans w0 z0 (execDiscard path value s) := by
  unfold execDiscard
  try dsimp only
  with_reducible repeat' first | assumption | apply State.actionRow_frame

theorem execLockFill_frame {w0 : Nat} {z0 : State} (path : Path) (value : Word) (s : State) (hw : Area.sub 1572730 w0) (h_s : State.Frame w0 z0 s) :
    State.Frame.Ans w0 z0 (execLockFill path value s) := by
  unfold execLockFill
  try dsimp only
  with_reducible repeat' first | assumption | apply State.actionRow_frame

theorem execBobbinReset_frame {w0 : Nat} {z0 : State} (path : Path) (value : Word) (s : State) (hw : Area.sub 1572730 w0) (h_s : State.Frame w0 z0 s) :
    State.Frame.Ans w0 z0 (execBobbinReset path value s) := by
  unfold execBobbinReset
  try dsimp only
  with_reducible repeat' first | assumption | apply State.actionRow_frame

theorem execBobModeWrite_frame {w0 : Nat} {z0 : State} (path : Path) (value : Word) (s : State) (hw : Area.sub 1572730 w0) (h_s : State.Frame w0 z0 s) :
    State.Frame.Ans w0 z0 (execBobModeWrite path value s) := by
  unfold execBobModeWrite
  try dsimp only
  with_reducible repeat' first | assumption | apply State.writeRow_frame | apply ansNext

theorem execThmSweepStart_frame {w0 : Nat} {z0 : State} (path : Path) (value : Word) (s : State) (hw : Area.sub 1572730 w0) (h_s : State.Frame w0 z0 s) :
    State.Frame.Ans w0 z0 (execThmSweepStart path value s) := by
  unfold execThmSweepStart
  try dsimp only
  with_reducible repeat' first | assumption | apply State.actionRow_frame

theorem State.modSmb_frame {w0 : Nat} {z0 : State} (s : State) (f : Smbus → Smbus) (hw : Area.sub 512 w0) (h_s : State.Frame w0 z0 s) :
    State.Frame w0 z0 (State.modSmb s f) := by
  unfold State.modSmb
  try dsimp only
  with_reducible repeat' first | (refine kUpd ?_; assumption)

theorem State.smbWrite_frame {w0 : Nat} {z0 : State} (s : State) (pecOk : Bool) (f : State → State) (hw : Area.sub 2 w0) (h_s : State.Frame w0 z0 s) (hf : ∀ (y0 : State), State.Frame w0 z0 y0 → State.Frame w0 z0 (f y0)) :
    State.Frame w0 z0 (State.smbWrite s pecOk f) := by
  unfold State.smbWrite
  try dsimp only
  with_reducible repeat' first | assumption | apply hf | apply State.count_frame | apply kIte

theorem State.smbRead_frame {w0 : Nat} {z0 : State} (s : State) (f : State → List Byte × State) (hw : Area.sub 512 w0) (h_s : State.Frame w0 z0 s) (hf : ∀ (y0 : State), State.Frame w0 z0 y0 → State.Frame w0 z0 (f y0).2) :
    State.Frame w0 z0 (State.smbRead s f) := by
  unfold State.smbRead
  try dsimp only
  with_reducible repeat' first | assumption | apply hf | apply State.modSmb_frame | apply kIte

theorem execRegAddr_frame {w0 : Nat} {z0 : State} (off : Nat) (pecOk : Bool) (s : State) (hw : Area.sub 514 w0) (h_s : State.Frame w0 z0 s) :
    State.Frame.Ans w0 z0 (execRegAddr off pecOk s) := by
  unfold execRegAddr
  try dsimp only
  with_reducible repeat' first
    | assumption | exact Area.sub_trans (by decide) hw | intro _ | apply State.smbWrite_frame | apply State.modSmb_frame | apply ansNext

theorem execRegDataWrite_frame {w0 : Nat} {z0 : State} (value : Word) (pecOk : Bool) (s : State) (hw : Area.sub 1572730 w0) (h_s : State.Frame w0 z0 s) :
    State.Frame.Ans w0 z0 (execRegDataWrite value pecOk s) := by
  unfold execRegDataWrite
  try dsimp only
  with_reducible repeat' first
    | assumption | exact Area.sub_trans (by decide) hw | intro _ | apply State.smbWrite_frame | apply State.writeRow_frame
    | apply State.modSmb_frame | apply ansNext

theorem execRegDataRead_frame {w0 : Nat} {z0 : State} (s : State) (hw : Area.sub 524802 w0) (h_s : State.Frame w0 z0 s) :
    State.Frame.Ans w0 z0 (execRegDataRead s) := by
  unfold execRegDataRead
  try dsimp only
  with_reducible repeat' first
    | assumption | exact Area.sub_trans (by decide) hw | apply State.readRow_frame | apply State.modSmb_frame | apply ansNext | apply kIte

theorem execRegStatus_frame {w0 : Nat} {z0 : State} (s : State) (hw : Area.sub 512 w0) (h_s : State.Frame w0 z0 s) :
    State.Frame.Ans w0 z0 (execRegStatus s) := by
  unfold execRegStatus
  try dsimp only
  with_reducible repeat' first | assumption | intro _ | apply State.smbRead_frame | apply ansNext

theorem execAlertCause_frame {w0 : Nat} {z0 : State} (s : State) (hw : Area.sub 512 w0) (h_s : State.Frame w0 z0 s) :
    State.Frame.Ans w0 z0 (execAlertCause s) := by
  unfold execAlertCause
  try dsimp only
  with_reducible repeat' first | assumption | intro _ | apply State.smbRead_frame | apply ansNext

theorem execAlertResponse_frame {w0 : Nat} {z0 : State} (s : State) (hw : Area.sub 512 w0) (h_s : State.Frame w0 z0 s) :
    State.Frame.Ans w0 z0 (execAlertResponse s) := by
  unfold execAlertResponse
  try dsimp only
  with_reducible repeat' first | assumption | intro _ | apply State.smbRead_frame | apply ansNext | apply kIte

theorem execSmbusTimeout_frame {w0 : Nat} {z0 : State} (s : State) (hw : Area.sub 512 w0) (h_s : State.Frame w0 z0 s) :
    State.Frame.Ans w0 z0 (execSmbusTimeout s) := by
  unfold execSmbusTimeout
  try dsimp only
  with_reducible repeat' first | assumption | apply State.modSmb_frame | apply ansNext | apply kIte

theorem execMbxSel_frame {w0 : Nat} {z0 : State} (mailbox : Nat) (buffer : Nat) (offset : Nat) (pecOk : Bool) (s : State) (hw : Area.sub 514 w0) (h_s : State.Frame w0 z0 s) :
    State.Frame.Ans w0 z0 (execMbxSel mailbox buffer offset pecOk s) := by
  unfold execMbxSel
  try dsimp only
  with_reducible repeat' first
    | assumption | exact Area.sub_trans (by decide) hw | intro _ | apply State.smbWrite_frame | apply State.modSmb_frame | apply ansNext

theorem State.smbTouch_frame {w0 : Nat} {z0 : State} (s : State) (m : Nat) (hw : Area.sub 512 w0) (h_s : State.Frame w0 z0 s) :
    State.Frame w0 z0 (State.smbTouch s m) := by
  unfold State.smbTouch
  try dsimp only
  with_reducible repeat' first | assumption | apply State.putBox_frame | apply kIte

theorem execMbxDataWrite_frame {w0 : Nat} {z0 : State} (bytes : List Byte) (pecOk : Bool) (s : State) (hw : Area.sub 514 w0) (h_s : State.Frame w0 z0 s) :
    State.Frame.Ans w0 z0 (execMbxDataWrite bytes pecOk s) := by
  unfold execMbxDataWrite
  try dsimp only
  with_reducible repeat' first
    | assumption | exact Area.sub_trans (by decide) hw | intro _ | apply State.smbWrite_frame | apply State.modSmb_frame
    | apply State.putBox_frame | apply ansNext | apply kIte

theorem execMbxDataRead_frame {w0 : Nat} {z0 : State} (n : Nat) (s : State) (hw : Area.sub 512 w0) (h_s : State.Frame w0 z0 s) :
    State.Frame.Ans w0 z0 (execMbxDataRead n s) := by
  unfold execMbxDataRead
  try dsimp only
  with_reducible repeat' first
    | assumption | intro _ | apply State.smbRead_frame | apply State.smbTouch_frame | apply State.modSmb_frame | apply State.putBox_frame
    | apply ansNext | apply kIte

theorem State.smbSegment_frame {w0 : Nat} {z0 : State} (s : State) (m : Nat) (seg : List Byte) (hw : Area.sub 530 w0) (h_s : State.Frame w0 z0 s) :
    State.Frame w0 z0 (State.smbSegment s m seg) := by
  unfold State.smbSegment
  try dsimp only
  repeat' first
    | (with_reducible first
       | assumption | exact Area.sub_trans (by decide) hw | apply State.putBox_frame | apply kIte
       | (refine kUpd ?_; (refine kSnd (by assumption) ?_; apply State.mbxSegment_frame)))
    | split

theorem execMbxSubmit_frame {w0 : Nat} {z0 : State} (pecOk : Bool) (s : State) (hw : Area.sub 530 w0) (h_s : State.Frame w0 z0 s) :
    State.Frame.Ans w0 z0 (execMbxSubmit pecOk s) := by
  unfold execMbxSubmit
  try dsimp only
  with_reducible repeat' first
    | assumption | exact Area.sub_trans (by decide) hw | intro _ | apply State.smbWrite_frame | apply State.smbSegment_frame
    | apply State.smbTouch_frame | apply ansNext | apply kIte

theorem execMbxState_frame {w0 : Nat} {z0 : State} (s : State) (hw : Area.sub 512 w0) (h_s : State.Frame w0 z0 s) :
    State.Frame.Ans w0 z0 (execMbxState s) := by
  unfold execMbxState
  try dsimp only
  with_reducible repeat' first | assumption | intro _ | apply State.smbRead_frame | apply State.smbTouch_frame | apply ansNext

/-! ### Machine/DevOps.lean -/

theorem State.sendDevice_frame {w0 : Nat} {z0 : State} (s : State) (id : Nat) (o : Op) (hw : Area.sub 16402 w0) (h_s : State.Frame w0 z0 s) :
    State.Frame w0 z0 (State.sendDevice s id o) := by
  unfold State.sendDevice
  try dsimp only
  with_reducible repeat' first
    | assumption | exact Area.sub_trans (by decide) hw | apply State.modOp_frame | apply State.putSplit_frame
    | apply State.sendParts_frame

theorem State.deviceRow_frame {w0 : Nat} {z0 : State} (s : State) (op : Nat) (opcode : Nat) (ok : Op → Bool) (f : State → Op → State) (hw : Area.sub 16402 w0) (h_s : State.Frame w0 z0 s) (hf : ∀ (y0 : State) (y1 : Op), State.Frame w0 z0 y0 → State.Frame w0 z0 (f y0 y1)) :
    State.Frame w0 z0 (State.deviceRow s op opcode ok f) := by
  unfold State.deviceRow
  try dsimp only
  repeat' first
    | (with_reducible first
       | assumption | exact Area.sub_trans (by decide) hw | apply hf | apply State.failOp_frame | apply State.sendDevice_frame
       | apply kIte)
    | split

theorem State.readRegs_frame {w0 : Nat} {z0 : State} (s : State) (p : Path) (off : Nat) (r0 : Nat) (hw : Area.sub 2 w0) (h_s : State.Frame w0 z0 s) :
    State.Frame w0 z0 (State.readRegs s p off r0).2.2 := by
  induction r0 generalizing s p off with
  | zero =>
    unfold State.readRegs
    try dsimp only
    repeat' first | (with_reducible first | assumption | apply State.readReg_frame) | split
  | succ _ ih =>
    unfold State.readRegs
    try dsimp only
    repeat' first | (with_reducible first | assumption | apply ih | apply State.readReg_frame) | split

theorem State.writeRegs_frame {w0 : Nat} {z0 : State} (s : State) (p : Path) (w : Nat) (off : Nat) (r0 : List Word) (hw : Area.sub 1572730 w0) (h_s : State.Frame w0 z0 s) :
    State.Frame w0 z0 (State.writeRegs s p w off r0).2.2.2 := by
  induction r0 generalizing s p w off with
  | nil =>
    unfold State.writeRegs
    try dsimp only
    repeat' first | (with_reducible first | assumption | apply State.writeReg_frame) | split
  | cons _ _ ih =>
    unfold State.writeRegs
    try dsimp only
    repeat' first | (with_reducible first | assumption | apply ih | apply State.writeReg_frame) | split

theorem State.regRead_frame {w0 : Nat} {z0 : State} (s : State) (id : Nat) (o : Op) (hw : Area.sub 18 w0) (h_s : State.Frame w0 z0 s) :
    State.Frame w0 z0 (State.regRead s id o) := by
  unfold State.regRead
  try dsimp only
  with_reducible repeat' first | assumption | exact Area.sub_trans (by decide) hw | apply State.readRegs_frame | apply State.finishOp_frame

theorem State.regWrite_frame {w0 : Nat} {z0 : State} (s : State) (id : Nat) (o : Op) (hw : Area.sub 1572730 w0) (h_s : State.Frame w0 z0 s) :
    State.Frame w0 z0 (State.regWrite s id o) := by
  unfold State.regWrite
  try dsimp only
  with_reducible repeat' first
    | assumption | exact Area.sub_trans (by decide) hw | apply State.writeRegs_frame | apply State.modOp_frame
    | apply State.finishOp_frame | apply kIte

theorem execRegRead_frame {w0 : Nat} {z0 : State} (op : Nat) (s : State) (hw : Area.sub 16402 w0) (h_s : State.Frame w0 z0 s) :
    State.Frame.Ans w0 z0 (execRegRead op s) := by
  unfold execRegRead
  try dsimp only
  with_reducible repeat' first
    | assumption | exact Area.sub_trans (by decide) hw | intro _ | apply State.deviceRow_frame | apply State.regRead_frame | apply ansNext

theorem execRegWrite_frame {w0 : Nat} {z0 : State} (op : Nat) (s : State) (hw : Area.sub 1572730 w0) (h_s : State.Frame w0 z0 s) :
    State.Frame.Ans w0 z0 (execRegWrite op s) := by
  unfold execRegWrite
  try dsimp only
  with_reducible repeat' first
    | assumption | exact Area.sub_trans (by decide) hw | intro _ | apply State.deviceRow_frame | apply State.regWrite_frame
    | apply ansNext

theorem execCtr_frame {w0 : Nat} {z0 : State} (op : Nat) (s : State) (hw : Area.sub 16402 w0) (h_s : State.Frame w0 z0 s) :
    State.Frame.Ans w0 z0 (execCtr op s) := by
  unfold execCtr
  try dsimp only
  with_reducible repeat' first
    | assumption | exact Area.sub_trans (by decide) hw | intro _ | apply State.deviceRow_frame | apply State.failOp_frame
    | apply State.finishOp_frame | apply ansNext | apply kIte

theorem execMbx_frame {w0 : Nat} {z0 : State} (op : Nat) (s : State) (hw : Area.sub 16914 w0) (h_s : State.Frame w0 z0 s) :
    State.Frame.Ans w0 z0 (execMbx op s) := by
  unfold execMbx
  try dsimp only
  with_reducible repeat' first
    | assumption | exact Area.sub_trans (by decide) hw | intro _ | apply State.deviceRow_frame | apply State.mbxStitch_frame
    | apply ansNext

theorem State.smbDoorbell_frame {w0 : Nat} {z0 : State} (s : State) (flags : Nat) (hw : Area.sub 530 w0) (h_s : State.Frame w0 z0 s) :
    State.Frame w0 z0 (State.smbDoorbell s flags) := by
  unfold State.smbDoorbell
  try dsimp only
  with_reducible repeat' first | assumption | apply State.smbSegment_frame | apply kIte

theorem execMbxPoll_frame {w0 : Nat} {z0 : State} (via : MbxVia) (s : State) (hw : Area.sub 16914 w0) (h_s : State.Frame w0 z0 s) :
    State.Frame.Ans w0 z0 (execMbxPoll via s) := by
  unfold execMbxPoll
  try dsimp only
  repeat' first
    | (with_reducible first
       | assumption | exact Area.sub_trans (by decide) hw | intro _ | apply State.deviceRow_frame | apply State.mbxStitch_frame
       | apply State.smbDoorbell_frame | apply ansNext)
    | split

theorem execMbxAbort_frame {w0 : Nat} {z0 : State} (via : MbxVia) (s : State) (hw : Area.sub 16914 w0) (h_s : State.Frame w0 z0 s) :
    State.Frame.Ans w0 z0 (execMbxAbort via s) := by
  unfold execMbxAbort
  try dsimp only
  repeat' first
    | (with_reducible first
       | assumption | exact Area.sub_trans (by decide) hw | intro _ | apply State.deviceRow_frame | apply State.mbxStitch_frame
       | apply State.smbDoorbell_frame | apply ansNext)
    | split

theorem State.sampleDone_frame {w0 : Nat} {z0 : State} (s : State) (o : Op) (r : Response) (hw : Area.sub 65858 w0) (h_s : State.Frame w0 z0 s) :
    State.Frame w0 z0 (State.sampleDone s o r) := by
  unfold State.sampleDone
  try dsimp only
  repeat' first
    | (with_reducible first
       | assumption | exact Area.sub_trans (by decide) hw | apply State.draw256_frame | apply State.bobPush_frame
       | apply State.count_frame | apply kIte)
    | split

theorem State.leaveOp_frame {w0 : Nat} {z0 : State} (s : State) (id : Nat) (o : Op) (r : Response) (hw : Area.sub 16 w0) (h_s : State.Frame w0 z0 s) :
    State.Frame w0 z0 (State.leaveOp s id o r) := by
  unfold State.leaveOp
  try dsimp only
  with_reducible repeat' first | assumption | apply State.modOp_frame | apply kIte | (refine kUpd ?_; assumption)

theorem execStitchComplete_frame {w0 : Nat} {z0 : State} (op : Nat) (s : State) (hw : Area.sub 129362 w0) (h_s : State.Frame w0 z0 s) :
    State.Frame.Ans w0 z0 (execStitchComplete op s) := by
  unfold execStitchComplete
  try dsimp only
  repeat' first
    | (with_reducible first
       | assumption | exact Area.sub_trans (by decide) hw | apply State.staleWrite_frame | apply State.sampleDone_frame
       | apply State.respond_frame | apply State.leaveOp_frame | apply State.sendComplete_frame | apply State.partDone_frame
       | apply ansNext | apply kIte)
    | split

/-! ### Machine/SamplerCmds.lean -/

theorem execSamplerRead_frame {w0 : Nat} {z0 : State} (m : Nat) (s : State) (hw : Area.sub 882 w0) (h_s : State.Frame w0 z0 s) :
    State.Frame.Ans w0 z0 (execSamplerRead m s) := by
  unfold execSamplerRead
  try dsimp only
  with_reducible repeat' first | assumption | intro _ | apply State.command_frame | apply endDone

theorem execSamplerClear_frame {w0 : Nat} {z0 : State} (m : Nat) (s : State) (hw : Area.sub 882 w0) (h_s : State.Frame w0 z0 s) :
    State.Frame.Ans w0 z0 (execSamplerClear m s) := by
  unfold execSamplerClear
  try dsimp only
  with_reducible repeat' first
    | assumption | exact Area.sub_trans (by decide) hw | intro _ | apply State.command_frame | apply State.draw_frame
    | apply State.setFlag_frame | apply endLater | (refine kUpd ?_; apply State.putBox_frame)

theorem execJournalRead_frame {w0 : Nat} {z0 : State} (m : Nat) (s : State) (hw : Area.sub 882 w0) (h_s : State.Frame w0 z0 s) :
    State.Frame.Ans w0 z0 (execJournalRead m s) := by
  unfold execJournalRead
  try dsimp only
  with_reducible repeat' first | assumption | intro _ | apply State.command_frame | apply endDone

theorem execJournalArchive_frame {w0 : Nat} {z0 : State} (m : Nat) (s : State) (hw : Area.sub 882 w0) (h_s : State.Frame w0 z0 s) :
    State.Frame.Ans w0 z0 (execJournalArchive m s) := by
  unfold execJournalArchive
  try dsimp only
  with_reducible repeat' first
    | assumption | exact Area.sub_trans (by decide) hw | intro _ | apply State.command_frame | apply State.setFld_frame
    | apply State.count_frame | apply State.raise_frame | apply State.jAlways_frame | apply endDone | (refine kUpd ?_; assumption)

theorem State.popSamples_frame {w0 : Nat} {z0 : State} (s : State) (r0 : Nat) (hw : Area.sub 65538 w0) (h_s : State.Frame w0 z0 s) :
    State.Frame w0 z0 (State.popSamples s r0).2 := by
  induction r0 generalizing s with
  | zero =>
    unfold State.popSamples
    try dsimp only
    repeat' first
      | (with_reducible first | assumption | (refine kUpd ?_; (refine ofOptP (by assumption) ?_; apply State.bobTake_frame)))
      | split
  | succ _ ih =>
    unfold State.popSamples
    try dsimp only
    repeat' first
      | (with_reducible first | assumption | apply ih | (refine kUpd ?_; (refine ofOptP (by assumption) ?_; apply State.bobTake_frame)))
      | split

theorem execCounterRead_frame {w0 : Nat} {z0 : State} (m : Nat) (s : State) (hw : Area.sub 66418 w0) (h_s : State.Frame w0 z0 s) :
    State.Frame.Ans w0 z0 (execCounterRead m s) := by
  unfold execCounterRead
  try dsimp only
  with_reducible repeat' first
    | assumption | exact Area.sub_trans (by decide) hw | intro _ | apply State.command_frame | apply State.popSamples_frame
    | apply endDone | apply endIte

theorem State.writeWords_frame {w0 : Nat} {z0 : State} (s : State) (a : Author) (r0 : List (Nat × Word)) (hw : Area.sub 1310586 w0) (h_s : State.Frame w0 z0 s) :
    State.Frame w0 z0 (State.writeWords s a r0).2 := by
  induction r0 generalizing s a with
  | nil =>
    unfold State.writeWords
    try dsimp only
    repeat' first | (with_reducible first | assumption | apply State.writeWord_frame | apply iteP) | split
  | cons _ _ ih =>
    unfold State.writeWords
    try dsimp only
    repeat' first | (with_reducible first | assumption | apply ih | apply State.writeWord_frame | apply iteP) | split

theorem execSamplingSet_frame {w0 : Nat} {z0 : State} (m : Nat) (s : State) (hw : Area.sub 1310586 w0) (h_s : State.Frame w0 z0 s) :
    State.Frame.Ans w0 z0 (execSamplingSet m s) := by
  unfold execSamplingSet
  try dsimp only
  with_reducible repeat' first
    | assumption | exact Area.sub_trans (by decide) hw | intro _ | apply State.command_frame | apply State.writeWords_frame
    | apply endDone

theorem execKeepStatus_frame {w0 : Nat} {z0 : State} (m : Nat) (s : State) (hw : Area.sub 882 w0) (h_s : State.Frame w0 z0 s) :
    State.Frame.Ans w0 z0 (execKeepStatus m s) := by
  unfold execKeepStatus
  try dsimp only
  repeat' first | (with_reducible first | assumption | intro _ | apply State.command_frame | apply endDone) | (unfold queryCmd; dsimp only)

theorem execKeepWearList_frame {w0 : Nat} {z0 : State} (m : Nat) (s : State) (hw : Area.sub 882 w0) (h_s : State.Frame w0 z0 s) :
    State.Frame.Ans w0 z0 (execKeepWearList m s) := by
  unfold execKeepWearList
  try dsimp only
  with_reducible repeat' first | assumption | intro _ | apply State.command_frame | apply endDone

/-! ### Machine/PowerOn.lean -/

theorem State.portReset_frame {w0 : Nat} {z0 : State} (s : State) (role : Nat) (p : Nat) (hw : Area.sub 2 w0) (h_s : State.Frame w0 z0 s) :
    State.Frame w0 z0 (State.portReset s role p) := by
  unfold State.portReset
  try dsimp only
  with_reducible repeat' first | assumption | apply State.wr_frame | apply State.setFld_frame

theorem State.resetWays_frame {w0 : Nat} {z0 : State} (s : State) (hw : Area.sub 8192 w0) (h_s : State.Frame w0 z0 s) :
    State.Frame w0 z0 (State.resetWays s) := by
  unfold State.resetWays
  try dsimp only
  with_reducible repeat' first | assumption | intro _ | apply State.putWay_frame | apply kFoldl | (refine kUpd ?_; assumption)

theorem State.coldReset_frame {w0 : Nat} {z0 : State} (s : State) (hw : Area.sub 352258 w0) (h_s : State.Frame w0 z0 s) :
    State.Frame w0 z0 (State.coldReset s) := by
  unfold State.coldReset
  try dsimp only
  with_reducible repeat' first
    | assumption | exact Area.sub_trans (by decide) hw | intro _ | apply State.wr_frame | apply State.portReset_frame
    | apply State.setFld_frame | apply State.resetWays_frame | apply State.clrFlag_frame | apply kFoldl
    | (refine kUpd ?_; first | assumption | apply State.setFld_frame)

theorem State.laneMode_frame {w0 : Nat} {z0 : State} (s : State) (hw : Area.sub 2 w0) (h_s : State.Frame w0 z0 s) :
    State.Frame w0 z0 (State.laneMode s) := by
  unfold State.laneMode
  try dsimp only
  with_reducible repeat' first | assumption | apply State.setFld_frame

theorem State.islandReset_frame {w0 : Nat} {z0 : State} (s : State) (hw : Area.sub 2 w0) (h_s : State.Frame w0 z0 s) :
    State.Frame w0 z0 (State.islandReset s) := by
  unfold State.islandReset
  try dsimp only
  with_reducible repeat' first
    | assumption | apply State.wr_frame | apply State.setFlag_frame | apply State.setFld_frame | (refine kUpd ?_; assumption)

theorem State.takeHoldup_frame {w0 : Nat} {z0 : State} (s : State) (t : HoldTest) (hw : Area.sub 131394 w0) (h_s : State.Frame w0 z0 s) :
    State.Frame w0 z0 (State.takeHoldup s t) := by
  unfold State.takeHoldup
  try dsimp only
  with_reducible repeat' first | exact Area.sub_trans (by decide) hw | apply State.raise_frame | apply kIte | (refine kUpd ?_; assumption)

theorem State.setCeiling_frame {w0 : Nat} {z0 : State} (s : State) (hw : Area.sub 322 w0) (h_s : State.Frame w0 z0 s) :
    State.Frame w0 z0 (State.setCeiling s) := by
  unfold State.setCeiling
  try dsimp only
  with_reducible repeat' first
    | assumption | exact Area.sub_trans (by decide) hw | apply State.wr_frame | apply State.raise_frame | apply kIte

theorem State.recordItems_frame {w0 : Nat} {z0 : State} (s : State) (l : List (Nat × Nat)) (hw : Area.sub 262466 w0) (h_s : State.Frame w0 z0 s) :
    State.Frame w0 z0 (State.recordItems s l) := by
  unfold State.recordItems
  try dsimp only
  with_reducible repeat' first
    | assumption | exact Area.sub_trans (by decide) hw | intro _ | apply State.raise_frame | apply kIte | apply kFoldl
    | (refine kUpd ?_; assumption)

theorem State.testWays_frame {w0 : Nat} {z0 : State} (s : State) (t : SelfTest) (hw : Area.sub 12642 w0) (h_s : State.Frame w0 z0 s) :
    State.Frame w0 z0 (State.testWays s t) := by
  unfold State.testWays
  try dsimp only
  with_reducible repeat' first | assumption | intro _ | apply State.disableWay_frame | apply kIte | apply kFoldl

theorem State.testDram_frame {w0 : Nat} {z0 : State} (s : State) (t : SelfTest) (hw : Area.sub 322 w0) (h_s : State.Frame w0 z0 s) :
    State.Frame w0 z0 (State.testDram s t) := by
  unfold State.testDram
  try dsimp only
  with_reducible repeat' first
    | assumption | exact Area.sub_trans (by decide) hw | intro _ | apply State.putFlag_frame | apply State.setFld_frame
    | apply State.setFlag_frame | apply State.raise_frame | apply kIte | apply kFoldl

theorem State.testDie_frame {w0 : Nat} {z0 : State} (s : State) (t : SelfTest) (d : Nat) (hw : Area.sub 63826 w0) (h_s : State.Frame w0 z0 s) :
    State.Frame w0 z0 (State.testDie s t d) := by
  unfold State.testDie
  try dsimp only
  with_reducible repeat' first
    | assumption | exact Area.sub_trans (by decide) hw | apply State.dieFail_frame | apply State.putDie_frame | apply State.raise_frame
    | apply kIte

theorem State.testStacks_frame {w0 : Nat} {z0 : State} (s : State) (t : SelfTest) (hw : Area.sub 63826 w0) (h_s : State.Frame w0 z0 s) :
    State.Frame w0 z0 (State.testStacks s t) := by
  unfold State.testStacks
  try dsimp only
  with_reducible repeat' first
    | assumption | exact Area.sub_trans (by decide) hw | intro _ | apply State.setFlag_frame | apply State.putDie_frame
    | apply State.testDie_frame | apply kIte | apply kFoldl | (refine kUpd ?_; apply State.setFlag_frame)

theorem State.testTables_frame {w0 : Nat} {z0 : State} (s : State) (t : SelfTest) (hw : Area.sub 12610 w0) (h_s : State.Frame w0 z0 s) :
    State.Frame w0 z0 (State.testTables s t) := by
  unfold State.testTables
  try dsimp only
  with_reducible repeat' first
    | assumption | exact Area.sub_trans (by decide) hw | intro _ | apply State.poisonLine_frame | apply State.raise_frame | apply kFoldl

theorem State.testKeys_frame {w0 : Nat} {z0 : State} (s : State) (t : SelfTest) (hw : Area.sub 10240 w0) (h_s : State.Frame w0 z0 s) :
    State.Frame w0 z0 (State.testKeys s t) := by
  unfold State.testKeys
  try dsimp only
  with_reducible repeat' first | assumption | intro _ | apply State.putKey_frame | apply kFoldl

theorem State.replayNow_frame {w0 : Nat} {z0 : State} (s : State) (t : SelfTest) (hw : Area.sub 31058 w0) (h_s : State.Frame w0 z0 s) :
    State.Frame w0 z0 (State.replayNow s t) := by
  unfold State.replayNow
  try dsimp only
  repeat' first
    | (with_reducible first
       | assumption | exact Area.sub_trans (by decide) hw | intro _ | apply State.alarmBare_frame | apply State.tagFail_frame
       | apply State.replaySave_frame | apply kFoldl)
    | split

theorem State.takeTest_frame {w0 : Nat} {z0 : State} (s : State) (t : SelfTest) (lossOk : Bool) (hw : Area.sub 326002 w0) (h_s : State.Frame w0 z0 s) :
    State.Frame w0 z0 (State.takeTest s t lossOk) := by
  unfold State.takeTest
  try dsimp only
  with_reducible repeat' first
    | assumption | exact Area.sub_trans (by decide) hw | intro _ | apply State.testWays_frame | apply State.testDram_frame
    | apply State.testStacks_frame | apply State.count_frame | apply State.raise_frame | apply State.failTile_frame
    | apply State.testKeys_frame | apply State.recordItems_frame | apply State.setCeiling_frame | apply State.govOpen_frame
    | apply State.testTables_frame | apply State.replayNow_frame | apply State.refitAll_frame | apply kIte | apply kFoldl

theorem State.armAll_frame {w0 : Nat} {z0 : State} (s : State) (hw : Area.sub 8518 w0) (h_s : State.Frame w0 z0 s) :
    State.Frame w0 z0 (State.armAll s) := by
  unfold State.armAll
  try dsimp only
  with_reducible repeat' first
    | assumption | exact Area.sub_trans (by decide) hw | intro _ | apply State.arm_frame | apply State.govDayStart_frame | apply kIte
    | apply kFoldl

theorem State.startPorts_frame {w0 : Nat} {z0 : State} (s : State) (hw : Area.sub 18 w0) (h_s : State.Frame w0 z0 s) :
    State.Frame w0 z0 (State.startPorts s) := by
  unfold State.startPorts
  try dsimp only
  with_reducible repeat' first
    | assumption | exact Area.sub_trans (by decide) hw | intro _ | apply State.setFlag_frame | apply State.startTraining_frame
    | apply State.wr_frame | apply kIte | apply kFoldl

theorem State.startLace_frame {w0 : Nat} {z0 : State} (s : State) (hw : Area.sub 63314 w0) (h_s : State.Frame w0 z0 s) :
    State.Frame w0 z0 (State.startLace s) := by
  unfold State.startLace
  try dsimp only
  with_reducible repeat' first | assumption | apply State.lceCfgEffect_frame | apply kIte | (refine kUpd ?_; apply State.lceCfgEffect_frame)

theorem State.enterService_frame {w0 : Nat} {z0 : State} (s : State) (hw : Area.sub 196478 w0) (h_s : State.Frame w0 z0 s) :
    State.Frame w0 z0 (State.enterService s) := by
  unfold State.enterService
  try dsimp only
  with_reducible repeat' first
    | assumption | exact Area.sub_trans (by decide) hw | apply State.setFlag_frame | apply State.clearPanels_frame
    | apply State.armAll_frame | apply State.setFld_frame | apply State.toEconomy_frame | apply State.startLoads_frame
    | apply State.refreshStale_frame | apply kIte | (refine kUpd ?_; apply State.draw256_frame)

theorem State.enterHeld_frame {w0 : Nat} {z0 : State} (s : State) (why : Nat) (hw : Area.sub 330 w0) (h_s : State.Frame w0 z0 s) :
    State.Frame w0 z0 (State.enterHeld s why) := by
  unfold State.enterHeld
  try dsimp only
  with_reducible repeat' first | exact Area.sub_trans (by decide) hw | apply State.raise_frame | (refine kUpd ?_; assumption)

/-! ### Machine/Sequence.lean -/

theorem State.setEn_frame {w0 : Nat} {z0 : State} (s : State) (k : Nat) (on : Bool) (hw : Area.sub 2 w0) (h_s : State.Frame w0 z0 s) :
    State.Frame w0 z0 (State.setEn s k on) := by
  unfold State.setEn
  try dsimp only
  with_reducible repeat' first | assumption | apply State.setFlag_frame | apply State.clrFlag_frame | apply kIte

theorem State.railsUp_frame {w0 : Nat} {z0 : State} (s : State) (n : Nat) (hw : Area.sub 131074 w0) (h_s : State.Frame w0 z0 s) :
    State.Frame w0 z0 (State.railsUp s n) := by
  unfold State.railsUp
  try dsimp only
  with_reducible repeat' first
    | assumption | exact Area.sub_trans (by decide) hw | intro _ | apply State.setEn_frame | apply State.setFlag_frame
    | (refine kUpd ?_; apply kFoldl)

theorem State.lowerRail_frame {w0 : Nat} {z0 : State} (s : State) (hw : Area.sub 131074 w0) (h_s : State.Frame w0 z0 s) :
    State.Frame w0 z0 (State.lowerRail s) := by
  unfold State.lowerRail
  try dsimp only
  repeat' first
    | (with_reducible first | assumption | exact Area.sub_trans (by decide) hw | (refine kUpd ?_; apply State.setEn_frame))
    | split

theorem State.railsFall_frame {w0 : Nat} {z0 : State} (s : State) (hw : Area.sub 131074 w0) (h_s : State.Frame w0 z0 s) :
    State.Frame w0 z0 (State.railsFall s) := by
  unfold State.railsFall
  try dsimp only
  with_reducible repeat' first
    | assumption | exact Area.sub_trans (by decide) hw | apply State.setFlag_frame | apply State.clrFlag_frame
    | apply State.lowerRail_frame | (refine kUpd ?_; assumption)

theorem State.enterOff_frame {w0 : Nat} {z0 : State} (s : State) (hw : Area.sub 523039 w0) (h_s : State.Frame w0 z0 s) :
    State.Frame w0 z0 (State.enterOff s) := by
  unfold State.enterOff
  try dsimp only
  with_reducible repeat' first
    | assumption | exact Area.sub_trans (by decide) hw | intro _ | apply State.commitAll_frame | apply State.recordHeld_frame
    | apply State.clearCut_frame | apply State.wr_frame | apply State.setFlag_frame | apply State.clrFlag_frame | apply State.setEn_frame
    | apply State.loseVolatile_frame | apply State.fromTable_frame | apply kIte | apply kFoldl
    | (refine kUpd ?_; first | apply State.coolAll_frame | assumption)

theorem State.enterOn_frame {w0 : Nat} {z0 : State} (s : State) (hw : Area.sub 131403 w0) (h_s : State.Frame w0 z0 s) :
    State.Frame w0 z0 (State.enterOn s) := by
  unfold State.enterOn
  try dsimp only
  repeat' first
    | (with_reducible first
       | assumption | exact Area.sub_trans (by decide) hw | intro _ | apply State.setFld_frame | apply State.count_frame
       | apply State.clrFlag_frame | apply State.raise_frame | apply kFoldl | (refine kUpd ?_; apply State.setFld_frame))
    | split

theorem State.enterAux_frame {w0 : Nat} {z0 : State} (s : State) (hw : Area.sub 6 w0) (h_s : State.Frame w0 z0 s) :
    State.Frame w0 z0 (State.enterAux s) := by
  unfold State.enterAux
  try dsimp only
  with_reducible repeat' first | assumption | exact Area.sub_trans (by decide) hw | apply State.wr_frame | apply State.arm_frame

theorem State.startStage_frame {w0 : Nat} {z0 : State} (s : State) (hw : Area.sub 262466 w0) (h_s : State.Frame w0 z0 s) :
    State.Frame w0 z0 (State.startStage s) := by
  unfold State.startStage
  try dsimp only
  with_reducible repeat' first
    | assumption | exact Area.sub_trans (by decide) hw | apply State.raise_frame | apply kIte | (refine kUpd ?_; assumption)

theorem State.enterSelfTest_frame {w0 : Nat} {z0 : State} (s0 : State) (hw : Area.sub 393538 w0) (h_s0 : State.Frame w0 z0 s0) :
    State.Frame w0 z0 (State.enterSelfTest s0) := by
  unfold State.enterSelfTest
  try dsimp only
  with_reducible repeat' first
    | assumption | exact Area.sub_trans (by decide) hw | apply State.recordItems_frame | (refine kUpd ?_; apply State.startStage_frame)

theorem State.bootOk_frame {w0 : Nat} {z0 : State} (s : State) (hw : Area.sub 262144 w0) (h_s : State.Frame w0 z0 s) :
    State.Frame w0 z0 (State.bootOk s) := by
  unfold State.bootOk
  try dsimp only
  with_reducible repeat' first | (refine kUpd ?_; assumption)

theorem State.recoverKeep_frame {w0 : Nat} {z0 : State} (s : State) (hw : Area.sub 354 w0) (h_s : State.Frame w0 z0 s) :
    State.Frame w0 z0 (State.recoverKeep s) := by
  unfold State.recoverKeep
  try dsimp only
  repeat' first
    | (with_reducible first
       | assumption | exact Area.sub_trans (by decide) hw | intro _ | apply State.jAlways_frame | apply State.count_frame | apply kIte
       | apply kFoldl)
    | split

theorem State.firmwareUp_frame {w0 : Nat} {z0 : State} (s : State) (hw : Area.sub 65890 w0) (h_s : State.Frame w0 z0 s) :
    State.Frame w0 z0 (State.firmwareUp s) := by
  unfold State.firmwareUp
  try dsimp only
  with_reducible repeat' first
    | assumption | exact Area.sub_trans (by decide) hw | apply State.bobStart_frame | apply State.bobEnter_frame
    | apply State.setFlag_frame | apply State.recoverKeep_frame

theorem State.enterReady_frame {w0 : Nat} {z0 : State} (s0 : State) (hw : Area.sub 458622 w0) (h_s0 : State.Frame w0 z0 s0) :
    State.Frame w0 z0 (State.enterReady s0) := by
  unfold State.enterReady
  try dsimp only
  with_reducible repeat' first
    | assumption | exact Area.sub_trans (by decide) hw | apply State.setFld_frame | apply State.enterHeld_frame
    | apply State.startPorts_frame | apply State.startLace_frame | apply State.bootOk_frame | apply State.enterService_frame
    | apply State.lockDirectory_frame | apply kIte

theorem State.enterQuiesce_frame {w0 : Nat} {z0 : State} (s : State) (hw : Area.sub 131082 w0) (h_s : State.Frame w0 z0 s) :
    State.Frame w0 z0 (State.enterQuiesce s) := by
  unfold State.enterQuiesce
  try dsimp only
  with_reducible repeat' first
    | exact Area.sub_trans (by decide) hw | apply kIte | (refine kUpd ?_; first | assumption | apply State.clrFlag_frame)

theorem State.quiesced_frame {w0 : Nat} {z0 : State} (s : State) (hw : Area.sub 57874 w0) (h_s : State.Frame w0 z0 s) :
    State.Frame w0 z0 (State.quiesced s) := by
  unfold State.quiesced
  try dsimp only
  with_reducible repeat' first | assumption | exact Area.sub_trans (by decide) hw | apply State.resetAll_frame | apply State.sendLeave_frame

theorem State.pathOff_frame {w0 : Nat} {z0 : State} (s : State) (hw : Area.sub 16406 w0) (h_s : State.Frame w0 z0 s) :
    State.Frame w0 z0 (State.pathOff s) := by
  unfold State.pathOff
  try dsimp only
  with_reducible repeat' first
    | assumption | exact Area.sub_trans (by decide) hw | intro _ | apply State.clrFlag_frame | apply State.setFld_frame | apply kFoldl
    | (refine kUpd ?_; apply State.clrFlag_frame)

theorem State.enterSave_frame {w0 : Nat} {z0 : State} (s : State) (hw : Area.sub 16406 w0) (h_s : State.Frame w0 z0 s) :
    State.Frame w0 z0 (State.enterSave s) := by
  unfold State.enterSave
  try dsimp only
  with_reducible repeat' first | assumption | exact Area.sub_trans (by decide) hw | apply State.clrFlag_frame | apply State.pathOff_frame

theorem State.timeSlotNow_frame {w0 : Nat} {z0 : State} (s : State) (hw : Area.sub 258 w0) (h_s : State.Frame w0 z0 s) :
    State.Frame w0 z0 (State.timeSlotNow s) := by
  unfold State.timeSlotNow
  try dsimp only
  with_reducible repeat' first | exact Area.sub_trans (by decide) hw | apply State.count_frame | (refine kUpd ?_; assumption)

theorem State.exitClean_frame {w0 : Nat} {z0 : State} (s : State) (hw : Area.sub 258 w0) (h_s : State.Frame w0 z0 s) :
    State.Frame w0 z0 (State.exitClean s) := by
  unfold State.exitClean
  try dsimp only
  with_reducible repeat' first
    | assumption | exact Area.sub_trans (by decide) hw | apply State.saveHoopTime_frame | apply State.setFld_frame
    | apply State.count_frame

theorem State.saveOrderly_frame {w0 : Nat} {z0 : State} (s : State) (hw : Area.sub 29010 w0) (h_s : State.Frame w0 z0 s) :
    State.Frame w0 z0 (State.saveOrderly s) := by
  unfold State.saveOrderly
  try dsimp only
  with_reducible repeat' first
    | assumption | exact Area.sub_trans (by decide) hw | apply State.flushAll_frame | apply State.allClean_frame
    | apply State.toTable_frame | apply State.exitClean_frame | apply State.timeSlotNow_frame

theorem State.saveForced_frame {w0 : Nat} {z0 : State} (s : State) (records : Nat) (hw : Area.sub 143618 w0) (h_s : State.Frame w0 z0 s) :
    State.Frame w0 z0 (State.saveForced s records) := by
  unfold State.saveForced
  try dsimp only
  with_reducible repeat' first
    | assumption | exact Area.sub_trans (by decide) hw | apply State.saveDirty_frame | apply State.exitClean_frame
    | apply State.timeSlotNow_frame | apply kIte

theorem State.enterStep_frame {w0 : Nat} {z0 : State} (s : State) (n : Nat) (hw : Area.sub 524159 w0) (h_s : State.Frame w0 z0 s) :
    State.Frame w0 z0 (State.enterStep s n) := by
  unfold State.enterStep
  try dsimp only
  repeat' first
    | (with_reducible first
       | exact Area.sub_trans (by decide) hw | apply State.setFld_frame | apply State.enterOff_frame | apply State.enterOn_frame
       | apply State.enterAux_frame | apply State.setEn_frame | apply State.laneMode_frame | apply State.coldReset_frame
       | apply State.enterSelfTest_frame | apply State.enterReady_frame | apply State.enterQuiesce_frame | apply State.enterSave_frame
       | apply State.railsFall_frame | (refine kUpd ?_; assumption))
    | split

theorem State.startSave_frame {w0 : Nat} {z0 : State} (s : State) (hw : Area.sub 147486 w0) (h_s : State.Frame w0 z0 s) :
    State.Frame w0 z0 (State.startSave s) := by
  unfold State.startSave
  try dsimp only
  with_reducible repeat' first
    | assumption | exact Area.sub_trans (by decide) hw | intro _ | apply State.sendLeave_frame | apply State.clrFlag_frame
    | apply State.pathOff_frame | apply State.setFlag_frame | (refine kUpd ?_; apply kFoldl)

theorem State.localSequence_frame {w0 : Nat} {z0 : State} (s : State) (cause : Nat) (hw : Area.sub 524159 w0) (h_s : State.Frame w0 z0 s) :
    State.Frame w0 z0 (State.localSequence s cause) := by
  unfold State.localSequence
  try dsimp only
  with_reducible repeat' first
    | assumption | exact Area.sub_trans (by decide) hw | apply State.setFlag_frame | apply State.clrFlag_frame
    | apply State.enterStep_frame | apply State.railsFall_frame | apply State.startSave_frame | apply kIte
    | (refine kUpd ?_; first | assumption | apply State.clrFlag_frame)

theorem State.saveDone_frame {w0 : Nat} {z0 : State} (s : State) (records : Nat) (hw : Area.sub 143682 w0) (h_s : State.Frame w0 z0 s) :
    State.Frame w0 z0 (State.saveDone s records) := by
  unfold State.saveDone
  try dsimp only
  with_reducible repeat' first
    | assumption | exact Area.sub_trans (by decide) hw | intro _ | apply State.saveForced_frame | apply State.count_frame
    | apply State.raise_frame | apply State.clrFlag_frame | apply State.setFld_frame | apply State.railsFall_frame
    | (refine kUpd ?_; apply kFoldl)

theorem State.stopAfter_frame {w0 : Nat} {z0 : State} (s : State) (cause : Nat) (hw : Area.sub 524159 w0) (h_s : State.Frame w0 z0 s) :
    State.Frame w0 z0 (State.stopAfter s cause) := by
  unfold State.stopAfter
  try dsimp only
  with_reducible repeat' first | assumption | apply State.localSequence_frame | apply kIte | (refine kUpd ?_; assumption)

theorem State.askOn_frame {w0 : Nat} {z0 : State} (s : State) (hw : Area.sub 131072 w0) (h_s : State.Frame w0 z0 s) :
    State.Frame w0 z0 (State.askOn s) := by
  unfold State.askOn
  try dsimp only
  with_reducible repeat' first | assumption | apply kIte | (refine kUpd ?_; assumption)

theorem State.askOff_frame {w0 : Nat} {z0 : State} (s : State) (cause : Nat) (hw : Area.sub 524159 w0) (h_s : State.Frame w0 z0 s) :
    State.Frame w0 z0 (State.askOff s cause) := by
  unfold State.askOff
  try dsimp only
  with_reducible repeat' first
    | assumption | exact Area.sub_trans (by decide) hw | apply State.count_frame | apply State.raise_frame | apply State.stopAfter_frame
    | apply kIte | (refine kUpd ?_; apply kIte)

theorem execPbRelease_frame {w0 : Nat} {z0 : State} (held : Nat) (s : State) (hw : Area.sub 524159 w0) (h_s : State.Frame w0 z0 s) :
    State.Frame.Ans w0 z0 (execPbRelease held s) := by
  unfold execPbRelease
  try dsimp only
  with_reducible repeat' first
    | assumption | exact Area.sub_trans (by decide) hw | apply State.askOn_frame | apply State.askOff_frame | apply State.count_frame
    | apply ansNext | apply kIte

theorem execPbForcedOff_frame {w0 : Nat} {z0 : State} (s : State) (hw : Area.sub 524159 w0) (h_s : State.Frame w0 z0 s) :
    State.Frame.Ans w0 z0 (execPbForcedOff s) := by
  unfold execPbForcedOff
  try dsimp only
  with_reducible repeat' first | assumption | apply State.askOff_frame | apply ansNext | apply kIte

theorem execMrst_frame {w0 : Nat} {z0 : State} (s : State) (hw : Area.sub 524159 w0) (h_s : State.Frame w0 z0 s) :
    State.Frame.Ans w0 z0 (execMrst s) := by
  unfold execMrst
  try dsimp only
  with_reducible repeat' first
    | assumption | exact Area.sub_trans (by decide) hw | apply State.askOff_frame | apply ansNext | apply kIte
    | (refine kUpd ?_; first | assumption | apply State.islandReset_frame)

theorem execHoldSave_frame {w0 : Nat} {z0 : State} (s : State) (hw : Area.sub 524159 w0) (h_s : State.Frame w0 z0 s) :
    State.Frame.Ans w0 z0 (execHoldSave s) := by
  unfold execHoldSave
  try dsimp only
  with_reducible repeat' first
    | assumption | exact Area.sub_trans (by decide) hw | apply State.setFlag_frame | apply State.closeKeep_frame
    | apply State.stopAfter_frame | apply State.localSequence_frame | apply ansNext | apply kIte

theorem execHoldRise_frame {w0 : Nat} {z0 : State} (s : State) (hw : Area.sub 2 w0) (h_s : State.Frame w0 z0 s) :
    State.Frame.Ans w0 z0 (execHoldRise s) := by
  unfold execHoldRise
  try dsimp only
  with_reducible repeat' first | assumption | apply State.clrFlag_frame | apply ansNext | apply kIte

theorem execQuiesceGraceExpire_frame {w0 : Nat} {z0 : State} (s : State) (hw : Area.sub 131072 w0) (h_s : State.Frame w0 z0 s) :
    State.Frame.Ans w0 z0 (execQuiesceGraceExpire s) := by
  unfold execQuiesceGraceExpire
  try dsimp only
  repeat' first | (with_reducible first | assumption | apply ansNext | apply kIte | (refine kUpd ?_; assumption)) | split

theorem execAutoRestart_frame {w0 : Nat} {z0 : State} (s : State) (hw : Area.sub 131394 w0) (h_s : State.Frame w0 z0 s) :
    State.Frame.Ans w0 z0 (execAutoRestart s) := by
  unfold execAutoRestart
  try dsimp only
  repeat' first
    | (with_reducible first
       | assumption | exact Area.sub_trans (by decide) hw | apply State.raise_frame | apply State.count_frame | apply State.askOn_frame
       | apply ansNext | apply kIte | (refine kUpd ?_; assumption))
    | split

theorem State.workDone_frame {w0 : Nat} {z0 : State} (s : State) (hw : Area.sub 524159 w0) (h_s : State.Frame w0 z0 s) :
    State.Frame w0 z0 (State.workDone s) := by
  unfold State.workDone
  try dsimp only
  repeat' first | (with_reducible first | assumption | apply State.localSequence_frame | (refine kUpd ?_; assumption)) | split

theorem execStepWorkDone_frame {w0 : Nat} {z0 : State} (out : StepOut) (s : State) (hw : Area.sub 524159 w0) (h_s : State.Frame w0 z0 s) :
    State.Frame.Ans w0 z0 (execStepWorkDone out s) := by
  unfold execStepWorkDone
  try dsimp only
  repeat' first
    | (with_reducible first
       | assumption | exact Area.sub_trans (by decide) hw | apply State.saveDone_frame | apply State.workDone_frame | apply State.wr_frame
       | apply State.takeSweep_frame | apply State.raise_frame | apply State.count_frame | apply State.localSequence_frame
       | apply State.takeTest_frame | apply State.firmwareUp_frame | apply State.quiesced_frame | apply State.saveOrderly_frame
       | apply State.saveForced_frame | apply State.railsUp_frame | apply ansNext | apply kIte | (refine kUpd ?_; assumption))
    | split

theorem execSeqAdvance_frame {w0 : Nat} {z0 : State} (s : State) (hw : Area.sub 524159 w0) (h_s : State.Frame w0 z0 s) :
    State.Frame.Ans w0 z0 (execSeqAdvance s) := by
  unfold execSeqAdvance
  try dsimp only
  with_reducible repeat' first | assumption | apply State.enterStep_frame | apply ansNext | apply kIte

theorem execStepTimeout_frame {w0 : Nat} {z0 : State} (s : State) (hw : Area.sub 524159 w0) (h_s : State.Frame w0 z0 s) :
    State.Frame.Ans w0 z0 (execStepTimeout s) := by
  unfold execStepTimeout
  try dsimp only
  repeat' first
    | (with_reducible first
       | assumption | exact Area.sub_trans (by decide) hw | apply State.raise_frame | apply State.count_frame
       | apply State.localSequence_frame | apply ansNext | apply kIte)
    | split

theorem execSeqRestLeave_frame {w0 : Nat} {z0 : State} (s : State) (hw : Area.sub 524159 w0) (h_s : State.Frame w0 z0 s) :
    State.Frame.Ans w0 z0 (execSeqRestLeave s) := by
  unfold execSeqRestLeave
  try dsimp only
  with_reducible repeat' first | assumption | apply State.enterStep_frame | apply ansNext | apply kIte | (refine kUpd ?_; assumption)

theorem execOffTimeEnd_frame {w0 : Nat} {z0 : State} (s : State) (hw : Area.sub 131072 w0) (h_s : State.Frame w0 z0 s) :
    State.Frame.Ans w0 z0 (execOffTimeEnd s) := by
  unfold execOffTimeEnd
  try dsimp only
  repeat' first | (with_reducible first | assumption | apply ansNext | apply kIte | (refine kUpd ?_; assumption)) | split

theorem execRailDownNext_frame {w0 : Nat} {z0 : State} (s : State) (hw : Area.sub 524159 w0) (h_s : State.Frame w0 z0 s) :
    State.Frame.Ans w0 z0 (execRailDownNext s) := by
  unfold execRailDownNext
  try dsimp only
  repeat' first
    | (with_reducible first
       | assumption | exact Area.sub_trans (by decide) hw | apply State.enterStep_frame | apply State.lowerRail_frame | apply ansNext
       | apply kIte)
    | split

theorem execRailFault_frame {w0 : Nat} {z0 : State} (rail : Nat) (s : State) (hw : Area.sub 524159 w0) (h_s : State.Frame w0 z0 s) :
    State.Frame.Ans w0 z0 (execRailFault rail s) := by
  unfold execRailFault
  try dsimp only
  with_reducible repeat' first
    | assumption | exact Area.sub_trans (by decide) hw | apply State.setFlag_frame | apply State.raise_frame | apply State.count_frame
    | apply State.wr_frame | apply State.localSequence_frame | apply ansWithin | apply kIte

theorem execVstbyLoss_frame {w0 : Nat} {z0 : State} (saved : Nat) (s : State) (hw : Area.sub 260959 w0) (h_s : State.Frame w0 z0 s) :
    State.Frame.Ans w0 z0 (execVstbyLoss saved s) := by
  unfold execVstbyLoss
  try dsimp only
  with_reducible repeat' first
    | assumption | exact Area.sub_trans (by decide) hw | apply State.loseWork_frame | apply State.loseVolatile_frame
    | apply State.fromTable_frame | apply State.coolAll_frame | apply State.saveDirty_frame | apply ansNext | apply kIte
    | (refine kUpd ?_; first | apply State.saveDirty_frame | apply kIte)

theorem State.porReset_frame {w0 : Nat} {z0 : State} (s : State) (hw : Area.sub 2 w0) (h_s : State.Frame w0 z0 s) :
    State.Frame w0 z0 (State.porReset s) := by
  unfold State.porReset
  try dsimp only
  with_reducible repeat' first
    | assumption | apply State.wr_frame | apply State.setFlag_frame | apply State.setFld_frame | apply State.clrFlag_frame
    | (refine kUpd ?_; assumption)

theorem execVstbyOn_frame {w0 : Nat} {z0 : State} (s : State) (hw : Area.sub 131595 w0) (h_s : State.Frame w0 z0 s) :
    State.Frame.Ans w0 z0 (execVstbyOn s) := by
  unfold execVstbyOn
  try dsimp only
  with_reducible repeat' first
    | assumption | exact Area.sub_trans (by decide) hw | apply ansNext | apply kIte | (refine kUpd ?_; apply State.porReset_frame)

/-! ### Machine/Thermal.lean -/

theorem State.thermalRecord_frame {w0 : Nat} {z0 : State} (s : State) (point : Nat) (cause : Nat) (hw : Area.sub 131074 w0) (h_s : State.Frame w0 z0 s) :
    State.Frame w0 z0 (State.thermalRecord s point cause) := by
  unfold State.thermalRecord
  try dsimp only
  with_reducible repeat' first
    | assumption | exact Area.sub_trans (by decide) hw | apply kIte | (refine kUpd ?_; apply State.wr_frame)

theorem State.thermalStop_frame {w0 : Nat} {z0 : State} (s : State) (point : Nat) (cause : Nat) (hw : Area.sub 524159 w0) (h_s : State.Frame w0 z0 s) :
    State.Frame w0 z0 (State.thermalStop s point cause) := by
  unfold State.thermalStop
  try dsimp only
  with_reducible repeat' first
    | assumption | exact Area.sub_trans (by decide) hw | apply State.localSequence_frame | apply kIte
    | (refine kUpd ?_; apply State.thermalRecord_frame)

theorem State.shutdownCheck_frame {w0 : Nat} {z0 : State} (s : State) (hw : Area.sub 524159 w0) (h_s : State.Frame w0 z0 s) :
    State.Frame w0 z0 (State.shutdownCheck s) := by
  unfold State.shutdownCheck
  try dsimp only
  repeat' first | (with_reducible first | assumption | apply State.thermalStop_frame | apply kIte) | split

theorem execThermalModelUpdate_frame {w0 : Nat} {z0 : State} (model : List Int) (s : State) (hw : Area.sub 524159 w0) (h_s : State.Frame w0 z0 s) :
    State.Frame.Ans w0 z0 (execThermalModelUpdate model s) := by
  unfold execThermalModelUpdate
  try dsimp only
  with_reducible repeat' first
    | assumption | exact Area.sub_trans (by decide) hw | intro _ | apply State.periodic_frame | apply State.takeModel_frame
    | apply State.shutdownCheck_frame | apply ansNext

theorem execSweepDone_frame {w0 : Nat} {z0 : State} (readings : List Int) (s : State) (hw : Area.sub 524159 w0) (h_s : State.Frame w0 z0 s) :
    State.Frame.Ans w0 z0 (execSweepDone readings s) := by
  unfold execSweepDone
  try dsimp only
  with_reducible repeat' first
    | assumption | exact Area.sub_trans (by decide) hw | apply State.takeSweep_frame | apply State.sweepEnd_frame
    | apply State.shutdownCheck_frame | apply ansNext | apply kIte

theorem execHoldupTestEnd_frame {w0 : Nat} {z0 : State} (test : HoldTest) (s : State) (hw : Area.sub 131394 w0) (h_s : State.Frame w0 z0 s) :
    State.Frame.Ans w0 z0 (execHoldupTestEnd test s) := by
  unfold execHoldupTestEnd
  try dsimp only
  with_reducible repeat' first | assumption | apply State.takeHoldup_frame | apply ansNext | apply kIte

theorem execPowerStatus_frame {w0 : Nat} {z0 : State} (m : Nat) (s : State) (hw : Area.sub 882 w0) (h_s : State.Frame w0 z0 s) :
    State.Frame.Ans w0 z0 (execPowerStatus m s) := by
  unfold execPowerStatus
  try dsimp only
  repeat' first | (with_reducible first | assumption | intro _ | apply State.command_frame | apply endDone) | (unfold queryCmd; dsimp only)

theorem execThermalStatus_frame {w0 : Nat} {z0 : State} (m : Nat) (s : State) (hw : Area.sub 882 w0) (h_s : State.Frame w0 z0 s) :
    State.Frame.Ans w0 z0 (execThermalStatus m s) := by
  unfold execThermalStatus
  try dsimp only
  repeat' first | (with_reducible first | assumption | intro _ | apply State.command_frame | apply endDone) | (unfold queryCmd; dsimp only)

theorem execHoldupStatus_frame {w0 : Nat} {z0 : State} (m : Nat) (s : State) (hw : Area.sub 882 w0) (h_s : State.Frame w0 z0 s) :
    State.Frame.Ans w0 z0 (execHoldupStatus m s) := by
  unfold execHoldupStatus
  try dsimp only
  repeat' first | (with_reducible first | assumption | intro _ | apply State.command_frame | apply endDone) | (unfold queryCmd; dsimp only)

theorem State.choice_frame {w0 : Nat} {z0 : State} (s : State) (m k : Nat) (c : Command) (hw : Area.sub 882 w0) (h_s : State.Frame w0 z0 s)
    (he : ∀ (u : State) (r : Req), State.Frame w0 z0 u → State.Frame.End w0 z0 (c.eff u r))
    (hr : ∀ (t : State) (r : Req) (st : Status), State.Frame w0 z0 t → State.Frame w0 z0 (c.refused t r st)) :
    State.Frame.Ans w0 z0 (s.choice m k c) := by
  unfold State.choice
  split
  · exact State.Frame.ansNext h_s
  · exact State.command_frame s m c hw h_s he hr

theorem execPowerModeSetFull_frame {w0 : Nat} {z0 : State} (m : Nat) (s : State) (hw : Area.sub 1310586 w0) (h_s : State.Frame w0 z0 s) :
    State.Frame.Ans w0 z0 (execPowerModeSetFull m s) := by
  unfold execPowerModeSetFull
  try dsimp only
  repeat' first
    | (with_reducible first
       | assumption | exact Area.sub_trans (by decide) hw | intro _ | apply State.choice_frame | apply State.writeWord_frame
       | apply endDone)
    | split
    | (unfold powerModeCmd; dsimp only)

theorem execPowerModeSetEconomy_frame {w0 : Nat} {z0 : State} (m : Nat) (s : State) (hw : Area.sub 1310586 w0) (h_s : State.Frame w0 z0 s) :
    State.Frame.Ans w0 z0 (execPowerModeSetEconomy m s) := by
  unfold execPowerModeSetEconomy
  try dsimp only
  repeat' first
    | (with_reducible first
       | assumption | exact Area.sub_trans (by decide) hw | intro _ | apply State.choice_frame | apply State.writeWord_frame
       | apply endDone)
    | split
    | (unfold powerModeCmd; dsimp only)

theorem execPowerModeSetIdle_frame {w0 : Nat} {z0 : State} (m : Nat) (s : State) (hw : Area.sub 1310586 w0) (h_s : State.Frame w0 z0 s) :
    State.Frame.Ans w0 z0 (execPowerModeSetIdle m s) := by
  unfold execPowerModeSetIdle
  try dsimp only
  repeat' first
    | (with_reducible first
       | assumption | exact Area.sub_trans (by decide) hw | intro _ | apply State.choice_frame | apply State.writeWord_frame
       | apply endDone)
    | split
    | (unfold powerModeCmd; dsimp only)

theorem execPowerCapSet_frame {w0 : Nat} {z0 : State} (m : Nat) (s : State) (hw : Area.sub 882 w0) (h_s : State.Frame w0 z0 s) :
    State.Frame.Ans w0 z0 (execPowerCapSet m s) := by
  unfold execPowerCapSet
  try dsimp only
  with_reducible repeat' first
    | assumption | exact Area.sub_trans (by decide) hw | intro _ | apply State.command_frame | apply State.setFld_frame | apply endDone

theorem execShutdownOrderly_frame {w0 : Nat} {z0 : State} (m : Nat) (s : State) (hw : Area.sub 524159 w0) (h_s : State.Frame w0 z0 s) :
    State.Frame.Ans w0 z0 (execShutdownOrderly m s) := by
  unfold execShutdownOrderly
  try dsimp only
  repeat' first
    | (with_reducible first
       | assumption | exact Area.sub_trans (by decide) hw | intro _ | apply State.choice_frame | apply State.askOff_frame | apply endDone
       | (refine kUpd ?_; assumption))
    | split
    | (unfold shutdownCmd; dsimp only)

theorem execShutdownForced_frame {w0 : Nat} {z0 : State} (m : Nat) (s : State) (hw : Area.sub 524159 w0) (h_s : State.Frame w0 z0 s) :
    State.Frame.Ans w0 z0 (execShutdownForced m s) := by
  unfold execShutdownForced
  try dsimp only
  repeat' first
    | (with_reducible first
       | assumption | exact Area.sub_trans (by decide) hw | intro _ | apply State.choice_frame | apply State.askOff_frame | apply endDone
       | (refine kUpd ?_; assumption))
    | split
    | (unfold shutdownCmd; dsimp only)

theorem execShutdownRestart_frame {w0 : Nat} {z0 : State} (m : Nat) (s : State) (hw : Area.sub 524159 w0) (h_s : State.Frame w0 z0 s) :
    State.Frame.Ans w0 z0 (execShutdownRestart m s) := by
  unfold execShutdownRestart
  try dsimp only
  repeat' first
    | (with_reducible first
       | assumption | exact Area.sub_trans (by decide) hw | intro _ | apply State.choice_frame | apply State.askOff_frame | apply endDone
       | (refine kUpd ?_; assumption))
    | split
    | (unfold shutdownCmd; dsimp only)

theorem execThermalSweep_frame {w0 : Nat} {z0 : State} (m : Nat) (s : State) (hw : Area.sub 131954 w0) (h_s : State.Frame w0 z0 s) :
    State.Frame.Ans w0 z0 (execThermalSweep m s) := by
  unfold execThermalSweep
  try dsimp only
  with_reducible repeat' first
    | assumption | exact Area.sub_trans (by decide) hw | intro _ | apply State.command_frame | apply State.requestSweep_frame
    | apply endLater

theorem execThrottleSet_frame {w0 : Nat} {z0 : State} (m : Nat) (s : State) (hw : Area.sub 882 w0) (h_s : State.Frame w0 z0 s) :
    State.Frame.Ans w0 z0 (execThrottleSet m s) := by
  unfold execThrottleSet
  try dsimp only
  repeat' first
    | (with_reducible first
       | assumption | exact Area.sub_trans (by decide) hw | intro _ | apply State.command_frame | apply endDone | apply endLater)
    | dsimp only
    | (with_reducible refine kUpd ?_; with_reducible (refine kSnd (by assumption) ?_; with_reducible apply State.writeKeep_frame))
    | split

/-! ### Machine/Firmware.lean -/

theorem State.fallBack_frame {w0 : Nat} {z0 : State} (s : State) (cause : Nat) (hw : Area.sub 262466 w0) (h_s : State.Frame w0 z0 s) :
    State.Frame w0 z0 (State.fallBack s cause) := by
  unfold State.fallBack
  try dsimp only
  with_reducible repeat' first | exact Area.sub_trans (by decide) hw | apply State.raise_frame | (refine kUpd ?_; assumption)

theorem State.runSlot_frame {w0 : Nat} {z0 : State} (s : State) (k : Nat) (hw : Area.sub 262144 w0) (h_s : State.Frame w0 z0 s) :
    State.Frame w0 z0 (State.runSlot s k) := by
  unfold State.runSlot
  try dsimp only
  with_reducible repeat' first | (refine kUpd ?_; assumption)

theorem State.cutCommand_frame {w0 : Nat} {z0 : State} (s : State) (m : Nat) (hw : Area.sub 882 w0) (h_s : State.Frame w0 z0 s) :
    State.Frame w0 z0 (State.cutCommand s m) := by
  unfold State.cutCommand
  try dsimp only
  with_reducible repeat' first
    | assumption | exact Area.sub_trans (by decide) hw | apply State.clearCut_frame | apply State.jSecond_frame
    | apply State.mbxComplete_frame | apply kIte

theorem State.firmwareBack_frame {w0 : Nat} {z0 : State} (s : State) (hw : Area.sub 392050 w0) (h_s : State.Frame w0 z0 s) :
    State.Frame w0 z0 (State.firmwareBack s) := by
  unfold State.firmwareBack
  try dsimp only
  with_reducible repeat' first
    | assumption | exact Area.sub_trans (by decide) hw | intro _ | apply State.bootOk_frame | apply State.cutCommand_frame
    | apply State.refreshStale_frame | apply kFoldl | (refine kUpd ?_; apply State.firmwareUp_frame)

theorem State.namedSlot_frame {w0 : Nat} {z0 : State} (s : State) (hw : Area.sub 262466 w0) (h_s : State.Frame w0 z0 s) :
    State.Frame w0 z0 (State.namedSlot s).2 := by
  unfold State.namedSlot
  try dsimp only
  repeat' first
    | (with_reducible first | assumption | apply State.fallBack_frame | apply iteP)
    | dsimp only
    | (with_reducible refine kUpd ?_; with_reducible assumption)

theorem State.romLoad_frame {w0 : Nat} {z0 : State} (s : State) (copies : Nat → List Bool) (hw : Area.sub 262466 w0) (h_s : State.Frame w0 z0 s) :
    State.Frame w0 z0 (State.romLoad s copies) := by
  unfold State.romLoad
  try dsimp only
  with_reducible repeat' first
    | assumption | exact Area.sub_trans (by decide) hw | apply State.namedSlot_frame | apply State.runSlot_frame
    | apply State.fallBack_frame | apply State.raise_frame | apply kIte | (refine kUpd ?_; apply State.namedSlot_frame)

theorem State.endSwap_frame {w0 : Nat} {z0 : State} (s : State) (x : Swap) (st : Status) (hw : Area.sub 326482 w0) (h_s : State.Frame w0 z0 s) :
    State.Frame w0 z0 (State.endSwap s x st) := by
  unfold State.endSwap
  try dsimp only
  repeat' first
    | (with_reducible first
       | exact Area.sub_trans (by decide) hw | apply State.putBox_frame | apply State.refreshStale_frame | (refine kUpd ?_; assumption))
    | split

theorem State.swapLoad_frame {w0 : Nat} {z0 : State} (s : State) (x : Swap) (copies : Nat → List Bool) (alive : Bool) (hw : Area.sub 392018 w0) (h_s : State.Frame w0 z0 s) :
    State.Frame w0 z0 (State.swapLoad s x copies alive) := by
  unfold State.swapLoad
  try dsimp only
  with_reducible repeat' first
    | assumption | exact Area.sub_trans (by decide) hw | apply State.clrFlag_frame | apply State.bobEnter_frame
    | apply State.fallBack_frame | apply State.romLoad_frame | apply State.bootOk_frame | apply State.setFlag_frame
    | apply State.endSwap_frame | apply kIte | (refine kUpd ?_; apply State.romLoad_frame)

theorem execBootLoad_frame {w0 : Nat} {z0 : State} (copiesA : List Bool) (copiesB : List Bool) (alive : Bool) (s : State) (hw : Area.sub 392058 w0) (h_s : State.Frame w0 z0 s) :
    State.Frame.Ans w0 z0 (execBootLoad copiesA copiesB alive s) := by
  unfold execBootLoad
  try dsimp only
  repeat' first
    | (with_reducible first
       | assumption | exact Area.sub_trans (by decide) hw | apply State.swapLoad_frame | apply State.romLoad_frame
       | apply State.recordItems_frame | apply State.enterHeld_frame | apply State.clrFlag_frame | apply State.firmwareBack_frame
       | apply ansNext | apply kIte | (refine kUpd ?_; apply kIte))
    | split

theorem execHkpRestart_frame {w0 : Nat} {z0 : State} (cause : Nat) (s : State) (hw : Area.sub 328002 w0) (h_s : State.Frame w0 z0 s) :
    State.Frame.Ans w0 z0 (execHkpRestart cause s) := by
  unfold execHkpRestart
  try dsimp only
  with_reducible repeat' first
    | assumption | exact Area.sub_trans (by decide) hw | apply State.raise_frame | apply State.hkpDown_frame | apply ansNext | apply kIte

theorem execLiveSwapBusyTimeout_frame {w0 : Nat} {z0 : State} (s : State) (hw : Area.sub 326482 w0) (h_s : State.Frame w0 z0 s) :
    State.Frame.Ans w0 z0 (execLiveSwapBusyTimeout s) := by
  unfold execLiveSwapBusyTimeout
  try dsimp only
  repeat' first | (with_reducible first | assumption | apply State.endSwap_frame | apply ansNext | apply kIte) | split

theorem execBootOkTimeout_frame {w0 : Nat} {z0 : State} (s : State) (hw : Area.sub 392018 w0) (h_s : State.Frame w0 z0 s) :
    State.Frame.Ans w0 z0 (execBootOkTimeout s) := by
  unfold execBootOkTimeout
  try dsimp only
  repeat' first
    | (with_reducible first
       | assumption | exact Area.sub_trans (by decide) hw | apply State.fallBack_frame | apply State.runSlot_frame
       | apply State.bobEnter_frame | apply State.setFlag_frame | apply State.endSwap_frame | apply ansNext | apply kIte)
    | split

theorem State.startSwap_frame {w0 : Nat} {z0 : State} (s : State) (m : Option Nat) (back : Nat) (hw : Area.sub 262144 w0) (h_s : State.Frame w0 z0 s) :
    State.Frame w0 z0 (State.startSwap s m back) := by
  unfold State.startSwap
  try dsimp only
  with_reducible repeat' first | (refine kUpd ?_; assumption)

theorem execConfirmTimeout_frame {w0 : Nat} {z0 : State} (s : State) (hw : Area.sub 262144 w0) (h_s : State.Frame w0 z0 s) :
    State.Frame.Ans w0 z0 (execConfirmTimeout s) := by
  unfold execConfirmTimeout
  try dsimp only
  repeat' first | (with_reducible first | assumption | apply State.startSwap_frame | apply ansNext | apply kIte) | split

theorem State.sealPending_frame {w0 : Nat} {z0 : State} (s : State) (mode : Nat) (hw : Area.sub 262466 w0) (h_s : State.Frame w0 z0 s) :
    State.Frame w0 z0 (State.sealPending s mode) := by
  unfold State.sealPending
  try dsimp only
  with_reducible repeat' first | exact Area.sub_trans (by decide) hw | apply State.raise_frame | (refine kUpd ?_; assumption)

theorem execMbxCommandDone_frame {w0 : Nat} {z0 : State} (m : Nat) (s0 : State) (hw : Area.sub 524159 w0) (h_s0 : State.Frame w0 z0 s0) :
    State.Frame.Ans w0 z0 (execMbxCommandDone m s0) := by
  unfold execMbxCommandDone
  try dsimp only
  with_reducible repeat' first
    | assumption | exact Area.sub_trans (by decide) hw | apply State.clearPanels_frame | apply State.sealPending_frame
    | apply State.startSwap_frame | apply State.mbxComplete_frame | apply State.askOff_frame | apply State.clearEnd_frame
    | apply ansWithin | apply kIte | (refine kUpd ?_; first | apply State.mbxComplete_frame | apply kIte)

theorem execFwStatus_frame {w0 : Nat} {z0 : State} (m : Nat) (s : State) (hw : Area.sub 882 w0) (h_s : State.Frame w0 z0 s) :
    State.Frame.Ans w0 z0 (execFwStatus m s) := by
  unfold execFwStatus
  try dsimp only
  repeat' first | (with_reducible first | assumption | intro _ | apply State.command_frame | apply endDone) | (unfold queryCmd; dsimp only)

theorem execFwDownload_frame {w0 : Nat} {z0 : State} (m : Nat) (s : State) (hw : Area.sub 263026 w0) (h_s : State.Frame w0 z0 s) :
    State.Frame.Ans w0 z0 (execFwDownload m s) := by
  unfold execFwDownload
  try dsimp only
  with_reducible repeat' first
    | assumption | exact Area.sub_trans (by decide) hw | intro _ | apply State.command_frame | apply endDone
    | (refine kUpd ?_; assumption)

theorem execFwVerify_frame {w0 : Nat} {z0 : State} (m : Nat) (s : State) (hw : Area.sub 263026 w0) (h_s : State.Frame w0 z0 s) :
    State.Frame.Ans w0 z0 (execFwVerify m s) := by
  unfold execFwVerify
  try dsimp only
  with_reducible repeat' first
    | assumption | exact Area.sub_trans (by decide) hw | intro _ | apply State.command_frame | apply endLater
    | (refine kUpd ?_; assumption)

theorem execFwActivateLive_frame {w0 : Nat} {z0 : State} (m : Nat) (s : State) (hw : Area.sub 263026 w0) (h_s : State.Frame w0 z0 s) :
    State.Frame.Ans w0 z0 (execFwActivateLive m s) := by
  unfold execFwActivateLive
  try dsimp only
  repeat' first
    | (with_reducible first
       | assumption | exact Area.sub_trans (by decide) hw | intro _ | apply State.choice_frame | apply endLater
       | (refine kUpd ?_; assumption))
    | (unfold activateCmd; dsimp only)

theorem execFwActivateRestart_frame {w0 : Nat} {z0 : State} (m : Nat) (s : State) (hw : Area.sub 263026 w0) (h_s : State.Frame w0 z0 s) :
    State.Frame.Ans w0 z0 (execFwActivateRestart m s) := by
  unfold execFwActivateRestart
  try dsimp only
  repeat' first
    | (with_reducible first
       | assumption | exact Area.sub_trans (by decide) hw | intro _ | apply State.choice_frame | apply endLater
       | (refine kUpd ?_; assumption))
    | (unfold activateCmd; dsimp only)

theorem execFwActivateNextStart_frame {w0 : Nat} {z0 : State} (m : Nat) (s : State) (hw : Area.sub 263026 w0) (h_s : State.Frame w0 z0 s) :
    State.Frame.Ans w0 z0 (execFwActivateNextStart m s) := by
  unfold execFwActivateNextStart
  try dsimp only
  repeat' first
    | (with_reducible first
       | assumption | exact Area.sub_trans (by decide) hw | intro _ | apply State.choice_frame | apply endLater
       | (refine kUpd ?_; assumption))
    | (unfold activateCmd; dsimp only)

theorem execFwConfirm_frame {w0 : Nat} {z0 : State} (m : Nat) (s : State) (hw : Area.sub 263026 w0) (h_s : State.Frame w0 z0 s) :
    State.Frame.Ans w0 z0 (execFwConfirm m s) := by
  unfold execFwConfirm
  try dsimp only
  with_reducible repeat' first
    | assumption | exact Area.sub_trans (by decide) hw | intro _ | apply State.command_frame | apply State.raise_frame | apply endDone
    | (refine kUpd ?_; assumption)

theorem execFwDiscard_frame {w0 : Nat} {z0 : State} (m : Nat) (s : State) (hw : Area.sub 263026 w0) (h_s : State.Frame w0 z0 s) :
    State.Frame.Ans w0 z0 (execFwDiscard m s) := by
  unfold execFwDiscard
  try dsimp only
  with_reducible repeat' first
    | assumption | exact Area.sub_trans (by decide) hw | intro _ | apply State.command_frame | apply State.startSwap_frame | apply endDone
    | apply endLater | apply endIte | (refine kUpd ?_; assumption)

/-! ### Machine/SelfTest.lean -/

theorem execSelftestReport_frame {w0 : Nat} {z0 : State} (m : Nat) (s : State) (hw : Area.sub 882 w0) (h_s : State.Frame w0 z0 s) :
    State.Frame.Ans w0 z0 (execSelftestReport m s) := by
  unfold execSelftestReport
  try dsimp only
  repeat' first | (with_reducible first | assumption | intro _ | apply State.command_frame | apply endDone) | (unfold queryCmd; dsimp only)

theorem State.restartDomain_frame {w0 : Nat} {z0 : State} (s : State) (hw : Area.sub 8194 w0) (h_s : State.Frame w0 z0 s) :
    State.Frame w0 z0 (State.restartDomain s) := by
  unfold State.restartDomain
  try dsimp only
  with_reducible repeat' first | assumption | exact Area.sub_trans (by decide) hw | apply kIte | (refine kUpd ?_; apply State.setFld_frame)

theorem State.retest_frame {w0 : Nat} {z0 : State} (s : State) (t : SelfTest) (test : HoldTest) (lossOk : Bool) (hw : Area.sub 458622 w0) (h_s : State.Frame w0 z0 s) :
    State.Frame w0 z0 (State.retest s t test lossOk) := by
  unfold State.retest
  try dsimp only
  with_reducible repeat' first
    | assumption | exact Area.sub_trans (by decide) hw | apply State.takeHoldup_frame | apply State.takeTest_frame
    | apply State.restartDomain_frame | apply State.enterService_frame | apply State.sendAnnounce_frame | apply kIte

theorem execRetest_frame {w0 : Nat} {z0 : State} (m : Nat) (t : SelfTest) (test : HoldTest) (s : State) (hw : Area.sub 458622 w0) (h_s : State.Frame w0 z0 s) :
    State.Frame.Ans w0 z0 (execRetest m t test s) := by
  unfold execRetest
  try dsimp only
  with_reducible repeat' first
    | assumption | exact Area.sub_trans (by decide) hw | intro _ | apply State.command_frame | apply State.retest_frame | apply endDone

theorem execDiagRun_frame {w0 : Nat} {z0 : State} (m : Nat) (s : State) (hw : Area.sub 328562 w0) (h_s : State.Frame w0 z0 s) :
    State.Frame.Ans w0 z0 (execDiagRun m s) := by
  unfold execDiagRun
  try dsimp only
  with_reducible repeat' first
    | assumption | exact Area.sub_trans (by decide) hw | intro _ | apply State.command_frame | apply State.bobEnter_frame | apply endDone
    | (refine kUpd ?_; assumption)

theorem execDiagDone_frame {w0 : Nat} {z0 : State} (ok : Bool) (detail : Nat) (s : State) (hw : Area.sub 328002 w0) (h_s : State.Frame w0 z0 s) :
    State.Frame.Ans w0 z0 (execDiagDone ok detail s) := by
  unfold execDiagDone
  try dsimp only
  repeat' first
    | (with_reducible first
       | assumption | exact Area.sub_trans (by decide) hw | apply State.bobEnter_frame | apply State.raise_frame | apply ansNext
       | apply kIte | (refine kUpd ?_; assumption))
    | split

theorem execDiagResult_frame {w0 : Nat} {z0 : State} (m : Nat) (s : State) (hw : Area.sub 882 w0) (h_s : State.Frame w0 z0 s) :
    State.Frame.Ans w0 z0 (execDiagResult m s) := by
  unfold execDiagResult
  try dsimp only
  repeat' first | (with_reducible first | assumption | intro _ | apply State.command_frame | apply endDone) | dsimp only | split

/-! ### Machine/Schedule.lean -/

theorem State.runAction_frame {w0 : Nat} {z0 : State} (s : State) (action : Nat) (hw : Area.sub 278866 w0) (h_s : State.Frame w0 z0 s) :
    State.Frame w0 z0 (State.runAction s action).2 := by
  unfold State.runAction
  try dsimp only
  with_reducible repeat' first
    | assumption | exact Area.sub_trans (by decide) hw | apply State.sealPending_frame | apply State.startSwap_frame
    | apply State.startHandover_frame | apply iteP

theorem execScheduleRun_frame {w0 : Nat} {z0 : State} (id : Nat) (s : State) (hw : Area.sub 278866 w0) (h_s : State.Frame w0 z0 s) :
    State.Frame.Ans w0 z0 (execScheduleRun id s) := by
  unfold execScheduleRun
  try dsimp only
  repeat' first
    | (with_reducible first
       | assumption | exact Area.sub_trans (by decide) hw | apply State.runAction_frame | apply State.report_frame | apply ansNext
       | apply kIte | (refine kUpd ?_; first | assumption | apply State.raise_frame))
    | split

/-! ### Machine/Clock.lean -/

theorem State.opSecond_frame {w0 : Nat} {z0 : State} (s : State) (hw : Area.sub 2 w0) (h_s : State.Frame w0 z0 s) :
    State.Frame w0 z0 (State.opSecond s) := by
  unfold State.opSecond
  try dsimp only
  with_reducible repeat' first | assumption | apply State.setFld_frame | apply State.saturate_frame

theorem State.hoopTick_frame {w0 : Nat} {z0 : State} (s : State) (hw : Area.sub 2 w0) (h_s : State.Frame w0 z0 s) :
    State.Frame w0 z0 (State.hoopTick s) := by
  unfold State.hoopTick
  try dsimp only
  with_reducible repeat' first | assumption | apply State.wr_frame | apply kIte

end Sys2Proof.Machine
end

