-- ==== Sys2Proof/Laws/Table.lean ====
section
/-!
SUPPORT. The tables of the state: reading after a write, and the canonical form, which every operation keeps.
-/
namespace Sys2Proof.Machine
set_option Elab.async false

/-! ### Reading after a write -/

/-- The key that was put reads as put. -/
@[simp] theorem Table.find_put_same {α : Type} (t : Table α) (k : Nat) (v : α) : (t.put k v).find k = some v := by
  induction t with
  | nil => simp [Table.put, Table.find]
  | cons e t ih =>
    simp only [Table.put]
    split
    · simp [Table.find]
    · split
      · simp [Table.find]
      · rename_i h
        simp [Table.find, Ne.symm h, ih]

/-- Every other key reads as before. -/
theorem Table.find_put_ne {α : Type} (t : Table α) {k j : Nat} (v : α) (h : j ≠ k) : (t.put k v).find j = t.find j := by
  induction t with
  | nil => simp [Table.put, Table.find, Ne.symm h]
  | cons e t ih =>
    simp only [Table.put]
    split
    · simp [Table.find, Ne.symm h]
    · split
      · rename_i h1
        subst h1
        simp [Table.find, Ne.symm h]
      · simp [Table.find, ih]

/-- Dropping a key leaves the others. -/
theorem Table.find_drop_ne {α : Type} (t : Table α) {k j : Nat} (h : j ≠ k) : (Table.drop t k).find j = t.find j := by
  induction t with
  | nil => rfl
  | cons e t ih =>
    simp only [Table.drop]
    split
    · rename_i h1
      simp [Table.find, h1, Ne.symm h]
    · simp [Table.find, ih]

/-- No key below `lo` is in a table that rises from `lo`. -/
theorem Table.find_below {α : Type} (t : Table α) {lo k : Nat} (h : Table.risingFrom lo t = true) (hk : k < lo) : t.find k = none := by
  induction t generalizing lo with
  | nil => rfl
  | cons e t ih =>
    simp only [Table.risingFrom, Bool.and_eq_true, decide_eq_true_eq] at h
    have : e.1 ≠ k := by omega
    simp only [Table.find, this, if_false]
    exact ih h.2 (by omega)

/-- A dropped key is gone, in the canonical form. -/
theorem Table.find_drop_same {α : Type} (t : Table α) (k : Nat) (h : t.wf = true) : (Table.drop t k).find k = none := by
  unfold Table.wf at h
  revert h
  generalize 0 = lo
  induction t generalizing lo with
  | nil => intro _; rfl
  | cons e t ih =>
    intro h
    simp only [Table.risingFrom, Bool.and_eq_true, decide_eq_true_eq] at h
    simp only [Table.drop]
    split
    · rename_i he
      exact Table.find_below t h.2 (by omega)
    · rename_i he
      simp only [Table.find, he, if_false]
      exact ih _ h.2

/-- What was set is read, in the canonical form. -/
theorem Table.get_set_same {α : Type} [DecidableEq α] (t : Table α) (k : Nat) (v d : α) (h : t.wf = true) : (t.set k v d).get k d = v := by
  unfold Table.set
  split
  · rename_i hv
    simp [Table.get, Table.find_drop_same t k h, hv]
  · simp [Table.get]

/-- Setting a key leaves the others. -/
theorem Table.get_set_ne {α : Type} [DecidableEq α] (t : Table α) {k j : Nat} (v d : α) (h : j ≠ k) : (t.set k v d).get j d = t.get j d := by
  unfold Table.set
  split
  · simp [Table.get, Table.find_drop_ne t h]
  · simp [Table.get, Table.find_put_ne t v h]

/-! ### Tables keep their canonical form -/

theorem Table.risingFrom_mono {α : Type} {t : Table α} {a b : Nat} (hab : a ≤ b) (h : Table.risingFrom b t = true) : Table.risingFrom a t = true := by
  cases t with
  | nil => rfl
  | cons e t =>
    simp only [Table.risingFrom, Bool.and_eq_true, decide_eq_true_eq] at h ⊢
    exact ⟨Nat.le_trans hab h.1, h.2⟩

theorem Table.risingFrom_drop {α : Type} (t : Table α) (lo k : Nat) (h : Table.risingFrom lo t = true) : Table.risingFrom lo (Table.drop t k) = true := by
  induction t generalizing lo with
  | nil => rfl
  | cons e t ih =>
    simp only [Table.risingFrom, Bool.and_eq_true, decide_eq_true_eq] at h
    simp only [Table.drop]
    split
    · exact Table.risingFrom_mono (by omega) h.2
    · simp only [Table.risingFrom, Bool.and_eq_true, decide_eq_true_eq]
      exact ⟨h.1, ih _ h.2⟩

theorem Table.risingFrom_put {α : Type} (t : Table α) (lo k : Nat) (v : α) (hk : lo ≤ k) (h : Table.risingFrom lo t = true) :
    Table.risingFrom lo (t.put k v) = true := by
  induction t generalizing lo with
  | nil => simp [Table.put, Table.risingFrom, hk]
  | cons e t ih =>
    simp only [Table.risingFrom, Bool.and_eq_true, decide_eq_true_eq] at h
    simp only [Table.put]
    split
    · simp only [Table.risingFrom, Bool.and_eq_true, decide_eq_true_eq]
      exact ⟨hk, by omega, h.2⟩
    · split
      · simp only [Table.risingFrom, Bool.and_eq_true, decide_eq_true_eq]
        exact ⟨hk, by subst k; exact h.2⟩
      · simp only [Table.risingFrom, Bool.and_eq_true, decide_eq_true_eq]
        exact ⟨h.1, ih _ (by omega) h.2⟩

theorem Table.risingFrom_filter {α : Type} (t : Table α) (lo : Nat) (p : Nat × α → Bool) (h : Table.risingFrom lo t = true) :
    Table.risingFrom lo (List.filter p t) = true := by
  induction t generalizing lo with
  | nil => rfl
  | cons e t ih =>
    simp only [Table.risingFrom, Bool.and_eq_true, decide_eq_true_eq] at h
    rw [List.filter_cons]
    split
    · simp only [Table.risingFrom, Bool.and_eq_true, decide_eq_true_eq]
      exact ⟨h.1, ih _ h.2⟩
    · exact Table.risingFrom_mono (by omega) (ih _ h.2)

theorem Table.mem_drop {α : Type} {t : Table α} {k : Nat} {e : Nat × α} (h : e ∈ Table.drop t k) : e ∈ t := by
  induction t with
  | nil => simp [Table.drop] at h
  | cons a t ih =>
    simp only [Table.drop] at h
    split at h
    · exact List.mem_cons_of_mem _ h
    · rcases List.mem_cons.1 h with h | h
      · exact h ▸ List.mem_cons_self
      · exact List.mem_cons_of_mem _ (ih h)

theorem Table.mem_put {α : Type} {t : Table α} {k : Nat} {v : α} {e : Nat × α} (h : e ∈ t.put k v) : e = (k, v) ∨ e ∈ t := by
  induction t with
  | nil => simp [Table.put] at h; exact Or.inl h
  | cons a t ih =>
    simp only [Table.put] at h
    split at h
    · rcases List.mem_cons.1 h with h | h
      · exact Or.inl h
      · exact Or.inr h
    · split at h
      · rcases List.mem_cons.1 h with h | h
        · exact Or.inl h
        · exact Or.inr (List.mem_cons_of_mem _ h)
      · rcases List.mem_cons.1 h with h | h
        · exact Or.inr (h ▸ List.mem_cons_self)
        · exact (ih h).imp id (List.mem_cons_of_mem _)

/-- Setting a key keeps the canonical form. -/
theorem Table.wfD_set {α : Type} [DecidableEq α] {t : Table α} {d : α} (k : Nat) (v : α) (h : t.wfD d = true) : (t.set k v d).wfD d = true := by
  simp only [Table.wfD, Table.wf, Bool.and_eq_true, List.all_eq_true, Bool.not_eq_eq_eq_not, Bool.not_true, decide_eq_false_iff_not] at h ⊢
  unfold Table.set
  split
  · exact ⟨Table.risingFrom_drop _ _ _ h.1, fun e he => h.2 e (Table.mem_drop he)⟩
  · refine ⟨Table.risingFrom_put _ _ _ _ (Nat.zero_le _) h.1, fun e he => ?_⟩
    rcases Table.mem_put he with rfl | he
    · assumption
    · exact h.2 e he

/-- Leaving out entries keeps the canonical form. -/
theorem Table.wfD_filter {α : Type} [DecidableEq α] {t : Table α} {d : α} (p : Nat × α → Bool) (h : t.wfD d = true) :
    Table.wfD (List.filter p t) d = true := by
  simp only [Table.wfD, Table.wf, Bool.and_eq_true, List.all_eq_true, Bool.not_eq_eq_eq_not, Bool.not_true, decide_eq_false_iff_not] at h ⊢
  exact ⟨Table.risingFrom_filter _ _ _ h.1, fun e he => h.2 e (List.mem_filter.1 he).1⟩

theorem Table.wf_nil {α : Type} : Table.wf ([] : Table α) = true := rfl

theorem Table.wf_put {α : Type} {t : Table α} (k : Nat) (v : α) (h : t.wf = true) : (t.put k v).wf = true :=
  Table.risingFrom_put _ _ _ _ (Nat.zero_le _) h

theorem Table.wf_drop {α : Type} {t : Table α} (k : Nat) (h : t.wf = true) : (Table.drop t k).wf = true := Table.risingFrom_drop _ _ _ h

theorem Table.wf_filter {α : Type} {t : Table α} (p : Nat × α → Bool) (h : t.wf = true) : Table.wf (List.filter p t) = true :=
  Table.risingFrom_filter _ _ _ h

theorem Table.wf_modify {α : Type} {t : Table α} (k : Nat) (f : α → α) (h : t.wf = true) : (t.modify k f).wf = true := by
  unfold Table.modify
  split
  · exact h
  · exact Table.wf_put _ _ h

/-- Changing entries and no key keeps the form. -/
theorem Table.wf_map {α : Type} {t : Table α} {f : Nat × α → Nat × α} (hf : ∀ e, (f e).1 = e.1) (h : t.wf = true) :
    Table.wf (List.map f t) = true := by
  unfold Table.wf at h ⊢
  revert h
  generalize 0 = lo
  induction t generalizing lo with
  | nil => exact id
  | cons e t ih =>
    intro h
    simp only [Table.risingFrom, List.map_cons, Bool.and_eq_true, decide_eq_true_eq] at h ⊢
    rw [show f e = (e.1, (f e).2) from Prod.ext (hf e) rfl]
    exact ⟨h.1, ih _ h.2⟩

theorem Table.wf_foldl {α β : Type} {g : Table α → β → Table α} {t : Table α} (l : List β) (hg : ∀ u x, Table.wf u = true → (g u x).wf = true)
    (h : t.wf = true) : (l.foldl g t).wf = true := by
  induction l generalizing t with
  | nil => exact h
  | cons x l ih => exact ih (hg _ _ h)

theorem Table.wfD_foldl {α β : Type} [DecidableEq α] {d : α} {g : Table α → β → Table α} {t : Table α} (l : List β)
    (hg : ∀ u x, Table.wfD u d = true → (g u x).wfD d = true) (h : t.wfD d = true) : (l.foldl g t).wfD d = true := by
  induction l generalizing t with
  | nil => exact h
  | cons x l ih => exact ih (hg _ _ h)

theorem Table.wf_of_wfD {α : Type} [DecidableEq α] {t : Table α} {d : α} (h : t.wfD d = true) : t.wf = true := by
  simp only [Table.wfD, Bool.and_eq_true] at h
  exact h.1

/-- Leaving out the entries that read as unlisted gives the canonical form. -/
theorem Table.wfD_clean {α : Type} [DecidableEq α] {t : Table α} (d : α) (h : t.wf = true) :
    Table.wfD (List.filter (fun e => !decide (e.2 = d)) t) d = true := by
  simp only [Table.wfD, Bool.and_eq_true, List.all_eq_true]
  exact ⟨Table.wf_filter _ h, fun e he => (List.mem_filter.1 he).2⟩

end Sys2Proof.Machine
end

