-- ==== Sys2Proof/Laws/Keeps.lean ====
section
/-!
SUPPORT. What every operation keeps: `State.Keeps s t` says that `t` comes from `s` with the queue, the clock and the canonical forms kept,
and that what only goes one way went that way: the factory state, SVN_FLOOR, the journal's SEQ, the uses of CONN_IDs, the free values
taken. One lemma per operation in the files that follow; a lemma for a meaning says so of its next state.
-/
namespace Sys2Proof.Machine
set_option Elab.async false

/-- The kept side: factory state, SEQ, the islands' queues, the ring. -/
structure KeptKeeps (k l : KeepSide) : Prop where
  factory : k.factory = false → l.factory = false
  seq : k.nextSeq ≤ l.nextSeq
  queues : (∀ i, (k.smpQ.filter (fun e => e.1 == i)).length ≤ 16) → ∀ i, (l.smpQ.filter (fun e => e.1 == i)).length ≤ 16
  ring : k.journal.length ≤ 8192 → l.journal.length ≤ 8192
  admin : k.adminKeys ≠ [] → l.adminKeys ≠ []
  locked : (k.factory = false → k.adminKeys ≠ []) → l.factory = false → l.adminKeys ≠ []

theorem KeptKeeps.same {k l : KeepSide} (hf : l.factory = k.factory) (hs : l.nextSeq = k.nextSeq) (hq : l.smpQ = k.smpQ)
    (hj : l.journal = k.journal) (ha : l.adminKeys = k.adminKeys) : KeptKeeps k l :=
  ⟨fun h => hf.trans h, Nat.le_of_eq hs.symm, fun h => hq ▸ h, fun h => hj ▸ h, fun h => ha ▸ h, fun h => by rw [hf, ha]; exact h⟩

theorem KeptKeeps.trans {j k l : KeepSide} (a : KeptKeeps j k) (b : KeptKeeps k l) : KeptKeeps j l :=
  ⟨fun x => b.factory (a.factory x), Nat.le_trans a.seq b.seq, fun x => b.queues (a.queues x), fun x => b.ring (a.ring x),
    fun x => b.admin (a.admin x), fun x => b.locked (a.locked x)⟩

theorem KeptKeeps.less {k l : KeepSide} (hf : l.factory = k.factory) (hs : k.nextSeq ≤ l.nextSeq)
    (hq : l.smpQ.Sublist k.smpQ) (hj : l.journal.Sublist k.journal) (ha : l.adminKeys = k.adminKeys) : KeptKeeps k l :=
  ⟨fun h => hf.trans h, hs, fun h i => Nat.le_trans (List.Sublist.length_le (List.Sublist.filter _ hq)) (h i),
    fun h => Nat.le_trans hj.length_le h, fun h => ha ▸ h, fun h => by rw [hf, ha]; exact h⟩

/-- The medium, the caches, the tier, the tree and the swatch tables keep their canonical form. -/
structure MemKeeps (a b : MemSide) : Prop where
  med : a.med.wf = true → b.med.wf = true
  llc : a.llc.wf = true → b.llc.wf = true
  evb : a.evb.wf = true → b.evb.wf = true
  tier : a.tier.wf = true → b.tier.wf = true
  agents : a.agents.wf = true → b.agents.wf = true
  nodes : a.nodes.wf = true → b.nodes.wf = true
  programs : a.programs.wf = true → b.programs.wf = true
  intern : a.intern.wfD 0 = true → b.intern.wfD 0 = true
  prk : a.prk.wfD Prk.unwritten = true → b.prk.wfD Prk.unwritten = true
  ldg : a.ldg.wfD Ldg.unused = true → b.ldg.wfD Ldg.unused = true

theorem MemKeeps.same {a b : MemSide} (h1 : b.med = a.med) (h2 : b.llc = a.llc) (h3 : b.evb = a.evb) (h4 : b.tier = a.tier)
    (h5 : b.agents = a.agents) (h6 : b.nodes = a.nodes) (h7 : b.programs = a.programs) (h8 : b.intern = a.intern) (h9 : b.prk = a.prk)
    (h10 : b.ldg = a.ldg) : MemKeeps a b :=
  ⟨fun h => h1 ▸ h, fun h => h2 ▸ h, fun h => h3 ▸ h, fun h => h4 ▸ h, fun h => h5 ▸ h, fun h => h6 ▸ h, fun h => h7 ▸ h, fun h => h8 ▸ h,
    fun h => h9 ▸ h, fun h => h10 ▸ h⟩

theorem MemKeeps.trans {a b c : MemSide} (x : MemKeeps a b) (y : MemKeeps b c) : MemKeeps a c :=
  ⟨fun h => y.med (x.med h), fun h => y.llc (x.llc h), fun h => y.evb (x.evb h), fun h => y.tier (x.tier h), fun h => y.agents (x.agents h),
    fun h => y.nodes (x.nodes h), fun h => y.programs (x.programs h), fun h => y.intern (x.intern h), fun h => y.prk (x.prk h),
    fun h => y.ldg (x.ldg h)⟩

/-- Connections and operations keep their canonical form, and the uses of CONN_IDs their count. -/
structure HostKeeps (a b : HostSide) : Prop where
  gen : a.nextGen ≤ b.nextGen
  conns : a.conns.wf = true → b.conns.wf = true
  ops : a.ops.wf = true → b.ops.wf = true

theorem HostKeeps.trans {a b c : HostSide} (x : HostKeeps a b) (y : HostKeeps b c) : HostKeeps a c :=
  ⟨Nat.le_trans x.gen y.gen, fun h => y.conns (x.conns h), fun h => y.ops (x.ops h)⟩

/-- What an operation keeps. -/
structure State.Keeps (s t : State) : Prop where
  pending : t.pending = s.pending
  now : t.now = s.now
  free : s.free ≤ t.free
  svn : s.boot.svnFloor ≤ t.boot.svnFloor
  host : HostKeeps s.host t.host
  kept : KeptKeeps s.kept t.kept
  mem : MemKeeps s.mem t.mem
  regs : s.regs.wfD 0 = true → t.regs.wfD 0 = true

namespace State.Keeps
variable {z0 s t : State}

theorem refl (s : State) : s.Keeps s := ⟨rfl, rfl, Nat.le_refl _, Nat.le_refl _, ⟨Nat.le_refl _, fun h => h, fun h => h⟩, KeptKeeps.same rfl rfl rfl rfl rfl,
    MemKeeps.same rfl rfl rfl rfl rfl rfl rfl rfl rfl rfl, id⟩

theorem kUpd {tick : Nat} {free : Nat} {timers : Table Nat} {power : PowerSt} {host : HostSide} {kept : KeepSide} {mbx : MbxSide}
    {mem : MemSide} {lace : LaceSide} {filet : FiletSide} {bob : BobSide} {pwr : PowerSide} {boot : BootSide} {seen : Word}
    (h : z0.Keeps t) (hf : t.free ≤ free := by first | exact Nat.le_refl _ | exact Nat.le_succ _ | exact Nat.le_add_right _ _)
    (hb : t.boot.svnFloor ≤ boot.svnFloor := by first | exact Nat.le_refl _ | exact Nat.le_max_left _ _)
    (hg : HostKeeps t.host host := by
      first
      | exact ⟨Nat.le_refl _, fun h => h, fun h => h⟩
      | (constructor
         · first | exact Nat.le_refl _ | exact Nat.le_succ _
         all_goals first
          | exact fun h => h | exact Table.wf_put _ _ | exact Table.wf_drop _ | exact Table.wf_filter _ | exact Table.wf_modify _ _
          | exact fun _ => Table.wf_nil | exact Table.wf_map fun _ => by first | rfl | (split <;> rfl)
          | (intro h; dsimp only; split
             · exact Table.wf_filter _ h
             · exact Table.wf_map (fun _ => by split <;> rfl) h)))
    (hk : KeptKeeps t.kept kept := by
      first
      | exact KeptKeeps.same rfl rfl rfl rfl rfl
      | exact KeptKeeps.less rfl (Nat.le_refl _) (by first | exact List.Sublist.refl _ | exact List.erase_sublist | exact List.nil_sublist _)
          (by first | exact List.Sublist.refl _ | exact List.drop_sublist _ _) rfl)
    (hm : MemKeeps t.mem mem := by
      first
      | exact MemKeeps.same rfl rfl rfl rfl rfl rfl rfl rfl rfl rfl
      | (constructor <;> first
          | exact fun h => h | exact Table.wf_put _ _ | exact Table.wf_drop _ | exact Table.wf_filter _ | exact Table.wf_modify _ _
          | exact fun _ => Table.wf_nil | exact Table.wfD_set _ _ | exact Table.wfD_filter _ | exact Table.wf_map fun _ => rfl
          | exact Table.wf_foldl _ (fun _ _ h => Table.wf_drop _ h) | exact Table.wf_foldl _ (fun _ _ h => Table.wf_put _ _ h)
          | exact Table.wf_map fun _ => by split <;> rfl
          | exact fun h => Table.wf_foldl _ (fun _ _ h => Table.wf_put _ _ h) (Table.wf_map (fun _ => by split <;> rfl) h)
          | exact Table.wf_foldl _ (fun _ _ h => by split <;> first | exact h | exact Table.wf_put _ _ h)
          | exact Table.wfD_foldl _ (fun _ _ h => Table.wfD_set _ _ h)
          | (intro h; split <;> first | exact Table.wf_put _ _ h | exact Table.wf_drop _ h | exact h)
          | exact fun _ => Table.wf_foldl _ (fun _ _ h => by split <;> first | exact Table.wf_put _ _ h | exact h) Table.wf_nil
          | exact fun h => Table.wfD_clean _ (Table.wf_map (fun _ => by first | rfl | (split <;> rfl)) (Table.wf_of_wfD h)))) :
    z0.Keeps (State.mk t.pending t.now tick t.regs free timers power host kept mbx mem lace filet bob pwr boot seen) :=
  ⟨h.pending, h.now, Nat.le_trans h.free hf, Nat.le_trans h.svn hb, h.host.trans hg, h.kept.trans hk, h.mem.trans hm, h.regs⟩

theorem letS {b : State → State} (v : State) (hv : z0.Keeps v) (hb : ∀ t, z0.Keeps t → z0.Keeps (b t)) : z0.Keeps (let t := v; b t) := hb v hv

theorem letP {α : Type} {b : α × State → State} (v : α × State) (hv : z0.Keeps v.2) (hb : ∀ r : α × State, z0.Keeps r.2 → z0.Keeps (b r)) :
    z0.Keeps (let r := v; b r) := hb v hv

theorem letX {α : Sort u} {b : α → State} (v : α) (hb : ∀ x, z0.Keeps (b x)) : z0.Keeps (let x := v; b x) := hb v

theorem kIte {c : Prop} [Decidable c] {a b : State} (ha : z0.Keeps a) (hb : z0.Keeps b) : z0.Keeps (if c then a else b) := by
  split <;> assumption

theorem kFoldl {α : Type} {f : State → α → State} (l : List α) (h : z0.Keeps s) (hf : ∀ t x, z0.Keeps t → z0.Keeps (f t x)) :
    z0.Keeps (l.foldl f s) := by
  induction l generalizing s with
  | nil => exact h
  | cons x l ih => exact ih (hf _ _ h)

theorem kSnd {α : Type} {p : α × State} {a : α} {u : State} (e : p = (a, u)) (h : z0.Keeps p.2) : z0.Keeps u := by
  subst e; exact h

/-- An operation that may not answer: where it answers, it keeps. -/
def Opt (z0 : State) (o : Option State) : Prop := ∀ u, o = some u → z0.Keeps u

/-- The same of one that answers a value too. -/
def OptP {α : Type} (z0 : State) (o : Option (α × State)) : Prop := ∀ r, o = some r → z0.Keeps r.2

theorem optNone : Opt z0 none := by intro u h; cases h
theorem optSome (h : z0.Keeps s) : Opt z0 (some s) := by intro u e; cases e; exact h
theorem optIte {c : Prop} [Decidable c] {a b : Option State} (ha : Opt z0 a) (hb : Opt z0 b) : Opt z0 (if c then a else b) := by
  split <;> assumption
theorem ofOpt {o : Option State} {u : State} (e : o = some u) (h : Opt z0 o) : z0.Keeps u := h u e
theorem optPNone {α : Type} : OptP (α := α) z0 none := by intro u h; cases h
theorem optPSome {α : Type} {r : α × State} (h : z0.Keeps r.2) : OptP z0 (some r) := by intro u e; cases e; exact h
theorem optPIte {α : Type} {c : Prop} [Decidable c] {a b : Option (α × State)} (ha : OptP z0 a) (hb : OptP z0 b) : OptP z0 (if c then a else b) := by
  split <;> assumption
theorem ofOptP {α : Type} {o : Option (α × State)} {a : α} {u : State} (e : o = some (a, u)) (h : OptP z0 o) : z0.Keeps u := h (a, u) e
theorem ofOptP' {α : Type} {o : Option (α × State)} {r : α × State} (e : o = some r) (h : OptP z0 o) : z0.Keeps r.2 := h r e
theorem optMap {α : Type} {o : Option α} {f : α → State} (h : ∀ x, z0.Keeps (f x)) : Opt z0 (o.map f) := by
  cases o with
  | none => exact optNone
  | some x => exact optSome (h x)
theorem optPMap {α β : Type} {o : Option α} {f : α → β × State} (h : ∀ x, z0.Keeps (f x).2) : OptP z0 (o.map f) := by
  cases o with
  | none => exact optPNone
  | some x => exact optPSome (h x)
theorem optMapS {o : Option State} {f : State → State} (ho : Opt z0 o) (h : ∀ x, z0.Keeps x → z0.Keeps (f x)) : Opt z0 (o.map f) := by
  cases o with
  | none => exact optNone
  | some x => exact optSome (h x (ho x rfl))
theorem optPMapS {β : Type} {o : Option State} {f : State → β × State} (ho : Opt z0 o) (h : ∀ x, z0.Keeps x → z0.Keeps (f x).2) :
    OptP z0 (o.map f) := by
  cases o with
  | none => exact optPNone
  | some x => exact optPSome (h x (ho x rfl))
theorem optFindSome {α : Type} (l : List α) {f : α → Option State} (h : ∀ x, Opt z0 (f x)) : Opt z0 (l.findSome? f) := by
  induction l with
  | nil => exact optNone
  | cons x l ih =>
    intro u e
    rw [List.findSome?_cons] at e
    cases hx : f x with
    | none => rw [hx] at e; exact ih u e
    | some v => rw [hx] at e; exact h x u (hx.trans e)
theorem optOrElse {a : Option State} {b : Unit → Option State} (ha : Opt z0 a) (hb : ∀ u, Opt z0 (b u)) : Opt z0 (a.orElse b) := by
  cases a with
  | none => exact hb ()
  | some u => exact ha
theorem optPGetD {α : Type} {o : Option (α × State)} {r : α × State} (h : OptP z0 o) (hs : z0.Keeps r.2) : z0.Keeps (o.getD r).2 := by
  cases o with
  | none => exact hs
  | some u => exact h u rfl
theorem optGetD {o : Option State} (h : Opt z0 o) (hs : z0.Keeps s) : z0.Keeps (o.getD s) := by
  cases o with
  | none => exact hs
  | some u => exact h u rfl
theorem iteP {α : Type} {c : Prop} [Decidable c] {a b : α × State} (ha : z0.Keeps a.2) (hb : z0.Keeps b.2) : z0.Keeps (if c then a else b).2 := by
  split <;> assumption
theorem foldlP {α β : Type} {f : β × State → α → β × State} {p : β × State} (l : List α) (h : z0.Keeps p.2)
    (hf : ∀ q x, z0.Keeps q.2 → z0.Keeps (f q x).2) : z0.Keeps (l.foldl f p).2 := by
  induction l generalizing p with
  | nil => exact h
  | cons x l ih => exact ih (hf _ _ h)
theorem foldlQ {α β : Type} {f : State × β → α → State × β} {p : State × β} (l : List α) (h : z0.Keeps p.1)
    (hf : ∀ q x, z0.Keeps q.1 → z0.Keeps (f q x).1) : z0.Keeps (l.foldl f p).1 := by
  induction l generalizing p with
  | nil => exact h
  | cons x l ih => exact ih (hf _ _ h)
theorem snd2 {α β : Type} {p : α × β × State} {a : α} {b : β} {u : State} (e : p = (a, b, u)) (h : z0.Keeps p.2.2) : z0.Keeps u := by
  subst e; exact h
/-- The end of a mailbox command's effect keeps. -/
def End (z0 : State) : CmdEnd → Prop
  | .done _ _ t => z0.Keeps t
  | .later _ _ t => z0.Keeps t
theorem endDone {st : Status} {l : List Byte} (h : z0.Keeps s) : End z0 (.done st l s) := h
theorem endLater {st : Status} {l : List Byte} (h : z0.Keeps s) : End z0 (.later st l s) := h
theorem endIte {c : Prop} [Decidable c] {a b : CmdEnd} (ha : End z0 a) (hb : End z0 b) : End z0 (if c then a else b) := by
  split <;> assumption
/-- A meaning's next state keeps. -/
def Ans (z0 : State) (r : Result) : Prop := ∀ t, r = .next t → z0.Keeps t
theorem ansNext (h : z0.Keeps s) : Ans z0 (.next s) := by intro t e; cases e; exact h
theorem ansWithin {ok : Bool} (h : z0.Keeps s) : Ans z0 (within ok s) := by
  intro t e; unfold within at e; split at e
  · cases e; exact h
  · cases e
theorem ansIte {c : Prop} [Decidable c] {a b : Result} (ha : Ans z0 a) (hb : Ans z0 b) : Ans z0 (if c then a else b) := by
  split <;> assumption
theorem pair {α : Type} {a : α} (h : z0.Keeps s) : z0.Keeps (a, s).2 := h

end State.Keeps

end Sys2Proof.Machine
end

