-- ==== Sys2Proof/Laws/KeepsOps.lean ====
section
/-!
SUPPORT. What the operations keep (Laws/Keeps.lean): the shared operations.
-/
namespace Sys2Proof.Machine
set_option Elab.async false
open State.Keeps

/-! ### Machine/Regs.lean -/

theorem State.wr_keeps {z0 : State} (s : State) (off : Nat) (v : Word) (hs : z0.Keeps s) : z0.Keeps (s.wr off v) :=
  ⟨hs.pending, hs.now, hs.free, hs.svn, hs.host, hs.kept, hs.mem, fun h => Table.wfD_set off v (hs.regs h)⟩

/-- Leaving out registers keeps the form. -/
theorem State.filter_keeps {z0 : State} (s : State) (p : Nat × Word → Bool) (hs : z0.Keeps s) : z0.Keeps { s with regs := s.regs.filter p } :=
  ⟨hs.pending, hs.now, hs.free, hs.svn, hs.host, hs.kept, hs.mem, fun h => Table.wfD_filter p (hs.regs h)⟩

theorem State.setFld_keeps {z0 : State} (s : State) (off : Nat) (hi : Nat) (lo : Nat) (n : Nat) (h_s : z0.Keeps s) :
    z0.Keeps (State.setFld s off hi lo n) := by
  unfold State.setFld
  try dsimp only
  with_reducible repeat' first | assumption | apply State.wr_keeps

theorem State.setFlag_keeps {z0 : State} (s : State) (off : Nat) (b : Nat) (h_s : z0.Keeps s) :
    z0.Keeps (State.setFlag s off b) := by
  unfold State.setFlag
  try dsimp only
  with_reducible repeat' first | assumption | apply State.setFld_keeps

theorem State.clrFlag_keeps {z0 : State} (s : State) (off : Nat) (b : Nat) (h_s : z0.Keeps s) :
    z0.Keeps (State.clrFlag s off b) := by
  unfold State.clrFlag
  try dsimp only
  with_reducible repeat' first | assumption | apply State.setFld_keeps

theorem State.putFlag_keeps {z0 : State} (s : State) (off : Nat) (b : Nat) (v : Bool) (h_s : z0.Keeps s) :
    z0.Keeps (State.putFlag s off b v) := by
  unfold State.putFlag
  try dsimp only
  with_reducible repeat' first | assumption | apply State.setFld_keeps

theorem State.count_keeps {z0 : State} (s : State) (off : Nat) (n : Nat) (h_s : z0.Keeps s) :
    z0.Keeps (State.count s off n) := by
  unfold State.count
  try dsimp only
  with_reducible repeat' first | assumption | apply State.wr_keeps

theorem State.saturate_keeps {z0 : State} (s : State) (off : Nat) (hi : Nat) (lo : Nat) (h_s : z0.Keeps s) :
    z0.Keeps (State.saturate s off hi lo) := by
  unfold State.saturate
  try dsimp only
  with_reducible repeat' first | assumption | apply State.setFld_keeps | apply kIte

/-! ### Machine/Ops.lean -/

theorem State.arm_keeps {z0 : State} (s : State) (k : Nat) (ns : Nat) (h_s : z0.Keeps s) :
    z0.Keeps (State.arm s k ns) := by
  unfold State.arm
  try dsimp only
  with_reducible repeat' first | (refine kUpd ?_; assumption)

theorem State.disarm_keeps {z0 : State} (s : State) (k : Nat) (h_s : z0.Keeps s) :
    z0.Keeps (State.disarm s k) := by
  unfold State.disarm
  try dsimp only
  with_reducible repeat' first | (refine kUpd ?_; assumption)

theorem State.periodic_keeps {z0 : State} (s : State) (k : Nat) (ns : Nat) (f : State → State) (h_s : z0.Keeps s) (hf : ∀ (y0 : State), z0.Keeps y0 → z0.Keeps (f y0)) :
    z0.Keeps (State.periodic s k ns f) := by
  unfold State.periodic
  try dsimp only
  with_reducible repeat' first | assumption | apply hf | apply State.arm_keeps | apply kIte

theorem State.draw_keeps {z0 : State} (s : State) (h_s : z0.Keeps s) :
    z0.Keeps (State.draw s).2 := by
  unfold State.draw
  try dsimp only
  with_reducible repeat' first | (refine kUpd ?_; assumption)

theorem State.draw256_keeps {z0 : State} (s : State) (h_s : z0.Keeps s) :
    z0.Keeps (State.draw256 s).2 := by
  unfold State.draw256
  try dsimp only
  with_reducible repeat' first | (refine kUpd ?_; assumption)

theorem State.raiseAt_keeps {z0 : State} (s : State) (isl code src val : Nat) (hs : z0.Keeps s) : z0.Keeps (s.raiseAt isl code src val) := by
  unfold State.raiseAt
  split
  · rename_i h
    refine State.Keeps.kUpd hs (hk := ?_)
    refine ⟨id, Nat.le_refl _, fun hq i => ?_, id, id, id⟩
    simp only [List.filter_append, List.length_append]
    by_cases hi : isl = i
    · subst hi
      have : (List.filter (fun e => e.1 == isl) [(isl, ({ code := code, src := src, val := val % 2 ^ 32, time := s.stamp } : Occ))]).length ≤ 1 :=
        List.length_filter_le _ _
      omega
    · have : (List.filter (fun e => e.1 == i) [(isl, ({ code := code, src := src, val := val % 2 ^ 32, time := s.stamp } : Occ))]) = [] := by
        simp [hi]
      rw [this]
      simpa using hq i
  · exact State.count_keeps _ _ _ hs

theorem State.raise_keeps {z0 : State} (s : State) (code : Nat) (src : Nat) (val : Nat) (h_s : z0.Keeps s) :
    z0.Keeps (State.raise s code src val) := by
  unfold State.raise
  try dsimp only
  with_reducible repeat' first | assumption | apply State.raiseAt_keeps

theorem State.raiseTile_keeps {z0 : State} (s : State) (code : Nat) (tile : Nat) (val : Nat) (h_s : z0.Keeps s) :
    z0.Keeps (State.raiseTile s code tile val) := by
  unfold State.raiseTile
  try dsimp only
  with_reducible repeat' first | assumption | apply State.raiseAt_keeps

theorem State.jAppend_keeps {z0 : State} (s : State) (e : JEntry) (hs : z0.Keeps s) (hj : s.kept.journal.length < 8192) : z0.Keeps (s.jAppend e) := by
  have h1 : z0.Keeps { s with kept := { s.kept with journal := s.kept.journal ++ [e], nextSeq := s.kept.nextSeq + 1 } } := by
    refine State.Keeps.kUpd hs (hk := ?_)
    refine ⟨id, Nat.le_succ _, id, fun _ => ?_, id, id⟩
    simp only [List.length_append, List.length_singleton]
    omega
  unfold State.jAppend
  dsimp only
  repeat' first
    | exact h1
    | with_reducible apply State.Keeps.kIte
    | with_reducible apply State.raise_keeps
    | with_reducible apply State.count_keeps

theorem State.jRefuse_keeps {z0 : State} (s : State) (h_s : z0.Keeps s) :
    z0.Keeps (State.jRefuse s) := by
  unfold State.jRefuse
  try dsimp only
  with_reducible repeat' first | assumption | apply State.count_keeps

theorem State.jAlways_keeps {z0 : State} (s : State) (e : JEntry) (hs : z0.Keeps s) : z0.Keeps (s.jAlways e) := by
  unfold State.jAlways
  split
  · rename_i h
    exact State.jAppend_keeps _ _ hs h
  · exact State.count_keeps _ _ _ hs

theorem State.jPlain_keeps {z0 : State} (s : State) (e : JEntry) (hs : z0.Keeps s) : z0.Keeps (s.jPlain e) := by
  unfold State.jPlain
  split
  · exact hs
  · rename_i h
    refine State.jAppend_keeps _ _ hs ?_
    have h3 : ¬ 8176 ≤ s.kept.journal.length := fun h4 => h (decide_eq_true h4)
    omega

theorem State.jChange_keeps {z0 : State} (s : State) (a : Author) (cmd : Bool) (object : Nat) (old new : List Byte) (hs : z0.Keeps s)
    (hj : ¬ s.jnlFull = true) : z0.Keeps (s.jChange a cmd object old new) := by
  refine State.jAppend_keeps _ _ hs ?_
  have h3 : ¬ 8176 ≤ s.kept.journal.length := fun h => hj (decide_eq_true h)
  omega

/-! ### Machine/Records.lean -/

theorem State.putSlot_keeps {z0 : State} (s : State) (i : Nat) (x : SmpSlot) (h_s : z0.Keeps s) :
    z0.Keeps (State.putSlot s i x) := by
  unfold State.putSlot
  try dsimp only
  with_reducible repeat' first | (refine kUpd ?_; assumption)

theorem State.commitSlot_keeps {z0 : State} (s : State) (i : Nat) (x : SmpSlot) (deferred : Nat) (h_s : z0.Keeps s) :
    z0.Keeps (State.commitSlot s i x deferred) := by
  unfold State.commitSlot
  try dsimp only
  with_reducible repeat' first | assumption | apply State.putSlot_keeps | apply State.count_keeps

theorem State.commitOverflow_keeps {z0 : State} (s : State) (h_s : z0.Keeps s) :
    z0.Keeps (State.commitOverflow s) := by
  unfold State.commitOverflow
  try dsimp only
  with_reducible repeat' first | (refine kUpd ?_; assumption)

theorem State.recordOcc_keeps {z0 : State} (s : State) (o : Occ) (h_s : z0.Keeps s) :
    z0.Keeps (State.recordOcc s o) := by
  unfold State.recordOcc
  try dsimp only
  repeat' first
    | (with_reducible first
       | assumption | apply State.commitSlot_keeps | apply State.putSlot_keeps | apply State.count_keeps | apply State.setFld_keeps
       | apply State.commitOverflow_keeps | apply kIte | (refine kUpd ?_; assumption))
    | split

theorem execSamplerOccurrence_keeps {z0 : State} (island : Nat) (s : State) (h_s : z0.Keeps s) :
    State.Keeps.Ans z0 (execSamplerOccurrence island s) := by
  unfold execSamplerOccurrence
  try dsimp only
  repeat' first
    | (with_reducible first
       | assumption | apply State.count_keeps | apply State.recordOcc_keeps | apply ansWithin | apply kIte
       | (refine kUpd ?_; first | assumption | apply State.count_keeps))
    | split

theorem execSamplerGapExpire_keeps {z0 : State} (slot : Nat) (s : State) (h_s : z0.Keeps s) :
    State.Keeps.Ans z0 (execSamplerGapExpire slot s) := by
  unfold execSamplerGapExpire
  try dsimp only
  repeat' first
    | (with_reducible first | assumption | apply State.commitOverflow_keeps | apply State.commitSlot_keeps | apply ansWithin | apply kIte)
    | split

theorem State.commitAll_keeps {z0 : State} (s : State) (h_s : z0.Keeps s) :
    z0.Keeps (State.commitAll s) := by
  unfold State.commitAll
  try dsimp only
  with_reducible repeat' first
    | assumption | intro _ | apply State.commitSlot_keeps | apply State.commitOverflow_keeps | apply kIte | apply kFoldl

theorem State.clearEnd_keeps {z0 : State} (s : State) (src : Nat) (cleared : Nat) (h_s : z0.Keeps s) :
    z0.Keeps (State.clearEnd s src cleared) := by
  unfold State.clearEnd
  try dsimp only
  with_reducible repeat' first
    | assumption | intro _ | apply State.setFld_keeps | apply State.clrFlag_keeps | apply State.count_keeps | apply State.recordOcc_keeps
    | apply kFoldl | (refine kUpd ?_; assumption)

theorem State.clearBelow_keeps {z0 : State} (s : State) (n : Nat) (h_s : z0.Keeps s) :
    z0.Keeps (State.clearBelow s n) := by
  unfold State.clearBelow
  try dsimp only
  with_reducible repeat' first
    | assumption | apply State.clrFlag_keeps | (refine kUpd ?_; assumption)


theorem State.recordHeld_keeps {z0 : State} (s : State) (h_s : z0.Keeps s) :
    z0.Keeps (State.recordHeld s) := by
  unfold State.recordHeld
  try dsimp only
  with_reducible repeat' first
    | assumption | intro _ | apply State.recordOcc_keeps | apply kFoldl | (refine kUpd ?_; assumption)


theorem State.clearCut_keeps {z0 : State} (s : State) (h_s : z0.Keeps s) :
    z0.Keeps (State.clearCut s) := by
  unfold State.clearCut
  try dsimp only
  with_reducible repeat' first
    | assumption | apply State.recordHeld_keeps | apply State.clearBelow_keeps | apply State.draw_keeps | apply kIte


theorem State.settleSlot_keeps {z0 : State} (s : State) (i : Nat) (x : SmpSlot) (o : Option SmpRec) (h_s : z0.Keeps s) :
    z0.Keeps (State.settleSlot s i x o) := by
  cases o with
  | none => exact h_s
  | some k => exact State.putSlot_keeps _ _ _ h_s


theorem State.loseWork_keeps {z0 : State} (s : State) (h_s : z0.Keeps s) :
    z0.Keeps (State.loseWork s) := by
  unfold State.loseWork
  try dsimp only
  with_reducible repeat' first
    | assumption | intro _ | apply State.clearBelow_keeps | apply State.draw_keeps | apply State.draw256_keeps | apply State.settleSlot_keeps | apply kFoldl | apply kIte | (refine kUpd ?_; first | assumption | apply kIte | apply kFoldl)


/-! ### Machine/Heat.lean -/

theorem State.wake_keeps {z0 : State} (s : State) (h_s : z0.Keeps s) :
    z0.Keeps (State.wake s) := by
  unfold State.wake
  try dsimp only
  with_reducible repeat' first
    | assumption | apply State.setFld_keeps | apply State.clrFlag_keeps | apply kIte
    | (refine kUpd ?_; first | apply State.setFlag_keeps | apply kIte)

/-! ### Machine/Bobbin.lean -/

theorem State.putBob_keeps {z0 : State} (s : State) (b : Nat) (x : Bob) (h_s : z0.Keeps s) :
    z0.Keeps (State.putBob s b x) := by
  unfold State.putBob
  try dsimp only
  with_reducible repeat' first | (refine kUpd ?_; assumption)

theorem State.putWin_keeps {z0 : State} (s : State) (c : Nat) (w : PushWin) (h_s : z0.Keeps s) :
    z0.Keeps (State.putWin s c w) := by
  unfold State.putWin
  try dsimp only
  with_reducible repeat' first | (refine kUpd ?_; assumption)

theorem State.noCredit_keeps {z0 : State} (s : State) (b : Nat) (len : Nat) (st : Status) (h_s : z0.Keeps s) :
    z0.Keeps (State.noCredit s b len st) := by
  unfold State.noCredit
  try dsimp only
  with_reducible repeat' first | assumption | apply State.count_keeps | apply State.raise_keeps | apply kIte

theorem State.levelIrq_keeps {z0 : State} (s : State) (b : Nat) (h_s : z0.Keeps s) :
    z0.Keeps (State.levelIrq s b) := by
  unfold State.levelIrq
  try dsimp only
  with_reducible repeat' first | assumption | apply State.setFlag_keeps | apply State.count_keeps

theorem State.commitPkt_keeps {z0 : State} (s : State) (b : Nat) (p : BobPkt) (h_s : z0.Keeps s) :
    z0.Keeps (State.commitPkt s b p) := by
  unfold State.commitPkt
  try dsimp only
  with_reducible repeat' first | assumption | apply State.putBob_keeps | apply State.count_keeps | apply State.levelIrq_keeps | apply kIte

theorem State.bobPush_keeps {z0 : State} (s : State) (b : Nat) (l : List Byte) (h_s : z0.Keeps s) :
    z0.Keeps (State.bobPush s b l).2 := by
  unfold State.bobPush
  try dsimp only
  repeat' first | (with_reducible first | assumption | apply State.noCredit_keeps | apply State.commitPkt_keeps) | split

theorem State.bobTake_keeps {z0 : State} (s : State) (b : Nat) (h_s : z0.Keeps s) :
    State.Keeps.OptP z0 (State.bobTake s b) := by
  unfold State.bobTake
  try dsimp only
  repeat' first
    | (with_reducible first | assumption | apply State.putBob_keeps | apply State.count_keeps | exact optPNone | apply optPSome | apply optPIte)
    | split

theorem State.packetStart_keeps {z0 : State} (s : State) (core : Nat) (value : Word) (h_s : z0.Keeps s) :
    z0.Keeps (State.packetStart s core value) := by
  unfold State.packetStart
  try dsimp only
  repeat' first
    | (with_reducible first | assumption | apply State.putWin_keeps | apply State.count_keeps | apply State.noCredit_keeps | apply kIte)
    | split

theorem execPacketStart_keeps {z0 : State} (core : Nat) (value : Word) (s : State) (h_s : z0.Keeps s) :
    State.Keeps.Ans z0 (execPacketStart core value s) := by
  unfold execPacketStart
  try dsimp only
  with_reducible repeat' first | assumption | apply State.packetStart_keeps | apply ansWithin

theorem State.pushData_keeps {z0 : State} (s : State) (core : Nat) (value : Word) (h_s : z0.Keeps s) :
    z0.Keeps (State.pushData s core value) := by
  unfold State.pushData
  try dsimp only
  with_reducible repeat' first | assumption | apply State.count_keeps | apply State.putWin_keeps | apply State.commitPkt_keeps | apply kIte

theorem execPushData_keeps {z0 : State} (core : Nat) (value : Word) (s : State) (h_s : z0.Keeps s) :
    State.Keeps.Ans z0 (execPushData core value s) := by
  unfold execPushData
  try dsimp only
  with_reducible repeat' first | assumption | apply State.pushData_keeps | apply ansWithin

theorem State.breakBob_keeps {z0 : State} (s : State) (b : Nat) (h_s : z0.Keeps s) :
    z0.Keeps (State.breakBob s b) := by
  unfold State.breakBob
  try dsimp only
  with_reducible repeat' first | assumption | apply State.putBob_keeps | apply State.raise_keeps

theorem State.pop_keeps {z0 : State} (s : State) (b : Nat) (out : CellOutcome) (h_s : z0.Keeps s) :
    z0.Keeps (State.pop s b out).2 := by
  unfold State.pop
  try dsimp only
  repeat' first
    | (with_reducible first
       | assumption | apply State.count_keeps | apply State.breakBob_keeps | apply State.raise_keeps | apply State.putBob_keeps
       | apply iteP | apply kIte)
    | split

theorem execPop_keeps {z0 : State} (core : Nat) (out : CellOutcome) (s : State) (h_s : z0.Keeps s) :
    State.Keeps.Ans z0 (execPop core out s) := by
  unfold execPop
  try dsimp only
  with_reducible repeat' first | assumption | apply ansWithin | (refine kUpd ?_; apply State.pop_keeps)

theorem State.dropPkt_keeps {z0 : State} (s : State) (core : Nat) (value : Word) (h_s : z0.Keeps s) :
    z0.Keeps (State.dropPkt s core value) := by
  unfold State.dropPkt
  try dsimp only
  repeat' first | (with_reducible first | assumption | apply State.putBob_keeps | apply State.count_keeps | apply kIte) | split

theorem execDrop_keeps {z0 : State} (core : Nat) (value : Word) (s : State) (h_s : z0.Keeps s) :
    State.Keeps.Ans z0 (execDrop core value s) := by
  unfold execDrop
  try dsimp only
  with_reducible repeat' first | assumption | apply State.dropPkt_keeps | apply ansWithin

theorem State.bobCfg0_keeps {z0 : State} (s : State) (v : Word) (h_s : z0.Keeps s) :
    State.Keeps.Opt z0 (State.bobCfg0 s v) := by
  unfold State.bobCfg0
  try dsimp only
  with_reducible repeat' first | assumption | apply State.putBob_keeps | exact optNone | apply optSome | apply optIte

theorem State.bobCfg1_keeps {z0 : State} (s : State) (v : Word) (h_s : z0.Keeps s) :
    State.Keeps.Opt z0 (State.bobCfg1 s v) := by
  unfold State.bobCfg1
  try dsimp only
  with_reducible repeat' first | assumption | apply State.putBob_keeps | exact optNone | apply optSome | apply optIte

theorem State.bobCtl_keeps {z0 : State} (s : State) (v : Word) (h_s : z0.Keeps s) :
    z0.Keeps (State.bobCtl s v) := by
  unfold State.bobCtl
  try dsimp only
  with_reducible repeat' first | assumption | apply State.putBob_keeps | apply kIte

theorem execBobbinResetDone_keeps {z0 : State} (bob : Nat) (s : State) (h_s : z0.Keeps s) :
    State.Keeps.Ans z0 (execBobbinResetDone bob s) := by
  unfold execBobbinResetDone
  try dsimp only
  with_reducible repeat' first
    | assumption | intro _ | apply State.putBob_keeps | apply State.putWin_keeps | apply ansWithin | apply kIte | apply kFoldl

theorem State.bobEnter_keeps {z0 : State} (s : State) (mode : Nat) (h_s : z0.Keeps s) :
    z0.Keeps (State.bobEnter s mode) := by
  unfold State.bobEnter
  try dsimp only
  with_reducible repeat' first
    | assumption | intro _ | apply State.setFld_keeps | apply State.putBob_keeps | apply State.levelIrq_keeps | apply kIte | apply kFoldl

theorem State.bobModeEffect_keeps {z0 : State} (s : State) (v : Word) (h_s : z0.Keeps s) :
    z0.Keeps (State.bobModeEffect s v) := by
  unfold State.bobModeEffect
  try dsimp only
  with_reducible repeat' first | assumption | apply State.bobEnter_keeps | apply kIte

theorem execStaleTailExpire_keeps {z0 : State} (bob : Nat) (s : State) (h_s : z0.Keeps s) :
    State.Keeps.Ans z0 (execStaleTailExpire bob s) := by
  unfold execStaleTailExpire
  try dsimp only
  repeat' first
    | (with_reducible first
       | assumption | apply State.putBob_keeps | apply State.setFlag_keeps | apply State.count_keeps | apply State.raise_keeps
       | apply ansWithin | apply kIte)
    | split

theorem State.bobStart_keeps {z0 : State} (s : State) (h_s : z0.Keeps s) :
    z0.Keeps (State.bobStart s) := by
  unfold State.bobStart
  try dsimp only
  with_reducible repeat' first | apply State.setFld_keeps | (refine kUpd ?_; assumption)

end Sys2Proof.Machine
end

