-- ==== Sys2Proof/Laws/KeepsHost.lean ====
section
/-!
SUPPORT. What the operations keep (Laws/Keeps.lean): ports, transport and alarms.
-/
namespace Sys2Proof.Machine
set_option Elab.async false
open State.Keeps

/-! ### Machine/Wire.lean -/

theorem State.putLink_keeps {z0 : State} (s : State) (n : Nat) (l : LaceLink) (h_s : z0.Keeps s) :
    z0.Keeps (State.putLink s n l) := by
  unfold State.putLink
  try dsimp only
  with_reducible repeat' first | (refine kUpd ?_; assumption)

theorem State.putRoute_keeps {z0 : State} (s : State) (d : Nat) (r : Route) (h_s : z0.Keeps s) :
    z0.Keeps (State.putRoute s d r) := by
  unfold State.putRoute
  try dsimp only
  with_reducible repeat' first | (refine kUpd ?_; assumption)

theorem State.saveHoopTime_keeps {z0 : State} (s : State) (h_s : z0.Keeps s) :
    z0.Keeps (State.saveHoopTime s) := by
  unfold State.saveHoopTime
  try dsimp only
  with_reducible repeat' first | (refine kUpd ?_; assumption)

theorem State.emitLace_keeps {z0 : State} (s : State) (n : Nat) (lseq : Nat) (f : LaceFrame) (h_s : z0.Keeps s) :
    z0.Keeps (State.emitLace s n lseq f) := by
  unfold State.emitLace
  try dsimp only
  with_reducible repeat' first
    | assumption | apply State.putRoute_keeps | apply State.putLink_keeps | apply State.count_keeps | apply kIte
    | (refine kUpd ?_; apply kIte)

theorem State.pumpLink_keeps {z0 : State} (s : State) (n : Nat) (r0 : Nat) (h_s : z0.Keeps s) :
    z0.Keeps (State.pumpLink s n r0) := by
  induction r0 generalizing s n with
  | zero =>
    unfold State.pumpLink
    try dsimp only
    repeat' first | (with_reducible first | assumption | apply State.putLink_keeps | apply State.emitLace_keeps | apply kIte) | split
  | succ _ ih =>
    unfold State.pumpLink
    try dsimp only
    repeat' first
      | (with_reducible first | assumption | apply ih | apply State.putLink_keeps | apply State.emitLace_keeps | apply kIte)
      | split

theorem State.sendOn_keeps {z0 : State} (s : State) (n : Nat) (f : LaceFrame) (h_s : z0.Keeps s) :
    z0.Keeps (State.sendOn s n f) := by
  unfold State.sendOn
  try dsimp only
  with_reducible repeat' first | assumption | apply State.putLink_keeps | apply State.pumpLink_keeps

theorem State.sendPath_keeps {z0 : State} (s : State) (f : LaceFrame) (h_s : z0.Keeps s) :
    z0.Keeps (State.sendPath s f) := by
  unfold State.sendPath
  try dsimp only
  repeat' first | (with_reducible first | assumption | apply State.sendOn_keeps) | split

theorem State.sendRoute_keeps {z0 : State} (s : State) (f : LaceFrame) (h_s : z0.Keeps s) :
    z0.Keeps (State.sendRoute s f) := by
  unfold State.sendRoute
  try dsimp only
  with_reducible repeat' first | assumption | apply State.putRoute_keeps | apply State.count_keeps | apply State.sendPath_keeps | apply kIte

theorem State.routeRoom_keeps {z0 : State} (s : State) (d : Nat) (h_s : z0.Keeps s) :
    z0.Keeps (State.routeRoom s d) := by
  unfold State.routeRoom
  try dsimp only
  with_reducible repeat' first | assumption | intro _ | apply State.sendRoute_keeps | apply State.putRoute_keeps | apply kFoldl

theorem State.sendControl_keeps {z0 : State} (s : State) (d : Nat) (c : Control) (h_s : z0.Keeps s) :
    z0.Keeps (State.sendControl s d c) := by
  unfold State.sendControl
  try dsimp only
  with_reducible repeat' first | assumption | apply State.sendRoute_keeps

theorem State.sendAll_keeps {z0 : State} (s : State) (c : Control) (h_s : z0.Keeps s) :
    z0.Keeps (State.sendAll s c) := by
  unfold State.sendAll
  try dsimp only
  with_reducible repeat' first | assumption | intro _ | apply State.sendControl_keeps | apply kFoldl

theorem State.report_keeps {z0 : State} (s : State) (c : Control) (h_s : z0.Keeps s) :
    z0.Keeps (State.report s c) := by
  unfold State.report
  try dsimp only
  with_reducible repeat' first | assumption | apply State.sendControl_keeps | apply kIte

theorem State.sendLeave_keeps {z0 : State} (s : State) (why : Nat) (h_s : z0.Keeps s) :
    z0.Keeps (State.sendLeave s why) := by
  unfold State.sendLeave
  try dsimp only
  with_reducible repeat' first | assumption | intro _ | apply State.sendControl_keeps | apply kFoldl

theorem State.sendAnnounce_keeps {z0 : State} (s : State) (h_s : z0.Keeps s) :
    z0.Keeps (State.sendAnnounce s) := by
  unfold State.sendAnnounce
  try dsimp only
  with_reducible repeat' first | assumption | intro _ | apply State.sendOn_keeps | apply kFoldl

/-! ### Machine/Eth.lean -/

theorem State.emit_keeps {z0 : State} (s : State) (p : Nat) (f : TxFrame) (sec : Option TxTag) (h_s : z0.Keeps s) :
    z0.Keeps (State.emit s p f sec) := by
  unfold State.emit
  try dsimp only
  repeat' first | (with_reducible first | apply State.count_keeps | (refine kUpd ?_; assumption)) | split

theorem State.queueTx_keeps {z0 : State} (s : State) (p : Nat) (f : TxFrame) (h_s : z0.Keeps s) :
    z0.Keeps (State.queueTx s p f) := by
  unfold State.queueTx
  try dsimp only
  with_reducible repeat' first | (refine kUpd ?_; assumption)

theorem State.sendPfc_keeps {z0 : State} (s : State) (p : Nat) (c : Nat) (quanta : Nat) (h_s : z0.Keeps s) :
    z0.Keeps (State.sendPfc s p c quanta) := by
  unfold State.sendPfc
  try dsimp only
  with_reducible repeat' first | assumption | apply State.emit_keeps | apply kIte

theorem State.xoffClass_keeps {z0 : State} (s : State) (p : Nat) (c : Nat) (h_s : z0.Keeps s) :
    z0.Keeps (State.xoffClass s p c) := by
  unfold State.xoffClass
  try dsimp only
  with_reducible repeat' first | assumption | (refine kUpd ?_; apply State.sendPfc_keeps)

theorem State.pfcClass_keeps {z0 : State} (s : State) (p : Nat) (c : Nat) (h_s : z0.Keeps s) :
    z0.Keeps (State.pfcClass s p c) := by
  unfold State.pfcClass
  try dsimp only
  repeat' first
    | (with_reducible first
       | assumption | apply State.xoffClass_keeps | apply kIte | (refine kUpd ?_; first | assumption | apply State.sendPfc_keeps))
    | split

theorem State.pfcUpdate_keeps {z0 : State} (s : State) (p : Nat) (h_s : z0.Keeps s) :
    z0.Keeps (State.pfcUpdate s p) := by
  unfold State.pfcUpdate
  try dsimp only
  with_reducible repeat' first | assumption | intro _ | apply State.pfcClass_keeps | apply kIte | apply kFoldl

theorem State.ctrlUse_keeps {z0 : State} (s : State) (p : Nat) (h_s : z0.Keeps s) :
    z0.Keeps (State.ctrlUse s p) := by
  unfold State.ctrlUse
  try dsimp only
  with_reducible repeat' first | (refine kUpd ?_; assumption)

theorem State.rxDrop_keeps {z0 : State} (s : State) (p : Nat) (cause : Nat) (h_s : z0.Keeps s) :
    z0.Keeps (State.rxDrop s p cause) := by
  unfold State.rxDrop
  try dsimp only
  with_reducible repeat' first | assumption | apply State.count_keeps | apply State.wr_keeps

theorem State.rxCount_keeps {z0 : State} (s : State) (p : Nat) (f : EthFrame) (h_s : z0.Keeps s) :
    z0.Keeps (State.rxCount s p f) := by
  unfold State.rxCount
  try dsimp only
  with_reducible repeat' first | assumption | apply State.count_keeps

theorem State.sawPn_keeps {z0 : State} (s : State) (p : Nat) (f : EthFrame) (h_s : z0.Keeps s) :
    z0.Keeps (State.sawPn s p f) := by
  unfold State.sawPn
  try dsimp only
  repeat' first | (with_reducible first | assumption | (refine kUpd ?_; assumption)) | split

theorem State.fecCount_keeps {z0 : State} (s : State) (p : Nat) (w : FecWord) (h_s : z0.Keeps s) :
    z0.Keeps (State.fecCount s p w) := by
  unfold State.fecCount
  try dsimp only
  repeat' first
    | (with_reducible first
       | assumption | intro _ | apply State.count_keeps | apply kIte | apply kFoldl | (refine kUpd ?_; apply State.count_keeps))
    | split

theorem State.deliver_keeps {z0 : State} (s : State) (d : Delivered) (h_s : z0.Keeps s) :
    z0.Keeps (State.deliver s d) := by
  unfold State.deliver
  try dsimp only
  with_reducible repeat' first | apply State.count_keeps | apply State.pfcUpdate_keeps | (refine kUpd ?_; assumption)

theorem State.answer_keeps {z0 : State} (s : State) (p : Nat) (mac : Nat) (ip : IpAddr) (b : TxBody) (h_s : z0.Keeps s) :
    z0.Keeps (State.answer s p mac ip b) := by
  unfold State.answer
  try dsimp only
  with_reducible repeat' first | assumption | apply State.ctrlUse_keeps | apply State.queueTx_keeps

theorem State.pauseClass_keeps {z0 : State} (s : State) (p : Nat) (c : Nat) (q : Nat) (h_s : z0.Keeps s) :
    z0.Keeps (State.pauseClass s p c q) := by
  unfold State.pauseClass
  try dsimp only
  with_reducible repeat' first | assumption | (refine kUpd ?_; apply State.count_keeps)

theorem State.rxAccept_keeps {z0 : State} (s : State) (p : Nat) (f : EthFrame) (h_s : z0.Keeps s) :
    z0.Keeps (State.rxAccept s p f) := by
  unfold State.rxAccept
  try dsimp only
  repeat' first
    | (with_reducible first
       | assumption | intro _ | apply State.rxCount_keeps | apply State.pauseClass_keeps | apply State.deliver_keeps
       | apply State.answer_keeps | apply kIte | apply kFoldl)
    | split

theorem State.received_keeps {z0 : State} (s : State) (p : Nat) (f : EthFrame) (h_s : z0.Keeps s) :
    z0.Keeps (State.received s p f) := by
  unfold State.received
  try dsimp only
  with_reducible repeat' first | assumption | apply State.sawPn_keeps | apply State.rxAccept_keeps | apply State.rxDrop_keeps | apply kIte

theorem execFrameReceive_keeps {z0 : State} (port : Nat) (f : EthFrame) (s : State) (h_s : z0.Keeps s) :
    State.Keeps.Ans z0 (execFrameReceive port f s) := by
  unfold execFrameReceive
  try dsimp only
  with_reducible repeat' first
    | assumption | intro _ | apply State.fecCount_keeps | apply State.received_keeps | apply ansWithin | apply kIte | apply kFoldl

theorem execPfcReceive_keeps {z0 : State} (port : Nat) (classes : BitVec 8) (pause : PfcPause) (s : State) (h_s : z0.Keeps s) :
    State.Keeps.Ans z0 (execPfcReceive port classes pause s) := by
  unfold execPfcReceive
  try dsimp only
  with_reducible repeat' first | assumption | apply State.received_keeps | apply ansWithin | apply kIte

theorem execPfcPauseExpire_keeps {z0 : State} (port : Nat) (cls : Nat) (s : State) (h_s : z0.Keeps s) :
    State.Keeps.Ans z0 (execPfcPauseExpire port cls s) := by
  unfold execPfcPauseExpire
  try dsimp only
  repeat' first | (with_reducible first | assumption | apply ansWithin | apply kIte | (refine kUpd ?_; assumption)) | split

theorem execPfcXoffRepeat_keeps {z0 : State} (port : Nat) (cls : Nat) (s : State) (h_s : z0.Keeps s) :
    State.Keeps.Ans z0 (execPfcXoffRepeat port cls s) := by
  unfold execPfcXoffRepeat
  try dsimp only
  repeat' first
    | (with_reducible first | assumption | apply State.xoffClass_keeps | apply ansWithin | apply kIte | (refine kUpd ?_; assumption))
    | split

theorem State.usePn_keeps {z0 : State} (s : State) (p : Nat) (slot : Nat) (a : MacSa) (h_s : z0.Keeps s) :
    z0.Keeps (State.usePn s p slot a) := by
  unfold State.usePn
  try dsimp only
  with_reducible repeat' first | apply State.raise_keeps | apply kIte | (refine kUpd ?_; assumption)

theorem State.holdTx_keeps {z0 : State} (s : State) (p : Nat) (h_s : z0.Keeps s) :
    z0.Keeps (State.holdTx s p) := by
  unfold State.holdTx
  try dsimp only
  with_reducible repeat' first | assumption | (refine kUpd ?_; apply State.count_keeps)

theorem execFrameTransmit_keeps {z0 : State} (port : Nat) (s : State) (h_s : z0.Keeps s) :
    State.Keeps.Ans z0 (execFrameTransmit port s) := by
  unfold execFrameTransmit
  try dsimp only
  repeat' first
    | (with_reducible first
       | assumption | apply State.holdTx_keeps | apply State.emit_keeps | apply ansWithin | apply kIte
       | (refine kUpd ?_; first | assumption | apply State.usePn_keeps))
    | split

theorem State.startTraining_keeps {z0 : State} (s : State) (p : Nat) (h_s : z0.Keeps s) :
    z0.Keeps (State.startTraining s p) := by
  unfold State.startTraining
  try dsimp only
  with_reducible repeat' first | assumption | (refine kUpd ?_; apply State.putFlag_keeps)

theorem execTrainTimeout_keeps {z0 : State} (port : Nat) (s : State) (h_s : z0.Keeps s) :
    State.Keeps.Ans z0 (execTrainTimeout port s) := by
  unfold execTrainTimeout
  try dsimp only
  repeat' first
    | (with_reducible first | assumption | apply State.count_keeps | apply State.startTraining_keeps | apply ansWithin | apply kIte)
    | split

theorem State.greet_keeps {z0 : State} (s : State) (p : Nat) (h_s : z0.Keeps s) :
    z0.Keeps (State.greet s p) := by
  unfold State.greet
  try dsimp only
  with_reducible repeat' first | assumption | apply State.queueTx_keeps | apply kIte

theorem execPortLinkUp_keeps {z0 : State} (port : Nat) (s : State) (h_s : z0.Keeps s) :
    State.Keeps.Ans z0 (execPortLinkUp port s) := by
  unfold execPortLinkUp
  try dsimp only
  with_reducible repeat' first
    | assumption | apply State.setFlag_keeps | apply State.clrFlag_keeps | apply State.greet_keeps | apply State.pfcUpdate_keeps
    | apply ansWithin | apply kIte | (refine kUpd ?_; apply State.setFld_keeps)

theorem State.moveFrames_keeps {z0 : State} (s : State) (p : Nat) (h_s : z0.Keeps s) :
    z0.Keeps (State.moveFrames s p) := by
  unfold State.moveFrames
  try dsimp only
  with_reducible repeat' first | (refine kUpd ?_; assumption)

theorem State.moveConns_keeps {z0 : State} (s : State) (p : Nat) (h_s : z0.Keeps s) :
    z0.Keeps (State.moveConns s p) := by
  unfold State.moveConns
  try dsimp only
  with_reducible repeat' first | assumption | apply State.setFlag_keeps | apply State.moveFrames_keeps | (refine kUpd ?_; apply kIte)

theorem State.portDown_keeps {z0 : State} (s : State) (p : Nat) (cause : Nat) (locked : Nat) (h_s : z0.Keeps s) :
    z0.Keeps (State.portDown s p cause locked) := by
  unfold State.portDown
  try dsimp only
  with_reducible repeat' first
    | assumption | apply State.clrFlag_keeps | apply State.setFld_keeps | apply State.setFlag_keeps | apply State.raise_keeps
    | apply State.moveConns_keeps | (refine kUpd ?_; apply State.saturate_keeps)

theorem execPortDown_keeps {z0 : State} (port : Nat) (lanes : LaneLoss) (s : State) (h_s : z0.Keeps s) :
    State.Keeps.Ans z0 (execPortDown port lanes s) := by
  unfold execPortDown
  try dsimp only
  with_reducible repeat' first | assumption | apply State.portDown_keeps | apply State.startTraining_keeps | apply ansWithin | apply kIte

theorem execPortAdminDown_keeps {z0 : State} (port : Nat) (s : State) (h_s : z0.Keeps s) :
    State.Keeps.Ans z0 (execPortAdminDown port s) := by
  unfold execPortAdminDown
  try dsimp only
  with_reducible repeat' first | assumption | apply State.portDown_keeps | apply State.startTraining_keeps | apply ansWithin | apply kIte

theorem State.ethPortCfgEffect_keeps {z0 : State} (s : State) (p : Nat) (v : Word) (h_s : z0.Keeps s) :
    z0.Keeps (State.ethPortCfgEffect s p v) := by
  unfold State.ethPortCfgEffect
  try dsimp only
  with_reducible repeat' first
    | assumption | apply State.wr_keeps | apply State.setFlag_keeps | apply State.startTraining_keeps | apply State.pfcUpdate_keeps
    | apply kIte | (refine kUpd ?_; first | apply State.clrFlag_keeps | apply kIte)

/-! ### Machine/Transport.lean -/

theorem State.putConn_keeps {z0 : State} (s : State) (id : Nat) (c : Conn) (h_s : z0.Keeps s) :
    z0.Keeps (State.putConn s id c) := by
  unfold State.putConn
  try dsimp only
  with_reducible repeat' first | (refine kUpd ?_; assumption)

theorem State.modConn_keeps {z0 : State} (s : State) (id : Nat) (f : Conn → Conn) (h_s : z0.Keeps s) :
    z0.Keeps (State.modConn s id f) := by
  unfold State.modConn
  try dsimp only
  with_reducible repeat' first | (refine kUpd ?_; assumption)

theorem State.sendConn_keeps {z0 : State} (s : State) (id : Nat) (c : Conn) (h : FrameHdr) (body : List Byte) (h_s : z0.Keeps s) :
    z0.Keeps (State.sendConn s id c h body) := by
  unfold State.sendConn
  try dsimp only
  with_reducible repeat' first | assumption | apply State.queueTx_keeps | apply State.modConn_keeps

theorem State.sendAck_keeps {z0 : State} (s : State) (id : Nat) (h_s : z0.Keeps s) :
    z0.Keeps (State.sendAck s id) := by
  unfold State.sendAck
  try dsimp only
  repeat' first | (with_reducible first | assumption | apply State.sendConn_keeps) | split

theorem State.sendResetAs_keeps {z0 : State} (s : State) (port : Nat) (pcp : Nat) (peer : Peer) (h : FrameHdr) (reason : Nat) (nonce : Nat) (h_s : z0.Keeps s) :
    z0.Keeps (State.sendResetAs s port pcp peer h reason nonce) := by
  unfold State.sendResetAs
  try dsimp only
  with_reducible repeat' first | assumption | apply State.queueTx_keeps | apply State.count_keeps

theorem State.sendReset_keeps {z0 : State} (s : State) (port : Nat) (pcp : Nat) (peer : Peer) (id : Nat) (reason : Nat) (nonce : Nat) (h_s : z0.Keeps s) :
    z0.Keeps (State.sendReset s port pcp peer id reason nonce) := by
  unfold State.sendReset
  try dsimp only
  with_reducible repeat' first | assumption | apply State.sendResetAs_keeps

theorem State.releaseBoxes_keeps {z0 : State} (s : State) (id : Nat) (c : Conn) (h_s : z0.Keeps s) :
    z0.Keeps (State.releaseBoxes s id c) := by
  unfold State.releaseBoxes
  try dsimp only
  with_reducible repeat' first | (refine kUpd ?_; assumption)

theorem State.freeConn_keeps {z0 : State} (s : State) (id : Nat) (h_s : z0.Keeps s) :
    z0.Keeps (State.freeConn s id) := by
  unfold State.freeConn
  try dsimp only
  repeat' first | (with_reducible first | assumption | (refine kUpd ?_; apply State.releaseBoxes_keeps)) | split

theorem State.releaseFrames_keeps {z0 : State} (s : State) (id : Nat) (h_s : z0.Keeps s) :
    z0.Keeps (State.releaseFrames s id) := by
  unfold State.releaseFrames
  try dsimp only
  with_reducible repeat' first | (refine kUpd ?_; assumption)

theorem State.resetConn_keeps {z0 : State} (s : State) (id : Nat) (reason : Nat) (h_s : z0.Keeps s) :
    z0.Keeps (State.resetConn s id reason) := by
  unfold State.resetConn
  try dsimp only
  repeat' first | (with_reducible first | assumption | apply State.freeConn_keeps | apply State.sendResetAs_keeps) | split

theorem State.shtDrop_keeps {z0 : State} (s : State) (e : Nat) (cause : Nat) (connId : Nat) (h_s : z0.Keeps s) :
    z0.Keeps (State.shtDrop s e cause connId) := by
  unfold State.shtDrop
  try dsimp only
  with_reducible repeat' first | assumption | apply State.count_keeps | apply State.wr_keeps

theorem State.takeFront_keeps {z0 : State} (s : State) (e : Nat) (h_s : z0.Keeps s) :
    State.Keeps.OptP z0 (State.takeFront s e) := by
  unfold State.takeFront
  try dsimp only
  repeat' first
    | (with_reducible first | apply State.pfcUpdate_keeps | exact optPNone | apply optPSome | (refine kUpd ?_; assumption))
    | split

theorem State.unknownConn_keeps {z0 : State} (s : State) (d : Delivered) (h : FrameHdr) (h_s : z0.Keeps s) :
    z0.Keeps (State.unknownConn s d h) := by
  unfold State.unknownConn
  try dsimp only
  with_reducible repeat' first | assumption | apply State.sendReset_keeps | apply kIte | (refine kUpd ?_; assumption)

theorem State.flushReady_keeps {z0 : State} (s : State) (id : Nat) (h_s : z0.Keeps s) :
    z0.Keeps (State.flushReady s id) := by
  unfold State.flushReady
  try dsimp only
  repeat' first
    | (with_reducible first | assumption | intro _ | apply State.sendConn_keeps | apply State.putConn_keeps | apply kIte | apply kFoldl)
    | split

theorem State.pushReady_keeps {z0 : State} (s : State) (id : Nat) (r : Response) (h_s : z0.Keeps s) :
    z0.Keeps (State.pushReady s id r) := by
  unfold State.pushReady
  try dsimp only
  with_reducible repeat' first | assumption | apply State.modConn_keeps | apply State.flushReady_keeps | apply kIte

theorem State.refuseNow_keeps {z0 : State} (s : State) (id : Nat) (seq : Nat) (idx : Nat) (t : Stitch) (st : Status) (h_s : z0.Keeps s) :
    z0.Keeps (State.refuseNow s id seq idx t st) := by
  unfold State.refuseNow
  try dsimp only
  with_reducible repeat' first | assumption | apply State.modConn_keeps | apply State.pushReady_keeps

theorem State.sampleTake_keeps {z0 : State} (s : State) (id : Nat) (t : Stitch) (h_s : z0.Keeps s) :
    z0.Keeps (State.sampleTake s id t).2 := by
  unfold State.sampleTake
  try dsimp only
  repeat' first | (with_reducible first | assumption | apply iteP) | dsimp only | (with_reducible refine kUpd ?_; with_reducible assumption)

theorem State.issue_keeps {z0 : State} (s0 : State) (id : Nat) (c : Conn) (seq : Nat) (idx : Nat) (t : Stitch) (reexec : Bool) (h_s0 : z0.Keeps s0) :
    z0.Keeps (State.issue s0 id c seq idx t reexec) := by
  unfold State.issue
  try dsimp only
  with_reducible repeat' first | assumption | apply State.wake_keeps | (refine kUpd ?_; apply State.sampleTake_keeps)

theorem State.issueWhole_keeps {z0 : State} (s : State) (id : Nat) (c : Conn) (seq : Nat) (idx : Nat) (t : Stitch) (h_s : z0.Keeps s) :
    z0.Keeps (State.issueWhole s id c seq idx t) := by
  unfold State.issueWhole
  try dsimp only
  with_reducible repeat' first | assumption | (refine kUpd ?_; apply State.issue_keeps)

theorem State.judge_keeps {z0 : State} (s : State) (id : Nat) (seq : Nat) (idx : Nat) (t : Stitch) (h_s : z0.Keeps s) :
    z0.Keeps (State.judge s id seq idx t).2 := by
  unfold State.judge
  try dsimp only
  repeat' first
    | (with_reducible first
       | assumption | apply State.count_keeps | apply State.resetConn_keeps | apply State.modConn_keeps | apply State.refuseNow_keeps
       | apply State.pushReady_keeps | apply iteP)
    | split

theorem State.takeStitch_keeps {z0 : State} (s : State) (id : Nat) (seq : Nat) (idx : Nat) (count : Nat) (t : Stitch) (h_s : z0.Keeps s) :
    z0.Keeps (State.takeStitch s id seq idx count t) := by
  unfold State.takeStitch
  try dsimp only
  repeat' first
    | (with_reducible first
       | assumption | apply State.count_keeps | apply State.judge_keeps | apply State.modConn_keeps | apply State.refuseNow_keeps
       | apply State.issue_keeps | apply State.issueWhole_keeps | apply kIte)
    | split

theorem State.takeStitches_keeps {z0 : State} (s : State) (id : Nat) (seq : Nat) (count : Nat) (r0 : Nat) (r1 : List Stitch) (h_s : z0.Keeps s) :
    z0.Keeps (State.takeStitches s id seq count r0 r1) := by
  induction r1 generalizing s id seq count r0 with
  | nil =>
    unfold State.takeStitches
    try dsimp only
    with_reducible repeat' first | assumption | apply State.takeStitch_keeps
  | cons _ _ ih =>
    unfold State.takeStitches
    try dsimp only
    with_reducible repeat' first | assumption | apply ih | apply State.takeStitch_keeps

theorem State.endSegment_keeps {z0 : State} (s : State) (id : Nat) (h_s : z0.Keeps s) :
    z0.Keeps (State.endSegment s id) := by
  unfold State.endSegment
  try dsimp only
  repeat' first | (with_reducible first | assumption | apply State.modConn_keeps | apply State.refuseNow_keeps | apply kIte) | split

theorem State.takeFrame_keeps {z0 : State} (s : State) (id : Nat) (seq : Nat) (b : List Byte) (h_s : z0.Keeps s) :
    z0.Keeps (State.takeFrame s id seq b) := by
  unfold State.takeFrame
  try dsimp only
  with_reducible repeat' first
    | assumption | apply State.modConn_keeps | apply State.endSegment_keeps | apply State.takeStitches_keeps | apply kIte

theorem State.takeHeld_keeps {z0 : State} (s : State) (id : Nat) (r0 : Nat) (h_s : z0.Keeps s) :
    z0.Keeps (State.takeHeld s id r0) := by
  induction r0 generalizing s id with
  | zero =>
    unfold State.takeHeld
    try dsimp only
    repeat' first
      | (with_reducible first
         | assumption | intro _ | apply State.shtDrop_keeps | apply State.modConn_keeps | apply State.takeFrame_keeps | apply kIte
         | apply kFoldl)
      | split
  | succ _ ih =>
    unfold State.takeHeld
    try dsimp only
    repeat' first
      | (with_reducible first
         | assumption | intro _ | apply ih | apply State.shtDrop_keeps | apply State.modConn_keeps | apply State.takeFrame_keeps
         | apply kIte | apply kFoldl)
      | split

theorem State.runAgain_keeps {z0 : State} (s : State) (id : Nat) (c : Conn) (seq : Nat) (idx : Nat) (t : Stitch) (h_s : z0.Keeps s) :
    z0.Keeps (State.runAgain s id c seq idx t) := by
  unfold State.runAgain
  try dsimp only
  with_reducible repeat' first | assumption | apply State.count_keeps | apply State.issue_keeps | apply State.judge_keeps | apply kIte

theorem State.dupStitch_keeps {z0 : State} (s : State) (id : Nat) (seq : Nat) (idx : Nat) (t : Stitch) (h_s : z0.Keeps s) :
    z0.Keeps (State.dupStitch s id seq idx t) := by
  unfold State.dupStitch
  try dsimp only
  repeat' first
    | (with_reducible first
       | assumption | apply State.modConn_keeps | apply State.runAgain_keeps | apply State.count_keeps | apply State.pushReady_keeps
       | apply kIte)
    | split

theorem State.dupStitches_keeps {z0 : State} (s : State) (id : Nat) (seq : Nat) (r0 : Nat) (r1 : List Stitch) (h_s : z0.Keeps s) :
    z0.Keeps (State.dupStitches s id seq r0 r1) := by
  induction r1 generalizing s id seq r0 with
  | nil =>
    unfold State.dupStitches
    try dsimp only
    with_reducible repeat' first | assumption | apply State.dupStitch_keeps
  | cons _ _ ih =>
    unfold State.dupStitches
    try dsimp only
    with_reducible repeat' first | assumption | apply ih | apply State.dupStitch_keeps

theorem State.doneBoxes_keeps {z0 : State} (s : State) (id : Nat) (c : Conn) (h_s : z0.Keeps s) :
    z0.Keeps (State.doneBoxes s id c) := by
  unfold State.doneBoxes
  try dsimp only
  with_reducible repeat' first | (refine kUpd ?_; assumption)

theorem State.validFrame_keeps {z0 : State} (s : State) (id : Nat) (c : Conn) (d : Delivered) (h : FrameHdr) (h_s : z0.Keeps s) :
    z0.Keeps (State.validFrame s id c d h) := by
  unfold State.validFrame
  try dsimp only
  with_reducible repeat' first
    | assumption | apply State.setFlag_keeps | apply State.putConn_keeps | apply State.doneBoxes_keeps | apply State.moveFrames_keeps
    | apply State.count_keeps | apply kIte

theorem State.sendCloseAck_keeps {z0 : State} (s : State) (id : Nat) (h_s : z0.Keeps s) :
    z0.Keeps (State.sendCloseAck s id) := by
  unfold State.sendCloseAck
  try dsimp only
  repeat' first | (with_reducible first | assumption | apply State.sendConn_keeps | apply State.modConn_keeps) | split

theorem State.closeDone_keeps {z0 : State} (s : State) (id : Nat) (h_s : z0.Keeps s) :
    z0.Keeps (State.closeDone s id) := by
  unfold State.closeDone
  try dsimp only
  repeat' first
    | (with_reducible first
       | assumption | apply State.sendCloseAck_keeps | apply State.releaseFrames_keeps | apply State.freeConn_keeps | apply kIte)
    | split

theorem State.ackWait_keeps {z0 : State} (s : State) (id : Nat) (h_s : z0.Keeps s) :
    z0.Keeps (State.ackWait s id) := by
  unfold State.ackWait
  try dsimp only
  with_reducible repeat' first | assumption | apply State.modConn_keeps

theorem State.ackNow_keeps {z0 : State} (s : State) (id : Nat) (now : Bool) (h_s : z0.Keeps s) :
    z0.Keeps (State.ackNow s id now) := by
  unfold State.ackNow
  try dsimp only
  repeat' first | (with_reducible first | assumption | apply State.sendAck_keeps | apply kIte) | split

theorem State.sequenced_keeps {z0 : State} (s : State) (e : Nat) (id : Nat) (c : Conn) (d : Delivered) (h : FrameHdr) (h_s : z0.Keeps s) :
    z0.Keeps (State.sequenced s e id c d h) := by
  unfold State.sequenced
  try dsimp only
  with_reducible repeat' first
    | assumption | apply State.sendAck_keeps | apply State.shtDrop_keeps | apply State.validFrame_keeps | apply State.count_keeps
    | apply State.sendCloseAck_keeps | apply State.dupStitches_keeps | apply State.ackWait_keeps | apply State.takeFrame_keeps
    | apply State.takeHeld_keeps | apply State.ackNow_keeps | apply State.modConn_keeps | apply kIte

theorem State.sawCe_keeps {z0 : State} (s : State) (id : Nat) (d : Delivered) (h_s : z0.Keeps s) :
    z0.Keeps (State.sawCe s id d) := by
  unfold State.sawCe
  try dsimp only
  with_reducible repeat' first | assumption | apply State.modConn_keeps | apply State.count_keeps | apply kIte

theorem State.onConn_keeps {z0 : State} (s : State) (e : Nat) (d : Delivered) (h : FrameHdr) (k : State → Conn → State) (h_s : z0.Keeps s) (hk : ∀ (y0 : State) (y1 : Conn), z0.Keeps y0 → z0.Keeps (k y0 y1)) :
    z0.Keeps (State.onConn s e d h k) := by
  unfold State.onConn
  try dsimp only
  repeat' first
    | (with_reducible first
       | assumption | apply hk | apply State.unknownConn_keeps | apply State.shtDrop_keeps | apply State.sawCe_keeps
       | apply State.closeDone_keeps | apply kIte)
    | split

theorem State.frontOf_keeps {z0 : State} (s : State) (e : Nat) (ftype : Nat → Bool) (k : State → Delivered → FrameHdr → State) (h_s : z0.Keeps s) (hk : ∀ (y0 : State) (y1 : Delivered) (y2 : FrameHdr), z0.Keeps y0 → z0.Keeps (k y0 y1 y2)) :
    z0.Keeps (State.frontOf s e ftype k) := by
  unfold State.frontOf
  try dsimp only
  repeat' first
    | (with_reducible first
       | assumption | apply hk | apply kIte | (refine kUpd ?_; (refine ofOptP (by assumption) ?_; apply State.takeFront_keeps)))
    | split

theorem execDataFrame_keeps {z0 : State} (engine : Nat) (s : State) (h_s : z0.Keeps s) :
    State.Keeps.Ans z0 (execDataFrame engine s) := by
  unfold execDataFrame
  try dsimp only
  repeat' first
    | (with_reducible first
       | assumption | intro _ | apply State.shtDrop_keeps | apply State.onConn_keeps | apply State.sequenced_keeps | apply ansWithin
       | apply kIte | (refine kUpd ?_; (refine ofOptP (by assumption) ?_; apply State.takeFront_keeps)))
    | split

theorem execAckFrame_keeps {z0 : State} (engine : Nat) (s : State) (h_s : z0.Keeps s) :
    State.Keeps.Ans z0 (execAckFrame engine s) := by
  unfold execAckFrame
  try dsimp only
  with_reducible repeat' first
    | assumption | intro _ | apply State.frontOf_keeps | apply State.onConn_keeps | apply State.validFrame_keeps
    | apply State.sendAck_keeps | apply ansWithin | apply kIte

theorem execClose_keeps {z0 : State} (engine : Nat) (s : State) (h_s : z0.Keeps s) :
    State.Keeps.Ans z0 (execClose engine s) := by
  unfold execClose
  try dsimp only
  with_reducible repeat' first
    | assumption | intro _ | apply State.frontOf_keeps | apply State.onConn_keeps | apply State.sequenced_keeps | apply ansWithin

theorem execResetReceive_keeps {z0 : State} (engine : Nat) (s : State) (h_s : z0.Keeps s) :
    State.Keeps.Ans z0 (execResetReceive engine s) := by
  unfold execResetReceive
  try dsimp only
  with_reducible repeat' first
    | assumption | intro _ | apply State.frontOf_keeps | apply State.onConn_keeps | apply State.freeConn_keeps | apply State.count_keeps
    | apply ansWithin

theorem execCloseAckSend_keeps {z0 : State} (conn : Nat) (s : State) (h_s : z0.Keeps s) :
    State.Keeps.Ans z0 (execCloseAckSend conn s) := by
  unfold execCloseAckSend
  try dsimp only
  repeat' first | (with_reducible first | assumption | apply State.sendCloseAck_keeps | apply ansWithin | apply kIte) | split

theorem execCloseLingerExpire_keeps {z0 : State} (conn : Nat) (s : State) (h_s : z0.Keeps s) :
    State.Keeps.Ans z0 (execCloseLingerExpire conn s) := by
  unfold execCloseLingerExpire
  try dsimp only
  repeat' first
    | (with_reducible first | assumption | apply State.releaseFrames_keeps | apply State.freeConn_keeps | apply ansWithin | apply kIte)
    | split

theorem execOpenTimeout_keeps {z0 : State} (conn : Nat) (s : State) (h_s : z0.Keeps s) :
    State.Keeps.Ans z0 (execOpenTimeout conn s) := by
  unfold execOpenTimeout
  try dsimp only
  repeat' first | (with_reducible first | assumption | apply State.freeConn_keeps | apply ansWithin | apply kIte) | split

theorem execIdleTimeout_keeps {z0 : State} (conn : Nat) (s : State) (h_s : z0.Keeps s) :
    State.Keeps.Ans z0 (execIdleTimeout conn s) := by
  unfold execIdleTimeout
  try dsimp only
  repeat' first | (with_reducible first | assumption | apply State.resetConn_keeps | apply ansWithin | apply kIte) | split

theorem execAckDelayExpire_keeps {z0 : State} (conn : Nat) (s : State) (h_s : z0.Keeps s) :
    State.Keeps.Ans z0 (execAckDelayExpire conn s) := by
  unfold execAckDelayExpire
  try dsimp only
  repeat' first | (with_reducible first | assumption | apply State.sendAck_keeps | apply ansWithin | apply kIte) | split

theorem execCoalWaitExpire_keeps {z0 : State} (conn : Nat) (s : State) (h_s : z0.Keeps s) :
    State.Keeps.Ans z0 (execCoalWaitExpire conn s) := by
  unfold execCoalWaitExpire
  try dsimp only
  repeat' first | (with_reducible first | assumption | apply State.flushReady_keeps | apply ansWithin | apply kIte) | split

theorem State.sendOpenAck_keeps {z0 : State} (s : State) (id : Nat) (c : Conn) (h_s : z0.Keeps s) :
    z0.Keeps (State.sendOpenAck s id c) := by
  unfold State.sendOpenAck
  try dsimp only
  with_reducible repeat' first | assumption | apply State.queueTx_keeps

theorem State.accept_keeps {z0 : State} (s : State) (d : Delivered) (h : FrameHdr) (h_s : z0.Keeps s) :
    z0.Keeps (State.accept s d h) := by
  unfold State.accept
  try dsimp only
  repeat' first
    | (with_reducible first
       | assumption | apply State.draw_keeps | apply State.sendReset_keeps | apply State.putConn_keeps | apply State.sendOpenAck_keeps
       | apply State.count_keeps | apply kIte | (refine kUpd ?_; apply State.draw_keeps))
    | split

theorem execOpenRx_keeps {z0 : State} (engine : Nat) (s : State) (h_s : z0.Keeps s) :
    State.Keeps.Ans z0 (execOpenRx engine s) := by
  unfold execOpenRx
  try dsimp only
  repeat' first
    | (with_reducible first
       | assumption | apply State.sendReset_keeps | apply State.count_keeps | apply State.shtDrop_keeps | apply State.sendOpenAck_keeps
       | apply State.accept_keeps | apply ansWithin | apply kIte
       | (refine kUpd ?_; (refine ofOptP (by assumption) ?_; apply State.takeFront_keeps)))
    | split

theorem State.sendNoticeFrame_keeps {z0 : State} (s : State) (id : Nat) (c : Conn) (n : Notice) (h_s : z0.Keeps s) :
    z0.Keeps (State.sendNoticeFrame s id c n) := by
  unfold State.sendNoticeFrame
  try dsimp only
  with_reducible repeat' first | assumption | apply State.sendConn_keeps

theorem State.noticeFor_keeps {z0 : State} (s : State) (dev : Nat) (id : Nat) (kind : Nat) (payload : List Byte) (h_s : z0.Keeps s) :
    z0.Keeps (State.noticeFor s dev id kind payload) := by
  unfold State.noticeFor
  try dsimp only
  repeat' first
    | (with_reducible first | assumption | apply State.sendNoticeFrame_keeps | apply State.modConn_keeps | apply State.count_keeps)
    | split

theorem State.notice_keeps {z0 : State} (s : State) (id : Nat) (kind : Nat) (payload : List Byte) (h_s : z0.Keeps s) :
    z0.Keeps (State.notice s id kind payload) := by
  unfold State.notice
  try dsimp only
  with_reducible repeat' first | assumption | apply State.noticeFor_keeps

theorem State.noticeCredit_keeps {z0 : State} (s : State) (id : Nat) (limit : Nat) (cause : Nat) (h_s : z0.Keeps s) :
    z0.Keeps (State.noticeCredit s id limit cause) := by
  unfold State.noticeCredit
  try dsimp only
  repeat' first | (with_reducible first | assumption | apply State.notice_keeps | apply State.modConn_keeps) | split

theorem State.slowFor_keeps {z0 : State} (s : State) (dev : Nat) (id : Nat) (cause : Nat) (graceMs : Nat) (stitchRate : Nat) (byteRate : Nat) (h_s : z0.Keeps s) :
    z0.Keeps (State.slowFor s dev id cause graceMs stitchRate byteRate) := by
  unfold State.slowFor
  try dsimp only
  with_reducible repeat' first | assumption | apply State.noticeFor_keeps | apply State.modConn_keeps

theorem State.slowTo_keeps {z0 : State} (s : State) (id : Nat) (cause : Nat) (graceMs : Nat) (stitchRate : Nat) (byteRate : Nat) (h_s : z0.Keeps s) :
    z0.Keeps (State.slowTo s id cause graceMs stitchRate byteRate) := by
  unfold State.slowTo
  try dsimp only
  with_reducible repeat' first | assumption | apply State.slowFor_keeps

theorem State.slowLiftFor_keeps {z0 : State} (s : State) (dev : Nat) (id : Nat) (h_s : z0.Keeps s) :
    z0.Keeps (State.slowLiftFor s dev id) := by
  unfold State.slowLiftFor
  try dsimp only
  repeat' first | (with_reducible first | assumption | apply State.modConn_keeps | apply State.slowFor_keeps) | split

theorem State.slowLift_keeps {z0 : State} (s : State) (id : Nat) (h_s : z0.Keeps s) :
    z0.Keeps (State.slowLift s id) := by
  unfold State.slowLift
  try dsimp only
  with_reducible repeat' first | assumption | apply State.slowLiftFor_keeps

theorem State.slowShare_keeps {z0 : State} (s : State) (dev : Nat) (id : Nat) (cause : Nat) (graceMs : Nat) (share : Nat) (h_s : z0.Keeps s) :
    z0.Keeps (State.slowShare s dev id cause graceMs share) := by
  unfold State.slowShare
  try dsimp only
  repeat' first | (with_reducible first | assumption | apply State.putConn_keeps | apply State.slowFor_keeps) | split

theorem State.cutCredit_keeps {z0 : State} (s : State) (id : Nat) (c : Conn) (h_s : z0.Keeps s) :
    z0.Keeps (State.cutCredit s id c) := by
  unfold State.cutCredit
  try dsimp only
  with_reducible repeat' first
    | assumption | apply State.noticeCredit_keeps | apply State.count_keeps | apply State.modConn_keeps | apply kIte

theorem execSlowGraceExpire_keeps {z0 : State} (conn : Nat) (s : State) (h_s : z0.Keeps s) :
    State.Keeps.Ans z0 (execSlowGraceExpire conn s) := by
  unfold execSlowGraceExpire
  try dsimp only
  repeat' first
    | (with_reducible first | assumption | apply State.cutCredit_keeps | apply State.modConn_keeps | apply ansWithin | apply kIte)
    | split

theorem execCreditCutRepeat_keeps {z0 : State} (conn : Nat) (s : State) (h_s : z0.Keeps s) :
    State.Keeps.Ans z0 (execCreditCutRepeat conn s) := by
  unfold execCreditCutRepeat
  try dsimp only
  repeat' first
    | (with_reducible first | assumption | apply State.cutCredit_keeps | apply State.modConn_keeps | apply ansWithin | apply kIte)
    | split

theorem execNoticeRtoExpire_keeps {z0 : State} (conn : Nat) (s : State) (h_s : z0.Keeps s) :
    State.Keeps.Ans z0 (execNoticeRtoExpire conn s) := by
  unfold execNoticeRtoExpire
  try dsimp only
  repeat' first
    | (with_reducible first
       | assumption | apply State.resetConn_keeps | apply State.sendNoticeFrame_keeps | apply State.modConn_keeps
       | apply State.count_keeps | apply ansWithin | apply kIte)
    | split

/-! ### Machine/Lines.lean -/

theorem State.bumpMinor_keeps {z0 : State} (s : State) (ln : Nat) (l : Nat) (h_s : z0.Keeps s) :
    z0.Keeps (State.bumpMinor s ln l) := by
  unfold State.bumpMinor
  try dsimp only
  with_reducible repeat' first | (refine kUpd ?_; assumption)

theorem State.sealLine_keeps {z0 : State} (s : State) (ln : Nat) (l : Nat) (data : LineBits) (poison : BitVec 4) (cause : Nat) (h_s : z0.Keeps s) :
    State.Keeps.OptP z0 (State.sealLine s ln l data poison cause) := by
  unfold State.sealLine
  try dsimp only
  with_reducible repeat' first | assumption | intro _ | apply State.bumpMinor_keeps | apply optPMap

theorem State.touchWay_keeps {z0 : State} (s : State) (slot : Nat) (w : Nat) (h_s : z0.Keeps s) :
    z0.Keeps (State.touchWay s slot w) := by
  unfold State.touchWay
  try dsimp only
  with_reducible repeat' first | (refine kUpd ?_; assumption)

theorem State.dropAgents_keeps {z0 : State} (s : State) (ln : Nat) (dir : List (Nat × CohSt)) (h_s : z0.Keeps s) :
    z0.Keeps (State.dropAgents s ln dir) := by
  unfold State.dropAgents
  try dsimp only
  with_reducible repeat' first | (refine kUpd ?_; assumption)

theorem State.sampleHeat_keeps {z0 : State} (s : State) (ln : Nat) (write : Bool) (h_s : z0.Keeps s) :
    z0.Keeps (State.sampleHeat s ln write) := by
  unfold State.sampleHeat
  try dsimp only
  repeat' first | (with_reducible first | assumption | (refine kUpd ?_; assumption)) | split

theorem State.toEvb_keeps {z0 : State} (s : State) (ln : Nat) (l : LlcLine) (h_s : z0.Keeps s) :
    z0.Keeps (State.toEvb s ln l) := by
  unfold State.toEvb
  try dsimp only
  with_reducible repeat' first | assumption | apply State.sampleHeat_keeps | (refine kUpd ?_; apply kIte)

theorem State.evictTo_keeps {z0 : State} (s : State) (ln : Nat) (l : LlcLine) (h_s : z0.Keeps s) :
    z0.Keeps (State.evictTo s ln l) := by
  unfold State.evictTo
  try dsimp only
  with_reducible repeat' first | assumption | apply State.dropAgents_keeps | apply State.count_keeps | apply State.toEvb_keeps | apply kIte

theorem State.allocWay_keeps {z0 : State} (s : State) (slot : Nat) (h_s : z0.Keeps s) :
    State.Keeps.OptP z0 (State.allocWay s slot) := by
  unfold State.allocWay
  try dsimp only
  repeat' first | (with_reducible first | assumption | apply State.evictTo_keeps | exact optPNone | apply optPSome | apply optPIte) | split

theorem State.putLine_keeps {z0 : State} (s : State) (ln : Nat) (l : LlcLine) (h_s : z0.Keeps s) :
    z0.Keeps (State.putLine s ln l) := by
  unfold State.putLine
  try dsimp only
  with_reducible repeat' first | apply kIte | (refine kUpd ?_; assumption)

theorem State.install_keeps {z0 : State} (s : State) (ln : Nat) (data : LineBits) (dirty : BitVec 4) (poison : BitVec 4) (cause : Nat) (h_s : z0.Keeps s) :
    z0.Keeps (State.install s ln data dirty poison cause) := by
  unfold State.install
  try dsimp only
  repeat' first
    | (with_reducible first
       | assumption | apply State.touchWay_keeps | apply State.count_keeps
       | (refine kUpd ?_; first | assumption | (refine ofOptP (by assumption) ?_; apply State.allocWay_keeps)))
    | split

theorem State.poisonSet_keeps {z0 : State} (s : State) (l : Nat) (sectors : BitVec 4) (cause : Nat) (h_s : z0.Keeps s) :
    z0.Keeps (State.poisonSet s l sectors cause) := by
  unfold State.poisonSet
  try dsimp only
  with_reducible repeat' first | assumption | apply State.raise_keeps | apply State.wr_keeps | apply State.count_keeps

theorem State.poisonLine_keeps {z0 : State} (s : State) (ln : Nat) (cause : Nat) (h_s : z0.Keeps s) :
    z0.Keeps (State.poisonLine s ln cause) := by
  unfold State.poisonLine
  try dsimp only
  with_reducible repeat' first | assumption | apply State.poisonSet_keeps | (refine kUpd ?_; apply State.install_keeps)

theorem State.homeWrite_keeps {z0 : State} (s : State) (ln : Nat) (lo : Nat) (bytes : List Byte) (h_s : z0.Keeps s) :
    z0.Keeps (State.homeWrite s ln lo bytes) := by
  unfold State.homeWrite
  try dsimp only
  repeat' first
    | (with_reducible first
       | assumption | apply State.dropAgents_keeps | apply State.count_keeps | apply State.install_keeps | apply State.touchWay_keeps
       | apply kIte | (refine kUpd ?_; apply State.putLine_keeps))
    | split

theorem State.noteWrite_keeps {z0 : State} (s : State) (ln : Nat) (h_s : z0.Keeps s) :
    z0.Keeps (State.noteWrite s ln) := by
  unfold State.noteWrite
  try dsimp only
  with_reducible repeat' first | (refine kUpd ?_; assumption)

theorem State.writeRange_keeps {z0 : State} (s0 : State) (addr : Nat) (bytes : List Byte) (h_s0 : z0.Keeps s0) :
    z0.Keeps (State.writeRange s0 addr bytes) := by
  unfold State.writeRange
  try dsimp only
  with_reducible repeat' first | assumption | intro _ | apply State.noteWrite_keeps | apply State.homeWrite_keeps | apply kFoldl

/-! ### Machine/Ports.lean -/

theorem State.payPort_keeps {z0 : State} (s : State) (p : Nat) (h_s : z0.Keeps s) :
    z0.Keeps (State.payPort s p) := by
  unfold State.payPort
  try dsimp only
  with_reducible repeat' first | assumption | apply kIte | (refine kUpd ?_; assumption)

theorem State.regulate_keeps {z0 : State} (s : State) (p : Nat) (h_s : z0.Keeps s) :
    z0.Keeps (State.regulate s p) := by
  unfold State.regulate
  try dsimp only
  with_reducible repeat' first | apply State.count_keeps | apply kIte | (refine kUpd ?_; assumption)

theorem State.serveReq_keeps {z0 : State} (s : State) (r : DramReq) (h_s : z0.Keeps s) :
    z0.Keeps (State.serveReq s r) := by
  unfold State.serveReq
  try dsimp only
  with_reducible repeat' first
    | apply State.payPort_keeps | apply State.count_keeps | apply kIte | (refine kUpd ?_; first | assumption | apply State.count_keeps)

theorem State.drainOne_keeps {z0 : State} (s : State) (g : Nat) (left : Nat) (h_s : z0.Keeps s) :
    z0.Keeps (State.drainOne s g left) := by
  unfold State.drainOne
  try dsimp only
  with_reducible repeat' first | (refine kUpd ?_; assumption)

theorem State.dramStep_keeps {z0 : State} (s : State) (h_s : z0.Keeps s) :
    State.Keeps.Opt z0 (State.dramStep s) := by
  unfold State.dramStep
  try dsimp only
  repeat' first
    | (with_reducible first
       | assumption | intro _ | apply State.drainOne_keeps | apply State.serveReq_keeps | apply optSome | apply optMap
       | (refine kUpd ?_; assumption))
    | split

theorem State.arbitrate_keeps {z0 : State} (s : State) (r0 : Nat) (h_s : z0.Keeps s) :
    z0.Keeps (State.arbitrate s r0) := by
  induction r0 generalizing s with
  | zero =>
    unfold State.arbitrate
    try dsimp only
    repeat' first
      | (with_reducible first | assumption | (refine kUpd ?_; (refine ofOpt (by assumption) ?_; apply State.dramStep_keeps)))
      | split
  | succ _ ih =>
    unfold State.arbitrate
    try dsimp only
    repeat' first
      | (with_reducible first | assumption | apply ih | (refine kUpd ?_; (refine ofOpt (by assumption) ?_; apply State.dramStep_keeps)))
      | split

theorem State.serveDram_keeps {z0 : State} (s : State) (h_s : z0.Keeps s) :
    z0.Keeps (State.serveDram s) := by
  unfold State.serveDram
  try dsimp only
  with_reducible repeat' first | assumption | apply State.arbitrate_keeps

theorem State.dramAccess_keeps {z0 : State} (s : State) (port : Nat) (write : Bool) (addr : Nat) (line : Option Nat := none) (h_s : z0.Keeps s) :
    z0.Keeps (State.dramAccess s port write addr line) := by
  unfold State.dramAccess
  try dsimp only
  with_reducible repeat' first | apply State.count_keeps | apply State.serveDram_keeps | apply kIte | (refine kUpd ?_; assumption)

theorem State.pauseGroup_keeps {z0 : State} (s : State) (g : Nat) (h_s : z0.Keeps s) :
    z0.Keeps (State.pauseGroup s g) := by
  unfold State.pauseGroup
  try dsimp only
  with_reducible repeat' first | apply State.count_keeps | apply State.setFlag_keeps | apply kIte | (refine kUpd ?_; assumption)

theorem State.resumeGroup_keeps {z0 : State} (s : State) (g : Nat) (h_s : z0.Keeps s) :
    z0.Keeps (State.resumeGroup s g) := by
  unfold State.resumeGroup
  try dsimp only
  with_reducible repeat' first | assumption | apply State.clrFlag_keeps | apply kIte | (refine kUpd ?_; apply State.clrFlag_keeps)

theorem State.dramTick_keeps {z0 : State} (s : State) (h_s : z0.Keeps s) :
    z0.Keeps (State.dramTick s) := by
  unfold State.dramTick
  try dsimp only
  with_reducible repeat' first
    | assumption | intro _ | apply State.regulate_keeps | apply State.resumeGroup_keeps | apply State.serveDram_keeps | apply kIte
    | apply kFoldl

/-! ### Machine/Alarm.lean -/

theorem State.putKey_keeps {z0 : State} (s : State) (id : Nat) (k : KeySlot) (h_s : z0.Keeps s) :
    z0.Keeps (State.putKey s id k) := by
  unfold State.putKey
  try dsimp only
  with_reducible repeat' first | (refine kUpd ?_; assumption)

theorem State.alarmCount_keeps {z0 : State} (s : State) (code : Nat) (keyId : Nat) (h_s : z0.Keeps s) :
    z0.Keeps (State.alarmCount s code keyId).2 := by
  unfold State.alarmCount
  try dsimp only
  with_reducible repeat' first | (refine kUpd ?_; assumption)

theorem State.alarmNotice_keeps {z0 : State} (s : State) (dev : Nat) (conn : Nat) (code : Nat) (keyId : Nat) (addr : Nat) (range : Nat) (h_s : z0.Keeps s) :
    z0.Keeps (State.alarmNotice s dev conn code keyId addr range) := by
  unfold State.alarmNotice
  try dsimp only
  with_reducible repeat' first | assumption | apply State.noticeFor_keeps | (refine kUpd ?_; apply State.count_keeps)

theorem State.alarmTo_keeps {z0 : State} (s : State) (dev : Nat) (conn : Nat) (code : Nat) (keyId : Nat) (addr : Nat) (range : Nat) (h_s : z0.Keeps s) :
    z0.Keeps (State.alarmTo s dev conn code keyId addr range) := by
  unfold State.alarmTo
  try dsimp only
  with_reducible repeat' first | assumption | apply State.alarmNotice_keeps | apply kIte | (refine kUpd ?_; assumption)

theorem State.alarmBare_keeps {z0 : State} (s : State) (code : Nat) (src : Nat) (keyId : Nat) (val : Nat) (addr : Nat) (range : Nat) (h_s : z0.Keeps s) :
    z0.Keeps (State.alarmBare s code src keyId val addr range) := by
  unfold State.alarmBare
  try dsimp only
  with_reducible repeat' first
    | assumption | intro _ | apply State.setFlag_keeps | apply State.raise_keeps | apply State.alarmCount_keeps
    | apply State.alarmTo_keeps | apply State.report_keeps | apply kIte | apply kFoldl

theorem State.lockKey_keeps {z0 : State} (s : State) (keyId : Nat) (addr : Nat) (h_s : z0.Keeps s) :
    z0.Keeps (State.lockKey s keyId addr) := by
  unfold State.lockKey
  try dsimp only
  with_reducible repeat' first
    | assumption | apply State.putKey_keeps | apply State.alarmBare_keeps | apply State.sendAll_keeps | apply State.report_keeps
    | apply kIte

theorem State.attack_keeps {z0 : State} (s : State) (keyId : Nat) (addr : Nat) (h_s : z0.Keeps s) :
    z0.Keeps (State.attack s keyId addr) := by
  unfold State.attack
  try dsimp only
  with_reducible repeat' first | assumption | apply State.putKey_keeps | apply State.lockKey_keeps | apply kIte

theorem State.alarm_keeps {z0 : State} (s : State) (code : Nat) (keyId : Nat) (val : Nat) (addr : Nat) (range : Nat) (h_s : z0.Keeps s) :
    z0.Keeps (State.alarm s code keyId val addr range) := by
  unfold State.alarm
  try dsimp only
  with_reducible repeat' first | assumption | apply State.alarmBare_keeps | apply State.attack_keeps | apply kIte

theorem State.tagFail_keeps {z0 : State} (s : State) (ln : Nat) (h_s : z0.Keeps s) :
    z0.Keeps (State.tagFail s ln) := by
  unfold State.tagFail
  try dsimp only
  with_reducible repeat' first | assumption | apply State.count_keeps | apply State.alarm_keeps

theorem execNoticeGapEnd_keeps {z0 : State} (conn : Nat) (code : Nat) (keyId : Nat) (s : State) (h_s : z0.Keeps s) :
    State.Keeps.Ans z0 (execNoticeGapEnd conn code keyId s) := by
  unfold execNoticeGapEnd
  try dsimp only
  repeat' first
    | (with_reducible first | assumption | apply State.alarmNotice_keeps | apply ansWithin | apply kIte | (refine kUpd ?_; assumption))
    | split

end Sys2Proof.Machine
end

