-- ==== Sys2Proof/Laws/KeepsMem.lean ====
section
/-!
SUPPORT. What the operations keep (Laws/Keeps.lean): lines, placement, the medium, DRAM, cache and coherence.
-/
namespace Sys2Proof.Machine
set_option Elab.async false
open State.Keeps

/-! ### Machine/Fill.lean -/

theorem State.issueSense_keeps {z0 : State} (s : State) (ln : Nat) (p : Nat) (r : Reader) (h_s : z0.Keeps s) :
    z0.Keeps (State.issueSense s ln p r) := by
  unfold State.issueSense
  try dsimp only
  repeat' first
    | (with_reducible first | assumption | intro _ | apply State.count_keeps | apply kIte | apply kFoldl | (refine kUpd ?_; assumption))
    | split

theorem State.rebuildNode_keeps {z0 : State} (s : State) (ln : Nat) (l : Nat) (lv : Nat) (h_s : z0.Keeps s) :
    z0.Keeps (State.rebuildNode s ln l lv) := by
  unfold State.rebuildNode
  try dsimp only
  repeat' first
    | (with_reducible first
       | assumption | intro _ | apply State.poisonLine_keeps | apply State.count_keeps | apply State.wr_keeps | apply State.alarm_keeps
       | apply kFoldl | (refine kUpd ?_; assumption))
    | split

theorem State.nodeFails_keeps {z0 : State} (s : State) (ln : Nat) (n : Nat) (lv : Nat) (h_s : z0.Keeps s) :
    z0.Keeps (State.nodeFails s ln n lv) := by
  unfold State.nodeFails
  try dsimp only
  with_reducible repeat' first | apply State.count_keeps | apply State.alarm_keeps | (refine kUpd ?_; assumption)

theorem State.loseNode_keeps {z0 : State} (s : State) (ln : Nat) (l : Nat) (h_s : z0.Keeps s) :
    z0.Keeps (State.loseNode s ln l) := by
  unfold State.loseNode
  try dsimp only
  repeat' first | (with_reducible first | assumption | apply State.rebuildNode_keeps | apply State.nodeFails_keeps | apply kIte) | split

theorem State.prefetch_keeps {z0 : State} (s : State) (ln : Nat) (l : Nat) (h_s : z0.Keeps s) :
    z0.Keeps (State.prefetch s ln l) := by
  unfold State.prefetch
  try dsimp only
  repeat' first
    | (with_reducible first | assumption | intro _ | apply State.issueSense_keeps | apply State.count_keeps | apply kIte | apply kFoldl)
    | split

theorem State.startFill_keeps {z0 : State} (s : State) (ln : Nat) (r : Reader) (h_s : z0.Keeps s) :
    z0.Keeps (State.startFill s ln r).2 := by
  unfold State.startFill
  try dsimp only
  repeat' first
    | (with_reducible first
       | assumption | apply State.count_keeps | apply State.loseNode_keeps | apply State.sampleHeat_keeps | apply State.dramAccess_keeps
       | apply State.install_keeps | apply State.issueSense_keeps | apply State.prefetch_keeps | apply iteP | apply kIte)
    | dsimp only
    | (with_reducible refine kUpd ?_; with_reducible apply State.count_keeps)
    | split

theorem State.modOp_keeps {z0 : State} (s : State) (id : Nat) (f : Op → Op) (h_s : z0.Keeps s) :
    z0.Keeps (State.modOp s id f) := by
  unfold State.modOp
  try dsimp only
  with_reducible repeat' first | (refine kUpd ?_; assumption)

theorem State.finishOp_keeps {z0 : State} (s : State) (id : Nat) (r : Response) (h_s : z0.Keeps s) :
    z0.Keeps (State.finishOp s id r) := by
  unfold State.finishOp
  try dsimp only
  with_reducible repeat' first | assumption | apply State.modOp_keeps

theorem State.failOp_keeps {z0 : State} (s : State) (id : Nat) (st : Status) (h_s : z0.Keeps s) :
    z0.Keeps (State.failOp s id st) := by
  unfold State.failOp
  try dsimp only
  with_reducible repeat' first | assumption | apply State.modOp_keeps

theorem State.noteShadow_keeps {z0 : State} (s : State) (ln : Nat) (st : Status) (h_s : z0.Keeps s) :
    z0.Keeps (State.noteShadow s ln st) := by
  unfold State.noteShadow
  try dsimp only
  with_reducible repeat' first | assumption | apply kIte | (refine kUpd ?_; assumption)

theorem State.noteFail_keeps {z0 : State} (s0 : State) (ln : Nat) (st : Status) (h_s0 : z0.Keeps s0) :
    z0.Keeps (State.noteFail s0 ln st) := by
  unfold State.noteFail
  try dsimp only
  with_reducible repeat' first | assumption | (refine kUpd ?_; apply State.noteShadow_keeps)

/-! ### Machine/Stitch.lean -/

theorem State.gateWait_keeps {z0 : State} (s : State) (id : Nat) (o : Op) (h_s : z0.Keeps s) :
    z0.Keeps (State.gateWait s id o) := by
  unfold State.gateWait
  try dsimp only
  with_reducible repeat' first | assumption | apply State.modOp_keeps

theorem State.doWrite_keeps {z0 : State} (s : State) (id : Nat) (o : Op) (bytes : List Byte) (h_s : z0.Keeps s) :
    z0.Keeps (State.doWrite s id o bytes) := by
  unfold State.doWrite
  try dsimp only
  repeat' first
    | (with_reducible first | assumption | apply State.failOp_keeps | apply State.writeRange_keeps | apply State.finishOp_keeps)
    | split

theorem State.doRead_keeps {z0 : State} (s : State) (id : Nat) (o : Op) (h_s : z0.Keeps s) :
    z0.Keeps (State.doRead s id o) := by
  unfold State.doRead
  try dsimp only
  with_reducible repeat' first | assumption | apply State.finishOp_keeps | apply kIte | (refine kUpd ?_; assumption)

theorem State.doAtomic_keeps {z0 : State} (s : State) (id : Nat) (o : Op) (h_s : z0.Keeps s) :
    z0.Keeps (State.doAtomic s id o) := by
  unfold State.doAtomic
  try dsimp only
  repeat' first
    | (with_reducible first
       | assumption | apply State.failOp_keeps | apply State.count_keeps | apply State.writeRange_keeps | apply State.finishOp_keeps
       | apply kIte)
    | split

theorem State.doCopy_keeps {z0 : State} (s : State) (id : Nat) (o : Op) (h_s : z0.Keeps s) :
    z0.Keeps (State.doCopy s id o) := by
  unfold State.doCopy
  try dsimp only
  with_reducible repeat' first | assumption | apply State.failOp_keeps | apply State.doWrite_keeps | apply kIte

theorem State.prepareOp_keeps {z0 : State} (s : State) (id : Nat) (o : Op) (h_s : z0.Keeps s) :
    z0.Keeps (State.prepareOp s id o) := by
  unfold State.prepareOp
  try dsimp only
  with_reducible repeat' first | assumption | apply State.finishOp_keeps

theorem State.perform_keeps {z0 : State} (s : State) (id : Nat) (o : Op) (h_s : z0.Keeps s) :
    z0.Keeps (State.perform s id o) := by
  unfold State.perform
  try dsimp only
  repeat' first
    | (with_reducible first
       | assumption | apply State.prepareOp_keeps | apply State.doRead_keeps | apply State.doWrite_keeps | apply State.doAtomic_keeps
       | apply State.doCopy_keeps | apply kIte)
    | split

theorem State.startFills_keeps {z0 : State} (s : State) (id : Nat) (o : Op) (h_s : z0.Keeps s) :
    z0.Keeps (State.startFills s id o) := by
  unfold State.startFills
  try dsimp only
  repeat' first
    | (with_reducible first
       | assumption | intro _ | apply State.modOp_keeps | apply kIte | apply kFoldl
       | (refine kUpd ?_; (refine kSnd (by assumption) ?_; apply State.startFill_keeps)))
    | split

theorem State.resumeOp_keeps {z0 : State} (s : State) (id : Nat) (h_s : z0.Keeps s) :
    z0.Keeps (State.resumeOp s id) := by
  unfold State.resumeOp
  try dsimp only
  repeat' first
    | (with_reducible first | assumption | apply State.failOp_keeps | apply State.perform_keeps | apply State.startFills_keeps | apply kIte)
    | split

theorem State.noteUse_keeps {z0 : State} (s : State) (o : Op) (h_s : z0.Keeps s) :
    z0.Keeps (State.noteUse s o) := by
  unfold State.noteUse
  try dsimp only
  repeat' first | (with_reducible first | assumption | (refine kUpd ?_; assumption)) | split

theorem State.runLocal_keeps {z0 : State} (s : State) (id : Nat) (h_s : z0.Keeps s) :
    z0.Keeps (State.runLocal s id) := by
  unfold State.runLocal
  try dsimp only
  repeat' first
    | (with_reducible first
       | assumption | apply State.gateWait_keeps | apply State.loseNode_keeps | apply State.failOp_keeps | apply State.modOp_keeps
       | apply State.noteUse_keeps | apply State.startFills_keeps | apply State.resumeOp_keeps | apply kIte)
    | split

theorem State.proceed_keeps {z0 : State} (s : State) (id : Nat) (h_s : z0.Keeps s) :
    z0.Keeps (State.proceed s id) := by
  unfold State.proceed
  try dsimp only
  repeat' first | (with_reducible first | assumption | apply State.runLocal_keeps | apply State.resumeOp_keeps | apply kIte) | split

theorem State.resumeOps_keeps {z0 : State} (s : State) (h_s : z0.Keeps s) :
    z0.Keeps (State.resumeOps s) := by
  unfold State.resumeOps
  try dsimp only
  with_reducible repeat' first | assumption | intro _ | apply State.proceed_keeps | apply kFoldl

theorem State.fillGood_keeps {z0 : State} (s : State) (ln : Nat) (data : LineBits) (poison : BitVec 4) (cause : Nat) (h_s : z0.Keeps s) :
    z0.Keeps (State.fillGood s ln data poison cause) := by
  unfold State.fillGood
  try dsimp only
  with_reducible repeat' first | assumption | apply State.resumeOps_keeps | apply State.install_keeps | apply kIte

theorem State.fillBad_keeps {z0 : State} (s : State) (ln : Nat) (st : Status) (cause : Nat) (h_s : z0.Keeps s) :
    z0.Keeps (State.fillBad s ln st cause) := by
  unfold State.fillBad
  try dsimp only
  with_reducible repeat' first
    | assumption | apply State.resumeOps_keeps | apply State.noteFail_keeps | apply State.poisonLine_keeps | apply kIte

/-! ### Machine/Place.lean -/

theorem State.putPrk_keeps {z0 : State} (s : State) (lsw : Nat) (e : Prk) (h_s : z0.Keeps s) :
    z0.Keeps (State.putPrk s lsw e) := by
  unfold State.putPrk
  try dsimp only
  with_reducible repeat' first | (refine kUpd ?_; assumption)

theorem State.putLdg_keeps {z0 : State} (s : State) (ps : Nat) (e : Ldg) (h_s : z0.Keeps s) :
    z0.Keeps (State.putLdg s ps e) := by
  unfold State.putLdg
  try dsimp only
  with_reducible repeat' first | (refine kUpd ?_; assumption)

theorem State.sortPool_keeps {z0 : State} (s : State) (h_s : z0.Keeps s) :
    z0.Keeps (State.sortPool s) := by
  unfold State.sortPool
  try dsimp only
  with_reducible repeat' first | (refine kUpd ?_; assumption)

theorem State.wearSlowFor_keeps {z0 : State} (s : State) (dev : Nat) (rate : Nat) (h_s : z0.Keeps s) :
    z0.Keeps (State.wearSlowFor s dev rate) := by
  unfold State.wearSlowFor
  try dsimp only
  repeat' first
    | (with_reducible first | assumption | intro _ | apply kIte | apply kFoldl | (refine kUpd ?_; apply State.slowFor_keeps))
    | split

theorem State.wearSlow_keeps {z0 : State} (s : State) (rate : Nat) (h_s : z0.Keeps s) :
    z0.Keeps (State.wearSlow s rate) := by
  unfold State.wearSlow
  try dsimp only
  with_reducible repeat' first | assumption | apply State.wearSlowFor_keeps | apply kIte | (refine kUpd ?_; apply State.report_keeps)

theorem State.wearLift_keeps {z0 : State} (s : State) (dev : Nat) (h_s : z0.Keeps s) :
    z0.Keeps (State.wearLift s dev) := by
  unfold State.wearLift
  try dsimp only
  repeat' first
    | (with_reducible first | assumption | intro _ | apply State.slowLiftFor_keeps | apply kIte | (refine kUpd ?_; apply kFoldl))
    | split

theorem State.govWait_keeps {z0 : State} (s : State) (h_s : z0.Keeps s) :
    z0.Keeps (State.govWait s) := by
  unfold State.govWait
  try dsimp only
  with_reducible repeat' first
    | apply State.count_keeps | apply State.setFlag_keeps | apply State.raise_keeps | apply State.wearSlow_keeps | apply kIte
    | (refine kUpd ?_; assumption)

theorem State.takeToken_keeps {z0 : State} (s : State) (h_s : z0.Keeps s) :
    State.Keeps.Opt z0 (State.takeToken s) := by
  unfold State.takeToken
  try dsimp only
  with_reducible repeat' first | exact optNone | apply optSome | apply optIte | (refine kUpd ?_; assumption)

theorem State.govDayStart_keeps {z0 : State} (s : State) (h_s : z0.Keeps s) :
    z0.Keeps (State.govDayStart s) := by
  unfold State.govDayStart
  try dsimp only
  with_reducible repeat' first | apply State.setFld_keeps | apply State.raise_keeps | apply kIte | (refine kUpd ?_; assumption)

theorem State.govTick_keeps {z0 : State} (s : State) (h_s : z0.Keeps s) :
    z0.Keeps (State.govTick s) := by
  unfold State.govTick
  try dsimp only
  with_reducible repeat' first | apply State.setFld_keeps | apply State.putFlag_keeps | (refine kUpd ?_; assumption)

theorem State.govOpen_keeps {z0 : State} (s : State) (h_s : z0.Keeps s) : z0.Keeps (State.govOpen s) := by
  have h : ∀ t : State, z0.Keeps t → z0.Keeps { t with mem := { t.mem with gov := t.mem.gov.burst } } := fun _ ht => State.Keeps.kUpd ht
  exact h _ (State.govTick_keeps _ (State.govDayStart_keeps _ h_s))

theorem State.wearEvent_keeps {z0 : State} (s : State) (t : State) (h_s : z0.Keeps s) (h_t : z0.Keeps t) :
    z0.Keeps (State.wearEvent s t) := by
  unfold State.wearEvent
  try dsimp only
  with_reducible repeat' first | assumption | apply State.raise_keeps | apply kIte

theorem State.addProgs_keeps {z0 : State} (s : State) (ps : Nat) (n : Nat) (h_s : z0.Keeps s) :
    z0.Keeps (State.addProgs s ps n) := by
  unfold State.addProgs
  try dsimp only
  with_reducible repeat' first | assumption | apply State.wearEvent_keeps | apply State.putLdg_keeps

theorem State.uncopy_keeps {z0 : State} (s : State) (p : Nat) (h_s : z0.Keeps s) :
    z0.Keeps (State.uncopy s p) := by
  unfold State.uncopy
  try dsimp only
  with_reducible repeat' first | (refine kUpd ?_; assumption)

theorem State.startProgram_keeps {z0 : State} (s : State) (ln : Nat) (p : Nat) (img : LineImg) (user : Bool) (serial : Bool := false) (h_s : z0.Keeps s) :
    z0.Keeps (State.startProgram s ln p img user serial) := by
  unfold State.startProgram
  try dsimp only
  with_reducible repeat' first | apply State.addProgs_keeps | apply State.uncopy_keeps | (refine kUpd ?_; assumption)

theorem State.convLine_keeps {z0 : State} (s : State) (rekey : Bool) (ln : Nat) (h_s : z0.Keeps s) :
    z0.Keeps (State.convLine s rekey ln) := by
  unfold State.convLine
  try dsimp only
  with_reducible repeat' first | (refine kUpd ?_; assumption)

theorem State.selvedgePast_keeps {z0 : State} (s : State) (n : Nat) (h_s : z0.Keeps s) :
    z0.Keeps (State.selvedgePast s n) := by
  unfold State.selvedgePast
  try dsimp only
  repeat' first
    | (with_reducible first | assumption | apply State.wr_keeps | apply State.setFld_keeps | (refine kUpd ?_; assumption))
    | split

theorem State.convFinish_keeps {z0 : State} (s : State) (n : Nat) (c : NodeConv) (h_s : z0.Keeps s) :
    z0.Keeps (State.convFinish s n c) := by
  unfold State.convFinish
  try dsimp only
  with_reducible repeat' first
    | assumption | intro _ | apply State.convLine_keeps | apply State.selvedgePast_keeps | apply State.count_keeps | apply kIte
    | (refine kUpd ?_; apply kFoldl)

theorem State.convSettle_keeps {z0 : State} (s : State) (h_s : z0.Keeps s) :
    z0.Keeps (State.convSettle s) := by
  unfold State.convSettle
  try dsimp only
  with_reducible repeat' first | assumption | intro _ | apply State.convFinish_keeps | apply kFoldl

theorem State.startConv_keeps {z0 : State} (s : State) (ln : Nat) (l : Nat) (ver : Bool) (rekey : Bool) (h_s : z0.Keeps s) :
    z0.Keeps (State.startConv s ln l ver rekey) := by
  unfold State.startConv
  try dsimp only
  repeat' first
    | (with_reducible first
       | assumption | intro _ | apply State.poisonLine_keeps | apply State.convSettle_keeps | apply kIte | apply kFoldl
       | (refine kUpd ?_; first | assumption | (refine kSnd (by assumption) ?_; apply State.startFill_keeps)))
    | split

theorem State.markCurrent_keeps {z0 : State} (s : State) (ps : Nat) (h_s : z0.Keeps s) :
    z0.Keeps (State.markCurrent s ps) := by
  unfold State.markCurrent
  try dsimp only
  with_reducible repeat' first | (refine kUpd ?_; assumption)

theorem State.startMapping_keeps {z0 : State} (s : State) (lsw : Nat) (h_s : z0.Keeps s) :
    z0.Keeps (State.startMapping s lsw) := by
  unfold State.startMapping
  try dsimp only
  repeat' first
    | (with_reducible first
       | assumption | apply State.setFlag_keeps | apply State.putPrk_keeps | apply kIte | (refine kUpd ?_; apply State.putLdg_keeps))
    | split

theorem State.programTier_keeps {z0 : State} (s : State) (ln : Nat) (t : TierLine) (h_s : z0.Keeps s) :
    State.Keeps.Opt z0 (State.programTier s ln t) := by
  unfold State.programTier
  try dsimp only
  repeat' first
    | (with_reducible first
       | assumption | intro _ | apply State.takeToken_keeps | apply State.dramAccess_keeps | exact optNone | apply optSome | apply optIte
       | apply optMapS | (refine kUpd ?_; apply State.startProgram_keeps))
    | split

theorem State.holdBack_keeps {z0 : State} (s : State) (ln : Nat) (h_s : z0.Keeps s) :
    z0.Keeps (State.holdBack s ln) := by
  unfold State.holdBack
  try dsimp only
  repeat' first | (with_reducible first | assumption | apply State.startMapping_keeps | apply State.govWait_keeps | apply kIte) | split

theorem State.tierSlot_keeps {z0 : State} (s : State) (h_s : z0.Keeps s) :
    z0.Keeps (State.tierSlot s).2 := by
  unfold State.tierSlot
  try dsimp only
  repeat' first
    | (with_reducible first | assumption | apply State.count_keeps | apply State.holdBack_keeps | apply iteP)
    | dsimp only
    | (with_reducible refine kUpd ?_; with_reducible first | apply State.count_keeps | (refine ofOpt (by assumption) ?_; with_reducible apply State.programTier_keeps))
    | split

theorem State.admitClean_keeps {z0 : State} (s : State) (ln : Nat) (l : Nat) (c : LlcLine) (h_s : z0.Keeps s) :
    z0.Keeps (State.admitClean s ln l c) := by
  unfold State.admitClean
  try dsimp only
  repeat' first
    | (with_reducible first
       | assumption | apply State.count_keeps | apply State.dramAccess_keeps
       | (refine kUpd ?_; (refine kSnd (by assumption) ?_; apply State.tierSlot_keeps)))
    | split

theorem State.cleanTier_keeps {z0 : State} (s : State) (floor : Nat) (r0 : Nat) (h_s : z0.Keeps s) :
    z0.Keeps (State.cleanTier s floor r0) := by
  induction r0 generalizing s floor with
  | zero =>
    unfold State.cleanTier
    try dsimp only
    repeat' first
      | (with_reducible first
         | assumption | apply State.count_keeps | apply State.holdBack_keeps | apply kIte
         | (refine kUpd ?_; (refine ofOpt (by assumption) ?_; apply State.programTier_keeps)))
      | split
  | succ _ ih =>
    unfold State.cleanTier
    try dsimp only
    repeat' first
      | (with_reducible first
         | assumption | apply ih | apply State.count_keeps | apply State.holdBack_keeps | apply kIte
         | (refine kUpd ?_; (refine ofOpt (by assumption) ?_; apply State.programTier_keeps)))
      | split

theorem State.cleaner_keeps {z0 : State} (s : State) (h_s : z0.Keeps s) :
    z0.Keeps (State.cleaner s) := by
  unfold State.cleaner
  try dsimp only
  with_reducible repeat' first | assumption | apply kIte | (refine kUpd ?_; first | assumption | apply State.cleanTier_keeps)

theorem State.mappingDone_keeps {z0 : State} (s : State) (lsw : Nat) (h_s : z0.Keeps s) :
    z0.Keeps (State.mappingDone s lsw) := by
  unfold State.mappingDone
  try dsimp only
  repeat' first
    | (with_reducible first
       | assumption | apply State.draw_keeps | apply State.putPrk_keeps | apply State.putLdg_keeps | apply State.markCurrent_keeps
       | apply State.count_keeps | apply State.clrFlag_keeps | apply kIte | (refine kUpd ?_; apply State.addProgs_keeps))
    | split

theorem execMappingFillDone_keeps {z0 : State} (lsw : Nat) (s : State) (h_s : z0.Keeps s) :
    State.Keeps.Ans z0 (execMappingFillDone lsw s) := by
  unfold execMappingFillDone
  try dsimp only
  with_reducible repeat' first | assumption | apply State.mappingDone_keeps | apply ansWithin | apply kIte

theorem State.dropEvb_keeps {z0 : State} (s : State) (ln : Nat) (h_s : z0.Keeps s) :
    z0.Keeps (State.dropEvb s ln) := by
  unfold State.dropEvb
  try dsimp only
  with_reducible repeat' first | (refine kUpd ?_; assumption)

theorem State.slotFor_keeps {z0 : State} (s : State) (ln : Nat) (h_s : z0.Keeps s) :
    z0.Keeps (State.slotFor s ln).2 := by
  unfold State.slotFor
  try dsimp only
  repeat' first | (with_reducible first | assumption | apply State.tierSlot_keeps) | split

theorem State.tierDirty_keeps {z0 : State} (s : State) (ln : Nat) (l : Nat) (c : LlcLine) (h_s : z0.Keeps s) :
    z0.Keeps (State.tierDirty s ln l c).2 := by
  unfold State.tierDirty
  try dsimp only
  repeat' first
    | (with_reducible first | assumption | apply State.dramAccess_keeps | apply State.count_keeps | apply State.cleaner_keeps)
    | dsimp only
    | (with_reducible refine kUpd ?_; with_reducible first | (refine kSnd (by assumption) ?_; with_reducible apply State.slotFor_keeps) | (refine ofOptP (by assumption) ?_; with_reducible apply State.sealLine_keeps))
    | split

theorem State.placeDirty_keeps {z0 : State} (s : State) (ln : Nat) (l : Nat) (c : LlcLine) (h_s : z0.Keeps s) :
    z0.Keeps (State.placeDirty s ln l c).2 := by
  unfold State.placeDirty
  try dsimp only
  repeat' first
    | (with_reducible first
       | assumption | apply State.startConv_keeps | apply State.startMapping_keeps | apply State.takeToken_keeps
       | apply State.startProgram_keeps | apply State.count_keeps | apply State.govWait_keeps | apply State.tierDirty_keeps | apply iteP
       | (refine kUpd ?_; (refine ofOptP (by assumption) ?_; apply State.sealLine_keeps)))
    | split
    | (with_reducible first | apply optSome | (refine ofOpt (by assumption) ?_; first | split | apply optIte | apply optFindSome))

theorem State.placeClean_keeps {z0 : State} (s : State) (ln : Nat) (l : Nat) (c : LlcLine) (h_s : z0.Keeps s) :
    z0.Keeps (State.placeClean s ln l c) := by
  unfold State.placeClean
  try dsimp only
  with_reducible repeat' first | assumption | apply State.count_keeps | apply State.admitClean_keeps | apply kIte

theorem State.evictLine_keeps {z0 : State} (s : State) (ln : Nat) (h_s : z0.Keeps s) :
    z0.Keeps (State.evictLine s ln) := by
  unfold State.evictLine
  try dsimp only
  repeat' first
    | (with_reducible first
       | assumption | apply State.dropEvb_keeps | apply State.count_keeps | apply State.placeClean_keeps | apply State.loseNode_keeps
       | apply State.placeDirty_keeps | apply kIte | (refine kUpd ?_; apply State.dropEvb_keeps))
    | split

theorem execLineEvict_keeps {z0 : State} (line : Nat) (s : State) (h_s : z0.Keeps s) :
    State.Keeps.Ans z0 (execLineEvict line s) := by
  unfold execLineEvict
  try dsimp only
  with_reducible repeat' first | assumption | apply State.evictLine_keeps | apply ansWithin

theorem State.spareFalls_keeps {z0 : State} (s : State) (h_s : z0.Keeps s) :
    z0.Keeps (State.spareFalls s) := by
  unfold State.spareFalls
  try dsimp only
  with_reducible repeat' first
    | assumption | apply State.setFld_keeps | apply State.raise_keeps | apply State.wearSlow_keeps | apply State.report_keeps | apply kIte

theorem State.setRetired_keeps {z0 : State} (s : State) (ps : Nat) (cause : Nat) (h_s : z0.Keeps s) :
    z0.Keeps (State.setRetired s ps cause) := by
  unfold State.setRetired
  try dsimp only
  with_reducible repeat' first
    | assumption | apply State.wearEvent_keeps | apply State.putLdg_keeps | apply State.spareFalls_keeps | apply State.raise_keeps

theorem State.startMove_keeps {z0 : State} (s : State) (lsw : Nat) (young : Bool) (why : MoveWhy) (h_s : z0.Keeps s) :
    State.Keeps.Opt z0 (State.startMove s lsw young why) := by
  unfold State.startMove
  try dsimp only
  repeat' first
    | (with_reducible first
       | assumption | apply State.draw_keeps | apply State.putPrk_keeps | apply State.setFld_keeps | exact optNone | apply optSome
       | (refine kUpd ?_; apply State.putLdg_keeps))
    | split

theorem State.retireSwatch_keeps {z0 : State} (s : State) (ps : Nat) (cause : Nat) (h_s : z0.Keeps s) :
    z0.Keeps (State.retireSwatch s ps cause) := by
  unfold State.retireSwatch
  try dsimp only
  repeat' first
    | (with_reducible first
       | assumption | apply State.setRetired_keeps | apply kIte
       | (refine kUpd ?_; first | assumption | (refine ofOpt (by assumption) ?_; apply State.startMove_keeps)))
    | split

theorem State.retireWaiting_keeps {z0 : State} (s : State) (h_s : z0.Keeps s) :
    z0.Keeps (State.retireWaiting s) := by
  unfold State.retireWaiting
  try dsimp only
  with_reducible repeat' first | assumption | intro _ | apply State.retireSwatch_keeps | apply kFoldl | (refine kUpd ?_; assumption)

theorem State.putCopy'_keeps {z0 : State} (s : State) (mv : Move) (i : Nat) (img : LineImg) (h_s : z0.Keeps s) :
    z0.Keeps (State.putCopy' s mv i img) := by
  unfold State.putCopy'
  try dsimp only
  with_reducible repeat' first | (refine kUpd ?_; assumption)

theorem State.copyLine_keeps {z0 : State} (s : State) (mv : Move) (i : Nat) (h_s : z0.Keeps s) :
    z0.Keeps (State.copyLine s mv i) := by
  unfold State.copyLine
  try dsimp only
  repeat' first | (with_reducible first | assumption | apply State.putCopy'_keeps) | split

theorem State.copyLost_keeps {z0 : State} (s : State) (mv : Move) (i : Nat) (h_s : z0.Keeps s) :
    z0.Keeps (State.copyLost s mv i) := by
  unfold State.copyLost
  try dsimp only
  repeat' first
    | (with_reducible first
       | assumption | apply State.putCopy'_keeps | apply State.poisonSet_keeps | apply State.poisonLine_keeps
       | (refine kUpd ?_; (refine ofOptP (by assumption) ?_; apply State.sealLine_keeps)))
    | split

set_option maxRecDepth 4000 in
theorem State.copyNext_keeps {z0 : State} (s : State) (k : Nat) (mv : Move) (h_s : z0.Keeps s) :
    State.Keeps.Opt z0 (State.copyNext s k mv) := by
  unfold State.copyNext
  try dsimp only
  with_reducible repeat' first
    | assumption | intro _ | apply State.copyLine_keeps | apply State.addProgs_keeps | apply State.count_keeps | exact optNone
    | apply optIte | apply optMap | (refine kUpd ?_; apply kIte)

theorem State.fillNext_keeps {z0 : State} (s : State) (lsw : Nat) (d : Nat) (h_s : z0.Keeps s) :
    State.Keeps.Opt z0 (State.fillNext s lsw d) := by
  unfold State.fillNext
  try dsimp only
  with_reducible repeat' first | apply State.addProgs_keeps | exact optNone | apply optSome | apply optIte | (refine kUpd ?_; assumption)

theorem State.shareNext_keeps {z0 : State} (s : State) (h_s : z0.Keeps s) :
    State.Keeps.Opt z0 (State.shareNext s) := by
  unfold State.shareNext
  try dsimp only
  with_reducible repeat' first
    | assumption | intro _ | apply State.fillNext_keeps | apply State.copyNext_keeps | apply optFindSome | apply optOrElse

theorem State.shareWork_keeps {z0 : State} (s : State) (r0 : Nat) (h_s : z0.Keeps s) :
    z0.Keeps (State.shareWork s r0) := by
  induction r0 generalizing s with
  | zero =>
    unfold State.shareWork
    try dsimp only
    repeat' first
      | (with_reducible first | assumption | apply kIte | (refine kUpd ?_; (refine ofOpt (by assumption) ?_; apply State.shareNext_keeps)))
      | split
  | succ _ ih =>
    unfold State.shareWork
    try dsimp only
    repeat' first
      | (with_reducible first
         | assumption | apply ih | apply kIte | (refine kUpd ?_; (refine ofOpt (by assumption) ?_; apply State.shareNext_keeps)))
      | split

theorem State.retireWork_keeps {z0 : State} (s : State) (r0 : Nat) (h_s : z0.Keeps s) :
    z0.Keeps (State.retireWork s r0) := by
  induction r0 generalizing s with
  | zero =>
    unfold State.retireWork
    try dsimp only
    repeat' first
      | (with_reducible first | assumption | intro _ | apply State.copyNext_keeps)
      | split
      | (with_reducible refine ofOpt (by assumption) ?_; with_reducible first | split | apply optIte | apply optFindSome)
  | succ _ ih =>
    unfold State.retireWork
    try dsimp only
    repeat' first
      | (with_reducible first | assumption | intro _ | apply ih | apply State.copyNext_keeps)
      | split
      | (with_reducible refine ofOpt (by assumption) ?_; with_reducible first | split | apply optIte | apply optFindSome)

theorem State.copyTick_keeps {z0 : State} (s : State) (h_s : z0.Keeps s) :
    z0.Keeps (State.copyTick s) := by
  unfold State.copyTick
  try dsimp only
  with_reducible repeat' first
    | assumption | apply State.shareWork_keeps | apply State.retireWork_keeps | apply kIte | (refine kUpd ?_; assumption)

set_option maxRecDepth 4000 in
theorem execMoveCopyDone_keeps {z0 : State} (slot : Nat) (bad : List Nat) (recopied : Nat) (s : State) (h_s : z0.Keeps s) :
    State.Keeps.Ans z0 (execMoveCopyDone slot bad recopied s) := by
  unfold execMoveCopyDone
  try dsimp only
  repeat' first
    | (with_reducible first
       | assumption | intro _ | apply State.copyLost_keeps | apply State.putPrk_keeps | apply State.markCurrent_keeps | apply ansWithin
       | apply kIte | apply kFoldl | (refine kUpd ?_; apply State.putLdg_keeps))
    | split

theorem execMoveFinish_keeps {z0 : State} (slot : Nat) (s : State) (h_s : z0.Keeps s) :
    State.Keeps.Ans z0 (execMoveFinish slot s) := by
  unfold execMoveFinish
  try dsimp only
  repeat' first
    | (with_reducible first
       | assumption | apply State.putLdg_keeps | apply State.setRetired_keeps | apply State.setFld_keeps | apply State.count_keeps
       | apply State.retireWaiting_keeps | apply ansWithin | apply kIte | (refine kUpd ?_; apply State.putLdg_keeps))
    | split

theorem execMoveTimeout_keeps {z0 : State} (slot : Nat) (copied : Nat) (s : State) (h_s : z0.Keeps s) :
    State.Keeps.Ans z0 (execMoveTimeout slot copied s) := by
  unfold execMoveTimeout
  try dsimp only
  repeat' first
    | (with_reducible first
       | assumption | apply State.putLdg_keeps | apply State.setFld_keeps | apply State.raise_keeps | apply State.retireSwatch_keeps
       | apply ansWithin | apply kIte | (refine kUpd ?_; apply State.putPrk_keeps))
    | split

theorem execHeatHalve_keeps {z0 : State} (s : State) (h_s : z0.Keeps s) :
    State.Keeps.Ans z0 (execHeatHalve s) := by
  unfold execHeatHalve
  try dsimp only
  with_reducible repeat' first | assumption | intro _ | apply State.periodic_keeps | apply ansNext | (refine kUpd ?_; assumption)

theorem State.levelMoves_keeps {z0 : State} (s : State) (h_s : z0.Keeps s) :
    z0.Keeps (State.levelMoves s) := by
  unfold State.levelMoves
  try dsimp only
  with_reducible repeat' first | assumption | intro _ | apply State.startMove_keeps | apply optGetD | apply kIte | apply kFoldl

theorem State.filetMoves_keeps {z0 : State} (s : State) (swatches : List Nat) (h_s : z0.Keeps s) :
    z0.Keeps (State.filetMoves s swatches) := by
  unfold State.filetMoves
  try dsimp only
  with_reducible repeat' first | assumption | intro _ | apply State.startMove_keeps | apply optGetD | apply kIte | apply kFoldl

theorem execLevelPeriod_keeps {z0 : State} (s : State) (h_s : z0.Keeps s) :
    State.Keeps.Ans z0 (execLevelPeriod s) := by
  unfold execLevelPeriod
  try dsimp only
  with_reducible repeat' first
    | assumption | intro _ | apply State.periodic_keeps | apply State.sortPool_keeps | apply State.retireWaiting_keeps
    | apply State.levelMoves_keeps | apply State.filetMoves_keeps | apply ansNext | apply kIte
    | (refine kUpd ?_; apply State.levelMoves_keeps)

theorem State.toTable_keeps {z0 : State} (s : State) (h_s : z0.Keeps s) :
    z0.Keeps (State.toTable s) := by
  unfold State.toTable
  try dsimp only
  with_reducible repeat' first | (refine kUpd ?_; assumption)

theorem execTableCheckpoint_keeps {z0 : State} (s : State) (h_s : z0.Keeps s) :
    State.Keeps.Ans z0 (execTableCheckpoint s) := by
  unfold execTableCheckpoint
  try dsimp only
  with_reducible repeat' first | assumption | intro _ | apply State.periodic_keeps | apply State.toTable_keeps | apply ansNext

theorem execGovDayStart_keeps {z0 : State} (s : State) (h_s : z0.Keeps s) :
    State.Keeps.Ans z0 (execGovDayStart s) := by
  unfold execGovDayStart
  try dsimp only
  with_reducible repeat' first | assumption | intro _ | apply State.periodic_keeps | apply State.govDayStart_keeps | apply ansNext

theorem execGovRelease_keeps {z0 : State} (s : State) (h_s : z0.Keeps s) :
    State.Keeps.Ans z0 (execGovRelease s) := by
  unfold execGovRelease
  try dsimp only
  repeat' first
    | (with_reducible first
       | assumption | apply State.wearLift_keeps | apply State.clrFlag_keeps | apply ansNext | apply kIte
       | (refine kUpd ?_; apply State.report_keeps))
    | split

theorem execWriteWaitTimeout_keeps {z0 : State} (op : Nat) (s : State) (h_s : z0.Keeps s) :
    State.Keeps.Ans z0 (execWriteWaitTimeout op s) := by
  unfold execWriteWaitTimeout
  try dsimp only
  repeat' first
    | (with_reducible first
       | assumption | apply State.failOp_keeps | apply State.count_keeps | apply State.raise_keeps | apply ansNext | apply kIte)
    | split

/-! ### Machine/Media.lean -/

theorem State.putDie_keeps {z0 : State} (s : State) (d : Nat) (x : Die) (h_s : z0.Keeps s) :
    z0.Keeps (State.putDie s d x) := by
  unfold State.putDie
  try dsimp only
  with_reducible repeat' first | apply State.setFld_keeps | (refine kUpd ?_; assumption)

theorem State.reprogram_keeps {z0 : State} (s : State) (ln : Nat) (p : Nat) (img : LineImg) (data : LineBits) (poison : BitVec 4) (cause : Nat) (h_s : z0.Keeps s) :
    z0.Keeps (State.reprogram s ln p img data poison cause) := by
  unfold State.reprogram
  try dsimp only
  with_reducible repeat' first
    | assumption | apply State.count_keeps | apply State.startProgram_keeps | apply kIte | (refine kUpd ?_; apply State.install_keeps)

theorem State.scrubAct_keeps {z0 : State} (s : State) (p : Nat) (l : Nat) (e : Sense) (r : ReadEnd) (h_s : z0.Keeps s) :
    z0.Keeps (State.scrubAct s p l e r) := by
  unfold State.scrubAct
  try dsimp only
  repeat' first
    | (with_reducible first
       | assumption | apply State.count_keeps | apply State.poisonLine_keeps | apply State.tagFail_keeps | apply State.reprogram_keeps
       | apply kIte)
    | split

theorem State.metaEvent_keeps {z0 : State} (s : State) (p : Nat) (h_s : z0.Keeps s) :
    z0.Keeps (State.metaEvent s p) := by
  unfold State.metaEvent
  try dsimp only
  with_reducible repeat' first | assumption | apply State.raise_keeps

theorem State.fillEnd_keeps {z0 : State} (s : State) (ln : Nat) (r : ReadEnd) (h_s : z0.Keeps s) :
    z0.Keeps (State.fillEnd s ln r) := by
  unfold State.fillEnd
  try dsimp only
  repeat' first
    | (with_reducible first
       | assumption | apply State.fillGood_keeps | apply State.fillBad_keeps | apply State.tagFail_keeps | apply State.noteFail_keeps
       | apply State.resumeOps_keeps)
    | split

theorem State.rescored_keeps {z0 : State} (s : State) (ln : Nat) (l : Nat) (h_s : z0.Keeps s) :
    z0.Keeps (State.rescored s ln l) := by
  unfold State.rescored
  try dsimp only
  repeat' first | (with_reducible first | assumption | apply State.admitClean_keeps | apply kIte) | split

theorem State.settleSense_keeps {z0 : State} (s : State) (p : Nat) (h_s : z0.Keeps s) :
    z0.Keeps (State.settleSense s p) := by
  unfold State.settleSense
  try dsimp only
  repeat' first
    | (with_reducible first
       | assumption | intro _ | apply State.resumeOps_keeps | apply State.count_keeps | apply State.metaEvent_keeps
       | apply State.fillEnd_keeps | apply State.rescored_keeps | apply State.scrubAct_keeps | apply State.convSettle_keeps | apply kIte
       | apply kFoldl | (refine kUpd ?_; assumption))
    | split

theorem State.endFrag_keeps {z0 : State} (s : State) (p : Nat) (f : Nat) (o : FragOutcome) (h_s : z0.Keeps s) :
    z0.Keeps (State.endFrag s p f o) := by
  unfold State.endFrag
  try dsimp only
  with_reducible repeat' first | (refine kUpd ?_; assumption)

theorem State.repairLine_keeps {z0 : State} (s : State) (p : Nat) (h_s : z0.Keeps s) :
    z0.Keeps (State.repairLine s p) := by
  unfold State.repairLine
  try dsimp only
  repeat' first
    | (with_reducible first | assumption | apply State.count_keeps | (refine kUpd ?_; (refine kSnd (by assumption) ?_; apply State.bobPush_keeps)))
    | split

theorem State.dieFail_keeps {z0 : State} (s : State) (d : Nat) (cause : Nat) (h_s : z0.Keeps s) :
    z0.Keeps (State.dieFail s d cause) := by
  unfold State.dieFail
  try dsimp only
  repeat' first
    | (with_reducible first
       | assumption | intro _ | apply State.putDie_keeps | apply State.raise_keeps | apply State.wr_keeps | apply State.endFrag_keeps
       | apply State.settleSense_keeps | apply kIte | apply kFoldl | (refine kUpd ?_; apply kFoldl))
    | split

theorem State.dieErasure_keeps {z0 : State} (s : State) (d : Nat) (h_s : z0.Keeps s) :
    z0.Keeps (State.dieErasure s d) := by
  unfold State.dieErasure
  try dsimp only
  with_reducible repeat' first | assumption | apply State.putDie_keeps | apply State.dieFail_keeps | apply kIte

theorem State.fragSensed_keeps {z0 : State} (s : State) (p : Nat) (f : Nat) (e : Sense) (x : FragState) (label : Nat) (okE : Bool) (n : Nat) (out : FragOutcome) (h_s : z0.Keeps s) :
    z0.Keeps (State.fragSensed s p f e x label okE n out) := by
  unfold State.fragSensed
  try dsimp only
  repeat' first
    | (with_reducible first
       | assumption | apply State.count_keeps | apply State.raise_keeps | apply State.endFrag_keeps | apply State.settleSense_keeps
       | apply State.repairLine_keeps | apply State.dieErasure_keeps | apply kIte | (refine kUpd ?_; apply kIte))
    | split

theorem execSenseComplete_keeps {z0 : State} (p : Nat) (f : Nat) (cells : List Int) (epochCells : List Int) (s : State) (h_s : z0.Keeps s) :
    State.Keeps.Ans z0 (execSenseComplete p f cells epochCells s) := by
  unfold execSenseComplete
  try dsimp only
  repeat' first | (with_reducible first | assumption | apply State.fragSensed_keeps | apply ansWithin | apply kIte) | split

theorem execRowOpenTimeout_keeps {z0 : State} (p : Nat) (f : Nat) (s : State) (h_s : z0.Keeps s) :
    State.Keeps.Ans z0 (execRowOpenTimeout p f s) := by
  unfold execRowOpenTimeout
  try dsimp only
  repeat' first | (with_reducible first | assumption | apply ansWithin | apply kIte | (refine kUpd ?_; assumption)) | split

theorem State.settleProgram_keeps {z0 : State} (s : State) (p : Nat) (h_s : z0.Keeps s) :
    z0.Keeps (State.settleProgram s p) := by
  unfold State.settleProgram
  try dsimp only
  repeat' first | (with_reducible first | assumption | apply State.resumeOps_keeps | apply kIte | (refine kUpd ?_; assumption)) | split

theorem State.remapRow_keeps {z0 : State} (s : State) (d : Nat) (bank : Nat) (row : Nat) (pulses : Nat) (h_s : z0.Keeps s) :
    z0.Keeps (State.remapRow s d bank row pulses) := by
  unfold State.remapRow
  try dsimp only
  with_reducible repeat' first | apply State.count_keeps | apply State.raise_keeps | apply kIte | (refine kUpd ?_; assumption)

theorem execProgramComplete_keeps {z0 : State} (p : Nat) (f : Nat) (outside : List Nat) (pulses : Nat) (s : State) (h_s : z0.Keeps s) :
    State.Keeps.Ans z0 (execProgramComplete p f outside pulses s) := by
  unfold execProgramComplete
  try dsimp only
  repeat' first
    | (with_reducible first
       | assumption | apply State.count_keeps | apply State.remapRow_keeps | apply State.settleProgram_keeps
       | apply State.retireSwatch_keeps | apply ansWithin | apply kIte | (refine kUpd ?_; first | apply State.count_keeps | apply kIte))
    | split

theorem State.tryAdvance_keeps {z0 : State} (s : State) (h_s : z0.Keeps s) :
    z0.Keeps (State.tryAdvance s) := by
  unfold State.tryAdvance
  try dsimp only
  with_reducible repeat' first
    | assumption | apply State.setFlag_keeps | apply State.raise_keeps | apply State.arm_keeps | apply State.disarm_keeps | apply kIte
    | (refine kUpd ?_; assumption)

theorem execEpochPeriodEnd_keeps {z0 : State} (s : State) (h_s : z0.Keeps s) :
    State.Keeps.Ans z0 (execEpochPeriodEnd s) := by
  unfold execEpochPeriodEnd
  try dsimp only
  with_reducible repeat' first | assumption | apply State.disarm_keeps | apply State.tryAdvance_keeps | apply ansNext | apply kIte

theorem execEpochRecheck_keeps {z0 : State} (s : State) (h_s : z0.Keeps s) :
    State.Keeps.Ans z0 (execEpochRecheck s) := by
  unfold execEpochRecheck
  try dsimp only
  with_reducible repeat' first | assumption | apply State.tryAdvance_keeps | apply ansNext | apply kIte

theorem State.witnessFail_keeps {z0 : State} (s : State) (L : Nat) (x : Nat × Nat) (h_s : z0.Keeps s) :
    z0.Keeps (State.witnessFail s L x) := by
  unfold State.witnessFail
  try dsimp only
  with_reducible repeat' first | apply kIte | (refine kUpd ?_; assumption)

theorem execWitnessProgramDone_keeps {z0 : State} (s : State) (h_s : z0.Keeps s) :
    State.Keeps.Ans z0 (execWitnessProgramDone s) := by
  unfold execWitnessProgramDone
  try dsimp only
  with_reducible repeat' first
    | assumption | intro _ | apply State.saturate_keeps | apply State.setFld_keeps | apply State.clrFlag_keeps
    | apply State.witnessFail_keeps | apply State.arm_keeps | apply ansNext | apply kIte | apply kFoldl | (refine kUpd ?_; assumption)

theorem State.showSweep_keeps {z0 : State} (s : State) (d : Nat) (label : Nat) (plane : Nat) (fail : Bool) (hist : List Nat) (h_s : z0.Keeps s) :
    z0.Keeps (State.showSweep s d label plane fail hist) := by
  unfold State.showSweep
  try dsimp only
  with_reducible repeat' first | (refine kUpd ?_; assumption)

theorem State.refit_keeps {z0 : State} (s : State) (sweeps : List Sweep) (d : Nat) (label : Nat) (h_s : z0.Keeps s) :
    z0.Keeps (State.refit s sweeps d label) := by
  unfold State.refit
  try dsimp only
  with_reducible repeat' first | apply State.showSweep_keeps | apply State.raise_keeps | apply kIte | (refine kUpd ?_; assumption)

theorem State.setFallback_keeps {z0 : State} (s : State) (h_s : z0.Keeps s) :
    z0.Keeps (State.setFallback s) := by
  unfold State.setFallback
  try dsimp only
  repeat' first | (with_reducible first | assumption | apply State.setFld_keeps) | split

theorem State.refitAll_keeps {z0 : State} (s : State) (sweeps : List Sweep) (h_s : z0.Keeps s) :
    z0.Keeps (State.refitAll s sweeps) := by
  unfold State.refitAll
  try dsimp only
  with_reducible repeat' first | assumption | intro _ | apply State.refit_keeps | apply State.setFallback_keeps | apply kFoldl

theorem execLadderRefit_keeps {z0 : State} (sweeps : List Sweep) (s : State) (h_s : z0.Keeps s) :
    State.Keeps.Ans z0 (execLadderRefit sweeps s) := by
  unfold execLadderRefit
  try dsimp only
  with_reducible repeat' first | assumption | intro _ | apply State.periodic_keeps | apply State.refitAll_keeps | apply ansNext | apply kIte

theorem State.newSet_keeps {z0 : State} (s : State) (d : Nat) (band : Nat) (h_s : z0.Keeps s) :
    z0.Keeps (State.newSet s d band) := by
  unfold State.newSet
  try dsimp only
  with_reducible repeat' first | (refine kUpd ?_; assumption)

theorem execBandUpdate_keeps {z0 : State} (s : State) (h_s : z0.Keeps s) :
    State.Keeps.Ans z0 (execBandUpdate s) := by
  unfold execBandUpdate
  try dsimp only
  with_reducible repeat' first
    | assumption | intro _ | apply State.periodic_keeps | apply State.setFld_keeps | apply State.newSet_keeps | apply ansNext | apply kIte
    | apply kFoldl

theorem State.stackDown_keeps {z0 : State} (s : State) (k : Nat) (h_s : z0.Keeps s) :
    z0.Keeps (State.stackDown s k) := by
  unfold State.stackDown
  try dsimp only
  with_reducible repeat' first
    | assumption | intro _ | apply State.clrFlag_keeps | apply State.setFlag_keeps | apply State.dieFail_keeps | apply State.raise_keeps
    | apply kIte | apply kFoldl | (refine kUpd ?_; apply State.clrFlag_keeps)

theorem State.tilesBack_keeps {z0 : State} (s : State) (k : Nat) (h_s : z0.Keeps s) :
    z0.Keeps (State.tilesBack s k) := by
  unfold State.tilesBack
  try dsimp only
  with_reducible repeat' first | (refine kUpd ?_; assumption)

theorem execFlitCrcFail_keeps {z0 : State} (stack : Nat) (same : Bool) (s : State) (h_s : z0.Keeps s) :
    State.Keeps.Ans z0 (execFlitCrcFail stack same s) := by
  unfold execFlitCrcFail
  try dsimp only
  with_reducible repeat' first
    | apply State.count_keeps | apply State.stackDown_keeps | apply ansWithin | apply kIte | (refine kUpd ?_; assumption)

theorem execStackLinkTrainingLoss_keeps {z0 : State} (stack : Nat) (s : State) (h_s : z0.Keeps s) :
    State.Keeps.Ans z0 (execStackLinkTrainingLoss stack s) := by
  unfold execStackLinkTrainingLoss
  try dsimp only
  with_reducible repeat' first | assumption | apply State.stackDown_keeps | apply ansWithin

theorem execStackLinkRetrain_keeps {z0 : State} (stack : Nat) (ok : Bool) (s : State) (h_s : z0.Keeps s) :
    State.Keeps.Ans z0 (execStackLinkRetrain stack ok s) := by
  unfold execStackLinkRetrain
  try dsimp only
  repeat' first
    | (with_reducible first
       | assumption | intro _ | apply State.setFlag_keeps | apply State.tilesBack_keeps | apply State.putDie_keeps | apply ansWithin
       | apply kIte | apply kFoldl | (refine kUpd ?_; first | assumption | apply State.setFlag_keeps))
    | split

/-! ### Machine/Integrity.lean -/

theorem execScrubPassStart_keeps {z0 : State} (s : State) (h_s : z0.Keeps s) :
    State.Keeps.Ans z0 (execScrubPassStart s) := by
  unfold execScrubPassStart
  try dsimp only
  with_reducible repeat' first
    | assumption | intro _ | apply State.periodic_keeps | apply State.clrFlag_keeps | apply State.setFlag_keeps | apply State.raise_keeps
    | apply ansNext | (refine kUpd ?_; apply kIte)

theorem execScrubPace_keeps {z0 : State} (s : State) (h_s : z0.Keeps s) :
    State.Keeps.Ans z0 (execScrubPace s) := by
  unfold execScrubPace
  try dsimp only
  with_reducible repeat' first | assumption | intro _ | apply State.periodic_keeps | apply ansNext | (refine kUpd ?_; assumption)

theorem State.visit_keeps {z0 : State} (s : State) (p : Nat) (h_s : z0.Keeps s) :
    z0.Keeps (State.visit s p) := by
  unfold State.visit
  try dsimp only
  repeat' first | (with_reducible first | assumption | apply State.count_keeps | apply State.issueSense_keeps | apply kIte) | split

theorem State.scrubAreas_keeps {z0 : State} (s : State) (tables : Nat) (boot : List Nat) (h_s : z0.Keeps s) :
    z0.Keeps (State.scrubAreas s tables boot) := by
  unfold State.scrubAreas
  try dsimp only
  with_reducible repeat' first | assumption | (refine kUpd ?_; apply State.count_keeps)

theorem execScrubVisit_keeps {z0 : State} (s : State) (h_s : z0.Keeps s) :
    State.Keeps.Ans z0 (execScrubVisit s) := by
  unfold execScrubVisit
  try dsimp only
  repeat' first
    | (with_reducible first
       | assumption | apply State.visit_keeps | apply State.scrubAreas_keeps | apply State.saturate_keeps | apply ansNext | apply kIte
       | (refine kUpd ?_; first | assumption | (refine ofOptP (by assumption) ?_; apply State.bobTake_keeps)))
    | split

theorem State.dieCtl_keeps {z0 : State} (s : State) (d : Nat) (action : Nat) (h_s : z0.Keeps s) :
    State.Keeps.Opt z0 (State.dieCtl s d action) := by
  unfold State.dieCtl
  try dsimp only
  with_reducible repeat' first
    | assumption | apply State.dieFail_keeps | apply State.putDie_keeps | exact optNone | apply optSome | apply optIte

theorem execDieCheckDone_keeps {z0 : State} (d : Nat) (check : DieCheck) (s0 : State) (h_s0 : z0.Keeps s0) :
    State.Keeps.Ans z0 (execDieCheckDone d check s0) := by
  unfold execDieCheckDone
  try dsimp only
  with_reducible repeat' first
    | assumption | apply State.showSweep_keeps | apply State.putDie_keeps | apply State.raise_keeps | apply State.setFlag_keeps
    | apply ansWithin | apply kIte

theorem State.resilverLine_keeps {z0 : State} (s : State) (bad : List Nat) (lsw : Nat) (i : Nat) (h_s : z0.Keeps s) :
    z0.Keeps (State.resilverLine s bad lsw i) := by
  unfold State.resilverLine
  try dsimp only
  repeat' first
    | (with_reducible first
       | assumption | apply State.poisonLine_keeps | apply State.startProgram_keeps | apply State.tagFail_keeps | apply kIte
       | (refine kUpd ?_; apply State.install_keeps))
    | split

theorem State.pushOut_keeps {z0 : State} (s : State) (ps : Nat) (h_s : z0.Keeps s) :
    z0.Keeps (State.pushOut s ps) := by
  unfold State.pushOut
  try dsimp only
  repeat' first | (with_reducible first | assumption | intro _ | apply State.evictTo_keeps | apply kIte | apply kFoldl) | split

theorem State.dieOnline_keeps {z0 : State} (s : State) (d : Nat) (h_s : z0.Keeps s) :
    z0.Keeps (State.dieOnline s d) := by
  unfold State.dieOnline
  try dsimp only
  with_reducible repeat' first
    | assumption | apply State.putDie_keeps | apply State.raise_keeps | apply State.wr_keeps | apply State.setFld_keeps | apply kIte

theorem State.swatchCurrent_keeps {z0 : State} (s : State) (d : Nat) (ps : Nat) (h_s : z0.Keeps s) :
    z0.Keeps (State.swatchCurrent s d ps) := by
  unfold State.swatchCurrent
  try dsimp only
  with_reducible repeat' first | assumption | apply State.putDie_keeps | apply State.count_keeps

theorem execResilverSwatch_keeps {z0 : State} (bad : List Nat) (s : State) (h_s : z0.Keeps s) :
    State.Keeps.Ans z0 (execResilverSwatch bad s) := by
  unfold execResilverSwatch
  try dsimp only
  repeat' first
    | (with_reducible first
       | assumption | intro _ | apply State.setFld_keeps | apply State.setFlag_keeps | apply State.pushOut_keeps
       | apply State.swatchCurrent_keeps | apply State.dieOnline_keeps | apply State.resilverLine_keeps | apply State.putDie_keeps
       | apply ansNext | apply kIte | apply kFoldl)
    | split

/-! ### Machine/Dram.lean -/

theorem State.errLast_keeps {z0 : State} (s : State) (kind : Nat) (addr : Nat) (codeword : Nat) (bytes : Nat) (chans : Nat) (h_s : z0.Keeps s) :
    z0.Keeps (State.errLast s kind addr codeword bytes chans) := by
  unfold State.errLast
  try dsimp only
  with_reducible repeat' first | assumption | apply State.wr_keeps

theorem State.corrBytes_keeps {z0 : State} (s : State) (ch : Nat) (n : Nat) (h_s : z0.Keeps s) :
    z0.Keeps (State.corrBytes s ch n) := by
  unfold State.corrBytes
  try dsimp only
  with_reducible repeat' first | apply State.count_keeps | apply State.raise_keeps | apply kIte | (refine kUpd ?_; assumption)

theorem State.eraseChannel_keeps {z0 : State} (s : State) (ch : Nat) (h_s : z0.Keeps s) :
    z0.Keeps (State.eraseChannel s ch) := by
  unfold State.eraseChannel
  try dsimp only
  with_reducible repeat' first
    | assumption | intro _ | apply State.setFlag_keeps | apply State.poisonLine_keeps | apply State.raise_keeps
    | apply State.clrFlag_keeps | apply State.sendLeave_keeps | apply State.cleanTier_keeps | apply kIte | apply kFoldl

theorem State.restartRefill_keeps {z0 : State} (s : State) (ch : Nat) (h_s : z0.Keeps s) :
    z0.Keeps (State.restartRefill s ch) := by
  unfold State.restartRefill
  try dsimp only
  with_reducible repeat' first | assumption | apply State.clrFlag_keeps | apply State.setFld_keeps | apply kIte

theorem State.tierLost_keeps {z0 : State} (s : State) (ln : Nat) (h_s : z0.Keeps s) :
    z0.Keeps (State.tierLost s ln) := by
  unfold State.tierLost
  try dsimp only
  repeat' first
    | (with_reducible first
       | assumption | apply State.noteFail_keeps | apply State.resumeOps_keeps | apply State.poisonLine_keeps | apply kIte
       | (refine kUpd ?_; first | assumption | (refine kSnd (by assumption) ?_; apply State.startFill_keeps)))
    | split

theorem State.startProbe_keeps {z0 : State} (s : State) (addr : Nat) (h_s : z0.Keeps s) :
    z0.Keeps (State.startProbe s addr) := by
  unfold State.startProbe
  try dsimp only
  with_reducible repeat' first | apply State.count_keeps | (refine kUpd ?_; assumption)

theorem State.tierDelivered_keeps {z0 : State} (s : State) (ln : Nat) (h_s : z0.Keeps s) :
    z0.Keeps (State.tierDelivered s ln) := by
  unfold State.tierDelivered
  try dsimp only
  repeat' first
    | (with_reducible first
       | apply State.noteFail_keeps | apply State.resumeOps_keeps | apply State.fillGood_keeps | apply State.convSettle_keeps
       | apply State.fillBad_keeps | apply State.tagFail_keeps | apply kIte | (refine kUpd ?_; assumption))
    | split

theorem execDramAccessDone_keeps {z0 : State} (t : DramTarget) (codeword : Nat) (out : BurstOutcome) (s : State) (h_s : z0.Keeps s) :
    State.Keeps.Ans z0 (execDramAccessDone t codeword out s) := by
  unfold execDramAccessDone
  try dsimp only
  repeat' first
    | (with_reducible first
       | assumption | intro _ | apply State.tierDelivered_keeps | apply State.corrBytes_keeps | apply State.errLast_keeps
       | apply State.count_keeps | apply State.startProbe_keeps | apply ansNext | apply kIte | apply kFoldl
       | (refine kUpd ?_; apply State.count_keeps))
    | split

theorem execChannelProbeDone_keeps {z0 : State} (group : Nat) (failed : List Nat) (s : State) (h_s : z0.Keeps s) :
    State.Keeps.Ans z0 (execChannelProbeDone group failed s) := by
  unfold execChannelProbeDone
  try dsimp only
  repeat' first
    | (with_reducible first
       | assumption | intro _ | apply State.serveDram_keeps | apply State.raise_keeps | apply State.tierLost_keeps
       | apply State.restartRefill_keeps | apply State.eraseChannel_keeps | apply State.errLast_keeps | apply State.count_keeps
       | apply State.tierDelivered_keeps | apply ansWithin | apply kIte | apply kFoldl | (refine kUpd ?_; assumption))
    | split

theorem State.dramCtl_keeps {z0 : State} (s : State) (ch : Nat) (action : Nat) (h_s : z0.Keeps s) :
    State.Keeps.Opt z0 (State.dramCtl s ch action) := by
  unfold State.dramCtl
  try dsimp only
  with_reducible repeat' first
    | assumption | apply State.eraseChannel_keeps | exact optNone | apply optSome | apply optIte | (refine kUpd ?_; assumption)

theorem execRefillDone_keeps {z0 : State} (s : State) (h_s : z0.Keeps s) :
    State.Keeps.Ans z0 (execRefillDone s) := by
  unfold execRefillDone
  try dsimp only
  with_reducible repeat' first
    | assumption | apply State.clrFlag_keeps | apply State.setFld_keeps | apply ansNext | apply kIte
    | (refine kUpd ?_; apply State.raise_keeps)

theorem State.tryReturn_keeps {z0 : State} (s : State) (ch : Nat) (h_s : z0.Keeps s) :
    z0.Keeps (State.tryReturn s ch) := by
  unfold State.tryReturn
  try dsimp only
  with_reducible repeat' first | assumption | apply State.setFlag_keeps | apply State.setFld_keeps | apply kIte

theorem State.trained_keeps {z0 : State} (s : State) (ch : Nat) (ok : Bool) (h_s : z0.Keeps s) :
    z0.Keeps (State.trained s ch ok) := by
  unfold State.trained
  try dsimp only
  with_reducible repeat' first
    | apply State.tryReturn_keeps | apply State.restartRefill_keeps | apply State.eraseChannel_keeps | apply State.raise_keeps
    | apply kIte | (refine kUpd ?_; assumption)

theorem execDramPause_keeps {z0 : State} (group : Nat) (retrained : List Nat) (failed : List Nat) (s : State) (h_s : z0.Keeps s) :
    State.Keeps.Ans z0 (execDramPause group retrained failed s) := by
  unfold execDramPause
  try dsimp only
  with_reducible repeat' first
    | assumption | intro _ | apply State.periodic_keeps | apply State.pauseGroup_keeps | apply State.count_keeps
    | apply State.trained_keeps | apply ansWithin | apply kIte | apply kFoldl

theorem State.patrolBad_keeps {z0 : State} (s : State) (ln : Nat) (h_s : z0.Keeps s) :
    z0.Keeps (State.patrolBad s ln) := by
  unfold State.patrolBad
  try dsimp only
  with_reducible repeat' first
    | assumption | apply State.errLast_keeps | apply State.count_keeps | apply State.startProbe_keeps | apply kIte
    | (refine kUpd ?_; assumption)

theorem execDramPatrol_keeps {z0 : State} (corrected : Nat) (bad : List Nat) (s : State) (h_s : z0.Keeps s) :
    State.Keeps.Ans z0 (execDramPatrol corrected bad s) := by
  unfold execDramPatrol
  try dsimp only
  with_reducible repeat' first
    | assumption | intro _ | apply State.periodic_keeps | apply State.count_keeps | apply State.patrolBad_keeps | apply ansNext
    | apply kFoldl

theorem execIdleFillDone_keeps {z0 : State} (s : State) (h_s : z0.Keeps s) :
    State.Keeps.Ans z0 (execIdleFillDone s) := by
  unfold execIdleFillDone
  try dsimp only
  with_reducible repeat' first | assumption | apply State.clrFlag_keeps | apply ansNext | apply kIte

/-! ### Machine/Ways.lean -/

theorem State.putWay_keeps {z0 : State} (s : State) (slice : Nat) (w : Nat) (x : Way) (h_s : z0.Keeps s) :
    z0.Keeps (State.putWay s slice w x) := by
  unfold State.putWay
  try dsimp only
  with_reducible repeat' first | (refine kUpd ?_; assumption)

theorem State.cleanWay_keeps {z0 : State} (s : State) (slice : Nat) (w : Nat) (why : Nat) (h_s : z0.Keeps s) :
    z0.Keeps (State.cleanWay s slice w why) := by
  unfold State.cleanWay
  try dsimp only
  with_reducible repeat' first
    | assumption | intro _ | apply State.putWay_keeps | apply State.evictTo_keeps | apply kIte | apply kFoldl
    | (refine kUpd ?_; apply State.dropAgents_keeps)

theorem State.followWays_keeps {z0 : State} (s : State) (slice : Nat) (h_s : z0.Keeps s) :
    z0.Keeps (State.followWays s slice) := by
  unfold State.followWays
  try dsimp only
  repeat' first
    | (with_reducible first
       | assumption | intro _ | apply State.cleanWay_keeps | apply State.putWay_keeps | apply State.setFlag_keeps | apply kIte
       | apply kFoldl)
    | split

theorem State.llcCfgEffect_keeps {z0 : State} (s : State) (v : Word) (h_s : z0.Keeps s) :
    z0.Keeps (State.llcCfgEffect s v) := by
  unfold State.llcCfgEffect
  try dsimp only
  with_reducible repeat' first
    | assumption | intro _ | apply State.setFlag_keeps | apply State.followWays_keeps | apply State.setFld_keeps | apply kIte
    | apply kFoldl

theorem State.wayDis_keeps {z0 : State} (s : State) (slice : Nat) (w : Nat) (on : Bool) (h_s : z0.Keeps s) :
    z0.Keeps (State.wayDis s slice w on) := by
  unfold State.wayDis
  try dsimp only
  with_reducible repeat' first | assumption | apply State.putFlag_keeps | apply kIte | (refine kUpd ?_; apply State.jAlways_keeps)

theorem execWayCleanDone_keeps {z0 : State} (slice : Nat) (w : Nat) (s : State) (h_s : z0.Keeps s) :
    State.Keeps.Ans z0 (execWayCleanDone slice w s) := by
  unfold execWayCleanDone
  try dsimp only
  with_reducible repeat' first | assumption | apply State.putWay_keeps | apply State.followWays_keeps | apply ansWithin | apply kIte

theorem execWayJoinDone_keeps {z0 : State} (slice : Nat) (w : Nat) (s : State) (h_s : z0.Keeps s) :
    State.Keeps.Ans z0 (execWayJoinDone slice w s) := by
  unfold execWayJoinDone
  try dsimp only
  with_reducible repeat' first
    | assumption | apply State.putWay_keeps | apply State.count_keeps | apply State.clrFlag_keeps | apply ansWithin | apply kIte

theorem execWayTestDone_keeps {z0 : State} (slice : Nat) (w : Nat) (ok : Bool) (s : State) (h_s : z0.Keeps s) :
    State.Keeps.Ans z0 (execWayTestDone slice w ok s) := by
  unfold execWayTestDone
  try dsimp only
  with_reducible repeat' first
    | assumption | apply State.putWay_keeps | apply State.wayDis_keeps | apply State.setFlag_keeps | apply ansWithin | apply kIte

theorem State.moveLock_keeps {z0 : State} (s : State) (slice : Nat) (w : Nat) (h_s : z0.Keeps s) :
    State.Keeps.Opt z0 (State.moveLock s slice w) := by
  unfold State.moveLock
  try dsimp only
  with_reducible repeat' first
    | assumption | intro _ | apply State.evictTo_keeps | apply State.putWay_keeps | apply optMap | apply kFoldl
    | (refine kUpd ?_; assumption)

theorem State.disableWay_keeps {z0 : State} (s : State) (slice : Nat) (w : Nat) (why : Nat) (h_s : z0.Keeps s) :
    z0.Keeps (State.disableWay s slice w why) := by
  unfold State.disableWay
  try dsimp only
  repeat' first
    | (with_reducible first
       | assumption | apply State.raise_keeps | apply State.cleanWay_keeps | apply State.wayDis_keeps | apply kIte
       | (refine kUpd ?_; (refine ofOpt (by assumption) ?_; apply State.moveLock_keeps)))
    | split

theorem State.wayCtl_keeps {z0 : State} (s : State) (v : Word) (h_s : z0.Keeps s) :
    State.Keeps.Opt z0 (State.wayCtl s v) := by
  unfold State.wayCtl
  try dsimp only
  repeat' first
    | (with_reducible first
       | assumption | apply State.raise_keeps | apply State.putWay_keeps | apply State.disableWay_keeps | exact optNone | apply optSome
       | apply optIte | apply kIte)
    | split

theorem State.cleanLine_keeps {z0 : State} (s : State) (ln : Nat) (h_s : z0.Keeps s) :
    z0.Keeps (State.cleanLine s ln).2 := by
  unfold State.cleanLine
  try dsimp only
  repeat' first
    | (with_reducible first | assumption | apply State.placeDirty_keeps | apply iteP)
    | dsimp only
    | (with_reducible refine kUpd ?_; with_reducible first | assumption | apply State.placeDirty_keeps)
    | split

theorem State.invalidate_keeps {z0 : State} (s : State) (ln : Nat) (h_s : z0.Keeps s) :
    z0.Keeps (State.invalidate s ln) := by
  unfold State.invalidate
  try dsimp only
  with_reducible repeat' first | assumption | (refine kUpd ?_; apply State.dropAgents_keeps)

theorem State.lockFill_keeps {z0 : State} (s : State) (ln : Nat) (r0 : Nat) (h_s : z0.Keeps s) :
    z0.Keeps (State.lockFill s ln r0).2 := by
  induction r0 generalizing s ln with
  | zero =>
    unfold State.lockFill
    try dsimp only
    repeat' first
      | (with_reducible first
         | assumption | apply State.startFill_keeps | apply State.count_keeps | apply iteP | apply kIte | (refine kUpd ?_; apply kIte))
      | split
  | succ _ ih =>
    unfold State.lockFill
    try dsimp only
    repeat' first
      | (with_reducible first
         | assumption | apply ih | apply State.startFill_keeps | apply State.count_keeps | apply iteP | apply kIte
         | (refine kUpd ?_; apply kIte))
      | split

theorem State.maintGo_keeps {z0 : State} (s : State) (m : Maint) (h_s : z0.Keeps s) :
    z0.Keeps (State.maintGo s m).2 := by
  unfold State.maintGo
  try dsimp only
  repeat' first
    | (with_reducible first
       | assumption | intro _ | apply State.invalidate_keeps | apply State.lockFill_keeps | apply State.cleanLine_keeps | apply iteP
       | apply kIte | apply kFoldl | apply foldlP)
    | split

theorem State.maintCtl_keeps {z0 : State} (s : State) (firmware : Bool) (v : Word) (h_s : z0.Keeps s) :
    State.Keeps.Opt z0 (State.maintCtl s firmware v) := by
  unfold State.maintCtl
  try dsimp only
  with_reducible repeat' first
    | assumption | apply State.setFlag_keeps | apply State.maintGo_keeps | apply State.setFld_keeps | exact optNone | apply optSome
    | apply optIte | (refine kUpd ?_; assumption)

theorem execMaintDone_keeps {z0 : State} (s : State) (h_s : z0.Keeps s) :
    State.Keeps.Ans z0 (execMaintDone s) := by
  unfold execMaintDone
  try dsimp only
  repeat' first
    | (with_reducible first
       | assumption | apply State.maintGo_keeps | apply State.setFld_keeps | apply State.clrFlag_keeps | apply State.setFlag_keeps
       | apply State.raise_keeps | apply ansNext | apply kIte | (refine kUpd ?_; apply State.setFld_keeps))
    | split

/-! ### Machine/Coherence.lean -/

theorem State.send_keeps {z0 : State} (s : State) (m : CohMsg) (h_s : z0.Keeps s) :
    z0.Keeps (State.send s m) := by
  unfold State.send
  try dsimp only
  with_reducible repeat' first | (refine kUpd ?_; assumption)

theorem State.take_keeps {z0 : State} (s : State) (p : CohMsg → Bool) (h_s : z0.Keeps s) :
    State.Keeps.OptP z0 (State.take s p) := by
  unfold State.take
  try dsimp only
  repeat' first | (with_reducible first | intro _ | apply optPMap) | dsimp only | (with_reducible refine kUpd ?_; with_reducible assumption)

theorem State.modLlc_keeps {z0 : State} (s : State) (ln : Nat) (f : LlcLine → LlcLine) (h_s : z0.Keeps s) :
    z0.Keeps (State.modLlc s ln f) := by
  unfold State.modLlc
  try dsimp only
  with_reducible repeat' first | apply kIte | (refine kUpd ?_; assumption)

theorem State.putCopy_keeps {z0 : State} (s : State) (agent : Nat) (ln : Nat) (c : Option AgentLine) (h_s : z0.Keeps s) :
    z0.Keeps (State.putCopy s agent ln c) := by
  unfold State.putCopy
  try dsimp only
  with_reducible repeat' first | (refine kUpd ?_; assumption)

theorem State.hkpDown_keeps {z0 : State} (s : State) (h_s : z0.Keeps s) :
    z0.Keeps (State.hkpDown s) := by
  unfold State.hkpDown
  try dsimp only
  with_reducible repeat' first | assumption | apply State.clrFlag_keeps | (refine kUpd ?_; apply State.bobEnter_keeps)

theorem State.domainFail_keeps {z0 : State} (s : State) (cause : Nat) (agent : Nat) (h_s : z0.Keeps s) :
    z0.Keeps (State.domainFail s cause agent) := by
  unfold State.domainFail
  try dsimp only
  with_reducible repeat' first
    | assumption | apply State.saturate_keeps | apply State.setFld_keeps | apply State.count_keeps | apply State.sendLeave_keeps
    | apply State.hkpDown_keeps | apply kIte | (refine kUpd ?_; apply State.raise_keeps)

theorem State.protocol_keeps {z0 : State} (s : State) (agent : Nat) (h_s : z0.Keeps s) :
    z0.Keeps (State.protocol s agent) := by
  unfold State.protocol
  try dsimp only
  with_reducible repeat' first | assumption | apply State.domainFail_keeps

theorem State.openTxn_keeps {z0 : State} (s : State) (ln : Nat) (agent : Nat) (r : CohReq) (await : List Nat) (forward : Bool) (h_s : z0.Keeps s) :
    z0.Keeps (State.openTxn s ln agent r await forward) := by
  unfold State.openTxn
  try dsimp only
  with_reducible repeat' first | apply State.count_keeps | (refine kUpd ?_; assumption)

theorem State.grantLine_keeps {z0 : State} (s : State) (ln : Nat) (agent : Nat) (st : CohSt) (l : LlcLine) (data : Bool) (h_s : z0.Keeps s) :
    z0.Keeps (State.grantLine s ln agent st l data) := by
  unfold State.grantLine
  try dsimp only
  with_reducible repeat' first | assumption | apply State.modLlc_keeps | apply State.send_keeps

theorem State.homeSectors_keeps {z0 : State} (s : State) (ln : Nat) (mask : BitVec 4) (d : LineBits) (h_s : z0.Keeps s) :
    z0.Keeps (State.homeSectors s ln mask d) := by
  unfold State.homeSectors
  try dsimp only
  with_reducible repeat' first | assumption | apply State.modLlc_keeps

theorem State.homeExec_keeps {z0 : State} (s : State) (ln : Nat) (r : CohReq) (h_s : z0.Keeps s) :
    z0.Keeps (State.homeExec s ln r) := by
  unfold State.homeExec
  try dsimp only
  repeat' first
    | (with_reducible first | assumption | apply State.homeSectors_keeps | apply State.count_keeps | apply State.send_keeps | apply kIte)
    | split

theorem State.present_keeps {z0 : State} (s : State) (ln : Nat) (h_s : z0.Keeps s) :
    State.Keeps.Opt z0 (State.present s ln) := by
  unfold State.present
  try dsimp only
  repeat' first
    | (with_reducible first
       | assumption | apply State.install_keeps | exact optNone | apply optSome | apply optIte
       | (refine kUpd ?_; (refine kSnd (by assumption) ?_; apply State.startFill_keeps)))
    | split

theorem State.serve_keeps {z0 : State} (s : State) (ln : Nat) (agent : Nat) (r : CohReq) (h_s : z0.Keeps s) :
    z0.Keeps (State.serve s ln agent r) := by
  unfold State.serve
  try dsimp only
  repeat' first
    | (with_reducible first
       | assumption | intro _ | apply State.send_keeps | apply State.openTxn_keeps | apply State.protocol_keeps
       | apply State.grantLine_keeps | apply State.count_keeps | apply State.homeExec_keeps | apply kIte | apply kFoldl)
    | split

theorem State.request_keeps {z0 : State} (s : State) (ln : Nat) (agent : Nat) (r : CohReq) (h_s : z0.Keeps s) :
    z0.Keeps (State.request s ln agent r) := by
  unfold State.request
  try dsimp only
  repeat' first
    | (with_reducible first
       | assumption | apply State.send_keeps | apply State.serve_keeps | apply State.startFill_keeps | apply kIte
       | (refine kUpd ?_; (refine ofOpt (by assumption) ?_; apply State.present_keeps)))
    | split

theorem State.pump_keeps {z0 : State} (s : State) (ln : Nat) (r0 : Nat) (h_s : z0.Keeps s) :
    z0.Keeps (State.pump s ln r0) := by
  induction r0 generalizing s ln with
  | zero =>
    unfold State.pump
    try dsimp only
    repeat' first
      | (with_reducible first
         | assumption | apply State.serve_keeps | apply kIte
         | (refine kUpd ?_; first | (refine ofOpt (by assumption) ?_; apply State.present_keeps) | (refine ofOptP (by assumption) ?_; apply State.take_keeps)))
      | split
  | succ _ ih =>
    unfold State.pump
    try dsimp only
    repeat' first
      | (with_reducible first
         | assumption | apply ih | apply State.serve_keeps | apply kIte
         | (refine kUpd ?_; first | (refine ofOpt (by assumption) ?_; apply State.present_keeps) | (refine ofOptP (by assumption) ?_; apply State.take_keeps)))
      | split

theorem State.pumpAll_keeps {z0 : State} (s : State) (ln : Nat) (h_s : z0.Keeps s) :
    z0.Keeps (State.pumpAll s ln) := by
  unfold State.pumpAll
  try dsimp only
  with_reducible repeat' first | assumption | apply State.pump_keeps

theorem State.endTxn_keeps {z0 : State} (s : State) (ln : Nat) (t : CohTxn) (h_s : z0.Keeps s) :
    z0.Keeps (State.endTxn s ln t) := by
  unfold State.endTxn
  try dsimp only
  repeat' first
    | (with_reducible first
       | apply State.grantLine_keeps | apply State.homeExec_keeps | apply State.pumpAll_keeps | apply kIte | (refine kUpd ?_; assumption))
    | split

theorem State.answered_keeps {z0 : State} (s : State) (ln : Nat) (agent : Nat) (noData : Bool) (h_s : z0.Keeps s) :
    z0.Keeps (State.answered s ln agent noData) := by
  unfold State.answered
  try dsimp only
  repeat' first
    | (with_reducible first | assumption | apply State.protocol_keeps | apply State.endTxn_keeps | apply kIte | (refine kUpd ?_; assumption))
    | split

theorem State.agentRequest_keeps {z0 : State} (s : State) (agent : Nat) (ln : Nat) (r : CohReq) (ok : Bool) (h_s : z0.Keeps s) :
    State.Keeps.Ans z0 (State.agentRequest s agent ln r ok) := by
  unfold State.agentRequest
  try dsimp only
  with_reducible repeat' first | assumption | apply State.request_keeps | apply State.protocol_keeps | apply ansWithin | apply kIte

theorem execRdShared_keeps {z0 : State} (agent : Nat) (line : Nat) (s : State) (h_s : z0.Keeps s) :
    State.Keeps.Ans z0 (execRdShared agent line s) := by
  unfold execRdShared
  try dsimp only
  with_reducible repeat' first | assumption | apply State.agentRequest_keeps

theorem execRdOwn_keeps {z0 : State} (agent : Nat) (line : Nat) (s : State) (h_s : z0.Keeps s) :
    State.Keeps.Ans z0 (execRdOwn agent line s) := by
  unfold execRdOwn
  try dsimp only
  with_reducible repeat' first | assumption | apply State.agentRequest_keeps

theorem execOwnNodata_keeps {z0 : State} (agent : Nat) (line : Nat) (s : State) (h_s : z0.Keeps s) :
    State.Keeps.Ans z0 (execOwnNodata agent line s) := by
  unfold execOwnNodata
  try dsimp only
  with_reducible repeat' first | assumption | apply State.agentRequest_keeps

theorem execUpgrade_keeps {z0 : State} (agent : Nat) (line : Nat) (s : State) (h_s : z0.Keeps s) :
    State.Keeps.Ans z0 (execUpgrade agent line s) := by
  unfold execUpgrade
  try dsimp only
  with_reducible repeat' first | assumption | apply State.agentRequest_keeps

theorem execWr_keeps {z0 : State} (agent : Nat) (line : Nat) (mask : BitVec 4) (data : LineBits) (s : State) (h_s : z0.Keeps s) :
    State.Keeps.Ans z0 (execWr agent line mask data s) := by
  unfold execWr
  try dsimp only
  with_reducible repeat' first | assumption | apply State.agentRequest_keeps

theorem execAtom_keeps {z0 : State} (agent : Nat) (line : Nat) (f : Nat) (off : Nat) (len : Nat) (operand : Nat) (cmp : Nat) (s : State) (h_s : z0.Keeps s) :
    State.Keeps.Ans z0 (execAtom agent line f off len operand cmp s) := by
  unfold execAtom
  try dsimp only
  with_reducible repeat' first | assumption | apply State.agentRequest_keeps

theorem execWhint_keeps {z0 : State} (agent : Nat) (line : Nat) (mask : BitVec 4) (data : LineBits) (target : Option Nat) (s : State) (h_s : z0.Keeps s) :
    State.Keeps.Ans z0 (execWhint agent line mask data target s) := by
  unfold execWhint
  try dsimp only
  with_reducible repeat' first | assumption | apply State.agentRequest_keeps

theorem execWb_keeps {z0 : State} (agent : Nat) (line : Nat) (data : LineBits) (s : State) (h_s : z0.Keeps s) :
    State.Keeps.Ans z0 (execWb agent line data s) := by
  unfold execWb
  try dsimp only
  repeat' first
    | (with_reducible first
       | assumption | apply State.protocol_keeps | apply State.putCopy_keeps | apply State.modLlc_keeps | apply State.count_keeps
       | apply ansWithin | apply kIte)
    | split

theorem execEvictClean_keeps {z0 : State} (agent : Nat) (line : Nat) (s : State) (h_s : z0.Keeps s) :
    State.Keeps.Ans z0 (execEvictClean agent line s) := by
  unfold execEvictClean
  try dsimp only
  repeat' first
    | (with_reducible first
       | assumption | apply State.putCopy_keeps | apply State.modLlc_keeps | apply State.protocol_keeps | apply ansWithin | apply kIte)
    | split

theorem execSnpShare_keeps {z0 : State} (agent : Nat) (line : Nat) (wrote : Option LineBits) (s : State) (h_s : z0.Keeps s) :
    State.Keeps.Ans z0 (execSnpShare agent line wrote s) := by
  unfold execSnpShare
  try dsimp only
  repeat' first
    | (with_reducible first
       | assumption | apply State.putCopy_keeps | apply State.send_keeps | apply State.count_keeps | apply ansWithin
       | (refine kUpd ?_; (refine ofOptP (by assumption) ?_; apply State.take_keeps)))
    | split

theorem execSnpOwn_keeps {z0 : State} (agent : Nat) (line : Nat) (wrote : Option LineBits) (s : State) (h_s : z0.Keeps s) :
    State.Keeps.Ans z0 (execSnpOwn agent line wrote s) := by
  unfold execSnpOwn
  try dsimp only
  repeat' first
    | (with_reducible first
       | assumption | apply State.putCopy_keeps | apply State.send_keeps | apply State.count_keeps | apply ansWithin
       | (refine kUpd ?_; (refine ofOptP (by assumption) ?_; apply State.take_keeps)))
    | split

theorem execSnpInv_keeps {z0 : State} (agent : Nat) (line : Nat) (wrote : Option LineBits) (s : State) (h_s : z0.Keeps s) :
    State.Keeps.Ans z0 (execSnpInv agent line wrote s) := by
  unfold execSnpInv
  try dsimp only
  repeat' first
    | (with_reducible first
       | assumption | apply State.putCopy_keeps | apply State.send_keeps | apply ansWithin
       | (refine kUpd ?_; (refine ofOptP (by assumption) ?_; apply State.take_keeps)))
    | split

theorem execFwdData_keeps {z0 : State} (agent : Nat) (line : Nat) (s : State) (h_s : z0.Keeps s) :
    State.Keeps.Ans z0 (execFwdData agent line s) := by
  unfold execFwdData
  try dsimp only
  repeat' first
    | (with_reducible first
       | assumption | apply State.putCopy_keeps | apply State.modLlc_keeps | apply ansWithin
       | (refine kUpd ?_; (refine ofOptP (by assumption) ?_; apply State.take_keeps)))
    | split

theorem execGrant_keeps {z0 : State} (agent : Nat) (line : Nat) (s : State) (h_s : z0.Keeps s) :
    State.Keeps.Ans z0 (execGrant agent line s) := by
  unfold execGrant
  try dsimp only
  repeat' first
    | (with_reducible first
       | assumption | apply State.pumpAll_keeps | apply State.putCopy_keeps | apply ansWithin | apply kIte
       | (refine kUpd ?_; (refine ofOptP (by assumption) ?_; apply State.take_keeps)))
    | split

theorem execAck_keeps {z0 : State} (agent : Nat) (line : Nat) (s : State) (h_s : z0.Keeps s) :
    State.Keeps.Ans z0 (execAck agent line s) := by
  unfold execAck
  try dsimp only
  repeat' first
    | (with_reducible first
       | assumption | apply State.modLlc_keeps | apply State.answered_keeps | apply State.protocol_keeps | apply ansWithin | apply kIte
       | (refine kUpd ?_; (refine ofOptP (by assumption) ?_; apply State.take_keeps)))
    | split

theorem execEvicting_keeps {z0 : State} (agent : Nat) (line : Nat) (s : State) (h_s : z0.Keeps s) :
    State.Keeps.Ans z0 (execEvicting agent line s) := by
  unfold execEvicting
  try dsimp only
  repeat' first
    | (with_reducible first
       | assumption | apply State.count_keeps | apply State.answered_keeps | apply State.protocol_keeps | apply ansWithin | apply kIte
       | (refine kUpd ?_; (refine ofOptP (by assumption) ?_; apply State.take_keeps)))
    | split

theorem execPush_keeps {z0 : State} (agent : Nat) (line : Nat) (s : State) (h_s : z0.Keeps s) :
    State.Keeps.Ans z0 (execPush agent line s) := by
  unfold execPush
  try dsimp only
  repeat' first
    | (with_reducible first
       | assumption | apply State.putCopy_keeps | apply State.modLlc_keeps | apply State.count_keeps | apply ansWithin | apply kIte
       | (refine kUpd ?_; (refine ofOptP (by assumption) ?_; apply State.take_keeps)))
    | split

theorem execSnoopTimeout_keeps {z0 : State} (agent : Nat) (line : Nat) (s : State) (h_s : z0.Keeps s) :
    State.Keeps.Ans z0 (execSnoopTimeout agent line s) := by
  unfold execSnoopTimeout
  try dsimp only
  repeat' first | (with_reducible first | assumption | apply State.domainFail_keeps | apply ansWithin | apply kIte) | split

theorem State.salvageSlot_keeps {z0 : State} (s : State) (h_s : z0.Keeps s) :
    z0.Keeps (State.salvageSlot s).2 := by
  unfold State.salvageSlot
  try dsimp only
  repeat' first
    | (with_reducible first | assumption | apply iteP)
    | dsimp only
    | (with_reducible refine kUpd ?_; with_reducible assumption)
    | split

theorem State.salvageLine_keeps {z0 : State} (s : State) (ln : Nat) (c : LlcLine) (h_s : z0.Keeps s) :
    z0.Keeps (State.salvageLine s ln c) := by
  unfold State.salvageLine
  try dsimp only
  repeat' first
    | (with_reducible first
       | assumption | apply State.setFld_keeps | apply State.salvageSlot_keeps | apply State.sealLine_keeps | apply State.dramAccess_keeps
       | apply kIte)
    | dsimp only
    | (with_reducible refine kUpd ?_; with_reducible first | apply State.setFld_keeps | apply State.salvageSlot_keeps | apply optPGetD)
    | split

theorem execSalvageWalkDone_keeps {z0 : State} (s : State) (h_s : z0.Keeps s) :
    State.Keeps.Ans z0 (execSalvageWalkDone s) := by
  unfold execSalvageWalkDone
  try dsimp only
  with_reducible repeat' first
    | assumption | intro _ | apply State.wr_keeps | apply State.salvageLine_keeps | apply State.setFld_keeps | apply ansNext | apply kIte
    | (refine kUpd ?_; apply kFoldl)

theorem execDomainUp_keeps {z0 : State} (s : State) (h_s : z0.Keeps s) :
    State.Keeps.Ans z0 (execDomainUp s) := by
  unfold execDomainUp
  try dsimp only
  with_reducible repeat' first
    | assumption | apply State.setFld_keeps | apply State.clrFlag_keeps | apply State.raise_keeps | apply State.sendAnnounce_keeps
    | apply ansNext | apply kIte | (refine kUpd ?_; first | assumption | apply State.raise_keeps)

end Sys2Proof.Machine
end

