-- ==== Sys2Proof/Laws/KeepsMbx.lean ====
section
/-!
SUPPORT. What the operations keep (Laws/Keeps.lean): mailboxes, keys and tables.
-/
namespace Sys2Proof.Machine
set_option Elab.async false
open State.Keeps

/-! ### Machine/Mailbox.lean -/

theorem State.putBox_keeps {z0 : State} (s : State) (m : Nat) (b : Mailbox) (h_s : z0.Keeps s) :
    z0.Keeps (State.putBox s m b) := by
  unfold State.putBox
  try dsimp only
  with_reducible repeat' first | (refine kUpd ?_; assumption)

theorem State.answerOp_keeps {z0 : State} (s : State) (id : Nat) (m : Nat) (a : MbxAns) (h_s : z0.Keeps s) :
    z0.Keeps (State.answerOp s id m a) := by
  unfold State.answerOp
  try dsimp only
  repeat' first | (with_reducible first | assumption | apply State.finishOp_keeps) | split

theorem State.deliverSeg_keeps {z0 : State} (s : State) (m : Nat) (seq : Nat) (h_s : z0.Keeps s) :
    z0.Keeps (State.deliverSeg s m seq).2 := by
  unfold State.deliverSeg
  try dsimp only
  with_reducible repeat' first | assumption | apply State.putBox_keeps

theorem State.mbxAnswer_keeps {z0 : State} (s : State) (m : Nat) (a : MbxAns) (h_s : z0.Keeps s) :
    z0.Keeps (State.mbxAnswer s m a) := by
  unfold State.mbxAnswer
  try dsimp only
  repeat' first | (with_reducible first | assumption | apply State.putBox_keeps | apply State.answerOp_keeps | apply kIte) | split

theorem State.mbxComplete_keeps {z0 : State} (s : State) (m : Nat) (st : Status) (resp : List Byte) (h_s : z0.Keeps s) :
    z0.Keeps (State.mbxComplete s m st resp) := by
  unfold State.mbxComplete
  try dsimp only
  repeat' first
    | (with_reducible first | assumption | apply State.putBox_keeps | apply State.deliverSeg_keeps | apply State.mbxAnswer_keeps | apply kIte)
    | split

theorem State.segLength_keeps {z0 : State} (s : State) (m : Nat) (h_s : z0.Keeps s) :
    z0.Keeps (State.segLength s m).2 := by
  unfold State.segLength
  try dsimp only
  with_reducible repeat' first | assumption | apply State.count_keeps | apply State.putBox_keeps | apply kIte

theorem State.mbxAbort_keeps {z0 : State} (s : State) (m : Nat) (h_s : z0.Keeps s) :
    z0.Keeps (State.mbxAbort s m).2 := by
  unfold State.mbxAbort
  try dsimp only
  repeat' first | (with_reducible first | assumption | apply State.putBox_keeps | apply State.count_keeps | apply iteP) | split

theorem State.noteProgress_keeps {z0 : State} (s : State) (m : Nat) (h_s : z0.Keeps s) :
    z0.Keeps (State.noteProgress s m) := by
  unfold State.noteProgress
  try dsimp only
  with_reducible repeat' first | assumption | apply State.draw_keeps | apply State.putBox_keeps | apply kIte

theorem State.mbxPoll_keeps {z0 : State} (s : State) (m : Nat) (seq : Nat) (h_s : z0.Keeps s) :
    z0.Keeps (State.mbxPoll s m seq).2 := by
  unfold State.mbxPoll
  try dsimp only
  repeat' first
    | (with_reducible first | assumption | apply State.noteProgress_keeps | apply State.deliverSeg_keeps | apply State.count_keeps | apply iteP)
    | split

theorem State.mbxSegment_keeps {z0 : State} (s0 : State) (m : Nat) (who : MbxOwner) (seg : List Byte) (op : Nat) (seq : Nat) (h_s0 : z0.Keeps s0) :
    z0.Keeps (State.mbxSegment s0 m who seg op seq).2 := by
  unfold State.mbxSegment
  try dsimp only
  with_reducible repeat' first
    | assumption | apply State.count_keeps | apply State.segLength_keeps | apply State.mbxAbort_keeps | apply State.mbxPoll_keeps
    | apply State.putBox_keeps | apply State.mbxComplete_keeps | apply iteP

theorem State.sigFail_keeps {z0 : State} (s : State) (m : Nat) (key : Nat) (h_s : z0.Keeps s) :
    z0.Keeps (State.sigFail s m key) := by
  unfold State.sigFail
  try dsimp only
  with_reducible repeat' first
    | assumption | apply State.raise_keeps | apply State.setFlag_keeps | apply kIte | (refine kUpd ?_; apply State.count_keeps)

theorem State.verify_keeps {z0 : State} (s : State) (m : Nat) (b : Mailbox) (h_s : z0.Keeps s) :
    z0.Keeps (State.verify s m b).2 := by
  unfold State.verify
  try dsimp only
  with_reducible repeat' first | assumption | apply State.putBox_keeps | apply State.sigFail_keeps | apply iteP

theorem State.authorise_keeps {z0 : State} (s : State) (m : Nat) (b : Mailbox) (cls : Nat) (h_s : z0.Keeps s) :
    z0.Keeps (State.authorise s m b cls).2 := by
  unfold State.authorise
  try dsimp only
  repeat' first
    | (with_reducible first | assumption | apply State.putBox_keeps | apply iteP)
    | dsimp only
    | (with_reducible refine kUpd ?_; with_reducible (refine kSnd (by assumption) ?_; with_reducible apply State.verify_keeps))
    | split

theorem State.jSecond_keeps {z0 : State} (s : State) (c : JMark) (e : JEntry) (st : Status) (h_s : z0.Keeps s) :
    z0.Keeps (State.jSecond s c e st) := by
  unfold State.jSecond
  try dsimp only
  repeat' first
    | (with_reducible first | assumption | apply State.jAlways_keeps | apply State.jPlain_keeps | apply kIte)
    | split

theorem State.finishCmd_keeps {z0 : State} (s : State) (c : Command) (r : Req) (j : JEntry) (h_s : z0.Keeps s) (he : State.Keeps.End z0 (c.eff s r)) :
    z0.Keeps (s.finishCmd c r j) := by
  unfold State.finishCmd
  split
  · rename_i e
    rw [e] at he
    exact State.mbxComplete_keeps _ _ _ _ (State.jSecond_keeps _ _ _ _ he)
  · rename_i e
    rw [e] at he
    exact State.putBox_keeps _ _ _ (State.jSecond_keeps _ _ _ _ he)

theorem State.raise_adminKeys (s : State) (code src val : Nat) : (s.raise code src val).kept.adminKeys = s.kept.adminKeys := by
  unfold State.raise State.raiseAt
  split <;> rfl

theorem State.jAppend_adminKeys (s : State) (e : JEntry) : (s.jAppend e).kept.adminKeys = s.kept.adminKeys := by
  unfold State.jAppend
  dsimp only
  split
  · rw [State.raise_adminKeys]; rfl
  · split
    · rw [State.raise_adminKeys]; rfl
    · rfl

theorem State.jAlways_adminKeys (s : State) (e : JEntry) : (s.jAlways e).kept.adminKeys = s.kept.adminKeys := by
  unfold State.jAlways
  split
  · exact State.jAppend_adminKeys _ _
  · rfl

theorem State.command_keeps {z0 : State} (s : State) (m : Nat) (c : Command) (h_s : z0.Keeps s)
    (he : ∀ (t u : State) (r : Req), z0.Keeps u → c.check t r = none → u.kept.adminKeys = t.kept.adminKeys → State.Keeps.End z0 (c.eff u r))
    (hr : ∀ (t : State) (r : Req) (st : Status), z0.Keeps t → z0.Keeps (c.refused t r st)) : State.Keeps.Ans z0 (s.command m c) := by
  unfold State.command
  dsimp only
  apply State.Keeps.ansWithin
  split
  · have ha := State.authorise_keeps (z0 := z0) s m (s.box m) c.cls h_s
    split
    · rename_i e
      rw [e] at ha
      apply State.mbxComplete_keeps
      split
      · exact State.jPlain_keeps _ _ (State.count_keeps _ _ _ ha)
      · exact State.count_keeps _ _ _ ha
    · rename_i r t e
      rw [e] at ha
      split
      · apply State.mbxComplete_keeps
        apply hr
        split
        · exact State.count_keeps _ _ _ ha
        · exact ha
      · rename_i hc
        split
        · exact State.mbxComplete_keeps _ _ _ _ (State.count_keeps _ _ _ ha)
        · split
          · exact State.mbxComplete_keeps _ _ _ _ (State.jRefuse_keeps _ ha)
          · split
            · exact State.mbxComplete_keeps _ _ _ _ ha
            · rename_i hfull _
              have : z0.Keeps (match c.mark with
                  | .no => t
                  | .yes => t.jAppend (t.jEntry r.author true c.code .ok (c.old t r) (c.new t r))
                  | .always => t.jAlways (t.jEntry r.author true c.code .ok (c.old t r) (c.new t r))) := by
                split
                · exact ha
                · rename_i hm
                  refine State.jAppend_keeps _ _ ha ?_
                  have hf : t.jnlFull = false := by
                    cases hq : t.jnlFull with
                    | false => rfl
                    | true => exact absurd (by rw [hm, hq]; rfl) hfull
                  have h3 : ¬ 8176 ≤ t.kept.journal.length := of_decide_eq_false hf
                  omega
                · exact State.jAlways_keeps _ _ ha
              refine State.finishCmd_keeps _ _ _ _ this (he t _ _ this hc ?_)
              split
              · rfl
              · exact State.jAppend_adminKeys _ _
              · exact State.jAlways_adminKeys _ _
  · exact h_s

theorem execMbxEarlyExpire_keeps {z0 : State} (m : Nat) (s : State) (h_s : z0.Keeps s) :
    State.Keeps.Ans z0 (execMbxEarlyExpire m s) := by
  unfold execMbxEarlyExpire
  try dsimp only
  repeat' first
    | (with_reducible first | assumption | apply State.putBox_keeps | apply State.mbxAnswer_keeps | apply ansWithin | apply kIte)
    | split

theorem execMbxTimeout_keeps {z0 : State} (m : Nat) (s : State) (h_s : z0.Keeps s) :
    State.Keeps.Ans z0 (execMbxTimeout m s) := by
  unfold execMbxTimeout
  try dsimp only
  with_reducible repeat' first
    | assumption | apply State.putBox_keeps | apply State.count_keeps | apply State.raise_keeps | apply ansWithin | apply kIte

theorem execSigCloseExpire_keeps {z0 : State} (s : State) (h_s : z0.Keeps s) :
    State.Keeps.Ans z0 (execSigCloseExpire s) := by
  unfold execSigCloseExpire
  try dsimp only
  repeat' first
    | (with_reducible first | assumption | apply State.clrFlag_keeps | apply ansNext | apply kIte | (refine kUpd ?_; assumption))
    | split

theorem State.mbxStitch_keeps {z0 : State} (s : State) (id : Nat) (m : Nat) (o : Op) (h_s : z0.Keeps s) :
    z0.Keeps (State.mbxStitch s id m o) := by
  unfold State.mbxStitch
  try dsimp only
  repeat' first
    | (with_reducible first
       | assumption | apply State.failOp_keeps | apply State.answerOp_keeps | apply State.modOp_keeps | apply kIte
       | (refine kUpd ?_; (refine kSnd (by assumption) ?_; apply State.mbxSegment_keeps)))
    | split

/-! ### Machine/MbxCmds.lean -/

theorem execIdentity_keeps {z0 : State} (m : Nat) (s : State) (h_s : z0.Keeps s) :
    State.Keeps.Ans z0 (execIdentity m s) := by
  unfold execIdentity
  try dsimp only
  repeat' first | (with_reducible first | assumption | intro _ | apply State.command_keeps | apply endDone) | (unfold queryCmd; dsimp only)

theorem execDeviceStatus_keeps {z0 : State} (m : Nat) (s : State) (h_s : z0.Keeps s) :
    State.Keeps.Ans z0 (execDeviceStatus m s) := by
  unfold execDeviceStatus
  try dsimp only
  repeat' first | (with_reducible first | assumption | intro _ | apply State.command_keeps | apply endDone) | (unfold queryCmd; dsimp only)

theorem execCertGet_keeps {z0 : State} (m : Nat) (s : State) (h_s : z0.Keeps s) :
    State.Keeps.Ans z0 (execCertGet m s) := by
  unfold execCertGet
  try dsimp only
  repeat' first | (with_reducible first | assumption | intro _ | apply State.command_keeps | apply endDone) | (unfold queryCmd; dsimp only)

theorem execAdminKeyList_keeps {z0 : State} (m : Nat) (s : State) (h_s : z0.Keeps s) :
    State.Keeps.Ans z0 (execAdminKeyList m s) := by
  unfold execAdminKeyList
  try dsimp only
  repeat' first | (with_reducible first | assumption | intro _ | apply State.command_keeps | apply endDone) | (unfold queryCmd; dsimp only)

theorem execNonceGet_keeps {z0 : State} (m : Nat) (s : State) (h_s : z0.Keeps s) :
    State.Keeps.Ans z0 (execNonceGet m s) := by
  unfold execNonceGet
  try dsimp only
  with_reducible repeat' first
    | assumption | intro _ | apply State.command_keeps | apply State.draw256_keeps | apply State.putBox_keeps | apply endDone

theorem execProvisionLock_keeps {z0 : State} (m : Nat) (s : State) (h_s : z0.Keeps s) : State.Keeps.Ans z0 (execProvisionLock m s) := by
  unfold execProvisionLock
  apply State.command_keeps _ _ _ h_s
  · intro t u r hu hc ha
    dsimp only at hc ⊢
    apply State.Keeps.endDone
    apply State.setFld_keeps
    apply State.clrFlag_keeps
    refine State.Keeps.kUpd hu (hk := ?_)
    refine ⟨fun _ => rfl, Nat.le_refl _, id, id, id, fun _ _ => ?_⟩
    show u.kept.adminKeys ≠ []
    rw [ha]
    intro he
    rw [he] at hc
    unfold lengthIs at hc
    split at hc <;> simp at hc
  · intro t r st ht
    exact ht

theorem Table.put_ne_nil {α : Type} (t : Table α) (k : Nat) (v : α) : t.put k v ≠ [] := by
  cases t with
  | nil => simp [Table.put]
  | cons e t =>
    simp only [Table.put]
    split
    · simp
    · split <;> simp

theorem Table.length_drop {α : Type} (t : Table α) (k : Nat) : t.length ≤ (Table.drop t k).length + 1 := by
  induction t with
  | nil => simp [Table.drop]
  | cons e t ih =>
    simp only [Table.drop]
    split
    · simp
    · simp only [List.length_cons]; omega

theorem Table.drop_absent {α : Type} (t : Table α) (k : Nat) (h : t.find k = none) : Table.drop t k = t := by
  induction t with
  | nil => rfl
  | cons e t ih =>
    simp only [Table.find] at h
    split at h
    · cases h
    · rename_i hne
      simp only [Table.drop, hne, if_false, ih h]

theorem execAdminKeySet_keeps {z0 : State} (m : Nat) (s : State) (h_s : z0.Keeps s) : State.Keeps.Ans z0 (execAdminKeySet m s) := by
  unfold execAdminKeySet
  apply State.command_keeps _ _ _ h_s
  · intro t u r hu hc ha
    dsimp only at hc ⊢
    apply State.Keeps.endDone
    refine State.Keeps.kUpd hu (hk := ?_)
    have key : u.kept.adminKeys ≠ [] → (if leAt r.data 1 1 = 0 then u.kept.adminKeys.put (leAt r.data 0 1) (slice r.data 8 96)
        else Table.drop u.kept.adminKeys (leAt r.data 0 1)) ≠ [] := by
      intro hn
      split
      · exact Table.put_ne_nil _ _ _
      · rename_i h0
        rw [ha] at hn ⊢
        unfold lengthZero at hc
        split at hc
        · simp only [Option.orElse_none] at hc
          split at hc
          · cases hc
          · split at hc
            · cases hc
            · split at hc
              · cases hc
              · rename_i h2 _ h3
                have h1 : leAt r.data 1 1 = 1 := by omega
                cases hf : t.kept.adminKeys.find (leAt r.data 0 1) with
                | none => rw [Table.drop_absent _ _ hf]; exact hn
                | some v =>
                  have hh : t.kept.adminKeys.has (leAt r.data 0 1) = true := by simp [Table.has, hf]
                  have hl : t.kept.adminKeys.length ≠ 1 := by
                    intro hl
                    exact h3 (by simp [h1, hh, hl])
                  have hd := Table.length_drop t.kept.adminKeys (leAt r.data 0 1)
                  have hp : 0 < t.kept.adminKeys.length := List.length_pos_iff.2 hn
                  intro he
                  rw [he] at hd
                  simp at hd
                  omega
        · simp at hc
    refine ⟨id, Nat.le_refl _, id, id, key, fun hk hf => key (hk hf)⟩
  · intro t r st ht
    exact ht

theorem execConsoleUnlock_keeps {z0 : State} (m : Nat) (s : State) (h_s : z0.Keeps s) :
    State.Keeps.Ans z0 (execConsoleUnlock m s) := by
  unfold execConsoleUnlock
  try dsimp only
  with_reducible repeat' first | assumption | intro _ | apply State.command_keeps | apply endDone | (refine kUpd ?_; assumption)

theorem execConsoleLock_keeps {z0 : State} (m : Nat) (s : State) (h_s : z0.Keeps s) :
    State.Keeps.Ans z0 (execConsoleLock m s) := by
  unfold execConsoleLock
  try dsimp only
  with_reducible repeat' first | assumption | intro _ | apply State.command_keeps | apply endDone | (refine kUpd ?_; assumption)

theorem execConsoleLine_keeps {z0 : State} (line : List Byte) (s : State) (h_s : z0.Keeps s) :
    State.Keeps.Ans z0 (execConsoleLine line s) := by
  unfold execConsoleLine
  try dsimp only
  repeat' first | (with_reducible first | assumption | apply ansNext | apply kIte | (refine kUpd ?_; assumption)) | split

theorem execConsoleTimeout_keeps {z0 : State} (s : State) (h_s : z0.Keeps s) :
    State.Keeps.Ans z0 (execConsoleTimeout s) := by
  unfold execConsoleTimeout
  try dsimp only
  repeat' first | (with_reducible first | assumption | apply ansNext | apply kIte | (refine kUpd ?_; assumption)) | split

theorem execOperatingTimeSlot_keeps {z0 : State} (s : State) (h_s : z0.Keeps s) :
    State.Keeps.Ans z0 (execOperatingTimeSlot s) := by
  unfold execOperatingTimeSlot
  try dsimp only
  with_reducible repeat' first | assumption | apply State.count_keeps | apply ansNext | apply kIte | (refine kUpd ?_; assumption)

/-! ### Machine/Keys.lean -/

theorem State.reportKeys_keeps {z0 : State} (s : State) (h_s : z0.Keeps s) :
    z0.Keeps (State.reportKeys s) := by
  unfold State.reportKeys
  try dsimp only
  with_reducible repeat' first | assumption | apply State.report_keeps

theorem keyRefused_keeps {z0 : State} (s : State) (r : Req) (st : Status) (h_s : z0.Keeps s) :
    z0.Keeps (keyRefused s r st) := by
  unfold keyRefused
  try dsimp only
  with_reducible repeat' first | assumption | apply State.raise_keeps | apply State.count_keeps | apply kIte

theorem execKeyLoad_keeps {z0 : State} (m : Nat) (s : State) (h_s : z0.Keeps s) :
    State.Keeps.Ans z0 (execKeyLoad m s) := by
  unfold execKeyLoad
  try dsimp only
  repeat' first
    | (with_reducible first
       | assumption | intro _ | apply State.command_keeps | apply keyRefused_keeps | apply State.putKey_keeps
       | apply State.reportKeys_keeps | apply endDone | apply endIte)
    | split

theorem execKeyRotate_keeps {z0 : State} (m : Nat) (s : State) (h_s : z0.Keeps s) :
    State.Keeps.Ans z0 (execKeyRotate m s) := by
  unfold execKeyRotate
  try dsimp only
  repeat' first
    | (with_reducible first
       | assumption | intro _ | apply State.command_keeps | apply keyRefused_keeps | apply State.putKey_keeps | apply State.wr_keeps
       | apply State.arm_keeps | apply endDone)
    | dsimp only
    | (with_reducible refine kUpd ?_; with_reducible assumption)
    | split

theorem execKeyErase_keeps {z0 : State} (m : Nat) (s : State) (h_s : z0.Keeps s) :
    State.Keeps.Ans z0 (execKeyErase m s) := by
  unfold execKeyErase
  try dsimp only
  with_reducible repeat' first
    | assumption | intro _ | apply State.command_keeps | apply State.putKey_keeps | apply State.wr_keeps | apply State.reportKeys_keeps
    | apply endDone | apply kIte | (refine kUpd ?_; apply State.putKey_keeps)

theorem execKeyStatus_keeps {z0 : State} (m : Nat) (s : State) (h_s : z0.Keeps s) :
    State.Keeps.Ans z0 (execKeyStatus m s) := by
  unfold execKeyStatus
  try dsimp only
  with_reducible repeat' first | assumption | intro _ | apply State.command_keeps | apply endDone

theorem State.unlockKey_keeps {z0 : State} (s : State) (id : Nat) (h_s : z0.Keeps s) :
    z0.Keeps (State.unlockKey s id) := by
  unfold State.unlockKey
  try dsimp only
  with_reducible repeat' first | assumption | apply State.putKey_keeps

theorem execKeyUnlock_keeps {z0 : State} (m : Nat) (s : State) (h_s : z0.Keeps s) :
    State.Keeps.Ans z0 (execKeyUnlock m s) := by
  unfold execKeyUnlock
  try dsimp only
  with_reducible repeat' first
    | assumption | intro _ | apply State.command_keeps | apply State.unlockKey_keeps | apply State.sendAll_keeps | apply endDone
    | apply kIte

theorem State.rekeyDone_keeps {z0 : State} (s : State) (w : Rekey) (h_s : z0.Keeps s) :
    z0.Keeps (State.rekeyDone s w) := by
  unfold State.rekeyDone
  try dsimp only
  with_reducible repeat' first
    | assumption | apply State.wr_keeps | apply State.disarm_keeps | apply State.raise_keeps | apply State.reportKeys_keeps
    | (refine kUpd ?_; apply State.putKey_keeps)

theorem State.walkNode_keeps {z0 : State} (s : State) (w : Rekey) (h_s : z0.Keeps s) :
    z0.Keeps (State.walkNode s w) := by
  unfold State.walkNode
  try dsimp only
  repeat' first
    | (with_reducible first | assumption | apply State.rekeyDone_keeps | apply State.selvedgePast_keeps | apply State.startConv_keeps | apply kIte)
    | split

theorem execRekeyNode_keeps {z0 : State} (s : State) (h_s : z0.Keeps s) :
    State.Keeps.Ans z0 (execRekeyNode s) := by
  unfold execRekeyNode
  try dsimp only
  repeat' first | (with_reducible first | assumption | apply State.walkNode_keeps | apply ansNext) | split

theorem execSelvedgeCheckpoint_keeps {z0 : State} (s : State) (h_s : z0.Keeps s) :
    State.Keeps.Ans z0 (execSelvedgeCheckpoint s) := by
  unfold execSelvedgeCheckpoint
  try dsimp only
  repeat' first
    | (with_reducible first | assumption | intro _ | apply State.periodic_keeps | apply ansNext | (refine kUpd ?_; assumption))
    | split

theorem State.jtagOpen_keeps {z0 : State} (s : State) (scope : Nat) (h_s : z0.Keeps s) :
    z0.Keeps (State.jtagOpen s scope) := by
  unfold State.jtagOpen
  try dsimp only
  with_reducible repeat' first
    | assumption | apply State.setFld_keeps | apply State.raise_keeps | apply State.reportKeys_keeps | apply kIte
    | (refine kUpd ?_; apply State.raise_keeps)

theorem State.jtagLock_keeps {z0 : State} (s : State) (h_s : z0.Keeps s) :
    z0.Keeps (State.jtagLock s) := by
  unfold State.jtagLock
  try dsimp only
  with_reducible repeat' first | assumption | apply State.setFld_keeps

theorem execJtagUnlock_keeps {z0 : State} (m : Nat) (s : State) (h_s : z0.Keeps s) :
    State.Keeps.Ans z0 (execJtagUnlock m s) := by
  unfold execJtagUnlock
  try dsimp only
  with_reducible repeat' first | assumption | intro _ | apply State.command_keeps | apply State.jtagOpen_keeps | apply endDone

theorem execJtagLock_keeps {z0 : State} (m : Nat) (s : State) (h_s : z0.Keeps s) :
    State.Keeps.Ans z0 (execJtagLock m s) := by
  unfold execJtagLock
  try dsimp only
  with_reducible repeat' first | assumption | intro _ | apply State.command_keeps | apply State.jtagLock_keeps | apply endDone

theorem execJtagNonceRead_keeps {z0 : State} (s : State) (h_s : z0.Keeps s) :
    State.Keeps.Ans z0 (execJtagNonceRead s) := by
  unfold execJtagNonceRead
  try dsimp only
  with_reducible repeat' first | assumption | apply ansNext | (refine kUpd ?_; apply State.draw256_keeps)

theorem State.jtagFail_keeps {z0 : State} (s : State) (h_s : z0.Keeps s) :
    z0.Keeps (State.jtagFail s) := by
  unfold State.jtagFail
  try dsimp only
  with_reducible repeat' first
    | assumption | apply State.setFld_keeps | apply State.setFlag_keeps | apply State.alarm_keeps | apply kIte
    | (refine kUpd ?_; apply State.setFld_keeps)

theorem execJtagUnlockSig_keeps {z0 : State} (scope : Nat) (key : Nat) (sig : List Byte) (s : State) (h_s : z0.Keeps s) :
    State.Keeps.Ans z0 (execJtagUnlockSig scope key sig s) := by
  unfold execJtagUnlockSig
  try dsimp only
  repeat' first
    | (with_reducible first
       | assumption | apply State.jtagFail_keeps | apply State.jRefuse_keeps | apply State.jChange_keeps | apply State.setFld_keeps
       | apply State.jtagOpen_keeps | apply ansWithin | (refine kUpd ?_; assumption))
    | split

theorem execJtagCloseExpire_keeps {z0 : State} (s : State) (h_s : z0.Keeps s) :
    State.Keeps.Ans z0 (execJtagCloseExpire s) := by
  unfold execJtagCloseExpire
  try dsimp only
  repeat' first
    | (with_reducible first
       | assumption | apply State.clrFlag_keeps | apply State.setFld_keeps | apply ansNext | apply kIte | (refine kUpd ?_; assumption))
    | split

theorem execDmaRefused_keeps {z0 : State} (master : Nat) (addr : Nat) (s : State) (h_s : z0.Keeps s) :
    State.Keeps.Ans z0 (execDmaRefused master addr s) := by
  unfold execDmaRefused
  try dsimp only
  with_reducible repeat' first
    | assumption | apply State.jAlways_keeps | apply State.count_keeps | apply State.raise_keeps | apply ansWithin | apply kIte

theorem State.putSa_keeps {z0 : State} (s : State) (k : Nat) (a : MacSa) (h_s : z0.Keeps s) :
    z0.Keeps (State.putSa s k a) := by
  unfold State.putSa
  try dsimp only
  with_reducible repeat' first | (refine kUpd ?_; assumption)

theorem execMacsecSaInstall_keeps {z0 : State} (m : Nat) (s : State) (h_s : z0.Keeps s) :
    State.Keeps.Ans z0 (execMacsecSaInstall m s) := by
  unfold execMacsecSaInstall
  try dsimp only
  repeat' first
    | (with_reducible first | assumption | intro _ | apply State.command_keeps | apply State.putSa_keeps | apply endDone)
    | dsimp only
    | split

theorem execMacsecSaDelete_keeps {z0 : State} (m : Nat) (s : State) (h_s : z0.Keeps s) :
    State.Keeps.Ans z0 (execMacsecSaDelete m s) := by
  unfold execMacsecSaDelete
  try dsimp only
  repeat' first
    | (with_reducible first | assumption | intro _ | apply State.command_keeps | apply endDone)
    | dsimp only
    | (with_reducible refine kUpd ?_; with_reducible assumption)
    | split

theorem execMacsecTxActivate_keeps {z0 : State} (m : Nat) (s : State) (h_s : z0.Keeps s) :
    State.Keeps.Ans z0 (execMacsecTxActivate m s) := by
  unfold execMacsecTxActivate
  try dsimp only
  repeat' first
    | (with_reducible first | assumption | intro _ | apply State.command_keeps | apply endDone)
    | dsimp only
    | (with_reducible refine kUpd ?_; with_reducible assumption)
    | split

theorem execMacsecSaStatus_keeps {z0 : State} (m : Nat) (s : State) (h_s : z0.Keeps s) :
    State.Keeps.Ans z0 (execMacsecSaStatus m s) := by
  unfold execMacsecSaStatus
  try dsimp only
  repeat' first | (with_reducible first | assumption | intro _ | apply State.command_keeps | apply endDone) | dsimp only | split

/-! ### Machine/Tables.lean -/

theorem State.clearPanel_keeps {z0 : State} (s : State) (hp : Nat) (lp : Nat) (h_s : z0.Keeps s) :
    z0.Keeps (State.clearPanel s hp lp) := by
  unfold State.clearPanel
  try dsimp only
  with_reducible repeat' first | (refine kUpd ?_; assumption)

theorem State.hintHere_keeps {z0 : State} (s : State) (a : Nat) (h_s : z0.Keeps s) :
    z0.Keeps (State.hintHere s a) := by
  unfold State.hintHere
  try dsimp only
  repeat' first | (with_reducible first | assumption | (refine kUpd ?_; assumption)) | split

theorem State.setHints_keeps {z0 : State} (s : State) (base : Nat) (size : Nat) (hint : Nat) (h_s : z0.Keeps s) :
    z0.Keeps (State.setHints s base size hint) := by
  unfold State.setHints
  try dsimp only
  with_reducible repeat' first | assumption | intro _ | apply State.hintHere_keeps | apply kFoldl | (refine kUpd ?_; assumption)

theorem State.takeHints_keeps {z0 : State} (s : State) (l : Table Nat) (h_s : z0.Keeps s) :
    z0.Keeps (State.takeHints s l) := by
  unfold State.takeHints
  try dsimp only
  with_reducible repeat' first | assumption | intro _ | apply State.hintHere_keeps | apply kFoldl | (refine kUpd ?_; assumption)

theorem State.freshPanel_keeps {z0 : State} (s : State) (lp : Nat) (keyId : Nat) (h_s : z0.Keeps s) :
    z0.Keeps (State.freshPanel s lp keyId) := by
  unfold State.freshPanel
  try dsimp only
  with_reducible repeat' first | (refine kUpd ?_; assumption)

theorem State.regrant_keeps {z0 : State} (s : State) (id : Nat) (g : Option Grant) (h_s : z0.Keeps s) :
    z0.Keeps (State.regrant s id g) := by
  unfold State.regrant
  try dsimp only
  with_reducible repeat' first | assumption | intro _ | apply State.resetConn_keeps | apply kIte | apply kFoldl

theorem State.keepMap_keeps {z0 : State} (s : State) (hp : Nat) (d : DirEntry) (h_s : z0.Keeps s) :
    z0.Keeps (State.keepMap s hp d) := by
  unfold State.keepMap
  try dsimp only
  with_reducible repeat' first | (refine kUpd ?_; assumption)

theorem State.putDir_keeps {z0 : State} (s : State) (hp : Nat) (e : Option DirEntry) (h_s : z0.Keeps s) :
    z0.Keeps (State.putDir s hp e) := by
  unfold State.putDir
  try dsimp only
  repeat' first
    | (with_reducible first
       | assumption | intro _ | apply State.clearPanel_keeps | apply State.keepMap_keeps | apply State.freshPanel_keeps
       | apply State.hintHere_keeps | apply kIte | apply kFoldl)
    | dsimp only
    | (with_reducible refine kUpd ?_; with_reducible apply kFoldl)
    | split

theorem State.applyChange_keeps {z0 : State} (s : State) (c : TableChange) (h_s : z0.Keeps s) :
    z0.Keeps (State.applyChange s c) := by
  unfold State.applyChange
  try dsimp only
  repeat' first
    | (with_reducible first
       | assumption | intro _ | apply State.regrant_keeps | apply State.putDir_keeps | apply kIte
       | (refine kUpd ?_; first | assumption | apply kFoldl))
    | split

theorem State.applyChanges_keeps {z0 : State} (s : State) (l : List TableChange) (h_s : z0.Keeps s) :
    z0.Keeps (State.applyChanges s l) := by
  unfold State.applyChanges
  try dsimp only
  with_reducible repeat' first | assumption | intro _ | apply State.applyChange_keeps | apply kFoldl

theorem State.panelNotice_keeps {z0 : State} (s : State) (kind : Nat) (panels : List Nat) (h_s : z0.Keeps s) :
    z0.Keeps (State.panelNotice s kind panels) := by
  unfold State.panelNotice
  try dsimp only
  with_reducible repeat' first | assumption | intro _ | apply State.notice_keeps | apply kIte | apply kFoldl

theorem State.syncAct_keeps {z0 : State} (s : State) (a : SyncAct) (h_s : z0.Keeps s) :
    z0.Keeps (State.syncAct s a) := by
  unfold State.syncAct
  try dsimp only
  repeat' first | (with_reducible first | assumption | apply State.panelNotice_keeps | (refine kUpd ?_; assumption)) | split

theorem State.change_keeps {z0 : State} (s : State) (l : List TableChange) (a : SyncAct) (h_s : z0.Keeps s) :
    z0.Keeps (State.change s l a) := by
  unfold State.change
  try dsimp only
  repeat' first
    | (with_reducible first
       | assumption | intro _ | apply State.sendControl_keeps | apply State.applyChanges_keeps | apply State.syncAct_keeps | apply kIte
       | apply kFoldl | (refine kUpd ?_; apply State.sendControl_keeps))
    | split

theorem State.synced_keeps {z0 : State} (s : State) (rack : Nat) (h_s : z0.Keeps s) :
    z0.Keeps (State.synced s rack) := by
  unfold State.synced
  try dsimp only
  with_reducible repeat' first
    | assumption | intro _ | apply State.applyChanges_keeps | apply State.syncAct_keeps | apply kFoldl | (refine kUpd ?_; assumption)

theorem State.syncedAll_keeps {z0 : State} (s : State) (h_s : z0.Keeps s) :
    z0.Keeps (State.syncedAll s) := by
  unfold State.syncedAll
  try dsimp only
  with_reducible repeat' first
    | assumption | intro _ | apply State.applyChanges_keeps | apply State.syncAct_keeps | apply kFoldl | (refine kUpd ?_; assumption)

theorem State.changeEnd_keeps {z0 : State} (s : State) (r : Req) (l : List TableChange) (h_s : z0.Keeps s) :
    State.Keeps.End z0 (State.changeEnd s r l) := by
  unfold State.changeEnd
  try dsimp only
  with_reducible repeat' first | assumption | apply State.change_keeps | apply endDone | apply endLater | apply endIte

theorem execRegionCreate_keeps {z0 : State} (m : Nat) (s : State) (h_s : z0.Keeps s) :
    State.Keeps.Ans z0 (execRegionCreate m s) := by
  unfold execRegionCreate
  try dsimp only
  repeat' first
    | (with_reducible first | assumption | intro _ | apply State.command_keeps | apply State.changeEnd_keeps | apply endDone)
    | dsimp only
    | split

theorem execRegionDelete_keeps {z0 : State} (m : Nat) (s : State) (h_s : z0.Keeps s) :
    State.Keeps.Ans z0 (execRegionDelete m s) := by
  unfold execRegionDelete
  try dsimp only
  with_reducible repeat' first | assumption | intro _ | apply State.command_keeps | apply State.change_keeps | apply endLater

theorem execRegionList_keeps {z0 : State} (m : Nat) (s : State) (h_s : z0.Keeps s) :
    State.Keeps.Ans z0 (execRegionList m s) := by
  unfold execRegionList
  try dsimp only
  with_reducible repeat' first | assumption | intro _ | apply State.command_keeps | apply endDone

theorem execGrantSet_keeps {z0 : State} (m : Nat) (s : State) (h_s : z0.Keeps s) :
    State.Keeps.Ans z0 (execGrantSet m s) := by
  unfold execGrantSet
  try dsimp only
  with_reducible repeat' first | assumption | intro _ | apply State.command_keeps | apply State.changeEnd_keeps

theorem execGrantDelete_keeps {z0 : State} (m : Nat) (s : State) (h_s : z0.Keeps s) :
    State.Keeps.Ans z0 (execGrantDelete m s) := by
  unfold execGrantDelete
  try dsimp only
  with_reducible repeat' first | assumption | intro _ | apply State.command_keeps | apply State.changeEnd_keeps

theorem execGrantList_keeps {z0 : State} (m : Nat) (s : State) (h_s : z0.Keeps s) :
    State.Keeps.Ans z0 (execGrantList m s) := by
  unfold execGrantList
  try dsimp only
  repeat' first | (with_reducible first | assumption | intro _ | apply State.command_keeps | apply endDone) | dsimp only | split

/-! ### Machine/Opcodes.lean -/

theorem State.clearPanels_keeps {z0 : State} (s : State) (a : SyncAct) (h_s : z0.Keeps s) :
    z0.Keeps (State.clearPanels s a) := by
  unfold State.clearPanels
  try dsimp only
  with_reducible repeat' first | assumption | apply State.change_keeps | apply kIte

theorem State.putSplit_keeps {z0 : State} (s : State) (id : Nat) (x : Split) (h_s : z0.Keeps s) :
    z0.Keeps (State.putSplit s id x) := by
  unfold State.putSplit
  try dsimp only
  with_reducible repeat' first | (refine kUpd ?_; assumption)

theorem State.modPart_keeps {z0 : State} (s : State) (id : Nat) (k : Nat) (f : Part → Part) (h_s : z0.Keeps s) :
    z0.Keeps (State.modPart s id k f) := by
  unfold State.modPart
  try dsimp only
  with_reducible repeat' first | (refine kUpd ?_; assumption)

theorem State.refOf_keeps {z0 : State} (s : State) (id : Nat) (k : Nat) (h_s : z0.Keeps s) :
    z0.Keeps (State.refOf s id k).2 := by
  unfold State.refOf
  try dsimp only
  repeat' first | with_reducible assumption | dsimp only | (with_reducible refine kUpd ?_; with_reducible assumption) | split

theorem State.forwardFrames_keeps {z0 : State} (s : State) (f : LaceFrame) (opref : Nat) (conn : Nat) (t : Stitch) (h_s : z0.Keeps s) :
    z0.Keeps (State.forwardFrames s f opref conn t) := by
  unfold State.forwardFrames
  try dsimp only
  with_reducible repeat' first | assumption | intro _ | apply State.sendRoute_keeps | apply kFoldl

theorem State.sendPart_keeps {z0 : State} (s : State) (id : Nat) (k : Nat) (o : Op) (p : Part) (prepare : Bool) (commit : Bool) (abort : Bool) (h_s : z0.Keeps s) :
    z0.Keeps (State.sendPart s id k o p prepare commit abort) := by
  unfold State.sendPart
  try dsimp only
  with_reducible repeat' first
    | assumption | apply State.refOf_keeps | apply State.forwardFrames_keeps | apply State.count_keeps | apply State.modPart_keeps
    | apply kIte | (refine kUpd ?_; first | assumption | apply State.count_keeps)

theorem State.sendParts_keeps {z0 : State} (s : State) (id : Nat) (o : Op) (l : List Part) (prepare : Bool) (commit : Bool) (abort : Bool) (h_s : z0.Keeps s) :
    z0.Keeps (State.sendParts s id o l prepare commit abort) := by
  unfold State.sendParts
  try dsimp only
  repeat' first | (with_reducible first | assumption | intro _ | apply State.sendPart_keeps | apply kFoldl) | split

theorem State.beginWrite_keeps {z0 : State} (s : State) (id : Nat) (o : Op) (l : List Part) (h_s : z0.Keeps s) :
    z0.Keeps (State.beginWrite s id o l) := by
  unfold State.beginWrite
  try dsimp only
  with_reducible repeat' first
    | assumption | apply State.putSplit_keeps | apply State.count_keeps | apply State.sendParts_keeps | apply kIte

theorem State.startSplit_keeps {z0 : State} (s0 : State) (id : Nat) (o : Op) (h_s0 : z0.Keeps s0) :
    z0.Keeps (State.startSplit s0 id o) := by
  unfold State.startSplit
  try dsimp only
  repeat' first
    | (with_reducible first
       | assumption | apply State.modOp_keeps | apply State.count_keeps | apply State.putSplit_keeps | apply State.sendParts_keeps
       | apply State.beginWrite_keeps | apply kIte)
    | split

theorem State.beginOp_keeps {z0 : State} (s : State) (id : Nat) (o : Op) (h_s : z0.Keeps s) :
    z0.Keeps (State.beginOp s id o) := by
  unfold State.beginOp
  try dsimp only
  repeat' first | (with_reducible first | assumption | apply State.runLocal_keeps | apply State.startSplit_keeps | apply kIte) | split

theorem State.repairRead_keeps {z0 : State} (s : State) (id : Nat) (o : Op) (x : Split) (bad : Nat) (good : Nat) (h_s : z0.Keeps s) :
    z0.Keeps (State.repairRead s id o x bad good) := by
  unfold State.repairRead
  try dsimp only
  repeat' first | (with_reducible first | assumption | apply State.putSplit_keeps | apply State.sendPart_keeps) | split

theorem State.endSplit_keeps {z0 : State} (s : State) (id : Nat) (r : Response) (h_s : z0.Keeps s) :
    z0.Keeps (State.endSplit s id r) := by
  unfold State.endSplit
  try dsimp only
  with_reducible repeat' first | apply State.finishOp_keeps | (refine kUpd ?_; assumption)

theorem State.settleRun_keeps {z0 : State} (s : State) (id : Nat) (o : Op) (x : Split) (h_s : z0.Keeps s) :
    z0.Keeps (State.settleRun s id o x) := by
  unfold State.settleRun
  try dsimp only
  repeat' first
    | (with_reducible first
       | assumption | apply State.repairRead_keeps | apply State.putSplit_keeps | apply State.sendPart_keeps | apply State.endSplit_keeps
       | apply kIte | (refine kUpd ?_; assumption))
    | split

theorem State.settlePrepare_keeps {z0 : State} (s : State) (id : Nat) (o : Op) (x : Split) (h_s : z0.Keeps s) :
    z0.Keeps (State.settlePrepare s id o x) := by
  unfold State.settlePrepare
  try dsimp only
  repeat' first
    | (with_reducible first
       | assumption | intro _ | apply State.sendParts_keeps | apply State.endSplit_keeps | apply State.putSplit_keeps
       | apply State.sendPart_keeps | apply kIte | apply kFoldl)
    | split

theorem State.settleCopy_keeps {z0 : State} (s : State) (id : Nat) (o : Op) (x : Split) (h_s : z0.Keeps s) :
    z0.Keeps (State.settleCopy s id o x) := by
  unfold State.settleCopy
  try dsimp only
  repeat' first
    | (with_reducible first | assumption | apply State.endSplit_keeps | apply State.beginWrite_keeps | (refine kUpd ?_; assumption))
    | split

theorem State.settleGood_keeps {z0 : State} (s : State) (id : Nat) (o : Op) (x : Split) (bad : Nat) (h_s : z0.Keeps s) :
    z0.Keeps (State.settleGood s id o x bad) := by
  unfold State.settleGood
  try dsimp only
  repeat' first
    | (with_reducible first
       | assumption | apply State.count_keeps | apply State.raise_keeps | apply State.putSplit_keeps | apply State.sendPart_keeps
       | apply kIte | (refine kUpd ?_; apply kIte))
    | split

theorem State.settle_keeps {z0 : State} (s : State) (id : Nat) (h_s : z0.Keeps s) :
    z0.Keeps (State.settle s id) := by
  unfold State.settle
  try dsimp only
  repeat' first
    | (with_reducible first
       | assumption | apply State.settleRun_keeps | apply State.settlePrepare_keeps | apply State.settleCopy_keeps
       | apply State.settleGood_keeps | apply kIte | (refine kUpd ?_; apply State.putSplit_keeps))
    | split

theorem State.partDone_keeps {z0 : State} (s : State) (id : Nat) (k : Nat) (r : Response) (h_s : z0.Keeps s) :
    z0.Keeps (State.partDone s id k r) := by
  unfold State.partDone
  try dsimp only
  repeat' first | (with_reducible first | assumption | apply State.modPart_keeps | apply State.settle_keeps) | split

theorem State.memRow_keeps {z0 : State} (s : State) (op : Nat) (opcode : Nat) (subop : Nat) (h_s : z0.Keeps s) :
    z0.Keeps (State.memRow s op opcode subop) := by
  unfold State.memRow
  try dsimp only
  repeat' first | (with_reducible first | assumption | apply State.failOp_keeps | apply State.beginOp_keeps | apply kIte) | split

theorem execRead_keeps {z0 : State} (op : Nat) (s : State) (h_s : z0.Keeps s) :
    State.Keeps.Ans z0 (execRead op s) := by
  unfold execRead
  try dsimp only
  with_reducible repeat' first | assumption | apply State.memRow_keeps | apply ansNext

theorem execWrite_keeps {z0 : State} (op : Nat) (s : State) (h_s : z0.Keeps s) :
    State.Keeps.Ans z0 (execWrite op s) := by
  unfold execWrite
  try dsimp only
  with_reducible repeat' first | assumption | apply State.memRow_keeps | apply ansNext

theorem execFetchAdd_keeps {z0 : State} (op : Nat) (s : State) (h_s : z0.Keeps s) :
    State.Keeps.Ans z0 (execFetchAdd op s) := by
  unfold execFetchAdd
  try dsimp only
  with_reducible repeat' first | assumption | apply State.memRow_keeps | apply ansNext

theorem execSwap_keeps {z0 : State} (op : Nat) (s : State) (h_s : z0.Keeps s) :
    State.Keeps.Ans z0 (execSwap op s) := by
  unfold execSwap
  try dsimp only
  with_reducible repeat' first | assumption | apply State.memRow_keeps | apply ansNext

theorem execCmpSwap_keeps {z0 : State} (op : Nat) (s : State) (h_s : z0.Keeps s) :
    State.Keeps.Ans z0 (execCmpSwap op s) := by
  unfold execCmpSwap
  try dsimp only
  with_reducible repeat' first | assumption | apply State.memRow_keeps | apply ansNext

theorem execFetchAnd_keeps {z0 : State} (op : Nat) (s : State) (h_s : z0.Keeps s) :
    State.Keeps.Ans z0 (execFetchAnd op s) := by
  unfold execFetchAnd
  try dsimp only
  with_reducible repeat' first | assumption | apply State.memRow_keeps | apply ansNext

theorem execFetchOr_keeps {z0 : State} (op : Nat) (s : State) (h_s : z0.Keeps s) :
    State.Keeps.Ans z0 (execFetchOr op s) := by
  unfold execFetchOr
  try dsimp only
  with_reducible repeat' first | assumption | apply State.memRow_keeps | apply ansNext

theorem execFetchXor_keeps {z0 : State} (op : Nat) (s : State) (h_s : z0.Keeps s) :
    State.Keeps.Ans z0 (execFetchXor op s) := by
  unfold execFetchXor
  try dsimp only
  with_reducible repeat' first | assumption | apply State.memRow_keeps | apply ansNext

theorem execFetchMinS_keeps {z0 : State} (op : Nat) (s : State) (h_s : z0.Keeps s) :
    State.Keeps.Ans z0 (execFetchMinS op s) := by
  unfold execFetchMinS
  try dsimp only
  with_reducible repeat' first | assumption | apply State.memRow_keeps | apply ansNext

theorem execFetchMaxS_keeps {z0 : State} (op : Nat) (s : State) (h_s : z0.Keeps s) :
    State.Keeps.Ans z0 (execFetchMaxS op s) := by
  unfold execFetchMaxS
  try dsimp only
  with_reducible repeat' first | assumption | apply State.memRow_keeps | apply ansNext

theorem execFetchMinU_keeps {z0 : State} (op : Nat) (s : State) (h_s : z0.Keeps s) :
    State.Keeps.Ans z0 (execFetchMinU op s) := by
  unfold execFetchMinU
  try dsimp only
  with_reducible repeat' first | assumption | apply State.memRow_keeps | apply ansNext

theorem execFetchMaxU_keeps {z0 : State} (op : Nat) (s : State) (h_s : z0.Keeps s) :
    State.Keeps.Ans z0 (execFetchMaxU op s) := by
  unfold execFetchMaxU
  try dsimp only
  with_reducible repeat' first | assumption | apply State.memRow_keeps | apply ansNext

theorem execCopy_keeps {z0 : State} (op : Nat) (s : State) (h_s : z0.Keeps s) :
    State.Keeps.Ans z0 (execCopy op s) := by
  unfold execCopy
  try dsimp only
  with_reducible repeat' first | assumption | apply State.memRow_keeps | apply ansNext

theorem execFill_keeps {z0 : State} (op : Nat) (s : State) (h_s : z0.Keeps s) :
    State.Keeps.Ans z0 (execFill op s) := by
  unfold execFill
  try dsimp only
  with_reducible repeat' first | assumption | apply State.memRow_keeps | apply ansNext

theorem execFlush_keeps {z0 : State} (op : Nat) (s : State) (h_s : z0.Keeps s) :
    State.Keeps.Ans z0 (execFlush op s) := by
  unfold execFlush
  try dsimp only
  repeat' first
    | (with_reducible first | assumption | apply State.failOp_keeps | apply State.finishOp_keeps | apply ansNext | apply kIte)
    | split

end Sys2Proof.Machine
end

