-- ==== Sys2Proof/Laws/KeepsHoop.lean ====
section
/-!
SUPPORT. What the operations keep (Laws/Keeps.lean): filet compute and the hoop.
-/
namespace Sys2Proof.Machine
set_option Elab.async false
open State.Keeps

/-! ### Machine/Tiles.lean -/

theorem State.putTile_keeps {z0 : State} (s : State) (t : Nat) (x : Tile) (h_s : z0.Keeps s) :
    z0.Keeps (State.putTile s t x) := by
  unfold State.putTile
  try dsimp only
  with_reducible repeat' first | (refine kUpd ?_; assumption)

theorem State.modMatrix_keeps {z0 : State} (s : State) (id : Nat) (f : Matrix → Matrix) (h_s : z0.Keeps s) :
    z0.Keeps (State.modMatrix s id f) := by
  unfold State.modMatrix
  try dsimp only
  with_reducible repeat' first | (refine kUpd ?_; assumption)

theorem State.modGroup_keeps {z0 : State} (s : State) (id : Nat) (g : Nat) (f : FGroup → FGroup) (h_s : z0.Keeps s) :
    z0.Keeps (State.modGroup s id g f) := by
  unfold State.modGroup
  try dsimp only
  with_reducible repeat' first | assumption | apply State.modMatrix_keeps

theorem State.modJobs_keeps {z0 : State} (s : State) (id : Nat) (f : FJob → FJob) (h_s : z0.Keeps s) :
    z0.Keeps (State.modJobs s id f) := by
  unfold State.modJobs
  try dsimp only
  with_reducible repeat' first | (refine kUpd ?_; assumption)

theorem State.fetchShadow_keeps {z0 : State} (s : State) (lines : List Nat) (r : Reader := .maint) (h_s : z0.Keeps s) :
    z0.Keeps (State.fetchShadow s lines r) := by
  unfold State.fetchShadow
  try dsimp only
  repeat' first
    | (with_reducible first
       | assumption | intro _ | apply State.noteShadow_keeps | apply kIte | apply kFoldl
       | (refine kUpd ?_; (refine kSnd (by assumption) ?_; apply State.startFill_keeps)))
    | split

theorem State.takeTiles_keeps {z0 : State} (s : State) (id : Nat) (g : Nat) (tiles : List Nat) (h_s : z0.Keeps s) :
    z0.Keeps (State.takeTiles s id g tiles) := by
  unfold State.takeTiles
  try dsimp only
  with_reducible repeat' first | assumption | intro _ | apply State.putTile_keeps | apply kFoldl

theorem State.fallbackGroup_keeps {z0 : State} (s : State) (id : Nat) (g : Nat) (tile : Nat) (h_s : z0.Keeps s) :
    z0.Keeps (State.fallbackGroup s id g tile) := by
  unfold State.fallbackGroup
  try dsimp only
  repeat' first
    | (with_reducible first | assumption | apply State.modGroup_keeps | apply State.raiseTile_keeps | apply State.modJobs_keeps | apply kIte)
    | split

theorem State.startProg_keeps {z0 : State} (s : State) (id : Nat) (g : Nat) (why : ProgWhy) (h_s : z0.Keeps s) :
    z0.Keeps (State.startProg s id g why) := by
  unfold State.startProg
  try dsimp only
  repeat' first
    | (with_reducible first
       | assumption | apply State.raiseTile_keeps | apply State.fallbackGroup_keeps | apply State.fetchShadow_keeps | apply kIte
       | (refine kUpd ?_; apply State.takeTiles_keeps))
    | split

theorem State.refreshNow_keeps {z0 : State} (s : State) (id : Nat) (g : Nat) (h_s : z0.Keeps s) :
    z0.Keeps (State.refreshNow s id g) := by
  unfold State.refreshNow
  try dsimp only
  repeat' first | (with_reducible first | assumption | apply State.startProg_keeps | apply kIte) | split

theorem State.refreshMatrix_keeps {z0 : State} (s : State) (id : Nat) (x : Matrix) (h_s : z0.Keeps s) :
    z0.Keeps (State.refreshMatrix s id x) := by
  unfold State.refreshMatrix
  with_reducible repeat' first | assumption | intro _ | apply State.startProg_keeps | apply kFoldl

theorem State.staleWrite_keeps {z0 : State} (s : State) (addr : Nat) (len : Nat) (h_s : z0.Keeps s) :
    z0.Keeps (State.staleWrite s addr len) := by
  unfold State.staleWrite
  try dsimp only
  with_reducible repeat' first
    | assumption | intro _ | apply State.modGroup_keeps | apply State.refreshNow_keeps | apply kIte | apply kFoldl
    | (refine kUpd ?_; assumption)

theorem State.failTile_keeps {z0 : State} (s : State) (t : Nat) (cause : Nat) (h_s : z0.Keeps s) :
    z0.Keeps (State.failTile s t cause) := by
  unfold State.failTile
  try dsimp only
  with_reducible repeat' first
    | assumption | apply State.putTile_keeps | apply State.raiseTile_keeps | apply State.count_keeps | apply State.fallbackGroup_keeps
    | apply State.startProg_keeps

theorem State.freeTiles_keeps {z0 : State} (s : State) (l : List Nat) (h_s : z0.Keeps s) :
    z0.Keeps (State.freeTiles s l) := by
  unfold State.freeTiles
  try dsimp only
  with_reducible repeat' first | assumption | intro _ | apply State.putTile_keeps | apply kIte | apply kFoldl

theorem State.freeMatrix_keeps {z0 : State} (s : State) (id : Nat) (h_s : z0.Keeps s) :
    z0.Keeps (State.freeMatrix s id) := by
  unfold State.freeMatrix
  try dsimp only
  with_reducible repeat' first | assumption | (refine kUpd ?_; apply State.freeTiles_keeps)

theorem State.dropMatrix_keeps {z0 : State} (s : State) (id : Nat) (a : SyncAct) (h_s : z0.Keeps s) :
    z0.Keeps (State.dropMatrix s id a) := by
  unfold State.dropMatrix
  try dsimp only
  with_reducible repeat' first | assumption | apply State.freeMatrix_keeps | apply State.change_keeps

theorem State.matrixDone_keeps {z0 : State} (s : State) (id : Nat) (dev : Nat) (st : Status) (h_s : z0.Keeps s) :
    z0.Keeps (State.matrixDone s id dev st) := by
  unfold State.matrixDone
  try dsimp only
  repeat' first
    | (with_reducible first
       | assumption | apply State.modMatrix_keeps | apply State.report_keeps | apply State.putBox_keeps | apply State.jSecond_keeps
       | apply State.dropMatrix_keeps | apply kIte)
    | split

theorem State.groupsDone_keeps {z0 : State} (s : State) (id : Nat) (why : ProgWhy) (h_s : z0.Keeps s) :
    z0.Keeps (State.groupsDone s id why) := by
  unfold State.groupsDone
  try dsimp only
  with_reducible repeat' first | assumption | apply State.raise_keeps | apply State.matrixDone_keeps | apply kIte

theorem State.switchGroup_keeps {z0 : State} (s : State) (p : FProg) (q : List Nat × List Nat × List (List Int)) (h_s : z0.Keeps s) :
    z0.Keeps (State.switchGroup s p q) := by
  unfold State.switchGroup
  try dsimp only
  repeat' first
    | (with_reducible first
       | assumption | intro _ | apply State.freeTiles_keeps | apply State.draw_keeps | apply State.putTile_keeps
       | apply State.modMatrix_keeps | apply State.count_keeps | apply State.groupsDone_keeps | apply State.refreshNow_keeps | apply kIte
       | apply foldlQ | (refine kUpd ?_; apply State.modJobs_keeps))
    | split

theorem State.progStops_keeps {z0 : State} (s : State) (p : FProg) (st : Status) (h_s : z0.Keeps s) :
    z0.Keeps (State.progStops s p st) := by
  unfold State.progStops
  try dsimp only
  with_reducible repeat' first
    | assumption | intro _ | apply State.matrixDone_keeps | apply State.freeMatrix_keeps | apply State.putTile_keeps
    | apply State.freeTiles_keeps | apply State.raiseTile_keeps | apply State.count_keeps | apply State.groupsDone_keeps | apply kIte
    | apply kFoldl | (refine kUpd ?_; assumption)

theorem State.progFails_keeps {z0 : State} (s : State) (p : FProg) (t : Nat) (h_s : z0.Keeps s) :
    z0.Keeps (State.progFails s p t) := by
  unfold State.progFails
  try dsimp only
  repeat' first
    | (with_reducible first
       | assumption | apply State.putTile_keeps | apply State.raiseTile_keeps | apply State.count_keeps | apply State.freeTiles_keeps
       | apply State.startProg_keeps | apply State.matrixDone_keeps | apply State.groupsDone_keeps | apply kIte
       | (refine kUpd ?_; first | apply State.count_keeps | apply kIte))
    | split

theorem execTileProgramDone_keeps {z0 : State} (tile : Nat) (ok : Bool) (s : State) (h_s : z0.Keeps s) :
    State.Keeps.Ans z0 (execTileProgramDone tile ok s) := by
  unfold execTileProgramDone
  try dsimp only
  repeat' first
    | (with_reducible first
       | assumption | apply State.progFails_keeps | apply State.fetchShadow_keeps | apply State.progStops_keeps
       | apply State.switchGroup_keeps | apply ansWithin | apply kIte | (refine kUpd ?_; assumption))
    | split

theorem State.startLoad_keeps {z0 : State} (s : State) (id : Nat) (h_s : z0.Keeps s) :
    z0.Keeps (State.startLoad s id) := by
  unfold State.startLoad
  try dsimp only
  repeat' first
    | (with_reducible first | assumption | intro _ | apply State.startProg_keeps | apply State.matrixDone_keeps | apply kIte | apply kFoldl)
    | split

theorem State.startLoads_keeps {z0 : State} (s : State) (h_s : z0.Keeps s) :
    z0.Keeps (State.startLoads s) := by
  unfold State.startLoads
  try dsimp only
  with_reducible repeat' first | assumption | intro _ | apply State.startLoad_keeps | apply kIte | apply kFoldl

theorem State.refreshStale_keeps {z0 : State} (s : State) (h_s : z0.Keeps s) :
    z0.Keeps (State.refreshStale s) := by
  unfold State.refreshStale
  try dsimp only
  with_reducible repeat' first | assumption | intro _ | apply State.refreshNow_keeps | apply kIte | apply kFoldl

theorem State.filetTables_keeps {z0 : State} (s : State) (h_s : z0.Keeps s) :
    z0.Keeps (State.filetTables s) := by
  unfold State.filetTables
  try dsimp only
  with_reducible repeat' first | apply State.refreshStale_keeps | apply State.startLoads_keeps | (refine kUpd ?_; assumption)

theorem State.trackTile_keeps {z0 : State} (s : State) (tile : Nat) (t1 : Tile) (degenerate : Bool) (h_s : z0.Keeps s) :
    z0.Keeps (State.trackTile s tile t1 degenerate) := by
  unfold State.trackTile
  try dsimp only
  with_reducible repeat' first | assumption | apply State.putTile_keeps | apply State.count_keeps | apply kIte

theorem State.residRefresh_keeps {z0 : State} (s : State) (tile : Nat) (t1 : Tile) (h_s : z0.Keeps s) :
    z0.Keeps (State.residRefresh s tile t1) := by
  unfold State.residRefresh
  try dsimp only
  with_reducible repeat' first | assumption | apply State.refreshNow_keeps | apply State.raiseTile_keeps | apply kIte

theorem State.auditEnd_keeps {z0 : State} (s : State) (tile : Nat) (t : Tile) (t1 : Tile) (y : FGroup) (degenerate : Bool) (h_s : z0.Keeps s) :
    z0.Keeps (State.auditEnd s tile t t1 y degenerate) := by
  unfold State.auditEnd
  try dsimp only
  with_reducible repeat' first
    | assumption | apply State.trackTile_keeps | apply State.failTile_keeps | apply State.putTile_keeps | apply State.modGroup_keeps
    | apply State.startProg_keeps | apply State.refreshNow_keeps | apply State.residRefresh_keeps | apply kIte

theorem State.auditPass_keeps {z0 : State} (s : State) (tile : Nat) (codes : List (List Int)) (x : Matrix) (y : FGroup) (cols : List Nat) (h_s : z0.Keeps s) :
    z0.Keeps (State.auditPass s tile codes x y cols) := by
  unfold State.auditPass
  try dsimp only
  repeat' first
    | (with_reducible first
       | apply State.count_keeps | apply State.raiseTile_keeps | apply State.auditEnd_keeps | apply kIte | (refine kUpd ?_; assumption))
    | split

theorem execAudit_keeps {z0 : State} (tile : Nat) (codes : List (List Int)) (s : State) (h_s : z0.Keeps s) :
    State.Keeps.Ans z0 (execAudit tile codes s) := by
  unfold execAudit
  try dsimp only
  repeat' first
    | (with_reducible first
       | assumption | apply State.putTile_keeps | apply State.fetchShadow_keeps | apply State.auditPass_keeps | apply ansWithin
       | apply kIte)
    | split

set_option maxRecDepth 4000 in
theorem execRefreshAge_keeps {z0 : State} (matrix : Nat) (group : Nat) (s : State) (h_s : z0.Keeps s) :
    State.Keeps.Ans z0 (execRefreshAge matrix group s) := by
  unfold execRefreshAge
  try dsimp only
  repeat' first | (with_reducible first | assumption | apply State.refreshNow_keeps | apply ansNext | apply kIte) | split

/-! ### Machine/Filet.lean -/

theorem State.sendSub_keeps {z0 : State} (s : State) (job : Nat) (k : Nat) (dev : Nat) (t : Stitch) (h_s : z0.Keeps s) :
    z0.Keeps (State.sendSub s job k dev t) := by
  unfold State.sendSub
  try dsimp only
  with_reducible repeat' first | assumption | apply State.refOf_keeps | apply State.forwardFrames_keeps | apply State.count_keeps

theorem State.modJob_keeps {z0 : State} (s : State) (id : Nat) (f : FJob → FJob) (h_s : z0.Keeps s) :
    z0.Keeps (State.modJob s id f) := by
  unfold State.modJob
  try dsimp only
  with_reducible repeat' first | (refine kUpd ?_; assumption)

theorem State.addSubs_keeps {z0 : State} (s : State) (id : Nat) (x : Matrix) (l : List (Nat × List Nat × Nat × Nat)) (h_s : z0.Keeps s) :
    z0.Keeps (State.addSubs s id x l) := by
  unfold State.addSubs
  try dsimp only
  repeat' first
    | (with_reducible first | assumption | intro _ | apply State.modJob_keeps | apply State.sendSub_keeps | apply kFoldl)
    | split

theorem State.scoreHere_keeps {z0 : State} (s : State) (id : Nat) (x : Matrix) (panels : List Nat) (h_s : z0.Keeps s) :
    z0.Keeps (State.scoreHere s id x panels) := by
  unfold State.scoreHere
  try dsimp only
  repeat' first | (with_reducible first | assumption | apply State.modJob_keeps | apply State.count_keeps) | split

theorem State.newJobId_keeps {z0 : State} (s : State) (h_s : z0.Keeps s) :
    z0.Keeps (State.newJobId s).2 := by
  unfold State.newJobId
  try dsimp only
  with_reducible repeat' first | assumption | apply State.draw_keeps

theorem State.acceptJob_keeps {z0 : State} (s : State) (op : Nat) (o : Op) (mid : Nat) (x : Matrix) (h_s : z0.Keeps s) :
    z0.Keeps (State.acceptJob s op o mid x) := by
  unfold State.acceptJob
  try dsimp only
  repeat' first
    | (with_reducible first
       | assumption | apply State.scoreHere_keeps | apply State.count_keeps | apply State.addSubs_keeps | apply State.finishOp_keeps
       | apply State.modOp_keeps | apply kIte | (refine kUpd ?_; apply State.newJobId_keeps))
    | split

theorem State.submitRow_keeps {z0 : State} (s : State) (op : Nat) (kind : Nat) (h_s : z0.Keeps s) :
    z0.Keeps (State.submitRow s op kind) := by
  unfold State.submitRow
  try dsimp only
  repeat' first | (with_reducible first | assumption | apply State.failOp_keeps | apply State.acceptJob_keeps | apply kIte) | split

theorem execFiletSubmitScore_keeps {z0 : State} (op : Nat) (s : State) (h_s : z0.Keeps s) :
    State.Keeps.Ans z0 (execFiletSubmitScore op s) := by
  unfold execFiletSubmitScore
  try dsimp only
  with_reducible repeat' first | assumption | apply State.submitRow_keeps | apply ansNext

theorem execFiletSubmitTopk_keeps {z0 : State} (op : Nat) (s : State) (h_s : z0.Keeps s) :
    State.Keeps.Ans z0 (execFiletSubmitTopk op s) := by
  unfold execFiletSubmitTopk
  try dsimp only
  with_reducible repeat' first | assumption | apply State.submitRow_keeps | apply ansNext

theorem execFiletSubmitThreshold_keeps {z0 : State} (op : Nat) (s : State) (h_s : z0.Keeps s) :
    State.Keeps.Ans z0 (execFiletSubmitThreshold op s) := by
  unfold execFiletSubmitThreshold
  try dsimp only
  with_reducible repeat' first | assumption | apply State.submitRow_keeps | apply ansNext

theorem State.addPass_keeps {z0 : State} (s : State) (id : Nat) (tile : Nat) (q : Nat) (first : Nat) (group : Nat) (stale : Bool) (fresh : Bool) (parts : List Int) (h_s : z0.Keeps s) :
    z0.Keeps (State.addPass s id tile q first group stale fresh parts) := by
  unfold State.addPass
  try dsimp only
  with_reducible repeat' first | apply State.modJob_keeps | apply State.count_keeps | (refine kUpd ?_; assumption)

theorem State.passConverted_keeps {z0 : State} (s : State) (id : Nat) (tile : Nat) (q : Nat) (x : Matrix) (y : FGroup) (j : FJob) (codes : List (List Int)) (h_s : z0.Keeps s) :
    z0.Keeps (State.passConverted s id tile q x y j codes) := by
  unfold State.passConverted
  try dsimp only
  with_reducible repeat' first
    | assumption | apply State.trackTile_keeps | apply State.failTile_keeps | apply State.addPass_keeps | apply State.residRefresh_keeps
    | apply kIte

theorem execPassDone_keeps {z0 : State} (port : Nat) (codes : List (List Int)) (ok : Bool) (s : State) (h_s : z0.Keeps s) :
    State.Keeps.Ans z0 (execPassDone port codes ok s) := by
  unfold execPassDone
  try dsimp only
  repeat' first
    | (with_reducible first
       | assumption | apply State.failTile_keeps | apply State.fallbackGroup_keeps | apply State.passConverted_keeps | apply ansWithin
       | apply kIte)
    | split

theorem State.answerJob_keeps {z0 : State} (s : State) (id : Nat) (j : FJob) (h_s : z0.Keeps s) :
    z0.Keeps (State.answerJob s id j) := by
  unfold State.answerJob
  try dsimp only
  repeat' first | (with_reducible first | assumption | apply State.finishOp_keeps | apply State.failOp_keeps | apply kIte) | split

theorem State.unloadDone_keeps {z0 : State} (s : State) (id : Nat) (h_s : z0.Keeps s) :
    z0.Keeps (State.unloadDone s id) := by
  unfold State.unloadDone
  try dsimp only
  repeat' first | (with_reducible first | assumption | apply State.dropMatrix_keeps | apply kIte) | split

theorem State.endJob_keeps {z0 : State} (s : State) (id : Nat) (j : FJob) (st : Status) (blocks : List Block) (h_s : z0.Keeps s) :
    z0.Keeps (State.endJob s id j st blocks) := by
  unfold State.endJob
  try dsimp only
  with_reducible repeat' first
    | apply State.count_keeps | apply State.answerJob_keeps | apply State.unloadDone_keeps | apply kIte | (refine kUpd ?_; assumption)

theorem State.finishJob_keeps {z0 : State} (s : State) (id : Nat) (j : FJob) (own : List Block) (h_s : z0.Keeps s) :
    z0.Keeps (State.finishJob s id j own) := by
  unfold State.finishJob
  try dsimp only
  with_reducible repeat' first | apply State.endJob_keeps | (refine kUpd ?_; assumption)

theorem execJobComplete_keeps {z0 : State} (job : Nat) (s : State) (h_s : z0.Keeps s) :
    State.Keeps.Ans z0 (execJobComplete job s) := by
  unfold execJobComplete
  try dsimp only
  repeat' first
    | (with_reducible first
       | assumption | apply State.fetchShadow_keeps | apply State.endJob_keeps | apply State.count_keeps | apply State.finishJob_keeps
       | apply ansNext | apply kIte)
    | split

theorem execResultHoldExpire_keeps {z0 : State} (job : Nat) (s : State) (h_s : z0.Keeps s) :
    State.Keeps.Ans z0 (execResultHoldExpire job s) := by
  unfold execResultHoldExpire
  try dsimp only
  repeat' first | (with_reducible first | assumption | apply ansNext | apply kIte | (refine kUpd ?_; assumption)) | split

theorem State.subDone_keeps {z0 : State} (s : State) (id : Nat) (k : Nat) (r : Response) (h_s : z0.Keeps s) :
    z0.Keeps (State.subDone s id k r) := by
  unfold State.subDone
  try dsimp only
  repeat' first
    | (with_reducible first | assumption | apply State.modJob_keeps | apply State.endJob_keeps | apply State.sendSub_keeps | apply kIte)
    | split

theorem State.subsLost_keeps {z0 : State} (s : State) (gone : Nat → Bool) (h_s : z0.Keeps s) :
    z0.Keeps (State.subsLost s gone) := by
  unfold State.subsLost
  try dsimp only
  repeat' first
    | (with_reducible first
       | assumption | intro _ | apply State.endJob_keeps | apply State.modJob_keeps | apply State.scoreHere_keeps
       | apply State.addSubs_keeps | apply kIte | apply kFoldl)
    | split

theorem State.resultRow_keeps {z0 : State} (s : State) (op : Nat) (subop : Nat) (k : State → Op → Nat → Option FJob → State) (h_s : z0.Keeps s) (hk : ∀ (y0 : State) (y1 : Op) (y2 : Nat) (y3 : Option FJob), z0.Keeps y0 → z0.Keeps (k y0 y1 y2 y3)) :
    z0.Keeps (State.resultRow s op subop k) := by
  unfold State.resultRow
  try dsimp only
  repeat' first | (with_reducible first | assumption | apply hk | apply State.failOp_keeps | apply kIte) | split

theorem execFiletResultRead_keeps {z0 : State} (op : Nat) (s : State) (h_s : z0.Keeps s) :
    State.Keeps.Ans z0 (execFiletResultRead op s) := by
  unfold execFiletResultRead
  try dsimp only
  repeat' first
    | (with_reducible first
       | assumption | intro _ | apply State.resultRow_keeps | apply State.failOp_keeps | apply State.finishOp_keeps | apply ansNext
       | apply kIte)
    | split

theorem execFiletResultStatus_keeps {z0 : State} (op : Nat) (s : State) (h_s : z0.Keeps s) :
    State.Keeps.Ans z0 (execFiletResultStatus op s) := by
  unfold execFiletResultStatus
  try dsimp only
  repeat' first
    | (with_reducible first
       | assumption | intro _ | apply State.resultRow_keeps | apply State.failOp_keeps | apply State.finishOp_keeps | apply ansNext)
    | split

theorem State.tellSubs_keeps {z0 : State} (s : State) (id : Nat) (j : FJob) (subop : Nat) (h_s : z0.Keeps s) :
    z0.Keeps (State.tellSubs s id j subop) := by
  unfold State.tellSubs
  try dsimp only
  repeat' first | (with_reducible first | assumption | intro _ | apply State.sendSub_keeps | apply kIte | apply kFoldl) | split

theorem execFiletResultRelease_keeps {z0 : State} (op : Nat) (s : State) (h_s : z0.Keeps s) :
    State.Keeps.Ans z0 (execFiletResultRelease op s) := by
  unfold execFiletResultRelease
  try dsimp only
  repeat' first
    | (with_reducible first
       | assumption | intro _ | apply State.resultRow_keeps | apply State.finishOp_keeps | apply State.tellSubs_keeps
       | apply State.answerJob_keeps | apply State.unloadDone_keeps | apply ansNext | apply kIte | (refine kUpd ?_; assumption))
    | split

theorem execFiletResultCancel_keeps {z0 : State} (op : Nat) (s : State) (h_s : z0.Keeps s) :
    State.Keeps.Ans z0 (execFiletResultCancel op s) := by
  unfold execFiletResultCancel
  try dsimp only
  repeat' first
    | (with_reducible first
       | assumption | intro _ | apply State.resultRow_keeps | apply State.finishOp_keeps | apply State.tellSubs_keeps
       | apply State.modJob_keeps | apply State.answerJob_keeps | apply State.unloadDone_keeps | apply State.count_keeps | apply ansNext
       | apply kIte)
    | split

/-! ### Machine/Lace.lean -/

theorem State.respond_keeps {z0 : State} (s : State) (o : Op) (r : Response) (h_s : z0.Keeps s) :
    z0.Keeps (State.respond s o r) := by
  unfold State.respond
  try dsimp only
  repeat' first | (with_reducible first | assumption | apply State.modConn_keeps | apply State.pushReady_keeps | apply kIte) | split

theorem State.answerAll_keeps {z0 : State} (s : State) (st : Status) (h_s : z0.Keeps s) :
    z0.Keeps (State.answerAll s st) := by
  unfold State.answerAll
  try dsimp only
  repeat' first
    | (with_reducible first
       | assumption | intro _ | apply State.respond_keeps | apply State.flushReady_keeps | apply kFoldl | (refine kUpd ?_; assumption))
    | split

theorem State.resetAfter_keeps {z0 : State} (s : State) (id : Nat) (reason : Nat) (h_s : z0.Keeps s) :
    z0.Keeps (State.resetAfter s id reason) := by
  unfold State.resetAfter
  try dsimp only
  with_reducible repeat' first | assumption | apply State.releaseFrames_keeps | apply State.resetConn_keeps

theorem State.resetAll_keeps {z0 : State} (s : State) (reason : Nat) (h_s : z0.Keeps s) :
    z0.Keeps (State.resetAll s reason) := by
  unfold State.resetAll
  try dsimp only
  with_reducible repeat' first | assumption | intro _ | apply State.resetAfter_keeps | apply kFoldl

theorem State.adopt_keeps {z0 : State} (s : State) (e : Nat) (h_s : z0.Keeps s) :
    z0.Keeps (State.adopt s e) := by
  unfold State.adopt
  try dsimp only
  with_reducible repeat' first | assumption | apply State.saveHoopTime_keeps | apply State.setFld_keeps | apply State.count_keeps

theorem State.bumpEpoch_keeps {z0 : State} (s : State) (h_s : z0.Keeps s) :
    z0.Keeps (State.bumpEpoch s) := by
  unfold State.bumpEpoch
  try dsimp only
  with_reducible repeat' first | assumption | apply State.adopt_keeps | apply State.sendAll_keeps

theorem State.handoverNotice_keeps {z0 : State} (s : State) (grace : Nat) (h_s : z0.Keeps s) :
    z0.Keeps (State.handoverNotice s grace) := by
  unfold State.handoverNotice
  try dsimp only
  with_reducible repeat' first | assumption | intro _ | apply State.notice_keeps | apply kIte | apply kFoldl

theorem State.lockDirectory_keeps {z0 : State} (s : State) (h_s : z0.Keeps s) :
    z0.Keeps (State.lockDirectory s) := by
  unfold State.lockDirectory
  try dsimp only
  with_reducible repeat' first | assumption | intro _ | apply State.putWay_keeps | apply kIte | apply kFoldl

theorem State.stopManager_keeps {z0 : State} (s : State) (h_s : z0.Keeps s) :
    z0.Keeps (State.stopManager s) := by
  unfold State.stopManager
  try dsimp only
  with_reducible repeat' first
    | assumption | apply State.answerAll_keeps | apply State.handoverNotice_keeps | apply State.clrFlag_keeps
    | (refine kUpd ?_; apply State.resetAll_keeps)

theorem State.sawEpoch_keeps {z0 : State} (s : State) (src : Nat) (e : Nat) (h_s : z0.Keeps s) :
    z0.Keeps (State.sawEpoch s src e) := by
  unfold State.sawEpoch
  try dsimp only
  with_reducible repeat' first
    | assumption | apply State.adopt_keeps | apply State.raise_keeps | apply State.stopManager_keeps | apply State.setFld_keeps
    | apply State.clrFlag_keeps | apply kIte | (refine kUpd ?_; apply State.lockDirectory_keeps)

theorem State.repath_keeps {z0 : State} (s : State) (old : State) (h_s : z0.Keeps s) (h_old : z0.Keeps old) :
    z0.Keeps (State.repath s old) := by
  unfold State.repath
  try dsimp only
  with_reducible repeat' first | assumption | intro _ | apply State.sendPath_keeps | apply State.count_keeps | apply kIte | apply kFoldl

theorem State.dropRoute_keeps {z0 : State} (s : State) (d : Nat) (h_s : z0.Keeps s) :
    z0.Keeps (State.dropRoute s d) := by
  unfold State.dropRoute
  try dsimp only
  with_reducible repeat' first | assumption | apply State.putRoute_keeps

theorem State.resyncOut_keeps {z0 : State} (s : State) (panel : Nat) (target : Nat) (chunks : Option (List Nat)) (h_s : z0.Keeps s) :
    z0.Keeps (State.resyncOut s panel target chunks) := by
  unfold State.resyncOut
  try dsimp only
  with_reducible repeat' first | (refine kUpd ?_; assumption)

theorem State.orderResync_keeps {z0 : State} (s : State) (panel : Nat) (target : Nat) (chunks : Option (List Nat)) (h_s : z0.Keeps s) :
    z0.Keeps (State.orderResync s panel target chunks) := by
  unfold State.orderResync
  try dsimp only
  repeat' first | (with_reducible first | assumption | apply State.resyncOut_keeps | apply State.sendControl_keeps | apply kIte) | split

theorem State.nextMove_keeps {z0 : State} (s : State) (h_s : z0.Keeps s) :
    z0.Keeps (State.nextMove s) := by
  unfold State.nextMove
  try dsimp only
  repeat' first
    | (with_reducible first
       | assumption | apply State.change_keeps | apply State.dropRoute_keeps | apply State.bumpEpoch_keeps | apply State.orderResync_keeps
       | apply kIte | (refine kUpd ?_; assumption))
    | split

theorem State.copyDone_keeps {z0 : State} (s : State) (dev : Nat) (panel : Nat) (chunks : Nat) (h_s : z0.Keeps s) :
    z0.Keeps (State.copyDone s dev panel chunks) := by
  unfold State.copyDone
  try dsimp only
  repeat' first
    | (with_reducible first | assumption | apply State.change_keeps | apply State.raise_keeps | apply State.nextMove_keeps)
    | split

theorem State.reissuePart_keeps {z0 : State} (s : State) (id : Nat) (k : Nat) (o : Op) (x : Split) (p : Part) (h_s : z0.Keeps s) :
    z0.Keeps (State.reissuePart s id k o x p) := by
  unfold State.reissuePart
  try dsimp only
  repeat' first
    | (with_reducible first
       | assumption | apply State.modPart_keeps | apply State.sendPart_keeps | apply State.count_keeps | apply kIte
       | (refine kUpd ?_; assumption))
    | split

theorem State.reissue_keeps {z0 : State} (s : State) (h_s : z0.Keeps s) :
    z0.Keeps (State.reissue s) := by
  unfold State.reissue
  try dsimp only
  repeat' first
    | (with_reducible first
       | assumption | intro _ | apply State.subsLost_keeps | apply State.reissuePart_keeps | apply State.settle_keeps | apply kIte
       | apply kFoldl)
    | split

theorem State.changeNow_keeps {z0 : State} (s : State) (l : List TableChange) (a : SyncAct) (h_s : z0.Keeps s) :
    z0.Keeps (State.changeNow s l a) := by
  unfold State.changeNow
  try dsimp only
  with_reducible repeat' first | assumption | apply State.change_keeps | apply State.reissue_keeps | apply kIte

theorem State.absent_keeps {z0 : State} (s : State) (d : Nat) (why : Nat) (h_s : z0.Keeps s) :
    z0.Keeps (State.absent s d why) := by
  unfold State.absent
  try dsimp only
  repeat' first
    | (with_reducible first
       | assumption | apply State.dropRoute_keeps | apply State.bumpEpoch_keeps | apply State.raise_keeps | apply State.syncedAll_keeps
       | apply State.changeNow_keeps | apply State.nextMove_keeps | apply kIte | (refine kUpd ?_; assumption))
    | split

theorem State.checkAbsent_keeps {z0 : State} (s : State) (h_s : z0.Keeps s) :
    z0.Keeps (State.checkAbsent s) := by
  unfold State.checkAbsent
  try dsimp only
  with_reducible repeat' first | assumption | intro _ | apply State.absent_keeps | apply kIte | apply kFoldl

theorem State.sendTables_keeps {z0 : State} (s : State) (d : Nat) (h_s : z0.Keeps s) :
    z0.Keeps (State.sendTables s d) := by
  unfold State.sendTables
  try dsimp only
  with_reducible repeat' first | assumption | apply State.sendControl_keeps | apply kIte | (refine kUpd ?_; apply State.sendControl_keeps)

theorem State.treatCopies_keeps {z0 : State} (s : State) (d : Nat) (kept : Bool) (h_s : z0.Keeps s) :
    z0.Keeps (State.treatCopies s d kept) := by
  unfold State.treatCopies
  try dsimp only
  with_reducible repeat' first
    | assumption | intro _ | apply State.changeNow_keeps | apply State.raise_keeps | apply State.orderResync_keeps | apply kIte
    | apply kFoldl

theorem State.rejoin_keeps {z0 : State} (s : State) (a : Announce) (h_s : z0.Keeps s) :
    z0.Keeps (State.rejoin s a) := by
  unfold State.rejoin
  try dsimp only
  repeat' first
    | (with_reducible first
       | assumption | apply State.bumpEpoch_keeps | apply State.sendTables_keeps | apply State.treatCopies_keeps
       | apply State.nextMove_keeps | apply kIte | (refine kUpd ?_; assumption))
    | split

theorem State.repairFork_keeps {z0 : State} (s : State) (addr : Nat) (len : Nat) (h_s : z0.Keeps s) :
    z0.Keeps (State.repairFork s addr len) := by
  unfold State.repairFork
  try dsimp only
  repeat' first
    | (with_reducible first | assumption | apply State.putSplit_keeps | apply State.repairRead_keeps | (refine kUpd ?_; assumption))
    | split

theorem State.takeRole_keeps {z0 : State} (s : State) (h_s : z0.Keeps s) :
    z0.Keeps (State.takeRole s) := by
  unfold State.takeRole
  try dsimp only
  with_reducible repeat' first
    | assumption | intro _ | apply State.bumpEpoch_keeps | apply State.repairFork_keeps | apply State.lockDirectory_keeps
    | apply State.setFlag_keeps | apply kFoldl
    | (refine kUpd ?_; first | assumption | apply State.setFld_keeps | apply State.checkAbsent_keeps)

theorem State.tryTakeover_keeps {z0 : State} (s : State) (h_s : z0.Keeps s) :
    z0.Keeps (State.tryTakeover s) := by
  unfold State.tryTakeover
  try dsimp only
  with_reducible repeat' first
    | assumption | apply State.setFlag_keeps | apply State.raise_keeps | apply State.takeRole_keeps | apply State.count_keeps | apply kIte

theorem State.tellStandby_keeps {z0 : State} (s : State) (peer : Nat) (c : Control) (h_s : z0.Keeps s) :
    z0.Keeps (State.tellStandby s peer c) := by
  unfold State.tellStandby
  try dsimp only
  with_reducible repeat' first | assumption | apply State.sendControl_keeps | apply kIte

theorem State.linkGone_keeps {z0 : State} (s : State) (old : State) (peer : Nat) (h_s : z0.Keeps s) (h_old : z0.Keeps old) :
    z0.Keeps (State.linkGone s old peer) := by
  unfold State.linkGone
  try dsimp only
  with_reducible repeat' first
    | assumption | apply State.report_keeps | apply State.tellStandby_keeps | apply State.repath_keeps | apply State.checkAbsent_keeps
    | apply State.stopManager_keeps | apply State.tryTakeover_keeps | apply kIte | (refine kUpd ?_; apply State.checkAbsent_keeps)

theorem State.linkFail_keeps {z0 : State} (s : State) (n : Nat) (why : Nat) (h_s : z0.Keeps s) :
    z0.Keeps (State.linkFail s n why) := by
  unfold State.linkFail
  try dsimp only
  with_reducible repeat' first
    | assumption | apply State.putLink_keeps | apply State.setFlag_keeps | apply State.saturate_keeps | apply State.count_keeps
    | apply State.raise_keeps | apply State.linkGone_keeps | apply kIte

/-! ### Machine/LaceRx.lean -/

theorem State.laceDrop_keeps {z0 : State} (s : State) (n : Nat) (cause : Nat) (h_s : z0.Keeps s) :
    z0.Keeps (State.laceDrop s n cause) := by
  unfold State.laceDrop
  try dsimp only
  with_reducible repeat' first | assumption | apply State.count_keeps | apply State.wr_keeps

theorem State.replay_keeps {z0 : State} (s : State) (n : Nat) (h_s : z0.Keeps s) :
    z0.Keeps (State.replay s n) := by
  unfold State.replay
  try dsimp only
  with_reducible repeat' first
    | assumption | intro _ | apply State.linkFail_keeps | apply State.putLink_keeps | apply State.count_keeps | apply State.emitLace_keeps
    | apply kIte | apply kFoldl

theorem State.linkTake_keeps {z0 : State} (s : State) (n : Nat) (h : LaceHdr) (h_s : z0.Keeps s) :
    z0.Keeps (State.linkTake s n h) := by
  unfold State.linkTake
  try dsimp only
  with_reducible repeat' first | assumption | apply State.putLink_keeps | apply State.replay_keeps | apply State.pumpLink_keeps | apply kIte

theorem State.routeTake_keeps {z0 : State} (s : State) (h : LaceHdr) (h_s : z0.Keeps s) :
    z0.Keeps (State.routeTake s h) := by
  unfold State.routeTake
  try dsimp only
  with_reducible repeat' first
    | assumption | apply State.putRoute_keeps | apply State.synced_keeps | apply State.reissue_keeps | apply kIte
    | (refine kUpd ?_; apply State.routeRoom_keeps)

theorem State.ackRoute_keeps {z0 : State} (s : State) (d : Nat) (h_s : z0.Keeps s) :
    z0.Keeps (State.ackRoute s d) := by
  unfold State.ackRoute
  try dsimp only
  with_reducible repeat' first | assumption | apply State.putRoute_keeps

theorem State.relay_keeps {z0 : State} (s : State) (h : LaceHdr) (b : LaceBody) (h_s : z0.Keeps s) :
    z0.Keeps (State.relay s h b) := by
  unfold State.relay
  try dsimp only
  with_reducible repeat' first | assumption | apply State.sendPath_keeps

theorem State.laceFec_keeps {z0 : State} (s : State) (n : Nat) (w : FecWord) (h_s : z0.Keeps s) :
    z0.Keeps (State.laceFec s n w) := by
  unfold State.laceFec
  try dsimp only
  repeat' first | (with_reducible first | assumption | apply State.count_keeps | apply kIte) | split

theorem State.laceRx_keeps {z0 : State} (s0 : State) (n : Nat) (f : LaceIn) (ltype : Nat) (body : LaceHdr → Option LaceBody) (k : State → LaceHdr → State) (h_s0 : z0.Keeps s0) (hk : ∀ (y0 : State) (y1 : LaceHdr), z0.Keeps y0 → z0.Keeps (k y0 y1)) :
    z0.Keeps (State.laceRx s0 n f ltype body k) := by
  unfold State.laceRx
  try dsimp only
  repeat' first
    | (with_reducible first
       | assumption | intro _ | apply hk | apply State.laceFec_keeps | apply State.count_keeps | apply State.linkTake_keeps
       | apply State.sawEpoch_keeps | apply State.routeTake_keeps | apply State.relay_keeps | apply State.laceDrop_keeps
       | apply State.putLink_keeps | apply State.ackRoute_keeps | apply kIte | apply kFoldl)
    | split

theorem State.heartbeat_keeps {z0 : State} (s : State) (n : Nat) (h : LaceHdr) (b : List Byte) (h_s : z0.Keeps s) :
    z0.Keeps (State.heartbeat s n h b) := by
  unfold State.heartbeat
  try dsimp only
  with_reducible repeat' first
    | assumption | apply State.putLink_keeps | apply State.setFld_keeps | apply State.count_keeps | apply State.wr_keeps
    | apply State.tryTakeover_keeps | apply kIte | (refine kUpd ?_; apply kIte)

theorem execHeartbeat_keeps {z0 : State} (link : Nat) (f : LaceIn) (s : State) (h_s : z0.Keeps s) :
    State.Keeps.Ans z0 (execHeartbeat link f s) := by
  unfold execHeartbeat
  try dsimp only
  with_reducible repeat' first | assumption | intro _ | apply State.laceRx_keeps | apply State.heartbeat_keeps | apply ansWithin

theorem State.laceSegment_keeps {z0 : State} (s : State) (src : Nat) (ltype : Nat) (opref : Nat) (t : Stitch) (h_s : z0.Keeps s) :
    z0.Keeps (State.laceSegment s src ltype opref t).2 := by
  unfold State.laceSegment
  try dsimp only
  repeat' first | with_reducible apply iteP | dsimp only | (with_reducible refine kUpd ?_; with_reducible assumption)

theorem State.forwarded_keeps {z0 : State} (s0 : State) (h : LaceHdr) (opref : Nat) (conn : Nat) (t : Stitch) (h_s0 : z0.Keeps s0) :
    z0.Keeps (State.forwarded s0 h opref conn t) := by
  unfold State.forwarded
  try dsimp only
  with_reducible repeat' first | assumption | (refine kUpd ?_; apply State.wake_keeps)

theorem State.commitOp_keeps {z0 : State} (s : State) (h : LaceHdr) (opref : Nat) (h_s : z0.Keeps s) :
    z0.Keeps (State.commitOp s h opref) := by
  unfold State.commitOp
  try dsimp only
  with_reducible repeat' first | (refine kUpd ?_; assumption)

theorem execForward_keeps {z0 : State} (link : Nat) (f : LaceIn) (s : State) (h_s : z0.Keeps s) :
    State.Keeps.Ans z0 (execForward link f s) := by
  unfold execForward
  try dsimp only
  repeat' first
    | (with_reducible first
       | assumption | intro _ | apply State.laceRx_keeps | apply State.commitOp_keeps | apply State.forwarded_keeps | apply ansWithin
       | apply kIte | (refine kUpd ?_; (refine kSnd (by assumption) ?_; apply State.laceSegment_keeps)))
    | split

theorem State.sendComplete_keeps {z0 : State} (s : State) (dev : Nat) (opref : Nat) (conn : Nat) (r : Response) (h_s : z0.Keeps s) :
    z0.Keeps (State.sendComplete s dev opref conn r) := by
  unfold State.sendComplete
  try dsimp only
  with_reducible repeat' first | assumption | intro _ | apply State.sendRoute_keeps | apply kFoldl

theorem execComplete_keeps {z0 : State} (link : Nat) (f : LaceIn) (s : State) (h_s : z0.Keeps s) :
    State.Keeps.Ans z0 (execComplete link f s) := by
  unfold execComplete
  try dsimp only
  repeat' first
    | (with_reducible first
       | assumption | intro _ | apply State.laceRx_keeps | apply State.subDone_keeps | apply State.partDone_keeps | apply ansWithin
       | apply kIte | (refine kUpd ?_; (refine kSnd (by assumption) ?_; apply State.laceSegment_keeps)))
    | split

theorem execRouteAck_keeps {z0 : State} (link : Nat) (f : LaceIn) (s : State) (h_s : z0.Keeps s) :
    State.Keeps.Ans z0 (execRouteAck link f s) := by
  unfold execRouteAck
  try dsimp only
  with_reducible repeat' first | assumption | intro _ | apply State.laceRx_keeps | apply ansWithin

theorem execRouteAckSend_keeps {z0 : State} (dev : Nat) (s : State) (h_s : z0.Keeps s) :
    State.Keeps.Ans z0 (execRouteAckSend dev s) := by
  unfold execRouteAckSend
  try dsimp only
  repeat' first
    | (with_reducible first | assumption | apply State.putRoute_keeps | apply State.sendPath_keeps | apply ansWithin | apply kIte)
    | split

theorem execDiscover_keeps {z0 : State} (link : Nat) (f : LaceIn) (s : State) (h_s : z0.Keeps s) :
    State.Keeps.Ans z0 (execDiscover link f s) := by
  unfold execDiscover
  try dsimp only
  with_reducible repeat' first
    | assumption | intro _ | apply State.laceRx_keeps | apply State.sendOn_keeps | apply ansWithin | apply kIte | apply kFoldl

theorem State.heard_keeps {z0 : State} (s : State) (hoopId : Nat) (a : Announce) (h_s : z0.Keeps s) :
    z0.Keeps (State.heard s hoopId a) := by
  unfold State.heard
  try dsimp only
  repeat' first
    | (with_reducible first | assumption | apply State.rejoin_keeps | apply State.raise_keeps | apply kIte | (refine kUpd ?_; assumption))
    | split

theorem execAnnounce_keeps {z0 : State} (link : Nat) (f : LaceIn) (a : Announce) (s : State) (h_s : z0.Keeps s) :
    State.Keeps.Ans z0 (execAnnounce link f a s) := by
  unfold execAnnounce
  try dsimp only
  repeat' first
    | (with_reducible first
       | assumption | intro _ | apply State.laceRx_keeps | apply State.heard_keeps | apply State.sendOn_keeps | apply ansWithin
       | apply kIte | (refine kUpd ?_; assumption))
    | split

theorem State.linkReport_keeps {z0 : State} (s : State) (dev : Nat) (peer : Nat) (up : Bool) (h_s : z0.Keeps s) :
    z0.Keeps (State.linkReport s dev peer up) := by
  unfold State.linkReport
  try dsimp only
  with_reducible repeat' first
    | assumption | apply State.repath_keeps | apply State.checkAbsent_keeps | apply State.tryTakeover_keeps | apply kIte
    | (refine kUpd ?_; assumption)

theorem State.newManager_keeps {z0 : State} (s : State) (d : Nat) (h_s : z0.Keeps s) :
    z0.Keeps (State.newManager s d) := by
  unfold State.newManager
  try dsimp only
  with_reducible repeat' first | assumption | apply State.sendControl_keeps | apply kIte | (refine kUpd ?_; assumption)

theorem State.copied_keeps {z0 : State} (s : State) (dev : Nat) (panel : Nat) (chunks : Nat) (h_s : z0.Keeps s) :
    z0.Keeps (State.copied s dev panel chunks) := by
  unfold State.copied
  try dsimp only
  with_reducible repeat' first
    | assumption | apply State.copyDone_keeps | apply State.report_keeps | apply kIte | (refine kUpd ?_; assumption)

theorem State.control_keeps {z0 : State} (s : State) (src : Nat) (c : Control) (h_s : z0.Keeps s) :
    z0.Keeps (State.control s src c) := by
  unfold State.control
  try dsimp only
  repeat' first
    | (with_reducible first
       | assumption | intro _ | apply State.absent_keeps | apply State.newManager_keeps | apply State.linkReport_keeps
       | apply State.putKey_keeps | apply State.sendAll_keeps | apply State.nextMove_keeps | apply State.wearLift_keeps
       | apply State.wearSlowFor_keeps | apply State.slowLiftFor_keeps | apply State.slowShare_keeps | apply State.alarmTo_keeps
       | apply State.applyChanges_keeps | apply State.filetTables_keeps | apply State.setHints_keeps | apply State.takeHints_keeps
       | apply State.setFlag_keeps | apply State.repairFork_keeps | apply State.takeRole_keeps | apply State.setFld_keeps
       | apply State.resyncOut_keeps | apply State.copied_keeps | apply State.matrixDone_keeps | apply State.refreshMatrix_keeps | apply kIte
       | apply kFoldl | (refine kUpd ?_; first | assumption | apply State.takeRole_keeps))
    | split

theorem execControl_keeps {z0 : State} (link : Nat) (f : LaceIn) (c : Control) (s : State) (h_s : z0.Keeps s) :
    State.Keeps.Ans z0 (execControl link f c s) := by
  unfold execControl
  try dsimp only
  with_reducible repeat' first | assumption | intro _ | apply State.laceRx_keeps | apply State.control_keeps | apply ansWithin

theorem State.markChunk_keeps {z0 : State} (s : State) (panel : Nat) (line : Nat) (h_s : z0.Keeps s) :
    z0.Keeps (State.markChunk s panel line) := by
  unfold State.markChunk
  try dsimp only
  with_reducible repeat' first | assumption | apply kIte | (refine kUpd ?_; assumption)

theorem State.takeLine_keeps {z0 : State} (s : State) (ln : Nat) (r : ResyncLine) (h_s : z0.Keeps s) :
    z0.Keeps (State.takeLine s ln r) := by
  unfold State.takeLine
  try dsimp only
  repeat' first | (with_reducible first | assumption | apply State.dropAgents_keeps | (refine kUpd ?_; apply State.install_keeps)) | split

theorem State.resyncLine_keeps {z0 : State} (s : State) (r : ResyncLine) (h_s : z0.Keeps s) :
    z0.Keeps (State.resyncLine s r) := by
  unfold State.resyncLine
  try dsimp only
  repeat' first | (with_reducible first | assumption | apply State.markChunk_keeps | apply State.takeLine_keeps | apply kIte) | split

theorem execResync_keeps {z0 : State} (link : Nat) (f : LaceIn) (r : ResyncLine) (s : State) (h_s : z0.Keeps s) :
    State.Keeps.Ans z0 (execResync link f r s) := by
  unfold execResync
  try dsimp only
  with_reducible repeat' first | assumption | intro _ | apply State.laceRx_keeps | apply State.resyncLine_keeps | apply ansWithin

theorem State.putResync_keeps {z0 : State} (s : State) (r : ResyncOut) (h_s : z0.Keeps s) :
    z0.Keeps (State.putResync s r) := by
  unfold State.putResync
  try dsimp only
  with_reducible repeat' first | (refine kUpd ?_; assumption)

theorem execResyncSend_keeps {z0 : State} (panel : Nat) (s : State) (h_s : z0.Keeps s) :
    State.Keeps.Ans z0 (execResyncSend panel s) := by
  unfold execResyncSend
  try dsimp only
  repeat' first
    | (with_reducible first
       | assumption | apply State.sendControl_keeps | apply State.sendRoute_keeps | apply State.count_keeps | apply State.putResync_keeps
       | apply State.fillBad_keeps | apply ansNext | apply kIte
       | (refine kUpd ?_; first | assumption | (refine kSnd (by assumption) ?_; apply State.startFill_keeps)))
    | split

theorem execHeartbeatSend_keeps {z0 : State} (link : Nat) (s : State) (h_s : z0.Keeps s) :
    State.Keeps.Ans z0 (execHeartbeatSend link s) := by
  unfold execHeartbeatSend
  try dsimp only
  with_reducible repeat' first | assumption | apply State.putLink_keeps | apply State.emitLace_keeps | apply ansWithin | apply kIte

theorem execHeartbeatTimeout_keeps {z0 : State} (link : Nat) (s : State) (h_s : z0.Keeps s) :
    State.Keeps.Ans z0 (execHeartbeatTimeout link s) := by
  unfold execHeartbeatTimeout
  try dsimp only
  repeat' first
    | (with_reducible first
       | assumption | apply State.setFld_keeps | apply State.count_keeps | apply State.linkFail_keeps | apply ansWithin | apply kIte)
    | split

theorem execLaceLinkLoss_keeps {z0 : State} (link : Nat) (s : State) (h_s : z0.Keeps s) :
    State.Keeps.Ans z0 (execLaceLinkLoss link s) := by
  unfold execLaceLinkLoss
  try dsimp only
  with_reducible repeat' first | assumption | apply State.linkFail_keeps | apply ansWithin

theorem execLaceLinkTrained_keeps {z0 : State} (link : Nat) (s : State) (h_s : z0.Keeps s) :
    State.Keeps.Ans z0 (execLaceLinkTrained link s) := by
  unfold execLaceLinkTrained
  try dsimp only
  with_reducible repeat' first | assumption | apply State.putLink_keeps | apply ansWithin | apply kIte

theorem State.linkBack_keeps {z0 : State} (s : State) (old : State) (n : Nat) (h_s : z0.Keeps s) (h_old : z0.Keeps old) :
    z0.Keeps (State.linkBack s old n) := by
  unfold State.linkBack
  try dsimp only
  with_reducible repeat' first
    | assumption | apply State.report_keeps | apply State.tellStandby_keeps | apply State.repath_keeps | apply State.setFlag_keeps
    | apply State.sendOn_keeps | apply kIte | (refine kUpd ?_; apply State.repath_keeps)

theorem execProbationEnd_keeps {z0 : State} (link : Nat) (s : State) (h_s : z0.Keeps s) :
    State.Keeps.Ans z0 (execProbationEnd link s) := by
  unfold execProbationEnd
  try dsimp only
  repeat' first
    | (with_reducible first
       | assumption | apply State.putLink_keeps | apply State.raise_keeps | apply State.linkBack_keeps | apply ansWithin | apply kIte)
    | split

theorem State.lceCfgEffect_keeps {z0 : State} (s : State) (v : Word) (h_s : z0.Keeps s) :
    z0.Keeps (State.lceCfgEffect s v) := by
  unfold State.lceCfgEffect
  try dsimp only
  with_reducible repeat' first
    | assumption | intro _ | apply State.putLink_keeps | apply State.linkGone_keeps | apply State.wr_keeps | apply kIte | apply kFoldl

/-! ### Machine/Hoop.lean -/

theorem State.fixHoop_keeps {z0 : State} (s : State) (h_s : z0.Keeps s) :
    z0.Keeps (State.fixHoop s) := by
  unfold State.fixHoop
  try dsimp only
  repeat' first
    | (with_reducible first
       | assumption | intro _ | apply State.bumpEpoch_keeps | apply State.sendTables_keeps | apply State.change_keeps
       | apply State.treatCopies_keeps | apply kIte | apply kFoldl | (refine kUpd ?_; assumption))
    | split

theorem execDiscoverWaitExpire_keeps {z0 : State} (s : State) (h_s : z0.Keeps s) :
    State.Keeps.Ans z0 (execDiscoverWaitExpire s) := by
  unfold execDiscoverWaitExpire
  try dsimp only
  repeat' first
    | (with_reducible first
       | assumption | apply State.bumpEpoch_keeps | apply State.fixHoop_keeps | apply State.setFlag_keeps | apply ansNext | apply kIte
       | (refine kUpd ?_; assumption))
    | split

theorem State.startHandover_keeps {z0 : State} (s : State) (mailbox : Option Nat) (h_s : z0.Keeps s) :
    z0.Keeps (State.startHandover s mailbox) := by
  unfold State.startHandover
  try dsimp only
  with_reducible repeat' first | assumption | apply State.handoverNotice_keeps | (refine kUpd ?_; apply State.clrFlag_keeps)

theorem execHandoverGraceExpire_keeps {z0 : State} (s : State) (h_s : z0.Keeps s) :
    State.Keeps.Ans z0 (execHandoverGraceExpire s) := by
  unfold execHandoverGraceExpire
  try dsimp only
  repeat' first
    | (with_reducible first
       | assumption | apply State.resetAll_keeps | apply State.setFld_keeps | apply State.setFlag_keeps | apply State.lockDirectory_keeps
       | apply ansNext | apply kIte | (refine kUpd ?_; apply State.sendControl_keeps))
    | split

theorem execHoopStatus_keeps {z0 : State} (m : Nat) (s : State) (h_s : z0.Keeps s) :
    State.Keeps.Ans z0 (execHoopStatus m s) := by
  unfold execHoopStatus
  try dsimp only
  with_reducible repeat' first | assumption | intro _ | apply State.command_keeps | apply endDone

theorem execMemberList_keeps {z0 : State} (m : Nat) (s : State) (h_s : z0.Keeps s) :
    State.Keeps.Ans z0 (execMemberList m s) := by
  unfold execMemberList
  try dsimp only
  with_reducible repeat' first | assumption | intro _ | apply State.command_keeps | apply endDone

theorem execPanelMap_keeps {z0 : State} (m : Nat) (s : State) (h_s : z0.Keeps s) :
    State.Keeps.Ans z0 (execPanelMap m s) := by
  unfold execPanelMap
  try dsimp only
  with_reducible repeat' first | assumption | intro _ | apply State.command_keeps | apply endDone

theorem execHoopForm_keeps {z0 : State} (m : Nat) (s : State) (h_s : z0.Keeps s) :
    State.Keeps.Ans z0 (execHoopForm m s) := by
  unfold execHoopForm
  try dsimp only
  with_reducible repeat' first
    | assumption | intro _ | apply State.command_keeps | apply State.sendAll_keeps | apply State.setFld_keeps | apply State.wr_keeps
    | apply State.bumpEpoch_keeps | apply State.sendTables_keeps | apply endDone | apply kFoldl | (refine kUpd ?_; assumption)

theorem execMemberAdmit_keeps {z0 : State} (m : Nat) (s : State) (h_s : z0.Keeps s) :
    State.Keeps.Ans z0 (execMemberAdmit m s) := by
  unfold execMemberAdmit
  try dsimp only
  repeat' first
    | (with_reducible first
       | assumption | intro _ | apply State.command_keeps | apply State.change_keeps | apply State.rejoin_keeps
       | apply State.sendControl_keeps | apply State.bumpEpoch_keeps | apply endDone | apply kIte)
    | dsimp only
    | (with_reducible refine kUpd ?_; with_reducible assumption)
    | split

theorem execMemberRemove_keeps {z0 : State} (m : Nat) (s : State) (h_s : z0.Keeps s) :
    State.Keeps.Ans z0 (execMemberRemove m s) := by
  unfold execMemberRemove
  try dsimp only
  with_reducible repeat' first
    | assumption | intro _ | apply State.command_keeps | apply State.nextMove_keeps | apply endLater | (refine kUpd ?_; assumption)

theorem execPanelRelease_keeps {z0 : State} (m : Nat) (s : State) (h_s : z0.Keeps s) :
    State.Keeps.Ans z0 (execPanelRelease m s) := by
  unfold execPanelRelease
  try dsimp only
  repeat' first
    | (with_reducible first | assumption | intro _ | apply State.command_keeps | apply State.changeEnd_keeps | apply endDone)
    | dsimp only
    | split

theorem execHandover_keeps {z0 : State} (m : Nat) (s : State) (h_s : z0.Keeps s) :
    State.Keeps.Ans z0 (execHandover m s) := by
  unfold execHandover
  try dsimp only
  with_reducible repeat' first | assumption | intro _ | apply State.command_keeps | apply State.startHandover_keeps | apply endLater

theorem execSchedule_keeps {z0 : State} (m : Nat) (s : State) (h_s : z0.Keeps s) :
    State.Keeps.Ans z0 (execSchedule m s) := by
  unfold execSchedule
  try dsimp only
  with_reducible repeat' first
    | assumption | intro _ | apply State.command_keeps | apply State.sendAll_keeps | apply endDone | (refine kUpd ?_; assumption)

theorem execScheduleCancel_keeps {z0 : State} (m : Nat) (s : State) (h_s : z0.Keeps s) :
    State.Keeps.Ans z0 (execScheduleCancel m s) := by
  unfold execScheduleCancel
  try dsimp only
  with_reducible repeat' first
    | assumption | intro _ | apply State.command_keeps | apply State.sendAll_keeps | apply endDone | (refine kUpd ?_; assumption)

theorem execScheduleStatus_keeps {z0 : State} (m : Nat) (s : State) (h_s : z0.Keeps s) :
    State.Keeps.Ans z0 (execScheduleStatus m s) := by
  unfold execScheduleStatus
  try dsimp only
  repeat' first | (with_reducible first | assumption | intro _ | apply State.command_keeps | apply endDone) | dsimp only | split

/-! ### Machine/FiletCmds.lean -/

theorem execMatrixLoad_keeps {z0 : State} (m : Nat) (s : State) (h_s : z0.Keeps s) :
    State.Keeps.Ans z0 (execMatrixLoad m s) := by
  unfold execMatrixLoad
  try dsimp only
  with_reducible repeat' first
    | assumption | intro _ | apply State.command_keeps | apply State.change_keeps | apply State.startLoad_keeps | apply endLater
    | apply kIte | (refine kUpd ?_; apply State.draw_keeps)

theorem execMatrixUnload_keeps {z0 : State} (m : Nat) (s : State) (h_s : z0.Keeps s) :
    State.Keeps.Ans z0 (execMatrixUnload m s) := by
  unfold execMatrixUnload
  try dsimp only
  with_reducible repeat' first
    | assumption | intro _ | apply State.command_keeps | apply State.modMatrix_keeps | apply State.unloadDone_keeps | apply endLater

theorem execMatrixRefresh_keeps {z0 : State} (m : Nat) (s : State) (h_s : z0.Keeps s) :
    State.Keeps.Ans z0 (execMatrixRefresh m s) := by
  unfold execMatrixRefresh
  try dsimp only
  repeat' first
    | (with_reducible first
       | assumption | intro _ | apply State.command_keeps | apply State.modMatrix_keeps | apply State.sendControl_keeps
       | apply State.refreshMatrix_keeps | apply State.matrixDone_keeps | apply endDone | apply endLater | apply kIte | apply kFoldl)
    | dsimp only
    | split

theorem execMatrixStatus_keeps {z0 : State} (m : Nat) (s : State) (h_s : z0.Keeps s) :
    State.Keeps.Ans z0 (execMatrixStatus m s) := by
  unfold execMatrixStatus
  try dsimp only
  repeat' first | (with_reducible first | assumption | intro _ | apply State.command_keeps | apply endDone) | dsimp only | split

theorem execMatrixList_keeps {z0 : State} (m : Nat) (s : State) (h_s : z0.Keeps s) :
    State.Keeps.Ans z0 (execMatrixList m s) := by
  unfold execMatrixList
  try dsimp only
  with_reducible repeat' first | assumption | intro _ | apply State.command_keeps | apply endDone

theorem execFiletStatus_keeps {z0 : State} (m : Nat) (s : State) (h_s : z0.Keeps s) :
    State.Keeps.Ans z0 (execFiletStatus m s) := by
  unfold execFiletStatus
  try dsimp only
  with_reducible repeat' first | assumption | intro _ | apply State.command_keeps | apply endDone

theorem execTileReturn_keeps {z0 : State} (m : Nat) (s : State) (h_s : z0.Keeps s) :
    State.Keeps.Ans z0 (execTileReturn m s) := by
  unfold execTileReturn
  try dsimp only
  with_reducible repeat' first | assumption | intro _ | apply State.command_keeps | apply State.putTile_keeps | apply endDone

/-! ### Machine/Placement.lean -/

theorem execHintSet_keeps {z0 : State} (m : Nat) (s : State) (h_s : z0.Keeps s) :
    State.Keeps.Ans z0 (execHintSet m s) := by
  unfold execHintSet
  try dsimp only
  with_reducible repeat' first
    | assumption | intro _ | apply State.command_keeps | apply State.setHints_keeps | apply State.sendAll_keeps | apply endDone

theorem execHintGet_keeps {z0 : State} (m : Nat) (s : State) (h_s : z0.Keeps s) :
    State.Keeps.Ans z0 (execHintGet m s) := by
  unfold execHintGet
  try dsimp only
  with_reducible repeat' first | assumption | intro _ | apply State.command_keeps | apply endDone

theorem execWearStatus_keeps {z0 : State} (m : Nat) (s : State) (h_s : z0.Keeps s) :
    State.Keeps.Ans z0 (execWearStatus m s) := by
  unfold execWearStatus
  try dsimp only
  repeat' first | (with_reducible first | assumption | intro _ | apply State.command_keeps | apply endDone) | (unfold queryCmd; dsimp only)

theorem execTierStatus_keeps {z0 : State} (m : Nat) (s : State) (h_s : z0.Keeps s) :
    State.Keeps.Ans z0 (execTierStatus m s) := by
  unfold execTierStatus
  try dsimp only
  repeat' first | (with_reducible first | assumption | intro _ | apply State.command_keeps | apply endDone) | (unfold queryCmd; dsimp only)

theorem execSwatchRetire_keeps {z0 : State} (m : Nat) (s : State) (h_s : z0.Keeps s) :
    State.Keeps.Ans z0 (execSwatchRetire m s) := by
  unfold execSwatchRetire
  try dsimp only
  with_reducible repeat' first | assumption | intro _ | apply State.command_keeps | apply State.retireSwatch_keeps | apply endLater

end Sys2Proof.Machine
end

