-- ==== Sys2Proof/Laws/KeepsPower.lean ====
section
/-!
SUPPORT. What the operations keep (Laws/Keeps.lean): registers, the sampler, power, start-up and update.
-/
namespace Sys2Proof.Machine
set_option Elab.async false
open State.Keeps

/-! ### Machine/Save.lean -/

theorem State.agentsBack_keeps {z0 : State} (s : State) (h_s : z0.Keeps s) :
    z0.Keeps (State.agentsBack s) := by
  unfold State.agentsBack
  try dsimp only
  with_reducible repeat' first | assumption | intro _ | apply State.install_keeps | (refine kUpd ?_; apply kFoldl)

theorem State.programNow_keeps {z0 : State} (s : State) (p : Nat) (img : LineImg) (h_s : z0.Keeps s) :
    z0.Keeps (State.programNow s p img) := by
  unfold State.programNow
  try dsimp only
  with_reducible repeat' first
    | apply State.addProgs_keeps | apply State.uncopy_keeps | apply State.count_keeps | (refine kUpd ?_; assumption)

theorem State.payFor_keeps {z0 : State} (s : State) (unpaid : Bool) (paced : Bool) (h_s : z0.Keeps s) :
    State.Keeps.Opt z0 (State.payFor s unpaid paced) := by
  unfold State.payFor
  try dsimp only
  with_reducible repeat' first | assumption | apply State.takeToken_keeps | apply optSome | apply optIte | (refine kUpd ?_; assumption)

theorem State.mapNow_keeps {z0 : State} (s : State) (lsw : Nat) (h_s : z0.Keeps s) :
    z0.Keeps (State.mapNow s lsw) := by
  unfold State.mapNow
  try dsimp only
  with_reducible repeat' first | assumption | apply State.startMapping_keeps | apply State.mappingDone_keeps | apply kIte

theorem State.flushTier_keeps {z0 : State} (s : State) (paced : Bool) (ln : Nat) (t : TierLine) (h_s : z0.Keeps s) :
    z0.Keeps (State.flushTier s paced ln t).2 := by
  unfold State.flushTier
  try dsimp only
  repeat' first
    | (with_reducible first | assumption | apply State.mapNow_keeps | apply State.dramAccess_keeps | apply State.govWait_keeps | apply iteP)
    | dsimp only
    | (with_reducible refine kUpd ?_; with_reducible first | apply State.programNow_keeps | (refine ofOpt (by assumption) ?_; with_reducible apply State.payFor_keeps))
    | split

theorem State.downImage_keeps {z0 : State} (s : State) (ln : Nat) (l : Nat) (c : LlcLine) (h_s : z0.Keeps s) :
    State.Keeps.OptP z0 (State.downImage s ln l c) := by
  unfold State.downImage
  try dsimp only
  with_reducible repeat' first | assumption | apply State.sealLine_keeps | apply optPSome | apply optPIte

theorem State.markClean_keeps {z0 : State} (s : State) (ln : Nat) (h_s : z0.Keeps s) :
    z0.Keeps (State.markClean s ln) := by
  unfold State.markClean
  try dsimp only
  with_reducible repeat' first | (refine kUpd ?_; assumption)

theorem State.flushLlc_keeps {z0 : State} (s : State) (paced : Bool) (ln : Nat) (c : LlcLine) (h_s : z0.Keeps s) :
    z0.Keeps (State.flushLlc s paced ln c).2 := by
  unfold State.flushLlc
  try dsimp only
  repeat' first
    | (with_reducible first
       | assumption | apply State.markClean_keeps | apply State.mapNow_keeps | apply State.govWait_keeps | apply iteP
       | (refine kUpd ?_; first | assumption | apply State.programNow_keeps | (refine ofOpt (by assumption) ?_; apply State.payFor_keeps) | (refine ofOptP (by assumption) ?_; apply State.downImage_keeps)))
    | split

theorem State.treeHome_keeps {z0 : State} (s : State) (h_s : z0.Keeps s) :
    z0.Keeps (State.treeHome s) := by
  unfold State.treeHome
  try dsimp only
  with_reducible repeat' first | apply State.count_keeps | (refine kUpd ?_; assumption)

theorem State.treeTick_keeps {z0 : State} (s : State) (h_s : z0.Keeps s) :
    z0.Keeps (State.treeTick s) := by
  unfold State.treeTick
  try dsimp only
  with_reducible repeat' first | assumption | apply State.treeHome_keeps | apply kIte

theorem State.cleanAll_keeps {z0 : State} {α : Type} (s : State) (f : State → Nat → α → Bool × State) (l : List (Nat × α)) (h_s : z0.Keeps s) (hf : ∀ (y0 : State) (y1 : Nat) (y2 : α), z0.Keeps y0 → z0.Keeps (f y0 y1 y2).2) :
    z0.Keeps (State.cleanAll s f l).2 := by
  unfold State.cleanAll
  try dsimp only
  with_reducible repeat' first | assumption | intro _ | apply hf | apply iteP | apply foldlP

theorem State.flushAll_keeps {z0 : State} (s : State) (paced : Bool) (h_s : z0.Keeps s) :
    z0.Keeps (State.flushAll s paced).2 := by
  unfold State.flushAll
  try dsimp only
  with_reducible repeat' first
    | assumption | intro _ | apply State.agentsBack_keeps | apply State.cleanAll_keeps | apply State.flushTier_keeps
    | apply State.flushLlc_keeps | apply State.treeHome_keeps | apply iteP | apply kFoldl | (refine kUpd ?_; assumption)

theorem State.allClean_keeps {z0 : State} (s : State) (h_s : z0.Keeps s) :
    z0.Keeps (State.allClean s) := by
  unfold State.allClean
  try dsimp only
  with_reducible repeat' first | (refine kUpd ?_; assumption)

theorem State.saveDirty_keeps {z0 : State} (s0 : State) (written : Nat) (h_s0 : z0.Keeps s0) :
    z0.Keeps (State.saveDirty s0 written) := by
  unfold State.saveDirty
  try dsimp only
  with_reducible repeat' first | assumption | apply kIte | (refine kUpd ?_; apply State.agentsBack_keeps)

theorem State.loseVolatile_keeps {z0 : State} (s : State) (h_s : z0.Keeps s) :
    z0.Keeps (State.loseVolatile s) := by
  unfold State.loseVolatile
  try dsimp only
  with_reducible repeat' first | (refine kUpd ?_; assumption)

theorem State.coolAll_keeps {z0 : State} (s : State) (h_s : z0.Keeps s) :
    z0.Keeps (State.coolAll s) := by
  unfold State.coolAll
  try dsimp only
  with_reducible repeat' first | (refine kUpd ?_; assumption)

theorem State.fromTable_keeps {z0 : State} (s : State) (h_s : z0.Keeps s) :
    z0.Keeps (State.fromTable s) := by
  unfold State.fromTable
  try dsimp only
  with_reducible repeat' first | (refine kUpd ?_; assumption)

theorem State.cleanExcess_keeps {z0 : State} (s : State) (r0 : Nat) (h_s : z0.Keeps s) :
    z0.Keeps (State.cleanExcess s r0) := by
  induction r0 generalizing s with
  | zero =>
    unfold State.cleanExcess
    try dsimp only
    repeat' first | (with_reducible first | assumption | apply State.flushTier_keeps | apply kIte) | split
  | succ _ ih =>
    unfold State.cleanExcess
    try dsimp only
    repeat' first | (with_reducible first | assumption | apply ih | apply State.flushTier_keeps | apply kIte) | split

theorem State.replaySave_keeps {z0 : State} (s : State) (g : SaveGen) (h_s : z0.Keeps s) :
    z0.Keeps (State.replaySave s g) := by
  unfold State.replaySave
  try dsimp only
  with_reducible repeat' first
    | assumption | intro _ | apply State.poisonLine_keeps | apply State.cleanExcess_keeps | apply State.raise_keeps
    | apply State.count_keeps | apply kIte | apply kFoldl | (refine kUpd ?_; assumption)

/-! ### Machine/Mode.lean -/

theorem State.toEconomy_keeps {z0 : State} (s : State) (h_s : z0.Keeps s) :
    z0.Keeps (State.toEconomy s) := by
  unfold State.toEconomy
  try dsimp only
  with_reducible repeat' first | assumption | apply State.llcCfgEffect_keeps | apply kIte | (refine kUpd ?_; assumption)

theorem State.toFull_keeps {z0 : State} (s : State) (h_s : z0.Keeps s) :
    z0.Keeps (State.toFull s) := by
  unfold State.toFull
  try dsimp only
  with_reducible repeat' first | assumption | apply State.llcCfgEffect_keeps | apply kIte | (refine kUpd ?_; assumption)

theorem State.enterIdle_keeps {z0 : State} (s0 : State) (h_s0 : z0.Keeps s0) :
    z0.Keeps (State.enterIdle s0) := by
  unfold State.enterIdle
  try dsimp only
  with_reducible repeat' first
    | assumption | apply State.setFlag_keeps | apply State.setFld_keeps | apply State.count_keeps
    | (refine kUpd ?_; apply State.allClean_keeps)

theorem State.idleWork_keeps {z0 : State} (s : State) (h_s : z0.Keeps s) :
    z0.Keeps (State.idleWork s) := by
  unfold State.idleWork
  try dsimp only
  with_reducible repeat' first | assumption | apply State.flushAll_keeps | apply State.enterIdle_keeps | apply kIte

theorem State.toIdle_keeps {z0 : State} (s : State) (h_s : z0.Keeps s) :
    z0.Keeps (State.toIdle s) := by
  unfold State.toIdle
  try dsimp only
  with_reducible repeat' first | apply State.idleWork_keeps | (refine kUpd ?_; assumption)

theorem execGovTokenTick_keeps {z0 : State} (s : State) (h_s : z0.Keeps s) :
    State.Keeps.Ans z0 (execGovTokenTick s) := by
  unfold execGovTokenTick
  try dsimp only
  with_reducible repeat' first
    | assumption | intro _ | apply State.periodic_keeps | apply State.govTick_keeps | apply State.idleWork_keeps
    | apply State.cleaner_keeps | apply ansNext | apply kIte

theorem State.modeWrite_keeps {z0 : State} (s : State) (v : Word) (h_s : z0.Keeps s) :
    State.Keeps.Opt z0 (State.modeWrite s v) := by
  unfold State.modeWrite
  try dsimp only
  with_reducible repeat' first
    | assumption | apply State.setFld_keeps | apply State.toIdle_keeps | apply State.wake_keeps | apply State.toEconomy_keeps
    | apply State.toFull_keeps | exact optNone | apply optSome | apply optIte | apply kIte

theorem execIdleAfterExpire_keeps {z0 : State} (s : State) (h_s : z0.Keeps s) :
    State.Keeps.Ans z0 (execIdleAfterExpire s) := by
  unfold execIdleAfterExpire
  try dsimp only
  with_reducible repeat' first | assumption | apply State.toIdle_keeps | apply ansNext | apply kIte

theorem State.levelChanged_keeps {z0 : State} (s : State) (old : Nat) (h_s : z0.Keeps s) :
    z0.Keeps (State.levelChanged s old) := by
  unfold State.levelChanged
  try dsimp only
  with_reducible repeat' first
    | assumption | intro _ | apply State.slowLift_keeps | apply State.report_keeps | apply State.count_keeps | apply State.raise_keeps
    | apply State.slowShare_keeps | apply kIte | apply kFoldl
    | (refine kUpd ?_; first | apply State.report_keeps | apply State.count_keeps)

theorem State.thermTick_keeps {z0 : State} (s : State) (h_s : z0.Keeps s) :
    z0.Keeps (State.thermTick s) := by
  unfold State.thermTick
  try dsimp only
  with_reducible repeat' first | apply State.levelChanged_keeps | (refine kUpd ?_; assumption)

theorem execThermalLevelTick_keeps {z0 : State} (s : State) (h_s : z0.Keeps s) :
    State.Keeps.Ans z0 (execThermalLevelTick s) := by
  unfold execThermalLevelTick
  try dsimp only
  with_reducible repeat' first | assumption | intro _ | apply State.periodic_keeps | apply State.thermTick_keeps | apply ansNext

theorem State.capTick_keeps {z0 : State} (s : State) (power : Nat) (h_s : z0.Keeps s) :
    z0.Keeps (State.capTick s power) := by
  unfold State.capTick
  try dsimp only
  with_reducible repeat' first | assumption | apply State.levelChanged_keeps | apply kIte | (refine kUpd ?_; assumption)

theorem execCapControlTick_keeps {z0 : State} (power : Nat) (mean : Nat) (rails : List (Nat × Nat)) (s : State) (h_s : z0.Keeps s) :
    State.Keeps.Ans z0 (execCapControlTick power mean rails s) := by
  unfold execCapControlTick
  try dsimp only
  repeat' first
    | (with_reducible first
       | assumption | intro _ | apply State.periodic_keeps | apply State.capTick_keeps | apply State.setFld_keeps | apply ansNext
       | apply kFoldl)
    | split

theorem State.requestSweep_keeps {z0 : State} (s : State) (m : Option Nat) (h_s : z0.Keeps s) :
    z0.Keeps (State.requestSweep s m) := by
  unfold State.requestSweep
  try dsimp only
  with_reducible repeat' first | apply kIte | (refine kUpd ?_; assumption)

theorem execSensorSweep_keeps {z0 : State} (s : State) (h_s : z0.Keeps s) :
    State.Keeps.Ans z0 (execSensorSweep s) := by
  unfold execSensorSweep
  try dsimp only
  with_reducible repeat' first | assumption | intro _ | apply State.periodic_keeps | apply State.requestSweep_keeps | apply ansNext

theorem State.takeSweep_keeps {z0 : State} (s : State) (readings : List Int) (h_s : z0.Keeps s) :
    z0.Keeps (State.takeSweep s readings) := by
  unfold State.takeSweep
  try dsimp only
  with_reducible repeat' first | assumption | intro _ | apply State.raise_keeps | apply State.count_keeps | (refine kUpd ?_; apply kFoldl)

theorem State.sweepEnd_keeps {z0 : State} (s : State) (h_s : z0.Keeps s) :
    z0.Keeps (State.sweepEnd s) := by
  unfold State.sweepEnd
  try dsimp only
  with_reducible repeat' first | assumption | intro _ | apply State.mbxComplete_keeps | (refine kUpd ?_; apply kFoldl)

theorem State.rates_keeps {z0 : State} (s : State) (h_s : z0.Keeps s) :
    z0.Keeps (State.rates s) := by
  unfold State.rates
  try dsimp only
  with_reducible repeat' first
    | assumption | intro _ | apply State.count_keeps | apply State.raise_keeps | apply kFoldl | (refine kUpd ?_; apply State.count_keeps)

theorem State.takeModel_keeps {z0 : State} (s : State) (model : List Int) (h_s : z0.Keeps s) :
    z0.Keeps (State.takeModel s model) := by
  unfold State.takeModel
  try dsimp only
  with_reducible repeat' first
    | assumption | intro _ | apply State.setFld_keeps | apply State.rates_keeps | (refine kUpd ?_; first | assumption | apply kFoldl)

/-! ### Machine/Registers.lean -/

theorem State.acknowledge_keeps {z0 : State} (s : State) (off : Nat) (d : RegDesc) (v : Word) (h_s : z0.Keeps s) :
    z0.Keeps (State.acknowledge s off d v) := by
  unfold State.acknowledge
  try dsimp only
  repeat' first | (with_reducible first | assumption | intro _ | apply State.wr_keeps | apply kFoldl) | split

theorem State.merge_keeps {z0 : State} (s : State) (off : Nat) (d : RegDesc) (v : Word) (h_s : z0.Keeps s) :
    z0.Keeps (State.merge s off d v) := by
  unfold State.merge
  try dsimp only
  with_reducible repeat' first | assumption | apply State.wr_keeps

theorem State.regEffect_keeps {z0 : State} (s : State) (fw : Bool) (off : Nat) (d : RegDesc) (v : Word) (h_s : z0.Keeps s) :
    State.Keeps.Opt z0 (State.regEffect s fw off d v) := by
  unfold State.regEffect
  try dsimp only
  repeat' first
    | (with_reducible first
       | assumption | apply State.lceCfgEffect_keeps | apply State.resetConn_keeps | apply State.llcCfgEffect_keeps
       | apply State.wayCtl_keeps | apply State.maintCtl_keeps | apply State.merge_keeps | apply State.refreshStale_keeps
       | apply State.bobModeEffect_keeps | apply State.bobCfg0_keeps | apply State.bobCfg1_keeps | apply State.bobCtl_keeps
       | apply State.modeWrite_keeps | apply State.requestSweep_keeps | apply State.dieCtl_keeps | apply State.dramCtl_keeps
       | apply State.ethPortCfgEffect_keeps | apply State.acknowledge_keeps | apply optSome | apply optIte | apply kIte
       | (refine kUpd ?_; assumption))
    | split

theorem State.ignoredWrite_keeps {z0 : State} (s : State) (off : Nat) (h_s : z0.Keeps s) :
    z0.Keeps (State.ignoredWrite s off) := by
  unfold State.ignoredWrite
  try dsimp only
  repeat' first | (with_reducible first | assumption | apply State.setFlag_keeps) | split

theorem State.writeWord_keeps {z0 : State} (s : State) (a : Author) (off : Nat) (d : RegDesc) (v : Word) (h_s : z0.Keeps s) :
    z0.Keeps (State.writeWord s a off d v).2 := by
  unfold State.writeWord
  try dsimp only
  repeat' first
    | (with_reducible first
       | assumption | apply State.ignoredWrite_keeps | apply State.acknowledge_keeps | apply State.jRefuse_keeps
       | apply State.regEffect_keeps | apply State.jChange_keeps | apply optGetD)
    | dsimp only
    | (with_reducible refine kUpd ?_; with_reducible (refine ofOpt (by assumption) ?_; with_reducible apply State.regEffect_keeps))
    | split

theorem State.writeKeep_keeps {z0 : State} (s : State) (a : Author) (retry : Bool) (w : Nat) (off : Nat) (d : RegDesc) (v : Word) (h_s : z0.Keeps s) :
    z0.Keeps (State.writeKeep s a retry w off d v).2 := by
  unfold State.writeKeep
  try dsimp only
  repeat' first
    | (with_reducible first | assumption | apply State.count_keeps | apply State.ignoredWrite_keeps | apply State.jRefuse_keeps | apply iteP)
    | dsimp only
    | (with_reducible refine kUpd ?_; with_reducible assumption)

theorem State.sealReg_keeps {z0 : State} (s : State) (off : Nat) (v : Word) (h_s : z0.Keeps s) :
    z0.Keeps (State.sealReg s off v) := by
  unfold State.sealReg
  try dsimp only
  with_reducible repeat' first
    | apply State.count_keeps | apply State.wr_keeps | apply State.setFld_keeps | apply State.raise_keeps | apply State.setFlag_keeps
    | apply kIte | (refine kUpd ?_; assumption)

theorem State.sealed_keeps {z0 : State} (s : State) (w : Nat) (h_s : z0.Keeps s) :
    z0.Keeps (State.sealed s w) := by
  unfold State.sealed
  try dsimp only
  repeat' first | (with_reducible first | assumption | apply State.finishOp_keeps | apply kIte) | split

theorem execKeepPageWriteDone_keeps {z0 : State} (s : State) (h_s : z0.Keeps s) :
    State.Keeps.Ans z0 (execKeepPageWriteDone s) := by
  unfold execKeepPageWriteDone
  try dsimp only
  repeat' first
    | (with_reducible first
       | assumption | apply State.jAlways_keeps | apply State.sealed_keeps | apply State.sealReg_keeps | apply ansNext
       | (refine kUpd ?_; assumption))
    | split

theorem State.closeKeep_keeps {z0 : State} (s : State) (h_s : z0.Keeps s) :
    z0.Keeps (State.closeKeep s) := by
  unfold State.closeKeep
  try dsimp only
  repeat' first
    | (with_reducible first
       | assumption | intro _ | apply State.mbxComplete_keeps | apply State.failOp_keeps | apply kIte | apply kFoldl
       | (refine kUpd ?_; assumption))
    | split

theorem State.writeFwp_keeps {z0 : State} (s : State) (p : Path) (i : Nat) (v : Word) (h_s : z0.Keeps s) :
    z0.Keeps (State.writeFwp s p i v).2 := by
  unfold State.writeFwp
  try dsimp only
  repeat' first
    | (with_reducible first | assumption | apply State.setFlag_keeps | apply State.jRefuse_keeps)
    | dsimp only
    | (with_reducible refine kUpd ?_; with_reducible apply State.jChange_keeps)
    | split

theorem State.writeWindow_keeps {z0 : State} (s : State) (p : Path) (off : Nat) (v : Word) (h_s : z0.Keeps s) :
    z0.Keeps (State.writeWindow s p off v).2 := by
  unfold State.writeWindow
  try dsimp only
  repeat' first
    | (with_reducible first
       | assumption | apply State.packetStart_keeps | apply State.pushData_keeps | apply State.setFld_keeps | apply State.dropPkt_keeps
       | apply iteP)
    | split

theorem State.writeReg_keeps {z0 : State} (s : State) (p : Path) (w : Nat) (off : Nat) (v : Word) (h_s : z0.Keeps s) :
    z0.Keeps (State.writeReg s p w off v).2 := by
  unfold State.writeReg
  try dsimp only
  repeat' first
    | (with_reducible first
       | assumption | apply State.writeFwp_keeps | apply State.writeWindow_keeps | apply State.writeKeep_keeps
       | apply State.writeWord_keeps | apply iteP)
    | split

theorem State.readBas_keeps {z0 : State} (s : State) (k : Nat) (h_s : z0.Keeps s) :
    z0.Keeps (State.readBas s k).2 := by
  unfold State.readBas
  try dsimp only
  repeat' first | (with_reducible first | assumption | apply State.setFld_keeps | apply State.setFlag_keeps | apply kIte) | split

theorem State.readCounter_keeps {z0 : State} (s : State) (i : Nat) (h_s : z0.Keeps s) :
    z0.Keeps (State.readCounter s i).2 := by
  unfold State.readCounter
  try dsimp only
  with_reducible repeat' first | assumption | apply State.wr_keeps

theorem State.readReg_keeps {z0 : State} (s : State) (p : Path) (off : Nat) (h_s : z0.Keeps s) :
    z0.Keeps (State.readReg s p off).2.2 := by
  unfold State.readReg
  try dsimp only
  repeat' first | (with_reducible first | assumption | apply State.readBas_keeps | apply State.readCounter_keeps) | split

theorem State.writeRow_keeps {z0 : State} (s : State) (p : Path) (off : Nat) (v : Word) (h_s : z0.Keeps s) :
    z0.Keeps (State.writeRow s p off v) := by
  unfold State.writeRow
  try dsimp only
  with_reducible repeat' first | assumption | apply State.writeReg_keeps | apply kIte | (refine kUpd ?_; apply State.writeReg_keeps)

theorem State.readRow_keeps {z0 : State} (s : State) (p : Path) (off : Nat) (h_s : z0.Keeps s) :
    z0.Keeps (State.readRow s p off) := by
  unfold State.readRow
  try dsimp only
  with_reducible repeat' first | assumption | apply kIte | (refine kUpd ?_; apply State.readReg_keeps)

theorem State.actionRow_keeps {z0 : State} (s : State) (asks : Bool) (p : Path) (off : Nat) (v : Word) (h_s : z0.Keeps s) :
    State.Keeps.Ans z0 (State.actionRow s asks p off v) := by
  unfold State.actionRow
  try dsimp only
  with_reducible repeat' first | assumption | apply State.writeRow_keeps | apply ansNext | apply kIte

theorem execRegisterWrite_keeps {z0 : State} (path : Path) (off : Nat) (value : Word) (s : State) (h_s : z0.Keeps s) :
    State.Keeps.Ans z0 (execRegisterWrite path off value s) := by
  unfold execRegisterWrite
  try dsimp only
  with_reducible repeat' first | assumption | apply State.writeRow_keeps | apply ansNext

theorem execFwpWrite_keeps {z0 : State} (path : Path) (i : Nat) (value : Word) (s : State) (h_s : z0.Keeps s) :
    State.Keeps.Ans z0 (execFwpWrite path i value s) := by
  unfold execFwpWrite
  try dsimp only
  with_reducible repeat' first | assumption | apply State.writeRow_keeps | apply ansWithin

theorem execPmcValueRead_keeps {z0 : State} (path : Path) (i : Nat) (s : State) (h_s : z0.Keeps s) :
    State.Keeps.Ans z0 (execPmcValueRead path i s) := by
  unfold execPmcValueRead
  try dsimp only
  with_reducible repeat' first | assumption | apply State.readRow_keeps | apply ansWithin

theorem execBasRead_keeps {z0 : State} (path : Path) (stack : Nat) (s : State) (h_s : z0.Keeps s) :
    State.Keeps.Ans z0 (execBasRead path stack s) := by
  unfold execBasRead
  try dsimp only
  with_reducible repeat' first | assumption | apply State.readRow_keeps | apply ansWithin

theorem execEthPortCfgWrite_keeps {z0 : State} (path : Path) (port : Nat) (value : Word) (s : State) (h_s : z0.Keeps s) :
    State.Keeps.Ans z0 (execEthPortCfgWrite path port value s) := by
  unfold execEthPortCfgWrite
  try dsimp only
  with_reducible repeat' first | assumption | apply State.writeRow_keeps | apply ansWithin

theorem execShtConnCtlReset_keeps {z0 : State} (path : Path) (value : Word) (s : State) (h_s : z0.Keeps s) :
    State.Keeps.Ans z0 (execShtConnCtlReset path value s) := by
  unfold execShtConnCtlReset
  try dsimp only
  with_reducible repeat' first | assumption | apply State.actionRow_keeps

theorem execLceCfgWrite_keeps {z0 : State} (path : Path) (value : Word) (s : State) (h_s : z0.Keeps s) :
    State.Keeps.Ans z0 (execLceCfgWrite path value s) := by
  unfold execLceCfgWrite
  try dsimp only
  with_reducible repeat' first | assumption | apply State.writeRow_keeps | apply ansNext

theorem execDieFail_keeps {z0 : State} (path : Path) (value : Word) (s : State) (h_s : z0.Keeps s) :
    State.Keeps.Ans z0 (execDieFail path value s) := by
  unfold execDieFail
  try dsimp only
  with_reducible repeat' first | assumption | apply State.actionRow_keeps

theorem execDieReturn_keeps {z0 : State} (path : Path) (value : Word) (s : State) (h_s : z0.Keeps s) :
    State.Keeps.Ans z0 (execDieReturn path value s) := by
  unfold execDieReturn
  try dsimp only
  with_reducible repeat' first | assumption | apply State.actionRow_keeps

theorem execChannelErase_keeps {z0 : State} (path : Path) (value : Word) (s : State) (h_s : z0.Keeps s) :
    State.Keeps.Ans z0 (execChannelErase path value s) := by
  unfold execChannelErase
  try dsimp only
  with_reducible repeat' first | assumption | apply State.actionRow_keeps

theorem execChannelReturn_keeps {z0 : State} (path : Path) (value : Word) (s : State) (h_s : z0.Keeps s) :
    State.Keeps.Ans z0 (execChannelReturn path value s) := by
  unfold execChannelReturn
  try dsimp only
  with_reducible repeat' first | assumption | apply State.actionRow_keeps

theorem execLlcCfgWrite_keeps {z0 : State} (path : Path) (value : Word) (s : State) (h_s : z0.Keeps s) :
    State.Keeps.Ans z0 (execLlcCfgWrite path value s) := by
  unfold execLlcCfgWrite
  try dsimp only
  with_reducible repeat' first | assumption | apply State.writeRow_keeps | apply ansNext

theorem execWayLock_keeps {z0 : State} (path : Path) (value : Word) (s : State) (h_s : z0.Keeps s) :
    State.Keeps.Ans z0 (execWayLock path value s) := by
  unfold execWayLock
  try dsimp only
  with_reducible repeat' first | assumption | apply State.actionRow_keeps

theorem execWayUnlock_keeps {z0 : State} (path : Path) (value : Word) (s : State) (h_s : z0.Keeps s) :
    State.Keeps.Ans z0 (execWayUnlock path value s) := by
  unfold execWayUnlock
  try dsimp only
  with_reducible repeat' first | assumption | apply State.actionRow_keeps

theorem execWayReturn_keeps {z0 : State} (path : Path) (value : Word) (s : State) (h_s : z0.Keeps s) :
    State.Keeps.Ans z0 (execWayReturn path value s) := by
  unfold execWayReturn
  try dsimp only
  with_reducible repeat' first | assumption | apply State.actionRow_keeps

theorem execWayDisable_keeps {z0 : State} (path : Path) (value : Word) (s : State) (h_s : z0.Keeps s) :
    State.Keeps.Ans z0 (execWayDisable path value s) := by
  unfold execWayDisable
  try dsimp only
  with_reducible repeat' first | assumption | apply State.actionRow_keeps

theorem execClean_keeps {z0 : State} (path : Path) (value : Word) (s : State) (h_s : z0.Keeps s) :
    State.Keeps.Ans z0 (execClean path value s) := by
  unfold execClean
  try dsimp only
  with_reducible repeat' first | assumption | apply State.actionRow_keeps

theorem execCleanInv_keeps {z0 : State} (path : Path) (value : Word) (s : State) (h_s : z0.Keeps s) :
    State.Keeps.Ans z0 (execCleanInv path value s) := by
  unfold execCleanInv
  try dsimp only
  with_reducible repeat' first | assumption | apply State.actionRow_keeps

theorem execDiscard_keeps {z0 : State} (path : Path) (value : Word) (s : State) (h_s : z0.Keeps s) :
    State.Keeps.Ans z0 (execDiscard path value s) := by
  unfold execDiscard
  try dsimp only
  with_reducible repeat' first | assumption | apply State.actionRow_keeps

theorem execLockFill_keeps {z0 : State} (path : Path) (value : Word) (s : State) (h_s : z0.Keeps s) :
    State.Keeps.Ans z0 (execLockFill path value s) := by
  unfold execLockFill
  try dsimp only
  with_reducible repeat' first | assumption | apply State.actionRow_keeps

theorem execBobbinReset_keeps {z0 : State} (path : Path) (value : Word) (s : State) (h_s : z0.Keeps s) :
    State.Keeps.Ans z0 (execBobbinReset path value s) := by
  unfold execBobbinReset
  try dsimp only
  with_reducible repeat' first | assumption | apply State.actionRow_keeps

theorem execBobModeWrite_keeps {z0 : State} (path : Path) (value : Word) (s : State) (h_s : z0.Keeps s) :
    State.Keeps.Ans z0 (execBobModeWrite path value s) := by
  unfold execBobModeWrite
  try dsimp only
  with_reducible repeat' first | assumption | apply State.writeRow_keeps | apply ansNext

theorem execThmSweepStart_keeps {z0 : State} (path : Path) (value : Word) (s : State) (h_s : z0.Keeps s) :
    State.Keeps.Ans z0 (execThmSweepStart path value s) := by
  unfold execThmSweepStart
  try dsimp only
  with_reducible repeat' first | assumption | apply State.actionRow_keeps

theorem State.modSmb_keeps {z0 : State} (s : State) (f : Smbus → Smbus) (h_s : z0.Keeps s) :
    z0.Keeps (State.modSmb s f) := by
  unfold State.modSmb
  try dsimp only
  with_reducible repeat' first | (refine kUpd ?_; assumption)

theorem State.smbWrite_keeps {z0 : State} (s : State) (pecOk : Bool) (f : State → State) (h_s : z0.Keeps s) (hf : ∀ (y0 : State), z0.Keeps y0 → z0.Keeps (f y0)) :
    z0.Keeps (State.smbWrite s pecOk f) := by
  unfold State.smbWrite
  try dsimp only
  with_reducible repeat' first | assumption | apply hf | apply State.count_keeps | apply kIte

theorem State.smbRead_keeps {z0 : State} (s : State) (f : State → List Byte × State) (h_s : z0.Keeps s) (hf : ∀ (y0 : State), z0.Keeps y0 → z0.Keeps (f y0).2) :
    z0.Keeps (State.smbRead s f) := by
  unfold State.smbRead
  try dsimp only
  with_reducible repeat' first | assumption | apply hf | apply State.modSmb_keeps | apply kIte

theorem execRegAddr_keeps {z0 : State} (off : Nat) (pecOk : Bool) (s : State) (h_s : z0.Keeps s) :
    State.Keeps.Ans z0 (execRegAddr off pecOk s) := by
  unfold execRegAddr
  try dsimp only
  with_reducible repeat' first | assumption | intro _ | apply State.smbWrite_keeps | apply State.modSmb_keeps | apply ansNext

theorem execRegDataWrite_keeps {z0 : State} (value : Word) (pecOk : Bool) (s : State) (h_s : z0.Keeps s) :
    State.Keeps.Ans z0 (execRegDataWrite value pecOk s) := by
  unfold execRegDataWrite
  try dsimp only
  with_reducible repeat' first
    | assumption | intro _ | apply State.smbWrite_keeps | apply State.writeRow_keeps | apply State.modSmb_keeps | apply ansNext

theorem execRegDataRead_keeps {z0 : State} (s : State) (h_s : z0.Keeps s) :
    State.Keeps.Ans z0 (execRegDataRead s) := by
  unfold execRegDataRead
  try dsimp only
  with_reducible repeat' first | assumption | apply State.readRow_keeps | apply State.modSmb_keeps | apply ansNext | apply kIte

theorem execRegStatus_keeps {z0 : State} (s : State) (h_s : z0.Keeps s) :
    State.Keeps.Ans z0 (execRegStatus s) := by
  unfold execRegStatus
  try dsimp only
  with_reducible repeat' first | assumption | intro _ | apply State.smbRead_keeps | apply ansNext

theorem execAlertCause_keeps {z0 : State} (s : State) (h_s : z0.Keeps s) :
    State.Keeps.Ans z0 (execAlertCause s) := by
  unfold execAlertCause
  try dsimp only
  with_reducible repeat' first | assumption | intro _ | apply State.smbRead_keeps | apply ansNext

theorem execAlertResponse_keeps {z0 : State} (s : State) (h_s : z0.Keeps s) :
    State.Keeps.Ans z0 (execAlertResponse s) := by
  unfold execAlertResponse
  try dsimp only
  with_reducible repeat' first | assumption | intro _ | apply State.smbRead_keeps | apply ansNext | apply kIte

theorem execSmbusTimeout_keeps {z0 : State} (s : State) (h_s : z0.Keeps s) :
    State.Keeps.Ans z0 (execSmbusTimeout s) := by
  unfold execSmbusTimeout
  try dsimp only
  with_reducible repeat' first | assumption | apply State.modSmb_keeps | apply ansNext | apply kIte

theorem execMbxSel_keeps {z0 : State} (mailbox : Nat) (buffer : Nat) (offset : Nat) (pecOk : Bool) (s : State) (h_s : z0.Keeps s) :
    State.Keeps.Ans z0 (execMbxSel mailbox buffer offset pecOk s) := by
  unfold execMbxSel
  try dsimp only
  with_reducible repeat' first | assumption | intro _ | apply State.smbWrite_keeps | apply State.modSmb_keeps | apply ansNext

theorem State.smbTouch_keeps {z0 : State} (s : State) (m : Nat) (h_s : z0.Keeps s) :
    z0.Keeps (State.smbTouch s m) := by
  unfold State.smbTouch
  try dsimp only
  with_reducible repeat' first | assumption | apply State.putBox_keeps | apply kIte

theorem execMbxDataWrite_keeps {z0 : State} (bytes : List Byte) (pecOk : Bool) (s : State) (h_s : z0.Keeps s) :
    State.Keeps.Ans z0 (execMbxDataWrite bytes pecOk s) := by
  unfold execMbxDataWrite
  try dsimp only
  with_reducible repeat' first
    | assumption | intro _ | apply State.smbWrite_keeps | apply State.modSmb_keeps | apply State.putBox_keeps | apply ansNext | apply kIte

theorem execMbxDataRead_keeps {z0 : State} (n : Nat) (s : State) (h_s : z0.Keeps s) :
    State.Keeps.Ans z0 (execMbxDataRead n s) := by
  unfold execMbxDataRead
  try dsimp only
  with_reducible repeat' first
    | assumption | intro _ | apply State.smbRead_keeps | apply State.smbTouch_keeps | apply State.modSmb_keeps | apply State.putBox_keeps
    | apply ansNext | apply kIte

theorem State.smbSegment_keeps {z0 : State} (s : State) (m : Nat) (seg : List Byte) (h_s : z0.Keeps s) :
    z0.Keeps (State.smbSegment s m seg) := by
  unfold State.smbSegment
  try dsimp only
  repeat' first
    | (with_reducible first
       | assumption | apply State.putBox_keeps | apply kIte
       | (refine kUpd ?_; (refine kSnd (by assumption) ?_; apply State.mbxSegment_keeps)))
    | split

theorem execMbxSubmit_keeps {z0 : State} (pecOk : Bool) (s : State) (h_s : z0.Keeps s) :
    State.Keeps.Ans z0 (execMbxSubmit pecOk s) := by
  unfold execMbxSubmit
  try dsimp only
  with_reducible repeat' first
    | assumption | intro _ | apply State.smbWrite_keeps | apply State.smbSegment_keeps | apply State.smbTouch_keeps | apply ansNext
    | apply kIte

theorem execMbxState_keeps {z0 : State} (s : State) (h_s : z0.Keeps s) :
    State.Keeps.Ans z0 (execMbxState s) := by
  unfold execMbxState
  try dsimp only
  with_reducible repeat' first | assumption | intro _ | apply State.smbRead_keeps | apply State.smbTouch_keeps | apply ansNext

/-! ### Machine/DevOps.lean -/

theorem State.sendDevice_keeps {z0 : State} (s : State) (id : Nat) (o : Op) (h_s : z0.Keeps s) :
    z0.Keeps (State.sendDevice s id o) := by
  unfold State.sendDevice
  try dsimp only
  with_reducible repeat' first | assumption | apply State.modOp_keeps | apply State.putSplit_keeps | apply State.sendParts_keeps

theorem State.deviceRow_keeps {z0 : State} (s : State) (op : Nat) (opcode : Nat) (ok : Op → Bool) (f : State → Op → State) (h_s : z0.Keeps s) (hf : ∀ (y0 : State) (y1 : Op), z0.Keeps y0 → z0.Keeps (f y0 y1)) :
    z0.Keeps (State.deviceRow s op opcode ok f) := by
  unfold State.deviceRow
  try dsimp only
  repeat' first
    | (with_reducible first | assumption | apply hf | apply State.failOp_keeps | apply State.sendDevice_keeps | apply kIte)
    | split

theorem State.readRegs_keeps {z0 : State} (s : State) (p : Path) (off : Nat) (r0 : Nat) (h_s : z0.Keeps s) :
    z0.Keeps (State.readRegs s p off r0).2.2 := by
  induction r0 generalizing s p off with
  | zero =>
    unfold State.readRegs
    try dsimp only
    repeat' first | (with_reducible first | assumption | apply State.readReg_keeps) | split
  | succ _ ih =>
    unfold State.readRegs
    try dsimp only
    repeat' first | (with_reducible first | assumption | apply ih | apply State.readReg_keeps) | split

theorem State.writeRegs_keeps {z0 : State} (s : State) (p : Path) (w : Nat) (off : Nat) (r0 : List Word) (h_s : z0.Keeps s) :
    z0.Keeps (State.writeRegs s p w off r0).2.2.2 := by
  induction r0 generalizing s p w off with
  | nil =>
    unfold State.writeRegs
    try dsimp only
    repeat' first | (with_reducible first | assumption | apply State.writeReg_keeps) | split
  | cons _ _ ih =>
    unfold State.writeRegs
    try dsimp only
    repeat' first | (with_reducible first | assumption | apply ih | apply State.writeReg_keeps) | split

theorem State.regRead_keeps {z0 : State} (s : State) (id : Nat) (o : Op) (h_s : z0.Keeps s) :
    z0.Keeps (State.regRead s id o) := by
  unfold State.regRead
  try dsimp only
  with_reducible repeat' first | assumption | apply State.readRegs_keeps | apply State.finishOp_keeps

theorem State.regWrite_keeps {z0 : State} (s : State) (id : Nat) (o : Op) (h_s : z0.Keeps s) :
    z0.Keeps (State.regWrite s id o) := by
  unfold State.regWrite
  try dsimp only
  with_reducible repeat' first
    | assumption | apply State.writeRegs_keeps | apply State.modOp_keeps | apply State.finishOp_keeps | apply kIte

theorem execRegRead_keeps {z0 : State} (op : Nat) (s : State) (h_s : z0.Keeps s) :
    State.Keeps.Ans z0 (execRegRead op s) := by
  unfold execRegRead
  try dsimp only
  with_reducible repeat' first | assumption | intro _ | apply State.deviceRow_keeps | apply State.regRead_keeps | apply ansNext

theorem execRegWrite_keeps {z0 : State} (op : Nat) (s : State) (h_s : z0.Keeps s) :
    State.Keeps.Ans z0 (execRegWrite op s) := by
  unfold execRegWrite
  try dsimp only
  with_reducible repeat' first | assumption | intro _ | apply State.deviceRow_keeps | apply State.regWrite_keeps | apply ansNext

theorem execCtr_keeps {z0 : State} (op : Nat) (s : State) (h_s : z0.Keeps s) :
    State.Keeps.Ans z0 (execCtr op s) := by
  unfold execCtr
  try dsimp only
  with_reducible repeat' first
    | assumption | intro _ | apply State.deviceRow_keeps | apply State.failOp_keeps | apply State.finishOp_keeps | apply ansNext
    | apply kIte

theorem execMbx_keeps {z0 : State} (op : Nat) (s : State) (h_s : z0.Keeps s) :
    State.Keeps.Ans z0 (execMbx op s) := by
  unfold execMbx
  try dsimp only
  with_reducible repeat' first | assumption | intro _ | apply State.deviceRow_keeps | apply State.mbxStitch_keeps | apply ansNext

theorem State.smbDoorbell_keeps {z0 : State} (s : State) (flags : Nat) (h_s : z0.Keeps s) :
    z0.Keeps (State.smbDoorbell s flags) := by
  unfold State.smbDoorbell
  try dsimp only
  with_reducible repeat' first | assumption | apply State.smbSegment_keeps | apply kIte

theorem execMbxPoll_keeps {z0 : State} (via : MbxVia) (s : State) (h_s : z0.Keeps s) :
    State.Keeps.Ans z0 (execMbxPoll via s) := by
  unfold execMbxPoll
  try dsimp only
  repeat' first
    | (with_reducible first
       | assumption | intro _ | apply State.deviceRow_keeps | apply State.mbxStitch_keeps | apply State.smbDoorbell_keeps | apply ansNext)
    | split

theorem execMbxAbort_keeps {z0 : State} (via : MbxVia) (s : State) (h_s : z0.Keeps s) :
    State.Keeps.Ans z0 (execMbxAbort via s) := by
  unfold execMbxAbort
  try dsimp only
  repeat' first
    | (with_reducible first
       | assumption | intro _ | apply State.deviceRow_keeps | apply State.mbxStitch_keeps | apply State.smbDoorbell_keeps | apply ansNext)
    | split

theorem State.sampleDone_keeps {z0 : State} (s : State) (o : Op) (r : Response) (h_s : z0.Keeps s) :
    z0.Keeps (State.sampleDone s o r) := by
  unfold State.sampleDone
  try dsimp only
  repeat' first
    | (with_reducible first | assumption | apply State.draw256_keeps | apply State.bobPush_keeps | apply State.count_keeps | apply kIte)
    | split

theorem State.leaveOp_keeps {z0 : State} (s : State) (id : Nat) (o : Op) (r : Response) (h_s : z0.Keeps s) :
    z0.Keeps (State.leaveOp s id o r) := by
  unfold State.leaveOp
  try dsimp only
  with_reducible repeat' first | assumption | apply State.modOp_keeps | apply kIte | (refine kUpd ?_; assumption)

theorem execStitchComplete_keeps {z0 : State} (op : Nat) (s : State) (h_s : z0.Keeps s) :
    State.Keeps.Ans z0 (execStitchComplete op s) := by
  unfold execStitchComplete
  try dsimp only
  repeat' first
    | (with_reducible first
       | assumption | apply State.staleWrite_keeps | apply State.sampleDone_keeps | apply State.respond_keeps | apply State.leaveOp_keeps
       | apply State.sendComplete_keeps | apply State.partDone_keeps | apply ansNext | apply kIte)
    | split

/-! ### Machine/SamplerCmds.lean -/

theorem execSamplerRead_keeps {z0 : State} (m : Nat) (s : State) (h_s : z0.Keeps s) :
    State.Keeps.Ans z0 (execSamplerRead m s) := by
  unfold execSamplerRead
  try dsimp only
  with_reducible repeat' first | assumption | intro _ | apply State.command_keeps | apply endDone

theorem execSamplerClear_keeps {z0 : State} (m : Nat) (s : State) (h_s : z0.Keeps s) :
    State.Keeps.Ans z0 (execSamplerClear m s) := by
  unfold execSamplerClear
  try dsimp only
  with_reducible repeat' first
    | assumption | intro _ | apply State.command_keeps | apply State.draw_keeps | apply State.setFlag_keeps | apply endLater
    | (refine kUpd ?_; apply State.putBox_keeps)

theorem execJournalRead_keeps {z0 : State} (m : Nat) (s : State) (h_s : z0.Keeps s) :
    State.Keeps.Ans z0 (execJournalRead m s) := by
  unfold execJournalRead
  try dsimp only
  with_reducible repeat' first | assumption | intro _ | apply State.command_keeps | apply endDone

theorem execJournalArchive_keeps {z0 : State} (m : Nat) (s : State) (h_s : z0.Keeps s) :
    State.Keeps.Ans z0 (execJournalArchive m s) := by
  unfold execJournalArchive
  try dsimp only
  with_reducible repeat' first
    | assumption | intro _ | apply State.command_keeps | apply State.setFld_keeps | apply State.count_keeps | apply State.raise_keeps
    | apply State.jAlways_keeps | apply endDone | (refine kUpd ?_; assumption)

theorem State.popSamples_keeps {z0 : State} (s : State) (r0 : Nat) (h_s : z0.Keeps s) :
    z0.Keeps (State.popSamples s r0).2 := by
  induction r0 generalizing s with
  | zero =>
    unfold State.popSamples
    try dsimp only
    repeat' first
      | (with_reducible first | assumption | (refine kUpd ?_; (refine ofOptP (by assumption) ?_; apply State.bobTake_keeps)))
      | split
  | succ _ ih =>
    unfold State.popSamples
    try dsimp only
    repeat' first
      | (with_reducible first | assumption | apply ih | (refine kUpd ?_; (refine ofOptP (by assumption) ?_; apply State.bobTake_keeps)))
      | split

theorem execCounterRead_keeps {z0 : State} (m : Nat) (s : State) (h_s : z0.Keeps s) :
    State.Keeps.Ans z0 (execCounterRead m s) := by
  unfold execCounterRead
  try dsimp only
  with_reducible repeat' first
    | assumption | intro _ | apply State.command_keeps | apply State.popSamples_keeps | apply endDone | apply endIte

theorem State.writeWords_keeps {z0 : State} (s : State) (a : Author) (r0 : List (Nat × Word)) (h_s : z0.Keeps s) :
    z0.Keeps (State.writeWords s a r0).2 := by
  induction r0 generalizing s a with
  | nil =>
    unfold State.writeWords
    try dsimp only
    repeat' first | (with_reducible first | assumption | apply State.writeWord_keeps | apply iteP) | split
  | cons _ _ ih =>
    unfold State.writeWords
    try dsimp only
    repeat' first | (with_reducible first | assumption | apply ih | apply State.writeWord_keeps | apply iteP) | split

theorem execSamplingSet_keeps {z0 : State} (m : Nat) (s : State) (h_s : z0.Keeps s) :
    State.Keeps.Ans z0 (execSamplingSet m s) := by
  unfold execSamplingSet
  try dsimp only
  with_reducible repeat' first | assumption | intro _ | apply State.command_keeps | apply State.writeWords_keeps | apply endDone

theorem execKeepStatus_keeps {z0 : State} (m : Nat) (s : State) (h_s : z0.Keeps s) :
    State.Keeps.Ans z0 (execKeepStatus m s) := by
  unfold execKeepStatus
  try dsimp only
  repeat' first | (with_reducible first | assumption | intro _ | apply State.command_keeps | apply endDone) | (unfold queryCmd; dsimp only)

theorem execKeepWearList_keeps {z0 : State} (m : Nat) (s : State) (h_s : z0.Keeps s) :
    State.Keeps.Ans z0 (execKeepWearList m s) := by
  unfold execKeepWearList
  try dsimp only
  with_reducible repeat' first | assumption | intro _ | apply State.command_keeps | apply endDone

/-! ### Machine/PowerOn.lean -/

theorem State.portReset_keeps {z0 : State} (s : State) (role : Nat) (p : Nat) (h_s : z0.Keeps s) :
    z0.Keeps (State.portReset s role p) := by
  unfold State.portReset
  try dsimp only
  with_reducible repeat' first | assumption | apply State.wr_keeps | apply State.setFld_keeps

theorem State.resetWays_keeps {z0 : State} (s : State) (h_s : z0.Keeps s) :
    z0.Keeps (State.resetWays s) := by
  unfold State.resetWays
  try dsimp only
  with_reducible repeat' first | assumption | intro _ | apply State.putWay_keeps | apply kFoldl | (refine kUpd ?_; assumption)

theorem State.coldReset_keeps {z0 : State} (s : State) (h_s : z0.Keeps s) :
    z0.Keeps (State.coldReset s) := by
  unfold State.coldReset
  try dsimp only
  with_reducible repeat' first
    | assumption | intro _ | apply State.wr_keeps | apply State.portReset_keeps | apply State.setFld_keeps | apply State.resetWays_keeps
    | apply State.clrFlag_keeps | apply kFoldl | (refine kUpd ?_; apply State.setFld_keeps) | apply State.filter_keeps

theorem State.laneMode_keeps {z0 : State} (s : State) (h_s : z0.Keeps s) :
    z0.Keeps (State.laneMode s) := by
  unfold State.laneMode
  try dsimp only
  with_reducible repeat' first | assumption | apply State.setFld_keeps

theorem State.islandReset_keeps {z0 : State} (s : State) (h_s : z0.Keeps s) :
    z0.Keeps (State.islandReset s) := by
  unfold State.islandReset
  try dsimp only
  with_reducible repeat' first
    | assumption | apply State.wr_keeps | apply State.setFlag_keeps | apply State.setFld_keeps | apply State.filter_keeps

theorem State.takeHoldup_keeps {z0 : State} (s : State) (t : HoldTest) (h_s : z0.Keeps s) :
    z0.Keeps (State.takeHoldup s t) := by
  unfold State.takeHoldup
  try dsimp only
  with_reducible repeat' first | apply State.raise_keeps | apply kIte | (refine kUpd ?_; assumption)

theorem State.setCeiling_keeps {z0 : State} (s : State) (h_s : z0.Keeps s) :
    z0.Keeps (State.setCeiling s) := by
  unfold State.setCeiling
  try dsimp only
  with_reducible repeat' first | assumption | apply State.wr_keeps | apply State.raise_keeps | apply kIte

theorem State.recordItems_keeps {z0 : State} (s : State) (l : List (Nat × Nat)) (h_s : z0.Keeps s) :
    z0.Keeps (State.recordItems s l) := by
  unfold State.recordItems
  try dsimp only
  with_reducible repeat' first | assumption | intro _ | apply State.raise_keeps | apply kIte | apply kFoldl | (refine kUpd ?_; assumption)

theorem State.testWays_keeps {z0 : State} (s : State) (t : SelfTest) (h_s : z0.Keeps s) :
    z0.Keeps (State.testWays s t) := by
  unfold State.testWays
  try dsimp only
  with_reducible repeat' first | assumption | intro _ | apply State.disableWay_keeps | apply kIte | apply kFoldl

theorem State.testDram_keeps {z0 : State} (s : State) (t : SelfTest) (h_s : z0.Keeps s) :
    z0.Keeps (State.testDram s t) := by
  unfold State.testDram
  try dsimp only
  with_reducible repeat' first
    | assumption | intro _ | apply State.putFlag_keeps | apply State.setFld_keeps | apply State.setFlag_keeps | apply State.raise_keeps
    | apply kIte | apply kFoldl

theorem State.testDie_keeps {z0 : State} (s : State) (t : SelfTest) (d : Nat) (h_s : z0.Keeps s) :
    z0.Keeps (State.testDie s t d) := by
  unfold State.testDie
  try dsimp only
  with_reducible repeat' first | assumption | apply State.dieFail_keeps | apply State.putDie_keeps | apply State.raise_keeps | apply kIte

theorem State.testStacks_keeps {z0 : State} (s : State) (t : SelfTest) (h_s : z0.Keeps s) :
    z0.Keeps (State.testStacks s t) := by
  unfold State.testStacks
  try dsimp only
  with_reducible repeat' first
    | assumption | intro _ | apply State.setFlag_keeps | apply State.putDie_keeps | apply State.testDie_keeps | apply kIte | apply kFoldl
    | (refine kUpd ?_; apply State.setFlag_keeps)

theorem State.testTables_keeps {z0 : State} (s : State) (t : SelfTest) (h_s : z0.Keeps s) :
    z0.Keeps (State.testTables s t) := by
  unfold State.testTables
  try dsimp only
  with_reducible repeat' first | assumption | intro _ | apply State.poisonLine_keeps | apply State.raise_keeps | apply kFoldl

theorem State.testKeys_keeps {z0 : State} (s : State) (t : SelfTest) (h_s : z0.Keeps s) :
    z0.Keeps (State.testKeys s t) := by
  unfold State.testKeys
  try dsimp only
  with_reducible repeat' first | assumption | intro _ | apply State.putKey_keeps | apply kFoldl

theorem State.replayNow_keeps {z0 : State} (s : State) (t : SelfTest) (h_s : z0.Keeps s) :
    z0.Keeps (State.replayNow s t) := by
  unfold State.replayNow
  try dsimp only
  repeat' first
    | (with_reducible first
       | assumption | intro _ | apply State.alarmBare_keeps | apply State.tagFail_keeps | apply State.replaySave_keeps | apply kFoldl)
    | split

theorem State.takeTest_keeps {z0 : State} (s : State) (t : SelfTest) (lossOk : Bool) (h_s : z0.Keeps s) :
    z0.Keeps (State.takeTest s t lossOk) := by
  unfold State.takeTest
  try dsimp only
  with_reducible repeat' first
    | assumption | intro _ | apply State.testWays_keeps | apply State.testDram_keeps | apply State.testStacks_keeps
    | apply State.count_keeps | apply State.raise_keeps | apply State.failTile_keeps | apply State.testKeys_keeps
    | apply State.recordItems_keeps | apply State.setCeiling_keeps | apply State.govOpen_keeps | apply State.testTables_keeps
    | apply State.replayNow_keeps | apply State.refitAll_keeps | apply kIte | apply kFoldl

theorem State.armAll_keeps {z0 : State} (s : State) (h_s : z0.Keeps s) :
    z0.Keeps (State.armAll s) := by
  unfold State.armAll
  try dsimp only
  with_reducible repeat' first | assumption | intro _ | apply State.arm_keeps | apply State.govDayStart_keeps | apply kIte | apply kFoldl

theorem State.startPorts_keeps {z0 : State} (s : State) (h_s : z0.Keeps s) :
    z0.Keeps (State.startPorts s) := by
  unfold State.startPorts
  try dsimp only
  with_reducible repeat' first
    | assumption | intro _ | apply State.setFlag_keeps | apply State.startTraining_keeps | apply State.wr_keeps | apply kIte
    | apply kFoldl

theorem State.startLace_keeps {z0 : State} (s : State) (h_s : z0.Keeps s) :
    z0.Keeps (State.startLace s) := by
  unfold State.startLace
  try dsimp only
  with_reducible repeat' first | assumption | apply State.lceCfgEffect_keeps | apply kIte | (refine kUpd ?_; apply State.lceCfgEffect_keeps)

theorem State.enterService_keeps {z0 : State} (s : State) (h_s : z0.Keeps s) :
    z0.Keeps (State.enterService s) := by
  unfold State.enterService
  try dsimp only
  with_reducible repeat' first
    | assumption | apply State.setFlag_keeps | apply State.clearPanels_keeps | apply State.armAll_keeps | apply State.setFld_keeps
    | apply State.toEconomy_keeps | apply State.startLoads_keeps | apply State.refreshStale_keeps | apply kIte
    | (refine kUpd ?_; apply State.draw256_keeps)

theorem State.enterHeld_keeps {z0 : State} (s : State) (why : Nat) (h_s : z0.Keeps s) :
    z0.Keeps (State.enterHeld s why) := by
  unfold State.enterHeld
  try dsimp only
  with_reducible repeat' first | apply State.raise_keeps | (refine kUpd ?_; assumption)

/-! ### Machine/Sequence.lean -/

theorem State.setEn_keeps {z0 : State} (s : State) (k : Nat) (on : Bool) (h_s : z0.Keeps s) :
    z0.Keeps (State.setEn s k on) := by
  unfold State.setEn
  try dsimp only
  with_reducible repeat' first | assumption | apply State.setFlag_keeps | apply State.clrFlag_keeps | apply kIte

theorem State.railsUp_keeps {z0 : State} (s : State) (n : Nat) (h_s : z0.Keeps s) :
    z0.Keeps (State.railsUp s n) := by
  unfold State.railsUp
  try dsimp only
  with_reducible repeat' first | assumption | intro _ | apply State.setEn_keeps | apply State.setFlag_keeps | (refine kUpd ?_; apply kFoldl)

theorem State.lowerRail_keeps {z0 : State} (s : State) (h_s : z0.Keeps s) :
    z0.Keeps (State.lowerRail s) := by
  unfold State.lowerRail
  try dsimp only
  repeat' first | (with_reducible first | assumption | (refine kUpd ?_; apply State.setEn_keeps)) | split

theorem State.railsFall_keeps {z0 : State} (s : State) (h_s : z0.Keeps s) :
    z0.Keeps (State.railsFall s) := by
  unfold State.railsFall
  try dsimp only
  with_reducible repeat' first
    | apply State.setFlag_keeps | apply State.clrFlag_keeps | apply State.lowerRail_keeps | (refine kUpd ?_; assumption)

theorem State.enterOff_keeps {z0 : State} (s : State) (h_s : z0.Keeps s) :
    z0.Keeps (State.enterOff s) := by
  unfold State.enterOff
  try dsimp only
  with_reducible repeat' first
    | assumption | intro _ | apply State.commitAll_keeps | apply State.recordHeld_keeps | apply State.clearCut_keeps | apply State.wr_keeps
    | apply State.setFlag_keeps | apply State.clrFlag_keeps | apply State.setEn_keeps | apply State.loseVolatile_keeps
    | apply State.fromTable_keeps | apply kIte | apply kFoldl | (refine kUpd ?_; first | apply State.coolAll_keeps | assumption)

theorem State.enterOn_keeps {z0 : State} (s : State) (h_s : z0.Keeps s) :
    z0.Keeps (State.enterOn s) := by
  unfold State.enterOn
  try dsimp only
  repeat' first
    | (with_reducible first
       | assumption | intro _ | apply State.setFld_keeps | apply State.count_keeps | apply State.clrFlag_keeps | apply State.raise_keeps
       | apply kFoldl | (refine kUpd ?_; apply State.setFld_keeps))
    | split

theorem State.enterAux_keeps {z0 : State} (s : State) (h_s : z0.Keeps s) :
    z0.Keeps (State.enterAux s) := by
  unfold State.enterAux
  try dsimp only
  with_reducible repeat' first | assumption | apply State.wr_keeps | apply State.arm_keeps

theorem State.startStage_keeps {z0 : State} (s : State) (h_s : z0.Keeps s) :
    z0.Keeps (State.startStage s) := by
  unfold State.startStage
  try dsimp only
  with_reducible repeat' first | assumption | apply State.raise_keeps | apply kIte | (refine kUpd ?_; assumption)

theorem State.enterSelfTest_keeps {z0 : State} (s0 : State) (h_s0 : z0.Keeps s0) :
    z0.Keeps (State.enterSelfTest s0) := by
  unfold State.enterSelfTest
  try dsimp only
  with_reducible repeat' first | assumption | apply State.recordItems_keeps | (refine kUpd ?_; apply State.startStage_keeps)

theorem State.bootOk_keeps {z0 : State} (s : State) (h_s : z0.Keeps s) :
    z0.Keeps (State.bootOk s) := by
  unfold State.bootOk
  try dsimp only
  with_reducible repeat' first | (refine kUpd ?_; assumption)

theorem State.recoverKeep_keeps {z0 : State} (s : State) (h_s : z0.Keeps s) :
    z0.Keeps (State.recoverKeep s) := by
  unfold State.recoverKeep
  try dsimp only
  repeat' first
    | (with_reducible first | assumption | intro _ | apply State.jAlways_keeps | apply State.count_keeps | apply kIte | apply kFoldl)
    | split

theorem State.firmwareUp_keeps {z0 : State} (s : State) (h_s : z0.Keeps s) :
    z0.Keeps (State.firmwareUp s) := by
  unfold State.firmwareUp
  try dsimp only
  with_reducible repeat' first
    | assumption | apply State.bobStart_keeps | apply State.bobEnter_keeps | apply State.setFlag_keeps | apply State.recoverKeep_keeps

theorem State.enterReady_keeps {z0 : State} (s0 : State) (h_s0 : z0.Keeps s0) :
    z0.Keeps (State.enterReady s0) := by
  unfold State.enterReady
  try dsimp only
  with_reducible repeat' first
    | assumption | apply State.setFld_keeps | apply State.enterHeld_keeps | apply State.startPorts_keeps | apply State.startLace_keeps
    | apply State.bootOk_keeps | apply State.enterService_keeps | apply State.lockDirectory_keeps | apply kIte

theorem State.enterQuiesce_keeps {z0 : State} (s : State) (h_s : z0.Keeps s) :
    z0.Keeps (State.enterQuiesce s) := by
  unfold State.enterQuiesce
  try dsimp only
  with_reducible repeat' first | apply kIte | (refine kUpd ?_; first | assumption | apply State.clrFlag_keeps)

theorem State.quiesced_keeps {z0 : State} (s : State) (h_s : z0.Keeps s) :
    z0.Keeps (State.quiesced s) := by
  unfold State.quiesced
  try dsimp only
  with_reducible repeat' first | assumption | apply State.resetAll_keeps | apply State.sendLeave_keeps

theorem State.pathOff_keeps {z0 : State} (s : State) (h_s : z0.Keeps s) :
    z0.Keeps (State.pathOff s) := by
  unfold State.pathOff
  try dsimp only
  with_reducible repeat' first
    | assumption | intro _ | apply State.clrFlag_keeps | apply State.setFld_keeps | apply kFoldl
    | (refine kUpd ?_; apply State.clrFlag_keeps)

theorem State.enterSave_keeps {z0 : State} (s : State) (h_s : z0.Keeps s) :
    z0.Keeps (State.enterSave s) := by
  unfold State.enterSave
  try dsimp only
  with_reducible repeat' first | assumption | apply State.clrFlag_keeps | apply State.pathOff_keeps

theorem State.timeSlotNow_keeps {z0 : State} (s : State) (h_s : z0.Keeps s) :
    z0.Keeps (State.timeSlotNow s) := by
  unfold State.timeSlotNow
  try dsimp only
  with_reducible repeat' first | apply State.count_keeps | (refine kUpd ?_; assumption)

theorem State.exitClean_keeps {z0 : State} (s : State) (h_s : z0.Keeps s) :
    z0.Keeps (State.exitClean s) := by
  unfold State.exitClean
  try dsimp only
  with_reducible repeat' first | assumption | apply State.saveHoopTime_keeps | apply State.setFld_keeps | apply State.count_keeps

theorem State.saveOrderly_keeps {z0 : State} (s : State) (h_s : z0.Keeps s) :
    z0.Keeps (State.saveOrderly s) := by
  unfold State.saveOrderly
  try dsimp only
  with_reducible repeat' first
    | assumption | apply State.flushAll_keeps | apply State.allClean_keeps | apply State.toTable_keeps | apply State.exitClean_keeps
    | apply State.timeSlotNow_keeps

theorem State.saveForced_keeps {z0 : State} (s : State) (records : Nat) (h_s : z0.Keeps s) :
    z0.Keeps (State.saveForced s records) := by
  unfold State.saveForced
  try dsimp only
  with_reducible repeat' first
    | assumption | apply State.saveDirty_keeps | apply State.exitClean_keeps | apply State.timeSlotNow_keeps | apply kIte

theorem State.enterStep_keeps {z0 : State} (s : State) (n : Nat) (h_s : z0.Keeps s) :
    z0.Keeps (State.enterStep s n) := by
  unfold State.enterStep
  try dsimp only
  repeat' first
    | (with_reducible first
       | apply State.setFld_keeps | apply State.enterOff_keeps | apply State.enterOn_keeps | apply State.enterAux_keeps
       | apply State.setEn_keeps | apply State.laneMode_keeps | apply State.coldReset_keeps | apply State.enterSelfTest_keeps
       | apply State.enterReady_keeps | apply State.enterQuiesce_keeps | apply State.enterSave_keeps | apply State.railsFall_keeps
       | (refine kUpd ?_; assumption))
    | split

theorem State.startSave_keeps {z0 : State} (s : State) (h_s : z0.Keeps s) :
    z0.Keeps (State.startSave s) := by
  unfold State.startSave
  try dsimp only
  with_reducible repeat' first
    | assumption | intro _ | apply State.sendLeave_keeps | apply State.clrFlag_keeps | apply State.pathOff_keeps
    | apply State.setFlag_keeps | (refine kUpd ?_; apply kFoldl)

theorem State.localSequence_keeps {z0 : State} (s : State) (cause : Nat) (h_s : z0.Keeps s) :
    z0.Keeps (State.localSequence s cause) := by
  unfold State.localSequence
  try dsimp only
  with_reducible repeat' first
    | apply State.setFlag_keeps | apply State.clrFlag_keeps | apply State.enterStep_keeps | apply State.railsFall_keeps
    | apply State.startSave_keeps | apply kIte | (refine kUpd ?_; first | assumption | apply State.clrFlag_keeps)

theorem State.saveDone_keeps {z0 : State} (s : State) (records : Nat) (h_s : z0.Keeps s) :
    z0.Keeps (State.saveDone s records) := by
  unfold State.saveDone
  try dsimp only
  with_reducible repeat' first
    | assumption | intro _ | apply State.saveForced_keeps | apply State.count_keeps | apply State.raise_keeps | apply State.clrFlag_keeps
    | apply State.setFld_keeps | apply State.railsFall_keeps | (refine kUpd ?_; apply kFoldl)

theorem State.stopAfter_keeps {z0 : State} (s : State) (cause : Nat) (h_s : z0.Keeps s) :
    z0.Keeps (State.stopAfter s cause) := by
  unfold State.stopAfter
  try dsimp only
  with_reducible repeat' first | assumption | apply State.localSequence_keeps | apply kIte | (refine kUpd ?_; assumption)

theorem State.askOn_keeps {z0 : State} (s : State) (h_s : z0.Keeps s) :
    z0.Keeps (State.askOn s) := by
  unfold State.askOn
  try dsimp only
  with_reducible repeat' first | assumption | apply kIte | (refine kUpd ?_; assumption)

theorem State.askOff_keeps {z0 : State} (s : State) (cause : Nat) (h_s : z0.Keeps s) :
    z0.Keeps (State.askOff s cause) := by
  unfold State.askOff
  try dsimp only
  with_reducible repeat' first
    | assumption | apply State.count_keeps | apply State.raise_keeps | apply State.stopAfter_keeps | apply kIte
    | (refine kUpd ?_; apply kIte)

theorem execPbRelease_keeps {z0 : State} (held : Nat) (s : State) (h_s : z0.Keeps s) :
    State.Keeps.Ans z0 (execPbRelease held s) := by
  unfold execPbRelease
  try dsimp only
  with_reducible repeat' first
    | assumption | apply State.askOn_keeps | apply State.askOff_keeps | apply State.count_keeps | apply ansNext | apply kIte

theorem execPbForcedOff_keeps {z0 : State} (s : State) (h_s : z0.Keeps s) :
    State.Keeps.Ans z0 (execPbForcedOff s) := by
  unfold execPbForcedOff
  try dsimp only
  with_reducible repeat' first | assumption | apply State.askOff_keeps | apply ansNext | apply kIte

theorem execMrst_keeps {z0 : State} (s : State) (h_s : z0.Keeps s) :
    State.Keeps.Ans z0 (execMrst s) := by
  unfold execMrst
  try dsimp only
  with_reducible repeat' first
    | assumption | apply State.askOff_keeps | apply ansNext | apply kIte
    | (refine kUpd ?_; first | assumption | apply State.islandReset_keeps)

theorem execHoldSave_keeps {z0 : State} (s : State) (h_s : z0.Keeps s) :
    State.Keeps.Ans z0 (execHoldSave s) := by
  unfold execHoldSave
  try dsimp only
  with_reducible repeat' first
    | assumption | apply State.setFlag_keeps | apply State.closeKeep_keeps | apply State.stopAfter_keeps | apply State.localSequence_keeps
    | apply ansNext | apply kIte

theorem execHoldRise_keeps {z0 : State} (s : State) (h_s : z0.Keeps s) :
    State.Keeps.Ans z0 (execHoldRise s) := by
  unfold execHoldRise
  try dsimp only
  with_reducible repeat' first | assumption | apply State.clrFlag_keeps | apply ansNext | apply kIte

theorem execQuiesceGraceExpire_keeps {z0 : State} (s : State) (h_s : z0.Keeps s) :
    State.Keeps.Ans z0 (execQuiesceGraceExpire s) := by
  unfold execQuiesceGraceExpire
  try dsimp only
  repeat' first | (with_reducible first | assumption | apply ansNext | apply kIte | (refine kUpd ?_; assumption)) | split

theorem execAutoRestart_keeps {z0 : State} (s : State) (h_s : z0.Keeps s) :
    State.Keeps.Ans z0 (execAutoRestart s) := by
  unfold execAutoRestart
  try dsimp only
  repeat' first
    | (with_reducible first
       | assumption | apply State.raise_keeps | apply State.count_keeps | apply State.askOn_keeps | apply ansNext | apply kIte
       | (refine kUpd ?_; assumption))
    | split

theorem State.workDone_keeps {z0 : State} (s : State) (h_s : z0.Keeps s) :
    z0.Keeps (State.workDone s) := by
  unfold State.workDone
  try dsimp only
  repeat' first | (with_reducible first | assumption | apply State.localSequence_keeps | (refine kUpd ?_; assumption)) | split

theorem execStepWorkDone_keeps {z0 : State} (out : StepOut) (s : State) (h_s : z0.Keeps s) :
    State.Keeps.Ans z0 (execStepWorkDone out s) := by
  unfold execStepWorkDone
  try dsimp only
  repeat' first
    | (with_reducible first
       | assumption | apply State.saveDone_keeps | apply State.workDone_keeps | apply State.wr_keeps | apply State.takeSweep_keeps
       | apply State.raise_keeps | apply State.count_keeps | apply State.localSequence_keeps | apply State.takeTest_keeps
       | apply State.firmwareUp_keeps | apply State.quiesced_keeps | apply State.saveOrderly_keeps | apply State.saveForced_keeps
       | apply State.railsUp_keeps | apply ansNext | apply kIte | (refine kUpd ?_; assumption))
    | split

theorem execSeqAdvance_keeps {z0 : State} (s : State) (h_s : z0.Keeps s) :
    State.Keeps.Ans z0 (execSeqAdvance s) := by
  unfold execSeqAdvance
  try dsimp only
  with_reducible repeat' first | assumption | apply State.enterStep_keeps | apply ansNext | apply kIte

theorem execStepTimeout_keeps {z0 : State} (s : State) (h_s : z0.Keeps s) :
    State.Keeps.Ans z0 (execStepTimeout s) := by
  unfold execStepTimeout
  try dsimp only
  repeat' first
    | (with_reducible first
       | assumption | apply State.raise_keeps | apply State.count_keeps | apply State.localSequence_keeps | apply ansNext | apply kIte)
    | split

theorem execSeqRestLeave_keeps {z0 : State} (s : State) (h_s : z0.Keeps s) :
    State.Keeps.Ans z0 (execSeqRestLeave s) := by
  unfold execSeqRestLeave
  try dsimp only
  with_reducible repeat' first | assumption | apply State.enterStep_keeps | apply ansNext | apply kIte | (refine kUpd ?_; assumption)

theorem execOffTimeEnd_keeps {z0 : State} (s : State) (h_s : z0.Keeps s) :
    State.Keeps.Ans z0 (execOffTimeEnd s) := by
  unfold execOffTimeEnd
  try dsimp only
  repeat' first | (with_reducible first | assumption | apply ansNext | apply kIte | (refine kUpd ?_; assumption)) | split

theorem execRailDownNext_keeps {z0 : State} (s : State) (h_s : z0.Keeps s) :
    State.Keeps.Ans z0 (execRailDownNext s) := by
  unfold execRailDownNext
  try dsimp only
  repeat' first
    | (with_reducible first | assumption | apply State.enterStep_keeps | apply State.lowerRail_keeps | apply ansNext | apply kIte)
    | split

theorem execRailFault_keeps {z0 : State} (rail : Nat) (s : State) (h_s : z0.Keeps s) :
    State.Keeps.Ans z0 (execRailFault rail s) := by
  unfold execRailFault
  try dsimp only
  with_reducible repeat' first
    | assumption | apply State.setFlag_keeps | apply State.raise_keeps | apply State.count_keeps | apply State.wr_keeps
    | apply State.localSequence_keeps | apply ansWithin | apply kIte

theorem execVstbyLoss_keeps {z0 : State} (saved : Nat) (s : State) (h_s : z0.Keeps s) :
    State.Keeps.Ans z0 (execVstbyLoss saved s) := by
  unfold execVstbyLoss
  try dsimp only
  with_reducible repeat' first
    | assumption | apply State.loseWork_keeps | apply State.loseVolatile_keeps | apply State.fromTable_keeps | apply State.coolAll_keeps
    | apply State.saveDirty_keeps | apply ansNext | apply kIte | (refine kUpd ?_; first | apply State.saveDirty_keeps | apply kIte)

theorem State.porReset_keeps {z0 : State} (s : State) (h_s : z0.Keeps s) :
    z0.Keeps (State.porReset s) := by
  unfold State.porReset
  try dsimp only
  with_reducible repeat' first
    | assumption | apply State.wr_keeps | apply State.setFlag_keeps | apply State.setFld_keeps | apply State.clrFlag_keeps
    | apply State.filter_keeps

theorem execVstbyOn_keeps {z0 : State} (s : State) (h_s : z0.Keeps s) :
    State.Keeps.Ans z0 (execVstbyOn s) := by
  unfold execVstbyOn
  try dsimp only
  with_reducible repeat' first | assumption | apply ansNext | apply kIte | (refine kUpd ?_; apply State.porReset_keeps)

/-! ### Machine/Thermal.lean -/

theorem State.thermalRecord_keeps {z0 : State} (s : State) (point : Nat) (cause : Nat) (h_s : z0.Keeps s) :
    z0.Keeps (State.thermalRecord s point cause) := by
  unfold State.thermalRecord
  try dsimp only
  with_reducible repeat' first | assumption | apply kIte | (refine kUpd ?_; apply State.wr_keeps)

theorem State.thermalStop_keeps {z0 : State} (s : State) (point : Nat) (cause : Nat) (h_s : z0.Keeps s) :
    z0.Keeps (State.thermalStop s point cause) := by
  unfold State.thermalStop
  try dsimp only
  with_reducible repeat' first | assumption | apply State.localSequence_keeps | apply kIte | (refine kUpd ?_; apply State.thermalRecord_keeps)

theorem State.shutdownCheck_keeps {z0 : State} (s : State) (h_s : z0.Keeps s) :
    z0.Keeps (State.shutdownCheck s) := by
  unfold State.shutdownCheck
  try dsimp only
  repeat' first | (with_reducible first | assumption | apply State.thermalStop_keeps | apply kIte) | split

theorem execThermalModelUpdate_keeps {z0 : State} (model : List Int) (s : State) (h_s : z0.Keeps s) :
    State.Keeps.Ans z0 (execThermalModelUpdate model s) := by
  unfold execThermalModelUpdate
  try dsimp only
  with_reducible repeat' first
    | assumption | intro _ | apply State.periodic_keeps | apply State.takeModel_keeps | apply State.shutdownCheck_keeps | apply ansNext

theorem execSweepDone_keeps {z0 : State} (readings : List Int) (s : State) (h_s : z0.Keeps s) :
    State.Keeps.Ans z0 (execSweepDone readings s) := by
  unfold execSweepDone
  try dsimp only
  with_reducible repeat' first
    | assumption | apply State.takeSweep_keeps | apply State.sweepEnd_keeps | apply State.shutdownCheck_keeps | apply ansNext | apply kIte

theorem execHoldupTestEnd_keeps {z0 : State} (test : HoldTest) (s : State) (h_s : z0.Keeps s) :
    State.Keeps.Ans z0 (execHoldupTestEnd test s) := by
  unfold execHoldupTestEnd
  try dsimp only
  with_reducible repeat' first | assumption | apply State.takeHoldup_keeps | apply ansNext | apply kIte

theorem execPowerStatus_keeps {z0 : State} (m : Nat) (s : State) (h_s : z0.Keeps s) :
    State.Keeps.Ans z0 (execPowerStatus m s) := by
  unfold execPowerStatus
  try dsimp only
  repeat' first | (with_reducible first | assumption | intro _ | apply State.command_keeps | apply endDone) | (unfold queryCmd; dsimp only)

theorem execThermalStatus_keeps {z0 : State} (m : Nat) (s : State) (h_s : z0.Keeps s) :
    State.Keeps.Ans z0 (execThermalStatus m s) := by
  unfold execThermalStatus
  try dsimp only
  repeat' first | (with_reducible first | assumption | intro _ | apply State.command_keeps | apply endDone) | (unfold queryCmd; dsimp only)

theorem execHoldupStatus_keeps {z0 : State} (m : Nat) (s : State) (h_s : z0.Keeps s) :
    State.Keeps.Ans z0 (execHoldupStatus m s) := by
  unfold execHoldupStatus
  try dsimp only
  repeat' first | (with_reducible first | assumption | intro _ | apply State.command_keeps | apply endDone) | (unfold queryCmd; dsimp only)

theorem State.choice_keeps {z0 : State} (s : State) (m k : Nat) (c : Command) (h_s : z0.Keeps s)
    (he : ∀ (t u : State) (r : Req), z0.Keeps u → c.check t r = none → u.kept.adminKeys = t.kept.adminKeys → State.Keeps.End z0 (c.eff u r))
    (hr : ∀ (t : State) (r : Req) (st : Status), z0.Keeps t → z0.Keeps (c.refused t r st)) : State.Keeps.Ans z0 (s.choice m k c) := by
  unfold State.choice
  split
  · exact State.Keeps.ansNext h_s
  · exact State.command_keeps s m c h_s he hr

theorem execPowerModeSetFull_keeps {z0 : State} (m : Nat) (s : State) (h_s : z0.Keeps s) :
    State.Keeps.Ans z0 (execPowerModeSetFull m s) := by
  unfold execPowerModeSetFull
  try dsimp only
  repeat' first
    | (with_reducible first | assumption | intro _ | apply State.choice_keeps | apply State.writeWord_keeps | apply endDone)
    | split
    | (unfold powerModeCmd; dsimp only)

theorem execPowerModeSetEconomy_keeps {z0 : State} (m : Nat) (s : State) (h_s : z0.Keeps s) :
    State.Keeps.Ans z0 (execPowerModeSetEconomy m s) := by
  unfold execPowerModeSetEconomy
  try dsimp only
  repeat' first
    | (with_reducible first | assumption | intro _ | apply State.choice_keeps | apply State.writeWord_keeps | apply endDone)
    | split
    | (unfold powerModeCmd; dsimp only)

theorem execPowerModeSetIdle_keeps {z0 : State} (m : Nat) (s : State) (h_s : z0.Keeps s) :
    State.Keeps.Ans z0 (execPowerModeSetIdle m s) := by
  unfold execPowerModeSetIdle
  try dsimp only
  repeat' first
    | (with_reducible first | assumption | intro _ | apply State.choice_keeps | apply State.writeWord_keeps | apply endDone)
    | split
    | (unfold powerModeCmd; dsimp only)

theorem execPowerCapSet_keeps {z0 : State} (m : Nat) (s : State) (h_s : z0.Keeps s) :
    State.Keeps.Ans z0 (execPowerCapSet m s) := by
  unfold execPowerCapSet
  try dsimp only
  with_reducible repeat' first | assumption | intro _ | apply State.command_keeps | apply State.setFld_keeps | apply endDone

theorem execShutdownOrderly_keeps {z0 : State} (m : Nat) (s : State) (h_s : z0.Keeps s) :
    State.Keeps.Ans z0 (execShutdownOrderly m s) := by
  unfold execShutdownOrderly
  try dsimp only
  repeat' first
    | (with_reducible first
       | assumption | intro _ | apply State.choice_keeps | apply State.askOff_keeps | apply endDone | (refine kUpd ?_; assumption))
    | split
    | (unfold shutdownCmd; dsimp only)

theorem execShutdownForced_keeps {z0 : State} (m : Nat) (s : State) (h_s : z0.Keeps s) :
    State.Keeps.Ans z0 (execShutdownForced m s) := by
  unfold execShutdownForced
  try dsimp only
  repeat' first
    | (with_reducible first
       | assumption | intro _ | apply State.choice_keeps | apply State.askOff_keeps | apply endDone | (refine kUpd ?_; assumption))
    | split
    | (unfold shutdownCmd; dsimp only)

theorem execShutdownRestart_keeps {z0 : State} (m : Nat) (s : State) (h_s : z0.Keeps s) :
    State.Keeps.Ans z0 (execShutdownRestart m s) := by
  unfold execShutdownRestart
  try dsimp only
  repeat' first
    | (with_reducible first
       | assumption | intro _ | apply State.choice_keeps | apply State.askOff_keeps | apply endDone | (refine kUpd ?_; assumption))
    | split
    | (unfold shutdownCmd; dsimp only)

theorem execThermalSweep_keeps {z0 : State} (m : Nat) (s : State) (h_s : z0.Keeps s) :
    State.Keeps.Ans z0 (execThermalSweep m s) := by
  unfold execThermalSweep
  try dsimp only
  with_reducible repeat' first | assumption | intro _ | apply State.command_keeps | apply State.requestSweep_keeps | apply endLater

theorem execThrottleSet_keeps {z0 : State} (m : Nat) (s : State) (h_s : z0.Keeps s) :
    State.Keeps.Ans z0 (execThrottleSet m s) := by
  unfold execThrottleSet
  try dsimp only
  repeat' first
    | (with_reducible first | assumption | intro _ | apply State.command_keeps | apply endDone | apply endLater)
    | dsimp only
    | (with_reducible refine kUpd ?_; with_reducible (refine kSnd (by assumption) ?_; with_reducible apply State.writeKeep_keeps))
    | split

/-! ### Machine/Firmware.lean -/

theorem State.fallBack_keeps {z0 : State} (s : State) (cause : Nat) (h_s : z0.Keeps s) :
    z0.Keeps (State.fallBack s cause) := by
  unfold State.fallBack
  try dsimp only
  with_reducible repeat' first | apply State.raise_keeps | (refine kUpd ?_; assumption)

theorem State.runSlot_keeps {z0 : State} (s : State) (k : Nat) (h_s : z0.Keeps s) :
    z0.Keeps (State.runSlot s k) := by
  unfold State.runSlot
  try dsimp only
  with_reducible repeat' first | (refine kUpd ?_; assumption)

theorem State.cutCommand_keeps {z0 : State} (s : State) (m : Nat) (h_s : z0.Keeps s) :
    z0.Keeps (State.cutCommand s m) := by
  unfold State.cutCommand
  try dsimp only
  with_reducible repeat' first | assumption | apply State.clearCut_keeps | apply State.jSecond_keeps | apply State.mbxComplete_keeps | apply kIte

theorem State.firmwareBack_keeps {z0 : State} (s : State) (h_s : z0.Keeps s) :
    z0.Keeps (State.firmwareBack s) := by
  unfold State.firmwareBack
  try dsimp only
  with_reducible repeat' first
    | assumption | intro _ | apply State.bootOk_keeps | apply State.cutCommand_keeps | apply State.refreshStale_keeps | apply kFoldl
    | (refine kUpd ?_; apply State.firmwareUp_keeps)

theorem State.namedSlot_keeps {z0 : State} (s : State) (h_s : z0.Keeps s) :
    z0.Keeps (State.namedSlot s).2 := by
  unfold State.namedSlot
  try dsimp only
  repeat' first
    | (with_reducible first | assumption | apply State.fallBack_keeps | apply iteP)
    | dsimp only
    | (with_reducible refine kUpd ?_; with_reducible assumption)

theorem State.romLoad_keeps {z0 : State} (s : State) (copies : Nat → List Bool) (h_s : z0.Keeps s) :
    z0.Keeps (State.romLoad s copies) := by
  unfold State.romLoad
  try dsimp only
  with_reducible repeat' first
    | assumption | apply State.namedSlot_keeps | apply State.runSlot_keeps | apply State.fallBack_keeps | apply State.raise_keeps
    | apply kIte | (refine kUpd ?_; apply State.namedSlot_keeps)

theorem State.endSwap_keeps {z0 : State} (s : State) (x : Swap) (st : Status) (h_s : z0.Keeps s) :
    z0.Keeps (State.endSwap s x st) := by
  unfold State.endSwap
  try dsimp only
  repeat' first | (with_reducible first | apply State.putBox_keeps | apply State.refreshStale_keeps | (refine kUpd ?_; assumption)) | split

theorem State.swapLoad_keeps {z0 : State} (s : State) (x : Swap) (copies : Nat → List Bool) (alive : Bool) (h_s : z0.Keeps s) :
    z0.Keeps (State.swapLoad s x copies alive) := by
  unfold State.swapLoad
  try dsimp only
  with_reducible repeat' first
    | assumption | apply State.clrFlag_keeps | apply State.bobEnter_keeps | apply State.fallBack_keeps | apply State.romLoad_keeps
    | apply State.bootOk_keeps | apply State.setFlag_keeps | apply State.endSwap_keeps | apply kIte
    | (refine kUpd ?_; apply State.romLoad_keeps)

theorem execBootLoad_keeps {z0 : State} (copiesA : List Bool) (copiesB : List Bool) (alive : Bool) (s : State) (h_s : z0.Keeps s) :
    State.Keeps.Ans z0 (execBootLoad copiesA copiesB alive s) := by
  unfold execBootLoad
  try dsimp only
  repeat' first
    | (with_reducible first
       | assumption | apply State.swapLoad_keeps | apply State.romLoad_keeps | apply State.recordItems_keeps | apply State.enterHeld_keeps
       | apply State.clrFlag_keeps | apply State.firmwareBack_keeps | apply ansNext | apply kIte | (refine kUpd ?_; apply kIte))
    | split

theorem execHkpRestart_keeps {z0 : State} (cause : Nat) (s : State) (h_s : z0.Keeps s) :
    State.Keeps.Ans z0 (execHkpRestart cause s) := by
  unfold execHkpRestart
  try dsimp only
  with_reducible repeat' first | assumption | apply State.raise_keeps | apply State.hkpDown_keeps | apply ansNext | apply kIte

theorem execLiveSwapBusyTimeout_keeps {z0 : State} (s : State) (h_s : z0.Keeps s) :
    State.Keeps.Ans z0 (execLiveSwapBusyTimeout s) := by
  unfold execLiveSwapBusyTimeout
  try dsimp only
  repeat' first | (with_reducible first | assumption | apply State.endSwap_keeps | apply ansNext | apply kIte) | split

theorem execBootOkTimeout_keeps {z0 : State} (s : State) (h_s : z0.Keeps s) :
    State.Keeps.Ans z0 (execBootOkTimeout s) := by
  unfold execBootOkTimeout
  try dsimp only
  repeat' first
    | (with_reducible first
       | assumption | apply State.fallBack_keeps | apply State.runSlot_keeps | apply State.bobEnter_keeps | apply State.setFlag_keeps
       | apply State.endSwap_keeps | apply ansNext | apply kIte)
    | split

theorem State.startSwap_keeps {z0 : State} (s : State) (m : Option Nat) (back : Nat) (h_s : z0.Keeps s) :
    z0.Keeps (State.startSwap s m back) := by
  unfold State.startSwap
  try dsimp only
  with_reducible repeat' first | (refine kUpd ?_; assumption)

theorem execConfirmTimeout_keeps {z0 : State} (s : State) (h_s : z0.Keeps s) :
    State.Keeps.Ans z0 (execConfirmTimeout s) := by
  unfold execConfirmTimeout
  try dsimp only
  repeat' first | (with_reducible first | assumption | apply State.startSwap_keeps | apply ansNext | apply kIte) | split

theorem State.sealPending_keeps {z0 : State} (s : State) (mode : Nat) (h_s : z0.Keeps s) :
    z0.Keeps (State.sealPending s mode) := by
  unfold State.sealPending
  try dsimp only
  with_reducible repeat' first | apply State.raise_keeps | (refine kUpd ?_; assumption)

theorem execMbxCommandDone_keeps {z0 : State} (m : Nat) (s0 : State) (h_s0 : z0.Keeps s0) :
    State.Keeps.Ans z0 (execMbxCommandDone m s0) := by
  unfold execMbxCommandDone
  try dsimp only
  with_reducible repeat' first
    | assumption | apply State.clearPanels_keeps | apply State.sealPending_keeps | apply State.startSwap_keeps
    | apply State.mbxComplete_keeps | apply State.askOff_keeps | apply State.clearEnd_keeps | apply ansWithin | apply kIte
    | (refine kUpd ?_; first | apply State.mbxComplete_keeps | apply kIte)

theorem execFwStatus_keeps {z0 : State} (m : Nat) (s : State) (h_s : z0.Keeps s) :
    State.Keeps.Ans z0 (execFwStatus m s) := by
  unfold execFwStatus
  try dsimp only
  repeat' first | (with_reducible first | assumption | intro _ | apply State.command_keeps | apply endDone) | (unfold queryCmd; dsimp only)

theorem execFwDownload_keeps {z0 : State} (m : Nat) (s : State) (h_s : z0.Keeps s) :
    State.Keeps.Ans z0 (execFwDownload m s) := by
  unfold execFwDownload
  try dsimp only
  with_reducible repeat' first | assumption | intro _ | apply State.command_keeps | apply endDone | (refine kUpd ?_; assumption)

theorem execFwVerify_keeps {z0 : State} (m : Nat) (s : State) (h_s : z0.Keeps s) :
    State.Keeps.Ans z0 (execFwVerify m s) := by
  unfold execFwVerify
  try dsimp only
  with_reducible repeat' first | assumption | intro _ | apply State.command_keeps | apply endLater | (refine kUpd ?_; assumption)

theorem execFwActivateLive_keeps {z0 : State} (m : Nat) (s : State) (h_s : z0.Keeps s) :
    State.Keeps.Ans z0 (execFwActivateLive m s) := by
  unfold execFwActivateLive
  try dsimp only
  repeat' first
    | (with_reducible first | assumption | intro _ | apply State.choice_keeps | apply endLater | (refine kUpd ?_; assumption))
    | (unfold activateCmd; dsimp only)

theorem execFwActivateRestart_keeps {z0 : State} (m : Nat) (s : State) (h_s : z0.Keeps s) :
    State.Keeps.Ans z0 (execFwActivateRestart m s) := by
  unfold execFwActivateRestart
  try dsimp only
  repeat' first
    | (with_reducible first | assumption | intro _ | apply State.choice_keeps | apply endLater | (refine kUpd ?_; assumption))
    | (unfold activateCmd; dsimp only)

theorem execFwActivateNextStart_keeps {z0 : State} (m : Nat) (s : State) (h_s : z0.Keeps s) :
    State.Keeps.Ans z0 (execFwActivateNextStart m s) := by
  unfold execFwActivateNextStart
  try dsimp only
  repeat' first
    | (with_reducible first | assumption | intro _ | apply State.choice_keeps | apply endLater | (refine kUpd ?_; assumption))
    | (unfold activateCmd; dsimp only)

theorem execFwConfirm_keeps {z0 : State} (m : Nat) (s : State) (h_s : z0.Keeps s) :
    State.Keeps.Ans z0 (execFwConfirm m s) := by
  unfold execFwConfirm
  try dsimp only
  with_reducible repeat' first
    | assumption | intro _ | apply State.command_keeps | apply State.raise_keeps | apply endDone | (refine kUpd ?_; assumption)

theorem execFwDiscard_keeps {z0 : State} (m : Nat) (s : State) (h_s : z0.Keeps s) :
    State.Keeps.Ans z0 (execFwDiscard m s) := by
  unfold execFwDiscard
  try dsimp only
  with_reducible repeat' first
    | assumption | intro _ | apply State.command_keeps | apply State.startSwap_keeps | apply endDone | apply endLater | apply endIte
    | (refine kUpd ?_; assumption)

/-! ### Machine/SelfTest.lean -/

theorem execSelftestReport_keeps {z0 : State} (m : Nat) (s : State) (h_s : z0.Keeps s) :
    State.Keeps.Ans z0 (execSelftestReport m s) := by
  unfold execSelftestReport
  try dsimp only
  repeat' first | (with_reducible first | assumption | intro _ | apply State.command_keeps | apply endDone) | (unfold queryCmd; dsimp only)

theorem State.restartDomain_keeps {z0 : State} (s : State) (h_s : z0.Keeps s) :
    z0.Keeps (State.restartDomain s) := by
  unfold State.restartDomain
  try dsimp only
  with_reducible repeat' first | assumption | apply kIte | (refine kUpd ?_; apply State.setFld_keeps)

theorem State.retest_keeps {z0 : State} (s : State) (t : SelfTest) (test : HoldTest) (lossOk : Bool) (h_s : z0.Keeps s) :
    z0.Keeps (State.retest s t test lossOk) := by
  unfold State.retest
  try dsimp only
  with_reducible repeat' first
    | assumption | apply State.takeHoldup_keeps | apply State.takeTest_keeps | apply State.restartDomain_keeps
    | apply State.enterService_keeps | apply State.sendAnnounce_keeps | apply kIte

theorem execRetest_keeps {z0 : State} (m : Nat) (t : SelfTest) (test : HoldTest) (s : State) (h_s : z0.Keeps s) :
    State.Keeps.Ans z0 (execRetest m t test s) := by
  unfold execRetest
  try dsimp only
  with_reducible repeat' first | assumption | intro _ | apply State.command_keeps | apply State.retest_keeps | apply endDone

theorem execDiagRun_keeps {z0 : State} (m : Nat) (s : State) (h_s : z0.Keeps s) :
    State.Keeps.Ans z0 (execDiagRun m s) := by
  unfold execDiagRun
  try dsimp only
  with_reducible repeat' first
    | assumption | intro _ | apply State.command_keeps | apply State.bobEnter_keeps | apply endDone | (refine kUpd ?_; assumption)

theorem execDiagDone_keeps {z0 : State} (ok : Bool) (detail : Nat) (s : State) (h_s : z0.Keeps s) :
    State.Keeps.Ans z0 (execDiagDone ok detail s) := by
  unfold execDiagDone
  try dsimp only
  repeat' first
    | (with_reducible first
       | assumption | apply State.bobEnter_keeps | apply State.raise_keeps | apply ansNext | apply kIte | (refine kUpd ?_; assumption))
    | split

theorem execDiagResult_keeps {z0 : State} (m : Nat) (s : State) (h_s : z0.Keeps s) :
    State.Keeps.Ans z0 (execDiagResult m s) := by
  unfold execDiagResult
  try dsimp only
  repeat' first | (with_reducible first | assumption | intro _ | apply State.command_keeps | apply endDone) | dsimp only | split

/-! ### Machine/Schedule.lean -/

theorem State.runAction_keeps {z0 : State} (s : State) (action : Nat) (h_s : z0.Keeps s) :
    z0.Keeps (State.runAction s action).2 := by
  unfold State.runAction
  try dsimp only
  with_reducible repeat' first
    | assumption | apply State.sealPending_keeps | apply State.startSwap_keeps | apply State.startHandover_keeps | apply iteP

theorem execScheduleRun_keeps {z0 : State} (id : Nat) (s : State) (h_s : z0.Keeps s) :
    State.Keeps.Ans z0 (execScheduleRun id s) := by
  unfold execScheduleRun
  try dsimp only
  repeat' first
    | (with_reducible first
       | assumption | apply State.runAction_keeps | apply State.report_keeps | apply ansNext | apply kIte
       | (refine kUpd ?_; first | assumption | apply State.raise_keeps))
    | split

/-! ### Machine/Clock.lean -/

theorem State.opSecond_keeps {z0 : State} (s : State) (h_s : z0.Keeps s) :
    z0.Keeps (State.opSecond s) := by
  unfold State.opSecond
  try dsimp only
  with_reducible repeat' first | assumption | apply State.setFld_keeps | apply State.saturate_keeps

theorem State.hoopTick_keeps {z0 : State} (s : State) (h_s : z0.Keeps s) :
    z0.Keeps (State.hoopTick s) := by
  unfold State.hoopTick
  try dsimp only
  with_reducible repeat' first | assumption | apply State.wr_keeps | apply kIte

end Sys2Proof.Machine
end

