-- ==== Sys2Proof/Laws/KeepsExec.lean ====
section
/-!
SUPPORT. What every command keeps (Laws/Keeps.lean).
-/
namespace Sys2Proof.Machine
set_option Elab.async false

/-- Every command keeps the queue, the clock and the canonical forms, and moves what goes one way that way. -/
theorem exec_keeps (c : Instr) (s : State) : State.Keeps.Ans s (exec c s) := by
  have h := State.Keeps.refl s
  cases c with
  | frameReceive port f => exact execFrameReceive_keeps _ _ _ h
  | pfcReceive port classes pause => exact execPfcReceive_keeps _ _ _ _ h
  | pfcPauseExpire port cls => exact execPfcPauseExpire_keeps _ _ _ h
  | pfcXoffRepeat port cls => exact execPfcXoffRepeat_keeps _ _ _ h
  | frameTransmit port => exact execFrameTransmit_keeps _ _ h
  | trainTimeout port => exact execTrainTimeout_keeps _ _ h
  | portLinkUp port => exact execPortLinkUp_keeps _ _ h
  | portDown port lanes => exact execPortDown_keeps _ _ _ h
  | ethPortCfgWrite path port value => exact execEthPortCfgWrite_keeps _ _ _ _ h
  | portAdminDown port => exact execPortAdminDown_keeps _ _ h
  | openRx engine => exact execOpenRx_keeps _ _ h
  | openTimeout conn => exact execOpenTimeout_keeps _ _ h
  | dataFrame engine => exact execDataFrame_keeps _ _ h
  | ackFrame engine => exact execAckFrame_keeps _ _ h
  | close engine => exact execClose_keeps _ _ h
  | closeAckSend conn => exact execCloseAckSend_keeps _ _ h
  | closeLingerExpire conn => exact execCloseLingerExpire_keeps _ _ h
  | resetReceive engine => exact execResetReceive_keeps _ _ h
  | idleTimeout conn => exact execIdleTimeout_keeps _ _ h
  | ackDelayExpire conn => exact execAckDelayExpire_keeps _ _ h
  | coalWaitExpire conn => exact execCoalWaitExpire_keeps _ _ h
  | stitchComplete op => exact execStitchComplete_keeps _ _ h
  | noticeRtoExpire conn => exact execNoticeRtoExpire_keeps _ _ h
  | shtConnCtlReset path value => exact execShtConnCtlReset_keeps _ _ _ h
  | read op => exact execRead_keeps _ _ h
  | write op => exact execWrite_keeps _ _ h
  | writeWaitTimeout op => exact execWriteWaitTimeout_keeps _ _ h
  | flush op => exact execFlush_keeps _ _ h
  | fetchAdd op => exact execFetchAdd_keeps _ _ h
  | swap op => exact execSwap_keeps _ _ h
  | cmpSwap op => exact execCmpSwap_keeps _ _ h
  | fetchAnd op => exact execFetchAnd_keeps _ _ h
  | fetchOr op => exact execFetchOr_keeps _ _ h
  | fetchXor op => exact execFetchXor_keeps _ _ h
  | fetchMinS op => exact execFetchMinS_keeps _ _ h
  | fetchMaxS op => exact execFetchMaxS_keeps _ _ h
  | fetchMinU op => exact execFetchMinU_keeps _ _ h
  | fetchMaxU op => exact execFetchMaxU_keeps _ _ h
  | copy op => exact execCopy_keeps _ _ h
  | fill op => exact execFill_keeps _ _ h
  | regRead op => exact execRegRead_keeps _ _ h
  | regWrite op => exact execRegWrite_keeps _ _ h
  | ctr op => exact execCtr_keeps _ _ h
  | mbx op => exact execMbx_keeps _ _ h
  | filetSubmitScore op => exact execFiletSubmitScore_keeps _ _ h
  | filetSubmitTopk op => exact execFiletSubmitTopk_keeps _ _ h
  | filetSubmitThreshold op => exact execFiletSubmitThreshold_keeps _ _ h
  | filetResultRead op => exact execFiletResultRead_keeps _ _ h
  | filetResultStatus op => exact execFiletResultStatus_keeps _ _ h
  | filetResultRelease op => exact execFiletResultRelease_keeps _ _ h
  | filetResultCancel op => exact execFiletResultCancel_keeps _ _ h
  | regionCreate m => exact execRegionCreate_keeps _ _ h
  | regionDelete m => exact execRegionDelete_keeps _ _ h
  | regionList m => exact execRegionList_keeps _ _ h
  | grantSet m => exact execGrantSet_keeps _ _ h
  | grantDelete m => exact execGrantDelete_keeps _ _ h
  | grantList m => exact execGrantList_keeps _ _ h
  | senseComplete p f cells epochCells => exact execSenseComplete_keeps _ _ _ _ _ h
  | rowOpenTimeout p f => exact execRowOpenTimeout_keeps _ _ _ h
  | programComplete p f outside pulses => exact execProgramComplete_keeps _ _ _ _ _ h
  | epochPeriodEnd => exact execEpochPeriodEnd_keeps _ h
  | epochRecheck => exact execEpochRecheck_keeps _ h
  | witnessProgramDone => exact execWitnessProgramDone_keeps _ h
  | ladderRefit sweeps => exact execLadderRefit_keeps _ _ h
  | bandUpdate => exact execBandUpdate_keeps _ h
  | flitCrcFail stack same => exact execFlitCrcFail_keeps _ _ _ h
  | stackLinkRetrain stack ok => exact execStackLinkRetrain_keeps _ _ _ h
  | basRead path stack => exact execBasRead_keeps _ _ _ h
  | lineEvict line => exact execLineEvict_keeps _ _ h
  | mappingFillDone lsw => exact execMappingFillDone_keeps _ _ h
  | heatHalve => exact execHeatHalve_keeps _ h
  | levelPeriod => exact execLevelPeriod_keeps _ h
  | moveCopyDone slot bad recopied => exact execMoveCopyDone_keeps _ _ _ _ h
  | moveFinish slot => exact execMoveFinish_keeps _ _ h
  | moveTimeout slot copied => exact execMoveTimeout_keeps _ _ _ h
  | tableCheckpoint => exact execTableCheckpoint_keeps _ h
  | govDayStart => exact execGovDayStart_keeps _ h
  | govTokenTick => exact execGovTokenTick_keeps _ h
  | slowGraceExpire conn => exact execSlowGraceExpire_keeps _ _ h
  | creditCutRepeat conn => exact execCreditCutRepeat_keeps _ _ h
  | govRelease => exact execGovRelease_keeps _ h
  | hintSet m => exact execHintSet_keeps _ _ h
  | hintGet m => exact execHintGet_keeps _ _ h
  | wearStatus m => exact execWearStatus_keeps _ _ h
  | tierStatus m => exact execTierStatus_keeps _ _ h
  | swatchRetire m => exact execSwatchRetire_keeps _ _ h
  | passDone port codes ok => exact execPassDone_keeps _ _ _ _ h
  | audit tile codes => exact execAudit_keeps _ _ _ h
  | tileProgramDone tile ok => exact execTileProgramDone_keeps _ _ _ h
  | jobComplete job => exact execJobComplete_keeps _ _ h
  | resultHoldExpire job => exact execResultHoldExpire_keeps _ _ h
  | matrixLoad m => exact execMatrixLoad_keeps _ _ h
  | matrixUnload m => exact execMatrixUnload_keeps _ _ h
  | matrixRefresh m => exact execMatrixRefresh_keeps _ _ h
  | matrixStatus m => exact execMatrixStatus_keeps _ _ h
  | matrixList m => exact execMatrixList_keeps _ _ h
  | filetStatus m => exact execFiletStatus_keeps _ _ h
  | tileReturn m => exact execTileReturn_keeps _ _ h
  | heartbeat link f => exact execHeartbeat_keeps _ _ _ h
  | forward link f => exact execForward_keeps _ _ _ h
  | complete link f => exact execComplete_keeps _ _ _ h
  | routeAck link f => exact execRouteAck_keeps _ _ _ h
  | discover link f => exact execDiscover_keeps _ _ _ h
  | announce link f a => exact execAnnounce_keeps _ _ _ _ h
  | control link f c => exact execControl_keeps _ _ _ _ h
  | resync link f r => exact execResync_keeps _ _ _ _ h
  | heartbeatSend link => exact execHeartbeatSend_keeps _ _ h
  | heartbeatTimeout link => exact execHeartbeatTimeout_keeps _ _ h
  | laceLinkLoss link => exact execLaceLinkLoss_keeps _ _ h
  | laceLinkTrained link => exact execLaceLinkTrained_keeps _ _ h
  | probationEnd link => exact execProbationEnd_keeps _ _ h
  | discoverWaitExpire => exact execDiscoverWaitExpire_keeps _ h
  | handoverGraceExpire => exact execHandoverGraceExpire_keeps _ h
  | scheduleRun id => exact execScheduleRun_keeps _ _ h
  | lceCfgWrite path value => exact execLceCfgWrite_keeps _ _ _ h
  | hoopStatus m => exact execHoopStatus_keeps _ _ h
  | memberList m => exact execMemberList_keeps _ _ h
  | panelMap m => exact execPanelMap_keeps _ _ h
  | hoopForm m => exact execHoopForm_keeps _ _ h
  | memberAdmit m => exact execMemberAdmit_keeps _ _ h
  | memberRemove m => exact execMemberRemove_keeps _ _ h
  | panelRelease m => exact execPanelRelease_keeps _ _ h
  | handover m => exact execHandover_keeps _ _ h
  | schedule m => exact execSchedule_keeps _ _ h
  | scheduleCancel m => exact execScheduleCancel_keeps _ _ h
  | scheduleStatus m => exact execScheduleStatus_keeps _ _ h
  | scrubPassStart => exact execScrubPassStart_keeps _ h
  | scrubPace => exact execScrubPace_keeps _ h
  | scrubVisit => exact execScrubVisit_keeps _ h
  | dramPatrol corrected bad => exact execDramPatrol_keeps _ _ _ h
  | dieFail path value => exact execDieFail_keeps _ _ _ h
  | dieReturn path value => exact execDieReturn_keeps _ _ _ h
  | dieCheckDone d check => exact execDieCheckDone_keeps _ _ _ h
  | resilverSwatch bad => exact execResilverSwatch_keeps _ _ h
  | dramAccessDone t codeword out => exact execDramAccessDone_keeps _ _ _ _ h
  | channelProbeDone group failed => exact execChannelProbeDone_keeps _ _ _ h
  | channelErase path value => exact execChannelErase_keeps _ _ _ h
  | channelReturn path value => exact execChannelReturn_keeps _ _ _ h
  | refillDone => exact execRefillDone_keeps _ h
  | dramPause group retrained failed => exact execDramPause_keeps _ _ _ _ h
  | idleFillDone => exact execIdleFillDone_keeps _ h
  | llcCfgWrite path value => exact execLlcCfgWrite_keeps _ _ _ h
  | wayCleanDone slice w => exact execWayCleanDone_keeps _ _ _ h
  | wayJoinDone slice w => exact execWayJoinDone_keeps _ _ _ h
  | wayLock path value => exact execWayLock_keeps _ _ _ h
  | wayUnlock path value => exact execWayUnlock_keeps _ _ _ h
  | wayReturn path value => exact execWayReturn_keeps _ _ _ h
  | wayDisable path value => exact execWayDisable_keeps _ _ _ h
  | wayTestDone slice w ok => exact execWayTestDone_keeps _ _ _ _ h
  | rdShared agent line => exact execRdShared_keeps _ _ _ h
  | rdOwn agent line => exact execRdOwn_keeps _ _ _ h
  | ownNodata agent line => exact execOwnNodata_keeps _ _ _ h
  | upgrade agent line => exact execUpgrade_keeps _ _ _ h
  | wb agent line data => exact execWb_keeps _ _ _ _ h
  | evictClean agent line => exact execEvictClean_keeps _ _ _ h
  | wr agent line mask data => exact execWr_keeps _ _ _ _ _ h
  | atom agent line f off len operand cmp => exact execAtom_keeps _ _ _ _ _ _ _ _ h
  | whint agent line mask data target => exact execWhint_keeps _ _ _ _ _ _ h
  | snpShare agent line wrote => exact execSnpShare_keeps _ _ _ _ h
  | snpOwn agent line wrote => exact execSnpOwn_keeps _ _ _ _ h
  | snpInv agent line wrote => exact execSnpInv_keeps _ _ _ _ h
  | fwdData agent line => exact execFwdData_keeps _ _ _ h
  | grant agent line => exact execGrant_keeps _ _ _ h
  | ack agent line => exact execAck_keeps _ _ _ h
  | evicting agent line => exact execEvicting_keeps _ _ _ h
  | push agent line => exact execPush_keeps _ _ _ h
  | snoopTimeout agent line => exact execSnoopTimeout_keeps _ _ _ h
  | salvageWalkDone => exact execSalvageWalkDone_keeps _ h
  | domainUp => exact execDomainUp_keeps _ h
  | clean path value => exact execClean_keeps _ _ _ h
  | cleanInv path value => exact execCleanInv_keeps _ _ _ h
  | discard path value => exact execDiscard_keeps _ _ _ h
  | lockFill path value => exact execLockFill_keeps _ _ _ h
  | maintDone => exact execMaintDone_keeps _ h
  | packetStart core value => exact execPacketStart_keeps _ _ _ h
  | pushData core value => exact execPushData_keeps _ _ _ h
  | pop core out => exact execPop_keeps _ _ _ h
  | drop core value => exact execDrop_keeps _ _ _ h
  | bobbinReset path value => exact execBobbinReset_keeps _ _ _ h
  | bobbinResetDone bob => exact execBobbinResetDone_keeps _ _ h
  | staleTailExpire bob => exact execStaleTailExpire_keeps _ _ h
  | bobModeWrite path value => exact execBobModeWrite_keeps _ _ _ h
  | keyLoad m => exact execKeyLoad_keeps _ _ h
  | keyErase m => exact execKeyErase_keeps _ _ h
  | keyStatus m => exact execKeyStatus_keeps _ _ h
  | keyRotate m => exact execKeyRotate_keeps _ _ h
  | keyUnlock m => exact execKeyUnlock_keeps _ _ h
  | macsecSaInstall m => exact execMacsecSaInstall_keeps _ _ h
  | macsecSaDelete m => exact execMacsecSaDelete_keeps _ _ h
  | macsecTxActivate m => exact execMacsecTxActivate_keeps _ _ h
  | macsecSaStatus m => exact execMacsecSaStatus_keeps _ _ h
  | jtagUnlock m => exact execJtagUnlock_keeps _ _ h
  | jtagLock m => exact execJtagLock_keeps _ _ h
  | jtagNonceRead => exact execJtagNonceRead_keeps _ h
  | jtagUnlockSig scope key sig => exact execJtagUnlockSig_keeps _ _ _ _ h
  | jtagCloseExpire => exact execJtagCloseExpire_keeps _ h
  | dmaRefused master addr => exact execDmaRefused_keeps _ _ _ h
  | rekeyNode => exact execRekeyNode_keeps _ h
  | selvedgeCheckpoint => exact execSelvedgeCheckpoint_keeps _ h
  | noticeGapEnd conn code keyId => exact execNoticeGapEnd_keeps _ _ _ _ h
  | mbxPoll via => exact execMbxPoll_keeps _ _ h
  | mbxAbort via => exact execMbxAbort_keeps _ _ h
  | mbxEarlyExpire m => exact execMbxEarlyExpire_keeps _ _ h
  | mbxTimeout m => exact execMbxTimeout_keeps _ _ h
  | mbxCommandDone m => exact execMbxCommandDone_keeps _ _ h
  | identity m => exact execIdentity_keeps _ _ h
  | deviceStatus m => exact execDeviceStatus_keeps _ _ h
  | nonceGet m => exact execNonceGet_keeps _ _ h
  | certGet m => exact execCertGet_keeps _ _ h
  | provisionLock m => exact execProvisionLock_keeps _ _ h
  | adminKeySet m => exact execAdminKeySet_keeps _ _ h
  | adminKeyList m => exact execAdminKeyList_keeps _ _ h
  | consoleUnlock m => exact execConsoleUnlock_keeps _ _ h
  | consoleLock m => exact execConsoleLock_keeps _ _ h
  | consoleLine line => exact execConsoleLine_keeps _ _ h
  | consoleTimeout => exact execConsoleTimeout_keeps _ h
  | sigCloseExpire => exact execSigCloseExpire_keeps _ h
  | mbxSel mailbox buffer offset pecOk => exact execMbxSel_keeps _ _ _ _ _ h
  | mbxDataWrite bytes pecOk => exact execMbxDataWrite_keeps _ _ _ h
  | mbxDataRead n => exact execMbxDataRead_keeps _ _ h
  | mbxSubmit pecOk => exact execMbxSubmit_keeps _ _ h
  | mbxState => exact execMbxState_keeps _ h
  | regAddr off pecOk => exact execRegAddr_keeps _ _ _ h
  | regDataWrite value pecOk => exact execRegDataWrite_keeps _ _ _ h
  | regDataRead => exact execRegDataRead_keeps _ h
  | regStatus => exact execRegStatus_keeps _ h
  | alertCause => exact execAlertCause_keeps _ h
  | alertResponse => exact execAlertResponse_keeps _ h
  | smbusTimeout => exact execSmbusTimeout_keeps _ h
  | keepPageWriteDone => exact execKeepPageWriteDone_keeps _ h
  | operatingTimeSlot => exact execOperatingTimeSlot_keeps _ h
  | registerWrite path off value => exact execRegisterWrite_keeps _ _ _ _ h
  | fwpWrite path idx value => exact execFwpWrite_keeps _ _ _ _ h
  | pmcValueRead path idx => exact execPmcValueRead_keeps _ _ _ h
  | railFault rail => exact execRailFault_keeps _ _ h
  | stepWorkDone out => exact execStepWorkDone_keeps _ _ h
  | seqAdvance => exact execSeqAdvance_keeps _ h
  | stepTimeout => exact execStepTimeout_keeps _ h
  | seqRestLeave => exact execSeqRestLeave_keeps _ h
  | offTimeEnd => exact execOffTimeEnd_keeps _ h
  | railDownNext => exact execRailDownNext_keeps _ h
  | pbRelease held => exact execPbRelease_keeps _ _ h
  | pbForcedOff => exact execPbForcedOff_keeps _ h
  | mrst => exact execMrst_keeps _ h
  | holdSave => exact execHoldSave_keeps _ h
  | holdRise => exact execHoldRise_keeps _ h
  | quiesceGraceExpire => exact execQuiesceGraceExpire_keeps _ h
  | autoRestart => exact execAutoRestart_keeps _ h
  | vstbyLoss saved => exact execVstbyLoss_keeps _ _ h
  | vstbyOn => exact execVstbyOn_keeps _ h
  | idleAfterExpire => exact execIdleAfterExpire_keeps _ h
  | capControlTick power mean rails => exact execCapControlTick_keeps _ _ _ _ h
  | thermalLevelTick => exact execThermalLevelTick_keeps _ h
  | thermalModelUpdate model => exact execThermalModelUpdate_keeps _ _ h
  | sensorSweep => exact execSensorSweep_keeps _ h
  | sweepDone readings => exact execSweepDone_keeps _ _ h
  | thmSweepStart path value => exact execThmSweepStart_keeps _ _ _ h
  | holdupTestEnd test => exact execHoldupTestEnd_keeps _ _ h
  | powerStatus m => exact execPowerStatus_keeps _ _ h
  | powerModeSetFull m => exact execPowerModeSetFull_keeps _ _ h
  | powerModeSetEconomy m => exact execPowerModeSetEconomy_keeps _ _ h
  | powerModeSetIdle m => exact execPowerModeSetIdle_keeps _ _ h
  | powerCapSet m => exact execPowerCapSet_keeps _ _ h
  | shutdownOrderly m => exact execShutdownOrderly_keeps _ _ h
  | shutdownForced m => exact execShutdownForced_keeps _ _ h
  | shutdownRestart m => exact execShutdownRestart_keeps _ _ h
  | thermalStatus m => exact execThermalStatus_keeps _ _ h
  | thermalSweep m => exact execThermalSweep_keeps _ _ h
  | throttleSet m => exact execThrottleSet_keeps _ _ h
  | holdupStatus m => exact execHoldupStatus_keeps _ _ h
  | bootLoad copiesA copiesB alive => exact execBootLoad_keeps _ _ _ _ h
  | hkpRestart cause => exact execHkpRestart_keeps _ _ h
  | liveSwapBusyTimeout => exact execLiveSwapBusyTimeout_keeps _ h
  | bootOkTimeout => exact execBootOkTimeout_keeps _ h
  | confirmTimeout => exact execConfirmTimeout_keeps _ h
  | fwStatus m => exact execFwStatus_keeps _ _ h
  | fwDownload m => exact execFwDownload_keeps _ _ h
  | fwVerify m => exact execFwVerify_keeps _ _ h
  | fwActivateLive m => exact execFwActivateLive_keeps _ _ h
  | fwActivateRestart m => exact execFwActivateRestart_keeps _ _ h
  | fwActivateNextStart m => exact execFwActivateNextStart_keeps _ _ h
  | fwConfirm m => exact execFwConfirm_keeps _ _ h
  | fwDiscard m => exact execFwDiscard_keeps _ _ h
  | selftestReport m => exact execSelftestReport_keeps _ _ h
  | retest m t test => exact execRetest_keeps _ _ _ _ h
  | diagRun m => exact execDiagRun_keeps _ _ h
  | diagDone ok detail => exact execDiagDone_keeps _ _ _ h
  | diagResult m => exact execDiagResult_keeps _ _ h
  | keepStatus m => exact execKeepStatus_keeps _ _ h
  | keepWearList m => exact execKeepWearList_keeps _ _ h
  | samplerOccurrence island => exact execSamplerOccurrence_keeps _ _ h
  | samplerGapExpire slot => exact execSamplerGapExpire_keeps _ _ h
  | samplerRead m => exact execSamplerRead_keeps _ _ h
  | samplerClear m => exact execSamplerClear_keeps _ _ h
  | journalRead m => exact execJournalRead_keeps _ _ h
  | journalArchive m => exact execJournalArchive_keeps _ _ h
  | counterRead m => exact execCounterRead_keeps _ _ h
  | samplingSet m => exact execSamplingSet_keeps _ _ h
  | stackLinkTrainingLoss stack => exact execStackLinkTrainingLoss_keeps _ _ h
  | routeAckSend dev => exact execRouteAckSend_keeps _ _ h
  | resyncSend panel => exact execResyncSend_keeps _ _ h
  | refreshAge matrix group => exact execRefreshAge_keeps _ _ _ h

/-! ### Machine/Faults.lean and Machine/Clock.lean -/

open State.Keeps

theorem State.wayCorrected_keeps {z0 : State} (s : State) (slice w : Nat) (h_s : z0.Keeps s) :
    z0.Keeps (State.wayCorrected s slice w) := by
  unfold State.wayCorrected
  try dsimp only
  repeat' first
    | (with_reducible first
       | assumption | apply State.disableWay_keeps | apply State.count_keeps | apply kIte | (refine kUpd ?_; assumption))
    | split

theorem State.spoilSector_keeps {z0 : State} (s : State) (ln k : Nat) (h_s : z0.Keeps s) :
    z0.Keeps (State.spoilSector s ln k) := by
  unfold State.spoilSector
  try dsimp only
  repeat' first
    | (with_reducible first
       | assumption | apply State.poisonSet_keeps | apply kIte | (refine kUpd ?_; first | assumption | apply State.dropAgents_keeps))
    | split

theorem State.wordLost_keeps {z0 : State} (s : State) (ln k : Nat) (h_s : z0.Keeps s) :
    z0.Keeps (State.wordLost s ln k) := by
  unfold State.wordLost
  try dsimp only
  repeat' first
    | (with_reducible first
       | assumption | apply State.disableWay_keeps | apply State.spoilSector_keeps | apply State.count_keeps | apply kIte)
    | split

theorem State.loseNodes_keeps {z0 : State} (s : State) (first n : Nat) (h_s : z0.Keeps s) :
    z0.Keeps (State.loseNodes s first n) := by
  unfold State.loseNodes
  try dsimp only
  repeat' first
    | (with_reducible first
       | (refine kUpd ?_; assumption))
    | split

theorem State.treeWordLost_keeps {z0 : State} (s : State) (level node w : Nat) (h_s : z0.Keeps s) :
    z0.Keeps (State.treeWordLost s level node w) := by
  unfold State.treeWordLost
  try dsimp only
  repeat' first
    | (with_reducible first
       | assumption | intro _ | apply State.loseNodes_keeps | apply State.count_keeps | apply kIte | apply kFoldl)
    | split

theorem State.swatchLost_keeps {z0 : State} (s : State) (lsw : Nat) (h_s : z0.Keeps s) :
    z0.Keeps (State.swatchLost s lsw) := by
  unfold State.swatchLost
  try dsimp only
  repeat' first
    | (with_reducible first
       | assumption | intro _ | apply State.raise_keeps | apply State.poisonLine_keeps | apply kFoldl)
    | split

theorem State.ledgerReload_keeps {z0 : State} (s : State) (ps : Nat) (h_s : z0.Keeps s) :
    z0.Keeps (State.ledgerReload s ps) := by
  unfold State.ledgerReload
  try dsimp only
  repeat' first
    | (with_reducible first
       | (refine kUpd ?_; assumption))
    | split

theorem State.ledgerLost_keeps {z0 : State} (s : State) (ps : Nat) (readable : Bool) (h_s : z0.Keeps s) :
    z0.Keeps (State.ledgerLost s ps readable) := by
  unfold State.ledgerLost
  try dsimp only
  repeat' first
    | (with_reducible first
       | assumption | apply State.ledgerReload_keeps | apply State.swatchLost_keeps | apply kIte)
    | split

theorem State.opLost_keeps {z0 : State} (s : State) (op : Nat) (h_s : z0.Keeps s) :
    z0.Keeps (State.opLost s op) := by
  unfold State.opLost
  try dsimp only
  repeat' first
    | (with_reducible first
       | assumption | apply State.raise_keeps | apply State.count_keeps | apply State.failOp_keeps)
    | split

theorem State.resendRoute_keeps {z0 : State} (s : State) (dev : Nat) (h_s : z0.Keeps s) :
    z0.Keeps (State.resendRoute s dev) := by
  unfold State.resendRoute
  try dsimp only
  repeat' first
    | (with_reducible first
       | assumption | intro _ | apply State.count_keeps | apply State.sendPath_keeps | apply kFoldl)
    | split

theorem State.storeFault_keeps {z0 : State} (s : State) (f : StoreFault) (h_s : z0.Keeps s) :
    z0.Keeps (State.storeFault s f) := by
  unfold State.storeFault
  try dsimp only
  repeat' first
    | (with_reducible first
       | assumption | apply State.wayCorrected_keeps | apply State.wordLost_keeps | apply State.domainFail_keeps | apply State.count_keeps
       | apply State.treeWordLost_keeps | apply State.loseNodes_keeps | apply State.swatchLost_keeps | apply State.ledgerLost_keeps
       | apply State.resendRoute_keeps | apply State.opLost_keeps | apply State.setFlag_keeps | apply kIte | (refine kUpd ?_; assumption))
    | split

theorem State.strike_keeps {z0 : State} (s : State) (h_s : z0.Keeps s) :
    z0.Keeps (State.strike s) := by
  unfold State.strike
  try dsimp only
  repeat' first
    | (with_reducible first
       | assumption | apply State.storeFault_keeps | apply kIte | (refine kUpd ?_; assumption))
    | split

/-- A microsecond keeps all of that but the clock. -/
theorem State.passTime_keeps (s : State) : ({ s with now := s.now + us 1 } : State).Keeps s.passTime := by
  unfold State.passTime
  dsimp only
  split
  · exact State.Keeps.refl _
  · have h : ({ s with now := s.now + us 1 } : State).Keeps (({ s with now := s.now + us 1, tick := s.tick + 1 } : State).hoopTick) :=
      State.hoopTick_keeps _ (State.Keeps.kUpd (State.Keeps.refl _))
    repeat' first
      | assumption | apply State.opSecond_keeps | apply State.treeTick_keeps | apply State.dramTick_keeps | apply State.copyTick_keeps | split

/-- So does a step of the idle block. -/
theorem State.idleStep_keeps (s : State) : ({ s with now := s.now + us 1 } : State).Keeps s.idleStep :=
  State.strike_keeps _ s.passTime_keeps

end Sys2Proof.Machine
end

