-- ==== Sys2Proof/Laws/State.lean ====
section
/-!
SUPPORT. What each update of one register or timer leaves: one lemma per field of the state, and reading a register after a write.
-/
namespace Sys2Proof.Machine
set_option Elab.async false

@[simp] theorem State.wr_pending (s : State) (off : Nat) (v : Word) : (s.wr off v).pending = s.pending := rfl
@[simp] theorem State.wr_now (s : State) (off : Nat) (v : Word) : (s.wr off v).now = s.now := rfl
@[simp] theorem State.wr_tick (s : State) (off : Nat) (v : Word) : (s.wr off v).tick = s.tick := rfl
@[simp] theorem State.wr_free (s : State) (off : Nat) (v : Word) : (s.wr off v).free = s.free := rfl
@[simp] theorem State.wr_timers (s : State) (off : Nat) (v : Word) : (s.wr off v).timers = s.timers := rfl
@[simp] theorem State.wr_power (s : State) (off : Nat) (v : Word) : (s.wr off v).power = s.power := rfl
@[simp] theorem State.wr_host (s : State) (off : Nat) (v : Word) : (s.wr off v).host = s.host := rfl
@[simp] theorem State.wr_kept (s : State) (off : Nat) (v : Word) : (s.wr off v).kept = s.kept := rfl
@[simp] theorem State.wr_mbx (s : State) (off : Nat) (v : Word) : (s.wr off v).mbx = s.mbx := rfl
@[simp] theorem State.wr_mem (s : State) (off : Nat) (v : Word) : (s.wr off v).mem = s.mem := rfl
@[simp] theorem State.wr_lace (s : State) (off : Nat) (v : Word) : (s.wr off v).lace = s.lace := rfl
@[simp] theorem State.wr_filet (s : State) (off : Nat) (v : Word) : (s.wr off v).filet = s.filet := rfl
@[simp] theorem State.wr_bob (s : State) (off : Nat) (v : Word) : (s.wr off v).bob = s.bob := rfl
@[simp] theorem State.wr_pwr (s : State) (off : Nat) (v : Word) : (s.wr off v).pwr = s.pwr := rfl
@[simp] theorem State.wr_boot (s : State) (off : Nat) (v : Word) : (s.wr off v).boot = s.boot := rfl
@[simp] theorem State.wr_seen (s : State) (off : Nat) (v : Word) : (s.wr off v).seen = s.seen := rfl

@[simp] theorem State.setFld_pending (s : State) (off hi lo n : Nat) : (s.setFld off hi lo n).pending = s.pending := rfl
@[simp] theorem State.setFld_now (s : State) (off hi lo n : Nat) : (s.setFld off hi lo n).now = s.now := rfl
@[simp] theorem State.setFld_tick (s : State) (off hi lo n : Nat) : (s.setFld off hi lo n).tick = s.tick := rfl
@[simp] theorem State.setFld_free (s : State) (off hi lo n : Nat) : (s.setFld off hi lo n).free = s.free := rfl
@[simp] theorem State.setFld_timers (s : State) (off hi lo n : Nat) : (s.setFld off hi lo n).timers = s.timers := rfl
@[simp] theorem State.setFld_power (s : State) (off hi lo n : Nat) : (s.setFld off hi lo n).power = s.power := rfl
@[simp] theorem State.setFld_host (s : State) (off hi lo n : Nat) : (s.setFld off hi lo n).host = s.host := rfl
@[simp] theorem State.setFld_kept (s : State) (off hi lo n : Nat) : (s.setFld off hi lo n).kept = s.kept := rfl
@[simp] theorem State.setFld_mbx (s : State) (off hi lo n : Nat) : (s.setFld off hi lo n).mbx = s.mbx := rfl
@[simp] theorem State.setFld_mem (s : State) (off hi lo n : Nat) : (s.setFld off hi lo n).mem = s.mem := rfl
@[simp] theorem State.setFld_lace (s : State) (off hi lo n : Nat) : (s.setFld off hi lo n).lace = s.lace := rfl
@[simp] theorem State.setFld_filet (s : State) (off hi lo n : Nat) : (s.setFld off hi lo n).filet = s.filet := rfl
@[simp] theorem State.setFld_bob (s : State) (off hi lo n : Nat) : (s.setFld off hi lo n).bob = s.bob := rfl
@[simp] theorem State.setFld_pwr (s : State) (off hi lo n : Nat) : (s.setFld off hi lo n).pwr = s.pwr := rfl
@[simp] theorem State.setFld_boot (s : State) (off hi lo n : Nat) : (s.setFld off hi lo n).boot = s.boot := rfl
@[simp] theorem State.setFld_seen (s : State) (off hi lo n : Nat) : (s.setFld off hi lo n).seen = s.seen := rfl

@[simp] theorem State.setFlag_pending (s : State) (off b : Nat) : (s.setFlag off b).pending = s.pending := rfl
@[simp] theorem State.setFlag_now (s : State) (off b : Nat) : (s.setFlag off b).now = s.now := rfl
@[simp] theorem State.setFlag_tick (s : State) (off b : Nat) : (s.setFlag off b).tick = s.tick := rfl
@[simp] theorem State.setFlag_free (s : State) (off b : Nat) : (s.setFlag off b).free = s.free := rfl
@[simp] theorem State.setFlag_timers (s : State) (off b : Nat) : (s.setFlag off b).timers = s.timers := rfl
@[simp] theorem State.setFlag_power (s : State) (off b : Nat) : (s.setFlag off b).power = s.power := rfl
@[simp] theorem State.setFlag_host (s : State) (off b : Nat) : (s.setFlag off b).host = s.host := rfl
@[simp] theorem State.setFlag_kept (s : State) (off b : Nat) : (s.setFlag off b).kept = s.kept := rfl
@[simp] theorem State.setFlag_mbx (s : State) (off b : Nat) : (s.setFlag off b).mbx = s.mbx := rfl
@[simp] theorem State.setFlag_mem (s : State) (off b : Nat) : (s.setFlag off b).mem = s.mem := rfl
@[simp] theorem State.setFlag_lace (s : State) (off b : Nat) : (s.setFlag off b).lace = s.lace := rfl
@[simp] theorem State.setFlag_filet (s : State) (off b : Nat) : (s.setFlag off b).filet = s.filet := rfl
@[simp] theorem State.setFlag_bob (s : State) (off b : Nat) : (s.setFlag off b).bob = s.bob := rfl
@[simp] theorem State.setFlag_pwr (s : State) (off b : Nat) : (s.setFlag off b).pwr = s.pwr := rfl
@[simp] theorem State.setFlag_boot (s : State) (off b : Nat) : (s.setFlag off b).boot = s.boot := rfl
@[simp] theorem State.setFlag_seen (s : State) (off b : Nat) : (s.setFlag off b).seen = s.seen := rfl

@[simp] theorem State.clrFlag_pending (s : State) (off b : Nat) : (s.clrFlag off b).pending = s.pending := rfl
@[simp] theorem State.clrFlag_now (s : State) (off b : Nat) : (s.clrFlag off b).now = s.now := rfl
@[simp] theorem State.clrFlag_tick (s : State) (off b : Nat) : (s.clrFlag off b).tick = s.tick := rfl
@[simp] theorem State.clrFlag_free (s : State) (off b : Nat) : (s.clrFlag off b).free = s.free := rfl
@[simp] theorem State.clrFlag_timers (s : State) (off b : Nat) : (s.clrFlag off b).timers = s.timers := rfl
@[simp] theorem State.clrFlag_power (s : State) (off b : Nat) : (s.clrFlag off b).power = s.power := rfl
@[simp] theorem State.clrFlag_host (s : State) (off b : Nat) : (s.clrFlag off b).host = s.host := rfl
@[simp] theorem State.clrFlag_kept (s : State) (off b : Nat) : (s.clrFlag off b).kept = s.kept := rfl
@[simp] theorem State.clrFlag_mbx (s : State) (off b : Nat) : (s.clrFlag off b).mbx = s.mbx := rfl
@[simp] theorem State.clrFlag_mem (s : State) (off b : Nat) : (s.clrFlag off b).mem = s.mem := rfl
@[simp] theorem State.clrFlag_lace (s : State) (off b : Nat) : (s.clrFlag off b).lace = s.lace := rfl
@[simp] theorem State.clrFlag_filet (s : State) (off b : Nat) : (s.clrFlag off b).filet = s.filet := rfl
@[simp] theorem State.clrFlag_bob (s : State) (off b : Nat) : (s.clrFlag off b).bob = s.bob := rfl
@[simp] theorem State.clrFlag_pwr (s : State) (off b : Nat) : (s.clrFlag off b).pwr = s.pwr := rfl
@[simp] theorem State.clrFlag_boot (s : State) (off b : Nat) : (s.clrFlag off b).boot = s.boot := rfl
@[simp] theorem State.clrFlag_seen (s : State) (off b : Nat) : (s.clrFlag off b).seen = s.seen := rfl

@[simp] theorem State.putFlag_pending (s : State) (off b : Nat) (v : Bool) : (s.putFlag off b v).pending = s.pending := rfl
@[simp] theorem State.putFlag_now (s : State) (off b : Nat) (v : Bool) : (s.putFlag off b v).now = s.now := rfl
@[simp] theorem State.putFlag_tick (s : State) (off b : Nat) (v : Bool) : (s.putFlag off b v).tick = s.tick := rfl
@[simp] theorem State.putFlag_free (s : State) (off b : Nat) (v : Bool) : (s.putFlag off b v).free = s.free := rfl
@[simp] theorem State.putFlag_timers (s : State) (off b : Nat) (v : Bool) : (s.putFlag off b v).timers = s.timers := rfl
@[simp] theorem State.putFlag_power (s : State) (off b : Nat) (v : Bool) : (s.putFlag off b v).power = s.power := rfl
@[simp] theorem State.putFlag_host (s : State) (off b : Nat) (v : Bool) : (s.putFlag off b v).host = s.host := rfl
@[simp] theorem State.putFlag_kept (s : State) (off b : Nat) (v : Bool) : (s.putFlag off b v).kept = s.kept := rfl
@[simp] theorem State.putFlag_mbx (s : State) (off b : Nat) (v : Bool) : (s.putFlag off b v).mbx = s.mbx := rfl
@[simp] theorem State.putFlag_mem (s : State) (off b : Nat) (v : Bool) : (s.putFlag off b v).mem = s.mem := rfl
@[simp] theorem State.putFlag_lace (s : State) (off b : Nat) (v : Bool) : (s.putFlag off b v).lace = s.lace := rfl
@[simp] theorem State.putFlag_filet (s : State) (off b : Nat) (v : Bool) : (s.putFlag off b v).filet = s.filet := rfl
@[simp] theorem State.putFlag_bob (s : State) (off b : Nat) (v : Bool) : (s.putFlag off b v).bob = s.bob := rfl
@[simp] theorem State.putFlag_pwr (s : State) (off b : Nat) (v : Bool) : (s.putFlag off b v).pwr = s.pwr := rfl
@[simp] theorem State.putFlag_boot (s : State) (off b : Nat) (v : Bool) : (s.putFlag off b v).boot = s.boot := rfl
@[simp] theorem State.putFlag_seen (s : State) (off b : Nat) (v : Bool) : (s.putFlag off b v).seen = s.seen := rfl

@[simp] theorem State.count_pending (s : State) (off n : Nat) : (s.count off n).pending = s.pending := rfl
@[simp] theorem State.count_now (s : State) (off n : Nat) : (s.count off n).now = s.now := rfl
@[simp] theorem State.count_tick (s : State) (off n : Nat) : (s.count off n).tick = s.tick := rfl
@[simp] theorem State.count_free (s : State) (off n : Nat) : (s.count off n).free = s.free := rfl
@[simp] theorem State.count_timers (s : State) (off n : Nat) : (s.count off n).timers = s.timers := rfl
@[simp] theorem State.count_power (s : State) (off n : Nat) : (s.count off n).power = s.power := rfl
@[simp] theorem State.count_host (s : State) (off n : Nat) : (s.count off n).host = s.host := rfl
@[simp] theorem State.count_kept (s : State) (off n : Nat) : (s.count off n).kept = s.kept := rfl
@[simp] theorem State.count_mbx (s : State) (off n : Nat) : (s.count off n).mbx = s.mbx := rfl
@[simp] theorem State.count_mem (s : State) (off n : Nat) : (s.count off n).mem = s.mem := rfl
@[simp] theorem State.count_lace (s : State) (off n : Nat) : (s.count off n).lace = s.lace := rfl
@[simp] theorem State.count_filet (s : State) (off n : Nat) : (s.count off n).filet = s.filet := rfl
@[simp] theorem State.count_bob (s : State) (off n : Nat) : (s.count off n).bob = s.bob := rfl
@[simp] theorem State.count_pwr (s : State) (off n : Nat) : (s.count off n).pwr = s.pwr := rfl
@[simp] theorem State.count_boot (s : State) (off n : Nat) : (s.count off n).boot = s.boot := rfl
@[simp] theorem State.count_seen (s : State) (off n : Nat) : (s.count off n).seen = s.seen := rfl

@[simp] theorem State.arm_pending (s : State) (k ns : Nat) : (s.arm k ns).pending = s.pending := rfl
@[simp] theorem State.arm_now (s : State) (k ns : Nat) : (s.arm k ns).now = s.now := rfl
@[simp] theorem State.arm_tick (s : State) (k ns : Nat) : (s.arm k ns).tick = s.tick := rfl
@[simp] theorem State.arm_regs (s : State) (k ns : Nat) : (s.arm k ns).regs = s.regs := rfl
@[simp] theorem State.arm_free (s : State) (k ns : Nat) : (s.arm k ns).free = s.free := rfl
@[simp] theorem State.arm_power (s : State) (k ns : Nat) : (s.arm k ns).power = s.power := rfl
@[simp] theorem State.arm_host (s : State) (k ns : Nat) : (s.arm k ns).host = s.host := rfl
@[simp] theorem State.arm_kept (s : State) (k ns : Nat) : (s.arm k ns).kept = s.kept := rfl
@[simp] theorem State.arm_mbx (s : State) (k ns : Nat) : (s.arm k ns).mbx = s.mbx := rfl
@[simp] theorem State.arm_mem (s : State) (k ns : Nat) : (s.arm k ns).mem = s.mem := rfl
@[simp] theorem State.arm_lace (s : State) (k ns : Nat) : (s.arm k ns).lace = s.lace := rfl
@[simp] theorem State.arm_filet (s : State) (k ns : Nat) : (s.arm k ns).filet = s.filet := rfl
@[simp] theorem State.arm_bob (s : State) (k ns : Nat) : (s.arm k ns).bob = s.bob := rfl
@[simp] theorem State.arm_pwr (s : State) (k ns : Nat) : (s.arm k ns).pwr = s.pwr := rfl
@[simp] theorem State.arm_boot (s : State) (k ns : Nat) : (s.arm k ns).boot = s.boot := rfl
@[simp] theorem State.arm_seen (s : State) (k ns : Nat) : (s.arm k ns).seen = s.seen := rfl

@[simp] theorem State.disarm_pending (s : State) (k : Nat) : (s.disarm k).pending = s.pending := rfl
@[simp] theorem State.disarm_now (s : State) (k : Nat) : (s.disarm k).now = s.now := rfl
@[simp] theorem State.disarm_tick (s : State) (k : Nat) : (s.disarm k).tick = s.tick := rfl
@[simp] theorem State.disarm_regs (s : State) (k : Nat) : (s.disarm k).regs = s.regs := rfl
@[simp] theorem State.disarm_free (s : State) (k : Nat) : (s.disarm k).free = s.free := rfl
@[simp] theorem State.disarm_power (s : State) (k : Nat) : (s.disarm k).power = s.power := rfl
@[simp] theorem State.disarm_host (s : State) (k : Nat) : (s.disarm k).host = s.host := rfl
@[simp] theorem State.disarm_kept (s : State) (k : Nat) : (s.disarm k).kept = s.kept := rfl
@[simp] theorem State.disarm_mbx (s : State) (k : Nat) : (s.disarm k).mbx = s.mbx := rfl
@[simp] theorem State.disarm_mem (s : State) (k : Nat) : (s.disarm k).mem = s.mem := rfl
@[simp] theorem State.disarm_lace (s : State) (k : Nat) : (s.disarm k).lace = s.lace := rfl
@[simp] theorem State.disarm_filet (s : State) (k : Nat) : (s.disarm k).filet = s.filet := rfl
@[simp] theorem State.disarm_bob (s : State) (k : Nat) : (s.disarm k).bob = s.bob := rfl
@[simp] theorem State.disarm_pwr (s : State) (k : Nat) : (s.disarm k).pwr = s.pwr := rfl
@[simp] theorem State.disarm_boot (s : State) (k : Nat) : (s.disarm k).boot = s.boot := rfl
@[simp] theorem State.disarm_seen (s : State) (k : Nat) : (s.disarm k).seen = s.seen := rfl

@[simp] theorem State.draw_pending (s : State) : s.draw.2.pending = s.pending := rfl
@[simp] theorem State.draw_now (s : State) : s.draw.2.now = s.now := rfl
@[simp] theorem State.draw_tick (s : State) : s.draw.2.tick = s.tick := rfl
@[simp] theorem State.draw_regs (s : State) : s.draw.2.regs = s.regs := rfl
@[simp] theorem State.draw_free (s : State) : s.draw.2.free = s.free + 1 := rfl
@[simp] theorem State.draw_timers (s : State) : s.draw.2.timers = s.timers := rfl
@[simp] theorem State.draw_power (s : State) : s.draw.2.power = s.power := rfl
@[simp] theorem State.draw_host (s : State) : s.draw.2.host = s.host := rfl
@[simp] theorem State.draw_kept (s : State) : s.draw.2.kept = s.kept := rfl
@[simp] theorem State.draw_mbx (s : State) : s.draw.2.mbx = s.mbx := rfl
@[simp] theorem State.draw_mem (s : State) : s.draw.2.mem = s.mem := rfl
@[simp] theorem State.draw_lace (s : State) : s.draw.2.lace = s.lace := rfl
@[simp] theorem State.draw_filet (s : State) : s.draw.2.filet = s.filet := rfl
@[simp] theorem State.draw_bob (s : State) : s.draw.2.bob = s.bob := rfl
@[simp] theorem State.draw_pwr (s : State) : s.draw.2.pwr = s.pwr := rfl
@[simp] theorem State.draw_boot (s : State) : s.draw.2.boot = s.boot := rfl
@[simp] theorem State.draw_seen (s : State) : s.draw.2.seen = s.seen := rfl

@[simp] theorem State.draw256_pending (s : State) : s.draw256.2.pending = s.pending := rfl
@[simp] theorem State.draw256_now (s : State) : s.draw256.2.now = s.now := rfl
@[simp] theorem State.draw256_tick (s : State) : s.draw256.2.tick = s.tick := rfl
@[simp] theorem State.draw256_regs (s : State) : s.draw256.2.regs = s.regs := rfl
@[simp] theorem State.draw256_free (s : State) : s.draw256.2.free = s.free + 1 := rfl
@[simp] theorem State.draw256_timers (s : State) : s.draw256.2.timers = s.timers := rfl
@[simp] theorem State.draw256_power (s : State) : s.draw256.2.power = s.power := rfl
@[simp] theorem State.draw256_host (s : State) : s.draw256.2.host = s.host := rfl
@[simp] theorem State.draw256_kept (s : State) : s.draw256.2.kept = s.kept := rfl
@[simp] theorem State.draw256_mbx (s : State) : s.draw256.2.mbx = s.mbx := rfl
@[simp] theorem State.draw256_mem (s : State) : s.draw256.2.mem = s.mem := rfl
@[simp] theorem State.draw256_lace (s : State) : s.draw256.2.lace = s.lace := rfl
@[simp] theorem State.draw256_filet (s : State) : s.draw256.2.filet = s.filet := rfl
@[simp] theorem State.draw256_bob (s : State) : s.draw256.2.bob = s.bob := rfl
@[simp] theorem State.draw256_pwr (s : State) : s.draw256.2.pwr = s.pwr := rfl
@[simp] theorem State.draw256_boot (s : State) : s.draw256.2.boot = s.boot := rfl
@[simp] theorem State.draw256_seen (s : State) : s.draw256.2.seen = s.seen := rfl

/-- A register reads as written, in the canonical form. -/
theorem State.rd_wr_same (s : State) (off : Nat) (v : Word) (h : s.regs.wf = true) : (s.wr off v).rd off = v :=
  Table.get_set_same _ _ _ _ h

/-- Writing a register leaves the others. -/
theorem State.rd_wr_ne (s : State) {off o : Nat} (v : Word) (h : o ≠ off) : (s.wr off v).rd o = s.rd o := Table.get_set_ne _ _ _ h

theorem State.rd_setFld_same (s : State) (off hi lo n : Nat) (h : s.regs.wf = true) :
    (s.setFld off hi lo n).rd off = (s.rd off).withField hi lo n := State.rd_wr_same _ _ _ h

theorem State.rd_setFld_ne (s : State) {off o : Nat} (hi lo n : Nat) (h : o ≠ off) : (s.setFld off hi lo n).rd o = s.rd o :=
  State.rd_wr_ne _ _ h

theorem State.fld_setFld_ne (s : State) {off o : Nat} (hi lo n a b : Nat) (h : o ≠ off) : (s.setFld off hi lo n).fld o a b = s.fld o a b := by
  unfold State.fld
  rw [State.rd_setFld_ne s hi lo n h]

theorem State.rd_count_same (s : State) (off n : Nat) (h : s.regs.wf = true) : (s.count off n).rd off = counterAdd (s.rd off) n :=
  State.rd_wr_same _ _ _ h

theorem State.rd_count_ne (s : State) {off o : Nat} (n : Nat) (h : o ≠ off) : (s.count off n).rd o = s.rd o := State.rd_wr_ne _ _ h

/-- Writing a register keeps the canonical form of the register map. -/
theorem State.wr_wf (s : State) (off : Nat) (v : Word) (h : s.regs.wfD 0 = true) : (s.wr off v).regs.wfD 0 = true := Table.wfD_set _ _ h

/-- A field reads as set, cut to its width. -/
theorem Word.field_withField_same (v : Word) (hi lo n : Nat) (h1 : lo ≤ hi) (h2 : hi < 64) :
    (v.withField hi lo n).field hi lo = n % 2 ^ (hi + 1 - lo) := by
  unfold Word.withField Word.field
  generalize hv : v.toNat = x
  generalize hw : hi + 1 - lo = w
  have hx : x < 2 ^ 64 := hv ▸ v.isLt
  have hlw : lo + w ≤ 64 := by omega
  have e1 : 2 ^ 64 = 2 ^ lo * (2 ^ w * 2 ^ (64 - lo - w)) := by rw [← Nat.pow_add, ← Nat.pow_add]; congr 1; omega
  have p1 : 0 < 2 ^ lo := Nat.two_pow_pos _
  have p2 : 0 < 2 ^ w := Nat.two_pow_pos _
  have hx1 : x = 2 ^ lo * (x / 2 ^ lo) + x % 2 ^ lo := (Nat.div_add_mod _ _).symm
  have hq : x / 2 ^ lo = 2 ^ w * (x / 2 ^ lo / 2 ^ w) + x / 2 ^ lo % 2 ^ w := (Nat.div_add_mod _ _).symm
  generalize ha : x / 2 ^ lo / 2 ^ w = a at *
  generalize hb : x / 2 ^ lo % 2 ^ w = b at *
  generalize hr : x % 2 ^ lo = r at *
  have hrl : r < 2 ^ lo := hr ▸ Nat.mod_lt _ p1
  generalize hn : n % 2 ^ w = m
  have hml : m < 2 ^ w := hn ▸ Nat.mod_lt _ p2
  have hval : x - b * 2 ^ lo + m * 2 ^ lo = 2 ^ lo * (2 ^ w * a + m) + r := by
    rw [hq] at hx1
    have : 2 ^ lo * (2 ^ w * a + b) + r - b * 2 ^ lo = 2 ^ lo * (2 ^ w * a) + r := by
      rw [Nat.mul_add, Nat.mul_comm b]; omega
    rw [hx1, this, Nat.mul_add, Nat.mul_comm m]; omega
  have hal : a < 2 ^ (64 - lo - w) := by
    rw [← ha, Nat.div_div_eq_div_mul, ← Nat.pow_add]
    apply Nat.div_lt_of_lt_mul
    rw [← Nat.pow_add]
    have : lo + w + (64 - lo - w) = 64 := by omega
    rw [this]; exact hx
  have hlt : 2 ^ lo * (2 ^ w * a + m) + r < 2 ^ 64 := by
    have h3 : 2 ^ w * a + m < 2 ^ w * 2 ^ (64 - lo - w) := by
      calc 2 ^ w * a + m < 2 ^ w * a + 2 ^ w := by omega
        _ = 2 ^ w * (a + 1) := (Nat.mul_succ _ _).symm
        _ ≤ _ := Nat.mul_le_mul_left _ hal
    calc 2 ^ lo * (2 ^ w * a + m) + r < 2 ^ lo * (2 ^ w * a + m) + 2 ^ lo := by omega
      _ = 2 ^ lo * (2 ^ w * a + m + 1) := (Nat.mul_succ _ _).symm
      _ ≤ 2 ^ lo * (2 ^ w * 2 ^ (64 - lo - w)) := Nat.mul_le_mul_left _ h3
      _ = 2 ^ 64 := e1.symm
  rw [hval, BitVec.toNat_ofNat, Nat.mod_eq_of_lt hlt]
  have : (2 ^ lo * (2 ^ w * a + m) + r) / 2 ^ lo = 2 ^ w * a + m := by
    rw [Nat.mul_add_div p1, Nat.div_eq_of_lt hrl, Nat.add_zero]
  rw [this, Nat.mul_add_mod, Nat.mod_eq_of_lt hml]

/-- A field of a register reads as set. -/
theorem State.fld_setFld_same (s : State) (off hi lo n : Nat) (h : s.regs.wf = true) (h1 : lo ≤ hi) (h2 : hi < 64) :
    (s.setFld off hi lo n).fld off hi lo = n % 2 ^ (hi + 1 - lo) := by
  unfold State.fld
  rw [State.rd_setFld_same s off hi lo n h]
  exact Word.field_withField_same _ _ _ _ h1 h2

end Sys2Proof.Machine
end

