-- ==== Sys2Proof/Tests/Slice0.lean ====
section
/-!
SUPPORT. Small tests of the model: an ill-formed command for each check of WellFormed; results the spec gives, by one step each; and for each
statement of Obligations.lean that has hypotheses, a witness: states and operands that meet them together, for each of its clauses.
-/
open Sys2Proof Sys2Proof.Machine
namespace Sys2Proof.Tests
set_option Elab.async false

/-- A state with registers written. -/
def put (s : State) (l : List (Nat × Nat)) : State := l.foldl (fun t x => t.wr x.1 (BitVec.ofNat 64 x.2)) s

/-- The grant of the tests: everything from 10.0.0.0/8, as administrator. -/
def grant : Grant := { cls := 3, ctr := true, ctrFirst := 0, ctrCount := 512, v6 := false, prefixLen := 8, netPrefix := 0x0A000000, entries := [(1, 3)] }

/-- A device that serves at step 12 in its factory state, with host port 0 enabled and up: VID 1, frames to 9,216 bytes, 10.0.0.1. -/
def live : State :=
  let s := put State.reset [(Reg.glbStatus, 6), (Reg.pwrStatus, 12), (Reg.ethPortCfg 0, 1 + 2 ^ 16 + 9216 * 2 ^ 32), (Reg.ethPortStatus 0, 1),
    (Reg.ethIpv4 0, 0x0A000001), (Reg.ethUdpPort, 4660), (Reg.shtStatus, 2 ^ 15)]
  { s with
    now := 10 ^ 12
    power := .full
    kept := { s.kept with macs := [(0, 0x020000000001), (1, 0x020000000002)] }
    mem := { s.mem with grants := [(1, grant)] } }

/-- Where the tests' host is. -/
def host : Peer := { mac := 0x020000000099, ip := { v6 := false, addr := 0x0A000002 }, udp := 4096 }

/-- A received frame of VID 1 that passes the first checks of Table 02-2. -/
def frame (b : EthBody) : EthFrame :=
  { len := 78, fecUncorr := false, fcsOk := true, da := 0x020000000001, sa := host.mac, ctrl := none, tag := some (0, 1), secondTag := false
    secTag := none, body := b }

/-- An IPv4 packet for port 0. -/
def packet (l : L4) : IpPacket :=
  { v6 := false, hdrOk := true, ipLen := 52, span := 52, frag := false, ext := false, src := host.ip.addr, dst := 0x0A000001, ce := false, l4 := l }

/-- Bytes from numbers. -/
def bytes (l : List Nat) : List Byte := l.map (BitVec.ofNat 8)

/-- A device out of its factory state. -/
def locked : State := { live with kept := { live.kept with factory := false, adminKeys := [(0, zeros 96)] } }

/-- Port 0 with class 7 paused and an XOFF out, both due. -/
def holding : State := { live with host := { live.host with pause := [(7, 5)], xoff := [(7, 5, true)] } }

/-- A frame that waits to leave a port. -/
def waits : TxFrame := { conn := 0, pcp := 0, peer := host, body := .arpReply }

/-- Port 0 with a frame that waits. -/
def sending : State := { live with host := { live.host with txq := [(0, [waits])] } }

/-- A transmit security association of port 0. -/
def sa : MacSa :=
  { tx := true, an := 0, xpn := false, sci := 7, pn := 2 ^ 32 - 1, key := [], ssci := 0, salt := [], active := true, warned := false }

/-- Port 0 with MACsec and a frame that waits. -/
def sealing : State := (put { sending with host := { sending.host with sas := [(0, sa)] } } [(Reg.ethPortCfg 0, 1 + 2 ^ 4 + 2 ^ 16 + 9216 * 2 ^ 32)])

/-- Port 0 with class 7 lossless, an XOFF out, and a receive buffer in which no frame of MAX_FRAME fits. -/
def crowded : State :=
  let s := put live [(Reg.ethPortCfg 0, 1 + 2 ^ 15 + 2 ^ 16 + 9216 * 2 ^ 32)]
  let d : Delivered := { port := 0, peer := host, pcp := 7, len := 2 ^ 20, inHeadroom := false, ce := false, bytes := [] }
  { s with host := { s.host with xoff := [(7, 5, true)], inbox := [(0, [d])] } }

/-- Port 0 with MACsec and a receive SA, and a secured frame for it. -/
def secured : State :=
  let s := put live [(Reg.ethPortCfg 0, 1 + 2 ^ 4 + 2 ^ 16 + 9216 * 2 ^ 32)]
  { s with host := { s.host with sas := [(1, { tx := false, an := 0, xpn := false, sci := 7, pn := 1, key := [], ssci := 0, salt := [], active := true, warned := false })] } }
def securedFrame : EthFrame := { frame (.arpRequest 0x0A000001) with secTag := some { sci := some 7, an := 0, pn := 5, icvOk := true } }

/-- Port 0 with MACsec, whose transmit SA has sent its last packet number. -/
def exhausted : State := { sealing with host := { sealing.host with sas := [(0, { sa with pn := 2 ^ 32 })] } }

theorem exhausted_sa : ∀ i a, exhausted.txSa 0 = some (i, a) → a.canSend = false := by
  intro i a h
  have e : exhausted.txSa 0 = some (0, { sa with pn := 2 ^ 32 }) := by decide
  rw [e] at h
  obtain ⟨rfl, rfl⟩ := Prod.mk.inj (Option.some.inj h)
  decide

/-- Port 0 enabled and down, its training attempt over. -/
def down : State := put { live with host := { live.host with train := [(0, { an := true, lt := true, cr := true, lanes := 4, due := some 5 })] } } [(Reg.ethPortStatus 0, 0)]

/-- The header of a frame of the tests' connection 8. -/
def hdr (ftype seq : Nat) : FrameHdr :=
  { ver := 1, ftype := ftype, ece := false, cwr := false, ackReq := true, connId := if ftype = 2 then 0 else 8, seq := seq, ack := 100, sack := 0
    done := 0, credit := 64, count := if ftype = 0 then 1 else 0 }

/-- A connection of the host under grant 1. -/
def conn : Conn :=
  { st := .opened, gen := 1, grant := 1, cls := 3, tclass := 0, nonce := 5, openSrc := host, peer := host, home := 0, waiting := false
    maxFrame := 9216, credit := 64, lowers := [], ack := 10, ackSent := 10, openAck := [], held := [], done := 0, devSeq := 101, noticeTag := 0, notices := [], ece := false
    seg := none, dupSeg := none, counted := [], replays := [], ready := [], coalDue := some 5, ackDue := some 5, openDue := 5, idleDue := 5, lastTick := 0
    lingerDue := 5, closeSeq := 0, closeAcked := false, slowDue := some 5, slowCause := 3, slowStitch := 10, slowByte := 0, slowRepeat := false
    baseStitch := 0, baseByte := 0, preCut := none, traffic := [] }

/-- A stitch. -/
def stitch (opcode subop length addr : Nat) (payload : List Byte) : Stitch :=
  { opcode := opcode, resp := false, fence := false, more := false, cont := false, subop := subop, length := length, tag := 0, addr := addr
    payload := payload }

/-- A frame of the tests' connection, delivered to engine 0. -/
def arrived (ftype seq : Nat) (body : List Byte) : Delivered :=
  { port := 0, peer := host, pcp := 0, len := 78, inHeadroom := false, ce := false, bytes := hdrBytes (hdr ftype seq) ++ body }

/-- An ACK frame that asks for none. -/
def quiet : Delivered := { arrived 1 10 [] with bytes := hdrBytes { hdr 1 10 with ackReq := false } }

/-- The body of an OPEN: CONN_NONCE 6, GRANT_ID, MAX_FRAME. -/
def openBody (grant maxFrame : Nat) : List Byte := beBytes 4 6 ++ beBytes 2 grant ++ zeros 4 ++ beBytes 2 maxFrame ++ zeros 4

/-- A state in which connection 8 is `c` and a frame is at the front of engine 0. -/
def inFront (c : Conn) (d : Delivered) : State := { live with host := { live.host with conns := [(8, c)], inbox := [(0, [d])] } }

/-- A state in which connection 8 is `c`. -/
def withConn (c : Conn) : State := { live with host := { live.host with conns := [(8, c)] } }

/-- A NOTICE that is due. -/
def notice (retx : Nat) : Notice := { seq := 100, stitch := stitch 0x10 0 0 0 [], retx := retx, due := 5, rto := 1000 }

/-- A NOTICE_GAP of connection 8 that has ended. -/
def gap (latest : Option (Nat × Nat × Nat)) : NoticeGap := { conn := 8, code := 0x4001, keyId := 3, due := 5, latest := latest }

/-- A state with that gap. -/
def gapped (latest : Option (Nat × Nat × Nat)) : State := { withConn conn with mem := { live.mem with gaps := [gap latest] } }

/-- Key slot 3, loaded under version 0. -/
def slot3 : KeySlot := { KeySlot.empty with st := .loaded, key0 := some (zeros 32), kcv0 := some (zeros 8) }

/-- The address of byte `a` under key ID 3. -/
def at3 (a : Nat) : Nat := 3 * 2 ^ 56 + a

/-- A directory entry of a panel of region 1 held here. -/
def panel0 : DirEntry :=
  { index := 0, devA := 0, lpA := 0, devB := 0, lpB := 0, mirrored := false, st := 0, region := 1, keyId := 3, copyA := 0, copyB := 0, move := none }

/-- Region 1: the first GiB, under key ID 3. -/
def region1 : Region := { keyId := 3, mirrored := false, base := 0, size := 2 ^ 30 }

/-- A resident line of zero data, with poison as given. -/
def line (poison : BitVec 4) : LlcLine :=
  { way := 0, data := 0, valid := 15, dirty := 0, poison := poison, cause := 1, unpaid := false, dir := [] }

/-- A device that serves with region 1, its first panel here, key 3 and a dirty ceiling of 64 MiB; lines 0 (clean), 16 (clean) and 32
(poisoned) of the region are resident. -/
def stocked : State :=
  let s := put live [(Reg.plcCeiling, 64)]
  { s with mem := { s.mem with
    regions := [(1, region1)], dir := [(0, panel0)], keys := [(3, slot3)]
    llc := [(3 * 2 ^ 48, line 0), (3 * 2 ^ 48 + 16, line 0), (3 * 2 ^ 48 + 32, line 15)] } }

/-- A queued operation of connection 8. -/
def op (t : Stitch) : Op :=
  { origin := .conn 8 1, mode := .normal, conn := 8, cls := 3, engine := 0, seq := 11, idx := 0, st := t, grant := { grant with entries := [(1, 15)] }
    regions := [(1, region1)], phase := .queued, fails := [], reexec := false, started := 0, gate := none }

/-- A memory stitch on line 0, of 8 bytes, or 16 for CMP_SWAP; a COPY from line 16. -/
def memStitch (opcode subop addr : Nat) : Stitch :=
  if opcode = 1 then stitch 1 0 8 addr []
  else if opcode = 4 && subop == 2 then stitch 4 2 16 addr (zeros 32)
  else if opcode = 5 then stitch 5 0 8 addr (leBytes 8 (at3 4096))
  else stitch opcode subop 8 addr (bytes [1, 2, 3, 4, 5, 6, 7, 8])

/-- Operation 1 is `o` and waits. -/
def withOp (o : Op) : State := { stocked with host := { stocked.host with conns := [(8, conn)], ops := [(1, o)] } }

/-- An operation that is done. -/
def doneOp (origin : Origin) : Op := { op (memStitch 2 0 (at3 0)) with origin := origin, phase := .done ((op (memStitch 2 0 (at3 0))).answer .ok [] []) }

/-- An MBX of command 0x0101 on mailbox `m` with these segment flags. -/
def mbxOp (m flags : Nat) : Op := op (stitch 9 0 8 m (bytes [1, 1, flags, 0, 0, 0, 0, 0]))

/-- A CTR while a live swap is under way. -/
def swappingOp : State :=
  let s := withOp (op (stitch 11 0 16 511 []))
  { s with boot := { s.boot with swap := some { mailbox := none, due := 5, handed := true, back := 0 } } }

/-- A mailbox of connection 8. -/
def box (st : MbxSt) : Mailbox := { Mailbox.idle with st := st, owner := .conn 8 1 }

/-- A mailbox of SMBus. -/
def smbBox (st : MbxSt) : Mailbox := { Mailbox.idle with st := st, owner := .smbus }

/-- Mailbox 0 is `b`. -/
def boxed (s : State) (b : Mailbox) : State := { s with mbx := { s.mbx with boxes := [(0, b)] } }

/-- A matrix of 4 columns of 64 weights at the foot of region 1, with its only group on tile 0 and its operands resident. -/
def matrix : Matrix :=
  { request := leBytes 8 (at3 0) ++ leBytes 4 4 ++ leBytes 2 64 ++ bytes [6, 0] ++ zeros 16, st := 1
    groups := [(0, { scales := [], full := [], tiles := [0], stale := false, fallback := false })], hoopTiles := 1, waits := []
    mailbox := none }

/-- A tile that serves group 0 of matrix 1. -/
def tile0 : Tile := { Tile.empty with st := .inUse, matrix := 1 }

/-- A descriptor: all columns, a batch of one query, K or none, OVER as given, DIM 64. -/
def descriptor (k : Nat) (factor : Nat := 0) : List Byte := zeros 8 ++ leBytes 2 1 ++ leBytes 2 k ++ leBytes 2 factor ++ leBytes 2 64 ++ zeros 16

/-- A filet job of connection 8 on matrix 1, with a pass left on tile 0. -/
def job : FJob :=
  { order := 0, owner := .conn 8 1, op := 0, matrix := 1, keyId := 3, subop := 0, desc := descriptor 0, queries := [List.replicate 64 1], st := 1
    status := .ok, mine := [0], todo := [(0, 0)], acc := [], begun := [], fallback := [], stale := [], passes := 0, verified := 0, fails := []
    started := 0, ended := 0, flags := 0, result := zeros 32, spoiled := false, subs := [] }

/-- A device with that matrix and that job. -/
def filet (j : FJob) (o : Op) : State := { withOp o with filet := { matrices := [(1, matrix)], tiles := [(0, tile0)], progs := [], jobs := [(5, j)], nextJob := 6 } }

/-- A FILET_RESULT stitch that names a job. -/
def resultOp (subop id : Nat) : Op := op (stitch 8 subop 32 (at3 0) (leBytes 4 id ++ zeros 4))

/-- A FILET_SUBMIT stitch. -/
def submitOp (kind : Nat) : Op := op (stitch 7 kind 96 (at3 0) (descriptor (if kind = 1 then 1 else 0) ++ zeros 64))

/-- A programming of group 0. -/
def prog : FProg := { matrix := 1, group := 0, tiles := [0], left := [0], quant := some ([], [], []), fails := [], why := .load, inPlace := false, again := false }

/-- An occurrence of POISON_SET. -/
def occ : Occ := { code := 0x0001, src := 0, val := 1, time := live.stamp }

/-- A sampler record of it, with an occurrence that waits for its commit. -/
def slot : SmpSlot :=
  let r : SmpRec := { code := 0x0001, src := 0, first := none, page0Lost := false, min := 0, minTime := none, max := 0, maxTime := none, count := 1
                      rep := 0, last := live.stamp, hist := [], lastValue := 0 }
  { keep := r, before := none, pages := 2, work := r, waiting := 1, lastCommit := 0, day := 0, commits := 0 }

/-- An occurrence waits on island 24, and these slots are used. -/
def sampled (slots : Table SmpSlot) : State := { live with kept := { live.kept with smpQ := [(24, occ)], slots := slots } }

/-- HOLD_N has fallen: the keep is closed. -/
def shut (s : State) : State := { s with kept := { s.kept with closed := true } }

/-- A packet of 9 words. -/
def pkt (n : Nat) : BobPkt := { len := 7 * n, words := List.replicate n (0, false) }

/-- Bobbin 256, enabled, selected for core 0's pop window, with its oldest packet as given. -/
def bobs (x : Bob) (w : PushWin) : State := { put live [(Reg.bobPopSel 0, 256)] with bob := { bobs := [(256, x)], wins := [(0, w)] } }

/-- An enabled bobbin. -/
def bobbin : Bob := { Bob.off with enabled := true, cellLimit := 64, pktLimit := 8, staleTime := 1, pkts := [pkt 2], staleFrom := some 5 }

/-- A device whose periodic timers are all due. -/
def ripe (s : State) : State := { s with timers := (List.range 23).map (fun k => (k, 5)) }

/-- The label is 1; logical swatch 0 is mapped to physical swatch 5; line 64 of region 1 is dirty in the eviction buffer, line 65 clean. -/
def placed : State :=
  let s := put stocked [(Reg.stkEpoch, 1)]
  { s with mem := { s.mem with
    prk := [(0, { ps := 5, rot := 3, st := .mapped, hint := 0, slot := 0 })]
    ldg := [(5, { Ldg.unused with st := .mapped, lsw := 0, zeroLabel := 1 })]
    evb := [(3 * 2 ^ 48 + 64, { line 0 with dirty := 15, unpaid := true }), (3 * 2 ^ 48 + 65, line 0)]
    zeroFill := [(1, 5)]
    gov := { s.mem.gov with lastWait := some 5 } } }

/-- The node of line 64 is under conversion. -/
def converting : State := { placed with mem := { placed.mem with conv := [(1, { first := 64, ver := false, rekey := false })] } }

/-- A move of logical swatch 0 from physical swatch 5 to 6. -/
def move : Move := { lsw := 0, src := 5, dst := 6, rot := 4, due := 5, why := .level, map := 0, once := 0, again := 0, switched := false }

/-- That move in slot 63. -/
def moving (m : Move) : State :=
  { placed with mem := { placed.mem with
    prk := [(0, { ps := if m.switched then 6 else 5, rot := 3, st := if m.switched then .mapped else .moving, hint := 0, slot := 63 })]
    ldg := [(5, { Ldg.unused with st := .mapped, lsw := 0 }), (6, { Ldg.unused with st := .moveDst, lsw := 0 })]
    moves := [(63, m)] } }

/-- The node of line 64 is lost. -/
def lostNode : State := { placed with mem := { placed.mem with lost := [1] } }

/-- A ladder set. -/
def ladders : LadderSet := { band := 0, ladders := [], epoch := 0 }

/-- Fragment 8 of the last physical line is being read; its row is open. -/
def sensing (ended : Option FragOutcome) : State :=
  let x : FragState := { attempts := 0, rowOpen := some 5, set := ladders, ages := [], index := 3, ended := ended }
  { placed with mem := { placed.mem with
    senses := [(2 ^ 34 - 1, { line := 3 * 2 ^ 48 + 66, stripe := { img := { cipher := 0, tag := 0, metadata := 0 }, label := 1 }, readers := [.stitch], frags := List.replicate 9 x })] } }

/-- Fragment 8 of the last physical line is being programmed. -/
def programming (retried : List Nat) : State :=
  { placed with mem := { placed.mem with
    programs := [(2 ^ 34 - 1, { line := 3 * 2 ^ 48 + 66, stripe := { img := { cipher := 0, tag := 0, metadata := 0 }, label := 1 }, user := true,
                                frags := List.replicate 8 (some true) ++ [none], retried := retried, serial := false })] } }

/-- A die that rejoins, and a device whose die `d` it is. -/
def oneDie : Die := { st := .rejoining, cause := 1, erasures := [], current := [], checking := false, set := ladders, spare := ladders }
def dies (d : Nat) (x : Die) : State := { placed with mem := { placed.mem with dies := [(d, x)] } }

/-- Line 0 of physical swatch 5 carries label 0, which is EARLY. -/
def early : State :=
  { placed with mem := { placed.mem with
    med := [(5 * 512, { img := { cipher := 0, tag := 0, metadata := 0 }, label := 0 })]
    ages := [(0, { index := 0, early := true, residual := 0, fitTime := 0 })] } }

/-- A read of the DRAM tier, in flight. -/
def readingLine : DramRead := { line := 3 * 2 ^ 48, bad := false, issued := true, fwd := false }
def reading : State := { stocked with mem := { stocked.mem with dramReads := [readingLine] } }

/-- Group 1 is stopped for the probe of its channels. -/
def probing (reads : List DramRead) : State := { stocked with mem := { stocked.mem with probing := [(1, 257)], dramReads := reads } }

/-- Mailbox 0 is BUSY with an unsigned request that came over SMBus. -/
def ask (s : State) (code : Nat) (data : List Byte) : State :=
  { s with mbx := { s.mbx with boxes := [(0, { smbBox .busy with code := code, req := data })] } }

/-- That request, as its command sees it in the factory state. -/
def rq (s : State) (data : List Byte) : Req :=
  { m := 0, owner := .smbus, cls := 3, author := s.authorOf 0 .smbus none, key := none, data := data }

/-- In the factory state before the first admin key, checks 5 and 6 of R437 give a request over SMBus class ADMIN (R450). -/
theorem asked (s : State) (code cls : Nat) (data : List Byte)
    (h : (decide (cls ≤ 3) && s.kept.factory && s.kept.adminKeys.isEmpty && s.serving) = true) :
    (ask s code data).Asked 0 code cls (rq s data) (ask s code data) := by
  simp only [Bool.and_eq_true, decide_eq_true_eq] at h
  obtain ⟨⟨⟨h1, h2⟩, h3⟩, h4⟩ := h
  have hf : (ask s code data).factoryCase .smbus = true := by simp [State.factoryCase, ask, h2, h3]
  refine ⟨by decide, rfl, rfl, rfl, h4, ?_⟩
  show (ask s code data).authorise 0 { smbBox .busy with code := code, req := data } cls = _
  have hr : (ask s code data).reqOf 0 { smbBox .busy with code := code, req := data } none = rq s data := by
    simp only [State.reqOf, smbBox, hf, Bool.or_true, BEq.rfl, Bool.and_self, if_true]
    rfl
  simp only [State.authorise, hr]
  simp only [show (smbBox .busy).owner = .smbus from rfl, show (smbBox .busy).signed = false from rfl, hf, Bool.not_true, Bool.and_false,
    Bool.false_eq_true, if_false, show ¬ (rq s data).cls < cls from Nat.not_lt.mpr h1]

/-- A line of key ID 255. -/
def own : Nat := 255 * 2 ^ 48 + 7

/-- A device with a way in the state given. -/
def ways (x : Way) : State := { live with mem := { live.mem with ways := [(511, x)] } }

/-- Messages in the net, and agent 26's copy of line 0. -/
def net (l : List CohMsg) : State :=
  { stocked with mem := { stocked.mem with net := l, agents := [(agentKey 26 (3 * 2 ^ 48), { st := .o, data := 0, poison := 0 })]
                                           txns := [(3 * 2 ^ 48, { agent := 0, req := .rdShared, await := [26], due := 5, forward := true })] } }

/-- A LOCK_FILL that waits for its first line. -/
def fillingLocked : State := { stocked with mem := { stocked.mem with maint := some { op := 1, addr := at3 (64 * 256), size := 256 }, evb := placed.mem.evb } }

/-- The first element that a search meets. -/
theorem find_first {α : Type} (n : Nat) (f : Nat → α) (p : α → Bool) (h : p (f 0) = true) : ((List.range (n + 1)).map f).find? p = some (f 0) := by
  simp [List.range_succ_eq_map, h]

/-- A journal entry. -/
def entry : JEntry :=
  { seq := 1, time := live.stamp, iface := 1, port := 0, form := 0, connId := 0, cred := 0, object := 0, result := 0, newLen := 0, old := [], new := [] }

/-- Link 0 to device 1 is up, and 15 in the state given. -/
def upLink : LaceLink := { LaceLink.off with st := .up, peerDev := 1, failDue := some 5, mgrLink := true, lastBeat := 10 ^ 12 }

/-- A device with these links, entries for forwarded stitches and acting role (0 manager, 2 worker). -/
def linked (role : Nat) (refs : Table (Nat × Nat)) : State :=
  let s := put stocked [(Reg.hopStatus, 4 * role)]
  { s with lace := { s.lace with links := [(0, upLink), (15, upLink)], refs := refs } }

/-- A lace frame of device 1 for device `dst` on link 0, with LSEQ and RSEQ 1. -/
def laceFor (dst ltype flags : Nat) (body : List Byte) : LaceIn :=
  let b := bytes [16 + ltype, flags, 0, 0, 1, dst, 0, 0] ++ zeros 4 ++ beBytes 2 1 ++ zeros 2 ++ beBytes 4 1 ++ zeros 8 ++ beBytes 2 64 ++
    beBytes 2 body.length ++ body
  { fecUncorr := false, fcsOk := true, len := max 64 (b.length + 18), da := 0x024C00000000, etypeOk := true, bytes := b ++ zeros (46 - b.length) }

/-- One for device 0, and one that passes through it. -/
def laceIn : Nat → Nat → List Byte → LaceIn := laceFor 0
def laceVia : Nat → Nat → List Byte → LaceIn := laceFor 1

/-- The payload of a FORWARD or COMPLETE with OPREF 9. -/
def laceBody (t : Stitch) : List Byte := beBytes 4 9 ++ beBytes 4 0 ++ stitchBytes t

/-- A READ of line 0. -/
def readStitch : Stitch := memStitch 1 0 (at3 0)

/-- A device whose link 15 is `l`. -/
def link15 (l : LaceLink) : State := { linked 0 [] with lace := { (linked 0 []).lace with links := [(15, l)] } }

/-- The member list of devices 0 and 1. -/
def members : Table Member :=
  let x : Member := { serial := 0, present := true, parents := [], said := none, readOnly := false, badKeys := [] }
  [(0, x), (1, x)]

/-- A manager of a hoop of two, with a schedule that is due, a resync under way and its discovery over. -/
def hoop (l : Table Member) : State :=
  let s := linked 0 []
  { s with lace := { s.lace with
    members := l, strangers := [(2, { serial := 2, present := false, parents := [], said := none, readOnly := false, badKeys := [] })]
    standbyCurrent := true, discover := some 5, handover := some { due := 5, mailbox := none }, routes := [(1, { Route.empty with ackDue := some 5 })]
    scheds := [(7, { at' := 0, devices := 1, action := 1, st := 0, ran := 0 })] } }

/-- A resync of panel 0 under way, with these chunks left. -/
def resyncing (s : State) (chunks : List Nat) : State :=
  { s with lace := { s.lace with resyncs := [{ panel := 0, target := 1, chunks := chunks, line := 0, copied := 0 }] } }

/-- A manager of a hoop of two with a schedule that is due. -/
def scheduled (devices action : Nat) : State :=
  { hoop members with lace := { (hoop members).lace with scheds := [(7, { at' := 0, devices := devices, action := action, st := 0, ran := 0 })] } }

/-- A worker without a link to the manager; its link 0 leads to device 5, its link 15 to device `p`. -/
def worker (p : Nat) : State :=
  let l : LaceLink := { upLink with mgrLink := false, peerDev := 5 }
  { linked 2 [] with lace := { (linked 2 []).lace with links := [(0, l), (15, { l with peerDev := p })] } }

/-- Mailbox 0 is BUSY with a signed request over SMBus, its block naming admin key 0. -/
def signed (code : Nat) (data : List Byte) : State :=
  { live with
    kept := { live.kept with adminKeys := [(0, zeros 96)] }
    mbx := { live.mbx with boxes := [(0, { smbBox .busy with
      code := code, req := data ++ zeros 104, signed := true, nonce := some (zeros 32, 2 * 10 ^ 12) })] } }

/-- Where its signature verifies, checks 5 and 6 give it class ADMIN. -/
theorem asked_signed (hc : Config.ecdsaOk (zeros 96) (sigMessage (zeros 32) 0x0110 []) (zeros 96) = true) :
    (signed 0x0110 []).Asked 0 0x0110 3
      { m := 0, owner := .smbus, cls := 3, author := live.authorOf 0 .smbus (some 0), key := some 0, data := [] }
      ((signed 0x0110 []).putBox 0 { (signed 0x0110 []).box 0 with nonce := none }) := by
  have hv : (signed 0x0110 []).verify 0 ((signed 0x0110 []).box 0) =
      (some 0, (signed 0x0110 []).putBox 0 { (signed 0x0110 []).box 0 with nonce := none }) := by
    unfold State.verify
    refine if_pos (Bool.and_eq_true_iff.2 ⟨rfl, ?_⟩)
    show (decide _ && Config.ecdsaOk (zeros 96) (sigMessage (zeros 32) 0x0110 []) (zeros 96)) = true
    rw [hc]; rfl
  refine ⟨by decide, rfl, rfl, rfl, rfl, ?_⟩
  unfold State.authorise
  simp only [hv]
  rfl

/-- A journal with that entry, its digest, and the data of the JOURNAL_ARCHIVE that names it. -/
def journaled : State := { live with kept := { live.kept with journal := [entry], nextSeq := 2 } }
def digest : List Byte := Config.sha384 ([entry].flatMap JEntry.bytes)
def archive : List Byte := leBytes 4 1 ++ zeros 4 ++ digest

theorem archive_form (hc : digest.length = 48) : lengthZero 56 4 4 (rq journaled archive) = none := by
  have h1 : archive.length = 56 := by simp [archive, leBytes, zeros, hc]
  have h2 : zeroAt archive 4 4 = true := rfl
  simp [lengthZero, rq, h1, h2]

/-- The data of a KEY_LOAD or KEY_ROTATE of key ID 3, version 1. -/
def keyData : List Byte := bytes [3, 1, 0, 0, 0, 0, 0, 0] ++ zeros 8 ++ zeros 96 ++ zeros 40

/-- That the wrapped key in it unwraps, and that its KCV is the one sent; the ciphers are the standards', so nothing here can show it. -/
def Unwraps : Prop := unwrapKey "SLN4810-WRAP" 3 1 (zeros 96) (zeros 40) = some (zeros 32) ∧ kcvOf (zeros 32) = zeros 8

theorem unwrapped (hc : Unwraps) (s : State) : (rq s keyData).key' = some (zeros 32) := hc.1

theorem notBad (hc : Unwraps) (s t : State) (h : (t.keySlot 3).kcv true = none) : t.keyBad (rq s keyData) = false := by
  unfold State.keyBad
  rw [unwrapped hc]
  show (kcvOf (zeros 32) != zeros 8 || (match (t.keySlot 3).kcv true with | some c => c != zeros 8 | none => false)) = false
  rw [hc.2, h]
  rfl

/-- A device whose key slot 3 is `k`. -/
def keyed (k : KeySlot) : State := { live with mem := { live.mem with keys := [(3, k)] } }

/-- A device that rekeys key ID 3, from node `next` on. -/
def rekeying (k : KeySlot) (next : Nat) : State :=
  ripe { placed with mem := { placed.mem with
    keys := [(3, k)], rekey := some { keyId := 3, next := next, left := 8, checkpoint := 0, started := 0 } } }

/-- Slot 3 in REKEY with both versions. -/
def slotRekey : KeySlot := { slot3 with st := .rekey, key1 := some (zeros 32) }

/-- The data of a MACSEC_SA_INSTALL on port 1. -/
def saData : List Byte := bytes [1, 1, 3, 0, 0, 0, 0, 0] ++ zeros 168

/-- A device with SA 31 of port 7. -/
def withSa : State := { live with host := { live.host with sas := [(255, sa)] } }

/-- A device that holds a JTAG nonce. -/
def nonced : State := { locked with mbx := { locked.mbx with jtagNonce := some (zeros 32) } }

/-- The message of its JTAG_UNLOCK_SIG for scope 3 and key 0. -/
def unlockMessage : List Byte := zeros 32 ++ serialBytes ++ [BitVec.ofNat 8 3, BitVec.ofNat 8 0]

/-- A device at a step, in a power state, with a power side. -/
def atStep (n : Nat) (p : PowerSt) (f : PowerSide → PowerSide) : State :=
  let s := put live [(Reg.pwrStatus, n)]
  { s with power := p, pwr := f s.pwr }

/-- A device whose THM_CFG pages are worn out. -/
def worn : State := { live with kept := { live.kept with counts := [(Reg.thmCfg, 100000)] } }

/-- A device that rekeys key ID 3, node 0 of which is still under version 0. -/
def oldNode : State :=
  { rekeying slotRekey 0 with mem := { (rekeying slotRekey 0).mem with nodes := [(0, { major := 0, ver := false, minors := [] })] } }

/-- A firmware package. -/
def pkg : FwPkg := { version := 1, svn := 0, format := 1, liveOk := true }

/-- A device with its firmware side changed; both slots hold `pkg`. -/
def fw (f : BootSide → BootSide) : State := { live with boot := f { live.boot with slots := [(0, pkg), (1, pkg)] } }

/-- A staged package whose header says LIVE_OK. -/
def staged : List Byte := zeros 11 ++ bytes [1] ++ zeros 500

/-- Mailbox 15 runs command `code`, and nothing is waited for. -/
def ending (s : State) (code : Nat) (req : List Byte) : State :=
  { s with mbx := { s.mbx with boxes := [(15, { smbBox .busy with code := code, req := req, begun := true })] } }

/-- A diagnostic test. -/
def diag : Diag := { id := 4, test := 1, target := 0, began := 0, ended := none }

/-- A live swap. -/
def swap : Swap := { mailbox := none, due := 5, handed := false, back := 0 }

/-- A self-test that finds nothing, and a hold-up measurement. -/
def anySelfTest : SelfTest :=
  { keepBad := false, unsealed := 0, ways := [], sramBad := false, densitiesDiffer := false, dram64 := false, channels := [], links := [], dies := []
    tablesBad := false, poisoned := [], badNodes := [], badLines := [], tiles := [], badKeys := [] }
def anyHoldTest : HoldTest := { v1 := 11000, v2 := 10000, power := 0, time := 1000 }

/-- What stranger 2 announced, and a manager that heard it. -/
def said : Announce := { serial := 2, strap := 2, dev := 2, epoch := 0, exit := 0, ip := { v6 := false, addr := 0 } }
def heard : State :=
  { hoop [] with lace := { (hoop []).lace with
    strangers := [(2, { serial := 2, present := false, parents := [], said := some said, readOnly := false, badKeys := [] })] } }

/-- A device that loads its firmware at step `n`, with slots whose copies are as given. -/
def booting (n : Nat) (copies : List Bool) : State :=
  put (fw (fun b => { b with loading := true, slots := if copies.isEmpty then [] else b.slots })) [(Reg.pwrStatus, n)]
def good : List Bool := [true, true, true]

/-- A device that holds a JTAG nonce, and whose journal is full. -/
def full : State := { nonced with kept := { nonced.kept with journal := List.replicate 8176 entry } }

theorem full_jnl : full.jnlFull = true := by
  refine decide_eq_true ?_
  show 8176 ≤ (List.replicate 8176 entry).length
  exact Nat.le_of_eq List.length_replicate.symm

/-- That device without a resident line. -/
def noLines (j : FJob) : State := { filet j (resultOp 0 5) with mem := { stocked.mem with llc := [], dir := [] } }

/-- That device without a panel. -/
def noPanels (j : FJob) : State := { filet j (resultOp 0 5) with mem := { stocked.mem with dir := [] } }

/-- A sampler slot of another event. -/
def otherSlot : SmpSlot := { slot with keep := { slot.keep with code := 0x0002 } }

/-- `n` slots from slot `a` on, all of that event. -/
def slotsFrom : Nat → Nat → Table SmpSlot
  | _, 0 => []
  | a, n + 1 => (a, otherSlot) :: slotsFrom (a + 1) n

theorem slotsFrom_has (a n k : Nat) (h1 : a ≤ k) (h2 : k < a + n) : (slotsFrom a n).has k = true := by
  induction n generalizing a with
  | zero => omega
  | succ n ih =>
    by_cases h : a = k
    · simp [Table.has, slotsFrom, Table.find, h]
    · have e := ih (a + 1) (by omega) (by omega)
      simpa [Table.has, slotsFrom, Table.find, h] using e

theorem slotsFrom_full (m : Nat) : ∀ n lo, lo + n ≤ m → (slotsFrom 0 m).firstFree lo n = none := by
  intro n
  induction n with
  | zero => intro lo _; rfl
  | succ n ih =>
    intro lo h
    rw [Table.firstFree, if_pos (slotsFrom_has 0 m lo (Nat.zero_le _) (by omega))]
    exact ih (lo + 1) (by omega)

theorem slotsFrom_other (p : Nat × SmpSlot → Bool) (h : ∀ a, p (a, otherSlot) = false) (n : Nat) : ∀ a, (slotsFrom a n).find? p = none := by
  induction n with
  | zero => intro a; rfl
  | succ n ih => intro a; rw [slotsFrom, List.find?_cons, h a]; exact ih (a + 1)

/-- An occurrence waits on island 24, and every slot is used by another event. -/
def allUsed : State := sampled (slotsFrom 0 2048)

/-! ### Ill-formed commands, one for each check of WellFormed: the check refuses each, and so does the model -/

/-- Refused by the check, and a fault of the model. -/
def refused (c : Instr) : Bool := !c.wf && (match exec c live with | .fault .noSuchUnit => true | _ => false)

theorem test_ill_formed :
    ([.frameTransmit 8, .pfcReceive 0 1 ⟨[1, 2, 3, 4, 5, 6, 7], 64⟩, .pfcReceive 8 1 ⟨List.replicate 8 0, 64⟩, .pfcPauseExpire 7 8, .pfcXoffRepeat 8 7,
     .openRx 8, .idleTimeout 0xFFFF, .noticeGapEnd 0xFFFF 0x4001 3, .regionCreate 16, .retest 16 anySelfTest anyHoldTest,
     .rowOpenTimeout (2 ^ 34) 8, .programComplete 0 9 [] 1, .flitCrcFail 9 false, .basRead .hkp 9, .lineEvict (2 ^ 56),
     .mappingFillDone 29360128, .moveFinish 64, .passDone 144 [] false, .audit (9 * 2 ^ 17) [], .heartbeatSend 16, .dieCheckDone 72 ⟨true, []⟩,
     .dramPause 2 [] [], .wayCleanDone 32 0, .wayJoinDone 0 16, .rdShared 27 0, .upgrade 0 (2 ^ 56), .drop 4 1, .staleTailExpire 65536,
     .jtagUnlockSig 256 0 (zeros 96), .jtagUnlockSig 0 256 (zeros 96), .jtagUnlockSig 0 0 (zeros 95), .dmaRefused 0 0, .dmaRefused 1 (2 ^ 64),
     .fwpWrite .hkp 8192 0, .pmcValueRead .hkp 512, .railFault 10, .samplerOccurrence 46,
     .samplerGapExpire 2049, .routeAckSend 64] : List Instr).all refused = true := by decide +kernel

/-! ### Results the spec gives -/

/-- A property of the next state. -/
def ok (r : Result) (p : State → Bool) : Bool := match r with | .next t => p t | _ => false

/-- The status and payload with which operation 1 is answered. -/
def answer1 (s : State) : Option (Status × List Byte) :=
  match s.host.ops.find 1 with
  | some o => match o.phase with | .done r => some (r.status, r.payload) | _ => none
  | none => none

/-- A queued operation on a device whose line 0 of region 1 begins with these bytes. -/
def onLine (b : List Nat) (o : Op) : State := (withOp o).writeRange (at3 0) (bytes b)

/-- An atomic of 8 bytes on line 0 with its operand. -/
def atomic (subop : Nat) (operand : List Nat) : Op := op (stitch 4 subop 8 (at3 0) (bytes operand))

/-- Eight bytes read at address `a`, beside status and payload. -/
def after (r : Result) (a : Nat) (st : Status) (payload mem : List Nat) : Bool :=
  ok r fun t => answer1 t == some (st, bytes payload) && t.readRange a mem.length == bytes mem

-- The example after R75: a frame of MAX_FRAME 9,216 over IPv4 without MACsec has 9,142 bytes for stitches.
theorem test_frame_space : frameSpace 9216 false false = 9142 := by decide

-- The example under Table 05-7: physical swatch 0x0A35C17, line 0x135.
theorem test_stripe_place :
    let p := 0x0A35C17 * 512 + 0x135
    (List.range 9).map (fragStack p) = [5, 6, 7, 8, 0, 1, 2, 3, 4] ∧
    (List.range 9).all (fun f => fragDie p f == fragStack p f * 8 + (7 + fragStack p f) % 8) = true ∧
    lineBank p = 4 * 5 + 3 ∧ lineRow p = 0x146B82 ∧ lineSlot p = 4 := by decide

-- The examples of chapters 15 (T_h) and 06 (C).
theorem test_holdup : (holdup 30000 92 { v1 := 48000, v2 := 46760, power := 55200, time := 50000 }).1 = 412 := by decide
theorem test_ceiling : ({ live with pwr := { live.pwr with tH := 412, holdFail := 0 } } : State).ceilingMib = 7424 := by decide

-- The example of chapter 07: a narrow column 127, −40, 3, 0.
theorem test_narrow_scale : scaleOf false [127, -40, 3, 0] = 0x4C8A := by decide +kernel
theorem test_narrow_weights : quantise 0x4C8A [127, -40, 3, 0] = [7, -2, 0, 0] := by decide +kernel

-- The examples of chapters 10 (home slice), 11 (DRAM group) and 12 (words and cells).
theorem test_home_slice : homeSlice (lineKey 0xFF00000004123400) = 4 := by decide
theorem test_dram_group : dramGroup 0x26A345700 = 1 ∧ dramPlace false 0x26A345700 = (11, 12, 0x9A8D, 2) := by decide
theorem test_packet_size : wordsOf 300 = 43 ∧ cellsOf 300 = 6 := by decide

-- The example after R99: the READ touches five sectors, and the third is poisoned.
theorem test_read_sectors :
    (linesOf 0x03000012345678C0 300).map (fun ln => coverOf ln 0x03000012345678C0 300) = [(192, 256), (0, 236)] ∧
    poisonMask [false, false, true, false, false] = [4] := by decide

-- R99: a poisoned READ answers OK_POISON; its mask follows the data.
theorem test_read_clean :
    ok (exec (.read 1) (onLine [1, 2, 3, 4, 5, 6, 7, 8] (op (memStitch 1 0 (at3 0))))) (fun t => answer1 t == some (.ok, bytes [1, 2, 3, 4, 5, 6, 7, 8])) = true := by
  decide +kernel
theorem test_read_poisoned :
    ok (exec (.read 1) (withOp (op (memStitch 1 0 (at3 (32 * 256)))))) (fun t => (answer1 t).any (fun x => x.1 == .okPoison && x.2.length == 9)) = true := by
  decide +kernel

-- The example under Table 04-2: a range that runs out of its region is ADDRESS before any key is examined; a key of no region is KEY (R115).
theorem test_read_past_region :
    ok (exec (.read 1) (withOp (op (stitch 1 0 8 (4 * 2 ^ 56 + 2 ^ 30 - 4) [])))) (fun t => answer1 t == some (.address, [])) = true := by decide +kernel
theorem test_read_other_key :
    ok (exec (.read 1) (withOp (op (stitch 1 0 8 (4 * 2 ^ 56) [])))) (fun t => answer1 t == some (.key, [])) = true := by decide +kernel

theorem test_write : after (exec (.write 1) (onLine [9, 9, 9, 9, 9, 9, 9, 9, 9] (op (memStitch 2 0 (at3 0))))) (at3 0) .ok []
    [1, 2, 3, 4, 5, 6, 7, 8, 9] = true := by decide +kernel

-- R103: the old value is returned; FETCH_ADD wraps; the signed and the unsigned minimum differ.
theorem test_fetch_add_wraps : after (exec (.fetchAdd 1) (onLine [255, 255, 255, 255, 255, 255, 255, 255] (atomic 0 [2, 0, 0, 0, 0, 0, 0, 0])))
    (at3 0) .ok [255, 255, 255, 255, 255, 255, 255, 255] [1, 0, 0, 0, 0, 0, 0, 0] = true := by decide +kernel
theorem test_swap : after (exec (.swap 1) (onLine [1, 2, 3, 4, 5, 6, 7, 8] (atomic 1 [8, 7, 6, 5, 4, 3, 2, 1])))
    (at3 0) .ok [1, 2, 3, 4, 5, 6, 7, 8] [8, 7, 6, 5, 4, 3, 2, 1] = true := by decide +kernel
theorem test_fetch_and : after (exec (.fetchAnd 1) (onLine [15, 0, 0, 0, 0, 0, 0, 3] (atomic 3 [6, 1, 0, 0, 0, 0, 0, 2])))
    (at3 0) .ok [15, 0, 0, 0, 0, 0, 0, 3] [6, 0, 0, 0, 0, 0, 0, 2] = true := by decide +kernel
theorem test_fetch_or : after (exec (.fetchOr 1) (onLine [15, 0, 0, 0, 0, 0, 0, 3] (atomic 4 [16, 1, 0, 0, 0, 0, 0, 2])))
    (at3 0) .ok [15, 0, 0, 0, 0, 0, 0, 3] [31, 1, 0, 0, 0, 0, 0, 3] = true := by decide +kernel
theorem test_fetch_xor : after (exec (.fetchXor 1) (onLine [15, 0, 0, 0, 0, 0, 0, 3] (atomic 5 [6, 1, 0, 0, 0, 0, 0, 2])))
    (at3 0) .ok [15, 0, 0, 0, 0, 0, 0, 3] [9, 1, 0, 0, 0, 0, 0, 1] = true := by decide +kernel
theorem test_fetch_min_signed : after (exec (.fetchMinS 1) (onLine [1, 0, 0, 0, 0, 0, 0, 0] (atomic 6 [0, 0, 0, 0, 0, 0, 0, 128])))
    (at3 0) .ok [1, 0, 0, 0, 0, 0, 0, 0] [0, 0, 0, 0, 0, 0, 0, 128] = true := by decide +kernel
theorem test_fetch_max_signed : after (exec (.fetchMaxS 1) (onLine [1, 0, 0, 0, 0, 0, 0, 0] (atomic 7 [0, 0, 0, 0, 0, 0, 0, 128])))
    (at3 0) .ok [1, 0, 0, 0, 0, 0, 0, 0] [1, 0, 0, 0, 0, 0, 0, 0] = true := by decide +kernel
theorem test_fetch_min_unsigned : after (exec (.fetchMinU 1) (onLine [1, 0, 0, 0, 0, 0, 0, 0] (atomic 8 [0, 0, 0, 0, 0, 0, 0, 128])))
    (at3 0) .ok [1, 0, 0, 0, 0, 0, 0, 0] [1, 0, 0, 0, 0, 0, 0, 0] = true := by decide +kernel
theorem test_fetch_max_unsigned : after (exec (.fetchMaxU 1) (onLine [1, 0, 0, 0, 0, 0, 0, 0] (atomic 9 [0, 0, 0, 0, 0, 0, 0, 128])))
    (at3 0) .ok [1, 0, 0, 0, 0, 0, 0, 0] [0, 0, 0, 0, 0, 0, 0, 128] = true := by decide +kernel

-- R106: the pattern fills the range.
theorem test_fill : after (exec (.fill 1) (withOp (op (stitch 6 0 24 (at3 8) (bytes [1, 2, 3, 4, 5, 6, 7, 8]))))) (at3 0) .ok []
    [0, 0, 0, 0, 0, 0, 0, 0, 1, 2, 3, 4, 5, 6, 7, 8, 1, 2, 3, 4, 5, 6, 7, 8, 1, 2, 3, 4, 5, 6, 7, 8, 0] = true := by decide +kernel

-- R105: line 0 receives what line 16 holds.
theorem test_copy : after (exec (.copy 1) ((withOp (op (memStitch 5 0 (at3 0)))).writeRange (at3 4096) (bytes [8, 7, 6, 5, 4, 3, 2, 1])))
    (at3 0) .ok [] [8, 7, 6, 5, 4, 3, 2, 1] = true := by decide +kernel

-- Table 02-2: a bad FCS is found before a runt; a frame that passes has no cause.
theorem test_bad_fcs : live.rxCause 0 { frame .arpOther with fcsOk := false, len := 60 } = 2 := by decide
theorem test_runt : live.rxCause 0 { frame .arpOther with len := 60 } = 3 := by decide

-- The example of chapter 12: 300 bytes reserve 6 cells and wait for 43 words; the next pop of a packet of 2 words has tag 0xC7, then 0xA7.
theorem test_packet_start :
    ok (exec (.packetStart 1 (BitVec.ofNat 64 (256 + 300 * 2 ^ 16))) (bobs { bobbin with pkts := [] } PushWin.idle))
      (fun t => (t.pushWin 1).left == 43 && (t.pushWin 1).status == 0 && t.bobCells 256 == 6) = true := by decide +kernel
theorem test_pop_first :
    ok (exec (.pop 0 .clean) (bobs bobbin PushWin.idle)) (fun t => t.seen.toNat / 2 ^ 56 == 0xC7) = true := by decide +kernel
theorem test_pop_last :
    ok (exec (.pop 0 .clean) (bobs { bobbin with popped := 1 } PushWin.idle)) (fun t => t.seen.toNat / 2 ^ 56 == 0xA7 && t.bobCells 256 == 0) = true := by
  decide +kernel
theorem test_pop_empty : ok (exec (.pop 0 .clean) (bobs { bobbin with pkts := [] } PushWin.idle)) (fun t => t.seen == 0) = true := by decide +kernel

/-- The STANDBY state of the example of chapter 18, with the offset that a REG_ADDR set. -/
def standby (off : Nat) : State :=
  let s := put State.reset [(Reg.pwrLastFault, 0x19C00000708)]
  { s with power := .standby, mbx := { s.mbx with smb := { s.mbx.smb with regAddr := off } } }

-- The example of chapter 18: PWR_LAST_FAULT over SMBus in STANDBY; STK is UNAVAILABLE there.
theorem test_smbus_register :
    ok (exec .regDataRead (standby 0x110038)) (fun t => t.mbx.smb.out == [bytes [8, 7, 0, 0, 0x9C, 1, 0, 0]] && t.mbx.smb.regAddr == 0x110040 &&
      t.mbx.smb.regStatus == .ok) = true := by decide +kernel
theorem test_smbus_unavailable :
    ok (exec .regDataRead (standby 0x086008)) (fun t => t.mbx.smb.out == [zeros 8] && t.mbx.smb.regStatus == .unavailable) = true := by decide +kernel

-- R480: PB_N low for 4 s asks for off, for 8 s it is not a release's to decide, between them it is ignored and counted.
theorem test_pb_ignored : ok (exec (.pbRelease 7999) live) (fun t => t.regs == (live.count (Reg.pwrCount 6) 1).regs && !t.pwr.hold) = true := by decide +kernel
theorem test_pb_off : ok (exec (.pbRelease 4000) live) (fun t => t.pwr.hold && t.pwr.cause == 1) = true := by decide +kernel

-- The example of chapter 04: a region that exists already at an unaligned base is refused with ALIGN.
theorem test_region_align :
    ok (exec (.regionCreate 0) (ask stocked 0x0201 (leBytes 2 1 ++ bytes [3, 0] ++ zeros 4 ++ leBytes 8 5 ++ leBytes 8 (2 ^ 30))))
      (fun t => (t.box 0).status == .align) = true := by decide +kernel

/-! ### Witnesses of the statements' hypotheses -/

theorem witness_EmptyQueuePassesOneMicrosecond :
    ∃ (s : State), s.pending = [] :=
  ⟨live, by decide⟩

theorem witness_SoundnessIsKeptByEveryStep :
    ∃ (s : State) (t : State), s.Sound ∧ step s = .next t :=
  ⟨State.reset, _, ⟨rfl, ⟨by decide, by decide, by decide, by decide, by decide, by decide, by decide, by decide, by decide, by decide⟩, ⟨by decide,
    by decide⟩, fun _ => Nat.zero_le _, Nat.zero_le _, nofun⟩, rfl⟩

theorem witness_MemoryTablesStayCanonical :
    (∃ (s : State) (t : State), step s = .next t ∧ s.mem.med.wf = true) ∧
    (∃ (s : State) (t : State), step s = .next t ∧ s.mem.llc.wf = true) ∧
    (∃ (s : State) (t : State), step s = .next t ∧ s.mem.evb.wf = true) ∧
    (∃ (s : State) (t : State), step s = .next t ∧ s.mem.tier.wf = true) ∧
    (∃ (s : State) (t : State), step s = .next t ∧ s.mem.intern.wfD 0 = true) ∧
    (∃ (s : State) (t : State), step s = .next t ∧ s.mem.nodes.wf = true) ∧
    (∃ (s : State) (t : State), step s = .next t ∧ s.mem.prk.wfD Prk.unwritten = true) ∧
    (∃ (s : State) (t : State), step s = .next t ∧ s.mem.ldg.wfD Ldg.unused = true) ∧
    (∃ (s : State) (t : State), step s = .next t ∧ s.regs.wfD 0 = true) :=
  ⟨⟨live, _, rfl, by decide⟩,
    ⟨live, _, rfl, by decide⟩,
    ⟨live, _, rfl, by decide⟩,
    ⟨live, _, rfl, by decide⟩,
    ⟨live, _, rfl, by decide⟩,
    ⟨live, _, rfl, by decide⟩,
    ⟨live, _, rfl, by decide⟩,
    ⟨live, _, rfl, by decide⟩,
    ⟨live, _, rfl, by decide⟩⟩

theorem witness_IslandQueuesHoldAtMostSixteen :
    ∃ (s : State) (t : State), s.QueuesBounded ∧ step s = .next t :=
  ⟨live, _, fun _ => Nat.zero_le _, rfl⟩

theorem witness_JournalRingHoldsAtMost8192 :
    (∃ (s : State) (t : State), step s = .next t ∧ s.RingBounded) ∧
    (∃ (s : State) (t : State), step s = .next t) :=
  ⟨⟨live, _, rfl, Nat.zero_le _⟩,
    ⟨live, _, rfl⟩⟩

theorem witness_FactoryStateEndsForGood :
    (∃ (s : State) (t : State), step s = .next t ∧ s.kept.factory = false) ∧
    (∃ (s : State) (t : State), step s = .next t ∧ s.kept.factory = false ∧ s.kept.adminKeys ≠ []) :=
  ⟨⟨locked, _, rfl, by decide⟩,
    ⟨locked, _, rfl, by decide⟩⟩

theorem witness_OnlyTwoCommandsChangeTheLocks :
    (∃ (c : Instr) (s : State) (t : State), exec c s = .next t ∧ (∀ m, c ≠ .provisionLock m)) ∧
    (∃ (c : Instr) (s : State) (t : State), exec c s = .next t ∧ (∀ m, c ≠ .adminKeySet m)) :=
  ⟨⟨.levelPeriod, live, _, rfl, by simp⟩,
    ⟨.levelPeriod, live, _, rfl, by simp⟩⟩

theorem witness_SecurityVersionFloorNeverFalls :
    ∃ (s : State) (t : State), step s = .next t :=
  ⟨live, _, rfl⟩

theorem witness_CommandsTakeNoTimeAndLeaveTheQueue :
    ∃ (c : Instr) (s : State) (t : State), exec c s = .next t :=
  ⟨.levelPeriod, live, _, rfl⟩

theorem witness_WellFormedCommandsAlwaysComplete :
    ∃ (c : Instr), c.wf = true :=
  ⟨.pfcPauseExpire 7 7, by decide⟩

theorem witness_CommandsOnMissingUnitsStop :
    ∃ (c : Instr), c.wf = false :=
  ⟨.pfcPauseExpire 8 0, by decide⟩

theorem witness_EveryCommandKeepsItsFrame :
    ∃ (c : Instr) (s : State) (t : State) (a : Area), exec c s = .next t ∧ a ∉ Instr.mayChange c :=
  ⟨.pfcPauseExpire 0 0, live, _, .mem, rfl, by decide⟩

theorem witness_PortsReceiveFramesAndPauses :
    (∃ (u : State) (s : State) (p : Nat) (f : EthFrame), p < 8 ∧ p < u.portCount ∧ u.portUp p = true ∧ s = f.fec.foldl (fun t w => t.fecCount p w) u ∧
      s.rxCause p f = 0 ∧ (s.macsec p = false ∨ f.ctrl ≠ none)) ∧
    (∃ (u : State) (s : State) (p : Nat) (f : EthFrame), p < 8 ∧ p < u.portCount ∧ u.portUp p = true ∧ s = f.fec.foldl (fun t w => t.fecCount p w) u ∧
      s.rxCause p f = 0 ∧ s.macsec p = true ∧ f.ctrl = none) ∧
    (∃ (u : State) (s : State) (p : Nat) (f : EthFrame), p < 8 ∧ p < u.portCount ∧ u.portUp p = true ∧ s = f.fec.foldl (fun t w => t.fecCount p w) u ∧
      s.rxCause p f ≠ 0 ∧ s.rxCause p f ≤ 0x0C) ∧
    (∃ (u : State) (s : State) (p : Nat) (f : EthFrame), p < 8 ∧ p < u.portCount ∧ u.portUp p = true ∧ s = f.fec.foldl (fun t w => t.fecCount p w) u ∧
      0x0C < s.rxCause p f) ∧
    (∃ (s : State) (p : Nat) (m : BitVec 8) (q : PfcPause), p < 8 ∧ q.quanta.length = 8 ∧ p < s.portCount ∧ s.portUp p = true ∧ s.rxCause p (pfcFrame
      m q) = 0) ∧
    (∃ (s : State) (p : Nat) (m : BitVec 8) (q : PfcPause), p < 8 ∧ q.quanta.length = 8 ∧ p < s.portCount ∧ s.portUp p = true ∧ s.rxCause p (pfcFrame
      m q) ≠ 0) ∧
    (∃ (s : State) (p : Nat) (c : Nat) (d : Nat), p < 8 ∧ c < 8 ∧ s.host.pause.find (8 * p + c) = some d ∧ d ≤ s.now ∧ s.overtaken d (s.pausing p c) =
      false) ∧
    (∃ (s : State) (p : Nat) (c : Nat) (d : Nat) (b : Bool), p < 8 ∧ c < 8 ∧ s.host.xoff.find (8 * p + c) = some (d, b) ∧ d ≤ s.now ∧ s.xoffHolds p c
      = true) ∧
    (∃ (s : State) (p : Nat) (c : Nat) (d : Nat) (b : Bool), p < 8 ∧ c < 8 ∧ s.host.xoff.find (8 * p + c) = some (d, b) ∧ d ≤ s.now ∧ s.xoffHolds p c
      = false) :=
  ⟨⟨live, _, 0, frame (.arpRequest 0x0A000001), by decide, by decide, by decide, rfl, by decide, Or.inl (by decide)⟩,
    ⟨secured, _, 0, securedFrame, by decide, by decide, by decide, rfl, by decide⟩,
    ⟨live, _, 0, { frame .other with tag := none }, by decide, by decide, by decide, rfl, by decide⟩,
    ⟨live, _, 0, frame .other, by decide, by decide, by decide, rfl, by decide⟩,
    ⟨live, 0, 1, { quanta := List.replicate 8 0, len := 64 }, by decide⟩,
    ⟨live, 0, 128, { quanta := List.replicate 8 0, len := 63 }, by decide⟩,
    ⟨holding, 0, 7, 5, by decide⟩,
    ⟨crowded, 0, 7, 5, true, by decide⟩,
    ⟨holding, 0, 7, 5, true, by decide⟩⟩

theorem witness_PortsTransmitAndChangeLink :
    (∃ (s : State) (p : Nat) (f : TxFrame) (rest : List TxFrame), p < 8 ∧ s.mayTransmit p = true ∧ pickTx (s.txBlocked p) (s.host.txq.get p []) = some
      (f, rest) ∧ f.len (s.macsec p) ≤ s.maxFrame p ∧ s.macsec p = false) ∧
    (∃ (s : State) (p : Nat) (i : Nat) (a : MacSa) (f : TxFrame) (rest : List TxFrame), p < 8 ∧ s.mayTransmit p = true ∧ pickTx (s.txBlocked p)
      (s.host.txq.get p []) = some (f, rest) ∧ f.len (s.macsec p) ≤ s.maxFrame p ∧ s.macsec p = true ∧ s.txSa p = some (i, a) ∧ a.canSend = true) ∧
    (∃ (s : State) (p : Nat) (f : TxFrame) (rest : List TxFrame), p < 8 ∧ s.mayTransmit p = true ∧ pickTx (s.txBlocked p) (s.host.txq.get p []) = some
      (f, rest) ∧ f.len (s.macsec p) ≤ s.maxFrame p ∧ s.macsec p = true ∧ (∀ i a, s.txSa p = some (i, a) → a.canSend = false)) ∧
    (∃ (s : State) (p : Nat) (f : TxFrame) (rest : List TxFrame), p < 8 ∧ s.mayTransmit p = true ∧ pickTx (s.txBlocked p) (s.host.txq.get p []) = some
      (f, rest) ∧ s.maxFrame p < f.len (s.macsec p)) ∧
    (∃ (s : State) (p : Nat) (d : Nat) (a : Attempt), p < 8 ∧ s.host.train.find p = some a ∧ a.due = some d ∧ d ≤ s.now ∧ s.overtaken d (linksUp p) =
      false ∧ s.portUp p = false) ∧
    (∃ (s : State) (u : State) (p : Nat), p < 8 ∧ p < s.portCount ∧ s.portEnabled p = true ∧ s.portUp p = false ∧ u = ((s.setFlag (Reg.ethPortStatus
      p) 0).clrFlag (Reg.ethPortStatus p) 1).setFld (Reg.ethPortStatus p) 5 2 (2 ^ s.portLanes - 1)) ∧
    (∃ (s : State) (p : Nat), s.ipv4 p = 0 ∧ s.ipv6 p = 0) ∧
    (∃ (s : State) (p : Nat), s.ipv4 p ≠ 0 ∧ s.ipv6 p = 0) ∧
    (∃ (s : State) (p : Nat), s.ipv4 p = 0 ∧ s.ipv6 p ≠ 0) ∧
    (∃ (s : State) (p : Nat), s.ipv4 p ≠ 0 ∧ s.ipv6 p ≠ 0) ∧
    (∃ (s : State) (p : Nat), p < 8 ∧ p < s.portCount ∧ s.portUp p = true ∧ s.portEnabled p = true) ∧
    (∃ (s : State) (p : Nat), p < 8 ∧ p < s.portCount ∧ s.portUp p = true ∧ s.portEnabled p = false) ∧
    (∃ (s : State) (p : Nat), p < 8 ∧ p < s.portCount ∧ s.portUp p = true ∧ s.host.closing.contains p = true ∧ s.portEnabled p = false) ∧
    (∃ (s : State) (p : Nat), p < 8 ∧ p < s.portCount ∧ s.portUp p = true ∧ s.host.closing.contains p = true ∧ s.portEnabled p = true) :=
  ⟨⟨sending, 0, waits, [], by decide⟩,
    ⟨sealing, 0, 0, sa, waits, [], by decide⟩,
    ⟨exhausted, 0, waits, [], by decide, by decide, by decide, by decide, by decide, exhausted_sa⟩,
    ⟨{ live with host := { live.host with txq := [(0, [{ waits with body := .shuttle (zeros 9200) }])] } }, 0, _, _, by decide, by decide, rfl,
      by decide +kernel⟩,
    ⟨down, 0, 5, _, by decide, rfl, rfl, by decide⟩,
    ⟨down, _, 0, by decide, by decide, by decide, by decide, rfl⟩,
    ⟨put down [(Reg.ethIpv4 0, 0)], 0, by decide⟩,
    ⟨down, 0, by decide⟩,
    ⟨put down [(Reg.ethIpv4 0, 0), (Reg.ethIpv6Lo 0, 1)], 0, by decide⟩,
    ⟨put down [(Reg.ethIpv6Lo 0, 1)], 0, by decide⟩,
    ⟨live, 0, by decide⟩,
    ⟨put live [(Reg.ethPortCfg 0, 0)], 0, by decide⟩,
    ⟨{ put live [(Reg.ethPortCfg 0, 0)] with host := { live.host with closing := [0] } }, 0, by decide⟩,
    ⟨{ live with host := { live.host with closing := [0] } }, 0, by decide⟩⟩

theorem witness_FramesOfAConnectionAreTaken :
    (∃ (s : State) (s1 : State) (e : Nat) (d : Delivered) (h : FrameHdr) (c : Conn) (g : Grant), s.Arrives e 0 d s1 h c g ∧ seqAfter h.seq c.ack =
      true ∧ seqDiff h.seq c.ack = 1) ∧
    (∃ (s : State) (s1 : State) (e : Nat) (d : Delivered) (h : FrameHdr) (c : Conn) (g : Grant), s.Arrives e 4 d s1 h c g ∧ seqAfter h.seq c.ack =
      true ∧ seqDiff h.seq c.ack = 1) ∧
    (∃ (s : State) (s1 : State) (e : Nat) (d : Delivered) (h : FrameHdr) (c : Conn) (g : Grant), s.Arrives e 1 d s1 h c g ∧ h.ackReq = true) ∧
    (∃ (s : State) (s1 : State) (e : Nat) (d : Delivered) (h : FrameHdr) (c : Conn) (g : Grant), s.Arrives e 1 d s1 h c g ∧ h.ackReq = false) ∧
    (∃ (s : State) (s1 : State) (e : Nat) (d : Delivered) (h : FrameHdr) (c : Conn) (g : Grant), s.Arrives e 6 d s1 h c g) ∧
    (∃ (s : State) (s1 : State) (e : Nat) (d : Delivered) (h : FrameHdr), e < 8 ∧ s.takeFront e = some (d, s1) ∧ classify d.bytes = .good h ∧ h.ftype
      = 2 ∧ s1.host.conns.find? (fun x => x.2.nonce == beAt d.bytes 24 4 && x.2.openSrc.ip == d.peer.ip && x.2.openSrc.udp == d.peer.udp && x.2.st !=
      .closing) = none ∧ s1.openRefusal d (beAt d.bytes 34 2) (beAt d.bytes 28 2) = none) ∧
    (∃ (s : State) (s1 : State) (e : Nat) (id : Nat) (d : Delivered) (h : FrameHdr) (c : Conn), e < 8 ∧ s.takeFront e = some (d, s1) ∧ classify
      d.bytes = .good h ∧ h.ftype = 2 ∧ s1.host.conns.find? (fun x => x.2.nonce == beAt d.bytes 24 4 && x.2.openSrc.ip == d.peer.ip && x.2.openSrc.udp
      == d.peer.udp && x.2.st != .closing) = some (id, c)) :=
  ⟨⟨inFront conn (arrived 0 11 (stitchBytes (stitch 1 0 8 0 []))), _, 0, _, _, _, _, ⟨by decide, ⟨_, rfl, rfl, rfl, rfl⟩, rfl, rfl, by decide,
      by decide⟩, by decide⟩,
    ⟨inFront conn (arrived 4 11 []), _, 0, _, _, _, _, ⟨by decide, ⟨_, rfl, rfl, rfl, rfl⟩, rfl, rfl, by decide, by decide⟩, by decide⟩,
    ⟨inFront conn (arrived 1 10 []), _, 0, _, _, _, _, ⟨by decide, ⟨_, rfl, rfl, rfl, rfl⟩, rfl, rfl, by decide, by decide⟩, by decide⟩,
    ⟨inFront conn quiet, _, 0, _, _, _, _, ⟨by decide, ⟨_, rfl, rfl, rfl, rfl⟩, rfl, rfl, by decide, by decide⟩, by decide⟩,
    ⟨inFront conn (arrived 6 10 (zeros 8)), _, 0, _, _, _, _, ⟨by decide, ⟨_, rfl, rfl, rfl, rfl⟩, rfl, rfl, by decide, by decide⟩⟩,
    ⟨inFront conn (arrived 2 0 (openBody 1 9216)), _, 0, _, _, by decide, rfl, rfl, by decide, rfl, by decide⟩,
    ⟨inFront { conn with nonce := 6 } (arrived 2 0 (openBody 1 9216)), _, 0, 8, _, _, _, by decide, rfl, rfl, by decide, rfl⟩⟩

theorem witness_DuplicateStaleAndRefusedFrames :
    (∃ (s : State) (s1 : State) (e : Nat) (d : Delivered) (h : FrameHdr) (c : Conn) (g : Grant), s.Arrives e 0 d s1 h c g ∧ seqAfter h.seq c.ack =
      false ∧ seqAfter h.seq c.done = false) ∧
    (∃ (s : State) (s1 : State) (e : Nat) (d : Delivered) (h : FrameHdr) (c : Conn) (g : Grant), s.Arrives e 0 d s1 h c g ∧ seqAfter h.seq c.ack =
      true ∧ 32 < seqDiff h.seq c.ack) ∧
    (∃ (s : State) (s1 : State) (e : Nat) (d : Delivered) (h : FrameHdr) (c : Conn), e < 8 ∧ s.takeFront e = some (d, s1) ∧ classify d.bytes = .good h
      ∧ h.ftype = 0 ∧ s1.host.conns.find h.connId = some c ∧ s1.sourceOk c d.peer.ip = false) ∧
    (∃ (s : State) (s1 : State) (e : Nat) (d : Delivered) (h : FrameHdr), e < 8 ∧ s.takeFront e = some (d, s1) ∧ classify d.bytes = .good h ∧ h.ftype
      = 0 ∧ s1.host.conns.find h.connId = none) ∧
    (∃ (s : State) (s1 : State) (e : Nat) (r : Nat) (d : Delivered) (h : FrameHdr), e < 8 ∧ s.takeFront e = some (d, s1) ∧ classify d.bytes = .good h
      ∧ h.ftype = 2 ∧ s1.host.conns.find? (fun x => x.2.nonce == beAt d.bytes 24 4 && x.2.openSrc.ip == d.peer.ip && x.2.openSrc.udp == d.peer.udp &&
      x.2.st != .closing) = none ∧ s1.openRefusal d (beAt d.bytes 34 2) (beAt d.bytes 28 2) = some r) :=
  ⟨⟨inFront { conn with done := 10 } (arrived 0 10 (stitchBytes (stitch 1 0 8 0 []))), _, 0, _, _, _, _, ⟨by decide, ⟨_, rfl, rfl, rfl, rfl⟩, rfl,
      rfl, by decide, by decide⟩, by decide⟩,
    ⟨inFront conn (arrived 0 43 (stitchBytes (stitch 1 0 8 0 []))), _, 0, _, _, _, _, ⟨by decide, ⟨_, rfl, rfl, rfl, rfl⟩, rfl, rfl, by decide,
      by decide⟩, by decide⟩,
    ⟨inFront conn { arrived 0 11 (stitchBytes (stitch 1 0 8 0 [])) with peer := { host with ip := { v6 := false, addr := 0x0B000002 } } }, _, 0, _, _,
      _, by decide, rfl, rfl, by decide, rfl, by decide⟩,
    ⟨{ inFront conn (arrived 0 11 (stitchBytes (stitch 1 0 8 0 []))) with host := { (inFront conn (arrived 0 11 (stitchBytes (stitch 1 0 8 0 [])))).host with conns := [] } },
      _, 0, _, _, by decide, rfl, rfl, by decide⟩,
    ⟨inFront conn (arrived 2 0 (openBody 2 9216)), _, 0, 2, _, _, by decide, rfl, rfl, by decide, rfl, by decide⟩⟩

theorem witness_ConnectionTimersAct :
    (∃ (s : State) (id : Nat) (c : Conn), id < 0xFFFF ∧ s.host.conns.find id = some c ∧ c.st = .halfOpen ∧ c.openDue ≤ s.now ∧ s.validWaits id c (fun
      _ => true) = false) ∧
    (∃ (s : State) (id : Nat) (c : Conn), id < 0xFFFF ∧ s.host.conns.find id = some c ∧ c.st = .closing ∧ c.lingerDue ≤ s.now) ∧
    (∃ (s : State) (id : Nat) (c : Conn), id < 0xFFFF ∧ s.host.conns.find id = some c ∧ c.st = .opened ∧ c.idleDue ≤ s.now ∧ s.validWaits id c (fun _
      => true) = false) ∧
    (∃ (s : State) (id : Nat) (c : Conn), id < 0xFFFF ∧ s.host.conns.find id = some c ∧ c.st = .closing ∧ c.closeAcked = false ∧ s.host.ops.any (fun e
      => e.2.origin == .conn id c.gen) = false ∧ c.ready = []) ∧
    (∃ (s : State) (id : Nat) (d : Nat) (c : Conn), id < 0xFFFF ∧ s.host.conns.find id = some c ∧ c.ackDue = some d ∧ d ≤ s.now) ∧
    (∃ (s : State) (id : Nat) (d : Nat) (c : Conn), id < 0xFFFF ∧ s.host.conns.find id = some c ∧ c.coalDue = some d ∧ d ≤ s.now) ∧
    (∃ (s : State) (id : Nat) (c : Conn) (n : Notice), id < 0xFFFF ∧ s.host.conns.find id = some c ∧ c.notices.find? (fun n => s.due n.due &&
      !s.validWaits id c (fun h => acknowledges h.ack h.sack n.seq)) = some n ∧ n.retx < s.retryLimit) ∧
    (∃ (s : State) (id : Nat) (c : Conn) (n : Notice), id < 0xFFFF ∧ s.host.conns.find id = some c ∧ c.notices.find? (fun n => s.due n.due &&
      !s.validWaits id c (fun h => acknowledges h.ack h.sack n.seq)) = some n ∧ s.retryLimit ≤ n.retx) ∧
    (∃ (s : State) (id : Nat) (d : Nat) (c : Conn), id < 0xFFFF ∧ s.host.conns.find id = some c ∧ c.slowDue = some d ∧ d ≤ s.now ∧ c.slowRepeat =
      false ∧ s.aboveRates c = true) ∧
    (∃ (s : State) (id : Nat) (d : Nat) (c : Conn), id < 0xFFFF ∧ s.host.conns.find id = some c ∧ c.slowDue = some d ∧ d ≤ s.now ∧ c.slowRepeat =
      false ∧ s.aboveRates c = false) ∧
    (∃ (s : State) (id : Nat) (d : Nat) (c : Conn), id < 0xFFFF ∧ s.host.conns.find id = some c ∧ c.slowDue = some d ∧ d ≤ s.now ∧ c.slowRepeat = true
      ∧ s.aboveRates c = true) ∧
    (∃ (s : State) (id : Nat) (d : Nat) (c : Conn), id < 0xFFFF ∧ s.host.conns.find id = some c ∧ c.slowDue = some d ∧ d ≤ s.now ∧ c.slowRepeat = true
      ∧ s.aboveRates c = false) :=
  ⟨⟨withConn { conn with st := .halfOpen }, 8, _, by decide, rfl, by decide⟩,
    ⟨withConn { conn with st := .closing }, 8, _, by decide, rfl, by decide⟩,
    ⟨withConn conn, 8, _, by decide, rfl, by decide⟩,
    ⟨withConn { conn with st := .closing }, 8, _, by decide, rfl, by decide, by decide, rfl, by decide⟩,
    ⟨withConn conn, 8, 5, _, by decide, rfl, by decide⟩,
    ⟨withConn conn, 8, 5, _, by decide, rfl, by decide⟩,
    ⟨withConn { conn with notices := [notice 0] }, 8, _, _, by decide, rfl, rfl, by decide⟩,
    ⟨withConn { conn with notices := [notice 15] }, 8, _, _, by decide, rfl, rfl, by decide⟩,
    ⟨withConn { conn with slowStitch := 0, traffic := [(10 ^ 12, 1, 0)] }, 8, 5, _, by decide, rfl, by decide⟩,
    ⟨withConn conn, 8, 5, _, by decide, rfl, by decide⟩,
    ⟨withConn { conn with slowRepeat := true, slowStitch := 0, traffic := [(10 ^ 12, 1, 0)] }, 8, 5, _, by decide, rfl, by decide⟩,
    ⟨withConn { conn with slowRepeat := true }, 8, 5, _, by decide, rfl, by decide⟩⟩

theorem witness_MemoryStitchesBegin :
    (∀ c ∈ [(Instr.read, 1, 0), (.write, 2, 0), (.fetchAdd, 4, 0), (.swap, 4, 1), (.cmpSwap, 4, 2), (.fetchAnd, 4, 3), (.fetchOr, 4, 4), (.fetchXor,
      4, 5), (.fetchMinS, 4, 6), (.fetchMaxS, 4, 7), (.fetchMinU, 4, 8), (.fetchMaxU, 4, 9), (.copy, 5, 0), (.fill, 6, 0)], ∃ (s : State) (op : Nat)
      (o : Op), s.Ready op o ∧ o.st.opcode = c.2.1 ∧ o.st.subop = c.2.2 ∧ s.memCheck o = none) ∧
    (∀ c ∈ [(Instr.read, 1, 0), (.write, 2, 0), (.fetchAdd, 4, 0), (.swap, 4, 1), (.cmpSwap, 4, 2), (.fetchAnd, 4, 3), (.fetchOr, 4, 4), (.fetchXor,
      4, 5), (.fetchMinS, 4, 6), (.fetchMaxS, 4, 7), (.fetchMinU, 4, 8), (.fetchMaxU, 4, 9), (.copy, 5, 0), (.fill, 6, 0)], ∃ (s : State) (op : Nat)
      (o : Op) (st : _), s.Ready op o ∧ o.st.opcode = c.2.1 ∧ o.st.subop = c.2.2 ∧ s.memCheck o = some st) :=
  ⟨fun c hc => ⟨withOp (op (memStitch c.2.1 c.2.2 (at3 0))), 1, op (memStitch c.2.1 c.2.2 (at3 0)), ⟨rfl, rfl, (by revert c; decide)⟩,
      (by revert c; decide)⟩,
    fun c hc => ⟨withOp (op (memStitch c.2.1 c.2.2 (2 ^ 30))), 1, op (memStitch c.2.1 c.2.2 (2 ^ 30)), .address, ⟨rfl, rfl, (by revert c; decide)⟩,
      (by revert c; decide)⟩⟩

theorem witness_MemoryStitchesRunAtOnceOnResidentLines :
    ∀ c ∈ [(Instr.read, 1, 0), (.write, 2, 0), (.fetchAdd, 4, 0), (.swap, 4, 1), (.cmpSwap, 4, 2), (.fetchAnd, 4, 3), (.fetchOr, 4, 4), (.fetchXor, 4,
      5), (.fetchMinS, 4, 6), (.fetchMaxS, 4, 7), (.fetchMinU, 4, 8), (.fetchMaxU, 4, 9), (.copy, 5, 0), (.fill, 6, 0)], ∃ (s : State) (op : Nat) (o :
      Op), s.Ready op o ∧ o.st.opcode = c.2.1 ∧ o.st.subop = c.2.2 ∧ s.memCheck o = none ∧ o.mode ≠ .prepare ∧ s.isLocal o = true ∧ o.fails = [] ∧ (∀
      ln ∈ o.needs, (s.resident ln).isSome = true) ∧ (∀ ln ∈ o.needs, s.filling ln = false) ∧ s.gateHolds o.writes = false ∧ (∀ ln ∈ o.writes,
      s.lineGone ln = false) :=
  fun c hc => ⟨withOp (op (memStitch c.2.1 c.2.2 (at3 0))), 1, op (memStitch c.2.1 c.2.2 (at3 0)), ⟨rfl, rfl, (by revert c; decide)⟩,
    (by revert c; decide)⟩

theorem witness_MemoryStitchResults :
    (∃ (s : State) (o : Op), (s.rangePoison o.st.addr o.st.length).any (· == true) = false) ∧
    (∃ (s : State) (o : Op), (s.rangePoison o.st.addr o.st.length).any (· == true) = true) ∧
    (∃ (s : State) (o : Op), s.writePoison o.st.addr o.st.length = none) ∧
    (∃ (s : State) (o : Op), s.writePoison o.st.addr o.st.length ≠ none) ∧
    (∃ (s : State) (o : Op), (s.rangePoison o.src o.st.length).any (· == true) = false) ∧
    (∃ (s : State) (o : Op), (s.rangePoison o.src o.st.length).any (· == true) = true) ∧
    (∃ (s : State) (o : Op) (v : Nat), (s.rangePoison o.st.addr o.st.length).any (· == true) = false ∧ atomicStore o.st.subop o.st.length (leNat
      (s.readRange o.st.addr o.st.length)) o.st.payload = some v) ∧
    (∃ (s : State) (o : Op), (s.rangePoison o.st.addr o.st.length).any (· == true) = false ∧ o.st.subop = 2 ∧ leNat (s.readRange o.st.addr
      o.st.length) ≠ leNat (o.st.payload.take 16)) :=
  ⟨⟨stocked, op (memStitch 1 0 (at3 0)), by decide⟩,
    ⟨stocked, op (memStitch 1 0 (at3 (32 * 256))), by decide⟩,
    ⟨stocked, op (memStitch 2 0 (at3 248)), by decide⟩,
    ⟨stocked, op (memStitch 2 0 (at3 (32 * 256 + 3))), by decide⟩,
    ⟨stocked, op (memStitch 5 0 (at3 0)), by decide⟩,
    ⟨stocked, op { memStitch 5 0 (at3 0) with payload := leBytes 8 (at3 (32 * 256)) }, by decide⟩,
    ⟨stocked, op (memStitch 4 0 (at3 0)), _, by decide, rfl⟩,
    ⟨stocked, op (stitch 4 2 16 (at3 0) (bytes (List.replicate 32 1))), by decide, by decide, by decide +kernel⟩⟩

theorem witness_FillWritesItsPattern :
    ∃ (o : Op), o.mode ≠ .prepare ∧ o.st.opcode = 6 :=
  ⟨op (memStitch 6 0 (at3 255)), by decide⟩

theorem witness_StitchesThatAddressADevice :
    (∃ (s : State) (op : Nat) (o : Op), s.Ready op o ∧ o.st.opcode = 3 ∧ s.formCheck o.st = none ∧ s.pathUp = true ∧ s.lace.stopped = false ∧ o.late =
      false) ∧
    (∃ (s : State) (op : Nat) (o : Op) (st : Status), s.Ready op o ∧ o.st.opcode = 3 ∧ s.formCheck o.st = some st) ∧
    (∃ (s : State) (op : Nat) (o : Op), s.DeviceReady op 0x0A o ∧ o.st.subop = 0) ∧
    (∃ (s : State) (op : Nat) (o : Op), s.DeviceReady op 0x0A o ∧ o.st.subop = 1) ∧
    (∃ (s : State) (op : Nat) (o : Op), s.DeviceReady op 0x0B o ∧ s.hkpUp = true ∧ s.swapping = false) ∧
    (∃ (s : State) (op : Nat) (o : Op), s.DeviceReady op 0x0B o ∧ (s.hkpUp = false ∨ s.swapping = true)) ∧
    (∃ (s : State) (op : Nat) (o : Op), s.DeviceReady op 9 o ∧ o.segFlags.testBit 2 = false ∧ o.segFlags.testBit 3 = false) ∧
    (∃ (s : State) (op : Nat) (o : Op), s.DeviceReady op 9 o ∧ o.segFlags.testBit 2 = true ∧ o.segFlags.testBit 3 = false) ∧
    (∃ (s : State) (op : Nat) (o : Op), s.DeviceReady op 9 o ∧ o.segFlags.testBit 3 = true) ∧
    (∃ (s : State) (op : Nat) (o : Op), s.DeviceReady op 9 o ∧ s.hkpUp = false) ∧
    (∃ (s : State) (u : State) (op : Nat) (o : Op) (b : Mailbox), s.DeviceReady op 9 o ∧ s.hkpUp = true ∧ u = s.count (Reg.mbxCount 0) 1 ∧ b = s.box
      o.st.target ∧ b.st = .idle ∧ b.claimed = false ∧ u.swapping = false ∧ u.rom = false ∧ 8 ≤ o.st.payload.length ∧ leAt o.st.payload 4 2 ≤ 4088 ∧
      leAt o.st.payload 4 2 + 8 = o.st.payload.length ∧ leAt o.st.payload 2 1 = 0 ∧ leAt o.st.payload 3 1 = 0 ∧ leAt o.st.payload 0 2 ∈ commandCodes ∧
      b.req = []) ∧
    (∃ (s : State) (u : State) (op : Nat) (o : Op), s.DeviceReady op 9 o ∧ s.hkpUp = true ∧ u = s.count (Reg.mbxCount 0) 1 ∧ (s.box o.st.target).st =
      .busy ∧ (s.box o.st.target).owner = o.owner ∧ leAt o.st.payload 2 1 = 4 ∧ 8 ≤ o.st.payload.length ∧ leAt o.st.payload 4 2 ≤ 4088 ∧ leAt
      o.st.payload 4 2 + 8 = o.st.payload.length) ∧
    (∃ (s : State) (u : State) (m : Nat) (b : Mailbox), s.power ≠ .off ∧ s.serving = true ∧ m = s.mbx.smb.mailbox ∧ u = s.count (Reg.mbxCount 0) 1 ∧ b
      = s.box m ∧ b.st = .busy ∧ b.owner = .smbus) ∧
    (∃ (s : State) (u : State) (op : Nat) (o : Op), s.DeviceReady op 9 o ∧ s.hkpUp = true ∧ u = s.count (Reg.mbxCount 0) 1 ∧ (s.box o.st.target).st =
      .done ∧ (s.box o.st.target).owner = o.owner ∧ leAt o.st.payload 2 1 = 8 ∧ 8 ≤ o.st.payload.length ∧ leAt o.st.payload 4 2 ≤ 4088 ∧ leAt
      o.st.payload 4 2 + 8 = o.st.payload.length) ∧
    (∃ (s : State) (u : State) (m : Nat) (b : Mailbox), s.power ≠ .off ∧ s.serving = true ∧ m = s.mbx.smb.mailbox ∧ u = s.count (Reg.mbxCount 0) 1 ∧ b
      = s.box m ∧ b.st = .done ∧ b.owner = .smbus) :=
  ⟨⟨withOp (op (stitch 3 0 0 0 [])), 1, op (stitch 3 0 0 0 []), ⟨rfl, rfl, by decide⟩, by decide⟩,
    ⟨{ withOp (op (stitch 3 0 0 0 [])) with power := .held }, 1, op (stitch 3 0 0 0 []), _, ⟨rfl, rfl, by decide⟩, by decide, rfl⟩,
    ⟨withOp (op (stitch 10 0 256 Reg.glbStatus [])), 1, op (stitch 10 0 256 Reg.glbStatus []), ⟨⟨rfl, rfl, by decide⟩, rfl, by decide, by decide⟩,
      by decide⟩,
    ⟨withOp (op (stitch 10 1 8 Reg.ethLaneMode (zeros 8))), 1, op (stitch 10 1 8 Reg.ethLaneMode (zeros 8)), ⟨⟨rfl, rfl, by decide⟩, rfl, by decide,
      by decide⟩, by decide⟩,
    ⟨withOp (op (stitch 11 0 16 511 [])), 1, op (stitch 11 0 16 511 []), ⟨⟨rfl, rfl, by decide⟩, rfl, by decide, by decide⟩, by decide⟩,
    ⟨swappingOp, 1, op (stitch 11 0 16 511 []), ⟨⟨rfl, rfl, by decide⟩, rfl, by decide, by decide⟩, Or.inr (by decide)⟩,
    ⟨withOp (mbxOp 14 0), 1, mbxOp 14 0, ⟨⟨rfl, rfl, by decide⟩, rfl, by decide, by decide⟩, by decide⟩,
    ⟨boxed (withOp (mbxOp 0 4)) (box .busy), 1, mbxOp 0 4, ⟨⟨rfl, rfl, by decide⟩, rfl, by decide, by decide⟩, by decide⟩,
    ⟨boxed (withOp (mbxOp 0 8)) (box .done), 1, mbxOp 0 8, ⟨⟨rfl, rfl, by decide⟩, rfl, by decide, by decide⟩, by decide⟩,
    ⟨put (withOp (mbxOp 14 0)) [(Reg.glbStatus, 4)], 1, mbxOp 14 0, ⟨⟨rfl, rfl, by decide⟩, rfl, by decide, by decide⟩, by decide⟩,
    ⟨withOp (mbxOp 14 0), _, 1, mbxOp 14 0, _, ⟨⟨rfl, rfl, by decide⟩, rfl, by decide, by decide⟩, by decide, rfl, rfl, by decide⟩,
    ⟨boxed (withOp (mbxOp 0 4)) (box .busy), _, 1, mbxOp 0 4, ⟨⟨rfl, rfl, by decide⟩, rfl, by decide, by decide⟩, by decide, rfl, by decide⟩,
    ⟨boxed live (smbBox .busy), _, _, _, by decide, by decide, rfl, rfl, rfl, by decide⟩,
    ⟨boxed (withOp (mbxOp 0 8)) (box .done), _, 1, mbxOp 0 8, ⟨⟨rfl, rfl, by decide⟩, rfl, by decide, by decide⟩, by decide, rfl, by decide⟩,
    ⟨boxed live (smbBox .done), _, _, _, by decide, by decide, rfl, rfl, rfl, by decide⟩⟩

theorem witness_StitchesComplete :
    (∃ (s : State) (u : State) (op : Nat) (i : Nat) (g : Nat) (o : Op) (r : Response), s.host.ops.find op = some o ∧ o.phase = .done r ∧ o.origin =
      .conn i g ∧ u = (if s.wrote o r then s.staleWrite o.st.addr o.st.length else s)) ∧
    (∃ (s : State) (u : State) (op : Nat) (d : Nat) (ref : Nat) (o : Op) (r : Response), s.host.ops.find op = some o ∧ o.phase = .done r ∧ o.origin =
      .lace d ref ∧ u = (if s.wrote o r then s.staleWrite o.st.addr o.st.length else s)) ∧
    (∃ (s : State) (u : State) (op : Nat) (k : Nat) (i : Nat) (o : Op) (r : Response), s.host.ops.find op = some o ∧ o.phase = .done r ∧ o.origin =
      .part i k ∧ u = (if s.wrote o r then s.staleWrite o.st.addr o.st.length else s)) ∧
    (∃ (s : State) (op : Nat) (due : Nat) (o : Op), s.host.ops.find op = some o ∧ o.phase = .waiting due ∧ o.gate = some due ∧ o.admitted = false ∧
      due ≤ s.now ∧ s.overtaken due programEnds = false) :=
  ⟨⟨withOp (doneOp (.conn 8 1)), _, 1, 8, 1, _, _, rfl, rfl, rfl, rfl⟩,
    ⟨withOp (doneOp (.lace 0 5)), _, 1, 0, 5, _, _, rfl, rfl, rfl, rfl⟩,
    ⟨withOp (doneOp (.part 2 0)), _, 1, 0, 2, _, _, rfl, rfl, rfl, rfl⟩,
    ⟨withOp { op (memStitch 6 0 (at3 0)) with phase := .waiting 5, gate := some 5 }, 1, 5, _, rfl, by decide⟩⟩

theorem witness_FiletStitches :
    (∀ c ∈ [(Instr.filetSubmitScore, 0), (.filetSubmitTopk, 1), (.filetSubmitThreshold, 2)], ∃ (s : State) (op : Nat) (mid : Nat) (o : Op) (x :
      Matrix), s.Ready op o ∧ o.st.opcode = 7 ∧ kindOf o.st.subop = c.2 ∧ s.submitCheck o = none ∧ s.matrixAt o.st.addr = some (mid, x)) ∧
    (∃ (s : State) (op : Nat) (id : Nat) (o : Op) (j : FJob), s.ResultReady op 0 o id (some j) ∧ 2 ≤ j.st ∧ (j.status = .ok ∨ j.status = .okTruncated)
      ∧ j.spoiled = true) ∧
    (∃ (s : State) (op : Nat) (id : Nat) (o : Op) (j : FJob), s.ResultReady op 0 o id (some j) ∧ 2 ≤ j.st ∧ (j.status = .ok ∨ j.status = .okTruncated)
      ∧ j.spoiled = false ∧ leAt o.st.payload 4 4 < j.result.length) ∧
    (∃ (s : State) (op : Nat) (id : Nat) (o : Op) (j : FJob), s.ResultReady op 0 o id (some j) ∧ 2 ≤ j.st ∧ (j.status = .ok ∨ j.status = .okTruncated)
      ∧ j.spoiled = false ∧ j.result.length ≤ leAt o.st.payload 4 4) ∧
    (∃ (s : State) (op : Nat) (id : Nat) (o : Op) (j : FJob), s.ResultReady op 0 o id (some j) ∧ 2 ≤ j.st ∧ j.status ≠ .ok ∧ j.status ≠ .okTruncated) ∧
    (∃ (s : State) (op : Nat) (id : Nat) (o : Op) (j : FJob), s.ResultReady op 0 o id (some j) ∧ j.st ≤ 1) ∧
    (∃ (s : State) (op : Nat) (id : Nat) (o : Op) (j : FJob), s.ResultReady op 1 o id (some j)) ∧
    (∃ (s : State) (op : Nat) (id : Nat) (o : Op), s.ResultReady op 0 o id none) ∧
    (∃ (s : State) (op : Nat) (id : Nat) (o : Op), s.ResultReady op 1 o id none) ∧
    (∃ (s : State) (op : Nat) (id : Nat) (o : Op) (j : FJob), s.ResultReady op 2 o id (some j) ∧ 2 ≤ j.st) ∧
    (∃ (s : State) (u : State) (op : Nat) (id : Nat) (o : Op) (j : FJob), s.ResultReady op 2 o id (some j) ∧ j.st ≤ 1 ∧ u =
      { s with filet := { s.filet with jobs := s.filet.jobs.drop id } }) ∧
    (∃ (s : State) (op : Nat) (id : Nat) (o : Op), s.ResultReady op 2 o id none) ∧
    (∃ (s : State) (op : Nat) (id : Nat) (o : Op) (j : FJob) (k : FJob), s.ResultReady op 3 o id (some j) ∧ j.st ≤ 1 ∧ k =
      { j with st := 3, status := .ok, ended := s.now, todo := [], acc := [], subs := [], result := [], flags := 0 }) ∧
    (∃ (s : State) (op : Nat) (id : Nat) (o : Op) (j : FJob), s.ResultReady op 3 o id (some j) ∧ 2 ≤ j.st) ∧
    (∃ (s : State) (op : Nat) (id : Nat) (o : Op), s.ResultReady op 3 o id none) :=
  ⟨fun c hc => ⟨filet job (submitOp c.2), 1, 1, submitOp c.2, matrix, ⟨rfl, rfl, (by revert c; decide)⟩, (by revert c; decide)⟩,
    ⟨filet { job with st := 2, spoiled := true } (resultOp 0 5), 1, 5, resultOp 0 5, _, ⟨⟨rfl, rfl, by decide⟩, rfl, rfl, by decide, by decide, rfl,
      rfl⟩, by decide, Or.inl rfl, by decide⟩,
    ⟨filet { job with st := 2 } (resultOp 0 5), 1, 5, resultOp 0 5, _, ⟨⟨rfl, rfl, by decide⟩, rfl, rfl, by decide, by decide, rfl, rfl⟩, by decide,
      Or.inl rfl, by decide⟩,
    ⟨filet { job with st := 2, result := [] } (resultOp 0 5), 1, 5, resultOp 0 5, _, ⟨⟨rfl, rfl, by decide⟩, rfl, rfl, by decide, by decide, rfl,
      rfl⟩, by decide, Or.inl rfl, by decide⟩,
    ⟨filet { job with st := 2, status := .poisoned } (resultOp 0 5), 1, 5, resultOp 0 5, _, ⟨⟨rfl, rfl, by decide⟩, rfl, rfl, by decide, by decide,
      rfl, rfl⟩, by decide⟩,
    ⟨filet job (resultOp 0 5), 1, 5, resultOp 0 5, _, ⟨⟨rfl, rfl, by decide⟩, rfl, rfl, by decide, by decide, rfl, rfl⟩, by decide⟩,
    ⟨filet job (resultOp 1 5), 1, 5, resultOp 1 5, _, ⟨⟨rfl, rfl, by decide⟩, rfl, rfl, by decide, by decide, rfl, rfl⟩⟩,
    ⟨filet job (resultOp 0 6), 1, 6, resultOp 0 6, ⟨⟨rfl, rfl, by decide⟩, rfl, rfl, by decide, by decide, rfl, rfl⟩⟩,
    ⟨filet job (resultOp 1 6), 1, 6, resultOp 1 6, ⟨⟨rfl, rfl, by decide⟩, rfl, rfl, by decide, by decide, rfl, rfl⟩⟩,
    ⟨filet { job with st := 2 } (resultOp 2 5), 1, 5, resultOp 2 5, _, ⟨⟨rfl, rfl, by decide⟩, rfl, rfl, by decide, by decide, rfl, rfl⟩, by decide⟩,
    ⟨filet job (resultOp 2 5), _, 1, 5, resultOp 2 5, _, ⟨⟨rfl, rfl, by decide⟩, rfl, rfl, by decide, by decide, rfl, rfl⟩, by decide, rfl⟩,
    ⟨filet job (resultOp 2 6), 1, 6, resultOp 2 6, ⟨⟨rfl, rfl, by decide⟩, rfl, rfl, by decide, by decide, rfl, rfl⟩⟩,
    ⟨filet job (resultOp 3 5), 1, 5, resultOp 3 5, _, _, ⟨⟨rfl, rfl, by decide⟩, rfl, rfl, by decide, by decide, rfl, rfl⟩, by decide, rfl⟩,
    ⟨filet { job with st := 3 } (resultOp 3 5), 1, 5, resultOp 3 5, _, ⟨⟨rfl, rfl, by decide⟩, rfl, rfl, by decide, by decide, rfl, rfl⟩, by decide⟩,
    ⟨filet job (resultOp 3 6), 1, 6, resultOp 3 6, ⟨⟨rfl, rfl, by decide⟩, rfl, rfl, by decide, by decide, rfl, rfl⟩⟩⟩

theorem witness_FiletEngineWorks :
    (∃ (s : State) (tile : Nat) (p : FProg) (x : Matrix) (q : List Nat × List Nat × List (List Int)) (l : List Nat), tile < 1179648 ∧
      s.filet.progs.find? (fun p => p.left.contains tile) = some p ∧ s.filet.matrices.find p.matrix = some x ∧ (s.fwPaused = false ∨ p.why = .failed)
      ∧ l = p.left.filter (· != tile) ∧ (p.quant = some q ∨ (p.quant = none ∧ s.allResident (x.lines (s.ownCols x p.group)) = true ∧ s.shadowStatus x
      p.fails (s.ownCols x p.group) = none ∧ q = s.quantGroup x p.group))) ∧
    (∃ (s : State) (tile : Nat) (p : FProg) (x : Matrix), tile < 1179648 ∧ s.filet.progs.find? (fun p => p.left.contains tile) = some p ∧
      s.filet.matrices.find p.matrix = some x ∧ (s.fwPaused = false ∨ p.why = .failed)) ∧
    (∃ (s : State) (port : Nat) (tile : Nat) (ids : Nat × Nat × Nat) (x : Matrix) (y : FGroup) (j : FJob), port < 144 ∧ s.passAt port = some ids ∧
      tile = ids.2.1 ∧ s.group (s.tile tile).matrix (s.tile tile).group = some (x, y) ∧ s.filet.jobs.find ids.1 = some j ∧ (s.tile tile).st = .inUse ∧
      y.fallback = false) ∧
    (∃ (s : State) (port : Nat) (tile : Nat) (ids : Nat × Nat × Nat) (x : Matrix) (y : FGroup) (j : FJob), port < 144 ∧ s.passAt port = some ids ∧
      tile = ids.2.1 ∧ s.group (s.tile tile).matrix (s.tile tile).group = some (x, y) ∧ s.filet.jobs.find ids.1 = some j ∧ ((s.tile tile).st ≠ .inUse
      ∨ y.fallback = true)) ∧
    (∃ (s : State) (port : Nat) (tile : Nat) (ids : Nat × Nat × Nat) (x : Matrix) (y : FGroup) (j : FJob), port < 144 ∧ s.passAt port = some ids ∧
      tile = ids.2.1 ∧ s.group (s.tile tile).matrix (s.tile tile).group = some (x, y) ∧ s.filet.jobs.find ids.1 = some j) ∧
    (∃ (s : State) (u : State) (v : State) (w : State) (tile : Nat) (codes : List (List Int)) (x : Matrix) (y : FGroup) (good : List Nat) (rows : List
      AuditRow) (bad : List AuditRow) (a : Tile), tile < 1179648 ∧ a = s.tile tile ∧ s.group a.matrix a.group = some (x, y) ∧ s.fwPaused = false ∧
      y.stale = false ∧ a.st = .inUse ∧ a.audited + s.fld Reg.filCfg 27 16 ≤ s.opTime ∧ s.allResident (x.lines (s.ownCols x a.group)) = true ∧ good =
      (s.ownCols x a.group).filter (fun j => !s.colPoison x j) ∧ rows = s.auditRows x y a codes good ∧ bad = rows.filter (AuditRow.bad (s.fld
      Reg.filRefreshCfg 51 44)) ∧ u = ({ s with free := s.free + 1 } : State).count (Reg.filCount 2) 1 ∧ v = (if good.length < (s.ownCols x
      a.group).length then (u.raiseTile 0x4004 tile 0).count (Reg.filCount 10) 1 else u) ∧ w =
      (match bad with | [] => v | r :: _ => v.raiseTile 0x4003 tile r.deviation)) ∧
    (∃ (s : State) (m : Nat) (g : Nat) (x : Matrix) (y : FGroup), s.group m g = some (x, y) ∧ (∃ t ∈ y.tiles, (s.tile t).since + 3600 * s.fld
      Reg.filRefreshCfg 43 32 ≤ s.opTime)) ∧
    (∃ (s : State) (u : State) (job : Nat) (n : Nat) (j : FJob) (x : Matrix) (cols : List Nat) (exact : List Nat) (cc : List Nat) (here : List Nat)
      (cand : List (List Ent)) (known : List Nat → Bool) (lost : Nat → Bool) (fail : Nat → Option Status), s.filet.jobs.find job = some j ∧
      s.filet.matrices.find j.matrix = some x ∧ j.st ≤ 1 ∧ j.todo = [] ∧ (∀ y ∈ j.subs, y.finished = true) ∧ cols = x.colsIn (descFirst j.desc)
      (descCount j.desc x.cols) j.mine ∧ exact = cols.filter (fun c => j.fallback.contains (c / x.width)) ∧ known = (fun l => (x.lines l).all (fun ln
      => (s.resident ln).isSome || j.fails.any (fun f => f.1 == ln))) ∧ cand = (if verifyOf j.subop then (List.range j.queries.length).map (fun q =>
      (candidates j.subop j.desc (cols.map (s.scoreCol x j q))).1) else []) ∧ cc = sortOrd (fun a b => decide (a < b)) (cand.flatMap (fun l => l.map
      (·.col))).eraseDups ∧ lost = (fun c => (s.mem.dir.find (x.panel c)).any (fun e => e.st == 2 || e.st == 3)) ∧ here = cc.filter (fun c => !lost c)
      ∧ fail = (fun c => if lost c then some .unavailable else s.shadowStatus x j.fails [c]) ∧ n = (cand.map (·.length)).foldl (· + ·) 0 ∧ u =
      (s.count (Reg.filCount 4) n).count (Reg.filCount 5) (exact.length * j.queries.length) ∧ known exact = false) ∧
    (∃ (s : State) (u : State) (job : Nat) (n : Nat) (j : FJob) (x : Matrix) (cols : List Nat) (exact : List Nat) (cc : List Nat) (here : List Nat)
      (cand : List (List Ent)) (known : List Nat → Bool) (lost : Nat → Bool) (fail : Nat → Option Status) (st : Status), s.filet.jobs.find job = some
      j ∧ s.filet.matrices.find j.matrix = some x ∧ j.st ≤ 1 ∧ j.todo = [] ∧ (∀ y ∈ j.subs, y.finished = true) ∧ cols = x.colsIn (descFirst j.desc)
      (descCount j.desc x.cols) j.mine ∧ exact = cols.filter (fun c => j.fallback.contains (c / x.width)) ∧ known = (fun l => (x.lines l).all (fun ln
      => (s.resident ln).isSome || j.fails.any (fun f => f.1 == ln))) ∧ cand = (if verifyOf j.subop then (List.range j.queries.length).map (fun q =>
      (candidates j.subop j.desc (cols.map (s.scoreCol x j q))).1) else []) ∧ cc = sortOrd (fun a b => decide (a < b)) (cand.flatMap (fun l => l.map
      (·.col))).eraseDups ∧ lost = (fun c => (s.mem.dir.find (x.panel c)).any (fun e => e.st == 2 || e.st == 3)) ∧ here = cc.filter (fun c => !lost c)
      ∧ fail = (fun c => if lost c then some .unavailable else s.shadowStatus x j.fails [c]) ∧ n = (cand.map (·.length)).foldl (· + ·) 0 ∧ u =
      (s.count (Reg.filCount 4) n).count (Reg.filCount 5) (exact.length * j.queries.length) ∧ known exact = true ∧ s.shadowStatus x j.fails exact =
      some st) ∧
    (∃ (s : State) (u : State) (job : Nat) (n : Nat) (j : FJob) (x : Matrix) (cols : List Nat) (exact : List Nat) (cc : List Nat) (here : List Nat)
      (cand : List (List Ent)) (known : List Nat → Bool) (lost : Nat → Bool) (fail : Nat → Option Status), s.filet.jobs.find job = some j ∧
      s.filet.matrices.find j.matrix = some x ∧ j.st ≤ 1 ∧ j.todo = [] ∧ (∀ y ∈ j.subs, y.finished = true) ∧ cols = x.colsIn (descFirst j.desc)
      (descCount j.desc x.cols) j.mine ∧ exact = cols.filter (fun c => j.fallback.contains (c / x.width)) ∧ known = (fun l => (x.lines l).all (fun ln
      => (s.resident ln).isSome || j.fails.any (fun f => f.1 == ln))) ∧ cand = (if verifyOf j.subop then (List.range j.queries.length).map (fun q =>
      (candidates j.subop j.desc (cols.map (s.scoreCol x j q))).1) else []) ∧ cc = sortOrd (fun a b => decide (a < b)) (cand.flatMap (fun l => l.map
      (·.col))).eraseDups ∧ lost = (fun c => (s.mem.dir.find (x.panel c)).any (fun e => e.st == 2 || e.st == 3)) ∧ here = cc.filter (fun c => !lost c)
      ∧ fail = (fun c => if lost c then some .unavailable else s.shadowStatus x j.fails [c]) ∧ n = (cand.map (·.length)).foldl (· + ·) 0 ∧ u =
      (s.count (Reg.filCount 4) n).count (Reg.filCount 5) (exact.length * j.queries.length) ∧ known exact = true ∧ s.shadowStatus x j.fails exact =
      none ∧ known here = false) ∧
    (∃ (s : State) (u : State) (job : Nat) (n : Nat) (j : FJob) (x : Matrix) (cols : List Nat) (exact : List Nat) (cc : List Nat) (here : List Nat)
      (cand : List (List Ent)) (known : List Nat → Bool) (lost : Nat → Bool) (fail : Nat → Option Status) (st : Status) (p : List Nat) (q : List Nat)
      (c : Nat), s.filet.jobs.find job = some j ∧ s.filet.matrices.find j.matrix = some x ∧ j.st ≤ 1 ∧ j.todo = [] ∧ (∀ y ∈ j.subs, y.finished = true)
      ∧ cols = x.colsIn (descFirst j.desc) (descCount j.desc x.cols) j.mine ∧ exact = cols.filter (fun c => j.fallback.contains (c / x.width)) ∧ known
      = (fun l => (x.lines l).all (fun ln => (s.resident ln).isSome || j.fails.any (fun f => f.1 == ln))) ∧ cand = (if verifyOf j.subop then
      (List.range j.queries.length).map (fun q => (candidates j.subop j.desc (cols.map (s.scoreCol x j q))).1) else []) ∧ cc = sortOrd (fun a b =>
      decide (a < b)) (cand.flatMap (fun l => l.map (·.col))).eraseDups ∧ lost = (fun c => (s.mem.dir.find (x.panel c)).any (fun e => e.st == 2 ||
      e.st == 3)) ∧ here = cc.filter (fun c => !lost c) ∧ fail = (fun c => if lost c then some .unavailable else s.shadowStatus x j.fails [c]) ∧ n =
      (cand.map (·.length)).foldl (· + ·) 0 ∧ u = (s.count (Reg.filCount 4) n).count (Reg.filCount 5) (exact.length * j.queries.length) ∧ known exact
      = true ∧ s.shadowStatus x j.fails exact = none ∧ known here = true ∧ cc = p ++ c :: q ∧ (∀ k ∈ p, fail k = none) ∧ fail c = some st) ∧
    (∃ (s : State) (u : State) (job : Nat) (n : Nat) (j : FJob) (x : Matrix) (cols : List Nat) (exact : List Nat) (cc : List Nat) (here : List Nat)
      (cand : List (List Ent)) (known : List Nat → Bool) (lost : Nat → Bool) (fail : Nat → Option Status), s.filet.jobs.find job = some j ∧
      s.filet.matrices.find j.matrix = some x ∧ j.st ≤ 1 ∧ j.todo = [] ∧ (∀ y ∈ j.subs, y.finished = true) ∧ cols = x.colsIn (descFirst j.desc)
      (descCount j.desc x.cols) j.mine ∧ exact = cols.filter (fun c => j.fallback.contains (c / x.width)) ∧ known = (fun l => (x.lines l).all (fun ln
      => (s.resident ln).isSome || j.fails.any (fun f => f.1 == ln))) ∧ cand = (if verifyOf j.subop then (List.range j.queries.length).map (fun q =>
      (candidates j.subop j.desc (cols.map (s.scoreCol x j q))).1) else []) ∧ cc = sortOrd (fun a b => decide (a < b)) (cand.flatMap (fun l => l.map
      (·.col))).eraseDups ∧ lost = (fun c => (s.mem.dir.find (x.panel c)).any (fun e => e.st == 2 || e.st == 3)) ∧ here = cc.filter (fun c => !lost c)
      ∧ fail = (fun c => if lost c then some .unavailable else s.shadowStatus x j.fails [c]) ∧ n = (cand.map (·.length)).foldl (· + ·) 0 ∧ u =
      (s.count (Reg.filCount 4) n).count (Reg.filCount 5) (exact.length * j.queries.length) ∧ known exact = true ∧ s.shadowStatus x j.fails exact =
      none ∧ known here = true ∧ (∀ c ∈ cc, fail c = none)) ∧
    (∃ (s : State) (job : Nat) (j : FJob), s.filet.jobs.find job = some j ∧ 2 ≤ j.st ∧ j.ended + ms (s.fld Reg.filCfg 47 32) ≤ s.now) :=
  ⟨⟨{ filet job (resultOp 0 5) with filet := { (filet job (resultOp 0 5)).filet with progs := [prog] } }, 0, _, _, _, _, by decide, rfl, rfl, Or.inl
      (by decide), rfl, Or.inl rfl⟩,
    ⟨{ filet job (resultOp 0 5) with filet := { (filet job (resultOp 0 5)).filet with progs := [prog] } }, 0, _, _, by decide, rfl, rfl, Or.inl
      (by decide)⟩,
    ⟨filet job (resultOp 0 5), 0, _, _, _, _, _, by decide, rfl, rfl, rfl, rfl, by decide⟩,
    ⟨{ filet job (resultOp 0 5) with filet := { (filet job (resultOp 0 5)).filet with tiles := [(0, { tile0 with st := .programming })] } }, 0, _, _,
      _, _, _, by decide, rfl, rfl, rfl, rfl, Or.inl (by decide)⟩,
    ⟨filet job (resultOp 0 5), 0, _, _, _, _, _, by decide, rfl, rfl, rfl, rfl⟩,
    ⟨put (filet job (resultOp 0 5)) [(Reg.filCfg, 0)], _, _, _, 0, [], _, _, _, _, _, _, by decide, rfl, rfl, by decide, by decide, by decide,
      by decide, by decide, rfl, rfl, rfl, rfl, rfl, rfl⟩,
    ⟨put (filet job (resultOp 0 5)) [(Reg.filRefreshCfg, 0)], 1, 0, _, _, rfl, ⟨0, by decide, by decide⟩⟩,
    ⟨noLines { job with todo := [], fallback := [0] }, _, 5, _, _, _, _, _, _, _, _, _, _, _, rfl, rfl, by decide, by decide, nofun, rfl, rfl, rfl,
      rfl, rfl, rfl, rfl, rfl, rfl, rfl, by decide⟩,
    ⟨filet { job with todo := [], fallback := [0], fails := [(3 * 2 ^ 48, .poisoned)] } (resultOp 0 5), _, 5, _, _, _, _, _, _, _, _, _, _, _, _, rfl,
      rfl, by decide, by decide, nofun, rfl, rfl, rfl, rfl, rfl, rfl, rfl, rfl, rfl, rfl, by decide, rfl⟩,
    ⟨noLines { job with todo := [], subop := 5, desc := descriptor 1 1 }, _, 5, _, _, _, _, _, _, _, _, _, _, _, rfl, rfl, by decide, by decide,
      nofun, rfl, rfl, rfl, rfl, rfl, rfl, rfl, rfl, rfl, rfl, by decide⟩,
    ⟨{ filet { job with todo := [], subop := 5, desc := descriptor 1 1 } (resultOp 0 5) with mem := { stocked.mem with dir := [(0, { panel0 with st := 2 })] } },
      _, 5, _, _, _, _, _, _, _, _, _, _, _, .unavailable, [], [], 0, rfl, rfl, by decide, by decide, nofun, rfl, rfl, rfl, rfl, rfl, rfl, rfl, rfl,
      rfl, rfl, by decide, by decide, by decide, rfl, nofun, by decide⟩,
    ⟨noPanels { job with todo := [], subop := 5, desc := descriptor 1 1 }, _, 5, _, _, _, _, _, _, _, _, _, _, _, rfl, rfl, by decide, by decide,
      nofun, rfl, rfl, rfl, rfl, rfl, rfl, rfl, rfl, rfl, rfl, by decide⟩,
    ⟨filet { job with st := 2 } (resultOp 0 5), 5, _, rfl, by decide⟩⟩

theorem witness_SamplerKeepsOccurrences :
    (∃ (s : State) (i : Nat) (k : Nat) (o : Occ) (u : State), i < 46 ∧ s.kept.smpQ.find? (fun e => e.1 == i) = some (k, o) ∧ u =
      ({ s with kept := { s.kept with smpQ := s.kept.smpQ.erase (k, o) } } : State).count (Reg.pmcValue 493) 1 ∧ u.clearing = true) ∧
    (∃ (s : State) (i : Nat) (k : Nat) (n : Nat) (o : Occ) (u : State), i < 46 ∧ s.kept.smpQ.find? (fun e => e.1 == i) = some (k, o) ∧ u =
      ({ s with kept := { s.kept with smpQ := s.kept.smpQ.erase (k, o) } } : State).count (Reg.pmcValue 493) 1 ∧ u.clearing = false ∧
      u.kept.slots.find? (fun e => e.2.keep.code == o.code && e.2.keep.src == o.src) = none ∧ u.kept.slots.firstFree 0 2048 = some n ∧ u.kept.closed =
      false) ∧
    (∃ (s : State) (i : Nat) (k : Nat) (o : Occ) (u : State) (v : State), i < 46 ∧ s.kept.smpQ.find? (fun e => e.1 == i) = some (k, o) ∧ u =
      ({ s with kept := { s.kept with smpQ := s.kept.smpQ.erase (k, o) } } : State).count (Reg.pmcValue 493) 1 ∧ u.clearing = false ∧
      u.kept.slots.find? (fun e => e.2.keep.code == o.code && e.2.keep.src == o.src) = none ∧ u.kept.slots.firstFree 0 2048 = none ∧ u.kept.closed =
      false ∧ v = (u.setFld Reg.smpOverflow 31 0 (satAdd 32 (u.fld Reg.smpOverflow 31 0) 1)).count (Reg.pmcValue 497) 1) ∧
    (∃ (s : State) (i : Nat) (k : Nat) (o : Occ) (u : State), i < 46 ∧ s.kept.smpQ.find? (fun e => e.1 == i) = some (k, o) ∧ u =
      ({ s with kept := { s.kept with smpQ := s.kept.smpQ.erase (k, o) } } : State).count (Reg.pmcValue 493) 1 ∧ u.clearing = false ∧
      u.kept.slots.find? (fun e => e.2.keep.code == o.code && e.2.keep.src == o.src) = none ∧ u.kept.closed = true) ∧
    (∃ (s : State) (i : Nat) (k : Nat) (n : Nat) (o : Occ) (u : State) (x : SmpSlot), i < 46 ∧ s.kept.smpQ.find? (fun e => e.1 == i) = some (k, o) ∧ u
      = ({ s with kept := { s.kept with smpQ := s.kept.smpQ.erase (k, o) } } : State).count (Reg.pmcValue 493) 1 ∧ u.clearing = false ∧
      u.kept.slots.find? (fun e => e.2.keep.code == o.code && e.2.keep.src == o.src) = some (n, x)) ∧
    (∃ (s : State) (n : Nat) (x : SmpSlot), n < 2048 ∧ s.kept.slots.find n = some x ∧ x.waiting ≠ 0 ∧ x.lastCommit + s.smpGap ≤ s.now ∧ s.overtaken
      (x.lastCommit + s.smpGap) (s.joins x) = false ∧ s.inBudget x = true ∧ s.clearing = false ∧ s.kept.closed = false) ∧
    (∃ (s : State), s.kept.overflow ≠ s.fld Reg.smpOverflow 31 0 ∧ s.kept.overflowAt + s.smpGap ≤ s.now ∧ s.kept.closed = false) ∧
    (∃ (s : State) (n : Nat), n ≤ 2048 ∧ s.kept.closed = true) :=
  ⟨⟨put (sampled []) [(Reg.smpStatus, 2 ^ 13)], 24, _, _, _, by decide, rfl, rfl, by decide⟩,
    ⟨sampled [], 24, _, _, _, _, by decide, rfl, rfl, by decide, rfl, rfl, by decide⟩,
    ⟨allUsed, 24, _, _, _, _, by decide, rfl, rfl, rfl, slotsFrom_other _ (fun _ => rfl) 2048 0, slotsFrom_full 2048 2048 0 (Nat.le_refl _),
      by decide, rfl⟩,
    ⟨shut (sampled []), 24, _, _, _, by decide, rfl, rfl, by decide, rfl, by decide⟩,
    ⟨sampled [(7, slot)], 24, _, _, _, _, _, by decide, rfl, rfl, by decide, rfl⟩,
    ⟨sampled [(2047, slot)], 2047, _, by decide, rfl, by decide⟩,
    ⟨put (sampled []) [(Reg.smpOverflow, 1)], by decide⟩,
    ⟨shut live, 2048, by decide⟩⟩

theorem witness_OccurrencesQueueTowardTheKeep :
    (∃ (s : State) (code : Nat) (src : Nat), 16 ≤ (s.kept.smpQ.filter (fun e => e.1 == s.islandOf code src)).length) ∧
    (∃ (s : State) (code : Nat) (src : Nat), (s.kept.smpQ.filter (fun e => e.1 == s.islandOf code src)).length < 16) :=
  ⟨⟨{ live with kept := { live.kept with smpQ := List.replicate 16 (24, occ) } }, 0x0001, 0, by decide⟩,
    ⟨{ live with kept := { live.kept with smpQ := List.replicate 15 (24, occ) } }, 0x0001, 0, by decide⟩⟩

theorem witness_BobbinsQueuePackets :
    (∃ (s : State) (u : State) (c : Nat) (b : Nat) (len : Nat) (v : Word), c < 4 ∧ u = (if (s.pushWin c).left = 0 then s else (s.putWin c .idle).count
      (Reg.bobCount 10) 1) ∧ b = v.field 15 0 ∧ len = (if v.field 31 16 = 0 then 65536 else v.field 31 16) ∧ u.startRefused b len = none) ∧
    (∃ (s : State) (u : State) (c : Nat) (b : Nat) (len : Nat) (v : Word) (st : _), c < 4 ∧ u = (if (s.pushWin c).left = 0 then s else (s.putWin c
      .idle).count (Reg.bobCount 10) 1) ∧ b = v.field 15 0 ∧ len = (if v.field 31 16 = 0 then 65536 else v.field 31 16) ∧ u.startRefused b len = some
      st) ∧
    (∃ (s : State) (c : Nat) (w : PushWin), c < 4 ∧ w = s.pushWin c ∧ 1 < w.left) ∧
    (∃ (s : State) (c : Nat) (w : PushWin), c < 4 ∧ w = s.pushWin c ∧ w.left = 1) ∧
    (∃ (s : State) (c : Nat), c < 4 ∧ (s.pushWin c).left = 0) ∧
    (∃ (s : State) (u : State) (c : Nat) (b : Nat) (out : CellOutcome) (x : Bob) (p : BobPkt) (rest : List BobPkt), c < 4 ∧ b = s.fld (Reg.bobPopSel
      c) 15 0 ∧ x = s.bobbin b ∧ x.broken = false ∧ x.pkts = p :: rest ∧ ((out = .clean ∧ u = s) ∨ (∃ q, out = .corrected q ∧ u = s.count
      (Reg.bobCount (q % 4)) 1)) ∧ x.popped + 1 < p.words.length) ∧
    (∃ (s : State) (u : State) (c : Nat) (b : Nat) (out : CellOutcome) (x : Bob) (p : BobPkt) (rest : List BobPkt), c < 4 ∧ b = s.fld (Reg.bobPopSel
      c) 15 0 ∧ x = s.bobbin b ∧ x.broken = false ∧ x.pkts = p :: rest ∧ ((out = .clean ∧ u = s) ∨ (∃ q, out = .corrected q ∧ u = s.count
      (Reg.bobCount (q % 4)) 1)) ∧ x.popped + 1 = p.words.length) ∧
    (∃ (s : State) (u : State) (c : Nat) (b : Nat) (q : Nat) (x : Bob) (p : BobPkt) (rest : List BobPkt), c < 4 ∧ b = s.fld (Reg.bobPopSel c) 15 0 ∧ x
      = s.bobbin b ∧ x.broken = false ∧ x.pkts = p :: rest ∧ u = (s.count (Reg.bobCount 4) 1).raise 0x9003 b q ∧ x.popped + 1 < p.words.length) ∧
    (∃ (s : State) (c : Nat) (x : Bob), c < 4 ∧ x = s.bobbin (s.fld (Reg.bobPopSel c) 15 0) ∧ x.broken = false ∧ x.pkts = []) ∧
    (∃ (s : State) (c : Nat) (b : Nat) (v : Word) (x : Bob) (p : BobPkt) (rest : List BobPkt), c < 4 ∧ b = s.fld (Reg.bobPopSel c) 15 0 ∧ x = s.bobbin
      b ∧ x.broken = false ∧ x.pkts = p :: rest ∧ v.bit 0 = true) ∧
    (∃ (s : State) (b : Nat) (d : Nat) (x : Bob), b < 65536 ∧ x = s.bobbin b ∧ x.sweep = some d) ∧
    (∃ (s : State) (b : Nat) (d : Nat) (x : Bob), b < 65536 ∧ x = s.bobbin b ∧ x.staleFrom = some d ∧ x.staleTime ≠ 0 ∧ d + us (10 * x.staleTime) ≤
      s.now ∧ s.overtaken (d + us (10 * x.staleTime)) (s.popsFrom b) = false) :=
  ⟨⟨bobs bobbin .idle, _, 3, 256, 56, word (256 + 56 * 2 ^ 16), by decide, rfl, by decide⟩,
    ⟨bobs bobbin .idle, _, 0, 255, 56, word (255 + 56 * 2 ^ 16), _, by decide, rfl, by decide, by decide, rfl⟩,
    ⟨bobs bobbin { PushWin.idle with bob := 256, len := 14, left := 2 }, 0, _, by decide, rfl, by decide⟩,
    ⟨bobs bobbin { PushWin.idle with bob := 256, len := 14, left := 1 }, 0, _, by decide, rfl, by decide⟩,
    ⟨bobs bobbin .idle, 0, by decide⟩,
    ⟨bobs bobbin .idle, _, 0, 256, .clean, _, _, _, by decide, by decide, rfl, by decide, rfl, Or.inl ⟨rfl, rfl⟩, by decide⟩,
    ⟨bobs { bobbin with popped := 1 } .idle, _, 0, 256, .corrected 5, _, _, _, by decide, by decide, rfl, by decide, rfl, Or.inr ⟨5, rfl, rfl⟩, rfl⟩,
    ⟨bobs bobbin .idle, _, 0, 256, 1, _, _, _, by decide, by decide, rfl, by decide, rfl, rfl, by decide⟩,
    ⟨bobs { bobbin with pkts := [] } .idle, 0, _, by decide, rfl, by decide⟩,
    ⟨bobs bobbin .idle, 0, 256, 1, _, _, _, by decide, by decide, rfl, by decide, rfl, by decide⟩,
    ⟨bobs { bobbin with sweep := some 9 } .idle, 256, 9, _, by decide, rfl, by decide⟩,
    ⟨bobs bobbin .idle, 256, 5, _, by decide, rfl, by decide⟩⟩

theorem witness_LinesLeaveTheCache :
    (∃ (s : State) (ln : Nat) (l : Nat) (c : LlcLine), ln < 2 ^ 56 ∧ s.mem.evb.find ln = some c ∧ s.localLine ln = some l ∧ c.dirty = 0) ∧
    (∃ (s : State) (ln : Nat) (l : Nat) (c : LlcLine), ln < 2 ^ 56 ∧ s.mem.evb.find ln = some c ∧ s.localLine ln = some l ∧ c.dirty ≠ 0 ∧ s.nodeGone l
      = true) ∧
    (∃ (s : State) (ln : Nat) (l : Nat) (c : LlcLine), ln < 2 ^ 56 ∧ s.mem.evb.find ln = some c ∧ s.localLine ln = some l ∧ c.dirty ≠ 0 ∧ s.nodeGone l
      = false ∧ (s.placeDirty ln l c).1 = true) ∧
    (∃ (s : State) (ln : Nat) (l : Nat) (c : LlcLine), ln < 2 ^ 56 ∧ s.mem.evb.find ln = some c ∧ s.localLine ln = some l ∧ c.dirty ≠ 0 ∧ s.nodeGone l
      = false ∧ (s.placeDirty ln l c).1 = false) ∧
    (∃ (s : State) (lsw : Nat) (d : Nat), lsw < 29360128 ∧ s.mem.filled.get lsw 0 = 512 ∧ s.mem.zeroFill.find lsw = some d) :=
  ⟨⟨placed, 3 * 2 ^ 48 + 65, 65, _, by decide, rfl, by decide⟩,
    ⟨lostNode, 3 * 2 ^ 48 + 64, 64, _, by decide, rfl, by decide⟩,
    ⟨placed, 3 * 2 ^ 48 + 64, 64, _, by decide, rfl, by decide⟩,
    ⟨converting, 3 * 2 ^ 48 + 64, 64, _, by decide, rfl, by decide⟩,
    ⟨{ placed with mem := { placed.mem with filled := [(1, 512)] } }, 1, 5, by decide⟩⟩

theorem witness_PlacementTimersAct :
    (∃ (s : State) (d : Nat), s.timers.find Timer.heat = some d ∧ d ≤ s.now) ∧
    (∃ (s : State) (u : State) (d : Nat), s.timers.find Timer.level = some d ∧ d ≤ s.now ∧ s.fwPaused = false ∧ u =
      s.sortPool.retireWaiting.levelMoves) ∧
    (∃ (s : State) (d : Nat), s.timers.find Timer.table = some d ∧ d ≤ s.now) ∧
    (∃ (s : State) (d : Nat), s.timers.find Timer.govDay = some d ∧ d ≤ s.now) ∧
    (∃ (s : State) (d : Nat), s.timers.find Timer.govTick = some d ∧ d ≤ s.now ∧ s.pwr.idling = false) ∧
    (∃ (s : State) (d : Nat), s.timers.find Timer.govTick = some d ∧ d ≤ s.now ∧ s.pwr.idling = true) ∧
    (∃ (s : State) (u : State) (t : Nat), s.mem.gov.lastWait = some t ∧ t + sec 11 ≤ s.now ∧ u = (s.wearLift s.self).report (.slow s.self 3 0
      0xFFFFFFFF 0xFFFFFFFF)) :=
  ⟨⟨ripe live, 5, by decide⟩,
    ⟨ripe live, _, 5, by decide, by decide, by decide, rfl⟩,
    ⟨ripe live, 5, by decide⟩,
    ⟨ripe live, 5, by decide⟩,
    ⟨ripe live, 5, by decide⟩,
    ⟨{ ripe live with pwr := { (ripe live).pwr with idling := true } }, 5, by decide⟩,
    ⟨placed, _, 5, by decide, by decide, rfl⟩⟩

theorem witness_SwatchesMove :
    (∃ (s : State) (u : State) (v : State) (w : State) (k : Nat) (bad : List Nat) (mv : Move), k < 64 ∧ s.mem.moves.find k = some mv ∧ mv.switched =
      false ∧ mv.map = BitVec.allOnes 512 ∧ u = ((bad.filter (· < 512)).eraseDups).foldl (fun t i => t.copyLost mv i) s ∧ v = u.putPrk mv.lsw
      { u.prk mv.lsw with ps := mv.dst, rot := mv.rot, st := .mapped, slot := 0 } ∧ w = v.putLdg mv.dst
      { v.ldg mv.dst with heatR := (v.ldg mv.src).heatR, heatW := (v.ldg mv.src).heatW, zeroLabel := s.epochLabel }) ∧
    (∃ (s : State) (u : State) (v : State) (w : State) (x : State) (k : Nat) (mv : Move), k < 64 ∧ s.mem.moves.find k = some mv ∧ mv.switched = true ∧
      s.mem.senses.any (fun e => e.1 / 512 == mv.src) = false ∧ u = s.putLdg mv.dst { s.ldg mv.dst with st := .mapped, lsw := mv.lsw } ∧ v = u.putLdg
      mv.src { u.ldg mv.src with st := .free, lsw := 0, heatR := 0, heatW := 0 } ∧ w =
      { v with mem := { v.mem with moves := v.mem.moves.drop k, med := v.mem.med.filter (fun x => x.1 / 512 != mv.src) } } ∧ ((∃ c, mv.why = .retire c
      ∧ x = w.setRetired mv.src c) ∨ ((∀ c, mv.why ≠ .retire c) ∧ x = w))) ∧
    (∃ (s : State) (u : State) (v : State) (w : State) (x : State) (k : Nat) (mv : Move) (c : _), k < 64 ∧ s.mem.moves.find k = some mv ∧ mv.switched
      = false ∧ mv.map ≠ BitVec.allOnes 512 ∧ mv.due ≤ s.now ∧ u = s.putLdg mv.dst { s.ldg mv.dst with st := .free, lsw := 0 } ∧ v = u.putPrk mv.lsw
      { u.prk mv.lsw with st := .mapped, slot := 0 } ∧ w =
      { v with mem := { v.mem with moves := v.mem.moves.drop k, med := v.mem.med.filter (fun x => x.1 / 512 != mv.dst) } } ∧ x = (w.setFld
      Reg.plcMoveStatus 6 0 (w.fld Reg.plcMoveStatus 6 0 - 1)).raise 0x3005 (mv.src % 2 ^ 16) mv.copied ∧ mv.why = .retire c) ∧
    (∃ (s : State) (u : State) (v : State) (w : State) (x : State) (k : Nat) (mv : Move), k < 64 ∧ s.mem.moves.find k = some mv ∧ mv.switched = false
      ∧ mv.map ≠ BitVec.allOnes 512 ∧ mv.due ≤ s.now ∧ u = s.putLdg mv.dst { s.ldg mv.dst with st := .free, lsw := 0 } ∧ v = u.putPrk mv.lsw
      { u.prk mv.lsw with st := .mapped, slot := 0 } ∧ w =
      { v with mem := { v.mem with moves := v.mem.moves.drop k, med := v.mem.med.filter (fun x => x.1 / 512 != mv.dst) } } ∧ x = (w.setFld
      Reg.plcMoveStatus 6 0 (w.fld Reg.plcMoveStatus 6 0 - 1)).raise 0x3005 (mv.src % 2 ^ 16) mv.copied ∧ (∀ c, mv.why ≠ .retire c)) ∧
    (∃ (s : State) (k : Nat) (n : Nat) (mv : Move), k < 64 ∧ s.mem.moves.find k = some mv ∧ n ≠ mv.again) ∧
    (∃ (s : State) (k : Nat) (n : Nat) (mv : Move), k < 64 ∧ s.mem.moves.find k = some mv ∧ n ≠ mv.copied) :=
  ⟨⟨moving { move with map := BitVec.allOnes 512 }, _, _, _, 63, [], _, by decide, rfl, by decide, rfl, rfl, rfl, rfl⟩,
    ⟨moving { move with switched := true }, _, _, _, _, 63, { move with switched := true }, by decide, by decide +kernel, by decide, by decide, rfl,
      rfl, rfl, Or.inr ⟨nofun, rfl⟩⟩,
    ⟨moving { move with why := .retire 2 }, _, _, _, _, 63, _, 2, by decide, rfl, by decide, by decide +kernel, by decide, rfl, rfl, rfl, rfl,
      by decide⟩,
    ⟨moving move, _, _, _, _, 63, _, by decide, rfl, by decide, by decide +kernel, by decide, rfl, rfl, rfl, rfl, nofun⟩,
    ⟨moving move, 63, 1, _, by decide, rfl, by decide⟩,
    ⟨moving move, 63, 1, _, by decide, rfl, by decide +kernel⟩⟩

theorem witness_NoticeGapsEnd :
    (∃ (s : State) (conn : Nat) (code : Nat) (key : Nat) (g : NoticeGap), conn < 0xFFFF ∧ s.mem.gaps.find? (fun g => g.conn == conn && g.code == code
      && g.keyId == key) = some g ∧ g.due ≤ s.now ∧ g.latest = none) ∧
    (∃ (s : State) (conn : Nat) (code : Nat) (key : Nat) (d : Nat) (a : Nat) (r : Nat) (g : NoticeGap), conn < 0xFFFF ∧ s.mem.gaps.find? (fun g =>
      g.conn == conn && g.code == code && g.keyId == key) = some g ∧ g.due ≤ s.now ∧ g.latest = some (d, a, r)) :=
  ⟨⟨gapped none, 8, 0x4001, 3, _, by decide, rfl, by decide⟩,
    ⟨gapped (some (0, 64, 64)), 8, 0x4001, 3, 0, 64, 64, _, by decide, rfl, by decide⟩⟩

theorem witness_MediumAccessesEnd :
    (∃ (s : State) (u : State) (p : Nat) (f : Nat) (cells : List Int) (epochCells : List Int) (drift : List Int) (e : Sense) (x : FragState), drift =
      slotDrift cells epochCells ∧ p < 2 ^ 34 ∧ f < 9 ∧ s.mem.senses.find p = some e ∧ e.frags[f]? = some x ∧ x.ended = none ∧ u = (if x.attempts = 0
      && !(s.senseFrag p f e x drift).2.1 then (s.count (Reg.stkCount (fragStack p f) 5) 1).raise 0x2008 (fragDie p f) (s.senseFrag p f e x drift).1
      else s)) ∧
    (∃ (s : State) (p : Nat) (f : Nat) (d : Nat) (e : Sense) (x : FragState), p < 2 ^ 34 ∧ f < 9 ∧ s.mem.senses.find p = some e ∧ e.frags[f]? = some x
      ∧ x.rowOpen = some d ∧ d ≤ s.now) ∧
    (∃ (s : State) (u : State) (v : State) (p : Nat) (f : Nat) (n : Nat) (k : Nat) (q : Nat) (out : List Nat) (g : Program), p < 2 ^ 34 ∧ f < 9 ∧
      s.mem.programs.find p = some g ∧ g.running f = true ∧ s.flag (Reg.stkPort (fragStack p f)) 2 = false ∧ k = (if g.retried.contains f then 8 else
      1) ∧ q = (if out.isEmpty then max k (min (k * s.pulseMax) n) else max (k * s.pulseMax) 1) ∧ u = (s.count (Reg.stkCount (fragStack p f) 6)
      k).count (Reg.stkCount (fragStack p f) 7) q ∧ v = (if g.retried.contains f then u.remapRow (fragDie p f) (lineBank p) (lineRow p) q else u) ∧
      s.programPasses out = true) ∧
    (∃ (s : State) (u : State) (p : Nat) (f : Nat) (n : Nat) (k : Nat) (q : Nat) (out : List Nat) (g : Program), p < 2 ^ 34 ∧ f < 9 ∧
      s.mem.programs.find p = some g ∧ g.running f = true ∧ s.flag (Reg.stkPort (fragStack p f)) 2 = false ∧ k = (if g.retried.contains f then 8 else
      1) ∧ q = (if out.isEmpty then max k (min (k * s.pulseMax) n) else max (k * s.pulseMax) 1) ∧ u = ((s.count (Reg.stkCount (fragStack p f) 6)
      k).count (Reg.stkCount (fragStack p f) 7) q).count (Reg.stkCount (fragStack p f) 8) 1 ∧ s.programPasses out = false) :=
  ⟨⟨sensing none, _, 2 ^ 34 - 1, 8, [], [], _, _, _, rfl, by decide, by decide, rfl, rfl, by decide, rfl⟩,
    ⟨sensing none, 2 ^ 34 - 1, 8, 5, _, _, by decide, by decide, rfl, rfl, by decide⟩,
    ⟨programming [], _, _, 2 ^ 34 - 1, 8, 3, _, _, [], _, by decide, by decide, rfl, by decide, by decide, rfl, rfl, rfl, rfl, by decide⟩,
    ⟨programming [8], _, 2 ^ 34 - 1, 8, 3, _, _, [103], _, by decide, by decide, rfl, by decide, by decide, rfl, rfl, rfl, by decide⟩⟩

theorem witness_EpochsAndLinksOfTheStacks :
    (∃ (s : State) (d : Nat), s.timers.find Timer.epoch = some d ∧ d ≤ s.now) ∧
    (∃ (s : State) (d : Nat), s.timers.find Timer.epochRecheck = some d ∧ d ≤ s.now) ∧
    (∃ (s : State) (u : State), s.mem.epochAdvance = true ∧ u =
      ((((({ s with free := s.free + 1, mem := { s.mem with epochAdvance := false, ages := (List.range 72).foldl (fun t d => t.put (d * 64 + s.nextLabel) { index := 0, early := false, residual := 0, fitTime := s.tick32 (Island.stack (d / 8)) }) s.mem.ages, noWitness := s.mem.noWitness.filter (fun e => e.1 % 64 != s.nextLabel) } }
      : State).saturate Reg.stkEpoch 31 8).setFld Reg.stkEpoch 5 0 s.nextLabel).clrFlag Reg.stkEpoch 6).setFld Reg.stkEpoch 63 32 0)) ∧
    (∃ (s : State) (d : Nat), s.timers.find Timer.refit = some d ∧ d ≤ s.now ∧ s.fwPaused = false) ∧
    (∃ (s : State) (d : Nat) (band : Nat → Nat), s.timers.find Timer.band = some d ∧ d ≤ s.now ∧ (∀ k, band k = nextBand (s.band k) (7 * signed16
      (s.fld (Reg.stkPort (k / 8)) 23 8) + (signed16 (s.fld (Reg.stkPort (k / 8)) 39 24) - signed16 (s.fld (Reg.stkPort (k / 8)) 23 8)) * ((k % 8 :
      Nat) : Int)))) ∧
    (∃ (s : State) (u : State) (k : Nat), k < 9 ∧ u = ({ s with mem := { s.mem with flitReplays := s.mem.flitReplays.put k 1 } } : State).count
      (Reg.stkCount k 11) 1) ∧
    (∃ (s : State) (u : State) (k : Nat) (n : Nat), k < 9 ∧ n = s.mem.flitReplays.get k 0 + 1 ∧ u =
      ({ s with mem := { s.mem with flitReplays := s.mem.flitReplays.put k n } } : State).count (Reg.stkCount k 11) 1) ∧
    (∃ (k : Nat), k < 9) ∧
    (∃ (s : State) (u : State) (k : Nat) (d : Nat), k < 9 ∧ s.mem.retrain.find k = some d ∧ d ≤ s.now ∧ u = (s.setFlag (Reg.stkPort k) 0).setFlag
      Reg.stkStatus k) ∧
    (∃ (s : State) (k : Nat) (d : Nat), k < 9 ∧ s.mem.retrain.find k = some d ∧ d ≤ s.now) :=
  ⟨⟨ripe live, 5, by decide⟩,
    ⟨ripe live, 5, by decide⟩,
    ⟨{ live with mem := { live.mem with epochAdvance := true } }, _, by decide, rfl⟩,
    ⟨ripe live, 5, by decide⟩,
    ⟨ripe live, 5, _, by decide, by decide, fun _ => rfl⟩,
    ⟨live, _, 8, by decide, rfl⟩,
    ⟨live, _, 8, _, by decide, rfl, rfl⟩,
    ⟨8, by decide⟩,
    ⟨{ live with mem := { live.mem with retrain := [(8, 5)] } }, _, 8, 5, by decide, by decide, by decide, rfl⟩,
    ⟨{ live with mem := { live.mem with retrain := [(8, 5)] } }, 8, 5, by decide⟩⟩

theorem witness_ScrubbingAndResilvering :
    (∃ (s : State) (u : State) (d : Nat), s.timers.find Timer.scrubPass = some d ∧ d ≤ s.now ∧ u = (if s.passLeft = 0 then s.clrFlag Reg.scrStatus 1
      else (s.setFlag Reg.scrStatus 1).raise 0x200C s.self (s.passLeft / 1024))) ∧
    (∃ (s : State) (d : Nat) (n : Nat), s.timers.find Timer.scrubPace = some d ∧ d ≤ s.now ∧ n = min (s.passLeft / max 1 ((s.mem.passEnd - s.now) /
      sec 1)) (s.fld Reg.scrCfg 48 44 * 109000000000 / 100 / 256)) ∧
    (∃ (s : State) (u : State) (l : List Byte), s.bobTake 2 = some (l, u)) ∧
    (∃ (s : State) (p : Nat), s.bobTake 2 = none ∧ s.earlyLine = some p) ∧
    (∃ (s : State), s.bobTake 2 = none ∧ s.earlyLine = none ∧ s.mem.areasDue = true) ∧
    (∃ (s : State) (u : State) (p : Nat), s.bobTake 2 = none ∧ s.earlyLine = none ∧ s.mem.areasDue = false ∧ s.passNext s.mem.scrubNext = some p ∧ u =
      ({ s with mem := { s.mem with scrubNext := p + 1 } } : State).visit p) ∧
    (∃ (s : State) (d : Nat), d < 72 ∧ (s.die d).checking = true ∧ (s.die d).st = .failed) ∧
    (∃ (s : State) (u : State) (d : Nat) (ps : Nat) (rest : List Nat), s.resilverDie = some d ∧ u = (s.setFld Reg.scrResilver 6 0 d).setFlag
      Reg.scrResilver 7 ∧ (u.die d).filling = none ∧ u.notCurrent d = ps :: rest) ∧
    (∃ (s : State) (u : State) (v : State) (d : Nat) (ps : Nat), s.resilverDie = some d ∧ u = (s.setFld Reg.scrResilver 6 0 d).setFlag Reg.scrResilver
      7 ∧ (u.die d).filling = some ps ∧ v = u.pushOut ps) :=
  ⟨⟨ripe placed, _, 5, by decide, by decide, rfl⟩,
    ⟨ripe placed, 5, _, by decide, by decide, rfl⟩,
    ⟨{ placed with bob := { bobs := [(2, { bobbin with pkts := [{ len := 8, words := [(5 * 512, false), (0, false)] }] })], wins := [] } }, _, _, rfl⟩,
    ⟨early, _, by decide, rfl⟩,
    ⟨{ placed with mem := { placed.mem with areasDue := true } }, by decide⟩,
    ⟨{ placed with mem := { placed.mem with areasDue := false } }, _, 5 * 512, by decide, by decide, by decide, by decide, rfl⟩,
    ⟨dies 71 { oneDie with st := .failed, checking := true }, 71, by decide⟩,
    ⟨dies 5 oneDie, _, 5, 5, [], by decide, rfl, by decide⟩,
    ⟨dies 5 { oneDie with filling := some 5 }, _, _, 5, 5, by decide, rfl, by decide, rfl⟩⟩

theorem witness_DramAccessesAndChannels :
    (∃ (s : State) (ln : Nat), s.mem.dramReads.any (fun d => d.line == ln && d.issued && !d.bad) = true ∧ s.mem.probing.has (dramGroup (s.targetAddr
      (.tier ln))) = false ∧ s.mem.dramReads.any (fun d => d.line == ln && d.fwd) = true) ∧
    (∃ (s : State) (ln : Nat) (out : _) (a : _), s.mem.dramReads.any (fun d => d.line == ln && d.issued && !d.bad) = true ∧ s.mem.probing.has
      (dramGroup (s.targetAddr (.tier ln))) = false ∧ s.mem.dramReads.any (fun d => d.line == ln && d.fwd) = false ∧ a = s.targetAddr (.tier ln) ∧
      s.codewordEnd (dramGroup a) out = .clean) ∧
    (∃ (s : State) (ln : Nat) (out : _) (a : _), s.mem.dramReads.any (fun d => d.line == ln && d.issued && !d.bad) = true ∧ s.mem.probing.has
      (dramGroup (s.targetAddr (.tier ln))) = false ∧ s.mem.dramReads.any (fun d => d.line == ln && d.fwd) = false ∧ a = s.targetAddr (.tier ln) ∧
      s.codewordEnd (dramGroup a) out = .erasure) ∧
    (∃ (s : State) (ln : Nat) (out : _) (a : _) (l : _), s.mem.dramReads.any (fun d => d.line == ln && d.issued && !d.bad) = true ∧ s.mem.probing.has
      (dramGroup (s.targetAddr (.tier ln))) = false ∧ s.mem.dramReads.any (fun d => d.line == ln && d.fwd) = false ∧ a = s.targetAddr (.tier ln) ∧
      s.codewordEnd (dramGroup a) out = .corrected l) ∧
    (∃ (s : State) (ln : Nat) (cw : Nat) (out : _) (a : _) (u : State), s.mem.dramReads.any (fun d => d.line == ln && d.issued && !d.bad) = true ∧
      s.mem.probing.has (dramGroup (s.targetAddr (.tier ln))) = false ∧ s.mem.dramReads.any (fun d => d.line == ln && d.fwd) = false ∧ a =
      s.targetAddr (.tier ln) ∧ s.codewordEnd (dramGroup a) out = .uncorrectable ∧ u = ((s.errLast 3 a cw 0 0).count (Reg.drcCount 12) 1).count
      (Reg.scrCount 8) 1) ∧
    (∃ (s : State) (g : Nat), (groupChannels g).any s.erased = true) ∧
    (∃ (s : State) (g : Nat), (groupChannels g).any s.erased = false) ∧
    (∃ (s : State) (g : Nat) (l : List (Nat × Nat)), (groupChannels g).any s.erased = false ∧ 16 < ((l.filter (fun c => c.1 / 5 == g)).foldl (fun (a :
      Nat) c => a + c.2) 0)) ∧
    (∃ (s : State) (u : State) (g : Nat) (a : Nat) (f : List Nat) (bad : List Nat), g < 2 ∧ s.mem.probing.find g = some a ∧ u =
      ({ s with mem := { s.mem with probing := s.mem.probing.drop g } } : State).serveDram ∧ bad = (u.mem.dramReads.filter (fun d => d.bad &&
      dramGroup (u.targetAddr (.tier d.line)) == g)).map (·.line) ∧ f.filter (fun c => c / 5 == g) = [] ∧ bad = []) ∧
    (∃ (s : State) (u : State) (g : Nat) (a : Nat) (f : List Nat) (bad : List Nat), g < 2 ∧ s.mem.probing.find g = some a ∧ u =
      ({ s with mem := { s.mem with probing := s.mem.probing.drop g } } : State).serveDram ∧ bad = (u.mem.dramReads.filter (fun d => d.bad &&
      dramGroup (u.targetAddr (.tier d.line)) == g)).map (·.line) ∧ f.filter (fun c => c / 5 == g) = [] ∧ bad ≠ []) ∧
    (∃ (s : State) (u : State) (v : State) (g : Nat) (a : Nat) (f : List Nat) (bad : List Nat), g < 2 ∧ s.mem.probing.find g = some a ∧ u =
      ({ s with mem := { s.mem with probing := s.mem.probing.drop g } } : State).serveDram ∧ bad = (u.mem.dramReads.filter (fun d => d.bad &&
      dramGroup (u.targetAddr (.tier d.line)) == g)).map (·.line) ∧ f.filter (fun c => c / 5 == g) ≠ [] ∧ v = (f.filter (fun c => c / 5 == g)).foldl
      (fun x c => (x.restartRefill c).eraseChannel c) u) ∧
    (∃ (s : State) (u : State), s.flag Reg.scrDramStatus 10 = true ∧ u = (((s.clrFlag Reg.scrDramStatus 10).setFld Reg.scrDramStatus 63 32 0).clrFlag
      Reg.scrDramStatus (s.fld Reg.scrDramStatus 19 16)).raise 0x8002 (s.fld Reg.scrDramStatus 19 16) (s.fld Reg.scrDramStatus 19 16)) ∧
    (∃ (s : State), s.flag Reg.drcStatus 2 = true) ∧
    (∃ (s : State) (g : Nat) (d : Nat), g < 2 ∧ s.groupReads g = false ∧ s.timers.find (Timer.pause g) = some d ∧ d ≤ s.now) ∧
    (∃ (s : State) (d : Nat), s.timers.find Timer.patrol = some d ∧ d ≤ s.now) :=
  ⟨⟨{ reading with mem := { reading.mem with dramReads := [{ readingLine with fwd := true }] } }, 3 * 2 ^ 48, by decide⟩,
    ⟨reading, 3 * 2 ^ 48, .clean, _, by decide, by decide, by decide, rfl, by decide⟩,
    ⟨put reading [(Reg.scrDramStatus, 1)], 3 * 2 ^ 48, .clean, _, by decide, by decide, by decide, rfl, by decide⟩,
    ⟨reading, 3 * 2 ^ 48, .corrected [(1, 16)], _, _, by decide, by decide, by decide, rfl, rfl⟩,
    ⟨reading, 3 * 2 ^ 48, 0, .corrected [(0, 9), (1, 8)], _, _, by decide, by decide, by decide, rfl, by decide, rfl⟩,
    ⟨put live [(Reg.scrDramStatus, 2 ^ 9)], 1, by decide⟩,
    ⟨put live [(Reg.scrDramStatus, 2 ^ 9)], 0, by decide⟩,
    ⟨put live [(Reg.scrDramStatus, 2 ^ 9)], 0, [(0, 9), (4, 8)], by decide⟩,
    ⟨probing [], _, 1, 257, [], _, by decide, by decide, rfl, rfl, by decide, rfl⟩,
    ⟨{ reading with mem := { reading.mem with probing := [(0, 257)], dramReads := [{ readingLine with bad := true }] } }, _, 0, 257, [], _, by decide,
      by decide, rfl, rfl, by decide, by decide +kernel⟩,
    ⟨probing [], _, _, 1, 257, [9], _, by decide, by decide, rfl, rfl, by decide, rfl⟩,
    ⟨put live [(Reg.scrDramStatus, 2 ^ 10 + 2 ^ 9 + 9 * 2 ^ 16)], _, by decide, rfl⟩,
    ⟨put live [(Reg.drcStatus, 4)], by decide⟩,
    ⟨ripe live, 1, 5, by decide⟩,
    ⟨ripe live, 5, by decide⟩⟩

theorem witness_WaysChangeAndMaintenanceEnds :
    (∃ (s : State) (k : Nat) (w : Nat) (x : Way), k < 32 ∧ w < 16 ∧ x = s.way k w ∧ x.st = .cleaning ∧ s.mem.evb.any (fun e => homeSlice e.1 == k &&
      e.2.way == w && e.2.dirty != 0) = false) ∧
    (∃ (s : State) (u : State) (k : Nat) (w : Nat) (x : Way), k < 32 ∧ w < 16 ∧ x = s.way k w ∧ x.st = .joining ∧ u = (s.putWay k w
      { x with st := .on }).count (Reg.llcCount 9) 1) ∧
    (∃ (s : State) (k : Nat) (w : Nat) (x : Way), k < 32 ∧ w < 16 ∧ x = s.way k w ∧ x.testing = true) ∧
    (∃ (s : State) (v : State) (w : State) (m : Maint), s.mem.maint = some m ∧ v = (s.maintGo m).2.setFld Reg.llcMaintStatus 63 32 ((s.maintGo
      m).2.maintLeft m) ∧ w = (({ v with mem := { v.mem with maint := none } } : State).clrFlag Reg.llcMaintStatus 0).setFlag Reg.llcMaintStatus 1) :=
  ⟨⟨ways { st := .cleaning, locked := false, why := 0, testing := false }, 31, 15, _, by decide, by decide, rfl, by decide⟩,
    ⟨ways { st := .joining, locked := false, why := 0, testing := false }, _, 31, 15, _, by decide, by decide, rfl, by decide, rfl⟩,
    ⟨ways { st := .disabled, locked := false, why := 1, testing := true }, 31, 15, _, by decide, by decide, rfl, by decide⟩,
    ⟨fillingLocked, _, _, _, rfl, rfl, rfl⟩⟩

theorem witness_AgentsRequestLines :
    (∃ (s : State) (a : Nat) (ln : Nat), a < 24 ∧ ln < 2 ^ 56 ∧ s.domainIsUp = true ∧ s.copyOf a ln = none) ∧
    (∃ (s : State) (a : Nat) (ln : Nat), a < 27 ∧ ln < 2 ^ 56 ∧ s.domainIsUp = true ∧ s.copyOf a ln = none ∧ mayOwn a ln = true) ∧
    (∃ (s : State) (a : Nat) (ln : Nat), a < 27 ∧ ln < 2 ^ 56 ∧ s.domainIsUp = true ∧ mayOwn a ln = true) ∧
    (∃ (s : State) (a : Nat) (ln : Nat), a < 27 ∧ ln < 2 ^ 56 ∧ s.domainIsUp = true) ∧
    (∃ (s : State) (a : Nat) (ln : Nat) (f : Nat) (off : Nat) (len : Nat), a < 27 ∧ ln < 2 ^ 56 ∧ s.domainIsUp = true ∧ f ≤ 9 ∧ off + len ≤ 256) ∧
    (∃ (s : State) (a : Nat) (ln : Nat), 24 ≤ a ∧ a < 27 ∧ ln < 2 ^ 56 ∧ s.domainIsUp = true) ∧
    (∃ (s : State) (a : Nat) (ln : Nat), a < 27 ∧ ln < 2 ^ 56 ∧ s.domainIsUp = true ∧ mayOwn a ln = false) :=
  ⟨⟨stocked, 23, 2 ^ 56 - 1, by decide⟩,
    ⟨stocked, 11, own, by decide⟩,
    ⟨stocked, 11, own, by decide⟩,
    ⟨stocked, 26, 2 ^ 56 - 1, by decide⟩,
    ⟨stocked, 26, 0, 9, 240, 16, by decide⟩,
    ⟨stocked, 24, 0, by decide⟩,
    ⟨stocked, 26, own, by decide⟩⟩

theorem witness_CopiesAreGivenBackAndForwarded :
    (∃ (s : State) (a : Nat) (ln : Nat) (c : AgentLine), a < 27 ∧ ln < 2 ^ 56 ∧ s.domainIsUp = true ∧ s.copyOf a ln = some c ∧ c.st ≠ .s) ∧
    (∃ (s : State) (a : Nat) (ln : Nat) (c : AgentLine), a < 27 ∧ ln < 2 ^ 56 ∧ s.domainIsUp = true ∧ s.copyOf a ln = some c ∧ (c.st = .s ∨ c.st =
      .e)) ∧
    (∃ (s : State) (t : State) (a : Nat) (ln : Nat) (q : Nat) (w : Option LineBits) (b : AgentLine) (c : AgentLine), a < 27 ∧ ln < 2 ^ 56 ∧ s.take
      (CohMsg.isSnpShare a ln) = some (.snpShare a ln q, t) ∧ t.copyOf a ln = some b ∧ c = b.now w) ∧
    (∃ (s : State) (t : State) (a : Nat) (ln : Nat) (q : Nat) (w : Option LineBits) (b : AgentLine) (c : AgentLine), a < 27 ∧ ln < 2 ^ 56 ∧ s.take
      (CohMsg.isSnpOwn a ln) = some (.snpOwn a ln q, t) ∧ t.copyOf a ln = some b ∧ c = b.now w) ∧
    (∃ (s : State) (t : State) (a : Nat) (ln : Nat) (w : Option LineBits) (b : AgentLine) (c : AgentLine), a < 27 ∧ ln < 2 ^ 56 ∧ s.take
      (CohMsg.isSnpInv a ln) = some (.snpInv a ln, t) ∧ t.copyOf a ln = some b ∧ c = b.now w) ∧
    (∃ (s : State) (t : State) (a : Nat) (ln : Nat) (q : Nat), a < 27 ∧ ln < 2 ^ 56 ∧ t.copyOf a ln = none ∧ s.take (CohMsg.isSnpShare a ln) = some
      (.snpShare a ln q, t)) ∧
    (∃ (s : State) (t : State) (a : Nat) (ln : Nat) (q : Nat), a < 27 ∧ ln < 2 ^ 56 ∧ t.copyOf a ln = none ∧ s.take (CohMsg.isSnpOwn a ln) = some
      (.snpOwn a ln q, t)) ∧
    (∃ (s : State) (t : State) (a : Nat) (ln : Nat), a < 27 ∧ ln < 2 ^ 56 ∧ t.copyOf a ln = none ∧ s.take (CohMsg.isSnpInv a ln) = some (.snpInv a ln,
      t)) :=
  ⟨⟨net [], 26, 3 * 2 ^ 48, _, by decide, by decide, by decide, rfl, by decide⟩,
    ⟨{ stocked with mem := { stocked.mem with agents := [(agentKey 26 5, { st := .s, data := 0, poison := 0 })] } }, 26, 5, _, by decide, by decide,
      by decide, rfl, Or.inl rfl⟩,
    ⟨net [.snpShare 26 (3 * 2 ^ 48) 0], _, 26, 3 * 2 ^ 48, 0, none, _, _, by decide, by decide, rfl, rfl, rfl⟩,
    ⟨net [.snpOwn 26 (3 * 2 ^ 48) 0], _, 26, 3 * 2 ^ 48, 0, none, _, _, by decide, by decide, rfl, rfl, rfl⟩,
    ⟨net [.snpInv 26 (3 * 2 ^ 48)], _, 26, 3 * 2 ^ 48, some 0, _, _, by decide, by decide, rfl, rfl, rfl⟩,
    ⟨net [.snpShare 26 5 0], _, 26, 5, 0, by decide, by decide, rfl, rfl⟩,
    ⟨net [.snpOwn 26 5 0], _, 26, 5, 0, by decide, by decide, rfl, rfl⟩,
    ⟨net [.snpInv 26 5], _, 26, 5, by decide, by decide, rfl, rfl⟩⟩

theorem witness_CoherenceAnswersArrive :
    (∃ (s : State) (t : State) (a : Nat) (ln : Nat) (st : CohSt) (d : LineBits) (p : BitVec 4), a < 27 ∧ ln < 2 ^ 56 ∧ s.take (CohMsg.isFwdData a ln)
      = some (.fwdData a ln st d p, t)) ∧
    (∃ (s : State) (t : State) (a : Nat) (ln : Nat) (st : CohSt) (d : Option LineBits) (p : BitVec 4), a < 27 ∧ ln < 2 ^ 56 ∧ s.mem.net.any
      (CohMsg.isGrant a ln) = true ∧ s.take (CohMsg.isGrant a ln) = some (.grant a ln st d p, t)) ∧
    (∃ (s : State) (t : State) (a : Nat) (ln : Nat) (st : Option CohSt), a < 27 ∧ ln < 2 ^ 56 ∧ s.take (CohMsg.isAck a ln) = some (.ack a ln st none,
      t)) ∧
    (∃ (s : State) (t : State) (a : Nat) (ln : Nat) (st : Option CohSt) (d : LineBits) (p : BitVec 4), a < 27 ∧ ln < 2 ^ 56 ∧ s.take (CohMsg.isAck a
      ln) = some (.ack a ln st (some (d, p)), t)) ∧
    (∃ (s : State) (t : State) (a : Nat) (ln : Nat) (m : CohMsg), a < 27 ∧ ln < 2 ^ 56 ∧ s.take (CohMsg.isEvicting a ln) = some (m, t)) ∧
    (∃ (s : State) (t : State) (a : Nat) (ln : Nat) (h : Nat) (d : LineBits) (p : BitVec 4) (l : LlcLine), a < 27 ∧ ln < 2 ^ 56 ∧ s.take
      (CohMsg.isPush a ln) = some (.push a ln d p, t) ∧ h = (t.mem.agents.filter (fun e => e.1 / 2 ^ 56 == a)).length ∧ t.resident ln = some l) ∧
    (∃ (s : State) (a : Nat) (ln : Nat) (t : CohTxn), a < 27 ∧ ln < 2 ^ 56 ∧ s.mem.txns.find ln = some t ∧ t.await.contains a = true ∧ t.due ≤ s.now ∧
      s.overtaken t.due (answers a ln) = false) ∧
    (∃ (s : State) (u : State), s.fld Reg.cohStatus 1 0 = 2 ∧ u = (s.mem.llc ++ s.mem.evb).foldl (fun t e => t.salvageLine e.1 e.2) (s.wr
      Reg.cohSalvage 0)) ∧
    (∃ (s : State) (u : State), s.fld Reg.cohStatus 1 0 = 3 ∧ s.flag Reg.glbStatus 1 = true ∧ s.mem.domSecond = false ∧ u = ((s.setFld Reg.cohStatus 1
      0 0).setFld Reg.cohSalvage 63 48 ((s.now - s.mem.domFailAt) / ms 1)).raise 0x7004 s.self ((s.now - s.mem.domFailAt) / ms 1)) ∧
    (∃ (s : State), s.fld Reg.cohStatus 1 0 = 3 ∧ s.flag Reg.glbStatus 1 = true ∧ s.mem.domSecond = true) :=
  ⟨⟨net [.fwdData 26 0 .s 0 0], _, 26, 0, _, _, _, by decide, by decide, rfl⟩,
    ⟨net [.grant 26 0 .s (some 0) 0], _, 26, 0, _, _, _, by decide, by decide, by decide, rfl⟩,
    ⟨net [.ack 26 0 (some .s) none], _, 26, 0, _, by decide, by decide, rfl⟩,
    ⟨net [.ack 26 0 (some .s) (some (0, 0))], _, 26, 0, _, _, _, by decide, by decide, rfl⟩,
    ⟨net [.evicting 26 0], _, 26, 0, _, by decide, by decide, rfl⟩,
    ⟨net [.push 26 (3 * 2 ^ 48) 0 0], _, 26, 3 * 2 ^ 48, _, 0, 0, _, by decide, by decide, rfl, rfl, rfl⟩,
    ⟨net [], 26, 3 * 2 ^ 48, _, by decide, by decide, rfl, by decide⟩,
    ⟨put stocked [(Reg.cohStatus, 2)], _, by decide, rfl⟩,
    ⟨put stocked [(Reg.cohStatus, 3)], _, by decide, by decide, by decide, rfl⟩,
    ⟨{ put stocked [(Reg.cohStatus, 3)] with mem := { stocked.mem with domSecond := true } }, by decide⟩⟩

theorem witness_QueriesAnswer :
    (∀ c ∈ [(Instr.identity, 0x0101, State.identityData), (.deviceStatus, 0x0102, State.deviceStatusData), (.adminKeyList, 0x0112,
      State.adminKeyData), (.certGet, 0x0104, fun _ => Config.identityCert), (.wearStatus, 0x0310, State.wearData), (.tierStatus, 0x0311,
      State.tierData), (.powerStatus, 0x0701, State.powerData), (.thermalStatus, 0x0710, State.thermalData), (.holdupStatus, 0x0720,
      State.holdupData), (.fwStatus, 0x0901, State.fwStatusData), (.selftestReport, 0x0A01, State.reportData)], ∃ (s : State) (t : State) (m : Nat) (r
      : Req), s.Asked m c.2.1 1 r t ∧ r.data = []) ∧
    (∀ c ∈ [(Instr.identity, 0x0101, State.identityData), (.deviceStatus, 0x0102, State.deviceStatusData), (.adminKeyList, 0x0112,
      State.adminKeyData), (.certGet, 0x0104, fun _ => Config.identityCert), (.wearStatus, 0x0310, State.wearData), (.tierStatus, 0x0311,
      State.tierData), (.powerStatus, 0x0701, State.powerData), (.thermalStatus, 0x0710, State.thermalData), (.holdupStatus, 0x0720,
      State.holdupData), (.fwStatus, 0x0901, State.fwStatusData), (.selftestReport, 0x0A01, State.reportData)], ∃ (s : State) (t : State) (m : Nat) (r
      : Req), s.Asked m c.2.1 1 r t ∧ r.data ≠ []) :=
  ⟨fun c hc => ⟨ask live c.2.1 [], ask live c.2.1 [], 0, rq live [], asked live c.2.1 1 [] rfl, (by revert c; decide)⟩,
    fun c hc => ⟨ask live c.2.1 [0], ask live c.2.1 [0], 0, rq live [0], asked live c.2.1 1 [0] rfl, (by revert c; decide)⟩⟩

theorem witness_KeepStatusReturnsThreeRegisters :
    (∃ (s : State) (t : State) (m : Nat) (r : Req), s.Asked m 0x0B01 1 r t ∧ r.data ≠ []) ∧
    (∃ (s : State) (t : State) (m : Nat) (r : Req), s.Asked m 0x0B01 1 r t ∧ r.data = []) :=
  ⟨⟨_, _, _, _, asked (live) 0x0B01 1 ([0]) (by decide), by decide⟩,
    ⟨_, _, _, _, asked (live) 0x0B01 1 ([]) (by decide), by decide⟩⟩

theorem witness_RegionsAndGrants :
    (∃ (s : State) (t : State) (e : State) (m : Nat) (r : Req) (x : Region) (dir : Table DirEntry), s.Asked m 0x0201 3 r t ∧ t.KeepOpen ∧ e =
      t.entered r 0x0201 [] r.data ∧ r.data.length = 24 ∧ zeroAt r.data 4 4 = true ∧ leAt r.data 3 1 < 2 ∧ x =
      { keyId := leAt r.data 2 1, mirrored := leAt r.data 3 1 == 1, base := leAt r.data 8 8, size := leAt r.data 16 8 } ∧ x.base % 2 ^ 30 = 0 ∧ x.size
      ≠ 0 ∧ x.size % 2 ^ 30 = 0 ∧ 1 ≤ leAt r.data 0 2 ∧ leAt r.data 0 2 ≤ 4095 ∧ t.mem.regions.has (leAt r.data 0 2) = false ∧ x.base + x.size ≤ 2 ^
      56 ∧ t.mem.regions.any (fun e => decide (e.2.base < x.base + x.size) && decide (x.base < e.2.base + e.2.size)) = false ∧ x.keyId ≠ 255 ∧
      t.placeRegion (leAt r.data 0 2) x.keyId x.mirrored x.base x.size = some dir ∧ e.placeRegion (leAt r.data 0 2) x.keyId x.mirrored x.base x.size =
      some dir) ∧
    (∃ (s : State) (t : State) (e : State) (m : Nat) (r : Req) (x : Region), s.Asked m 0x0202 3 r t ∧ t.KeepOpen ∧ lengthZero 8 2 6 r = none ∧
      t.mem.regions.find (leAt r.data 0 2) = some x ∧ t.filet.matrices.any (fun e => decide (x.base ≤ e.2.source % 2 ^ 56) && decide (e.2.source % 2 ^
      56 < x.base + x.size)) = false ∧ e = t.entered r 0x0202 (t.regionEntry (leAt r.data 0 2) x) r.data) ∧
    (∃ (s : State) (t : State) (m : Nat) (r : Req) (l : List (Nat × Region)), s.Asked m 0x0203 1 r t ∧ lengthZero 4 2 2 r = none ∧ l =
      t.mem.regions.filter (fun e => decide (leAt r.data 0 2 ≤ e.1))) ∧
    (∃ (s : State) (t : State) (e : State) (m : Nat) (r : Req), s.Asked m 0x0210 3 r t ∧ t.KeepOpen ∧ t.grantCheck r = none ∧ e = t.entered r 0x0210
      (match t.mem.grants.find (leAt r.data 0 2) with | some g => grantBody (leAt r.data 0 2) g | none => []) r.data) ∧
    (∃ (s : State) (t : State) (e : State) (m : Nat) (r : Req) (g : Grant), s.Asked m 0x0211 3 r t ∧ t.KeepOpen ∧ lengthZero 8 2 6 r = none ∧
      t.mem.grants.find (leAt r.data 0 2) = some g ∧ e = t.entered r 0x0211 (grantBody (leAt r.data 0 2) g) r.data) ∧
    (∃ (s : State) (t : State) (m : Nat) (k : Nat) (r : Req) (g : Grant), s.Asked m 0x0212 2 r t ∧ lengthZero 4 2 2 r = none ∧ t.mem.grants.nextKey
      (leAt r.data 0 2) = some k ∧ t.mem.grants.find k = some g) :=
  ⟨⟨_, _, _, _, _, _, _, asked ({ stocked with mem := { stocked.mem with regions := [], dir := [] } }) 0x0201 3 (bytes [255, 15, 3, 0, 0, 0, 0, 0] ++
      leBytes 8 (2 ^ 55) ++ leBytes 8 (2 ^ 30)) (by decide), ⟨rfl, rfl⟩, rfl, by decide, by decide, by decide, rfl, by decide, by decide, by decide,
      by decide, by decide, by decide, by decide, by decide, by decide, rfl, rfl⟩,
    ⟨_, _, _, _, _, _, asked (stocked) 0x0202 3 (bytes [1, 0, 0, 0, 0, 0, 0, 0]) (by decide), ⟨rfl, rfl⟩, by decide, rfl, by decide, rfl⟩,
    ⟨_, _, _, _, _, asked (stocked) 0x0203 1 (bytes [0, 0, 0, 0]) (by decide), by decide, rfl⟩,
    ⟨_, _, _, _, _, asked (stocked) 0x0210 3 (bytes [254, 255, 3, 0, 255, 1, 1, 0, 4, 32, 1, 0, 0, 0, 0, 0, 10, 0, 0, 1] ++ zeros 12 ++ bytes [1, 0,
      15, 0]) (by decide), ⟨rfl, rfl⟩, by decide, rfl⟩,
    ⟨_, _, _, _, _, _, asked (stocked) 0x0211 3 (bytes [1, 0, 0, 0, 0, 0, 0, 0]) (by decide), ⟨rfl, rfl⟩, by decide, rfl, rfl⟩,
    ⟨_, _, _, 1, _, _, asked (stocked) 0x0212 2 (bytes [1, 0, 0, 0]) (by decide), by decide, by decide, rfl⟩⟩

theorem witness_HintsAndRetirement :
    (∃ (s : State) (t : State) (m : Nat) (r : Req), s.Asked m 0x0301 2 r t ∧ lengthZero 24 17 7 r = none ∧ t.hintCheck r (leAt r.data 0 8) (leAt
      r.data 8 8) (leAt r.data 8 8 % 131072 == 0 && leAt r.data 8 8 != 0) true (leAt r.data 16 1 ≤ 4) = none) ∧
    (∃ (s : State) (t : State) (m : Nat) (r : Req), s.Asked m 0x0302 1 r t ∧ lengthZero 16 10 6 r = none ∧ t.hintCheck r (leAt r.data 0 8) (131072 *
      leAt r.data 8 2) true (1 ≤ leAt r.data 8 2 && leAt r.data 8 2 ≤ 4000) true = none) ∧
    (∃ (s : State) (t : State) (m : Nat) (r : Req), s.Asked m 0x0320 3 r t ∧ t.KeepOpen ∧ lengthZero 8 4 4 r = none ∧ leAt r.data 0 4 ≤ 33554431 ∧
      (t.ldg (leAt r.data 0 4)).st ≠ .retired ∧ (t.ldg (leAt r.data 0 4)).st ≠ .moveDst) :=
  ⟨⟨_, _, _, _, asked (stocked) 0x0301 2 (leBytes 8 0 ++ leBytes 8 131072 ++ bytes [4, 0, 0, 0, 0, 0, 0, 0]) (by decide), by decide, rfl⟩,
    ⟨_, _, _, _, asked (stocked) 0x0302 1 (leBytes 8 0 ++ leBytes 2 4000 ++ zeros 6) (by decide), by decide⟩,
    ⟨_, _, _, _, asked (stocked) 0x0320 3 (leBytes 4 33554431 ++ zeros 4) (by decide), ⟨rfl, rfl⟩, by decide⟩⟩

theorem witness_FiletCommands :
    (∃ (s : State) (t : State) (e : State) (m : Nat) (k : Nat) (r : Req) (x : Matrix), s.Asked m 0x0401 2 r t ∧ t.KeepOpen ∧ t.loadCheck r = none ∧ e
      = { t.entered r 0x0401 [] r.data with free := (t.entered r 0x0401 [] r.data).free + 1 } ∧ ((List.range 1023).map (fun i => ((Config.free64
      (t.entered r 0x0401 [] r.data).free).toNat + i) % 1023 + 1)).find? (fun k => !e.filet.matrices.has k) = some k ∧ x =
      { matrixOf r.data with hoopTiles := ((e.matrixDevs (matrixOf r.data)).map (e.matrixTiles (matrixOf r.data))).foldl (· + ·) 0, waits := e.matrixDevs (matrixOf r.data), mailbox := some m }) ∧
    (∃ (s : State) (t : State) (e : State) (m : Nat) (r : Req) (x : Matrix), s.Asked m 0x0402 2 r t ∧ t.KeepOpen ∧ t.matrixCheck r = none ∧
      t.filet.matrices.find (leAt r.data 0 2) = some x ∧ e = t.entered r 0x0402 x.request r.data) ∧
    (∃ (s : State) (t : State) (u : State) (m : Nat) (k : Nat) (r : Req) (x : Matrix), s.Asked m 0x0403 2 r t ∧ t.matrixCheck r = none ∧ k = leAt
      r.data 0 2 ∧ t.filet.matrices.find k = some x ∧ u = ((t.modMatrix k (fun y => { y with waits := t.matrixDevs x, mailbox := some m })))) ∧
    (∃ (s : State) (t : State) (m : Nat) (r : Req) (x : Matrix), s.Asked m 0x0404 1 r t ∧ t.matrixCheck r = none ∧ t.filet.matrices.find (leAt r.data
      0 2) = some x) ∧
    (∃ (s : State) (t : State) (m : Nat) (r : Req) (l : List Nat), s.Asked m 0x0405 1 r t ∧ lengthZero 8 2 6 r = none ∧ l =
      t.filet.matrices.keys.filter (fun k => decide (leAt r.data 0 2 ≤ k))) ∧
    (∃ (s : State) (t : State) (m : Nat) (r : Req), s.Asked m 0x0410 1 r t ∧ r.data = []) ∧
    (∃ (s : State) (t : State) (e : State) (m : Nat) (r : Req), s.Asked m 0x0411 3 r t ∧ t.KeepOpen ∧ lengthZero 8 4 4 r = none ∧ (t.tile (leAt r.data
      0 4)).st = .failed ∧ e = t.entered r 0x0411 [] r.data) :=
  ⟨⟨_, _, _, _, _, _, _, asked (stocked) 0x0401 2 (matrix.request) (by decide), ⟨rfl, rfl⟩, by decide, rfl, find_first 1022 _ _ rfl, rfl⟩,
    ⟨_, _, _, _, _, _, asked (filet job (resultOp 0 5)) 0x0402 2 (bytes [1, 0, 0, 0, 0, 0, 0, 0]) (by decide), ⟨rfl, rfl⟩, by decide, rfl, rfl⟩,
    ⟨_, _, _, _, 1, _, _, asked (filet job (resultOp 0 5)) 0x0403 2 (bytes [1, 0, 0, 0, 0, 0, 0, 0]) (by decide), by decide, rfl, rfl, rfl⟩,
    ⟨_, _, _, _, _, asked (filet job (resultOp 0 5)) 0x0404 1 (bytes [1, 0, 0, 0, 0, 0, 0, 0]) (by decide), by decide, rfl⟩,
    ⟨_, _, _, _, _, asked (filet job (resultOp 0 5)) 0x0405 1 (bytes [1, 0, 0, 0, 0, 0, 0, 0]) (by decide), by decide, rfl⟩,
    ⟨_, _, _, _, asked (live) 0x0410 1 ([]) (by decide), by decide⟩,
    ⟨_, _, _, _, _, asked ({ live with filet := { live.filet with tiles := [(1179647, { Tile.empty with st := .failed })] } }) 0x0411 3 (leBytes 4
      1179647 ++ zeros 4) (by decide), ⟨rfl, rfl⟩, by decide, by decide, rfl⟩⟩

theorem witness_AdminAndConsoleCommands :
    (∃ (s : State) (t : State) (u : State) (m : Nat) (r : Req), s.Asked m 0x0103 1 r t ∧ r.data = [] ∧ u = t.draw256.2) ∧
    (Config.ecdsaOk (zeros 96) (sigMessage (zeros 32) 0x0110 []) (zeros 96) = true → ∃ (s : State) (t : State) (e : State) (m : Nat) (r : Req),
      s.Asked m 0x0110 3 r t ∧ t.KeepOpen ∧ t.kept.wp = false ∧ r.data = [] ∧ t.kept.adminKeys ≠ [] ∧ e = t.entered r 0x0110 [] []) ∧
    (∃ (s : State) (t : State) (e : State) (m : Nat) (i : Nat) (r : Req), s.Asked m 0x0111 3 r t ∧ t.KeepOpen ∧ t.kept.wp = false ∧ lengthZero 104 2 6
      r = none ∧ i = leAt r.data 0 1 ∧ i < 8 ∧ e = t.entered r 0x0111 ((t.kept.adminKeys.find i).getD []) r.data ∧ leAt r.data 1 1 = 0) ∧
    (∃ (s : State) (t : State) (e : State) (m : Nat) (i : Nat) (r : Req), s.Asked m 0x0111 3 r t ∧ t.KeepOpen ∧ t.kept.wp = false ∧ lengthZero 104 2 6
      r = none ∧ i = leAt r.data 0 1 ∧ i < 8 ∧ e = t.entered r 0x0111 ((t.kept.adminKeys.find i).getD []) r.data ∧ leAt r.data 1 1 = 1 ∧ ¬
      (t.kept.adminKeys.has i = true ∧ t.kept.adminKeys.length = 1)) ∧
    (∃ (s : State) (t : State) (e : State) (m : Nat) (r : Req), s.Asked m 0x0113 3 r t ∧ t.KeepOpen ∧ r.data = [] ∧ e = t.entered r 0x0113 [] []) ∧
    (∃ (s : State) (t : State) (e : State) (m : Nat) (r : Req), s.Asked m 0x0114 2 r t ∧ t.kept.closed = false ∧ r.data = [] ∧ e = t.jAlways (t.jEntry
      r.author true 0x0114 .ok [] [])) ∧
    (∃ (s : State) (d : Nat), s.mbx.console = some d ∧ s.now < d) ∧
    (∃ (s : State) (d : Nat), s.mbx.console = some d ∧ d ≤ s.now ∧ s.overtaken d consoleSpeaks = false) ∧
    (∃ (s : State), s.fld Reg.kepTime 35 24 % 360 = 0 ∧ s.opSeconds ≠ s.kept.timeSlot ∧ s.kept.closed = false) :=
  ⟨⟨_, _, _, _, _, asked (live) 0x0103 1 ([]) (by decide), by decide, rfl⟩,
    fun hc => ⟨signed 0x0110 [], _, _, 0, _, asked_signed hc, ⟨rfl, rfl⟩, rfl, rfl, by decide, rfl⟩,
    ⟨_, _, _, _, _, _, asked (live) 0x0111 3 (bytes [7, 0, 0, 0, 0, 0, 0, 0] ++ zeros 96) (by decide), ⟨rfl, rfl⟩, by decide, by decide, rfl,
      by decide, rfl, by decide⟩,
    ⟨_, _, _, _, _, _, asked (live) 0x0111 3 (bytes [7, 1, 0, 0, 0, 0, 0, 0] ++ zeros 96) (by decide), ⟨rfl, rfl⟩, by decide, by decide, rfl,
      by decide, rfl, by decide⟩,
    ⟨_, _, _, _, _, asked (live) 0x0113 3 ([]) (by decide), ⟨rfl, rfl⟩, by decide, rfl⟩,
    ⟨_, _, _, _, _, asked (live) 0x0114 2 ([]) (by decide), by decide, by decide, rfl⟩,
    ⟨{ live with mbx := { live.mbx with console := some (2 * 10 ^ 12) } }, _, rfl, by decide⟩,
    ⟨{ live with mbx := { live.mbx with console := some 5 } }, _, rfl, by decide⟩,
    ⟨put live [(Reg.kepTime, 1 + 360 * 2 ^ 24)], by decide⟩⟩

theorem witness_SamplerJournalAndCounterCommands :
    (∃ (s : State) (t : State) (m : Nat) (k : Nat) (r : Req), s.Asked m 0x0B02 1 r t ∧ lengthZero 8 2 6 r = none ∧ k = leAt r.data 0 2) ∧
    (∃ (s : State) (t : State) (m : Nat) (n : Nat) (r : Req) (l : List Nat), s.Asked m 0x0801 1 r t ∧ r.data.length = 8 ∧ n = leAt r.data 2 2 ∧ 1 ≤ n
      ∧ n ≤ 511 ∧ l = t.matchSlots (leAt r.data 0 2) (leAt r.data 4 2) (leAt r.data 6 2)) ∧
    (∃ (s : State) (t : State) (e : State) (u : State) (m : Nat) (r : Req), s.Asked m 0x0802 3 r t ∧ t.KeepOpen ∧ r.data = [] ∧ e = t.entered r 0x0802
      [] [] ∧ u = (e.draw.2.setFlag Reg.smpStatus 13).putBox m { e.draw.2.box m with keyIndex := some (r.key.getD (e.draw.1.toNat % 65536)) }) ∧
    (∃ (s : State) (t : State) (m : Nat) (r : Req) (l : List JEntry), s.Asked m 0x0810 1 r t ∧ lengthZero 8 6 2 r = none ∧ 1 ≤ leAt r.data 4 2 ∧ leAt
      r.data 4 2 ≤ 1023 ∧ leAt r.data 0 4 ≠ t.nextSeq32 ∧ seqAfter (leAt r.data 0 4) t.nextSeq32 = false ∧ l = (t.kept.journal.filter (fun e => e.seq
      == leAt r.data 0 4 || seqAfter e.seq (leAt r.data 0 4))).take (leAt r.data 4 2)) ∧
    (digest.length = 48 → ∃ (s : State) (t : State) (u : State) (v : State) (m : Nat) (r : Req) (l : List JEntry), s.Asked m 0x0811 3 r t ∧ lengthZero
      56 4 4 r = none ∧ t.heldUpTo (leAt r.data 0 4) = some l ∧ Config.sha384 (l.flatMap JEntry.bytes) = r.data.drop 8 ∧ t.kept.closed = false ∧ u =
      { t with kept := { t.kept with journal := t.kept.journal.drop l.length } } ∧ v = ((u.setFld Reg.jnlArchived 31 0 (leAt r.data 0 4)).count
      (Reg.jnlCount 4) 1).raise 0xB005 u.self l.length) ∧
    (∃ (s : State) (t : State) (m : Nat) (i : Nat) (n : Nat) (r : Req), s.Asked m 0x0820 1 r t ∧ r.data.length = 8 ∧ zeroAt r.data 1 1 = true ∧ zeroAt
      r.data 6 2 = true ∧ leAt r.data 0 1 = 0 ∧ i = leAt r.data 2 2 ∧ n = leAt r.data 4 2 ∧ 1 ≤ n ∧ i + n ≤ 512 ∧ t.inWindow r.owner i n = true) ∧
    (∃ (s : State) (t : State) (m : Nat) (n : Nat) (r : Req), s.Asked m 0x0820 1 r t ∧ r.data.length = 8 ∧ zeroAt r.data 1 1 = true ∧ zeroAt r.data 6
      2 = true ∧ leAt r.data 0 1 = 1 ∧ n = leAt r.data 4 2 ∧ 1 ≤ n ∧ n ≤ 1170 ∧ 2 ≤ r.cls) ∧
    (∃ (s : State) (t : State) (m : Nat) (n : Nat) (r : Req), s.Asked m 0x0821 2 r t ∧ r.data.length = 32 ∧ zeroAt r.data 1 1 = true ∧ zeroAt r.data
      28 4 = true ∧ leAt r.data 0 1 < 2 ∧ (leAt r.data 0 1 = 0 ∨ leAt r.data 2 2 ≠ 0) ∧ n = (if leAt r.data 2 2 = 0 then t.fld Reg.pmcSampleCfg 31 16
      else leAt r.data 2 2)) :=
  ⟨⟨_, _, _, _, _, asked (live) 0x0B02 1 (zeros 8) (by decide), by decide, rfl⟩,
    ⟨_, _, _, _, _, _, asked (live) 0x0801 1 (bytes [0, 0, 255, 1, 0, 0, 0, 0]) (by decide), by decide, rfl, by decide, by decide, rfl⟩,
    ⟨_, _, _, _, _, _, asked (live) 0x0802 3 ([]) (by decide), ⟨rfl, rfl⟩, by decide, rfl, rfl⟩,
    ⟨_, _, _, _, _, asked ({ live with kept := { live.kept with journal := [entry], nextSeq := 2 } }) 0x0810 1 (bytes [1, 0, 0, 0, 255, 3, 0, 0])
      (by decide), by decide, by decide, by decide, by decide, by decide, rfl⟩,
    fun hc => ⟨ask journaled 0x0811 archive, ask journaled 0x0811 archive, _, _, 0, rq journaled archive, [entry], asked journaled 0x0811 3 archive
      rfl, archive_form hc, by decide, rfl, by decide, rfl, rfl⟩,
    ⟨_, _, _, _, _, _, asked (live) 0x0820 1 (bytes [0, 0, 255, 1, 1, 0, 0, 0]) (by decide), by decide, by decide, by decide, by decide, rfl, rfl,
      by decide⟩,
    ⟨_, _, _, _, _, asked (live) 0x0820 1 (bytes [1, 0, 0, 0, 146, 4, 0, 0]) (by decide), by decide, by decide, by decide, by decide, rfl, by decide⟩,
    ⟨_, _, _, _, _, asked (live) 0x0821 2 (bytes [1, 0, 1, 0, 0, 0, 0, 0] ++ zeros 24) (by decide), by decide, by decide, by decide, by decide, Or.inr
      (by decide), rfl⟩⟩

theorem witness_LaceFramesAct :
    (∃ (s : State) (t : State) (n : Nat) (f : LaceIn) (h : LaceHdr), s.LaceArrives n 0 f h t) ∧
    (∃ (s : State) (t : State) (n : Nat) (o : Nat) (c : Nat) (f : LaceIn) (h : LaceHdr) (x : Stitch), s.LaceArrives n 1 f h t ∧ laceStitch
      (f.bytes.take (32 + h.plen)) = some (o, c, x) ∧ (h.commit || h.abort) = true) ∧
    (∃ (s : State) (t : State) (u : State) (n : Nat) (o : Nat) (c : Nat) (f : LaceIn) (h : LaceHdr) (x : Stitch) (y : Stitch), s.LaceArrives n 1 f h t
      ∧ laceStitch (f.bytes.take (32 + h.plen)) = some (o, c, x) ∧ (h.commit || h.abort) = false ∧ t.laceSegment h.src 1 o x = (some y, u)) ∧
    (∃ (s : State) (t : State) (u : State) (n : Nat) (o : Nat) (c : Nat) (f : LaceIn) (h : LaceHdr) (x : Stitch), s.LaceArrives n 1 f h t ∧ laceStitch
      (f.bytes.take (32 + h.plen)) = some (o, c, x) ∧ (h.commit || h.abort) = false ∧ t.laceSegment h.src 1 o x = (none, u)) ∧
    (∃ (s : State) (t : State) (u : State) (n : Nat) (o : Nat) (c : Nat) (f : LaceIn) (h : LaceHdr) (x : Stitch), s.LaceArrives n 2 f h t ∧ laceStitch
      (f.bytes.take (32 + h.plen)) = some (o, c, x) ∧ t.laceSegment h.src 2 o x = (none, u)) ∧
    (∃ (s : State) (t : State) (u : State) (n : Nat) (o : Nat) (c : Nat) (f : LaceIn) (h : LaceHdr) (x : Stitch) (y : Stitch), s.LaceArrives n 2 f h t
      ∧ laceStitch (f.bytes.take (32 + h.plen)) = some (o, c, x) ∧ t.laceSegment h.src 2 o x = (some y, u) ∧ u.lace.refs.find o = none) ∧
    (∃ (s : State) (t : State) (u : State) (n : Nat) (o : Nat) (c : Nat) (i : Nat) (k : Nat) (f : LaceIn) (h : LaceHdr) (x : Stitch) (y : Stitch),
      s.LaceArrives n 2 f h t ∧ laceStitch (f.bytes.take (32 + h.plen)) = some (o, c, x) ∧ t.laceSegment h.src 2 o x = (some y, u) ∧ u.lace.refs.find
      o = some (i, k) ∧ i < 2 ^ 64) ∧
    (∃ (s : State) (t : State) (u : State) (n : Nat) (o : Nat) (c : Nat) (i : Nat) (k : Nat) (f : LaceIn) (h : LaceHdr) (x : Stitch) (y : Stitch),
      s.LaceArrives n 2 f h t ∧ laceStitch (f.bytes.take (32 + h.plen)) = some (o, c, x) ∧ t.laceSegment h.src 2 o x = (some y, u) ∧ u.lace.refs.find
      o = some (i, k) ∧ 2 ^ 64 ≤ i) ∧
    (∃ (s : State) (t : State) (n : Nat) (f : LaceIn) (h : LaceHdr), s.LaceArrives n 3 f h t) ∧
    (∃ (s : State) (t : State) (n : Nat) (f : LaceIn) (h : LaceHdr), s.LaceArrives n 4 f h t ∧ t.isManager = true) ∧
    (∃ (s : State) (t : State) (u : State) (n : Nat) (f : LaceIn) (h : LaceHdr), s.LaceArrives n 4 f h t ∧ t.isManager = false ∧ u = t.sendOn n
      { src := t.self, dst := h.src, body := .announce t.announcement }) ∧
    (∃ (s : State) (t : State) (n : Nat) (f : LaceIn) (h : LaceHdr), s.LaceArrives n 5 f h t ∧ t.isManager = true) ∧
    (∃ (s : State) (t : State) (v : State) (n : Nat) (f : LaceIn) (h : LaceHdr) (a : Announce), s.LaceArrives n 5 f h t ∧ t.isManager = false ∧ v =
      (if t.actingRole = 1 then { t with lace := { t.lace with members := t.lace.members.modify a.dev (fun m => { m with said := some a }) } } else t)
      ∧ ((v.link n).mgrLink = true ∨ (v.link n).peerDev = v.lace.mgr)) ∧
    (∃ (s : State) (t : State) (v : State) (n : Nat) (f : LaceIn) (h : LaceHdr) (a : Announce), s.LaceArrives n 5 f h t ∧ t.isManager = false ∧ v =
      (if t.actingRole = 1 then { t with lace := { t.lace with members := t.lace.members.modify a.dev (fun m => { m with said := some a }) } } else t)
      ∧ (v.link n).mgrLink = false ∧ (v.link n).peerDev ≠ v.lace.mgr ∧ v.nextHop v.lace.mgr = none) ∧
    (∃ (s : State) (t : State) (v : State) (n : Nat) (f : LaceIn) (h : LaceHdr) (a : Announce) (k : Nat), s.LaceArrives n 5 f h t ∧ t.isManager =
      false ∧ v = (if t.actingRole = 1 then
      { t with lace := { t.lace with members := t.lace.members.modify a.dev (fun m => { m with said := some a }) } } else t) ∧ (v.link n).mgrLink =
      false ∧ (v.link n).peerDev ≠ v.lace.mgr ∧ v.nextHop v.lace.mgr = some k) ∧
    (∃ (s : State) (t : State) (n : Nat) (f : LaceIn) (h : LaceHdr), s.LaceArrives n 6 f h t) ∧
    (∃ (s : State) (t : State) (n : Nat) (f : LaceIn) (h : LaceHdr), s.LaceArrives n 7 f h t) ∧
    (∃ (s : State) (t : State) (n : Nat) (o : Nat) (k : Nat) (f : LaceIn) (h : LaceHdr) (x : Stitch), laceStitch (f.bytes.take (32 + h.plen)) = some
      (o, k, x) ∧ s.LacePasses n 1 f h t) ∧
    (∃ (s : State) (t : State) (n : Nat) (o : Nat) (k : Nat) (f : LaceIn) (h : LaceHdr) (x : Stitch), laceStitch (f.bytes.take (32 + h.plen)) = some
      (o, k, x) ∧ s.LacePasses n 2 f h t) ∧
    (∃ (s : State) (t : State) (n : Nat) (f : LaceIn) (h : LaceHdr), s.LacePasses n 3 f h t) ∧
    (∃ (s : State) (t : State) (n : Nat) (f : LaceIn) (h : LaceHdr), s.LacePasses n 6 f h t) ∧
    (∃ (s : State) (t : State) (n : Nat) (f : LaceIn) (h : LaceHdr), s.LacePasses n 7 f h t) ∧
    (∃ (s : State) (n : Nat), n < 16 ∧ ((s.link n).st = .down ∨ (s.link n).st = .training)) ∧
    (∃ (s : State) (n : Nat) (k : Nat) (f : LaceIn), n < 16 ∧ (s.link n).st ≠ .down ∧ (s.link n).st ≠ .training ∧ (s.laceHeard n f).laceCause n f = k
      ∧ 0 < k ∧ k < 0xB) :=
  ⟨⟨linked 0 [], _, 0, laceIn 0 0 (zeros 32), _, ⟨by decide, ⟨by decide, by decide⟩, rfl, by decide, by decide, rfl, fun _ => by decide⟩⟩,
    ⟨linked 0 [], _, 0, 9, 0, laceIn 1 0x20 (laceBody readStitch), _, _, ⟨by decide, ⟨by decide, by decide⟩, rfl, by decide, by decide, rfl, fun _ =>
      by decide⟩, rfl, by decide⟩,
    ⟨linked 0 [], _, _, 0, 9, 0, laceIn 1 0 (laceBody readStitch), _, _, _, ⟨by decide, ⟨by decide, by decide⟩, rfl, by decide, by decide, rfl, fun _
      => by decide⟩, rfl, by decide, rfl⟩,
    ⟨linked 0 [], _, _, 0, 9, 0, laceIn 1 0 (laceBody { readStitch with more := true }), _, _, ⟨by decide, ⟨by decide, by decide⟩, rfl, by decide,
      by decide, rfl, fun _ => by decide⟩, rfl, by decide, rfl⟩,
    ⟨linked 0 [], _, _, 0, 9, 0, laceIn 2 0 (laceBody { readStitch with more := true }), _, _, ⟨by decide, ⟨by decide, by decide⟩, rfl, by decide,
      by decide, rfl, fun _ => by decide⟩, rfl, rfl⟩,
    ⟨linked 0 [], _, _, 0, 9, 0, laceIn 2 0 (laceBody readStitch), _, _, _, ⟨by decide, ⟨by decide, by decide⟩, rfl, by decide, by decide, rfl, fun _
      => by decide⟩, rfl, rfl, by decide⟩,
    ⟨linked 0 [(9, (1, 0))], _, _, 0, 9, 0, 1, 0, laceIn 2 0 (laceBody readStitch), _, _, _, ⟨by decide, ⟨by decide, by decide⟩, rfl, by decide,
      by decide, rfl, fun _ => by decide⟩, rfl, rfl, by decide⟩,
    ⟨linked 0 [(9, (2 ^ 64, 0))], _, _, 0, 9, 0, 2 ^ 64, 0, laceIn 2 0 (laceBody readStitch), _, _, _, ⟨by decide, ⟨by decide, by decide⟩, rfl,
      by decide, by decide, rfl, fun _ => by decide⟩, rfl, rfl, by decide⟩,
    ⟨linked 0 [], _, 0, laceIn 3 0 [], _, ⟨by decide, ⟨by decide, by decide⟩, rfl, by decide, by decide, rfl, fun _ => by decide⟩⟩,
    ⟨linked 0 [], _, 0, laceIn 4 0 [], _, ⟨by decide, ⟨by decide, by decide⟩, rfl, by decide, by decide, rfl, fun _ => by decide⟩, by decide⟩,
    ⟨linked 2 [], _, _, 0, laceIn 4 0 [], _, ⟨by decide, ⟨by decide, by decide⟩, rfl, by decide, by decide, rfl, fun _ => by decide⟩, by decide, rfl⟩,
    ⟨linked 0 [], _, 0, laceIn 5 0 [], _, ⟨by decide, ⟨by decide, by decide⟩, rfl, by decide, by decide, rfl, fun _ => by decide⟩, by decide⟩,
    ⟨linked 2 [], _, _, 0, laceIn 5 0 [], _, said, ⟨by decide, ⟨by decide, by decide⟩, rfl, by decide, by decide, rfl, fun _ => by decide⟩, by decide,
      rfl, Or.inl (by decide)⟩,
    ⟨worker 1, _, _, 0, laceIn 5 0 [], _, said, ⟨by decide, ⟨by decide, by decide⟩, rfl, by decide, by decide, rfl, fun _ => by decide⟩, by decide,
      rfl, by decide⟩,
    ⟨worker 0, _, _, 0, laceIn 5 0 [], _, said, 15, ⟨by decide, ⟨by decide, by decide⟩, rfl, by decide, by decide, rfl, fun _ => by decide⟩,
      by decide, rfl, by decide⟩,
    ⟨linked 0 [], _, 0, laceIn 6 0 [], _, ⟨by decide, ⟨by decide, by decide⟩, rfl, by decide, by decide, rfl, fun _ => by decide⟩⟩,
    ⟨linked 0 [], _, 0, laceIn 7 0 [], _, ⟨by decide, ⟨by decide, by decide⟩, rfl, by decide, by decide, rfl, fun _ => by decide⟩⟩,
    ⟨linked 0 [], _, 0, 9, 0, laceVia 1 0 (laceBody readStitch), _, _, rfl, ⟨by decide, ⟨by decide, by decide⟩, rfl, by decide, by decide, rfl,
      by decide⟩⟩,
    ⟨linked 0 [], _, 0, 9, 0, laceVia 2 0 (laceBody readStitch), _, _, rfl, ⟨by decide, ⟨by decide, by decide⟩, rfl, by decide, by decide, rfl,
      by decide⟩⟩,
    ⟨linked 0 [], _, 0, laceVia 3 0 [], _, ⟨by decide, ⟨by decide, by decide⟩, rfl, by decide, by decide, rfl, by decide⟩⟩,
    ⟨linked 0 [], _, 0, laceVia 6 0 [], _, ⟨by decide, ⟨by decide, by decide⟩, rfl, by decide, by decide, rfl, by decide⟩⟩,
    ⟨linked 0 [], _, 0, laceVia 7 0 [], _, ⟨by decide, ⟨by decide, by decide⟩, rfl, by decide, by decide, rfl, by decide⟩⟩,
    ⟨live, 0, by decide, Or.inl (by decide)⟩,
    ⟨linked 0 [], 0, 2, { laceIn 4 0 [] with fcsOk := false }, by decide⟩⟩

theorem witness_LaceAndHoopTimersAct :
    (∃ (s : State) (n : Nat) (l : LaceLink), n < 16 ∧ l = s.link n ∧ (l.st = .up ∨ l.st = .probation ∨ l.st = .idle) ∧ l.sendDue ≤ s.now ∧
      (s.isManager && s.fld Reg.cohStatus 1 0 != 0) = false) ∧
    (∃ (s : State) (n : Nat) (d : Nat) (v : Nat), n < 16 ∧ (s.link n).failDue = some d ∧ d ≤ s.now ∧ s.overtaken d (beatOn n) = false ∧ (s.link n).st
      ≠ .down ∧ (s.link n).st ≠ .training ∧ v = min 15 (s.fld (Reg.lceLinkStatus n) 7 4 + 3)) ∧
    (∃ (n : Nat), n < 16) ∧
    (∃ (s : State) (n : Nat), n < 16 ∧ (s.link n).st = .training) ∧
    (∃ (s : State) (n : Nat) (l : LaceLink), n < 16 ∧ l = s.link n ∧ l.st = .probation ∧ l.probation + ms 1 ≤ s.now ∧ s.now ≤ l.lastBeat + us 4 ∧
      l.failDue ≠ none ∧ s.linkUse n = some false) ∧
    (∃ (s : State) (n : Nat) (l : LaceLink), n < 16 ∧ l = s.link n ∧ l.st = .probation ∧ l.probation + ms 1 ≤ s.now ∧ s.now ≤ l.lastBeat + us 4 ∧
      l.failDue ≠ none ∧ s.linkUse n = some true) ∧
    (∃ (s : State) (n : Nat) (l : LaceLink), n < 16 ∧ l = s.link n ∧ l.st = .probation ∧ l.probation + ms 1 ≤ s.now ∧ s.now ≤ l.lastBeat + us 4 ∧
      l.failDue ≠ none ∧ s.linkUse n = none) ∧
    (∃ (s : State) (k : Nat) (d : Nat), k < 64 ∧ (s.route k).ackDue = some d ∧ d ≤ s.now) ∧
    (∃ (s : State) (p : Nat) (r : ResyncOut), s.lace.resyncs.find? (fun x => x.panel == p) = some r ∧ r.chunks = []) ∧
    (∃ (s : State) (p : Nat) (c : Nat) (line : Nat) (key : Nat) (cs : List Nat) (r : ResyncOut) (l : LlcLine), s.lace.resyncs.find? (fun x => x.panel
      == p) = some r ∧ r.chunks = c :: cs ∧ line = c * 4096 + r.line ∧ key = ((s.mem.dir.find p).map (·.keyId)).getD 0 ∧ s.resident (panelLine p line
      key) = some l) ∧
    (∃ (s : State) (p : Nat) (c : Nat) (line : Nat) (key : Nat) (cs : List Nat) (r : ResyncOut), s.lace.resyncs.find? (fun x => x.panel == p) = some r
      ∧ r.chunks = c :: cs ∧ line = c * 4096 + r.line ∧ key = ((s.mem.dir.find p).map (·.keyId)).getD 0 ∧ s.resident (panelLine p line key) = none ∧
      s.filling (panelLine p line key) = true) ∧
    (∃ (s : State) (p : Nat) (c : Nat) (line : Nat) (key : Nat) (cs : List Nat) (r : ResyncOut) (t : State), s.lace.resyncs.find? (fun x => x.panel ==
      p) = some r ∧ r.chunks = c :: cs ∧ line = c * 4096 + r.line ∧ key = ((s.mem.dir.find p).map (·.keyId)).getD 0 ∧ s.resident (panelLine p line
      key) = none ∧ s.filling (panelLine p line key) = false ∧ (s.startFill (panelLine p line key) .maint = (.ready, t) ∨ s.startFill (panelLine p
      line key) .maint = (.pending, t))) ∧
    (∃ (s : State) (p : Nat) (c : Nat) (line : Nat) (key : Nat) (cs : List Nat) (r : ResyncOut) (t : State) (x : Status), s.lace.resyncs.find? (fun x
      => x.panel == p) = some r ∧ r.chunks = c :: cs ∧ line = c * 4096 + r.line ∧ key = ((s.mem.dir.find p).map (·.keyId)).getD 0 ∧ s.resident
      (panelLine p line key) = none ∧ s.filling (panelLine p line key) = false ∧ s.startFill (panelLine p line key) .maint = (.fails x, t)) ∧
    (∃ (s : State) (d : Nat), s.lace.discover = some d ∧ d ≤ s.now ∧ s.isManager = true ∧ s.lace.members = []) ∧
    (∃ (s : State) (d : Nat), s.lace.discover = some d ∧ d ≤ s.now ∧ s.isManager = true ∧ s.lace.members ≠ []) ∧
    (∃ (s : State) (t : State) (h : Handover), s.lace.handover = some h ∧ h.due ≤ s.now ∧ s.connOps = false ∧ t = (s.resetAll 0x09).sendControl (if
      s.self = 0 then 1 else 0) .role) ∧
    (∃ (s : State) (t : State) (i : Nat) (x : Sched), s.lace.scheds.find i = some x ∧ x.st = 0 ∧ x.at' ≤ (s.rd Reg.hopTime).toNat ∧ s.cancelWaits i x
      = false ∧ t = { s with lace := { s.lace with scheds := s.lace.scheds.put i { x with st := 1 } } } ∧ (t.namedBy x = false ∨ t.inHoop = false)) ∧
    (∃ (s : State) (t : State) (i : Nat) (x : Sched) (u : State), s.lace.scheds.find i = some x ∧ x.st = 0 ∧ x.at' ≤ (s.rd Reg.hopTime).toNat ∧
      s.cancelWaits i x = false ∧ t = { s with lace := { s.lace with scheds := s.lace.scheds.put i { x with st := 1 } } } ∧ t.namedBy x = true ∧
      t.inHoop = true ∧ t.runAction x.action = (false, u)) ∧
    (∃ (s : State) (t : State) (i : Nat) (x : Sched) (u : State) (v : State), s.lace.scheds.find i = some x ∧ x.st = 0 ∧ x.at' ≤ (s.rd
      Reg.hopTime).toNat ∧ s.cancelWaits i x = false ∧ t = { s with lace := { s.lace with scheds := s.lace.scheds.put i { x with st := 1 } } } ∧
      t.namedBy x = true ∧ t.inHoop = true ∧ t.runAction x.action = (true, u) ∧ v = u.raise 0x500B u.self x.action) :=
  ⟨⟨put (link15 upLink) [(Reg.hopStatus, 8)], 15, _, by decide, rfl, Or.inl (by decide), by decide⟩,
    ⟨link15 upLink, 15, 5, _, by decide, by decide, by decide, by decide, by decide, by decide, rfl⟩,
    ⟨15, by decide⟩,
    ⟨link15 { upLink with st := .training }, 15, by decide⟩,
    ⟨link15 { upLink with st := .probation, peerDev := 0 }, 15, _, by decide, rfl, by decide⟩,
    ⟨link15 { upLink with st := .probation }, 15, _, by decide, rfl, by decide⟩,
    ⟨put (link15 { upLink with st := .probation, peerDev := 3, mgrLink := false }) [(Reg.glbStrap, 2 * 4)], 15, _, by decide, rfl, by decide⟩,
    ⟨{ hoop members with lace := { (hoop members).lace with routes := [(63, { Route.empty with ackDue := some 5 })] } }, 63, 5, by decide⟩,
    ⟨resyncing live [], 0, _, rfl, by decide⟩,
    ⟨resyncing { live with mem := { live.mem with llc := [(0, line 0)] } } [0], 0, 0, _, _, [], _, _, rfl, rfl, rfl, rfl, rfl⟩,
    ⟨resyncing { stocked with mem := { stocked.mem with llc := [], dramReads := [readingLine] } } [0], 0, 0, _, _, [], _, rfl, rfl, rfl, rfl,
      by decide⟩,
    ⟨resyncing { placed with mem := { placed.mem with llc := [] } } [0], 0, 0, _, _, [], _, _, rfl, rfl, rfl, rfl, by decide, by decide, Or.inr rfl⟩,
    ⟨resyncing live [0], 0, 0, _, _, [], _, _, .unavailable, rfl, rfl, rfl, rfl, by decide, by decide, rfl⟩,
    ⟨hoop [], 5, by decide⟩,
    ⟨hoop members, 5, by decide⟩,
    ⟨hoop members, _, _, rfl, by decide, by decide, rfl⟩,
    ⟨scheduled 2 1, _, 7, _, rfl, by decide, by decide, by decide, rfl, Or.inl (by decide)⟩,
    ⟨scheduled 1 1, _, 7, _, _, rfl, by decide, by decide, by decide, rfl, by decide, by decide, rfl⟩,
    ⟨scheduled 1 2, _, 7, _, _, _, rfl, by decide, by decide, by decide, rfl, by decide, by decide, rfl, rfl⟩⟩

theorem witness_HoopCommandsAct :
    (∃ (s : State) (t : State) (m : Nat) (r : Req), s.Asked m 0x0501 1 r t ∧ r.data = []) ∧
    (∃ (s : State) (t : State) (m : Nat) (r : Req), s.Asked m 0x0502 1 r t ∧ r.data = []) ∧
    (∃ (s : State) (t : State) (m : Nat) (k : Nat) (r : Req) (l : Table DirEntry), s.Asked m 0x0503 2 r t ∧ lengthZero 8 2 2 r = none ∧
      t.mem.regions.has (leAt r.data 0 2) = true ∧ k = leAt r.data 4 4 ∧ l = (t.mem.dir.filter (fun e => e.2.region == leAt r.data 0 2)).drop k) ∧
    (∃ (s : State) (t : State) (e : State) (u : State) (v : State) (m : Nat) (i : Nat) (r : Req) (own : Member) (list : Table Member), s.Asked m
      0x0510 3 r t ∧ t.KeepOpen ∧ t.kept.wp = false ∧ lengthZero 8 2 6 r = none ∧ t.lace.members = [] ∧ t.isManager = true ∧ i = leAt r.data 0 2 ∧ e =
      t.entered r 0x0510 (leBytes 2 t.hoopId) r.data ∧ own =
      { serial := Config.serial.toNat, present := true, parents := [], said := none, readOnly := false, badKeys := [] } ∧ list = Table.put
      (e.lace.strangers.map (fun x => (x.1, { x.2 with present := true }))) e.self own ∧ u =
      { e with lace := { e.lace with members := list, strangers := [] } } ∧ v = (((u.sendAll (.form i)).setFld Reg.hopHoopId 15 0 i).wr Reg.hopTime
      0).bumpEpoch) ∧
    (∃ (s : State) (t : State) (e : State) (u : State) (v : State) (m : Nat) (d : Nat) (r : Req) (x : Member), s.Asked m 0x0511 3 r t ∧ t.KeepOpen ∧
      t.kept.wp = false ∧ lengthZero 8 1 7 r = none ∧ d = leAt r.data 0 1 ∧ t.lace.strangers.find d = some x ∧ e = t.entered r 0x0511 [] r.data ∧ u =
      ({ e with lace := { e.lace with strangers := e.lace.strangers.drop d, members := e.lace.members.put d { x with present := false } } } :
      State).change [.member d (some x.serial)] .none ∧ v = (match x.said with | some a => u.rejoin a | none => u)) ∧
    (∃ (s : State) (t : State) (e : State) (m : Nat) (d : Nat) (r : Req), s.Asked m 0x0512 3 r t ∧ t.KeepOpen ∧ t.kept.wp = false ∧ lengthZero 8 1 7 r
      = none ∧ d = leAt r.data 0 1 ∧ d ≠ 0 ∧ ¬ (d = 1 ∧ t.self = 1 ∧ t.isManager = true) ∧ t.lace.members.has d = true ∧ (usedPanels t.mem.dir
      d).length ≤ t.freeElsewhere d ∧ e = t.entered r 0x0512 [] r.data) ∧
    (∃ (s : State) (t : State) (e : State) (m : Nat) (k : Nat) (r : Req) (x : DirEntry), s.Asked m 0x0513 3 r t ∧ t.KeepOpen ∧ lengthZero 8 2 2 r =
      none ∧ (t.mem.dir.filter (fun e => e.2.region == leAt r.data 0 2))[leAt r.data 4 4]? = some (k, x) ∧ x.st = 3 ∧ e = t.entered r 0x0513 []
      r.data) ∧
    (∃ (s : State) (t : State) (e : State) (m : Nat) (r : Req), s.Asked m 0x0514 3 r t ∧ t.KeepOpen ∧ r.data = [] ∧ t.isManager = true ∧ t.standbyDev
      ≠ none ∧ t.lace.standbyCurrent = true ∧ e = t.entered r 0x0514 [] []) ∧
    (∃ (s : State) (t : State) (e : State) (m : Nat) (i : Nat) (r : Req) (x : Sched), s.Asked m 0x0520 3 r t ∧ t.KeepOpen ∧ lengthZero 24 18 6 r =
      none ∧ (leAt r.data 16 2 = 1 ∨ leAt r.data 16 2 = 2) ∧ (t.rd Reg.hopTime).toNat + 100000 ≤ leAt r.data 0 8 ∧ leAt r.data 0 8 ≤ (t.rd
      Reg.hopTime).toNat + 7 * 86400 * 1000000 ∧ t.armed < 16 ∧ e = t.entered r 0x0520 [] r.data ∧ i = e.lace.nextSched % 2 ^ 16 ∧ x =
      { at' := leAt r.data 0 8, devices := leAt r.data 8 8, action := leAt r.data 16 2, st := 0, ran := 0 }) ∧
    (∃ (s : State) (t : State) (e : State) (m : Nat) (i : Nat) (r : Req), s.Asked m 0x0521 3 r t ∧ t.KeepOpen ∧ lengthZero 8 2 6 r = none ∧ i = leAt
      r.data 0 2 ∧ t.lace.scheds.has i = true ∧ e = t.entered r 0x0521 [] r.data) ∧
    (∃ (s : State) (t : State) (m : Nat) (i : Nat) (r : Req) (x : Sched), s.Asked m 0x0522 1 r t ∧ lengthZero 8 2 6 r = none ∧ i = leAt r.data 0 2 ∧
      t.lace.scheds.find i = some x) :=
  ⟨⟨_, _, _, _, asked (live) 0x0501 1 ([]) (by decide), by decide⟩,
    ⟨_, _, _, _, asked (live) 0x0502 1 ([]) (by decide), by decide⟩,
    ⟨_, _, _, _, _, _, asked (stocked) 0x0503 2 (bytes [1, 0, 0, 0, 0, 0, 0, 0]) (by decide), by decide, by decide, rfl, rfl⟩,
    ⟨_, _, _, _, _, _, _, _, _, _, asked (hoop []) 0x0510 3 (bytes [5, 0, 0, 0, 0, 0, 0, 0]) (by decide), ⟨rfl, rfl⟩, by decide, by decide, by decide,
      by decide, rfl, rfl, rfl, rfl, rfl, rfl⟩,
    ⟨_, _, _, _, _, _, _, _, _, asked (heard) 0x0511 3 (bytes [2, 0, 0, 0, 0, 0, 0, 0]) (by decide), ⟨rfl, rfl⟩, by decide, by decide, rfl, rfl, rfl,
      rfl, rfl⟩,
    ⟨_, _, _, _, _, _, asked (hoop members) 0x0512 3 (bytes [1, 0, 0, 0, 0, 0, 0, 0]) (by decide), ⟨rfl, rfl⟩, by decide, by decide, rfl, by decide,
      by decide, by decide, by decide, rfl⟩,
    ⟨_, _, _, _, 0, _, _, asked ({ hoop [] with mem := { stocked.mem with dir := [(0, { panel0 with st := 3 })] } }) 0x0513 3 (bytes [1, 0, 0, 0, 0,
      0, 0, 0]) (by decide), ⟨rfl, rfl⟩, by decide, rfl, by decide, rfl⟩,
    ⟨_, _, _, _, _, asked (hoop members) 0x0514 3 ([]) (by decide), ⟨rfl, rfl⟩, by decide, by decide, by decide, by decide, rfl⟩,
    ⟨_, _, _, _, _, _, _, asked (hoop members) 0x0520 3 (leBytes 8 100000 ++ leBytes 8 1 ++ bytes [1, 0, 0, 0, 0, 0, 0, 0]) (by decide), ⟨rfl, rfl⟩,
      by decide, Or.inl (by decide), by decide, by decide, by decide, rfl, rfl, rfl⟩,
    ⟨_, _, _, _, _, _, asked (hoop members) 0x0521 3 (bytes [7, 0, 0, 0, 0, 0, 0, 0]) (by decide), ⟨rfl, rfl⟩, by decide, rfl, by decide, rfl⟩,
    ⟨_, _, _, _, _, _, asked (hoop members) 0x0522 1 (bytes [7, 0, 0, 0, 0, 0, 0, 0]) (by decide), by decide, rfl, rfl⟩⟩

theorem witness_KeyCommandsAndRekeyWalkerAct :
    (Unwraps → ∃ (s : State) (t : State) (e : State) (m : Nat) (r : Req) (k : KeySlot) (key : List Byte), s.Asked m 0x0601 3 r t ∧ t.KeepOpen ∧
      keyForm r = none ∧ t.keyBad r = false ∧ (t.keySlot r.keyId).admits r.ver = true ∧ (r.persist = true → t.kept.wp = false) ∧ e = t.entered r
      0x0601 (t.oldKey r.keyId) (r.data.take 16) ∧ k = e.keySlot r.keyId ∧ r.key' = some key ∧ k.key r.ver ≠ none) ∧
    (Unwraps → ∃ (s : State) (t : State) (e : State) (m : Nat) (r : Req) (k : KeySlot) (key : List Byte), s.Asked m 0x0601 3 r t ∧ t.KeepOpen ∧
      keyForm r = none ∧ t.keyBad r = false ∧ (t.keySlot r.keyId).admits r.ver = true ∧ (r.persist = true → t.kept.wp = false) ∧ e = t.entered r
      0x0601 (t.oldKey r.keyId) (r.data.take 16) ∧ k = e.keySlot r.keyId ∧ r.key' = some key ∧ k.key r.ver = none ∧ k.st = .empty) ∧
    (Unwraps → ∃ (s : State) (t : State) (e : State) (m : Nat) (r : Req) (k : KeySlot) (key : List Byte), s.Asked m 0x0601 3 r t ∧ t.KeepOpen ∧
      keyForm r = none ∧ t.keyBad r = false ∧ (t.keySlot r.keyId).admits r.ver = true ∧ (r.persist = true → t.kept.wp = false) ∧ e = t.entered r
      0x0601 (t.oldKey r.keyId) (r.data.take 16) ∧ k = e.keySlot r.keyId ∧ r.key' = some key ∧ k.key r.ver = none ∧ k.st = .absent) ∧
    (Unwraps → ∃ (s : State) (t : State) (e : State) (m : Nat) (r : Req) (k : KeySlot) (key : List Byte), s.Asked m 0x0601 3 r t ∧ t.KeepOpen ∧
      keyForm r = none ∧ t.keyBad r = false ∧ (t.keySlot r.keyId).admits r.ver = true ∧ (r.persist = true → t.kept.wp = false) ∧ e = t.entered r
      0x0601 (t.oldKey r.keyId) (r.data.take 16) ∧ k = e.keySlot r.keyId ∧ r.key' = some key ∧ k.key r.ver = none ∧ k.st ≠ .empty ∧ k.st ≠ .absent) ∧
    (∃ (s : State) (t : State) (e : State) (u : State) (m : Nat) (r : Req) (k : KeySlot), s.Asked m 0x0602 3 r t ∧ t.KeepOpen ∧ lengthZero 8 1 7 r =
      none ∧ r.keyId ≠ 0 ∧ r.keyId ≠ 255 ∧ t.mem.regions.any (fun x => x.2.keyId == r.keyId) = false ∧ t.mem.dir.any (fun x => x.2.keyId == r.keyId) =
      false ∧ ((t.keySlot r.keyId).persist = true → t.kept.wp = false) ∧ e = t.entered r 0x0602 (t.oldKey r.keyId) (r.data ++ zeros 8) ∧ k = e.keySlot
      r.keyId ∧ u = e.putKey r.keyId { KeySlot.empty with locked := k.locked, alarms := k.alarms, windowEnd := k.windowEnd } ∧ (∀ w : Rekey,
      t.mem.rekey = some w → w.keyId ≠ r.keyId)) ∧
    (∃ (s : State) (t : State) (e : State) (u : State) (m : Nat) (r : Req) (k : KeySlot) (w : Rekey), s.Asked m 0x0602 3 r t ∧ t.KeepOpen ∧ lengthZero
      8 1 7 r = none ∧ r.keyId ≠ 0 ∧ r.keyId ≠ 255 ∧ t.mem.regions.any (fun x => x.2.keyId == r.keyId) = false ∧ t.mem.dir.any (fun x => x.2.keyId ==
      r.keyId) = false ∧ ((t.keySlot r.keyId).persist = true → t.kept.wp = false) ∧ e = t.entered r 0x0602 (t.oldKey r.keyId) (r.data ++ zeros 8) ∧ k
      = e.keySlot r.keyId ∧ u = e.putKey r.keyId { KeySlot.empty with locked := k.locked, alarms := k.alarms, windowEnd := k.windowEnd } ∧ t.mem.rekey
      = some w ∧ w.keyId = r.keyId) ∧
    (∃ (s : State) (t : State) (m : Nat) (r : Req), s.Asked m 0x0603 1 r t ∧ lengthZero 8 1 7 r = none ∧ r.keyId ≠ 0 ∧ r.keyId ≠ 255 ∧ (∀ w : Rekey,
      t.mem.rekey = some w → w.keyId ≠ r.keyId)) ∧
    (∃ (s : State) (t : State) (m : Nat) (r : Req) (w : Rekey), s.Asked m 0x0603 1 r t ∧ lengthZero 8 1 7 r = none ∧ r.keyId ≠ 0 ∧ r.keyId ≠ 255 ∧
      t.mem.rekey = some w ∧ w.keyId = r.keyId) ∧
    (Unwraps → ∃ (s : State) (t : State) (e : State) (u : State) (m : Nat) (a : Nat) (r : Req) (k : KeySlot) (key : List Byte) (l : List Nat), s.Asked
      m 0x0604 3 r t ∧ t.KeepOpen ∧ keyForm r = none ∧ r.ver ≠ (t.keySlot r.keyId).active ∧ (∀ w : Rekey, t.mem.rekey = some w → w.keyId = r.keyId) ∧
      (t.keySlot r.keyId).st = .loaded ∧ t.keyBad r = false ∧ (r.persist = true → t.kept.wp = false) ∧ e = t.entered r 0x0604 (t.oldKey r.keyId)
      (r.data.take 16) ∧ k = e.keySlot r.keyId ∧ r.key' = some key ∧ l = e.keyNodes r.keyId ∧ a = l.headD 0 ∧ u =
      (({ e with mem := { e.mem with nodes := l.foldl (fun x n => if x.has n then x else x.put n { major := 0, ver := k.active, minors := [] }) e.mem.nodes, rekey := some { keyId := r.keyId, next := a, left := l.length, checkpoint := a, started := e.now } } }
      : State).putKey r.keyId { k.load r.ver r.persist key with st := .rekey })) ∧
    (∃ (s : State) (t : State) (e : State) (u : State) (m : Nat) (r : Req), s.Asked m 0x0605 3 r t ∧ t.KeepOpen ∧ lengthZero 8 1 7 r = none ∧ r.keyId
      ≠ 0 ∧ r.keyId ≠ 255 ∧ e = t.entered r 0x0605 (t.oldKey r.keyId) (r.data ++ zeros 8) ∧ u = e.putKey r.keyId
      { e.keySlot r.keyId with locked := false, alarms := 0, windowEnd := 0 } ∧ u.isManager = false) ∧
    (∃ (s : State) (t : State) (e : State) (u : State) (m : Nat) (r : Req), s.Asked m 0x0605 3 r t ∧ t.KeepOpen ∧ lengthZero 8 1 7 r = none ∧ r.keyId
      ≠ 0 ∧ r.keyId ≠ 255 ∧ e = t.entered r 0x0605 (t.oldKey r.keyId) (r.data ++ zeros 8) ∧ u = e.putKey r.keyId
      { e.keySlot r.keyId with locked := false, alarms := 0, windowEnd := 0 } ∧ u.isManager = true) ∧
    (∃ (s : State) (w : Rekey) (k : KeySlot), s.mem.rekey = some w ∧ k = s.keySlot w.keyId ∧ (k.locked = true ∨ k.key0 = none ∨ k.key1 = none)) ∧
    (∃ (s : State) (w : Rekey) (k : KeySlot), s.mem.rekey = some w ∧ k = s.keySlot w.keyId ∧ k.locked = false ∧ k.key0 ≠ none ∧ k.key1 ≠ none ∧
      (s.keyNodes w.keyId).find? (fun n => w.next ≤ n) = none ∧ s.mem.conv.any (fun e => e.2.rekey) = true) ∧
    (∃ (s : State) (w : Rekey) (k : KeySlot), s.mem.rekey = some w ∧ k = s.keySlot w.keyId ∧ k.locked = false ∧ k.key0 ≠ none ∧ k.key1 ≠ none ∧
      (s.keyNodes w.keyId).find? (fun n => w.next ≤ n) = none ∧ s.mem.conv.any (fun e => e.2.rekey) = false) ∧
    (∃ (s : State) (w : Rekey) (k : KeySlot) (n : Nat) (ln : Nat), s.mem.rekey = some w ∧ k = s.keySlot w.keyId ∧ k.locked = false ∧ k.key0 ≠ none ∧
      k.key1 ≠ none ∧ (s.keyNodes w.keyId).find? (fun n => w.next ≤ n) = some n ∧ s.lineOf (64 * n) = some ln ∧ (s.nodeOf ln (64 * n)).ver =
      (!k.active)) ∧
    (∃ (s : State) (w : Rekey) (k : KeySlot) (n : Nat) (ln : Nat), s.mem.rekey = some w ∧ k = s.keySlot w.keyId ∧ k.locked = false ∧ k.key0 ≠ none ∧
      k.key1 ≠ none ∧ (s.keyNodes w.keyId).find? (fun n => w.next ≤ n) = some n ∧ s.lineOf (64 * n) = some ln ∧ (s.nodeOf ln (64 * n)).ver = k.active
      ∧ s.mem.conv.has n = true) ∧
    (∃ (s : State) (w : Rekey) (k : KeySlot) (n : Nat) (ln : Nat), s.mem.rekey = some w ∧ k = s.keySlot w.keyId ∧ k.locked = false ∧ k.key0 ≠ none ∧
      k.key1 ≠ none ∧ (s.keyNodes w.keyId).find? (fun n => w.next ≤ n) = some n ∧ s.lineOf (64 * n) = some ln ∧ (s.nodeOf ln (64 * n)).ver = k.active
      ∧ s.mem.conv.has n = false) ∧
    (∃ (s : State) (w : Rekey), s.mem.rekey = some w ∧ s.ripe Timer.selvedge = true) :=
  ⟨fun hc => ⟨ask (keyed { slot3 with active := true, key1 := some (zeros 32) }) 0x0601 keyData, ask (keyed
      { slot3 with active := true, key1 := some (zeros 32) }) 0x0601 keyData, _, 0, rq (keyed { slot3 with active := true, key1 := some (zeros 32) })
      keyData, _, zeros 32, asked _ _ _ _ (by decide), ⟨rfl, rfl⟩, by decide +kernel, notBad hc _ _ rfl, by decide +kernel, by decide +kernel, rfl,
      rfl, unwrapped hc _, by decide +kernel⟩,
    fun hc => ⟨ask (keyed { slot3 with st := .empty }) 0x0601 keyData, ask (keyed { slot3 with st := .empty }) 0x0601 keyData, _, 0, rq (keyed
      { slot3 with st := .empty }) keyData, _, zeros 32, asked _ _ _ _ (by decide), ⟨rfl, rfl⟩, by decide +kernel, notBad hc _ _ rfl,
      by decide +kernel, by decide +kernel, rfl, rfl, unwrapped hc _, by decide +kernel⟩,
    fun hc => ⟨ask (keyed { slot3 with st := .absent, active := true }) 0x0601 keyData, ask (keyed { slot3 with st := .absent, active := true })
      0x0601 keyData, _, 0, rq (keyed { slot3 with st := .absent, active := true }) keyData, _, zeros 32, asked _ _ _ _ (by decide), ⟨rfl, rfl⟩,
      by decide +kernel, notBad hc _ _ rfl, by decide +kernel, by decide +kernel, rfl, rfl, unwrapped hc _, by decide +kernel⟩,
    fun hc => ⟨ask (keyed { slotRekey with key1 := none }) 0x0601 keyData, ask (keyed { slotRekey with key1 := none }) 0x0601 keyData, _, 0, rq (keyed
      { slotRekey with key1 := none }) keyData, _, zeros 32, asked _ _ _ _ (by decide), ⟨rfl, rfl⟩, by decide +kernel, notBad hc _ _ rfl,
      by decide +kernel, by decide +kernel, rfl, rfl, unwrapped hc _, by decide +kernel⟩,
    ⟨_, _, _, _, _, _, _, asked (live) 0x0602 3 (bytes [3, 0, 0, 0, 0, 0, 0, 0]) (by decide), ⟨rfl, rfl⟩, by decide, by decide, by decide, rfl, rfl,
      by decide, rfl, rfl, rfl, nofun⟩,
    ⟨_, _, _, _, _, _, _, _, asked ({ rekeying slotRekey 0 with mem := { (rekeying slotRekey 0).mem with regions := [], dir := [] } }) 0x0602 3 (bytes
      [3, 0, 0, 0, 0, 0, 0, 0]) (by decide), ⟨rfl, rfl⟩, by decide, by decide, by decide, rfl, rfl, by decide, rfl, rfl, rfl, rfl, rfl⟩,
    ⟨_, _, _, _, asked (live) 0x0603 1 (bytes [3, 0, 0, 0, 0, 0, 0, 0]) (by decide), by decide, by decide, by decide, nofun⟩,
    ⟨_, _, _, _, _, asked (rekeying slotRekey 0) 0x0603 1 (bytes [3, 0, 0, 0, 0, 0, 0, 0]) (by decide), by decide, by decide, by decide, rfl, rfl⟩,
    fun hc => ⟨ask (keyed slot3) 0x0604 keyData, ask (keyed slot3) 0x0604 keyData, _, _, 0, _, rq (keyed slot3) keyData, _, zeros 32, _, asked _ _ _ _
      (by decide), ⟨rfl, rfl⟩, by decide +kernel, by decide +kernel, nofun, by decide +kernel, notBad hc _ _ rfl, by decide +kernel, rfl, rfl,
      unwrapped hc _, rfl, rfl, rfl⟩,
    ⟨_, _, _, _, _, _, asked (put (keyed slot3) [(Reg.hopStatus, 8)]) 0x0605 3 (bytes [3, 0, 0, 0, 0, 0, 0, 0]) (by decide), ⟨rfl, rfl⟩, by decide,
      by decide, by decide, rfl, rfl, by decide⟩,
    ⟨_, _, _, _, _, _, asked (keyed slot3) 0x0605 3 (bytes [3, 0, 0, 0, 0, 0, 0, 0]) (by decide), ⟨rfl, rfl⟩, by decide, by decide, by decide, rfl,
      rfl, by decide⟩,
    ⟨rekeying { slotRekey with locked := true } 0, _, _, rfl, rfl, Or.inl (by decide)⟩,
    ⟨{ rekeying slotRekey 8 with mem := { (rekeying slotRekey 8).mem with conv := [(1, { first := 64, ver := true, rekey := true })] } }, _, _, rfl,
      rfl, by decide⟩,
    ⟨rekeying slotRekey 8, _, _, rfl, rfl, by decide⟩,
    ⟨rekeying { slotRekey with active := true } 0, _, _, 0, 3 * 2 ^ 48, rfl, rfl, by decide, by decide, by decide, by decide, by decide, rfl⟩,
    ⟨{ oldNode with mem := { oldNode.mem with conv := [(0, { first := 0, ver := true, rekey := true })] } }, _, _, 0, 3 * 2 ^ 48, rfl, rfl, by decide,
      by decide, by decide, by decide, by decide, rfl, by decide⟩,
    ⟨oldNode, _, _, 0, 3 * 2 ^ 48, rfl, rfl, by decide, by decide, by decide, by decide, by decide, rfl, by decide⟩,
    ⟨rekeying slotRekey 0, _, rfl, by decide⟩⟩

theorem witness_MacsecJtagAndDmaAct :
    (unwrapKey "SLN4810-SAK" 1 3 (zeros 96) (zeros 40) = some (zeros 32) → ∃ (s : State) (t : State) (e : State) (m : Nat) (p : Nat) (i : Nat) (r :
      Req) (key : List Byte), s.Asked m 0x0610 3 r t ∧ t.KeepOpen ∧ lengthZero 176 4 4 r = none ∧ p = leAt r.data 0 1 ∧ (leAt r.data 3 1 = 1 ∨ zeroAt
      r.data 24 16 = true) ∧ p < t.portCount ∧ t.host.sas.any (fun x => x.1 / 32 == p && x.2.tx == (leAt r.data 1 1 == 1) && x.2.an == leAt r.data 2 1
      && x.2.sci == leAt r.data 8 8) = false ∧ leAt r.data 1 1 < 2 ∧ leAt r.data 2 1 < 4 ∧ leAt r.data 3 1 < 2 ∧ (leAt r.data 3 1 == 1) = t.flag
      (Reg.ethMsecCfg p) 16 ∧ sakOf r = some key ∧ t.saCount p < 32 ∧ e = t.entered r 0x0610 [] (saEntry p (leAt r.data 1 1 == 1) (leAt r.data 2 1)
      (leAt r.data 8 8)) ∧ e.host.sas.firstFree (32 * p) 32 = some i) ∧
    (∃ (s : State) (t : State) (e : State) (m : Nat) (i : Nat) (r : Req) (a : MacSa), s.Asked m 0x0611 3 r t ∧ t.KeepOpen ∧ lengthZero 8 2 6 r = none
      ∧ t.saOf r = some (i, a) ∧ e = t.entered r 0x0611 (saEntry (i / 32) a.tx a.an a.sci) (saEntry (i / 32) a.tx a.an a.sci)) ∧
    (∃ (s : State) (t : State) (e : State) (m : Nat) (i : Nat) (r : Req) (a : MacSa), s.Asked m 0x0612 3 r t ∧ t.KeepOpen ∧ lengthZero 8 2 6 r = none
      ∧ t.saOf r = some (i, a) ∧ a.tx = true ∧ e = t.entered r 0x0612 (saEntry (i / 32) a.tx a.an a.sci) (saEntry (i / 32) a.tx a.an a.sci)) ∧
    (∃ (s : State) (t : State) (m : Nat) (i : Nat) (r : Req) (a : MacSa), s.Asked m 0x0613 1 r t ∧ lengthZero 8 2 6 r = none ∧ t.saOf r = some (i, a)) ∧
    (∃ (s : State) (t : State) (e : State) (m : Nat) (r : Req), s.Asked m 0x0620 3 r t ∧ t.KeepOpen ∧ lengthZero 8 1 7 r = none ∧ leAt r.data 0 1 < 4
      ∧ e = t.entered r 0x0620 [BitVec.ofNat 8 (t.fld Reg.secJtag 1 0)] r.data) ∧
    (∃ (s : State) (t : State) (e : State) (m : Nat) (r : Req), s.Asked m 0x0621 2 r t ∧ t.kept.closed = false ∧ r.data = [] ∧ e = t.jAlways (t.jEntry
      r.author true 0x0621 .ok [BitVec.ofNat 8 (t.fld Reg.secJtag 1 0)] [])) ∧
    (∃ (s : State) (t : State), t = s.draw256.2) ∧
    (∃ (s : State) (t : State) (scope : Nat) (key : Nat) (sig : List Byte), scope < 256 ∧ key < 256 ∧ sig.length = 96 ∧ t =
      { s with mbx := { s.mbx with jtagNonce := none } } ∧ s.flag Reg.secJtag 4 = true) ∧
    (∃ (s : State) (t : State) (scope : Nat) (key : Nat) (sig : List Byte), scope < 256 ∧ key < 256 ∧ sig.length = 96 ∧ t =
      { s with mbx := { s.mbx with jtagNonce := none } } ∧ s.flag Reg.secJtag 4 = false ∧ (s.mbx.jtagNonce = none ∨ s.kept.adminKeys.find key = none ∨
      4 ≤ scope)) ∧
    (Config.ecdsaOk (zeros 96) unlockMessage (zeros 96) = false → ∃ (s : State) (t : State) (scope : Nat) (key : Nat) (sig : List Byte) (n : List
      Byte) (k : List Byte), scope < 256 ∧ key < 256 ∧ sig.length = 96 ∧ t = { s with mbx := { s.mbx with jtagNonce := none } } ∧ s.flag Reg.secJtag 4
      = false ∧ s.mbx.jtagNonce = some n ∧ s.kept.adminKeys.find key = some k ∧ scope < 4 ∧ Config.ecdsaOk k (n ++ serialBytes ++ [BitVec.ofNat 8
      scope, BitVec.ofNat 8 key]) sig = false) ∧
    (Config.ecdsaOk (zeros 96) unlockMessage (zeros 96) = true → ∃ (s : State) (t : State) (scope : Nat) (key : Nat) (sig : List Byte) (n : List Byte)
      (k : List Byte), scope < 256 ∧ key < 256 ∧ sig.length = 96 ∧ t = { s with mbx := { s.mbx with jtagNonce := none } } ∧ s.flag Reg.secJtag 4 =
      false ∧ s.mbx.jtagNonce = some n ∧ s.kept.adminKeys.find key = some k ∧ scope < 4 ∧ Config.ecdsaOk k (n ++ serialBytes ++ [BitVec.ofNat 8 scope,
      BitVec.ofNat 8 key]) sig = true ∧ t.jnlFull = true) ∧
    (Config.ecdsaOk (zeros 96) unlockMessage (zeros 96) = true → ∃ (s : State) (t : State) (scope : Nat) (key : Nat) (sig : List Byte) (u : State) (n
      : List Byte) (k : List Byte), scope < 256 ∧ key < 256 ∧ sig.length = 96 ∧ t = { s with mbx := { s.mbx with jtagNonce := none } } ∧ s.flag
      Reg.secJtag 4 = false ∧ s.mbx.jtagNonce = some n ∧ s.kept.adminKeys.find key = some k ∧ scope < 4 ∧ Config.ecdsaOk k (n ++ serialBytes ++
      [BitVec.ofNat 8 scope, BitVec.ofNat 8 key]) sig = true ∧ t.jnlFull = false ∧ u = t.jChange { iface := 3, cred := 0x8000 + key } true 0x0620
      [BitVec.ofNat 8 (t.fld Reg.secJtag 1 0)] [BitVec.ofNat 8 scope]) ∧
    (∃ (s : State) (d : Nat), s.mbx.jtagClosed = some d ∧ d ≤ s.now) ∧
    (∃ (x : Nat) (a : Nat), (x = 1 ∨ x = 2) ∧ a < 2 ^ 64 ∧ a / 2 ^ 56 = 0) ∧
    (∃ (x : Nat) (a : Nat), (x = 1 ∨ x = 2) ∧ a < 2 ^ 64 ∧ a / 2 ^ 56 ≠ 0) :=
  ⟨fun hc => ⟨ask live 0x0610 saData, ask live 0x0610 saData, _, 0, 1, 32, rq live saData, zeros 32, asked _ _ _ _ (by decide), ⟨rfl, rfl⟩,
      by decide +kernel, by decide +kernel, Or.inr (by decide), by decide +kernel, by decide +kernel, by decide +kernel, by decide +kernel,
      by decide +kernel, by decide +kernel, hc, by decide +kernel, rfl, by decide +kernel⟩,
    ⟨_, _, _, _, _, _, _, asked (withSa) 0x0611 3 (bytes [7, 31, 0, 0, 0, 0, 0, 0]) (by decide), ⟨rfl, rfl⟩, by decide, rfl, rfl⟩,
    ⟨_, _, _, _, _, _, _, asked (withSa) 0x0612 3 (bytes [7, 31, 0, 0, 0, 0, 0, 0]) (by decide), ⟨rfl, rfl⟩, by decide, rfl, by decide, rfl⟩,
    ⟨_, _, _, _, _, _, asked (withSa) 0x0613 1 (bytes [7, 31, 0, 0, 0, 0, 0, 0]) (by decide), by decide, rfl⟩,
    ⟨_, _, _, _, _, asked (live) 0x0620 3 (bytes [3, 0, 0, 0, 0, 0, 0, 0]) (by decide), ⟨rfl, rfl⟩, by decide, by decide, rfl⟩,
    ⟨_, _, _, _, _, asked (live) 0x0621 2 ([]) (by decide), by decide, by decide, rfl⟩,
    ⟨live, _, rfl⟩,
    ⟨put nonced [(Reg.secJtag, 16)], _, 3, 0, zeros 96, by decide, by decide, by decide, rfl, by decide⟩,
    ⟨nonced, _, 4, 0, zeros 96, by decide, by decide, by decide, rfl, by decide, Or.inr (Or.inr (by decide))⟩,
    fun hc => ⟨nonced, _, 3, 0, zeros 96, _, _, by decide, by decide, by decide, rfl, by decide, rfl, rfl, by decide, hc⟩,
    fun hc => ⟨full, _, 3, 0, zeros 96, _, _, by decide, by decide, by decide, rfl, by decide, rfl, rfl, by decide, hc, full_jnl⟩,
    fun hc => ⟨nonced, _, 3, 0, zeros 96, _, _, _, by decide, by decide, by decide, rfl, by decide, rfl, rfl, by decide, hc, by decide, rfl⟩,
    ⟨{ live with mbx := { live.mbx with jtagClosed := some 5 } }, 5, by decide⟩,
    ⟨2, 2 ^ 56 - 1, Or.inr rfl, by decide⟩,
    ⟨1, 2 ^ 56, Or.inl rfl, by decide⟩⟩

theorem witness_PowerModesCapAndTemperature :
    (∀ c ∈ [(Instr.powerModeSetFull, 0), (.powerModeSetEconomy, 1), (.powerModeSetIdle, 2)], ∃ (s : State) (t : State) (u : State) (m : Nat) (r : Req)
      (d : RegDesc) (st : Status), s.Asked m 0x0702 2 r t ∧ leAt (s.box m).req 0 1 = c.2 ∧ leAt r.data 0 1 = c.2 ∧ lengthZero 8 1 7 r = none ∧ (c.2 =
      2 → t.power ≠ .held ∧ t.jobRuns = false) ∧ regDesc Reg.pwrMode = some d ∧ t.writeWord r.author Reg.pwrMode d ((t.view Reg.pwrMode).withField 1 0
      c.2) = (st, u)) ∧
    (∃ (s : State) (t : State) (e : State) (m : Nat) (c : Nat) (r : Req), s.Asked m 0x0703 2 r t ∧ t.KeepOpen ∧ lengthZero 8 2 6 r = none ∧ c = leAt
      r.data 0 2 ∧ (c = 0 ∨ 40 ≤ c ∧ c ≤ 118) ∧ e = t.entered r 0x0703 (leBytes 2 (t.fld Reg.pwrMode 23 8)) r.data) ∧
    (∃ (s : State) (t : State) (e : State) (m : Nat) (k : Nat) (r : Req), s.Asked m 0x0704 3 r t ∧ t.kept.closed = false ∧ lengthZero 8 1 7 r = none ∧
      leAt (s.box m).req 0 1 = k ∧ leAt r.data 0 1 = k ∧ e = t.jAlways (t.jEntry r.author true 0x0704 .ok [] r.data) ∧ k = 0) ∧
    (∃ (s : State) (t : State) (e : State) (m : Nat) (k : Nat) (r : Req), s.Asked m 0x0704 3 r t ∧ t.kept.closed = false ∧ lengthZero 8 1 7 r = none ∧
      leAt (s.box m).req 0 1 = k ∧ leAt r.data 0 1 = k ∧ e = t.jAlways (t.jEntry r.author true 0x0704 .ok [] r.data) ∧ k = 1) ∧
    (∃ (s : State) (t : State) (e : State) (m : Nat) (k : Nat) (r : Req), s.Asked m 0x0704 3 r t ∧ t.kept.closed = false ∧ lengthZero 8 1 7 r = none ∧
      leAt (s.box m).req 0 1 = k ∧ leAt r.data 0 1 = k ∧ e = t.jAlways (t.jEntry r.author true 0x0704 .ok [] r.data) ∧ k = 2) ∧
    (∃ (s : State) (t : State) (m : Nat) (r : Req), s.Asked m 0x0711 2 r t ∧ r.data = []) ∧
    (∃ (s : State) (t : State) (u : State) (m : Nat) (r : Req) (d : RegDesc), s.Asked m 0x0712 3 r t ∧ r.data.length = 8 ∧ zeroAt r.data 1 1 = true ∧
      zeroAt r.data 7 1 = true ∧ leAt r.data 0 1 ≤ 1 ∧ 10 ≤ leAt r.data 2 2 ∧ leAt r.data 2 2 ≤ 1000 ∧ 85 ≤ leAt r.data 4 1 ∧ leAt r.data 4 1 ≤ 105 ∧
      70 ≤ leAt r.data 5 1 ∧ leAt r.data 5 1 ≤ 85 ∧ 5 ≤ leAt r.data 6 1 ∧ leAt r.data 6 1 ≤ 50 ∧ regDesc Reg.thmCfg = some d ∧ t.writeKeep r.author
      false (boxWaiter m) Reg.thmCfg d (throttleWord r.data) = (.queued, u)) ∧
    (∃ (s : State) (t : State) (u : State) (m : Nat) (r : Req) (d : RegDesc) (st : Status), s.Asked m 0x0712 3 r t ∧ r.data.length = 8 ∧ zeroAt r.data
      1 1 = true ∧ zeroAt r.data 7 1 = true ∧ leAt r.data 0 1 ≤ 1 ∧ 10 ≤ leAt r.data 2 2 ∧ leAt r.data 2 2 ≤ 1000 ∧ 85 ≤ leAt r.data 4 1 ∧ leAt r.data
      4 1 ≤ 105 ∧ 70 ≤ leAt r.data 5 1 ∧ leAt r.data 5 1 ≤ 85 ∧ 5 ≤ leAt r.data 6 1 ∧ leAt r.data 6 1 ≤ 50 ∧ regDesc Reg.thmCfg = some d ∧ t.writeKeep
      r.author false (boxWaiter m) Reg.thmCfg d (throttleWord r.data) = (.done st, u)) ∧
    (∃ (s : State), s.ripe Timer.thermModel = true) ∧
    (∃ (s : State), s.pwr.sweeping = true) ∧
    (∃ (s : State), s.pwr.sweeping = false) ∧
    (∃ (s : State), s.stepNo = 11 ∧ s.pwr.holdTest = true ∧ s.local' = false) ∧
    (∃ (s : State), (s.power = .full ∨ s.power = .economy) ∧ s.fld Reg.pwrCfg 39 28 ≠ 0 ∧ s.host.ops = [] ∧ s.jobRuns = false ∧ s.pwr.idling = false ∧
      s.host.lastWork + sec (s.fld Reg.pwrCfg 39 28) ≤ s.now ∧ s.overtaken (s.host.lastWork + sec (s.fld Reg.pwrCfg 39 28)) bringsStitch = false) ∧
    (∃ (s : State) (t : State) (p : Nat) (q : Nat) (l : List (Nat × Nat)), s.ripe Timer.capTick = true ∧ t = (List.range (min 10 l.length)).foldl (fun
      u r => match l[r]? with | some x => (u.setFld (Reg.pwrRail r) 15 0 x.1).setFld (Reg.pwrRail r) 31 16 x.2 | none => u) ((s.setFld Reg.pwrStatus
      31 16 p).setFld Reg.pwrStatus 47 32 q)) ∧
    (∃ (s : State), s.ripe Timer.thermTick = true) ∧
    (∃ (s : State), s.ripe Timer.sweep = true) :=
  ⟨fun c hc => ⟨ask live 0x0702 (BitVec.ofNat 8 c.2 :: zeros 7), ask live 0x0702 (BitVec.ofNat 8 c.2 :: zeros 7), _, 0, rq live (BitVec.ofNat 8 c.2
      :: zeros 7), _, _, asked live 0x0702 2 _ rfl, (by revert c; decide), (by revert c; decide), (by revert c; decide), (by revert c; decide), rfl,
      rfl⟩,
    ⟨_, _, _, _, _, _, asked (live) 0x0703 2 (bytes [118, 0, 0, 0, 0, 0, 0, 0]) (by decide), ⟨rfl, rfl⟩, by decide, rfl, by decide, rfl⟩,
    ⟨_, _, _, _, _, _, asked (live) 0x0704 3 (bytes [0, 0, 0, 0, 0, 0, 0, 0]) (by decide), by decide, by decide, rfl, rfl, rfl, rfl⟩,
    ⟨_, _, _, _, _, _, asked (live) 0x0704 3 (bytes [1, 0, 0, 0, 0, 0, 0, 0]) (by decide), by decide, by decide, rfl, rfl, rfl, rfl⟩,
    ⟨_, _, _, _, _, _, asked (live) 0x0704 3 (bytes [2, 0, 0, 0, 0, 0, 0, 0]) (by decide), by decide, by decide, rfl, rfl, rfl, rfl⟩,
    ⟨_, _, _, _, asked (live) 0x0711 2 ([]) (by decide), by decide⟩,
    ⟨_, _, _, _, _, _, asked (live) 0x0712 3 (bytes [0, 0, 10, 0, 85, 70, 5, 0]) (by decide), by decide, by decide, by decide, by decide, by decide,
      by decide, by decide, by decide, by decide, by decide, by decide, by decide, rfl, rfl⟩,
    ⟨_, _, _, _, _, _, _, asked (worn) 0x0712 3 (bytes [0, 0, 10, 0, 85, 70, 5, 0]) (by decide), by decide, by decide, by decide, by decide,
      by decide, by decide, by decide, by decide, by decide, by decide, by decide, by decide, rfl, rfl⟩,
    ⟨ripe live, by decide⟩,
    ⟨atStep 12 .full (fun p => { p with sweeping := true }), by decide⟩,
    ⟨live, by decide⟩,
    ⟨atStep 11 .bringup (fun p => { p with holdTest := true }), by decide⟩,
    ⟨put live [(Reg.pwrCfg, 1 * 2 ^ 28)], Or.inl rfl, by decide⟩,
    ⟨ripe live, _, 0, 0, [], by decide, rfl⟩,
    ⟨ripe live, by decide⟩,
    ⟨ripe live, by decide⟩⟩

theorem witness_FirmwareUpdateAndDiagnostics :
    (∃ (s : State) (t : State) (e : State) (m : Nat) (a : Nat) (n : Nat) (r : Req), s.Asked m 0x0902 3 r t ∧ t.KeepOpen ∧ 9 ≤ r.data.length ∧ a = leAt
      r.data 0 4 ∧ n = leAt r.data 4 4 ∧ (a = 0 ∨ a = t.boot.staging.length ∧ n = t.boot.total) ∧ n ≤ 20 * 2 ^ 20 ∧ a + (r.data.length - 8) ≤ n ∧
      t.boot.stage ≠ 6 ∧ e = t.entered r 0x0902 [] r.data) ∧
    (∃ (s : State) (t : State) (e : State) (u : State) (m : Nat) (r : Req), s.Asked m 0x0903 3 r t ∧ t.KeepOpen ∧ r.data = [] ∧ (t.boot.stage = 2 ∨
      t.boot.stage = 4) ∧ e = t.entered r 0x0903 [] [] ∧ u = ({ e with boot := { e.boot with stage := 3 } } : State).jSecond .yes (t.jEntry r.author
      true 0x0903 .ok [] []) (verifyStatus e.verifyResult)) ∧
    (∀ c ∈ [(Instr.fwActivateLive, 0), (.fwActivateRestart, 1), (.fwActivateNextStart, 2)], ∃ (s : State) (t : State) (e : State) (m : Nat) (r : Req),
      s.Asked m 0x0904 3 r t ∧ t.KeepOpen ∧ lengthZero 8 1 7 r = none ∧ leAt (s.box m).req 0 1 = c.2 ∧ leAt r.data 0 1 = c.2 ∧ t.boot.stage = 4 ∧
      (t.boot.active ≠ 2 ∨ c.2 = 1) ∧ (c.2 = 0 → (pkgOf t.boot.staging).liveOk = true ∧ t.swapping = false) ∧ e = t.entered r 0x0904 [] r.data) ∧
    (∃ (s : State) (t : State) (e : State) (m : Nat) (r : Req), s.Asked m 0x0905 3 r t ∧ t.KeepOpen ∧ r.data = [] ∧ t.pendingRuns = true ∧ e =
      t.entered r 0x0905 [] []) ∧
    (∃ (s : State) (t : State) (e : State) (m : Nat) (r : Req), s.Asked m 0x0906 3 r t ∧ t.KeepOpen ∧ r.data = [] ∧ t.boot.stage ≠ 0 ∧ t.boot.stage ≠
      5 ∧ e = t.entered r 0x0906 [] [] ∧ t.boot.stage ≠ 6) ∧
    (∃ (s : State) (t : State) (e : State) (m : Nat) (r : Req), s.Asked m 0x0906 3 r t ∧ t.KeepOpen ∧ r.data = [] ∧ t.boot.stage ≠ 0 ∧ t.boot.stage ≠
      5 ∧ e = t.entered r 0x0906 [] [] ∧ t.boot.stage = 6 ∧ t.swapping = false ∧ t.boot.active ≠ t.boot.pendingSlot) ∧
    (∃ (s : State) (t : State) (e : State) (m : Nat) (r : Req), s.Asked m 0x0906 3 r t ∧ t.KeepOpen ∧ r.data = [] ∧ t.boot.stage ≠ 0 ∧ t.boot.stage ≠
      5 ∧ e = t.entered r 0x0906 [] [] ∧ t.boot.stage = 6 ∧ t.swapping = false ∧ t.boot.active = t.boot.pendingSlot) ∧
    (∃ (r : State) (s : State) (m : Nat) (b : Mailbox), m < 16 ∧ b = r.box m ∧ s = (if b.st = .busy && b.begun && b.code == 0x0202 && !r.lace.jobs.any
      (fun j => j.act == .mailbox m) then r.clearPanels (.mailbox m) else r) ∧ ¬ s.MayEnd m b) ∧
    (∃ (r : State) (s : State) (m : Nat) (b : Mailbox), m < 16 ∧ b = r.box m ∧ s = (if b.st = .busy && b.begun && b.code == 0x0202 && !r.lace.jobs.any
      (fun j => j.act == .mailbox m) then r.clearPanels (.mailbox m) else r) ∧ s.MayEnd m b ∧ (b.code = 0x0802 → s.clearing = false) ∧ (b.code =
      0x0903 → s.boot.stage ≠ 3) ∧ (b.code = 0x0904 → s.boot.stage ≠ 5)) ∧
    (∃ (r : State) (s : State) (m : Nat) (b : Mailbox), m < 16 ∧ b = r.box m ∧ s = (if b.st = .busy && b.begun && b.code == 0x0202 && !r.lace.jobs.any
      (fun j => j.act == .mailbox m) then r.clearPanels (.mailbox m) else r) ∧ s.MayEnd m b ∧ b.code = 0x0802 ∧ s.clearing = true) ∧
    (∃ (r : State) (s : State) (m : Nat) (b : Mailbox), m < 16 ∧ b = r.box m ∧ s = (if b.st = .busy && b.begun && b.code == 0x0202 && !r.lace.jobs.any
      (fun j => j.act == .mailbox m) then r.clearPanels (.mailbox m) else r) ∧ s.MayEnd m b ∧ b.code = 0x0903 ∧ s.boot.stage = 3) ∧
    (∃ (r : State) (s : State) (u : State) (m : Nat) (b : Mailbox), m < 16 ∧ b = r.box m ∧ s = (if b.st = .busy && b.begun && b.code == 0x0202 &&
      !r.lace.jobs.any (fun j => j.act == .mailbox m) then r.clearPanels (.mailbox m) else r) ∧ s.MayEnd m b ∧ b.code = 0x0904 ∧ s.boot.stage = 5 ∧ u
      = (s.sealPending (leAt b.req 0 1)).mbxComplete m b.status b.resp ∧ leAt b.req 0 1 = 0) ∧
    (∃ (r : State) (s : State) (u : State) (m : Nat) (b : Mailbox), m < 16 ∧ b = r.box m ∧ s = (if b.st = .busy && b.begun && b.code == 0x0202 &&
      !r.lace.jobs.any (fun j => j.act == .mailbox m) then r.clearPanels (.mailbox m) else r) ∧ s.MayEnd m b ∧ b.code = 0x0904 ∧ s.boot.stage = 5 ∧ u
      = (s.sealPending (leAt b.req 0 1)).mbxComplete m b.status b.resp ∧ leAt b.req 0 1 = 1) ∧
    (∃ (r : State) (s : State) (u : State) (m : Nat) (b : Mailbox), m < 16 ∧ b = r.box m ∧ s = (if b.st = .busy && b.begun && b.code == 0x0202 &&
      !r.lace.jobs.any (fun j => j.act == .mailbox m) then r.clearPanels (.mailbox m) else r) ∧ s.MayEnd m b ∧ b.code = 0x0904 ∧ s.boot.stage = 5 ∧ u
      = (s.sealPending (leAt b.req 0 1)).mbxComplete m b.status b.resp ∧ leAt b.req 0 1 ≠ 0 ∧ leAt b.req 0 1 ≠ 1) ∧
    (∃ (s : State) (a : List Bool) (b : List Bool) (c : List Bool) (d : List Bool) (x : Swap), s.boot.loading = true ∧ s.power ≠ .off ∧ c = a.take 3 ∧
      d = b.take 3 ∧ s.boot.swap = some x ∧ s.busyBoxes x = true) ∧
    (∃ (s : State) (a : List Bool) (b : List Bool) (c : List Bool) (d : List Bool) (x : Swap), s.boot.loading = true ∧ s.power ≠ .off ∧ c = a.take 3 ∧
      d = b.take 3 ∧ s.boot.swap = some x ∧ s.busyBoxes x = false) ∧
    (∃ (s : State) (u : State) (v : State) (a : List Bool) (b : List Bool) (c : List Bool) (d : List Bool), s.boot.loading = true ∧ s.power ≠ .off ∧ c
      = a.take 3 ∧ d = b.take 3 ∧ s.boot.swap = none ∧ u = s.romLoad (fun k => if k = 0 then c else d) ∧ v = (if s.stepNo = 11 then u.recordItems [(0,
      grade false (decide ((c ++ d).length < 6) || (c ++ d).any (· == false) || decide (u.boot.slots.length < 2)))] else u) ∧ v.boot.active = 2 ∧
      s.stepNo = 11) ∧
    (∃ (s : State) (u : State) (v : State) (a : List Bool) (b : List Bool) (c : List Bool) (d : List Bool), s.boot.loading = true ∧ s.power ≠ .off ∧ c
      = a.take 3 ∧ d = b.take 3 ∧ s.boot.swap = none ∧ u = s.romLoad (fun k => if k = 0 then c else d) ∧ v = (if s.stepNo = 11 then u.recordItems [(0,
      grade false (decide ((c ++ d).length < 6) || (c ++ d).any (· == false) || decide (u.boot.slots.length < 2)))] else u) ∧ v.boot.active = 2 ∧
      s.stepNo ≠ 11) ∧
    (∃ (s : State) (u : State) (v : State) (a : List Bool) (b : List Bool) (c : List Bool) (d : List Bool) (alive : Bool), s.boot.loading = true ∧
      s.power ≠ .off ∧ c = a.take 3 ∧ d = b.take 3 ∧ s.boot.swap = none ∧ u = s.romLoad (fun k => if k = 0 then c else d) ∧ v = (if s.stepNo = 11 then
      u.recordItems [(0, grade false (decide ((c ++ d).length < 6) || (c ++ d).any (· == false) || decide (u.boot.slots.length < 2)))] else u) ∧
      v.boot.active ≠ 2 ∧ alive = false) ∧
    (∃ (s : State) (u : State) (v : State) (a : List Bool) (b : List Bool) (c : List Bool) (d : List Bool) (alive : Bool), s.boot.loading = true ∧
      s.power ≠ .off ∧ c = a.take 3 ∧ d = b.take 3 ∧ s.boot.swap = none ∧ u = s.romLoad (fun k => if k = 0 then c else d) ∧ v = (if s.stepNo = 11 then
      u.recordItems [(0, grade false (decide ((c ++ d).length < 6) || (c ++ d).any (· == false) || decide (u.boot.slots.length < 2)))] else u) ∧
      v.boot.active ≠ 2 ∧ alive = true ∧ s.stepNo = 11) ∧
    (∃ (s : State) (u : State) (v : State) (a : List Bool) (b : List Bool) (c : List Bool) (d : List Bool) (alive : Bool), s.boot.loading = true ∧
      s.power ≠ .off ∧ c = a.take 3 ∧ d = b.take 3 ∧ s.boot.swap = none ∧ u = s.romLoad (fun k => if k = 0 then c else d) ∧ v = (if s.stepNo = 11 then
      u.recordItems [(0, grade false (decide ((c ++ d).length < 6) || (c ++ d).any (· == false) || decide (u.boot.slots.length < 2)))] else u) ∧
      v.boot.active ≠ 2 ∧ alive = true ∧ s.stepNo ≠ 11) ∧
    (∃ (s : State), 11 ≤ s.stepNo ∧ s.stepNo ≤ 13 ∧ s.local' = false ∧ s.boot.active ≠ 2 ∧ s.boot.loading = false ∧ s.boot.bootOkDue = none) ∧
    (∃ (s : State) (x : Swap), s.boot.swap = some x ∧ x.handed = false ∧ x.due ≤ s.now ∧ s.overtaken x.due endsCommand = false ∧ s.busyBoxes x = true) ∧
    (∃ (s : State) (u : State) (x : Swap) (d : Nat), s.boot.swap = some x ∧ s.boot.bootOkDue = some d ∧ d ≤ s.now ∧ s.overtaken d bootsAlive = false ∧
      u = (if s.boot.stage = 6 then s.fallBack 2 else s)) ∧
    (∃ (s : State) (a : Nat), s.boot.activatedAt = some a ∧ s.pendingRuns = true ∧ a + 259200 ≤ s.opSeconds ∧ s.swapping = false ∧ s.hkpUp = true) ∧
    (∃ (s : State) (t : State) (e : State) (u : State) (m : Nat) (r : Req) (d : SelfTest) (h : HoldTest), s.Asked m 0x0A02 3 r t ∧ t.kept.closed =
      false ∧ lengthZero 8 1 7 r = none ∧ leAt r.data 0 1 < 2 ∧ t.power = .held ∧ e = t.jAlways (t.jEntry r.author true 0x0A02 .ok [] r.data) ∧ u =
      e.retest d h (leAt r.data 0 1 == 1)) ∧
    (∃ (s : State) (t : State) (e : State) (m : Nat) (k : Nat) (i : Nat) (r : Req), s.Asked m 0x0A10 3 r t ∧ t.KeepOpen ∧ r.data.length = 8 ∧ leAt
      r.data 2 2 = 0 ∧ k = leAt r.data 0 2 ∧ k ≠ 0 ∧ k < 8 ∧ t.diagUnit k (leAt r.data 4 4) = true ∧ t.diagRuns = false ∧ (t.power = .held ∨
      t.diagIdle k (leAt r.data 4 4) = true) ∧ e = t.entered r 0x0A10 [] r.data ∧ i = e.boot.nextDiag % 2 ^ 32) ∧
    (∃ (s : State) (u : State) (ok : Bool) (k : Nat) (d : Diag), s.boot.diag = some d ∧ d.ended = none ∧ u =
      ({ s with boot := { s.boot with diag := some { d with ended := some (if ok then 0 else 1, (s.now - d.began) / ms 1, k) } } } : State).bobEnter 0
      ∧ ok = true) ∧
    (∃ (s : State) (u : State) (ok : Bool) (k : Nat) (d : Diag), s.boot.diag = some d ∧ d.ended = none ∧ u =
      ({ s with boot := { s.boot with diag := some { d with ended := some (if ok then 0 else 1, (s.now - d.began) / ms 1, k) } } } : State).bobEnter 0
      ∧ ok = false) ∧
    (∃ (s : State) (t : State) (m : Nat) (r : Req) (d : Diag) (x : Nat × Nat × Nat), s.Asked m 0x0A11 1 r t ∧ lengthZero 8 4 4 r = none ∧ t.boot.diag
      = some d ∧ d.id = leAt r.data 0 4 ∧ x = d.ended.getD (0, (t.now - d.began) / ms 1, 0)) :=
  ⟨⟨_, _, _, _, _, _, _, asked (live) 0x0902 3 (leBytes 4 0 ++ leBytes 4 (20 * 2 ^ 20) ++ zeros 1) (by decide), ⟨rfl, rfl⟩, by decide, rfl, rfl,
      Or.inl (by decide), by decide, by decide, by decide, rfl⟩,
    ⟨_, _, _, _, _, _, asked (fw (fun b => { b with stage := 2 })) 0x0903 3 ([]) (by decide), ⟨rfl, rfl⟩, by decide, Or.inl (by decide), rfl, rfl⟩,
    fun c hc => ⟨ask (fw (fun b => { b with stage := 4, staging := staged })) 0x0904 (BitVec.ofNat 8 c.2 :: zeros 7), ask (fw (fun b =>
      { b with stage := 4, staging := staged })) 0x0904 (BitVec.ofNat 8 c.2 :: zeros 7), _, 0, rq (fw (fun b =>
      { b with stage := 4, staging := staged })) (BitVec.ofNat 8 c.2 :: zeros 7), asked _ 0x0904 3 _ rfl, ⟨rfl, rfl⟩, (by revert c; decide),
      (by revert c; decide), (by revert hc; revert c; decide), (by revert c; decide), (by revert c; decide), (by revert c; decide), rfl⟩,
    ⟨_, _, _, _, _, asked (fw (fun b => { b with stage := 6, pendingSlot := 0, activatedAt := some 0 })) 0x0905 3 ([]) (by decide), ⟨rfl, rfl⟩,
      by decide, by decide, rfl⟩,
    ⟨_, _, _, _, _, asked (fw (fun b => { b with stage := 4 })) 0x0906 3 ([]) (by decide), ⟨rfl, rfl⟩, by decide, by decide, by decide, rfl,
      by decide⟩,
    ⟨_, _, _, _, _, asked (fw (fun b => { b with stage := 6, pendingSlot := 1 })) 0x0906 3 ([]) (by decide), ⟨rfl, rfl⟩, by decide, by decide,
      by decide, rfl, by decide⟩,
    ⟨_, _, _, _, _, asked (fw (fun b => { b with stage := 6, pendingSlot := 0 })) 0x0906 3 ([]) (by decide), ⟨rfl, rfl⟩, by decide, by decide,
      by decide, rfl, by decide, by decide, rfl⟩,
    ⟨live, _, 15, _, by decide, rfl, rfl, fun h => nomatch h.busy⟩,
    ⟨ending live 0x0320 (bytes [1, 0, 0, 0]), _, 15, _, by decide, rfl, rfl, ⟨by decide, rfl, rfl, rfl, nofun, nofun, rfl, by decide, rfl, ⟨rfl, rfl⟩,
      nofun, nofun⟩, nofun, nofun, nofun⟩,
    ⟨put (ending live 0x0802 []) [(Reg.smpStatus, 2 ^ 13)], _, 15, _, by decide, rfl, rfl, ⟨by decide, rfl, rfl, rfl, nofun, nofun, rfl, by decide,
      rfl, ⟨rfl, rfl⟩, nofun, nofun⟩, by decide⟩,
    ⟨ending (fw (fun b => { b with stage := 3 })) 0x0903 [], _, 15, _, by decide, rfl, rfl, ⟨by decide, rfl, rfl, rfl, nofun, nofun, rfl, by decide,
      rfl, ⟨rfl, rfl⟩, nofun, nofun⟩, by decide⟩,
    ⟨ending (fw (fun b => { b with stage := 5 })) 0x0904 [0], _, _, 15, _, by decide, rfl, rfl, ⟨by decide, rfl, rfl, rfl, nofun, nofun, rfl,
      by decide, rfl, ⟨rfl, rfl⟩, nofun, nofun⟩, by decide, by decide, rfl, by decide⟩,
    ⟨ending (fw (fun b => { b with stage := 5 })) 0x0904 [1], _, _, 15, _, by decide, rfl, rfl, ⟨by decide, rfl, rfl, rfl, nofun, nofun, rfl,
      by decide, rfl, ⟨rfl, rfl⟩, nofun, nofun⟩, by decide, by decide, rfl, by decide⟩,
    ⟨ending (fw (fun b => { b with stage := 5 })) 0x0904 [2], _, _, 15, _, by decide, rfl, rfl, ⟨by decide, rfl, rfl, rfl, nofun, nofun, rfl,
      by decide, rfl, ⟨rfl, rfl⟩, nofun, nofun⟩, by decide, by decide, rfl, by decide⟩,
    ⟨boxed (fw (fun b => { b with loading := true, swap := some swap })) (smbBox .busy), [], [], _, _, swap, by decide, by decide, rfl, rfl,
      by decide⟩,
    ⟨fw (fun b => { b with loading := true, swap := some swap }), [], [], _, _, swap, by decide, by decide, rfl, rfl, by decide⟩,
    ⟨booting 11 [], _, _, [], [], _, _, by decide, by decide, rfl, rfl, by decide, rfl, rfl, by decide⟩,
    ⟨booting 12 [], _, _, [], [], _, _, by decide, by decide, rfl, rfl, by decide, rfl, rfl, by decide⟩,
    ⟨booting 12 good, _, _, good, good, _, _, false, by decide, by decide, rfl, rfl, by decide, rfl, rfl, by decide⟩,
    ⟨booting 11 good, _, _, good, good, _, _, true, by decide, by decide, rfl, rfl, by decide, rfl, rfl, by decide⟩,
    ⟨booting 12 good, _, _, good, good, _, _, true, by decide, by decide, rfl, rfl, by decide, rfl, rfl, by decide⟩,
    ⟨put (fw (fun b => b)) [(Reg.pwrStatus, 13)], by decide⟩,
    ⟨boxed (fw (fun b => { b with swap := some swap })) (smbBox .busy), swap, by decide⟩,
    ⟨fw (fun b => { b with swap := some swap, bootOkDue := some 5, stage := 6 }), _, swap, 5, by decide, by decide, by decide, by decide, rfl⟩,
    ⟨put (fw (fun b => { b with stage := 6, pendingSlot := 0, activatedAt := some 0 })) [(Reg.kepTime, 72)], 0, by decide⟩,
    ⟨_, _, _, _, _, _, anySelfTest, anyHoldTest, asked (atStep 11 .held (fun p => p)) 0x0A02 3 (bytes [1, 0, 0, 0, 0, 0, 0, 0]) (by decide),
      by decide, by decide, by decide, by decide, rfl, rfl⟩,
    ⟨_, _, _, _, _, _, _, asked (live) 0x0A10 3 (bytes [7, 0, 0, 0, 255, 255, 255, 255]) (by decide), ⟨rfl, rfl⟩, by decide, by decide, rfl,
      by decide, by decide, by decide, by decide, Or.inr (by decide), rfl, rfl⟩,
    ⟨fw (fun b => { b with diag := some diag }), _, true, 7, _, rfl, by decide, rfl, by decide⟩,
    ⟨fw (fun b => { b with diag := some diag }), _, false, 7, _, rfl, by decide, rfl, by decide⟩,
    ⟨_, _, _, _, _, _, asked (fw (fun b => { b with diag := some diag })) 0x0A11 1 (bytes [4, 0, 0, 0, 0, 0, 0, 0]) (by decide), by decide, rfl, rfl,
      rfl⟩⟩

theorem witness_SmbusRowsMailboxTimersAndKeepPages :
    (∃ (s : State), s.power ≠ .off) ∧
    (∃ (s : State), s.power = .off) ∧
    (∃ (s : State) (t : State) (b : Mailbox) (m : Nat) (l : List Byte), s.power ≠ .off ∧ m = s.mbx.smb.mailbox ∧ b = s.box m ∧ l ≠ [] ∧ l.length ≤ 32
      ∧ t = s.modSmb (fun y => { y with offset := (y.offset + l.length) % 2 ^ 16 }) ∧ s.mbx.smb.buffer = 1) ∧
    (∃ (s : State) (t : State) (b : Mailbox) (m : Nat) (l : List Byte), s.power ≠ .off ∧ m = s.mbx.smb.mailbox ∧ b = s.box m ∧ l ≠ [] ∧ l.length ≤ 32
      ∧ t = s.modSmb (fun y => { y with offset := (y.offset + l.length) % 2 ^ 16 }) ∧ (b.st ≠ .idle ∨ b.claimed = true) ∧ b.owner ≠ .smbus) ∧
    (∃ (s : State) (t : State) (b : Mailbox) (m : Nat) (l : List Byte), s.power ≠ .off ∧ m = s.mbx.smb.mailbox ∧ b = s.box m ∧ l ≠ [] ∧ l.length ≤ 32
      ∧ t = s.modSmb (fun y => { y with offset := (y.offset + l.length) % 2 ^ 16 }) ∧ s.mbx.smb.buffer ≠ 1 ∧ (b.st = .idle ∧ b.claimed = false ∨
      b.owner = .smbus)) ∧
    (∃ (s : State) (t : State) (n : Nat) (o : Nat) (b : Mailbox) (buf : List Byte), s.power ≠ .off ∧ 1 ≤ n ∧ n ≤ 32 ∧ b = s.box s.mbx.smb.mailbox ∧ o
      = s.mbx.smb.offset ∧ buf = (if b.owner ≠ .smbus then [] else if s.mbx.smb.buffer = 0 then b.reqBuf else b.respBuf) ∧ t = (s.smbTouch
      s.mbx.smb.mailbox).modSmb (fun y => { y with offset := (y.offset + n) % 2 ^ 16 })) ∧
    (∃ (s : State) (b : Mailbox) (m : Nat), s.power ≠ .off ∧ m = s.mbx.smb.mailbox ∧ b = s.box m ∧ (s.serving = false ∨ b.owner ≠ .smbus)) ∧
    (∃ (s : State) (b : Mailbox) (m : Nat), s.power ≠ .off ∧ m = s.mbx.smb.mailbox ∧ b = s.box m ∧ s.serving = true ∧ b.owner = .smbus) ∧
    (∃ (s : State), s.alertCauses = 0) ∧
    (∃ (s : State), s.alertCauses ≠ 0 ∧ s.power ≠ .off) ∧
    (∃ (s : State) (b : Mailbox), s.power ≠ .off ∧ b = s.box s.mbx.smb.mailbox) ∧
    (∃ (s : State) (m : Nat) (d : Nat) (b : Mailbox), m < 16 ∧ b = s.box m ∧ b.st = .busy ∧ b.early = some d ∧ d ≤ s.now ∧ s.overtaken d (doneIn m) =
      false) ∧
    (∃ (s : State) (m : Nat) (b : Mailbox), m < 16 ∧ b = s.box m ∧ (b.st = .receiving ∨ b.st = .done ∨ b.st = .delivering ∨ b.st = .idle ∧ b.claimed =
      true) ∧ b.due ≤ s.now ∧ s.overtaken b.due (s.ownerAsks m) = false) ∧
    (∃ (s : State) (d : Nat), s.mbx.sigClosed = some d ∧ d ≤ s.now) ∧
    (∃ (s : State) (t : State) (q : KeepWrite) (rest : List KeepWrite) (e : JEntry) (w : Nat), s.kept.queue = q :: rest ∧ t =
      { s with kept := { s.kept with queue := rest } } ∧ q = .journal e w) ∧
    (∃ (s : State) (t : State) (q : KeepWrite) (rest : List KeepWrite) (off : Nat) (w : Nat) (v : Word), s.kept.queue = q :: rest ∧ t =
      { s with kept := { s.kept with queue := rest } } ∧ q = .regPage off v w) :=
  ⟨⟨live, by decide⟩,
    ⟨{ live with power := .off }, by decide⟩,
    ⟨{ boxed live (smbBox .idle) with mbx := { (boxed live (smbBox .idle)).mbx with smb := { live.mbx.smb with buffer := 1 } } }, _, _, _, zeros 32,
      by decide, rfl, rfl, by decide, by decide, rfl, by decide⟩,
    ⟨boxed live (box .receiving), _, _, _, zeros 32, by decide, rfl, rfl, by decide, by decide, rfl, Or.inl (by decide), by decide⟩,
    ⟨boxed live (smbBox .idle), _, _, _, zeros 32, by decide, rfl, rfl, by decide, by decide, rfl, by decide, Or.inr (by decide)⟩,
    ⟨boxed live (smbBox .idle), _, 32, _, _, _, by decide, by decide, by decide, rfl, rfl, rfl, rfl⟩,
    ⟨boxed live (box .busy), _, _, by decide, rfl, rfl, Or.inr (by decide)⟩,
    ⟨boxed live (smbBox .busy), _, _, by decide, rfl, rfl, by decide⟩,
    ⟨live, by decide⟩,
    ⟨put live [(Reg.secAlarm, 16)], by decide⟩,
    ⟨boxed live (smbBox .busy), _, by decide, rfl⟩,
    ⟨boxed live { smbBox .busy with early := some 5 }, 0, 5, _, by decide, rfl, by decide⟩,
    ⟨boxed live { smbBox .idle with claimed := true }, 0, _, by decide, rfl, by decide⟩,
    ⟨{ live with mbx := { live.mbx with sigClosed := some 5 } }, 5, by decide⟩,
    ⟨{ live with kept := { live.kept with queue := [.journal entry 0] } }, _, _, _, entry, 0, rfl, rfl, rfl⟩,
    ⟨{ live with kept := { live.kept with queue := [.regPage Reg.pwrCfg 1 0] } }, _, _, _, Reg.pwrCfg, 0, 1, rfl, rfl, rfl⟩⟩

theorem witness_RegisterRowsWrite :
    (∃ (n : Nat), n < 8192) ∧
    (∃ (n : Nat), n < 8) ∧
    (∃ (n : Nat), n < 512) ∧
    (∃ (n : Nat), n < 9) ∧
    (∀ c ∈ [(Instr.shtConnCtlReset, 0x031020, fun v : Word => v.bit 0), (.dieFail, 0x160028, fun v => v.field 9 8 == 1), (.dieReturn, 0x160028, fun v
      => v.field 9 8 == 2), (.channelErase, 0x160040, fun v => v.field 9 8 == 1), (.channelReturn, 0x160040, fun v => v.field 9 8 == 2), (.wayLock,
      0x050028, fun v => v.field 14 12 == 1), (.wayUnlock, 0x050028, fun v => v.field 14 12 == 2), (.wayReturn, 0x050028, fun v => v.field 14 12 ==
      3), (.wayDisable, 0x050028, fun v => v.field 14 12 == 4), (.clean, 0x050040, fun v => v.field 2 0 == 1), (.cleanInv, 0x050040, fun v => v.field
      2 0 == 2), (.discard, 0x050040, fun v => v.field 2 0 == 3), (.lockFill, 0x050040, fun v => v.field 2 0 == 4), (.bobbinReset, 0x0C0038, fun v =>
      v.bit 0), (.thmSweepStart, 0x120028, fun v => v.bit 0)], ∃ (v : Word), c.2.2 v = true) ∧
    (∀ c ∈ [(Instr.shtConnCtlReset, 0x031020, fun v : Word => v.bit 0), (.dieFail, 0x160028, fun v => v.field 9 8 == 1), (.dieReturn, 0x160028, fun v
      => v.field 9 8 == 2), (.channelErase, 0x160040, fun v => v.field 9 8 == 1), (.channelReturn, 0x160040, fun v => v.field 9 8 == 2), (.wayLock,
      0x050028, fun v => v.field 14 12 == 1), (.wayUnlock, 0x050028, fun v => v.field 14 12 == 2), (.wayReturn, 0x050028, fun v => v.field 14 12 ==
      3), (.wayDisable, 0x050028, fun v => v.field 14 12 == 4), (.clean, 0x050040, fun v => v.field 2 0 == 1), (.cleanInv, 0x050040, fun v => v.field
      2 0 == 2), (.discard, 0x050040, fun v => v.field 2 0 == 3), (.lockFill, 0x050040, fun v => v.field 2 0 == 4), (.bobbinReset, 0x0C0038, fun v =>
      v.bit 0), (.thmSweepStart, 0x120028, fun v => v.bit 0)], ∃ (v : Word), c.2.2 v = false) ∧
    (∃ (s : State) (p : Path), s.pathOpen p = false) ∧
    (∃ (s : State) (p : Path), s.pathOpen p = true ∧ p ≠ .smbus) ∧
    (∃ (s : State) (p : Path) (off : Nat) (v : Word) (e : WriteEnd) (u : State), s.pathOpen p = true ∧ s.writeReg .smbus smbusWaiter off v = (e, u) ∧
      p = .smbus) ∧
    (∃ (s : State) (p : Path) (off : Nat) (d : RegDesc), off < 0x800000 ∧ regDesc off = some d ∧ s.reach p off = false) ∧
    (∃ (s : State) (p : Path) (off : Nat) (d : RegDesc), off < 0x800000 ∧ regDesc off = some d ∧ s.reach p off = true ∧ bobWindow off = true) ∧
    (∃ (s : State) (p : Path) (off : Nat) (d : RegDesc), off < 0x800000 ∧ regDesc off = some d ∧ s.reach p off = true ∧ bobWindow off = false ∧ d.rw +
      d.kp + d.w1c = 0 ∧ d.wo = false) ∧
    (∃ (s : State) (p : Path) (off : Nat) (d : RegDesc), off < 0x800000 ∧ regDesc off = some d ∧ s.reach p off = true ∧ bobWindow off = false ∧ (d.rw
      + d.kp + d.w1c ≠ 0 ∨ d.wo = true) ∧ d.lk = true ∧ s.kept.factory = false) ∧
    (∃ (s : State) (p : Path) (off : Nat) (d : RegDesc), off < 0x800000 ∧ regDesc off = some d ∧ s.reach p off = true ∧ bobWindow off = false ∧ (d.rw
      + d.kp + d.w1c ≠ 0 ∨ d.wo = true) ∧ (d.lk = false ∨ s.kept.factory = true) ∧ s.deadWindow off = true) ∧
    (∃ (s : State) (p : Path) (off : Nat) (d : RegDesc), off < 0x800000 ∧ regDesc off = some d ∧ s.reach p off = true ∧ bobWindow off = false ∧ (d.rw
      + d.kp + d.w1c ≠ 0 ∨ d.wo = true) ∧ (d.lk = false ∨ s.kept.factory = true) ∧ s.deadWindow off = false ∧ d.kp ≠ 0) ∧
    (∃ (s : State) (p : Path) (off : Nat) (d : RegDesc), off < 0x800000 ∧ regDesc off = some d ∧ s.reach p off = true ∧ bobWindow off = false ∧ (d.rw
      + d.kp + d.w1c ≠ 0 ∨ d.wo = true) ∧ (d.lk = false ∨ s.kept.factory = true) ∧ s.deadWindow off = false ∧ d.kp = 0) ∧
    (∃ (s : State) (j : State) (a : Author) (off : Nat) (v : Word) (d : RegDesc) (same : Bool), same = (!d.wo && (s.view off ^^^ v) &&& word d.rw ==
      0) ∧ j = s.jChange a false off (leBytes 8 (s.view off).toNat) (leBytes 8 v.toNat) ∧ (d.inRange v && s.related off v) = false) ∧
    (∃ (s : State) (j : State) (a : Author) (off : Nat) (v : Word) (d : RegDesc) (same : Bool), same = (!d.wo && (s.view off ^^^ v) &&& word d.rw ==
      0) ∧ j = s.jChange a false off (leBytes 8 (s.view off).toNat) (leBytes 8 v.toNat) ∧ (d.inRange v && s.related off v) = true ∧ same = true) ∧
    (∃ (s : State) (j : State) (a : Author) (off : Nat) (v : Word) (d : RegDesc) (same : Bool), same = (!d.wo && (s.view off ^^^ v) &&& word d.rw ==
      0) ∧ j = s.jChange a false off (leBytes 8 (s.view off).toNat) (leBytes 8 v.toNat) ∧ (d.inRange v && s.related off v) = true ∧ same = false ∧
      s.kept.closed = true) ∧
    (∃ (s : State) (j : State) (a : Author) (off : Nat) (v : Word) (d : RegDesc) (same : Bool), same = (!d.wo && (s.view off ^^^ v) &&& word d.rw ==
      0) ∧ j = s.jChange a false off (leBytes 8 (s.view off).toNat) (leBytes 8 v.toNat) ∧ (d.inRange v && s.related off v) = true ∧ same = false ∧
      s.kept.closed = false ∧ s.jnlFull = true) ∧
    (∃ (s : State) (j : State) (a : Author) (off : Nat) (v : Word) (d : RegDesc) (same : Bool), same = (!d.wo && (s.view off ^^^ v) &&& word d.rw ==
      0) ∧ j = s.jChange a false off (leBytes 8 (s.view off).toNat) (leBytes 8 v.toNat) ∧ (d.inRange v && s.related off v) = true ∧ same = false ∧
      s.kept.closed = false ∧ s.jnlFull = false ∧ s.regEffect (a.iface == 4) off d v = none) ∧
    (∃ (s : State) (u : State) (j : State) (a : Author) (off : Nat) (v : Word) (d : RegDesc) (same : Bool), same = (!d.wo && (s.view off ^^^ v) &&&
      word d.rw == 0) ∧ j = s.jChange a false off (leBytes 8 (s.view off).toNat) (leBytes 8 v.toNat) ∧ (d.inRange v && s.related off v) = true ∧ same
      = false ∧ s.kept.closed = false ∧ s.jnlFull = false ∧ s.regEffect (a.iface == 4) off d v = some u ∧ d.wo = false ∧ u.view off = s.view off) ∧
    (∃ (s : State) (u : State) (j : State) (a : Author) (off : Nat) (v : Word) (d : RegDesc) (same : Bool), same = (!d.wo && (s.view off ^^^ v) &&&
      word d.rw == 0) ∧ j = s.jChange a false off (leBytes 8 (s.view off).toNat) (leBytes 8 v.toNat) ∧ (d.inRange v && s.related off v) = true ∧ same
      = false ∧ s.kept.closed = false ∧ s.jnlFull = false ∧ s.regEffect (a.iface == 4) off d v = some u ∧ (d.wo = true ∨ u.view off ≠ s.view off)) ∧
    (∃ (s : State) (off : Nat) (v : Word) (x : Word) (d : RegDesc), x = (s.kpCurrent off &&& ~~~(word d.kp)) ||| (v &&& word d.kp) ∧ s.kept.wp = true) ∧
    (∃ (s : State) (off : Nat) (v : Word) (x : Word) (d : RegDesc), x = (s.kpCurrent off &&& ~~~(word d.kp)) ||| (v &&& word d.kp) ∧ s.kept.wp = false
      ∧ 100000 ≤ s.kept.counts.get off 0) ∧
    (∃ (s : State) (off : Nat) (v : Word) (x : Word) (d : RegDesc), x = (s.kpCurrent off &&& ~~~(word d.kp)) ||| (v &&& word d.kp) ∧ s.kept.wp = false
      ∧ s.kept.counts.get off 0 < 100000 ∧ (d.inRange v && s.related off v) = false) ∧
    (∃ (s : State) (off : Nat) (v : Word) (x : Word) (d : RegDesc), x = (s.kpCurrent off &&& ~~~(word d.kp)) ||| (v &&& word d.kp) ∧ s.kept.wp = false
      ∧ s.kept.counts.get off 0 < 100000 ∧ (d.inRange v && s.related off v) = true ∧ x = s.kpCurrent off) ∧
    (∃ (s : State) (off : Nat) (v : Word) (x : Word) (d : RegDesc), x = (s.kpCurrent off &&& ~~~(word d.kp)) ||| (v &&& word d.kp) ∧ s.kept.wp = false
      ∧ s.kept.counts.get off 0 < 100000 ∧ (d.inRange v && s.related off v) = true ∧ x ≠ s.kpCurrent off ∧ s.kept.closed = true) ∧
    (∃ (s : State) (off : Nat) (v : Word) (x : Word) (d : RegDesc), x = (s.kpCurrent off &&& ~~~(word d.kp)) ||| (v &&& word d.kp) ∧ s.kept.wp = false
      ∧ s.kept.counts.get off 0 < 100000 ∧ (d.inRange v && s.related off v) = true ∧ x ≠ s.kpCurrent off ∧ s.kept.closed = false ∧ s.jnlFull = true) ∧
    (∃ (s : State) (retry : Bool) (off : Nat) (v : Word) (x : Word) (d : RegDesc), x = (s.kpCurrent off &&& ~~~(word d.kp)) ||| (v &&& word d.kp) ∧
      s.kept.wp = false ∧ s.kept.counts.get off 0 < 100000 ∧ (d.inRange v && s.related off v) = true ∧ x ≠ s.kpCurrent off ∧ s.kept.closed = false ∧
      s.jnlFull = false ∧ retry = true ∧ 31 < s.kept.queue.length) ∧
    (∃ (s : State) (retry : Bool) (off : Nat) (v : Word) (x : Word) (d : RegDesc), x = (s.kpCurrent off &&& ~~~(word d.kp)) ||| (v &&& word d.kp) ∧
      s.kept.wp = false ∧ s.kept.counts.get off 0 < 100000 ∧ (d.inRange v && s.related off v) = true ∧ x ≠ s.kpCurrent off ∧ s.kept.closed = false ∧
      s.jnlFull = false ∧ (retry = false ∨ s.kept.queue.length ≤ 31)) :=
  ⟨⟨8191, by decide⟩,
    ⟨7, by decide⟩,
    ⟨511, by decide⟩,
    ⟨8, by decide⟩,
    fun c hc => ⟨([1, 2, 3, 4, 0x100, 0x200, 0x1000, 0x2000, 0x3000, 0x4000].find? c.2.2).getD 0, (by revert c; decide)⟩,
    fun c hc => ⟨0, (by revert c; decide)⟩,
    ⟨State.reset, .hkp, by decide⟩,
    ⟨live, .hkp, by decide⟩,
    ⟨live, .smbus, 0, 0, _, _, by decide, rfl, by decide⟩,
    ⟨State.reset, .hkp, Reg.ethUdpPort, _, by decide, rfl, by decide⟩,
    ⟨live, .hkp, 0x0C0100, _, by decide, rfl, by decide⟩,
    ⟨live, .hkp, 0x000008, _, by decide, rfl, by decide⟩,
    ⟨{ live with kept := { live.kept with factory := false } }, .hkp, 0x011010, _, by decide, rfl, by decide, by decide, Or.inl (by decide),
      by decide⟩,
    ⟨live, .hkp, Reg.ethPortCfg 7, _, by decide, rfl, by decide, by decide, Or.inl (by decide), Or.inr (by decide), by decide⟩,
    ⟨live, .hkp, Reg.pwrCfg, _, by decide, rfl, by decide, by decide, Or.inl (by decide), Or.inr (by decide), by decide⟩,
    ⟨live, .hkp, Reg.shtConnSel, _, by decide, rfl, by decide, by decide, Or.inl (by decide), Or.inr (by decide), by decide⟩,
    ⟨live, _, { iface := 3 }, Reg.thmCfg, 0, { ranges := [(0, 0, 1, 1)] }, true, by decide, rfl, by decide⟩,
    ⟨live, _, { iface := 3 }, Reg.thmCfg, 0, {}, true, by decide, rfl, by decide⟩,
    ⟨{ live with kept := { live.kept with closed := true } }, _, { iface := 3 }, 8, 0, { wo := true }, false, by decide, rfl, by decide⟩,
    ⟨full, _, { iface := 3 }, 8, 0, { wo := true }, false, by decide, rfl, by decide, by decide, by decide, full_jnl⟩,
    ⟨live, _, { iface := 3 }, 0x160028, word 3, { wo := true }, false, by decide, rfl, by decide⟩,
    ⟨live, _, _, { iface := 3 }, Reg.ethPortCfg 0, word (1 + 2 ^ 16 + 2 ^ 32), { rw := 2 ^ 48 - 1 }, false, by decide, rfl, by decide, by decide,
      by decide, by decide, rfl, by decide⟩,
    ⟨live, _, _, { iface := 3 }, Reg.shtConnSel, word 1, { rw := 2 ^ 16 - 1 }, false, by decide, rfl, by decide, by decide, by decide, by decide, rfl,
      Or.inr (by decide)⟩,
    ⟨{ live with kept := { live.kept with wp := true } }, Reg.thmCfg, 0, _, {}, rfl, by decide⟩,
    ⟨worn, Reg.thmCfg, 0, _, {}, rfl, by decide⟩,
    ⟨live, 8, 0, _, { ranges := [(0, 0, 1, 1)] }, rfl, by decide⟩,
    ⟨live, 8, 0, _, {}, rfl, by decide, by decide, by decide, rfl⟩,
    ⟨{ live with kept := { live.kept with closed := true } }, 8, 1, _, { kp := 1 }, rfl, by decide⟩,
    ⟨full, 8, 1, _, { kp := 1 }, rfl, by decide, by decide, by decide, by decide, by decide, full_jnl⟩,
    ⟨{ live with kept := { live.kept with queue := List.replicate 32 (.journal entry 0) } }, true, 8, 1, _, { kp := 1 }, rfl, by decide⟩,
    ⟨live, false, 8, 1, _, { kp := 1 }, rfl, by decide, by decide, by decide, by decide, by decide, by decide, Or.inl rfl⟩⟩

theorem witness_PowerSequenceAdvances :
    (∃ (s : State) (n : Nat), s.power ≠ .off ∧ 50 ≤ n ∧ n ≤ 4000 ∧ (s.stepNo = 0 ∨ 13 ≤ s.stepNo)) ∧
    (∃ (s : State) (n : Nat), s.power ≠ .off ∧ 50 ≤ n ∧ n ≤ 4000 ∧ s.stepNo ≠ 0 ∧ s.stepNo < 13) ∧
    (∃ (s : State) (n : Nat), s.power ≠ .off ∧ (n < 50 ∨ 4000 < n ∧ n < 8000)) ∧
    (∃ (s : State) (n : Nat), s.power ≠ .off ∧ 8000 ≤ n) ∧
    (∃ (s : State), s.power ≠ .off) ∧
    (∃ (s : State) (t : State), s.power ≠ .off ∧ s.stepNo ≠ 0 ∧ t =
      { s with mbx := { s.mbx with console := none }, pwr := { s.pwr with onReq := true } }) ∧
    (∃ (s : State) (t : State), s.power ≠ .off ∧ s.stepNo = 0 ∧ t = State.islandReset { s with mbx := { s.mbx with console := none } }) ∧
    (∃ (s : State), s.power = .off) ∧
    (∃ (s : State) (t : State), s.power ≠ .off ∧ t = s.setFlag Reg.pwrStatus 8 ∧ s.stepNo = 0) ∧
    (∃ (s : State) (t : State), s.power ≠ .off ∧ t = s.setFlag Reg.pwrStatus 8 ∧ s.stepNo ≠ 0 ∧ (s.local' = true ∨ s.stepNo = 15 ∨ s.stepNo = 14 ∧
      t.closeKeep.pwr.forced = true)) ∧
    (∃ (s : State) (t : State), s.power ≠ .off ∧ t = s.setFlag Reg.pwrStatus 8 ∧ 1 ≤ s.stepNo ∧ s.stepNo ≤ 11 ∧ s.local' = false) ∧
    (∃ (s : State) (t : State), s.power ≠ .off ∧ t = s.setFlag Reg.pwrStatus 8 ∧ (s.stepNo = 12 ∨ s.stepNo = 13 ∨ s.stepNo = 14 ∧
      t.closeKeep.pwr.forced = false) ∧ s.local' = false) ∧
    (∃ (s : State) (n : Nat), s.power ≠ .off ∧ n = s.stepNo ∧ s.pwr.descent = .saving) ∧
    (∃ (s : State) (n : Nat) (d : Nat), s.power ≠ .off ∧ n = s.stepNo ∧ s.pwr.descent = .rails d ∧ n = 15 ∧ s.pwr.rails = 0 ∧ s.pwr.hold = true ∧
      s.local' = false) ∧
    (∃ (s : State) (n : Nat), s.power ≠ .off ∧ n = s.stepNo ∧ s.pwr.descent = .none ∧ s.pwr.hold = true ∧ s.local' = false ∧ n = 1) ∧
    (∃ (s : State) (n : Nat) (t : State) (l : List Int), s.power ≠ .off ∧ n = s.stepNo ∧ s.pwr.descent = .none ∧ s.pwr.hold = true ∧ s.local' = false
      ∧ n = 2 ∧ t = s.takeSweep l ∧ t.aboveThrottle l = false) ∧
    (∃ (s : State) (n : Nat) (t : State) (l : List Int), s.power ≠ .off ∧ n = s.stepNo ∧ s.pwr.descent = .none ∧ s.pwr.hold = true ∧ s.local' = false
      ∧ n = 2 ∧ t = s.takeSweep l ∧ t.aboveThrottle l = true) ∧
    (∃ (s : State) (n : Nat), s.power ≠ .off ∧ n = s.stepNo ∧ s.pwr.descent = .none ∧ s.pwr.hold = true ∧ s.local' = false ∧ 3 ≤ n ∧ n ≤ 8) ∧
    (∃ (s : State) (n : Nat), s.power ≠ .off ∧ n = s.stepNo ∧ s.pwr.descent = .none ∧ s.pwr.hold = true ∧ s.local' = false ∧ (n = 9 ∨ n = 10)) ∧
    (∃ (s : State) (n : Nat) (t : State) (x : SelfTest), s.power ≠ .off ∧ n = s.stepNo ∧ s.pwr.descent = .none ∧ s.pwr.hold = true ∧ s.local' = false
      ∧ n = 11 ∧ s.boot.loading = false ∧ (s.pwr.held = true ∨ s.flag Reg.plcCeilingOvr 0 = true) ∧ t = s.takeTest x false) ∧
    (∃ (s : State) (n : Nat), s.power ≠ .off ∧ n = s.stepNo ∧ s.pwr.descent = .none ∧ s.pwr.hold = true ∧ s.local' = false ∧ n = 13 ∧ s.pwr.refuse ≠
      none ∧ s.host.ops = [] ∧ (s.pwr.forced = true ∨ s.forksCovered = true)) ∧
    (∃ (s : State) (n : Nat), s.power ≠ .off ∧ n = s.stepNo ∧ s.pwr.descent = .none ∧ s.pwr.hold = true ∧ s.local' = false ∧ n = 14 ∧ s.pwr.forced =
      false) ∧
    (∃ (s : State) (n : Nat), s.power ≠ .off ∧ n = s.stepNo ∧ s.pwr.descent = .none ∧ s.pwr.hold = true ∧ s.local' = false ∧ n = 14 ∧ s.pwr.forced =
      true) ∧
    (∃ (s : State), s.power ≠ .off ∧ s.pwr.hold = false ∧ s.stepNo = 15) ∧
    (∃ (s : State), s.power ≠ .off ∧ s.pwr.hold = false ∧ s.stepNo ≠ 0 ∧ s.stepNo ≠ 12 ∧ s.stepNo ≠ 15) ∧
    (∃ (s : State) (n : Nat), s.power ≠ .off ∧ s.local' = false ∧ s.stepTimeout s.stepNo = some n ∧ s.pwr.stepAt + n ≤ s.now ∧ s.overtaken
      (s.pwr.stepAt + n) s.advances = false) ∧
    (∃ (s : State), s.power ≠ .off ∧ s.local' = false ∧ s.stepNo = 0 ∧ s.pwr.deaf = none) ∧
    (∃ (s : State), s.power ≠ .off ∧ s.local' = false ∧ s.stepNo = 12 ∧ s.pwr.hold = true) ∧
    (∃ (s : State), s.power ≠ .off ∧ s.local' = false ∧ s.stepNo = 12 ∧ s.pwr.hold = false) ∧
    (∃ (s : State) (d : Nat), s.pwr.deaf = some d ∧ d ≤ s.now ∧ s.stepNo = 0) ∧
    (∃ (s : State) (d : Nat), s.pwr.descent = .rails d ∧ s.pwr.rails ≠ 0) ∧
    (∃ (s : State) (d : Nat), s.pwr.descent = .rails d ∧ s.pwr.rails = 0 ∧ s.local' = true) ∧
    (∃ (s : State) (d : Nat), s.pwr.graceDue = some d ∧ d ≤ s.now) ∧
    (∃ (s : State) (t : State) (d : Nat), s.pwr.autoDue = some d ∧ d ≤ s.now ∧ t = { s with pwr := { s.pwr with autoDue := none } } ∧ (t.flag
      Reg.pwrStatus 8 = true ∨ t.stepNo ≠ 0)) ∧
    (∃ (s : State) (t : State) (d : Nat), s.pwr.autoDue = some d ∧ d ≤ s.now ∧ t = { s with pwr := { s.pwr with autoDue := none } } ∧ t.flag
      Reg.pwrStatus 8 = false ∧ t.stepNo = 0) ∧
    (∃ (s : State) (t : State) (u : State) (k : Nat), k < 10 ∧ t = ((s.setFlag (Reg.pwrRail k) 34).raise 0xC001 s.self k).count (Reg.pwrCount 4) 1 ∧ u
      = (if s.railsSound = true ∧ s.kept.closed = false then (t.wr Reg.pwrLastFault (word (k + 2 ^ 8 * s.stepNo + 2 ^ 32 * s.fld Reg.kepCycle 31
      0))).setFlag Reg.pwrStatus 10 else t) ∧ (s.monitored k = false ∨ s.flag (Reg.pwrRail k) 34 = true)) ∧
    (∃ (s : State) (t : State) (u : State) (k : Nat), k < 10 ∧ t = ((s.setFlag (Reg.pwrRail k) 34).raise 0xC001 s.self k).count (Reg.pwrCount 4) 1 ∧ u
      = (if s.railsSound = true ∧ s.kept.closed = false then (t.wr Reg.pwrLastFault (word (k + 2 ^ 8 * s.stepNo + 2 ^ 32 * s.fld Reg.kepCycle 31
      0))).setFlag Reg.pwrStatus 10 else t) ∧ s.monitored k = true ∧ s.flag (Reg.pwrRail k) 34 = false ∧ (s.local' = true ∨ s.stepNo = 15)) ∧
    (∃ (s : State) (t : State) (u : State) (k : Nat), k < 10 ∧ t = ((s.setFlag (Reg.pwrRail k) 34).raise 0xC001 s.self k).count (Reg.pwrCount 4) 1 ∧ u
      = (if s.railsSound = true ∧ s.kept.closed = false then (t.wr Reg.pwrLastFault (word (k + 2 ^ 8 * s.stepNo + 2 ^ 32 * s.fld Reg.kepCycle 31
      0))).setFlag Reg.pwrStatus 10 else t) ∧ s.monitored k = true ∧ s.flag (Reg.pwrRail k) 34 = false ∧ s.local' = false ∧ s.stepNo ≠ 15) :=
  ⟨⟨State.reset, 4000, by decide, by decide, by decide, Or.inl (by decide)⟩,
    ⟨live, 50, by decide⟩,
    ⟨live, 7999, by decide, Or.inr (by decide)⟩,
    ⟨live, 8000, by decide⟩,
    ⟨live, by decide⟩,
    ⟨live, _, by decide, by decide, rfl⟩,
    ⟨State.reset, _, by decide, by decide, rfl⟩,
    ⟨atStep 0 .off (fun p => p), by decide⟩,
    ⟨State.reset, _, by decide, rfl, by decide⟩,
    ⟨put State.reset [(Reg.pwrStatus, 5 + 2 ^ 13)], _, by decide, rfl, by decide, Or.inl (by decide)⟩,
    ⟨atStep 1 .bringup (fun p => p), _, by decide, rfl, by decide⟩,
    ⟨atStep 14 .save (fun p => p), _, by decide, rfl, Or.inr (Or.inr (by decide)), by decide⟩,
    ⟨atStep 14 .save (fun p => { p with descent := .saving }), _, by decide, rfl, by decide⟩,
    ⟨atStep 15 .down (fun p => { p with descent := .rails 5, hold := true }), _, 5, by decide, rfl, by decide, rfl, by decide⟩,
    ⟨atStep 1 .bringup (fun p => { p with hold := true }), _, by decide, rfl, by decide, by decide, by decide, rfl⟩,
    ⟨put (atStep 2 .bringup (fun p => { p with hold := true })) [(Reg.thmCfg, 105 * 2 ^ 8 + 85 * 2 ^ 16)], _, _, [], by decide, rfl, by decide,
      by decide, by decide, rfl, rfl, by decide +kernel⟩,
    ⟨atStep 2 .bringup (fun p => { p with hold := true }), _, _, [4000], by decide, rfl, by decide, by decide, by decide, rfl, rfl, by decide +kernel⟩,
    ⟨atStep 8 .bringup (fun p => { p with hold := true }), _, by decide, rfl, by decide⟩,
    ⟨atStep 10 .bringup (fun p => { p with hold := true }), _, by decide, rfl, by decide, by decide, by decide, Or.inr rfl⟩,
    ⟨atStep 11 .bringup (fun p => { p with hold := true, held := true }), _, _, anySelfTest, by decide, rfl, by decide, by decide, by decide, rfl,
      by decide, Or.inl rfl, rfl⟩,
    ⟨atStep 13 .save (fun p => { p with hold := true, forced := true, refuse := some 5 }), _, by decide, rfl, by decide, by decide, by decide, rfl,
      by decide, by decide, Or.inl rfl⟩,
    ⟨atStep 14 .save (fun p => { p with hold := true }), _, by decide, rfl, by decide, by decide, by decide, rfl, by decide⟩,
    ⟨atStep 14 .save (fun p => { p with hold := true, forced := true }), _, by decide, rfl, by decide, by decide, by decide, rfl, by decide⟩,
    ⟨atStep 15 .down (fun p => p), by decide⟩,
    ⟨atStep 14 .save (fun p => p), by decide⟩,
    ⟨atStep 1 .bringup (fun p => p), _, by decide, by decide, rfl, by decide⟩,
    ⟨{ State.reset with pwr := { State.reset.pwr with deaf := none } }, by decide⟩,
    ⟨atStep 12 .full (fun p => { p with hold := true }), by decide⟩,
    ⟨live, by decide⟩,
    ⟨{ State.reset with now := ms 50 }, _, rfl, by decide⟩,
    ⟨atStep 15 .down (fun p => { p with descent := .rails 5, rails := 1 }), 5, by decide⟩,
    ⟨put (atStep 15 .down (fun p => { p with descent := .rails 5 })) [(Reg.pwrStatus, 15 + 2 ^ 13)], 5, by decide⟩,
    ⟨atStep 13 .save (fun p => { p with graceDue := some 5 }), 5, by decide⟩,
    ⟨put (atStep 0 .standby (fun p => { p with autoDue := some 5 })) [(Reg.pwrStatus, 2 ^ 8)], _, 5, by decide, by decide, rfl, Or.inl (by decide)⟩,
    ⟨atStep 0 .standby (fun p => { p with autoDue := some 5 }), _, 5, by decide, by decide, rfl, by decide⟩,
    ⟨put live [(Reg.pwrRail 9, 2 ^ 34)], _, _, 9, by decide, rfl, rfl, Or.inr (by decide)⟩,
    ⟨put (atStep 5 .bringup (fun p => { p with rails := 8 })) [(Reg.pwrStatus, 5 + 2 ^ 13)], _, _, 9, by decide, rfl, rfl, by decide⟩,
    ⟨atStep 5 .bringup (fun p => { p with rails := 8 }), _, _, 9, by decide, rfl, rfl, by decide⟩⟩

end Sys2Proof.Tests
end

