-- ==== Sys2Proof/Proofs/Fill.lean ====
section
/-!
PROOF. The bytes a FILL writes (R106): how many there are, which byte stands at each address, and what an aligned word of them holds.
-/
namespace Sys2Proof.Machine

@[simp] theorem fillBytes_length (p : List Byte) (addr len : Nat) : (fillBytes p addr len).length = len := by
  simp [fillBytes]

theorem fillBytes_getElem? (p : List Byte) (addr : Nat) {len i : Nat} (hi : i < len) :
    (fillBytes p addr len)[i]? = some (fillByte p (addr + i)) := by
  simp [fillBytes, hi]

/-- Past an aligned address the pattern starts over: the byte `j` places on is the pattern's own byte `j`. -/
theorem fillByte_aligned (p : List Byte) {a j : Nat} (ha : a % 8 = 0) (hj : j < 8) : fillByte p (a + j) = p.getD j 0 := by
  have hmod : (a + j) % 8 = j := by omega
  rw [fillByte, hmod]

/-- An aligned word covered in full holds the whole pattern (R106). -/
theorem fillBytes_aligned_word {p : List Byte} {addr len k : Nat} (hk : k + 8 ≤ len) (ha : (addr + k) % 8 = 0) (hp : p.length = 8) :
    ((fillBytes p addr len).drop k).take 8 = p := by
  apply List.ext_getElem?
  intro j
  by_cases hj : j < 8
  · calc (((fillBytes p addr len).drop k).take 8)[j]?
        = (fillBytes p addr len)[k + j]? := by rw [List.getElem?_take_of_lt hj, List.getElem?_drop]
      _ = some (fillByte p (addr + (k + j))) := fillBytes_getElem? p addr (by omega)
      _ = some (p.getD j 0) := by rw [← Nat.add_assoc, fillByte_aligned p ha hj]
      _ = p[j]? := by simp [hp, hj]
  · have hword : (((fillBytes p addr len).drop k).take 8).length ≤ j := by
      rw [List.length_take]; omega
    rw [List.getElem?_eq_none hword, List.getElem?_eq_none (by omega)]

/-- Outside PREPARE a FILL (opcode 6, Table 04-1) is a WRITE of the fill's bytes. -/
theorem State.perform_fill (s : State) (id : Nat) {o : Op} (hm : o.mode ≠ .prepare) (hop : o.st.opcode = 6) :
    s.perform id o = s.doWrite id o (fillBytes o.st.payload o.st.addr o.st.length) := by
  simp only [State.perform, if_neg hm, hop]

/-- Settles O24: the bytes are `fillBytes` of the operation's pattern and range. -/
theorem fillWritesItsPattern : Obligations.FillWritesItsPattern := by
  unfold Obligations.FillWritesItsPattern
  intro s op o hm hop
  exact ⟨fillBytes o.st.payload o.st.addr o.st.length, fillBytes_length _ _ _, fun _ hi => fillBytes_getElem? _ _ hi,
    fun _ hk ha hp => fillBytes_aligned_word hk ha hp, s.perform_fill op hm hop⟩

end Sys2Proof.Machine
end

section
/-!
PROOF. What a mailbox command comes to when its own checks refuse its request (check 7 of R437), what a query answers (R451), and from these
what KEEP_STATUS answers (R469).
-/
namespace Sys2Proof.Machine

@[simp] theorem leBytes_length (n v : Nat) : (leBytes n v).length = n := by
  induction n generalizing v with
  | zero => rfl
  | succ n ih => simp [leBytes, ih]

/-- Only a refusal with DENIED is counted; every refusal is answered without data. -/
theorem State.Asked.refuses {s t : State} {m : Nat} {r : Req} {st : Status} (c : Command) (h : s.Asked m c.code c.cls r t)
    (hc : c.check t r = some st) :
    s.command m c =
      .next ((c.refused (if st = .denied then t.count (Reg.mbxCount 3) 1 else t) r st).mbxComplete m st []) := by
  have hbox : decide (m < 16) = true := decide_eq_true h.mailbox
  simp [State.command, within, hbox, h.busy, h.code, h.fresh, h.serving, h.right, hc]

theorem State.Asked.query_refuses {s t : State} {m code cls n : Nat} {r : Req} (data : State → Req → List Byte)
    (h : s.Asked m code cls r t) (hlen : r.data.length ≠ n) :
    s.command m (queryCmd code cls n data) = .next (t.mbxComplete m .length []) :=
  have hcheck : (queryCmd code cls n data).check t r = some .length := if_neg hlen
  State.Asked.refuses (queryCmd code cls n data) h hcheck

theorem State.Asked.query_answers {s t : State} {m code cls n : Nat} {r : Req} (data : State → Req → List Byte)
    (h : s.Asked m code cls r t) (hlen : r.data.length = n) :
    s.command m (queryCmd code cls n data) = .next (t.mbxComplete m .ok (data t r)) := by
  have hcheck : (queryCmd code cls n data).check t r = none := if_pos hlen
  rw [State.Asked.runs (queryCmd code cls n data) h rfl hcheck rfl, State.finishCmd_done rfl, h.box]

/-- Settles O45: KEEP_STATUS is a query of no request data, and each of its three registers takes 8 bytes. -/
theorem keepStatusReturnsThreeRegisters : Obligations.KeepStatusReturnsThreeRegisters := by
  unfold Obligations.KeepStatusReturnsThreeRegisters
  intro s t m r h
  constructor
  · intro hdata
    exact h.query_refuses _ (mt List.eq_nil_of_length_eq_zero hdata)
  · intro hdata
    exact ⟨_, rfl, by simp, h.query_answers _ (by rw [hdata]; rfl)⟩

end Sys2Proof.Machine
end

section
/-!
PROOF. What a step keeps: the invariant of Safety.lean, each table's canonical form, the bounds of queues and ring, the locks, and what only
goes one way. All of it follows from `exec_keeps` and `State.idleStep_keeps`.
-/
namespace Sys2Proof.Machine
set_option Elab.async false

/-- A step keeps all that a command keeps; besides, it takes a command off the queue or lets a microsecond pass. -/
theorem step_keeps {s t : State} (h : step s = .next t) :
    ∃ (q : List Instr) (n : Nat), ({ s with pending := q, now := n } : State).Keeps t := by
  unfold step at h
  split at h
  · cases h
    exact ⟨_, _, s.idleStep_keeps⟩
  · exact ⟨_, _, exec_keeps _ _ t h⟩

theorem State.MemCanonical.requeue {s : State} (h : s.MemCanonical) (q : List Instr) (n : Nat) :
    ({ s with pending := q, now := n } : State).MemCanonical :=
  ⟨h.med, h.llc, h.evb, h.tier, h.agents, h.nodes, h.programs, h.intern, h.prk, h.ldg⟩

/-- The invariant reads neither the queue nor the clock. -/
theorem State.Sound.requeue {s : State} (h : s.Sound) (q : List Instr) (n : Nat) : ({ s with pending := q, now := n } : State).Sound :=
  ⟨h.regs, h.mem.requeue q n, h.host, h.queues, h.ring, h.locked⟩

theorem State.MemCanonical.keeps {s t : State} (hs : s.MemCanonical) (h : MemKeeps s.mem t.mem) : t.MemCanonical where
  med := h.med hs.med
  llc := h.llc hs.llc
  evb := h.evb hs.evb
  tier := h.tier hs.tier
  agents := h.agents hs.agents
  nodes := h.nodes hs.nodes
  programs := h.programs hs.programs
  intern := h.intern hs.intern
  prk := h.prk hs.prk
  ldg := h.ldg hs.ldg

theorem State.Sound.keeps {s t : State} (hs : s.Sound) (h : s.Keeps t) : t.Sound where
  regs := h.regs hs.regs
  mem := hs.mem.keeps h.mem
  host := ⟨h.host.conns hs.host.left, h.host.ops hs.host.right⟩
  queues := h.kept.queues hs.queues
  ring := h.kept.ring hs.ring
  locked := h.kept.locked hs.locked

/-- Settles O5. -/
theorem soundnessIsKeptByEveryStep : Obligations.SoundnessIsKeptByEveryStep := by
  intro s t hs h
  obtain ⟨q, n, hk⟩ := step_keeps h
  exact (hs.requeue q n).keeps hk

/-- Settles O6. -/
theorem memoryTablesStayCanonical : Obligations.MemoryTablesStayCanonical := by
  intro s t h
  obtain ⟨_, _, hk⟩ := step_keeps h
  exact ⟨hk.mem.med, hk.mem.llc, hk.mem.evb, hk.mem.tier, hk.mem.intern, hk.mem.nodes, hk.mem.prk, hk.mem.ldg, hk.regs⟩

/-- Settles O7. -/
theorem islandQueuesHoldAtMostSixteen : Obligations.IslandQueuesHoldAtMostSixteen := by
  intro s t hs h
  obtain ⟨_, _, hk⟩ := step_keeps h
  exact hk.kept.queues hs

/-- Settles O8. -/
theorem journalRingHoldsAtMost8192 : Obligations.JournalRingHoldsAtMost8192 := by
  intro s t h
  obtain ⟨_, _, hk⟩ := step_keeps h
  exact ⟨hk.kept.ring, hk.kept.seq⟩

/-- Settles O9. -/
theorem factoryStateEndsForGood : Obligations.FactoryStateEndsForGood := by
  intro s t h hf
  obtain ⟨_, _, hk⟩ := step_keeps h
  exact ⟨hk.kept.factory hf, hk.kept.admin⟩

/-- Settles O11. -/
theorem securityVersionFloorNeverFalls : Obligations.SecurityVersionFloorNeverFalls := by
  intro s t h
  obtain ⟨_, _, hk⟩ := step_keeps h
  exact ⟨hk.svn, hk.host.gen, hk.free⟩

/-- Settles O12. -/
theorem commandsTakeNoTimeAndLeaveTheQueue : Obligations.CommandsTakeNoTimeAndLeaveTheQueue := by
  intro c s t h
  have hk := exec_keeps c s t h
  exact ⟨hk.pending, hk.now⟩

/-- Settles O1. -/
theorem stepRunsTheFrontCommand : Obligations.StepRunsTheFrontCommand := fun _ _ => rfl

end Sys2Proof.Machine
end

section
/-!
PROOF. What every command leaves alone: the parts of the state outside its list, and from that the locks (R450).
-/
namespace Sys2Proof.Machine
set_option Elab.async false

/-- The set of the parts in a list. -/
def Area.setOf (l : List Area) : Nat := l.foldr (fun p n => 2 ^ p.bit ||| n) 0

theorem Area.bit_injective {a b : Area} (h : a.bit = b.bit) : a = b := by
  cases a <;> cases b <;> simp [Area.bit] at h ⊢

/-- A part outside the list is outside its set. -/
theorem Area.setOf_testBit {l : List Area} {a : Area} (h : a ∉ l) : (Area.setOf l).testBit a.bit = false := by
  induction l with
  | nil => exact Nat.zero_testBit _
  | cons p l ih =>
    have hp : p.bit ≠ a.bit := fun e => h (Area.bit_injective e ▸ List.mem_cons_self)
    have hl : (Area.setOf l).testBit a.bit = false := ih fun m => h (List.mem_cons_of_mem _ m)
    show (2 ^ p.bit ||| Area.setOf l).testBit a.bit = false
    simp [Nat.testBit_or, hp, hl]

/-- A command changes parts of its list alone. -/
theorem exec_frame (c : Instr) (s : State) : State.Frame.Ans (Area.setOf (Instr.mayChange c)) s (exec c s) := by
  have h {w : Nat} : State.Frame w s s := .refl w s
  cases c with dsimp only [Instr.mayChange]
  | frameReceive port f => exact execFrameReceive_frame _ _ _ rfl h
  | pfcReceive port classes pause => exact execPfcReceive_frame _ _ _ _ rfl h
  | pfcPauseExpire port cls => exact execPfcPauseExpire_frame _ _ _ rfl h
  | pfcXoffRepeat port cls => exact execPfcXoffRepeat_frame _ _ _ rfl h
  | frameTransmit port => exact execFrameTransmit_frame _ _ rfl h
  | trainTimeout port => exact execTrainTimeout_frame _ _ rfl h
  | portLinkUp port => exact execPortLinkUp_frame _ _ rfl h
  | portDown port lanes => exact execPortDown_frame _ _ _ rfl h
  | ethPortCfgWrite path port value => exact execEthPortCfgWrite_frame _ _ _ _ rfl h
  | portAdminDown port => exact execPortAdminDown_frame _ _ rfl h
  | openRx engine => exact execOpenRx_frame _ _ rfl h
  | openTimeout conn => exact execOpenTimeout_frame _ _ rfl h
  | dataFrame engine => exact execDataFrame_frame _ _ rfl h
  | ackFrame engine => exact execAckFrame_frame _ _ rfl h
  | close engine => exact execClose_frame _ _ rfl h
  | closeAckSend conn => exact execCloseAckSend_frame _ _ rfl h
  | closeLingerExpire conn => exact execCloseLingerExpire_frame _ _ rfl h
  | resetReceive engine => exact execResetReceive_frame _ _ rfl h
  | idleTimeout conn => exact execIdleTimeout_frame _ _ rfl h
  | ackDelayExpire conn => exact execAckDelayExpire_frame _ _ rfl h
  | coalWaitExpire conn => exact execCoalWaitExpire_frame _ _ rfl h
  | stitchComplete op => exact execStitchComplete_frame _ _ rfl h
  | noticeRtoExpire conn => exact execNoticeRtoExpire_frame _ _ rfl h
  | shtConnCtlReset path value => exact execShtConnCtlReset_frame _ _ _ rfl h
  | read op => exact execRead_frame _ _ rfl h
  | write op => exact execWrite_frame _ _ rfl h
  | writeWaitTimeout op => exact execWriteWaitTimeout_frame _ _ rfl h
  | flush op => exact execFlush_frame _ _ rfl h
  | fetchAdd op => exact execFetchAdd_frame _ _ rfl h
  | swap op => exact execSwap_frame _ _ rfl h
  | cmpSwap op => exact execCmpSwap_frame _ _ rfl h
  | fetchAnd op => exact execFetchAnd_frame _ _ rfl h
  | fetchOr op => exact execFetchOr_frame _ _ rfl h
  | fetchXor op => exact execFetchXor_frame _ _ rfl h
  | fetchMinS op => exact execFetchMinS_frame _ _ rfl h
  | fetchMaxS op => exact execFetchMaxS_frame _ _ rfl h
  | fetchMinU op => exact execFetchMinU_frame _ _ rfl h
  | fetchMaxU op => exact execFetchMaxU_frame _ _ rfl h
  | copy op => exact execCopy_frame _ _ rfl h
  | fill op => exact execFill_frame _ _ rfl h
  | regRead op => exact execRegRead_frame _ _ rfl h
  | regWrite op => exact execRegWrite_frame _ _ rfl h
  | ctr op => exact execCtr_frame _ _ rfl h
  | mbx op => exact execMbx_frame _ _ rfl h
  | filetSubmitScore op => exact execFiletSubmitScore_frame _ _ rfl h
  | filetSubmitTopk op => exact execFiletSubmitTopk_frame _ _ rfl h
  | filetSubmitThreshold op => exact execFiletSubmitThreshold_frame _ _ rfl h
  | filetResultRead op => exact execFiletResultRead_frame _ _ rfl h
  | filetResultStatus op => exact execFiletResultStatus_frame _ _ rfl h
  | filetResultRelease op => exact execFiletResultRelease_frame _ _ rfl h
  | filetResultCancel op => exact execFiletResultCancel_frame _ _ rfl h
  | regionCreate m => exact execRegionCreate_frame _ _ rfl h
  | regionDelete m => exact execRegionDelete_frame _ _ rfl h
  | regionList m => exact execRegionList_frame _ _ rfl h
  | grantSet m => exact execGrantSet_frame _ _ rfl h
  | grantDelete m => exact execGrantDelete_frame _ _ rfl h
  | grantList m => exact execGrantList_frame _ _ rfl h
  | senseComplete p f cells epochCells => exact execSenseComplete_frame _ _ _ _ _ rfl h
  | rowOpenTimeout p f => exact execRowOpenTimeout_frame _ _ _ rfl h
  | programComplete p f outside pulses => exact execProgramComplete_frame _ _ _ _ _ rfl h
  | epochPeriodEnd => exact execEpochPeriodEnd_frame _ rfl h
  | epochRecheck => exact execEpochRecheck_frame _ rfl h
  | witnessProgramDone => exact execWitnessProgramDone_frame _ rfl h
  | ladderRefit sweeps => exact execLadderRefit_frame _ _ rfl h
  | bandUpdate => exact execBandUpdate_frame _ rfl h
  | flitCrcFail stack same => exact execFlitCrcFail_frame _ _ _ rfl h
  | stackLinkRetrain stack ok => exact execStackLinkRetrain_frame _ _ _ rfl h
  | basRead path stack => exact execBasRead_frame _ _ _ rfl h
  | lineEvict line => exact execLineEvict_frame _ _ rfl h
  | mappingFillDone lsw => exact execMappingFillDone_frame _ _ rfl h
  | heatHalve => exact execHeatHalve_frame _ rfl h
  | levelPeriod => exact execLevelPeriod_frame _ rfl h
  | moveCopyDone slot bad recopied => exact execMoveCopyDone_frame _ _ _ _ rfl h
  | moveFinish slot => exact execMoveFinish_frame _ _ rfl h
  | moveTimeout slot copied => exact execMoveTimeout_frame _ _ _ rfl h
  | tableCheckpoint => exact execTableCheckpoint_frame _ rfl h
  | govDayStart => exact execGovDayStart_frame _ rfl h
  | govTokenTick => exact execGovTokenTick_frame _ rfl h
  | slowGraceExpire conn => exact execSlowGraceExpire_frame _ _ rfl h
  | creditCutRepeat conn => exact execCreditCutRepeat_frame _ _ rfl h
  | govRelease => exact execGovRelease_frame _ rfl h
  | hintSet m => exact execHintSet_frame _ _ rfl h
  | hintGet m => exact execHintGet_frame _ _ rfl h
  | wearStatus m => exact execWearStatus_frame _ _ rfl h
  | tierStatus m => exact execTierStatus_frame _ _ rfl h
  | swatchRetire m => exact execSwatchRetire_frame _ _ rfl h
  | passDone port codes ok => exact execPassDone_frame _ _ _ _ rfl h
  | audit tile codes => exact execAudit_frame _ _ _ rfl h
  | tileProgramDone tile ok => exact execTileProgramDone_frame _ _ _ rfl h
  | jobComplete job => exact execJobComplete_frame _ _ rfl h
  | resultHoldExpire job => exact execResultHoldExpire_frame _ _ rfl h
  | matrixLoad m => exact execMatrixLoad_frame _ _ rfl h
  | matrixUnload m => exact execMatrixUnload_frame _ _ rfl h
  | matrixRefresh m => exact execMatrixRefresh_frame _ _ rfl h
  | matrixStatus m => exact execMatrixStatus_frame _ _ rfl h
  | matrixList m => exact execMatrixList_frame _ _ rfl h
  | filetStatus m => exact execFiletStatus_frame _ _ rfl h
  | tileReturn m => exact execTileReturn_frame _ _ rfl h
  | heartbeat link f => exact execHeartbeat_frame _ _ _ rfl h
  | forward link f => exact execForward_frame _ _ _ rfl h
  | complete link f => exact execComplete_frame _ _ _ rfl h
  | routeAck link f => exact execRouteAck_frame _ _ _ rfl h
  | discover link f => exact execDiscover_frame _ _ _ rfl h
  | announce link f a => exact execAnnounce_frame _ _ _ _ rfl h
  | control link f c => exact execControl_frame _ _ _ _ rfl h
  | resync link f r => exact execResync_frame _ _ _ _ rfl h
  | heartbeatSend link => exact execHeartbeatSend_frame _ _ rfl h
  | heartbeatTimeout link => exact execHeartbeatTimeout_frame _ _ rfl h
  | laceLinkLoss link => exact execLaceLinkLoss_frame _ _ rfl h
  | laceLinkTrained link => exact execLaceLinkTrained_frame _ _ rfl h
  | probationEnd link => exact execProbationEnd_frame _ _ rfl h
  | discoverWaitExpire => exact execDiscoverWaitExpire_frame _ rfl h
  | handoverGraceExpire => exact execHandoverGraceExpire_frame _ rfl h
  | scheduleRun id => exact execScheduleRun_frame _ _ rfl h
  | lceCfgWrite path value => exact execLceCfgWrite_frame _ _ _ rfl h
  | hoopStatus m => exact execHoopStatus_frame _ _ rfl h
  | memberList m => exact execMemberList_frame _ _ rfl h
  | panelMap m => exact execPanelMap_frame _ _ rfl h
  | hoopForm m => exact execHoopForm_frame _ _ rfl h
  | memberAdmit m => exact execMemberAdmit_frame _ _ rfl h
  | memberRemove m => exact execMemberRemove_frame _ _ rfl h
  | panelRelease m => exact execPanelRelease_frame _ _ rfl h
  | handover m => exact execHandover_frame _ _ rfl h
  | schedule m => exact execSchedule_frame _ _ rfl h
  | scheduleCancel m => exact execScheduleCancel_frame _ _ rfl h
  | scheduleStatus m => exact execScheduleStatus_frame _ _ rfl h
  | scrubPassStart => exact execScrubPassStart_frame _ rfl h
  | scrubPace => exact execScrubPace_frame _ rfl h
  | scrubVisit => exact execScrubVisit_frame _ rfl h
  | dramPatrol corrected bad => exact execDramPatrol_frame _ _ _ rfl h
  | dieFail path value => exact execDieFail_frame _ _ _ rfl h
  | dieReturn path value => exact execDieReturn_frame _ _ _ rfl h
  | dieCheckDone d check => exact execDieCheckDone_frame _ _ _ rfl h
  | resilverSwatch bad => exact execResilverSwatch_frame _ _ rfl h
  | dramAccessDone t codeword out => exact execDramAccessDone_frame _ _ _ _ rfl h
  | channelProbeDone group failed => exact execChannelProbeDone_frame _ _ _ rfl h
  | channelErase path value => exact execChannelErase_frame _ _ _ rfl h
  | channelReturn path value => exact execChannelReturn_frame _ _ _ rfl h
  | refillDone => exact execRefillDone_frame _ rfl h
  | dramPause group retrained failed => exact execDramPause_frame _ _ _ _ rfl h
  | idleFillDone => exact execIdleFillDone_frame _ rfl h
  | llcCfgWrite path value => exact execLlcCfgWrite_frame _ _ _ rfl h
  | wayCleanDone slice w => exact execWayCleanDone_frame _ _ _ rfl h
  | wayJoinDone slice w => exact execWayJoinDone_frame _ _ _ rfl h
  | wayLock path value => exact execWayLock_frame _ _ _ rfl h
  | wayUnlock path value => exact execWayUnlock_frame _ _ _ rfl h
  | wayReturn path value => exact execWayReturn_frame _ _ _ rfl h
  | wayDisable path value => exact execWayDisable_frame _ _ _ rfl h
  | wayTestDone slice w ok => exact execWayTestDone_frame _ _ _ _ rfl h
  | rdShared agent line => exact execRdShared_frame _ _ _ rfl h
  | rdOwn agent line => exact execRdOwn_frame _ _ _ rfl h
  | ownNodata agent line => exact execOwnNodata_frame _ _ _ rfl h
  | upgrade agent line => exact execUpgrade_frame _ _ _ rfl h
  | wb agent line data => exact execWb_frame _ _ _ _ rfl h
  | evictClean agent line => exact execEvictClean_frame _ _ _ rfl h
  | wr agent line mask data => exact execWr_frame _ _ _ _ _ rfl h
  | atom agent line f off len operand cmp => exact execAtom_frame _ _ _ _ _ _ _ _ rfl h
  | whint agent line mask data target => exact execWhint_frame _ _ _ _ _ _ rfl h
  | snpShare agent line wrote => exact execSnpShare_frame _ _ _ _ rfl h
  | snpOwn agent line wrote => exact execSnpOwn_frame _ _ _ _ rfl h
  | snpInv agent line wrote => exact execSnpInv_frame _ _ _ _ rfl h
  | fwdData agent line => exact execFwdData_frame _ _ _ rfl h
  | grant agent line => exact execGrant_frame _ _ _ rfl h
  | ack agent line => exact execAck_frame _ _ _ rfl h
  | evicting agent line => exact execEvicting_frame _ _ _ rfl h
  | push agent line => exact execPush_frame _ _ _ rfl h
  | snoopTimeout agent line => exact execSnoopTimeout_frame _ _ _ rfl h
  | salvageWalkDone => exact execSalvageWalkDone_frame _ rfl h
  | domainUp => exact execDomainUp_frame _ rfl h
  | clean path value => exact execClean_frame _ _ _ rfl h
  | cleanInv path value => exact execCleanInv_frame _ _ _ rfl h
  | discard path value => exact execDiscard_frame _ _ _ rfl h
  | lockFill path value => exact execLockFill_frame _ _ _ rfl h
  | maintDone => exact execMaintDone_frame _ rfl h
  | packetStart core value => exact execPacketStart_frame _ _ _ rfl h
  | pushData core value => exact execPushData_frame _ _ _ rfl h
  | pop core out => exact execPop_frame _ _ _ rfl h
  | drop core value => exact execDrop_frame _ _ _ rfl h
  | bobbinReset path value => exact execBobbinReset_frame _ _ _ rfl h
  | bobbinResetDone bob => exact execBobbinResetDone_frame _ _ rfl h
  | staleTailExpire bob => exact execStaleTailExpire_frame _ _ rfl h
  | bobModeWrite path value => exact execBobModeWrite_frame _ _ _ rfl h
  | keyLoad m => exact execKeyLoad_frame _ _ rfl h
  | keyErase m => exact execKeyErase_frame _ _ rfl h
  | keyStatus m => exact execKeyStatus_frame _ _ rfl h
  | keyRotate m => exact execKeyRotate_frame _ _ rfl h
  | keyUnlock m => exact execKeyUnlock_frame _ _ rfl h
  | macsecSaInstall m => exact execMacsecSaInstall_frame _ _ rfl h
  | macsecSaDelete m => exact execMacsecSaDelete_frame _ _ rfl h
  | macsecTxActivate m => exact execMacsecTxActivate_frame _ _ rfl h
  | macsecSaStatus m => exact execMacsecSaStatus_frame _ _ rfl h
  | jtagUnlock m => exact execJtagUnlock_frame _ _ rfl h
  | jtagLock m => exact execJtagLock_frame _ _ rfl h
  | jtagNonceRead => exact execJtagNonceRead_frame _ rfl h
  | jtagUnlockSig scope key sig => exact execJtagUnlockSig_frame _ _ _ _ rfl h
  | jtagCloseExpire => exact execJtagCloseExpire_frame _ rfl h
  | dmaRefused master addr => exact execDmaRefused_frame _ _ _ rfl h
  | rekeyNode => exact execRekeyNode_frame _ rfl h
  | selvedgeCheckpoint => exact execSelvedgeCheckpoint_frame _ rfl h
  | noticeGapEnd conn code keyId => exact execNoticeGapEnd_frame _ _ _ _ rfl h
  | mbxPoll via => exact execMbxPoll_frame _ _ rfl h
  | mbxAbort via => exact execMbxAbort_frame _ _ rfl h
  | mbxEarlyExpire m => exact execMbxEarlyExpire_frame _ _ rfl h
  | mbxTimeout m => exact execMbxTimeout_frame _ _ rfl h
  | mbxCommandDone m => exact execMbxCommandDone_frame _ _ rfl h
  | identity m => exact execIdentity_frame _ _ rfl h
  | deviceStatus m => exact execDeviceStatus_frame _ _ rfl h
  | nonceGet m => exact execNonceGet_frame _ _ rfl h
  | certGet m => exact execCertGet_frame _ _ rfl h
  | provisionLock m => exact execProvisionLock_frame _ _ rfl h
  | adminKeySet m => exact execAdminKeySet_frame _ _ rfl h
  | adminKeyList m => exact execAdminKeyList_frame _ _ rfl h
  | consoleUnlock m => exact execConsoleUnlock_frame _ _ rfl h
  | consoleLock m => exact execConsoleLock_frame _ _ rfl h
  | consoleLine line => exact execConsoleLine_frame _ _ rfl h
  | consoleTimeout => exact execConsoleTimeout_frame _ rfl h
  | sigCloseExpire => exact execSigCloseExpire_frame _ rfl h
  | mbxSel mailbox buffer offset pecOk => exact execMbxSel_frame _ _ _ _ _ rfl h
  | mbxDataWrite bytes pecOk => exact execMbxDataWrite_frame _ _ _ rfl h
  | mbxDataRead n => exact execMbxDataRead_frame _ _ rfl h
  | mbxSubmit pecOk => exact execMbxSubmit_frame _ _ rfl h
  | mbxState => exact execMbxState_frame _ rfl h
  | regAddr off pecOk => exact execRegAddr_frame _ _ _ rfl h
  | regDataWrite value pecOk => exact execRegDataWrite_frame _ _ _ rfl h
  | regDataRead => exact execRegDataRead_frame _ rfl h
  | regStatus => exact execRegStatus_frame _ rfl h
  | alertCause => exact execAlertCause_frame _ rfl h
  | alertResponse => exact execAlertResponse_frame _ rfl h
  | smbusTimeout => exact execSmbusTimeout_frame _ rfl h
  | keepPageWriteDone => exact execKeepPageWriteDone_frame _ rfl h
  | operatingTimeSlot => exact execOperatingTimeSlot_frame _ rfl h
  | registerWrite path off value => exact execRegisterWrite_frame _ _ _ _ rfl h
  | fwpWrite path idx value => exact execFwpWrite_frame _ _ _ _ rfl h
  | pmcValueRead path idx => exact execPmcValueRead_frame _ _ _ rfl h
  | railFault rail => exact execRailFault_frame _ _ rfl h
  | stepWorkDone out => exact execStepWorkDone_frame _ _ rfl h
  | seqAdvance => exact execSeqAdvance_frame _ rfl h
  | stepTimeout => exact execStepTimeout_frame _ rfl h
  | seqRestLeave => exact execSeqRestLeave_frame _ rfl h
  | offTimeEnd => exact execOffTimeEnd_frame _ rfl h
  | railDownNext => exact execRailDownNext_frame _ rfl h
  | pbRelease held => exact execPbRelease_frame _ _ rfl h
  | pbForcedOff => exact execPbForcedOff_frame _ rfl h
  | mrst => exact execMrst_frame _ rfl h
  | holdSave => exact execHoldSave_frame _ rfl h
  | holdRise => exact execHoldRise_frame _ rfl h
  | quiesceGraceExpire => exact execQuiesceGraceExpire_frame _ rfl h
  | autoRestart => exact execAutoRestart_frame _ rfl h
  | vstbyLoss saved => exact execVstbyLoss_frame _ _ rfl h
  | vstbyOn => exact execVstbyOn_frame _ rfl h
  | idleAfterExpire => exact execIdleAfterExpire_frame _ rfl h
  | capControlTick power mean rails => exact execCapControlTick_frame _ _ _ _ rfl h
  | thermalLevelTick => exact execThermalLevelTick_frame _ rfl h
  | thermalModelUpdate model => exact execThermalModelUpdate_frame _ _ rfl h
  | sensorSweep => exact execSensorSweep_frame _ rfl h
  | sweepDone readings => exact execSweepDone_frame _ _ rfl h
  | thmSweepStart path value => exact execThmSweepStart_frame _ _ _ rfl h
  | holdupTestEnd test => exact execHoldupTestEnd_frame _ _ rfl h
  | powerStatus m => exact execPowerStatus_frame _ _ rfl h
  | powerModeSetFull m => exact execPowerModeSetFull_frame _ _ rfl h
  | powerModeSetEconomy m => exact execPowerModeSetEconomy_frame _ _ rfl h
  | powerModeSetIdle m => exact execPowerModeSetIdle_frame _ _ rfl h
  | powerCapSet m => exact execPowerCapSet_frame _ _ rfl h
  | shutdownOrderly m => exact execShutdownOrderly_frame _ _ rfl h
  | shutdownForced m => exact execShutdownForced_frame _ _ rfl h
  | shutdownRestart m => exact execShutdownRestart_frame _ _ rfl h
  | thermalStatus m => exact execThermalStatus_frame _ _ rfl h
  | thermalSweep m => exact execThermalSweep_frame _ _ rfl h
  | throttleSet m => exact execThrottleSet_frame _ _ rfl h
  | holdupStatus m => exact execHoldupStatus_frame _ _ rfl h
  | bootLoad copiesA copiesB alive => exact execBootLoad_frame _ _ _ _ rfl h
  | hkpRestart cause => exact execHkpRestart_frame _ _ rfl h
  | liveSwapBusyTimeout => exact execLiveSwapBusyTimeout_frame _ rfl h
  | bootOkTimeout => exact execBootOkTimeout_frame _ rfl h
  | confirmTimeout => exact execConfirmTimeout_frame _ rfl h
  | fwStatus m => exact execFwStatus_frame _ _ rfl h
  | fwDownload m => exact execFwDownload_frame _ _ rfl h
  | fwVerify m => exact execFwVerify_frame _ _ rfl h
  | fwActivateLive m => exact execFwActivateLive_frame _ _ rfl h
  | fwActivateRestart m => exact execFwActivateRestart_frame _ _ rfl h
  | fwActivateNextStart m => exact execFwActivateNextStart_frame _ _ rfl h
  | fwConfirm m => exact execFwConfirm_frame _ _ rfl h
  | fwDiscard m => exact execFwDiscard_frame _ _ rfl h
  | selftestReport m => exact execSelftestReport_frame _ _ rfl h
  | retest m t test => exact execRetest_frame _ _ _ _ rfl h
  | diagRun m => exact execDiagRun_frame _ _ rfl h
  | diagDone ok detail => exact execDiagDone_frame _ _ _ rfl h
  | diagResult m => exact execDiagResult_frame _ _ rfl h
  | keepStatus m => exact execKeepStatus_frame _ _ rfl h
  | keepWearList m => exact execKeepWearList_frame _ _ rfl h
  | samplerOccurrence island => exact execSamplerOccurrence_frame _ _ rfl h
  | samplerGapExpire slot => exact execSamplerGapExpire_frame _ _ rfl h
  | samplerRead m => exact execSamplerRead_frame _ _ rfl h
  | samplerClear m => exact execSamplerClear_frame _ _ rfl h
  | journalRead m => exact execJournalRead_frame _ _ rfl h
  | journalArchive m => exact execJournalArchive_frame _ _ rfl h
  | counterRead m => exact execCounterRead_frame _ _ rfl h
  | samplingSet m => exact execSamplingSet_frame _ _ rfl h
  | stackLinkTrainingLoss stack => exact execStackLinkTrainingLoss_frame _ _ rfl h
  | routeAckSend dev => exact execRouteAckSend_frame _ _ rfl h
  | resyncSend panel => exact execResyncSend_frame _ _ rfl h
  | refreshAge matrix group => exact execRefreshAge_frame _ _ _ rfl h

/-- Settles O15. -/
theorem everyCommandKeepsItsFrame : Obligations.EveryCommandKeepsItsFrame := by
  intro c s t a h ha
  exact (exec_frame c s t h).part a (Area.setOf_testBit ha)

theorem factory_mem_mayChange {c : Instr} (h : Area.factory ∈ Instr.mayChange c) : ∃ m, c = .provisionLock m := by
  cases c
  case provisionLock m => exact ⟨m, rfl⟩
  all_goals
    dsimp only [Instr.mayChange] at h
    exact absurd h (by decide)

theorem adminKeys_mem_mayChange {c : Instr} (h : Area.adminKeys ∈ Instr.mayChange c) : ∃ m, c = .adminKeySet m := by
  cases c
  case adminKeySet m => exact ⟨m, rfl⟩
  all_goals
    dsimp only [Instr.mayChange] at h
    exact absurd h (by decide)

/-- Settles O10: the factory state and the admin keys are parts that one command each may change. -/
theorem onlyTwoCommandsChangeTheLocks : Obligations.OnlyTwoCommandsChangeTheLocks := by
  intro c s t h
  constructor
  · intro hc
    have hf : Area.factory ∉ Instr.mayChange c := fun hm => (factory_mem_mayChange hm).elim hc
    exact everyCommandKeepsItsFrame c s t .factory h hf
  · intro hc
    have ha : Area.adminKeys ∉ Instr.mayChange c := fun hm => (adminKeys_mem_mayChange hm).elim hc
    exact everyCommandKeepsItsFrame c s t .adminKeys h ha

end Sys2Proof.Machine
end

section
/-!
PROOF. The empty queue and the state after reset: a microsecond passes with its clock and device time, and changes nothing but registers,
occurrences and line data; nothing waits after reset.
-/
namespace Sys2Proof.Machine
set_option Elab.async false

/-- What a microsecond of a running device may change besides the clock and device time: registers, occurrences and the memory side, of
which neither the tables nor the keys. -/
abbrev passTimeAreas : Nat := Area.setOf [.regs, .events, .kept, .data, .mem]

theorem State.passTime_stopped {s : State} (h : s.ticking = false) : s.passTime = { s with now := s.now + us 1 } := by
  have h' : ({ s with now := s.now + us 1 } : State).ticking = false := h
  simp only [State.passTime, h', Bool.not_false, if_true]

theorem State.passTime_ticking {s : State} (h : s.ticking = true) :
    State.Frame passTimeAreas ({ s with now := s.now + us 1, tick := s.tick + 1 } : State) s.passTime := by
  have h' : ({ s with now := s.now + us 1 } : State).ticking = true := h
  simp only [State.passTime, h', Bool.not_true, Bool.false_eq_true, if_false]
  have hhoop := State.hoopTick_frame (w0 := passTimeAreas) _ rfl
    (State.Frame.refl _ ({ s with now := s.now + us 1, tick := s.tick + 1 } : State))
  have hwork := State.Frame.kIte
    (c := (({ s with now := s.now + us 1, tick := s.tick + 1 } : State).hoopTick).inService = true)
    (State.treeTick_frame _ rfl (State.dramTick_frame _ rfl (State.copyTick_frame _ rfl hhoop)))
    (State.dramTick_frame _ rfl hhoop)
  exact .kIte (State.opSecond_frame _ rfl hwork) hwork

/-- A microsecond advances the clock, and device time where it runs; of the rest it changes `passTimeAreas` at most. -/
theorem State.passTime_frame (s : State) : State.Frame passTimeAreas
    ({ s with now := s.now + us 1, tick := s.tick + (if s.ticking then 1 else 0) } : State) s.passTime := by
  cases h : s.ticking with
  | false => rw [State.passTime_stopped h]; exact .refl _ _
  | true => exact State.passTime_ticking h

/-- Settles O2. -/
theorem emptyQueuePassesOneMicrosecond : Obligations.EmptyQueuePassesOneMicrosecond := by
  intro s hs
  have hk := s.passTime_keeps
  have hf := s.passTime_frame
  have hjournal := hf.part .journal rfl
  have htables := hf.part .tables rfl
  refine ⟨s.passTime, ?_, hk.now, hf.part .tick rfl, hk.pending.trans hs, hf.part .host rfl, hf.part .mbx rfl, hf.part .filet rfl,
    hf.part .bob rfl, hf.part .pwr rfl, hf.part .power rfl, hf.part .boot rfl, hf.part .lace rfl, hf.part .timers rfl, hjournal.left,
    htables.left, htables.right.left, htables.right.right, hf.part .keys rfl, ?_⟩
  · simp only [step, hs, State.idleStep]
  · intro hstop
    have hstop' : s.passTime.ticking = false := by rw [State.passTime_stopped hstop]; exact hstop
    rw [State.strike, if_neg (by simp [hstop']), State.passTime_stopped hstop]
    rfl

/-- Settles O3. -/
theorem resetIsStandbyInFactoryState : Obligations.ResetIsStandbyInFactoryState := by
  unfold Obligations.ResetIsStandbyInFactoryState
  decide

/-- Settles O4. -/
theorem resetStateIsSound : Obligations.ResetStateIsSound where
  regs := rfl
  mem := ⟨rfl, rfl, rfl, rfl, rfl, rfl, rfl, rfl, rfl, rfl⟩
  host := ⟨rfl, rfl⟩
  queues := fun _ => Nat.zero_le _
  ring := Nat.zero_le _
  locked := nofun

end Sys2Proof.Machine
end

section
/-!
PROOF. How every command ends: in a next state where it names units the device has, with noSuchUnit where it does not.
-/
namespace Sys2Proof.Machine
set_option Elab.async false

/-- A result that is a next state if `ok`, and else stops with noSuchUnit. -/
def Ends (ok : Bool) (a : Result) : Prop := if ok then ∃ t, a = .next t else a = .fault .noSuchUnit

theorem ends_next (t : State) : Ends true (.next t) := ⟨t, rfl⟩

theorem ends_within (ok : Bool) (t : State) : Ends ok (within ok t) := by
  cases ok with
  | true => exact ⟨t, rfl⟩
  | false => exact rfl

theorem State.ends_command (s : State) (m : Nat) (c : Command) : Ends (decide (m < 16)) (s.command m c) := by
  unfold State.command
  exact ends_within _ _

theorem State.ends_choice (s : State) (m k : Nat) (c : Command) : Ends (decide (m < 16)) (s.choice m k c) := by
  cases h : decide (m < 16) with
  | true => exact s.choice_safe m k c h
  | false => exact s.choice_stops m k c h

/-- Every command ends by the units it names. -/
theorem exec_ends (c : Instr) (s : State) : Ends c.wf (exec c s) := by
  cases c with
  | stitchComplete | read | write | writeWaitTimeout | flush | fetchAdd | swap | cmpSwap | fetchAnd | fetchOr | fetchXor | fetchMinS
  | fetchMaxS | fetchMinU | fetchMaxU | copy | fill | regRead | regWrite | ctr | mbx | filetSubmitScore | filetSubmitTopk
  | filetSubmitThreshold | filetResultRead | filetResultStatus | filetResultRelease | filetResultCancel | epochPeriodEnd
  | epochRecheck | witnessProgramDone | ladderRefit | bandUpdate | heatHalve | levelPeriod | tableCheckpoint | govDayStart
  | govTokenTick | govRelease | jobComplete | resultHoldExpire | discoverWaitExpire | handoverGraceExpire | scheduleRun | lceCfgWrite
  | scrubPassStart | scrubPace | scrubVisit | dramPatrol | resilverSwatch | dramAccessDone | refillDone | idleFillDone | llcCfgWrite
  | salvageWalkDone | domainUp | maintDone | bobModeWrite | jtagCloseExpire | rekeyNode | selvedgeCheckpoint | mbxPoll | mbxAbort
  | consoleLine | consoleTimeout | sigCloseExpire | mbxSel | mbxDataWrite | mbxDataRead | mbxSubmit | mbxState | regAddr
  | regDataWrite | regDataRead | regStatus | alertCause | alertResponse | smbusTimeout | keepPageWriteDone | operatingTimeSlot
  | registerWrite | stepWorkDone | seqAdvance | stepTimeout | seqRestLeave | offTimeEnd | railDownNext | pbRelease | pbForcedOff
  | mrst | holdSave | holdRise | quiesceGraceExpire | autoRestart | vstbyLoss | vstbyOn | idleAfterExpire | capControlTick
  | thermalLevelTick | thermalModelUpdate | sensorSweep | sweepDone | holdupTestEnd | bootLoad | hkpRestart | liveSwapBusyTimeout
  | bootOkTimeout | confirmTimeout | diagDone | resyncSend | refreshAge | shtConnCtlReset | dieFail | dieReturn | channelErase
  | channelReturn | wayLock | wayUnlock | wayReturn | wayDisable | clean | cleanInv | discard | lockFill | bobbinReset | thmSweepStart
  | jtagNonceRead =>
    exact ends_next _
  | frameReceive | pfcReceive | pfcPauseExpire | pfcXoffRepeat | frameTransmit | trainTimeout | portLinkUp | portDown
  | ethPortCfgWrite | portAdminDown | openRx | openTimeout | dataFrame | ackFrame | close | closeAckSend | closeLingerExpire
  | resetReceive | idleTimeout | ackDelayExpire | coalWaitExpire | noticeRtoExpire | senseComplete | rowOpenTimeout | programComplete
  | flitCrcFail | stackLinkRetrain | basRead | lineEvict | mappingFillDone | moveCopyDone | moveFinish | moveTimeout | slowGraceExpire
  | creditCutRepeat | passDone | audit | tileProgramDone | heartbeat | forward | complete | routeAck | discover | announce | control
  | resync | heartbeatSend | heartbeatTimeout | laceLinkLoss | laceLinkTrained | probationEnd | dieCheckDone | channelProbeDone
  | dramPause | wayCleanDone | wayJoinDone | wayTestDone | wb | evictClean | snpShare | snpOwn | snpInv | fwdData | grant | ack
  | evicting | push | snoopTimeout | packetStart | pushData | pop | drop | bobbinResetDone | staleTailExpire | jtagUnlockSig
  | dmaRefused | noticeGapEnd | mbxEarlyExpire | mbxTimeout | mbxCommandDone | fwpWrite | pmcValueRead | railFault | samplerOccurrence
  | samplerGapExpire | stackLinkTrainingLoss | routeAckSend | rdShared | rdOwn | ownNodata | upgrade | wr | atom | whint =>
    exact ends_within _ _
  | regionCreate | regionDelete | regionList | grantSet | grantDelete | grantList | hintSet | hintGet | wearStatus | tierStatus
  | swatchRetire | matrixLoad | matrixUnload | matrixRefresh | matrixStatus | matrixList | filetStatus | tileReturn | hoopStatus
  | memberList | panelMap | hoopForm | memberAdmit | memberRemove | panelRelease | handover | schedule | scheduleCancel
  | scheduleStatus | keyLoad | keyErase | keyStatus | keyRotate | keyUnlock | macsecSaInstall | macsecSaDelete | macsecTxActivate
  | macsecSaStatus | jtagUnlock | jtagLock | identity | deviceStatus | nonceGet | certGet | provisionLock | adminKeySet | adminKeyList
  | consoleUnlock | consoleLock | powerStatus | powerCapSet | thermalStatus | thermalSweep | throttleSet | holdupStatus | fwStatus
  | fwDownload | fwVerify | fwConfirm | fwDiscard | selftestReport | retest | diagRun | diagResult | keepStatus | keepWearList
  | samplerRead | samplerClear | journalRead | journalArchive | counterRead | samplingSet =>
    exact s.ends_command _ _
  | powerModeSetFull | powerModeSetEconomy | powerModeSetIdle | shutdownOrderly | shutdownForced | shutdownRestart | fwActivateLive
  | fwActivateRestart | fwActivateNextStart =>
    exact s.ends_choice _ _ _

/-- Settles O13. -/
theorem wellFormedCommandsAlwaysComplete : Obligations.WellFormedCommandsAlwaysComplete := by
  intro c s h
  have he := exec_ends c s
  rwa [Ends, if_pos h] at he

/-- Settles O14. -/
theorem commandsOnMissingUnitsStop : Obligations.CommandsOnMissingUnitsStop := by
  intro c s h
  have he := exec_ends c s
  rwa [Ends, if_neg (by simp [h])] at he

end Sys2Proof.Machine
end

section
/-!
PROOF. When a row acts: it names units the device has, and its timer is due with nothing in the same microsecond to stop it (R18).
-/
namespace Sys2Proof.Machine
set_option Elab.async false

/-- A row within its units answers the state it computes, whatever name that state has. -/
theorem within_eq {ok : Bool} {t u : State} (h : ok = true) (e : t = u) : within ok t = .next u := by rw [within_next h, e]

theorem next_eq {t u : State} (e : t = u) : (.next t : Result) = .next u := congrArg _ e

@[simp] theorem State.due_iff (s : State) (d : Nat) : s.due d = true ↔ d ≤ s.now := decide_eq_true_iff

theorem State.due_of_le {s : State} {d : Nat} (h : d ≤ s.now) : s.due d = true := (s.due_iff d).mpr h

/-- A timer that nothing in the same microsecond stops fires when it is due (R18). -/
theorem State.fires_of {s : State} {d : Nat} {stops : Instr → Bool} (h : d ≤ s.now) (ho : s.overtaken d stops = false) :
    s.fires d stops = true := by
  rw [State.fires, State.due_of_le h, ho]
  rfl

theorem State.ripe_of {s : State} {k d : Nat} (hk : s.timers.find k = some d) (h : d ≤ s.now) : s.ripe k = true := by
  simp only [State.ripe, hk, State.due_of_le h]

/-- A periodic timer that is due does its work and starts again. -/
theorem State.periodic_of {s : State} {k d ns : Nat} (f : State → State) (hk : s.timers.find k = some d) (h : d ≤ s.now) :
    s.periodic k ns f = (f s).arm k ns := if_pos (State.ripe_of hk h)

end Sys2Proof.Machine
end

section
/-!
PROOF. The ports: frames received and sent, pauses, training, link up and link down.
-/
namespace Sys2Proof.Machine
set_option Elab.async false

/-- A frame on a port that is up is received once its codewords are counted. -/
theorem exec_frameReceive_up {u : State} {p : Nat} (f : EthFrame) (hp : p < 8) (hc : p < u.portCount) (hu : u.portUp p = true) :
    exec (.frameReceive p f) u = .next ((f.fec.foldl (fun t w => t.fecCount p w) u).received p f) :=
  within_eq (decide_eq_true hp) (if_pos (by simp [hc, hu]))

theorem exec_pfcReceive_up {s : State} {p : Nat} (m : BitVec 8) {q : PfcPause} (hp : p < 8) (hq : q.quanta.length = 8)
    (hc : p < s.portCount) (hu : s.portUp p = true) : exec (.pfcReceive p m q) s = .next (s.received p (pfcFrame m q)) :=
  within_eq (by simp [hp, hq]) (if_pos (by simp [hc, hu]))

/-- The packet number is taken where MACsec runs, the frame is no MAC control frame and its MACsec checks passed (R37). -/
theorem State.received_eq (s : State) (p : Nat) (f : EthFrame) : s.received p f =
    (let u := if s.macsec p = true ∧ f.ctrl = none ∧ (s.rxCause p f = 0 ∨ 0x0C < s.rxCause p f) then s.sawPn p f else s
     if s.rxCause p f = 0 then u.rxAccept p f else u.rxDrop p (s.rxCause p f)) := by
  simp [State.received, and_assoc]

/-- Settles O16. -/
theorem portsReceiveFramesAndPauses : Obligations.PortsReceiveFramesAndPauses := by
  refine ⟨?_, ?_, ?_, ?_, ?_, ?_, ?_, ?_, ?_⟩
  · intro u s p f hp hc hu hs h0 hm
    have hpn : ¬(s.macsec p = true ∧ f.ctrl = none ∧ (s.rxCause p f = 0 ∨ 0x0C < s.rxCause p f)) := by
      rintro ⟨hon, hctrl, -⟩
      exact hm.elim (fun h => by simp [h] at hon) (fun h => h hctrl)
    rw [exec_frameReceive_up f hp hc hu, ← hs, State.received_eq, if_pos h0, if_neg hpn]
  · intro u s p f hp hc hu hs h0 hm hctrl
    rw [exec_frameReceive_up f hp hc hu, ← hs, State.received_eq, if_pos h0, if_pos ⟨hm, hctrl, .inl h0⟩]
  · intro u s p f hp hc hu hs h0 hle
    rw [exec_frameReceive_up f hp hc hu, ← hs, State.received_eq, if_neg h0, if_neg (by omega)]
  · intro u s p f hp hc hu hs hlt
    have h0 : s.rxCause p f ≠ 0 := by omega
    rw [exec_frameReceive_up f hp hc hu, ← hs, State.received_eq, if_neg h0]
    simp [hlt]
  · intro s p m q hp hq hc hu h0
    have hctrl : (pfcFrame m q).ctrl ≠ none := nofun
    rw [exec_pfcReceive_up m hp hq hc hu, State.received_eq, if_pos h0, if_neg (by simp [hctrl])]
    rfl
  · intro s p m q hp hq hc hu h0
    have hctrl : (pfcFrame m q).ctrl ≠ none := nofun
    rw [exec_pfcReceive_up m hp hq hc hu, State.received_eq, if_neg h0, if_neg (by simp [hctrl])]
  · intro s p c d hp hc hd hdue ho
    refine within_eq (by simp [hp, hc]) ?_
    simp [hd, State.fires_of hdue ho]
  · intro s p c d b hp hc hd hdue hx
    refine within_eq (by simp [hp, hc]) ?_
    simp [hd, hdue, hx, State.xoffClass]
  · intro s p c d b hp hc hd hdue hx
    refine within_eq (by simp [hp, hc]) ?_
    simp [hd, hdue, hx]

/-- Settles O17. -/
theorem portsTransmitAndChangeLink : Obligations.PortsTransmitAndChangeLink := by
  refine ⟨?_, ?_, ?_, ?_, ?_, ?_, ?_, ?_, ?_, ?_, ?_, ?_⟩
  · intro s p f rest hp hm hf hlen hsec
    refine within_eq (decide_eq_true hp) ?_
    simp only [hm, hf, if_true, Nat.not_lt.mpr hlen, if_false]
    simp [hsec]
  · intro s p i a f rest hp hm hf hlen hsec hsa hcan
    refine within_eq (decide_eq_true hp) ?_
    simp only [hm, hf, if_true, Nat.not_lt.mpr hlen, if_false]
    simp [hsec, hsa, hcan]
  · intro s p f rest hp hm hf hlen hsec hno
    refine within_eq (decide_eq_true hp) ?_
    simp only [hm, hf, if_true, Nat.not_lt.mpr hlen, if_false]
    cases hsa : s.txSa p with
    | none => simp [hsec]
    | some x => simp [hsec, hno x.1 x.2 hsa]
  · intro s p f rest hp hm hf hlen
    refine within_eq (decide_eq_true hp) ?_
    simp only [hm, hf, if_true, hlen]
  · intro s p d a hp ha hd hdue ho hdown
    refine within_eq (decide_eq_true hp) ?_
    simp [ha, hd, State.fires_of hdue ho, hdown]
  · intro s u p hp hc hen hdown hu
    refine within_eq (decide_eq_true hp) ?_
    rw [if_pos (by simp [hc, hen, hdown]), hu]
  · intro s p h4 h6
    simp [State.greet, h4, h6]
  · intro s p h4 h6
    simp [State.greet, h4, h6]
  · intro s p h4 h6
    simp [State.greet, h4, h6]
  · intro s p h4 h6
    simp [State.greet, h4, h6]
  · intro s p l hp hc hup
    have hon : (decide (p < s.portCount) && s.portUp p) = true := by simp only [hc, hup, decide_true, Bool.and_self]
    constructor <;> intro hen <;> refine within_eq (decide_eq_true hp) ?_ <;> simp only [hon, hen, if_true, Bool.false_eq_true, if_false]
  · intro s p hp hc hup hcl
    have hon : (decide (p < s.portCount) && s.portUp p && s.host.closing.contains p) = true := by
      simp only [hc, hup, hcl, decide_true, Bool.and_self]
    constructor <;> intro hen <;> refine within_eq (decide_eq_true hp) ?_ <;> simp only [hon, hen, if_true, Bool.false_eq_true, if_false]

end Sys2Proof.Machine
end

section
/-!
PROOF. The transport: frames that arrive on a connection, in order or not, and the timers of a connection.
-/
namespace Sys2Proof.Machine
set_option Elab.async false

/-- The frame that follows ACK is taken, then the held ones behind it (R75). -/
theorem State.sequenced_next {s : State} {e id : Nat} {c : Conn} {d : Delivered} {h : FrameHdr} (ha : seqAfter h.seq c.ack = true)
    (hd : seqDiff h.seq c.ack = 1) : s.sequenced e id c d h = ((((s.validFrame id c d h).ackWait id).takeFrame id h.seq d.bytes).takeHeld
      id 32).ackNow id (c.held.any (fun x => x.1 == (h.seq + 1) % 2 ^ 32) || h.ackReq) := by
  simp [State.sequenced, ha, hd]

theorem State.sequenced_stale {s : State} {e id : Nat} {c : Conn} {d : Delivered} {h : FrameHdr} (ha : seqAfter h.seq c.ack = false)
    (hd : seqAfter h.seq c.done = false) : s.sequenced e id c d h = (s.sendAck id).shtDrop e 8 id := by
  simp [State.sequenced, ha, hd]

theorem State.sequenced_far {s : State} {e id : Nat} {c : Conn} {d : Delivered} {h : FrameHdr} (ha : seqAfter h.seq c.ack = true)
    (hd : 32 < seqDiff h.seq c.ack) : s.sequenced e id c d h = s.shtDrop e 9 id := by
  simp [State.sequenced, ha, hd]

/-- A DATA frame of a connection is sequenced. -/
theorem State.Arrives.data {s s1 : State} {e : Nat} {d : Delivered} {h : FrameHdr} {c : Conn} {g : Grant} (a : s.Arrives e 0 d s1 h c g) :
    exec (.dataFrame e) s = .next ((s1.sequenced e h.connId c d h).closeDone h.connId) := by
  obtain ⟨u, hfront, hk⟩ := a.acts
  refine within_eq (decide_eq_true a.engine) ?_
  simp [hfront, a.good, a.type, hk]

/-- A frame of another type on a connection does what its row says. -/
theorem State.Arrives.frontOf {s s1 : State} {e n : Nat} {d : Delivered} {h : FrameHdr} {c : Conn} {g : Grant} (a : s.Arrives e n d s1 h c g)
    (k : FrameHdr → Delivered → State → Conn → State) :
    s.frontOf e (· == n) (fun t d h => t.onConn e d h (k h d)) = (k h d s1 c).closeDone h.connId := by
  obtain ⟨u, hfront, hk⟩ := a.acts
  simp [State.frontOf, hfront, a.good, a.type, hk]

/-- A CLOSE of a connection is sequenced. -/
theorem State.Arrives.close {s s1 : State} {e : Nat} {d : Delivered} {h : FrameHdr} {c : Conn} {g : Grant} (a : s.Arrives e 4 d s1 h c g) :
    exec (.close e) s = .next ((s1.sequenced e h.connId c d h).closeDone h.connId) :=
  within_eq (decide_eq_true a.engine) (a.frontOf fun h d t c => t.sequenced e h.connId c d h)

/-- Settles O18. -/
theorem framesOfAConnectionAreTaken : Obligations.FramesOfAConnectionAreTaken := by
  refine ⟨?_, ?_, ?_, ?_, ?_, ?_⟩
  · intro s s1 e d h c g a hafter hdiff
    rw [a.data, State.sequenced_next hafter hdiff]
  · intro s s1 e d h c g a hafter hdiff
    rw [a.close, State.sequenced_next hafter hdiff]
  · intro s s1 e d h c g a
    have hrun : exec (.ackFrame e) s = .next (State.closeDone
        (if h.ackReq then (s1.validFrame h.connId c d h).sendAck h.connId else s1.validFrame h.connId c d h) h.connId) :=
      within_eq (decide_eq_true a.engine) (a.frontOf fun h d t c =>
        if h.ackReq then (t.validFrame h.connId c d h).sendAck h.connId else t.validFrame h.connId c d h)
    exact ⟨fun hreq => by rw [hrun, if_pos hreq], fun hreq => by rw [hrun, if_neg (by simp [hreq])]⟩
  · intro s s1 e d h c g a
    exact within_eq (decide_eq_true a.engine) (a.frontOf fun h _ t _ => (t.freeConn h.connId).count (Reg.shtEvent 12) 1)
  · intro s s1 e d h he hfront hgood htype hnone hok
    refine within_eq (decide_eq_true he) ?_
    simp only [hfront, hgood, htype, hnone, hok, if_true]
  · intro s s1 e id d h c he hfront hgood htype hsome
    refine within_eq (decide_eq_true he) ?_
    simp only [hfront, hgood, htype, hsome, if_true]
    rfl

/-- Settles O19. -/
theorem duplicateStaleAndRefusedFrames : Obligations.DuplicateStaleAndRefusedFrames := by
  refine ⟨?_, ?_, ?_, ?_, ?_⟩
  · intro s s1 e d h c g a hack hdone
    rw [a.data, State.sequenced_stale hack hdone]
  · intro s s1 e d h c g a hack hfar
    rw [a.data, State.sequenced_far hack hfar]
  · intro s s1 e d h c he hfront hgood htype hconn hsource
    refine within_eq (decide_eq_true he) ?_
    simp [hfront, hgood, htype, State.onConn, hconn, hsource]
  · intro s s1 e d h he hfront hgood htype hconn
    refine within_eq (decide_eq_true he) ?_
    simp [hfront, hgood, htype, State.onConn, hconn]
  · intro s s1 e r d h he hfront hgood htype hnone hrefuse
    refine within_eq (decide_eq_true he) ?_
    simp only [hfront, hgood, htype, hnone, hrefuse, if_true]

/-- Settles O20. -/
theorem connectionTimersAct : Obligations.ConnectionTimersAct := by
  refine ⟨?_, ?_, ?_, ?_, ?_, ?_, ?_, ?_, ?_, ?_⟩
  · intro s id c hid hc hst hdue hno
    refine within_eq (decide_eq_true hid) ?_
    simp [hc, hst, hdue, hno]
  · intro s id c hid hc hst hdue
    refine within_eq (decide_eq_true hid) ?_
    simp [hc, hst, hdue]
  · intro s id c hid hc hst hdue hno
    refine within_eq (decide_eq_true hid) ?_
    simp [hc, hst, hdue, hno]
  · intro s id c hid hc hst hack hops hready
    refine within_eq (decide_eq_true hid) ?_
    simp only [hc, hst, hack, hops, hready, State.sendCloseAck]
    rfl
  · intro s id d c hid hc hd hdue
    refine within_eq (decide_eq_true hid) ?_
    simp [hc, hd, hdue]
  · intro s id d c hid hc hd hdue
    refine within_eq (decide_eq_true hid) ?_
    simp [hc, hd, hdue]
  · intro s id c n hid hc hn hretry
    refine within_eq (decide_eq_true hid) ?_
    simp only [hc, hn, Nat.not_le.mpr hretry, if_false]
  · intro s id c n hid hc hn hretry
    refine within_eq (decide_eq_true hid) ?_
    simp only [hc, hn, hretry, if_true]
  · intro s id d c hid hc hd hdue hfirst
    constructor <;> intro habove <;> refine within_eq (decide_eq_true hid) ?_ <;> simp [hc, hd, hdue, hfirst, habove]
  · intro s id d c hid hc hd hdue hlater
    constructor <;> intro habove <;> refine within_eq (decide_eq_true hid) ?_ <;> simp [hc, hd, hdue, hlater, habove]

end Sys2Proof.Machine
end

section
/-!
PROOF. The stitches: how the memory stitches begin and what they leave, how an operation ends, and a clause on MBX stitches that fails.
-/
namespace Sys2Proof.Machine
set_option Elab.async false

/-- A memory stitch that nothing holds back begins, or ends with the first check that fails. -/
theorem State.Ready.memRow {s : State} {op : Nat} {o : Op} (h : s.Ready op o) :
    s.memRow op o.st.opcode o.st.subop = (s.memCheck o).elim (s.beginOp op o) (s.failOp op) := by
  cases hc : s.memCheck o <;> simp [State.memRow, h.found, h.queued, h.begins, hc]

/-- Settles O21: each of the rows is `State.memRow` with its OPCODE and SUBOP. -/
theorem memoryStitchesBegin : Obligations.MemoryStitchesBegin := by
  intro c hc s op o h hop hsub
  have hrow : exec (c.1 op) s = .next (s.memRow op c.2.1 c.2.2) := by
    iterate 14
      obtain _ | ⟨_, hc⟩ := hc
      · rfl
    nomatch hc
  rw [← hop, ← hsub, h.memRow] at hrow
  constructor
  · intro hcheck
    rw [hrow, hcheck]
    rfl
  · intro st hcheck
    rw [hrow, hcheck]
    rfl

/-- The only status with which a write meets poison is POISONED (R112). -/
theorem State.writePoison_eq {s : State} {addr len : Nat} (h : s.writePoison addr len ≠ none) : s.writePoison addr len = some .poisoned := by
  unfold State.writePoison at h ⊢
  split at h
  · next hp => rw [if_pos hp]
  · exact absurd rfl h

/-- Settles O23. -/
theorem memoryStitchResults : Obligations.MemoryStitchResults := by
  refine ⟨?_, ?_, ?_, ?_, ?_, ?_, ?_, ?_, ?_⟩
  · intro s op o hclean
    exact if_neg (by rw [hclean]; exact Bool.false_ne_true)
  · intro s op o hpoison
    exact if_pos hpoison
  · intro s op o b hclean
    simp only [State.doWrite, hclean]
  · intro s op o b hpoison
    simp only [State.doWrite, State.writePoison_eq hpoison]
  · intro s op o hclean
    exact if_neg (by rw [hclean]; exact Bool.false_ne_true)
  · intro s op o hpoison
    exact if_pos hpoison
  · intro s op o v hclean hstore
    simp only [State.doAtomic, hclean, hstore, Bool.false_eq_true, if_false]
  · intro s op o hclean hcmp hdiffer
    have hstore : atomicStore o.st.subop o.st.length (leNat (s.readRange o.st.addr o.st.length)) o.st.payload = none := by
      rw [atomicStore, if_pos hcmp, if_neg hdiffer]
    simp only [State.doAtomic, hclean, hstore, Bool.false_eq_true, if_false]
  · intro s op o hpoison
    exact if_pos hpoison

/-- Settles O26. -/
theorem stitchesComplete : Obligations.StitchesComplete := by
  refine ⟨?_, ?_, ?_, ?_⟩
  · intro s u op i g o r ho hr horigin hu
    refine next_eq ?_
    simp only [ho, hr, horigin, hu]
  · intro s u op d ref o r ho hr horigin hu
    refine next_eq ?_
    simp only [ho, hr, horigin, hu]
  · intro s u op k i o r ho hr horigin hu
    refine next_eq ?_
    simp only [ho, hr, horigin, hu]
  · intro s op due o ho hwait hgate hnot hdue hno
    refine next_eq ?_
    simp [ho, hwait, hgate, hnot, State.fires_of hdue hno]

/-- An MBX stitch to mailbox 14 that carries the whole request of IDENTITY (0x0101), which has no data. -/
def identityAsked : Op where
  origin := .conn 8 1
  mode := .normal
  conn := 8
  cls := 3
  engine := 0
  seq := 11
  idx := 0
  st := { opcode := 9, resp := false, fence := false, more := false, cont := false, subop := 0, length := 8, tag := 0, addr := 14
          payload := [1, 1, 0, 0, 0, 0, 0, 0] }
  grant := { cls := 3, ctr := true, ctrFirst := 0, ctrCount := 512, v6 := false, prefixLen := 8, netPrefix := 0x0A000000, entries := [] }
  regions := []
  phase := .queued
  fails := []
  reexec := false
  started := 0
  gate := none

/-- A device whose firmware serves, and to which that stitch has come. -/
def identityAskedState : State :=
  let s := State.reset.wr Reg.glbStatus 6
  { s with power := .full, host := { s.host with ops := [(1, identityAsked)] } }

/-- What PROGRESS of mailbox `m` is after a step. -/
def progressAfter (m : Nat) : Result → Nat
  | .next t => (t.box m).progress
  | _ => 0

/-- Refutes O25: of a whole request other than REGION_DELETE the mailbox holds PROGRESS 0xFFFF from its first segment on (R441), where the
clause on such a segment has 0. -/
theorem not_stitchesThatAddressADevice : ¬ Obligations.StitchesThatAddressADevice := by
  rintro ⟨-, -, -, -, -, -, -, hsegment, -⟩
  have h := hsegment identityAskedState _ 1 identityAsked _ ⟨⟨rfl, rfl, by decide⟩, rfl, by decide, by decide⟩ (by decide) rfl rfl
    (by decide) (by decide) (by decide) (by decide) (by decide) (by decide) (by decide) (by decide) (by decide) (by decide) (by decide)
  exact absurd (congrArg (progressAfter 14) h) (by decide)

end Sys2Proof.Machine
end

section
/-!
PROOF. Filet compute: the stitches that submit jobs and ask for their results, and the rows of the engine.
-/
namespace Sys2Proof.Machine
set_option Elab.async false

/-- Settles O27. -/
theorem filetStitches : Obligations.FiletStitches := by
  refine ⟨?_, ?_, ?_, ?_, ?_, ?_, ?_, ?_, ?_, ?_, ?_, ?_⟩
  · intro c hc s op mid o x h hop hkind hcheck hx
    have hrow : exec (c.1 op) s = .next (s.submitRow op c.2) := by
      iterate 3
        obtain _ | ⟨_, hc⟩ := hc
        · rfl
      nomatch hc
    rw [hrow]
    simp [State.submitRow, h.found, h.queued, h.begins, hop, hkind, hcheck, hx]
  · intro s op id o j a hended hok
    have hst : ¬ j.st ≤ 1 := by omega
    have hfine : ¬((j.status ≠ .ok && j.status ≠ .okTruncated) = true) := by rcases hok with h | h <;> simp [h]
    refine ⟨fun hspoiled => ?_, fun hspoiled hoff => ?_, fun hspoiled hoff => ?_⟩ <;> refine next_eq ((a.acts _).trans ?_)
    · simp only [hst, hfine, hspoiled, if_true, if_false, Bool.false_eq_true]
    · simp only [hst, hfine, hspoiled, Nat.not_le.mpr hoff, Bool.false_eq_true, if_false]
    · simp only [hst, hfine, hspoiled, hoff, Bool.false_eq_true, if_true, if_false]
  · intro s op id o j a hended hbad htrunc
    refine next_eq ((a.acts _).trans ?_)
    simp [show ¬ j.st ≤ 1 by omega, hbad, htrunc]
  · intro s op id o j a hrun
    refine next_eq ((a.acts _).trans ?_)
    simp only [hrun, if_true]
  · intro s op id o j a
    exact next_eq (a.acts _)
  · intro s op id o
    exact ⟨fun a => next_eq (a.acts _), fun a => next_eq (a.acts _)⟩
  · intro s op id o j a hended
    refine next_eq ((a.acts _).trans ?_)
    simp only [show ¬ j.st ≤ 1 by omega, if_false]
  · intro s u op id o j a hrun hu
    refine next_eq ((a.acts _).trans ?_)
    simp only [hrun, if_true, hu]
  · intro s op id o a
    exact next_eq (a.acts _)
  · intro s op id o j k a hrun hk
    refine next_eq ((a.acts _).trans ?_)
    simp only [show ¬ 2 ≤ j.st by omega, if_false, hk]
  · intro s op id o j a hended
    refine next_eq ((a.acts _).trans ?_)
    simp only [hended, if_true]
  · intro s op id o a
    exact next_eq (a.acts _)

/-- The firmware pauses the end of a tile program unless it replaces a failed tile. -/
theorem tileProgram_runs {s : State} {p : FProg} (h : s.fwPaused = false ∨ p.why = .failed) : (s.fwPaused && p.why != .failed) = false := by
  rcases h with h | h <;> simp [h]

/-- The first column of a list that cannot be read, where those before it can. -/
theorem findSome?_append_of {α β : Type} {f : α → Option β} {p q : List α} {a : α} {b : β} (hp : ∀ k ∈ p, f k = none) (ha : f a = some b) :
    (p ++ a :: q).findSome? f = some b := by
  rw [List.findSome?_append, List.findSome?_eq_none_iff.mpr hp, List.findSome?_cons, ha]
  rfl

/-- Settles O28. -/
theorem filetEngineWorks : Obligations.FiletEngineWorks := by
  refine ⟨?_, ?_, ?_, ?_, ?_, ?_, ?_⟩
  · intro s tile p x q l htile hp hx hpause hl hq
    refine within_eq (decide_eq_true htile) ?_
    rcases hq with hq | ⟨hnone, hres, hshadow, hq⟩
    · simp only [hp, hx, tileProgram_runs hpause, hq, hl, Option.isSome_some, Option.getD_some, Bool.true_or, Bool.not_true,
        Bool.false_eq_true, if_false, if_true]
    · simp only [hp, hx, tileProgram_runs hpause, hnone, hres, hshadow, hq, hl, Option.isSome_none, Option.getD_none, Bool.false_or,
        Bool.not_true, Bool.false_eq_true, if_false]
  · intro s tile p x htile hp hx hpause
    refine within_eq (decide_eq_true htile) ?_
    simp only [hp, hx, tileProgram_runs hpause, Bool.not_false, Bool.false_eq_true, if_false, if_true]
  · intro s port tile codes ids x y j hport hpass htile hg hj
    subst htile
    refine ⟨fun huse hfall => ?_, fun hbad => ?_, ?_⟩ <;> refine within_eq (decide_eq_true hport) ?_
    · simp [hpass, hg, hj, huse, hfall]
    · rcases hbad with h | h <;> simp [hpass, hg, hj, h]
    · simp [hpass, hg, hj]
  · intro s u v w tile codes x y good rows bad a htile ha hg hpause hfresh huse hdue hres hgood hrows hbad hu hv hw
    refine within_eq (decide_eq_true htile) ?_
    subst ha
    have hruns : (s.fwPaused || y.stale || !(((s.tile tile).st == .inUse &&
        decide ((s.tile tile).audited + s.fld Reg.filCfg 27 16 ≤ s.opTime)) || (s.tile tile).st == .rejoining)) = false := by
      simp [hpause, hfresh, huse, hdue]
    simp only [hg, hruns, hres, Bool.not_true, Bool.false_eq_true, if_false, State.auditPass]
    subst hgood hrows hbad hu hv hw
    rfl
  · intro s m g x y hg ⟨t, ht, hage⟩
    refine next_eq ?_
    simp only [hg]
    exact if_pos (List.any_eq_true.mpr ⟨t, ht, decide_eq_true hage⟩)
  · intro s u job n j x cols exact_ cc here cand known lost fail hj hx hst htodo hsubs hcols hexact hknown hcand hcc hlost hhere hfail hn hu
    have hidle : (decide (2 ≤ j.st) || !j.todo.isEmpty || j.subs.any (fun y => !y.finished)) = false := by
      have hsub : j.subs.any (fun y => !y.finished) = false := List.any_eq_false.mpr fun y hy => by simp [hsubs y hy]
      simp [htodo, hsub, show ¬ 2 ≤ j.st by omega]
    have hlost' : lost = fun c => match s.mem.dir.find (x.panel c) with
        | some e => e.st == 2 || e.st == 3
        | none => false := by
      rw [hlost]
      funext c
      cases s.mem.dir.find (x.panel c) <;> rfl
    have hrun : exec (.jobComplete job) s = .next (if !known exact_ then s.fetchShadow (x.lines exact_) else
        match s.shadowStatus x j.fails exact_ with
        | some st => s.endJob job j st []
        | none => if !known here then s.fetchShadow (x.lines here) .rescore else match cc.findSome? fail with
          | some st => s.endJob job j st []
          | none => u.finishJob job { j with verified := n } ((List.range j.queries.length).map (u.blockOf x j cols))) := by
      subst hlost' hcols hexact hknown hcand hcc hhere hfail hn hu
      refine next_eq ?_
      simp only [hj, hx, hidle, Bool.false_eq_true, if_false] <;> rfl
    refine ⟨fun hk => ?_, fun st hk hst => ?_, fun hk hst => ⟨fun hk2 => ?_, fun st p q c hk2 hc hp hc' => ?_, fun hk2 hnone => ?_⟩⟩ <;>
      rw [hrun, hk]
    · rfl
    · simp only [hst, Bool.not_true, Bool.false_eq_true, if_false]
    · simp only [hst, hk2, Bool.not_true, Bool.not_false, Bool.false_eq_true, if_false, if_true]
    · simp only [hst, hk2, hc, findSome?_append_of hp hc', Bool.not_true, Bool.false_eq_true, if_false]
    · simp only [hst, hk2, List.findSome?_eq_none_iff.mpr hnone, Bool.not_true, Bool.false_eq_true, if_false]
  · intro s job j hj hended hdue
    refine next_eq ?_
    simp [hj, hended, hdue]

end Sys2Proof.Machine
end

section
/-!
PROOF. The sampler's occurrences and the bobbins.
-/
namespace Sys2Proof.Machine
set_option Elab.async false

/-- The oldest occurrence of an island's queue is taken and counted, then held or recorded. -/
theorem exec_samplerOccurrence_of {s u : State} {i k : Nat} {o : Occ} (hi : i < 46)
    (hq : s.kept.smpQ.find? (fun e => e.1 == i) = some (k, o))
    (hu : u = ({ s with kept := { s.kept with smpQ := s.kept.smpQ.erase (k, o) } } : State).count (Reg.pmcValue 493) 1) :
    exec (.samplerOccurrence i) s =
      .next (if u.clearing then { u with kept := { u.kept with smpHeld := u.kept.smpHeld ++ [o] } } else u.recordOcc o) := by
  refine within_eq (decide_eq_true hi) ?_
  simp only [hq, hu]

/-- Settles O29. -/
theorem samplerKeepsOccurrences : Obligations.SamplerKeepsOccurrences := by
  refine ⟨?_, ?_, ?_, ?_, ?_, ?_, ?_, ?_⟩
  · intro s i k o u hi hq hu hclear
    rw [exec_samplerOccurrence_of hi hq hu, if_pos hclear]
  · intro s i k n o u hi hq hu hclear hnew hfree hopen
    rw [exec_samplerOccurrence_of hi hq hu, if_neg (by simp [hclear])]
    simp only [State.recordOcc, hnew, hfree, hopen, Bool.false_eq_true, if_false]
  · intro s i k o u v hi hq hu hclear hnew hfull hopen hv
    rw [exec_samplerOccurrence_of hi hq hu, if_neg (by simp [hclear])]
    simp only [State.recordOcc, hnew, hfull, hopen, Bool.false_eq_true, if_false, hv]
  · intro s i k o u hi hq hu hclear hnew hclosed
    rw [exec_samplerOccurrence_of hi hq hu, if_neg (by simp [hclear])]
    simp only [State.recordOcc, hnew, hclosed, if_true]
  · intro s i k n o u x hi hq hu hclear hold
    rw [exec_samplerOccurrence_of hi hq hu, if_neg (by simp [hclear])]
    simp only [State.recordOcc, hold]
  · intro s n x hn hx hwait hdue hno hbudget hclear hopen
    refine within_eq (decide_eq_true (Nat.le_of_lt hn)) ?_
    simp [Nat.ne_of_lt hn, hx, hwait, State.fires_of hdue hno, hbudget, hclear, hopen]
  · intro s hover hdue hopen
    refine within_eq (ok := decide (2048 ≤ 2048)) rfl ?_
    simp [hover, hdue, hopen, State.commitOverflow]
  · intro s n hn hclosed
    refine within_eq (decide_eq_true hn) ?_
    split
    · simp [hclosed]
    · cases s.kept.slots.find n <;> simp [hclosed]

/-- Settles O30. -/
theorem occurrencesQueueTowardTheKeep : Obligations.OccurrencesQueueTowardTheKeep :=
  ⟨fun _ _ _ _ hfull => if_neg (Nat.not_lt.mpr hfull), fun _ _ _ _ hroom => if_pos hroom⟩

/-- What a pop of a whole bobbin with a packet gives: the word, lost or not, and the packet freed with its last word. -/
theorem State.pop_of {s u : State} {b : Nat} {out : CellOutcome} {lost : Bool} {x : Bob} {p : BobPkt} {rest : List BobPkt}
    (hx : x = s.bobbin b) (hwhole : x.broken = false) (hp : x.pkts = p :: rest)
    (hout : (out = .clean ∧ u = s ∧ lost = false) ∨ (∃ q, out = .corrected q ∧ u = s.count (Reg.bobCount (q % 4)) 1 ∧ lost = false) ∨
      (∃ q, out = .uncorrectable q ∧ u = (s.count (Reg.bobCount 4) 1).raise 0x9003 b q ∧ lost = true)) :
    (x.popped + 1 < p.words.length → s.pop b out = (p.word x.popped lost, u.putBob b (u.restale { x with popped := x.popped + 1 }))) ∧
    (x.popped + 1 = p.words.length →
      s.pop b out = (p.word x.popped lost, (u.putBob b (u.restale { x with pkts := rest, popped := 0 })).count (Reg.bobCount 6) 1)) := by
  have hpop : s.pop b out = (p.word x.popped lost,
      if x.popped + 1 == p.words.length then (u.putBob b (u.restale { x with pkts := rest, popped := 0 })).count (Reg.bobCount 6) 1
      else u.putBob b (u.restale { x with popped := x.popped + 1 })) := by
    unfold State.pop
    extract_lets y
    have hy : x = y := hx
    clear_value y
    subst hy
    rcases hout with ⟨ho, hu, hl⟩ | ⟨q, ho, hu, hl⟩ | ⟨q, ho, hu, hl⟩ <;> subst ho hu hl <;>
      simp only [hwhole, hp, reduceCtorEq, Bool.false_eq_true, if_false] <;> split <;> rfl
  exact ⟨fun hmore => by rw [hpop, if_neg (by simp; omega)], fun hlast => by rw [hpop, if_pos (by simp [hlast])]⟩

theorem State.pop_empty {s : State} {b : Nat} {x : Bob} (out : CellOutcome) (hx : x = s.bobbin b) (hwhole : x.broken = false)
    (hp : x.pkts = []) : s.pop b out = (0, s.count (Reg.bobCount 8) 1) := by
  unfold State.pop
  extract_lets y
  have hy : x = y := hx
  clear_value y
  subst hy
  simp only [hwhole, hp, Bool.false_eq_true, if_false]

theorem exec_pop {s t : State} {c : Nat} {out : CellOutcome} {w : Word} (hc : c < 4) (h : s.pop (s.fld (Reg.bobPopSel c) 15 0) out = (w, t)) :
    exec (.pop c out) s = .next { t with seen := w } := by
  refine within_eq (decide_eq_true hc) ?_
  simp only [h]

/-- Settles O31. -/
theorem bobbinsQueuePackets : Obligations.BobbinsQueuePackets := by
  refine ⟨?_, ?_, ?_, ?_, ?_, ?_, ?_, ?_, ?_, ?_⟩
  · intro s u c b len v hc hu hb hlen
    subst hu hb hlen
    exact ⟨fun hok => within_eq (decide_eq_true hc) (by simp only [State.packetStart, hok]),
      fun st hno => within_eq (decide_eq_true hc) (by simp only [State.packetStart, hno])⟩
  · intro s c v w hc hw hmore
    subst hw
    refine within_eq (decide_eq_true hc) ?_
    simp [State.pushData, show (s.pushWin c).left ≠ 0 by omega, show (s.pushWin c).left ≠ 1 by omega]
  · intro s c v w hc hw hlast
    subst hw
    refine within_eq (decide_eq_true hc) ?_
    simp [State.pushData, hlast]
  · intro s c v hc hnone
    exact within_eq (decide_eq_true hc) (if_pos hnone)
  · intro s u c b out x p rest hc hb hx hwhole hp hout
    subst hb
    obtain ⟨hmore, hlast⟩ := State.pop_of (u := u) (lost := false) hx hwhole hp
      (hout.imp (fun h => ⟨h.1, h.2, rfl⟩) fun ⟨q, ho, hu⟩ => .inl ⟨q, ho, hu, rfl⟩)
    exact ⟨fun h => exec_pop hc (hmore h), fun h => exec_pop hc (hlast h)⟩
  · intro s u c b q x p rest hc hb hx hwhole hp hu hmore
    subst hb
    exact exec_pop hc ((State.pop_of hx hwhole hp (.inr (.inr ⟨q, rfl, hu, rfl⟩))).1 hmore)
  · intro s c out x hc hx hwhole hempty
    exact exec_pop hc (State.pop_empty out hx hwhole hempty)
  · intro s c b v x p rest hc hb hx hwhole hp hasks
    subst hb hx
    refine within_eq (decide_eq_true hc) ?_
    simp [State.dropPkt, hp, hasks, hwhole]
  · intro s b d x hb hx hsweep
    subst hx
    refine within_eq (decide_eq_true hb) ?_
    simp only [hsweep, Option.isNone_some, Bool.false_eq_true, if_false]
  · intro s b d x hb hx hfrom htime hdue hno
    subst hx
    refine within_eq (decide_eq_true hb) ?_
    simp [hfrom, htime, State.fires_of hdue hno]

end Sys2Proof.Machine
end

section
/-!
PROOF. Placement: lines that leave the cache, the periodic timers, moves of swatches, and the gaps between NOTICEs.
-/
namespace Sys2Proof.Machine
set_option Elab.async false

/-- Settles O32. -/
theorem linesLeaveTheCache : Obligations.LinesLeaveTheCache := by
  refine ⟨?_, ?_, ?_, ?_⟩
  · intro s ln l c hln hc hl hclean
    refine within_eq (decide_eq_true hln) ?_
    simp only [State.evictLine, hc, hl, hclean, if_true]
  · intro s ln l c hln hc hl hdirty hgone
    refine within_eq (decide_eq_true hln) ?_
    simp only [State.evictLine, hc, hl, hdirty, hgone, if_true, if_false]
  · intro s ln l c hln hc hl hdirty hkept
    constructor <;> intro hroom <;> refine within_eq (decide_eq_true hln) ?_ <;>
      simp only [State.evictLine, hc, hl, hdirty, hkept, hroom, Bool.false_eq_true, if_true, if_false]
  · intro s lsw d hlsw hfilled hd
    refine ⟨_, _, _, rfl, rfl, rfl, within_eq (decide_eq_true hlsw) ?_⟩
    simp only [hfilled, if_true, State.mappingDone, hd]
    rfl

/-- Settles O33. -/
theorem placementTimersAct : Obligations.PlacementTimersAct := by
  refine ⟨?_, ?_, ?_, ?_, ?_, ?_⟩
  · intro s d hd hdue
    exact next_eq (State.periodic_of _ hd hdue)
  · intro s u d hd hdue hruns hu
    subst hu
    exact next_eq ((if_neg (by simp [hruns])).trans (State.periodic_of _ hd hdue))
  · intro s d hd hdue
    exact next_eq (State.periodic_of _ hd hdue)
  · intro s d hd hdue
    exact next_eq (State.periodic_of _ hd hdue)
  · intro s d hd hdue
    constructor <;> intro hidle <;> refine next_eq ((State.periodic_of _ hd hdue).trans ?_) <;>
      simp only [hidle, Bool.false_eq_true, if_true, if_false]
  · intro s u t ht hdue hu
    refine next_eq ?_
    simp only [ht, State.due_of_le hdue, if_true, hu]

/-- Settles O34. -/
theorem swatchesMove : Obligations.SwatchesMove := by
  refine ⟨?_, ?_, ?_, ?_⟩
  · intro s u v w k bad mv hk hmv hnot hall hu hv hw
    refine within_eq (decide_eq_true hk) ?_
    simp only [hmv, hnot, hall, bne_self_eq_false, Bool.or_self, Bool.false_eq_true, if_false, hu, hv, hw]
  · intro s u v w x k mv hk hmv hswitched hread hu hv hw hx
    refine within_eq (decide_eq_true hk) ?_
    subst hu hv hw
    simp only [hmv, hswitched, hread, Bool.not_false, Bool.and_self, if_true]
    rcases hx with ⟨c, hwhy, rfl⟩ | ⟨hwhy, rfl⟩
    · simp only [hwhy]
    · cases hy : mv.why with
      | retire c => exact absurd hy (hwhy c)
      | _ => rfl
  · intro s u v w x k mv hk hmv hnot hmap hdue hu hv hw hx
    have hacts : (!mv.switched && mv.map != BitVec.allOnes 512 && mv.copied == mv.copied && s.due mv.due) = true := by
      simp only [hnot, bne_iff_ne.mpr hmap, beq_self_eq_true, State.due_of_le hdue, Bool.not_false, Bool.and_self]
    subst hu hv hw hx
    constructor
    · intro c hwhy
      refine within_eq (decide_eq_true hk) ?_
      simp only [hmv, hacts, if_true, hwhy]
    · intro hwhy
      refine within_eq (decide_eq_true hk) ?_
      simp only [hmv, hacts, if_true]
  · intro s k n bad mv hk hmv
    constructor <;> intro hother <;> refine within_eq (decide_eq_true hk) ?_
    · simp [hmv, Ne.symm hother]
    · simp [hmv, Ne.symm hother]

/-- Settles O35. -/
theorem noticeGapsEnd : Obligations.NoticeGapsEnd := by
  refine ⟨?_, ?_⟩
  · intro s conn code key g hconn hg hdue hquiet
    refine within_eq (decide_eq_true hconn) ?_
    simp only [hg, State.due_of_le hdue, if_true, hquiet]
  · intro s conn code key d a r g hconn hg hdue hlatest
    refine within_eq (decide_eq_true hconn) ?_
    simp only [hg, State.due_of_le hdue, if_true, hlatest]

end Sys2Proof.Machine
end

section
/-!
PROOF. The medium: how fragments of reads and programs end, the epochs, ladders and bands, and the links of the stacks.
-/
namespace Sys2Proof.Machine
set_option Elab.async false

theorem frag_exists {p f : Nat} (hp : p < 2 ^ 34) (hf : f < 9) : (decide (p < 2 ^ 34) && decide (f < 9)) = true := by
  rw [decide_eq_true hp, decide_eq_true hf, Bool.and_self]

/-- The slots and pulses of a program that ends are counted (R140). -/
theorem exec_programComplete_of {s u : State} {p f n k q : Nat} {out : List Nat} {g : Program} (hp : p < 2 ^ 34) (hf : f < 9)
    (hg : s.mem.programs.find p = some g) (hrun : g.running f = true) (hlink : s.flag (Reg.stkPort (fragStack p f)) 2 = false)
    (hk : k = (if g.retried.contains f then 8 else 1))
    (hq : q = (if out.isEmpty then max k (min (k * s.pulseMax) n) else max (k * s.pulseMax) 1))
    (hu : u = (s.count (Reg.stkCount (fragStack p f) 6) k).count (Reg.stkCount (fragStack p f) 7) q) :
    exec (.programComplete p f out n) s = .next (
      if s.programPasses out then
        let v := if g.retried.contains f then u.remapRow (fragDie p f) (lineBank p) (lineRow p) q else u
        ({ v with mem := { v.mem with programs := v.mem.programs.put p { g with frags := g.frags.set f (some true) } } } : State).settleProgram p
      else
        let v := u.count (Reg.stkCount (fragStack p f) 8) 1
        if g.retried.contains f || v.spareRowsLeft (fragDie p f) (lineBank p) = 0 then
          (({ v with mem := { v.mem with programs := v.mem.programs.put p { g with frags := g.frags.set f (some false) } } } : State).retireSwatch
            (p / 512) (if g.retried.contains f then 1 else 2)).settleProgram p
        else
          let w := ({ v with mem := { v.mem with programs := v.mem.programs.put p { g with retried := g.retried ++ [f] } } } : State).count
            (Reg.stkCount (fragStack p f) 0) 7
          { w with mem := { w.mem with
            spareUsed := w.mem.spareUsed.put (fragDie p f * 64 + lineBank p) (w.mem.spareUsed.get (fragDie p f * 64 + lineBank p) 0 + 1) } }) := by
  subst hk hq hu
  refine within_eq (frag_exists hp hf) ?_
  simp only [hg, hrun, hlink, Bool.not_true, Bool.or_self, Bool.false_eq_true, if_false]

/-- Settles O36. -/
theorem mediumAccessesEnd : Obligations.MediumAccessesEnd := by
  refine ⟨?_, ?_, ?_, ?_⟩
  · intro s u p f cells epochCells drift e x hdrift hp hf he hx hopen hu
    subst hdrift hu
    refine within_eq (frag_exists hp hf) ?_
    simp only [he, hx]
    rw [if_neg (by simp [hopen])]
    cases (s.senseFrag p f e x (slotDrift cells epochCells)).2.2.2 <;> rfl
  · intro s p f d e x hp hf he hx hopen hdue
    refine within_eq (frag_exists hp hf) ?_
    simp only [he, hx, hopen, State.due_of_le hdue, if_true]
  · intro s u v p f n k q out g hp hf hg hrun hlink hk hq hu hv hpass
    rw [exec_programComplete_of hp hf hg hrun hlink hk hq hu, if_pos hpass, hv]
  · intro s u p f n k q out g hp hf hg hrun hlink hk hq hu hfail
    rw [exec_programComplete_of hp hf hg hrun hlink hk hq rfl, if_neg (by simp [hfail]), hu]
    simp only [State.count_mem]

/-- Settles O37. -/
theorem epochsAndLinksOfTheStacks : Obligations.EpochsAndLinksOfTheStacks := by
  refine ⟨?_, ?_, ?_, ?_, ?_, ?_, ?_, ?_, ?_, ?_⟩
  · intro s d hd hdue
    exact next_eq (if_pos (State.ripe_of hd hdue))
  · intro s d hd hdue
    exact next_eq (if_pos (State.ripe_of hd hdue))
  · intro s u hadvance hu
    exact next_eq ((if_pos hadvance).trans (by rw [hu]))
  · intro s d l hd hdue hruns
    exact next_eq ((if_neg (by simp [hruns])).trans (State.periodic_of _ hd hdue))
  · intro s d band hd hdue hband
    obtain rfl : band = _ := funext hband
    exact next_eq (State.periodic_of _ hd hdue)
  · intro s u k hk hu
    subst hu
    exact within_eq (decide_eq_true hk) rfl
  · intro s u k n hk hn hu
    subst hu hn
    exact within_eq (decide_eq_true hk) rfl
  · intro s k hk
    exact within_eq (decide_eq_true hk) rfl
  · intro s u k d hk hd hdue hu
    subst hu
    refine within_eq (decide_eq_true hk) ?_
    simp only [hd, State.due_of_le hdue, if_true]
  · intro s k d hk hd hdue
    refine within_eq (decide_eq_true hk) ?_
    simp only [hd, State.due_of_le hdue, Bool.false_eq_true, if_true, if_false]

end Sys2Proof.Machine
end

section
/-!
PROOF. Integrity: the scrub passes, the check of a die, and resilvering.
-/
namespace Sys2Proof.Machine
set_option Elab.async false

/-- Settles O38. -/
theorem scrubbingAndResilvering : Obligations.ScrubbingAndResilvering := by
  refine ⟨?_, ?_, ?_, ?_, ?_, ?_, ?_, ?_, ?_⟩
  · intro s u d hd hdue hu
    subst hu
    exact next_eq (State.periodic_of _ hd hdue)
  · intro s d n hd hdue hn
    subst hn
    exact next_eq (State.periodic_of _ hd hdue)
  · intro s u l hl
    refine next_eq ?_
    simp only [hl]
  · intro s p hnone hearly
    refine next_eq ?_
    simp only [hnone, hearly]
  · intro s hnone hearly hareas
    refine next_eq ?_
    simp only [hnone, hearly, hareas, if_true]
  · intro s u p hnone hearly hareas hnext hu
    subst hu
    refine next_eq ?_
    simp only [hnone, hearly, hareas, hnext, Bool.false_eq_true, if_false]
  · intro s d h hd hcheck hfailed
    have hacts : ((s.die d).checking && (s.die d).st == .failed) = true := by simp [hcheck, hfailed]
    refine ⟨⟨_, rfl, ?_⟩, ⟨_, rfl, ?_⟩⟩ <;> refine within_eq (decide_eq_true hd) ?_ <;>
      simp only [hacts, if_true, Bool.not_true, Bool.not_false, Bool.false_eq_true, if_false]
  · intro s u d ps bad rest hd hu hidle hleft
    refine ⟨_, rfl, next_eq ?_⟩
    simp only [hd, ← hu, hidle, hleft]
  · intro s u v d ps bad hd hu hfill hv
    refine next_eq ?_
    simp only [hd, ← hu, hfill, ← hv]

end Sys2Proof.Machine
end

section
/-!
PROOF. The DRAM: how accesses, probes, refills and pauses end. The LLC: how its ways change and maintenance ends.
-/
namespace Sys2Proof.Machine
set_option Elab.async false

/-- How a codeword ends by what its group has erased (R320, R358). -/
theorem State.codewordEnd_of (s : State) (g : Nat) (l : List (Nat × Nat)) :
    (s.codewordEnd g .uncorrectable = .uncorrectable) ∧
    ((groupChannels g).any s.erased = true → s.codewordEnd g .clean = .erasure ∧ s.codewordEnd g (.corrected l) = .erasure) ∧
    ((groupChannels g).any s.erased = false → s.codewordEnd g .clean = .clean ∧
      (16 < ((l.filter (fun c => c.1 / 5 == g)).foldl (fun (a : Nat) c => a + c.2) 0) → s.codewordEnd g (.corrected l) = .uncorrectable)) := by
  refine ⟨rfl, fun he => ⟨?_, ?_⟩, fun he => ⟨?_, fun hmany => ?_⟩⟩
  · simp only [State.codewordEnd, he, if_true]
  · simp only [State.codewordEnd, he, if_true]
  · simp only [State.codewordEnd, he, Bool.false_eq_true, if_false]
  · simp only [State.codewordEnd, he, Bool.false_eq_true, if_false]
    rw [if_neg (by omega), if_neg (by omega)]

/-- Settles O39. -/
theorem dramAccessesAndChannels : Obligations.DramAccessesAndChannels := by
  refine ⟨?_, State.codewordEnd_of, ?_, ?_, ?_, ?_, ?_, ?_⟩
  · intro s ln cw hflight hfree
    have hruns : (!s.mem.dramReads.any (fun d => d.line == ln && d.issued && !d.bad) ||
        s.mem.probing.has (dramGroup (s.targetAddr (.tier ln)))) = false := by
      rw [hflight, hfree]
      rfl
    refine ⟨fun hfwd out => ?_, fun hfwd out a ha => ⟨fun hend => ?_, fun hend => ?_, fun l hend => ?_, fun u hend hu => ?_⟩⟩ <;>
      refine next_eq ?_
    · simp only [hruns, hfwd, if_true, Bool.false_eq_true, if_false]
    all_goals subst ha
    · simp only [hruns, hfwd, hend, Bool.false_eq_true, if_false]
    · simp only [hruns, hfwd, hend, Bool.false_eq_true, if_false]
    · simp only [hruns, hfwd, hend, Bool.false_eq_true, if_false]
    · simp only [hruns, hfwd, hend, Bool.false_eq_true, if_false, hu]
  · intro s u g a f bad hg ha hu hbad
    constructor <;> intro hnone hheld <;> refine within_eq (decide_eq_true hg) ?_ <;>
      simp only [ha, ← hu, ← hbad, hnone]
    · simp only [hheld, List.isEmpty_nil, if_true]
    · exact if_neg (mt List.isEmpty_iff.mp hheld)
  · intro s u v g a f bad hg ha hu hbad hsome hv
    refine within_eq (decide_eq_true hg) ?_
    simp only [ha, ← hu, ← hbad]
    cases hf : f.filter (fun c => c / 5 == g) with
    | nil => exact absurd hf hsome
    | cons c l => simp only [hv, hf]
  · intro s u hon hu
    refine next_eq ?_
    rw [if_pos hon]
    simp only [← hu]
    rfl
  · intro s hon
    exact next_eq (if_pos hon)
  · intro s g d r f hg hquiet hd hdue
    exact within_eq (decide_eq_true hg) ((if_neg (by simp [hquiet])).trans (State.periodic_of _ hd hdue))
  · intro s n d bad hd hdue
    exact next_eq (State.periodic_of _ hd hdue)

theorem way_exists {k w : Nat} (hk : k < 32) (hw : w < 16) : (decide (k < 32) && decide (w < 16)) = true := by
  rw [decide_eq_true hk, decide_eq_true hw, Bool.and_self]

/-- Settles O40. -/
theorem waysChangeAndMaintenanceEnds : Obligations.WaysChangeAndMaintenanceEnds := by
  refine ⟨?_, ?_, ?_, ?_⟩
  · intro s k w x hk hw hx hst hclean
    subst hx
    refine within_eq (way_exists hk hw) ?_
    simp only [hst, hclean, decide_true, Bool.not_false, Bool.and_self, if_true]
  · intro s u k w x hk hw hx hst hu
    subst hx hu
    refine within_eq (way_exists hk hw) ?_
    simp only [hst, if_true]
  · intro s k w x hk hw hx htest
    subst hx
    constructor <;> refine within_eq (way_exists hk hw) ?_ <;> simp only [htest, if_true, Bool.false_eq_true, if_false]
  · intro s v w m hm hv hw
    refine next_eq ?_
    simp only [hm, ← hv, ← hw]
    rcases (s.maintGo m).1 with _ | _ | _ <;> rfl

end Sys2Proof.Machine
end

section
/-!
PROOF. Coherence: what agents ask for, what they give back, and what the answers do.
-/
namespace Sys2Proof.Machine
set_option Elab.async false

theorem agent_exists {a ln : Nat} (ha : a < 27) (hln : ln < 2 ^ 56) : (decide (a < 27) && decide (ln < 2 ^ 56)) = true := by
  rw [decide_eq_true ha, decide_eq_true hln, Bool.and_self]

/-- A request that the protocol lets the agent make goes to the line's home. -/
theorem State.agentRequest_served {s : State} {a ln : Nat} (r : CohReq) {ok : Bool} (ha : a < 27) (hln : ln < 2 ^ 56)
    (hup : s.domainIsUp = true) (hok : ok = true) : s.agentRequest a ln r ok = .next (s.request ln a r) := by
  refine within_eq (agent_exists ha hln) ?_
  rw [hup, hok]
  rfl

/-- Any other fails the domain (R350). -/
theorem State.agentRequest_refused {s : State} {a ln : Nat} (r : CohReq) {ok : Bool} (ha : a < 27) (hln : ln < 2 ^ 56)
    (hup : s.domainIsUp = true) (hok : ok = false) : s.agentRequest a ln r ok = .next (s.domainFail 4 a) := by
  refine within_eq (agent_exists ha hln) ?_
  rw [hup, hok]
  rfl

/-- Settles O41. -/
theorem agentsRequestLines : Obligations.AgentsRequestLines := by
  refine ⟨?_, ?_, ?_, ?_, ?_, ?_, ?_⟩
  · intro s a ln ha hln hup hnone
    exact State.agentRequest_served _ (by omega) hln hup (by simp [ha, hnone])
  · intro s a ln ha hln hup hnone hown
    exact ⟨State.agentRequest_served _ ha hln hup (by simp [hown, hnone]), State.agentRequest_served _ ha hln hup (by simp [hown, hnone])⟩
  · intro s a ln ha hln hup hown
    exact State.agentRequest_served _ ha hln hup hown
  · intro s a ln m d ha hln hup
    exact State.agentRequest_served _ ha hln hup rfl
  · intro s a ln f off len x y ha hln hup hf hlen
    exact State.agentRequest_served _ ha hln hup (by simp [hf, hlen])
  · intro s a ln m d t hio ha hln hup
    exact State.agentRequest_served _ ha hln hup (by simp [hio])
  · intro s a ln ha hln hup hown
    exact ⟨State.agentRequest_refused _ ha hln hup (by simp [hown]), State.agentRequest_refused _ ha hln hup hown⟩

/-- Settles O42. -/
theorem copiesAreGivenBackAndForwarded : Obligations.CopiesAreGivenBackAndForwarded := by
  refine ⟨?_, ?_, ?_, ?_, ?_, ?_⟩
  · intro s a ln d c ha hln hup hc hst
    refine within_eq (agent_exists ha hln) ?_
    simp only [hup, hc, hst, Bool.not_true, Bool.false_eq_true, if_false]
  · intro s a ln c ha hln hup hc hst
    have hclean : (decide (c.st = .s) || decide (c.st = .e)) = true := by simpa using hst
    refine within_eq (agent_exists ha hln) ?_
    simp only [hup, hc, hclean, Bool.not_true, Bool.false_eq_true, if_false, if_true]
  · intro s t a ln q w b c ha hln htake hb hc
    refine within_eq (agent_exists ha hln) ?_
    simp only [htake, hb, ← hc] <;> rfl
  · intro s t a ln q w b c ha hln htake hb hc
    refine within_eq (agent_exists ha hln) ?_
    simp only [htake, hb, ← hc]
  · intro s t a ln w b c ha hln htake hb hc
    refine within_eq (agent_exists ha hln) ?_
    simp only [htake, hb, ← hc]
  · intro s t a ln q w ha hln hnone
    refine ⟨fun htake => ?_, fun htake => ?_, fun htake => ?_⟩ <;> refine within_eq (agent_exists ha hln) ?_ <;> simp only [htake, hnone]

/-- Settles O43. -/
theorem coherenceAnswersArrive : Obligations.CoherenceAnswersArrive := by
  refine ⟨?_, ?_, ?_, ?_, ?_, ?_, ?_, ?_, ?_, ?_⟩
  · intro s t a ln st d p ha hln htake
    refine within_eq (agent_exists ha hln) ?_
    simp only [htake]
  · intro s t a ln st d p ha hln hnet htake
    refine within_eq (agent_exists ha hln) ?_
    simp only [hnet, if_true, htake]
  · intro s t a ln st ha hln htake
    refine within_eq (agent_exists ha hln) ?_
    simp only [htake] <;> rfl
  · intro s t a ln st d p ha hln htake
    refine within_eq (agent_exists ha hln) ?_
    simp only [htake] <;> rfl
  · intro s t a ln m ha hln htake
    refine within_eq (agent_exists ha hln) ?_
    simp only [htake]
  · intro s t a ln h d p l ha hln htake hheld hl
    refine within_eq (agent_exists ha hln) ?_
    simp only [htake, hl, ← hheld]
  · intro s a ln t ha hln ht hawait hdue hno
    refine within_eq (agent_exists ha hln) ?_
    simp only [ht, hawait, State.fires_of hdue hno, Bool.and_self, if_true]
  · intro s u hsalvage hu
    subst hu
    exact ⟨_, rfl, next_eq (if_pos hsalvage)⟩
  · intro s u hrestart hflag hfirst hu
    refine next_eq ?_
    rw [if_pos (by simp [hrestart, hflag]), if_neg (by simp [hfirst])]
    simp only [← hu]
  · intro s hrestart hflag hsecond
    exact next_eq ((if_pos (by simp [hrestart, hflag])).trans (if_pos hsecond))

end Sys2Proof.Machine
end

section
/-!
PROOF. How a mailbox command of the right form ends: at once, held until its work is done, or with a change of the tables (R437, R438, R463,
R278); the queries (R451).
-/
namespace Sys2Proof.Machine
set_option Elab.async false

variable {s t u : State} {m : Nat} {r : Req} {resp : List Byte}

/-- A command that is not journaled and ends at once. -/
theorem State.Asked.done (c : Command) (h : s.Asked m c.code c.cls r t) (hm : c.mark = .no) (hc : c.check t r = none) (hw : c.wp t r = false)
    (he : c.eff t r = .done .ok resp u) : s.command m c = .next (u.mbxComplete m .ok resp) := by
  rw [State.Asked.runs c h hm hc hw, State.finishCmd_done he, h.box]

/-- One whose response is held. -/
theorem State.Asked.later (c : Command) (h : s.Asked m c.code c.cls r t) (hm : c.mark = .no) (hc : c.check t r = none) (hw : c.wp t r = false)
    (he : c.eff t r = .later .ok resp u) : s.command m c = .next (u.running m resp) := by
  rw [State.Asked.runs c h hm hc hw, State.finishCmd_later he, h.box]

/-- One that changes tables. -/
theorem State.Asked.changes {l : List TableChange} (c : Command) (h : s.Asked m c.code c.cls r t) (hm : c.mark = .no) (hc : c.check t r = none)
    (hw : c.wp t r = false) (he : c.eff t r = t.changeEnd r l) : s.command m c = .next (t.changed m l) := by
  rw [State.Asked.runs c h hm hc hw, State.finishCmd_changed he, h.box]

/-- A journaled command that ends at once. -/
theorem State.Asked.journaled_done (c : Command) (h : s.Asked m c.code c.cls r t) (hk : t.KeepOpen) (hm : c.mark = .yes)
    (hc : c.check t r = none) (hw : (c.wp t r && t.kept.wp) = false)
    (he : c.eff (t.entered r c.code (c.old t r) (c.new t r)) r = .done .ok resp u) : s.command m c = .next (u.mbxComplete m .ok resp) := by
  rw [State.Asked.runs_journaled c h hm hc hw hk, State.finishCmd_done he, h.box]

/-- One whose response is held. -/
theorem State.Asked.journaled_later (c : Command) (h : s.Asked m c.code c.cls r t) (hk : t.KeepOpen) (hm : c.mark = .yes)
    (hc : c.check t r = none) (hw : (c.wp t r && t.kept.wp) = false)
    (he : c.eff (t.entered r c.code (c.old t r) (c.new t r)) r = .later .ok resp u) : s.command m c = .next (u.running m resp) := by
  rw [State.Asked.runs_journaled c h hm hc hw hk, State.finishCmd_later he, h.box]

/-- One that changes tables. -/
theorem State.Asked.journaled_changes {l : List TableChange} (c : Command) (h : s.Asked m c.code c.cls r t) (hk : t.KeepOpen) (hm : c.mark = .yes)
    (hc : c.check t r = none) (hw : (c.wp t r && t.kept.wp) = false)
    (he : c.eff (t.entered r c.code (c.old t r) (c.new t r)) r = (t.entered r c.code (c.old t r) (c.new t r)).changeEnd r l) :
    s.command m c = .next ((t.entered r c.code (c.old t r) (c.new t r)).changed m l) := by
  rw [State.Asked.runs_journaled c h hm hc hw hk, State.finishCmd_changed he, h.box]

/-- A command that is journaled even where the journal is full, and ends at once. -/
theorem State.Asked.always_done (c : Command) (h : s.Asked m c.code c.cls r t) (hk : t.kept.closed = false) (hm : c.mark = .always)
    (hc : c.check t r = none) (hw : c.wp t r = false)
    (he : c.eff (t.jAlways (t.jEntry r.author true c.code .ok (c.old t r) (c.new t r))) r = .done .ok resp u) :
    s.command m c = .next (u.mbxComplete m .ok resp) := by
  rw [State.Asked.runs_always c h hm hc hw hk, State.finishCmd_done he, h.box]

/-- A check that follows the one of the request's form. -/
theorem check_of_form {o : Option Status} {f : Unit → Option Status} (ho : o = none) (hf : f () = none) : o.orElse f = none := by
  rw [ho]
  exact hf

theorem lengthIs_of_nil {r : Req} (h : r.data = []) : lengthIs 0 r = none := by rw [lengthIs, h]; rfl

end Sys2Proof.Machine

namespace Sys2Proof.Machine
set_option Elab.async false

/-- Settles O44. -/
theorem queriesAnswer : Obligations.QueriesAnswer := by
  intro c hc s t m r h
  have hrow : exec (c.1 m) s = s.command m (queryCmd c.2.1 1 0 fun s _ => c.2.2 s) := by
    iterate 11
      obtain _ | ⟨_, hc⟩ := hc
      · rfl
    nomatch hc
  constructor
  · intro hdata
    exact hrow.trans (h.query_answers _ (by rw [hdata]; rfl))
  · intro hdata
    exact hrow.trans (h.query_refuses _ (mt List.eq_nil_of_length_eq_zero hdata))

/-- Settles O46. -/
theorem regionsAndGrants : Obligations.RegionsAndGrants := by
  refine ⟨?_, ?_, ?_, ?_, ?_, ?_⟩
  · intro s t e m r x dir h hk he hlen hzero hmir hx hbase hsize0 hsize hid1 hid2 hfree htop hover hkey hplace hplace'
    subst he hx
    refine State.Asked.journaled_changes _ h hk rfl (check_of_form ?_ ?_) rfl ?_
    · simp [lengthZero, hlen, hzero]
    · have halign : (decide (leAt r.data 8 8 % 2 ^ 30 ≠ 0) || decide (leAt r.data 16 8 = 0) || decide (leAt r.data 16 8 % 2 ^ 30 ≠ 0)) = false := by
        simp only [hbase, hsize0, hsize]
        rfl
      have hid : (decide (leAt r.data 0 2 = 0) || decide (4095 < leAt r.data 0 2) || t.mem.regions.has (leAt r.data 0 2)) = false := by
        simp only [hfree, Nat.not_lt.mpr hid2, Nat.ne_of_gt hid1]
        rfl
      have hrange : ¬ 2 ^ 56 < leAt r.data 8 8 + leAt r.data 16 8 := Nat.not_lt.mpr htop
      simp only [Nat.not_le.mpr hmir, halign, hid, hrange, hover, hkey, hplace, decide_false, Bool.or_self, Bool.false_eq_true, if_false,
        Option.isNone_some]
    · simp only [hplace']
  · intro s t e m r x h hk hlen hx hmat he
    subst he
    refine (State.Asked.journaled_later _ h hk rfl (check_of_form hlen ?_) rfl rfl).trans ?_
    · simp only [hx, hmat, Bool.false_eq_true, if_false]
    · simp only [h.box, hx]
  · intro s t m r l h hlen hl
    subst hl
    exact State.Asked.done _ h rfl hlen rfl rfl
  · intro s t e m r h hk hcheck he
    subst he
    exact State.Asked.journaled_changes _ h hk rfl hcheck rfl rfl
  · intro s t e m r g h hk hlen hg he
    subst he
    refine (State.Asked.journaled_changes _ h hk rfl (check_of_form hlen ?_) rfl rfl).trans ?_
    · simp [Table.has, hg]
    · simp only [hg]
  · intro s t m k r g h hlen hnext hg
    refine State.Asked.done _ h rfl (check_of_form hlen ?_) rfl ?_
    · simp [hnext]
    · simp only [hnext, hg]

end Sys2Proof.Machine
end

section
/-!
PROOF. The mailbox commands of placement, filet compute, locks and console, sampler, journal and counters.
-/
namespace Sys2Proof.Machine
set_option Elab.async false

/-- A command that is not journaled and ends with any status. -/
theorem State.Asked.ends {s t u : State} {m : Nat} {r : Req} {st : Status} {resp : List Byte} (c : Command) (h : s.Asked m c.code c.cls r t)
    (hm : c.mark = .no) (hc : c.check t r = none) (hw : c.wp t r = false) (he : c.eff t r = .done st resp u) :
    s.command m c = .next (u.mbxComplete m st resp) := by
  rw [State.Asked.runs c h hm hc hw]
  by_cases hst : st = .ok <;> simp [State.finishCmd, he, hm, State.jSecond, hst, h.box]

/-- Settles O47. -/
theorem hintsAndRetirement : Obligations.HintsAndRetirement := by
  refine ⟨?_, ?_, ?_⟩
  · intro s t m r h hlen hcheck
    exact State.Asked.done _ h rfl (check_of_form hlen hcheck) rfl rfl
  · intro s t m r h hlen hcheck
    exact State.Asked.done _ h rfl (check_of_form hlen hcheck) rfl rfl
  · intro s t m r h hk hlen hps hret hdst
    refine State.Asked.journaled_later _ h hk rfl (check_of_form hlen ?_) rfl rfl
    simp [Nat.not_lt.mpr hps, hret, hdst]

theorem matrixStatus_rest (a b c d e : Nat) : (leBytes 4 a ++ leBytes 4 b ++ leBytes 4 c ++ leBytes 2 d ++ leBytes 2 e ++ zeros 12).length = 28 := by
  simp [zeros]

/-- Settles O48. -/
theorem filetCommands : Obligations.FiletCommands := by
  refine ⟨?_, ?_, ?_, ?_, ?_, ?_, ?_⟩
  · intro s t e m k r x h hk hcheck he hfind hx
    refine ⟨_, rfl, ?_⟩
    subst hx he
    refine (State.Asked.journaled_later _ h hk rfl hcheck rfl rfl).trans ?_
    simp only [hfind, Option.getD_some, h.box]
  · intro s t e m r x h hk hcheck hx he
    subst he
    refine (State.Asked.journaled_later _ h hk rfl hcheck rfl rfl).trans ?_
    simp only [hx, h.box]
  · intro s t u m k r x h hcheck hk hx hu
    subst hk hu
    refine ⟨_, _, rfl, rfl, State.Asked.later _ h rfl hcheck rfl ?_⟩
    simp only [hx, h.box]
  · intro s t m r x h hcheck hx
    refine ⟨_, matrixStatus_rest ?progress ?stale ?fallback ?resid ?age, State.Asked.done _ h rfl hcheck rfl ?answer⟩
    case answer =>
      simp only [hx, List.append_assoc]
      rfl
  · intro s t m r l h hlen hl
    subst hl
    exact State.Asked.done _ h rfl hlen rfl rfl
  · intro s t m r h hdata
    exact State.Asked.done _ h rfl (lengthIs_of_nil hdata) rfl rfl
  · intro s t e m r h hk hlen hfailed he
    subst he
    exact State.Asked.journaled_done _ h hk rfl (check_of_form hlen (if_pos hfailed)) rfl rfl

/-- Settles O49. -/
theorem adminAndConsoleCommands : Obligations.AdminAndConsoleCommands := by
  refine ⟨?_, ?_, ?_, ?_, ?_, ?_, ?_, ?_⟩
  · intro s t u m r h hdata hu
    subst hu
    refine (State.Asked.done _ h rfl (lengthIs_of_nil hdata) rfl rfl).trans ?_
    rw [h.box]
    rfl
  · intro s t e m r h hk hwp hdata hkeys he
    subst he
    refine (State.Asked.journaled_done _ h hk rfl (check_of_form (lengthIs_of_nil hdata) (if_neg (by simp [hkeys]))) (by simp [hwp]) rfl).trans ?_
    simp only [hdata]
  · intro s t e m i r h hk hwp hlen hi hi8 he
    subst hi he
    constructor
    · intro hset
      refine State.Asked.journaled_done _ h hk rfl (check_of_form hlen ?_) (by simp [hwp]) ?_
      · simp [hset, Nat.not_le.mpr hi8]
      · simp only [hset, if_true]
    · intro hdel hlast
      refine State.Asked.journaled_done _ h hk rfl (check_of_form hlen ?_) (by simp [hwp]) ?_
      · simpa [hdel, Nat.not_le.mpr hi8] using hlast
      · simp only [hdel, Nat.one_ne_zero, if_false]
  · intro s t e m r h hk hdata he
    subst he
    refine (State.Asked.journaled_done _ h hk rfl (lengthIs_of_nil hdata) rfl rfl).trans ?_
    simp only [hdata]
  · intro s t e m r h hopen hdata he
    subst he
    refine (State.Asked.always_done _ h hopen rfl (lengthIs_of_nil hdata) rfl rfl).trans ?_
    simp only [hdata]
  · intro s d l hd hopen
    refine next_eq ?_
    simp only [hd, hopen, if_true]
  · intro s d hd hdue hno
    refine next_eq ?_
    simp only [hd, State.fires_of hdue hno, if_true]
  · intro s hslot hnew hopen
    exact next_eq (if_pos (by simp [hslot, hnew, hopen]))

/-- Settles O50. -/
theorem samplerJournalAndCounterCommands : Obligations.SamplerJournalAndCounterCommands := by
  refine ⟨?_, ?_, ?_, ?_, ?_, ?_, ?_, ?_⟩
  · intro s t m k r h hlen hk
    subst hk
    exact State.Asked.done _ h rfl hlen rfl rfl
  · intro s t m n r l h hlen hn hn1 hn2 hl
    subst hn hl
    refine State.Asked.done _ h rfl (check_of_form (if_pos hlen) ?_) rfl rfl
    simp [Nat.ne_of_gt hn1, Nat.not_lt.mpr hn2]
  · intro s t e u m r h hk hdata he hu
    subst hu he
    refine (State.Asked.journaled_later _ h hk rfl (lengthIs_of_nil hdata) rfl rfl).trans ?_
    simp only [hdata, h.box, State.draw]
  · intro s t m r l h hlen hn1 hn2 hnot hafter hl
    subst hl
    refine State.Asked.done _ h rfl (check_of_form hlen ?_) rfl rfl
    simp [Nat.ne_of_gt hn1, Nat.not_lt.mpr hn2, hnot, hafter]
  · intro s t u v m r l h hlen hl hhash hopen hu hv
    subst hv hu
    refine State.Asked.done _ h rfl (check_of_form hlen ?_) rfl ?_
    · simp only [hl, hhash, hopen]
      simp
    · simp only [hl, Option.getD_some]
  · intro s t m i n r h hlen hz1 hz2 hkind hi hn hn1 hn2 hin
    subst hi hn
    refine State.Asked.done _ h rfl (check_of_form (if_pos hlen) ?_) rfl (if_pos hkind)
    simp only [hz1, hz2, hkind, hin, Bool.not_true, Bool.or_self, Bool.false_eq_true, if_true, if_false]
    rw [if_neg (by simp; omega), if_neg (by omega)]
  · intro s t m n r h hlen hz1 hz2 hkind hn hn1 hn2 hcls
    subst hn
    refine State.Asked.done _ h rfl (check_of_form (if_pos hlen) ?_) rfl (if_neg (by simp [hkind]))
    simp only [hz1, hz2, hkind, Bool.not_true, Bool.or_self, Bool.false_eq_true, Nat.one_ne_zero, if_true, if_false]
    rw [if_neg (by simp; omega), if_neg (by omega)]
  · intro s t m n r h hlen hz1 hz2 hmode hinterval hn
    subst hn
    refine ⟨_, rfl, State.Asked.ends _ h rfl (check_of_form (if_pos hlen) ?_) rfl rfl⟩
    rcases hinterval with h0 | h0
    · simp [hz1, hz2, h0]
    · simp [hz1, hz2, h0, hmode]

end Sys2Proof.Machine
end

section
/-!
PROOF. Lace: what frames do when they arrive, and the timers of links, routes, the hoop and its schedules.
-/
namespace Sys2Proof.Machine
set_option Elab.async false

/-- No frame is received on a link that is not trained. -/
theorem State.laceRx_untrained {s : State} {n : Nat} (f : LaceIn) (ltype : Nat) (body : LaceHdr → Option LaceBody) (k : State → LaceHdr → State)
    (h : (s.link n).st = .down ∨ (s.link n).st = .training) : s.laceRx n f ltype body k = s :=
  if_pos (by simpa using h)

/-- A frame that fails a check of its link's frame is counted and dropped with the cause (R261). -/
theorem State.laceRx_dropped {s : State} {n c : Nat} (f : LaceIn) (ltype : Nat) (body : LaceHdr → Option LaceBody) (k : State → LaceHdr → State)
    (hdown : (s.link n).st ≠ .down) (htrain : (s.link n).st ≠ .training) (hc : (s.laceHeard n f).laceCause n f = c) (h0 : 0 < c) (hb : c < 0xB) :
    s.laceRx n f ltype body k = ((s.laceHeard n f).count (Reg.lceCount n 0) 1).laceDrop n c := by
  subst hc
  unfold State.laceHeard at h0 hb ⊢
  unfold State.laceRx
  simp only [hdown, htrain, decide_false, Bool.or_self, Bool.false_eq_true, if_false, Nat.ne_of_gt h0, hb, if_true]

/-- Every row of a lace frame on an existing link receives a frame of its type. -/
theorem exec_laceRx {s : State} {n : Nat} {f : LaceIn} {a : Announce} {c : Control} {r : ResyncLine} (hn : n < 16) {i : Instr}
    (hi : i ∈ [Instr.heartbeat n f, .forward n f, .complete n f, .routeAck n f, .discover n f, .announce n f a, .control n f c, .resync n f r]) :
    ∃ ltype body k, exec i s = .next (s.laceRx n f ltype body k) := by
  have hn' : decide (n < 16) = true := decide_eq_true hn
  simp only [List.mem_cons, List.not_mem_nil, or_false] at hi
  rcases hi with rfl | rfl | rfl | rfl | rfl | rfl | rfl | rfl
  case inr.inl =>
    cases hst : laceStitch (f.bytes.take (32 + (parseLace f.bytes).plen)) with
    | none => exact ⟨_, _, _, within_eq hn' (by simp only [hst]; rfl)⟩
    | some x => exact ⟨_, _, _, within_eq hn' (by simp only [hst]; rfl)⟩
  case inr.inr.inl =>
    cases hst : laceStitch (f.bytes.take (32 + (parseLace f.bytes).plen)) with
    | none => exact ⟨_, _, _, within_eq hn' (by simp only [hst]; rfl)⟩
    | some x => exact ⟨_, _, _, within_eq hn' (by simp only [hst]; rfl)⟩
  all_goals exact ⟨_, _, _, within_eq hn' rfl⟩

/-- Settles O51. -/
theorem laceFramesAct : Obligations.LaceFramesAct := by
  refine ⟨?_, ?_, ?_, ?_, ?_, ?_, ?_, ?_, ?_, ?_, ?_⟩
  · intro s t n f h a
    exact within_eq (decide_eq_true a.link) (a.acts _ _)
  · intro s t u n o c f h x y a hst
    rw [a.header] at hst
    refine ⟨fun hcommit => ?_, fun hcommit hseg => ?_, fun hcommit hseg => ?_⟩ <;> refine within_eq (decide_eq_true a.link) ?_ <;>
      simp only [hst, a.acts, hcommit, Bool.false_eq_true, if_true, if_false]
    · simp only [hseg]
    · simp only [hseg]
  · intro s t u n o c i k f h x y a hst
    rw [a.header] at hst
    refine ⟨fun hseg => ?_, fun hseg href => ?_, fun hseg href hi => ?_, fun hseg href hi => ?_⟩ <;> refine within_eq (decide_eq_true a.link) ?_ <;>
      simp only [hst, a.acts, hseg]
    · simp only [href]
    · simp only [href, Nat.not_le.mpr hi, if_false]
    · simp only [href, hi, if_true]
  · intro s t n f h a
    exact within_eq (decide_eq_true a.link) (a.acts _ _)
  · intro s t u n f h a
    refine ⟨fun hmgr => ?_, fun hmgr hu => ?_⟩ <;> refine within_eq (decide_eq_true a.link) ((a.acts _ _).trans ?_)
    · simp only [hmgr, if_true]
    · simp only [hmgr, Bool.false_eq_true, if_false, ← hu]
  · intro s t v n f h x a
    refine ⟨fun hmgr => ?_, fun hmgr hv => ⟨fun hnear => ?_, fun hlink hpeer => ⟨fun hhop => ?_, fun k hhop => ?_⟩⟩⟩ <;>
      refine within_eq (decide_eq_true a.link) ((a.acts _ _).trans ?_)
    · simp only [hmgr, if_true]
    · simp only [hmgr, Bool.false_eq_true, if_false, ← hv]
      exact if_pos (by simpa using hnear)
    · simp only [hmgr, Bool.false_eq_true, if_false, ← hv, hlink, hpeer, hhop, decide_false, Bool.or_self]
    · simp only [hmgr, Bool.false_eq_true, if_false, ← hv, hlink, hpeer, hhop, decide_false, Bool.or_self]
  · intro s t n f h c a
    exact within_eq (decide_eq_true a.link) (a.acts _ _)
  · intro s t n f h r a
    exact within_eq (decide_eq_true a.link) (a.acts _ _)
  · intro s t n o k f h x hst
    constructor <;> intro a <;> rw [a.header] at hst <;> refine within_eq (decide_eq_true a.link) ?_ <;> simp only [hst] <;> exact a.acts rfl _ _
  · intro s t n f h c r
    exact ⟨fun a => within_eq (decide_eq_true a.link) (a.acts rfl _ _), fun a => within_eq (decide_eq_true a.link) (a.acts rfl _ _),
      fun a => within_eq (decide_eq_true a.link) (a.acts rfl _ _)⟩
  · intro s n k f a c r hn i hi
    obtain ⟨ltype, body, act, hrow⟩ := exec_laceRx (s := s) hn hi
    exact ⟨fun hst => hrow.trans (next_eq (State.laceRx_untrained f ltype body act hst)),
      fun hdown htrain hc h0 hb => hrow.trans (next_eq (State.laceRx_dropped f ltype body act hdown htrain hc h0 hb))⟩

/-- Settles O52. -/
theorem laceAndHoopTimersAct : Obligations.LaceAndHoopTimersAct := by
  refine ⟨?_, ?_, ?_, ?_, ?_, ?_, ?_, ?_, ?_, ?_, ?_⟩
  · intro s n l hn hl hst hdue hcoh
    subst hl
    refine within_eq (decide_eq_true hn) ?_
    rw [if_pos (by rw [hcoh, State.due_of_le hdue]; simpa [or_assoc] using hst)]
    simp only [Bool.or_eq_true, decide_eq_true_eq]
  · intro s n d v hn hd hdue hno hdown htrain hv
    subst hv
    refine within_eq (decide_eq_true hn) ?_
    simp [hd, State.fires_of hdue hno, hdown, htrain]
  · intro s n hn
    exact within_eq (decide_eq_true hn) rfl
  · intro s n hn hst
    exact within_eq (decide_eq_true hn) (if_pos hst)
  · intro s n l hn hl hst hlong hbeat hfail
    subst hl
    have hends : (decide ((s.link n).st = .probation) && decide ((s.link n).probation + ms 1 ≤ s.now) && decide (s.now ≤ (s.link n).lastBeat + us 4) &&
        (s.link n).failDue.isSome) = true := by
      simp [hst, hlong, hbeat, Option.isSome_iff_ne_none.mpr hfail]
    refine ⟨fun huse => ?_, fun huse => ?_, fun huse => ?_⟩ <;> refine within_eq (decide_eq_true hn) ?_ <;> simp only [hends, huse, if_true]
  · intro s k d hk hd hdue
    refine within_eq (decide_eq_true hk) ?_
    simp only [hd, State.due_of_le hdue, if_true]
  · intro s p r hr hdone
    refine next_eq ?_
    simp only [hr, hdone]
  · intro s p c line key cs r hr hc hline hkey
    subst hline hkey
    refine ⟨fun l hl => ?_, fun hnone => ⟨fun hfill => ?_, fun hfill t => ⟨fun hstart => ?_, fun x hstart => ?_⟩⟩⟩ <;> refine next_eq ?_
    · simp only [hr, hc, hl]
    · simp only [hr, hc, hnone, hfill, if_true]
    · rcases hstart with h | h <;> simp only [hr, hc, hnone, hfill, h, Bool.false_eq_true, if_false]
    · simp only [hr, hc, hnone, hfill, hstart, Bool.false_eq_true, if_false]
  · intro s d hd hdue hmgr
    have hruns : (s.due d && s.isManager) = true := by rw [State.due_of_le hdue, hmgr]; rfl
    refine ⟨fun hnone => ?_, fun hsome => ?_⟩ <;> refine next_eq ?_ <;> simp only [hd, hruns, if_true]
    · rw [if_pos (by simp [hnone])]
    · rw [if_neg (by simpa using hsome)]
  · intro s t h hh hdue hidle ht
    refine next_eq ?_
    have hruns : (s.due h.due && !s.connOps) = true := by rw [State.due_of_le hdue, hidle]; rfl
    simp only [hh, hruns, if_true, ← ht]
  · intro s t i x hx hst hat hno ht
    have hruns : (decide (x.st = 0) && decide (x.at' ≤ (s.rd Reg.hopTime).toNat) && !s.cancelWaits i x) = true := by simp [hst, hat, hno]
    refine ⟨fun hnot => ?_, fun hnamed hin u => ⟨fun hrun => ?_, fun v hrun hv => ?_⟩⟩ <;> refine next_eq ?_ <;>
      simp only [hx, hruns, if_true, ← ht]
    · exact if_pos (by simpa using hnot)
    · simp only [hnamed, hin, hrun, Bool.not_true, Bool.not_false, Bool.or_self, Bool.false_eq_true, if_true, if_false]
    · simp only [hnamed, hin, hrun, Bool.not_true, Bool.or_self, Bool.false_eq_true, if_false, ← hv]
      rfl

end Sys2Proof.Machine
end

section
/-!
PROOF. The commands of the hoop, its members, panels and schedules.
-/
namespace Sys2Proof.Machine
set_option Elab.async false

/-- Settles O53. -/
theorem hoopCommandsAct : Obligations.HoopCommandsAct := by
  refine ⟨?_, ?_, ?_, ?_, ?_, ?_, ?_, ?_, ?_, ?_, ?_⟩
  · intro s t m r h hdata
    exact State.Asked.done _ h rfl (lengthIs_of_nil hdata) rfl rfl
  · intro s t m r h hdata
    exact State.Asked.done _ h rfl (lengthIs_of_nil hdata) rfl rfl
  · intro s t m k r l h hlen hregion hk hl
    subst hk hl
    exact State.Asked.done _ h rfl (check_of_form hlen (if_pos hregion)) rfl rfl
  · intro s t e u v m i r own list h hk hwp hlen hnone hmgr hi he hown hlist hu hv
    subst hi he hown hlist hu hv
    exact State.Asked.journaled_done _ h hk rfl (check_of_form hlen (if_neg (by simp [hnone, hmgr]))) (by simp [hwp]) rfl
  · intro s t e u v m d r x h hk hwp hlen hd hx he hu hv
    subst hd he hu hv
    refine State.Asked.journaled_done _ h hk rfl (check_of_form hlen (if_pos ?_)) (by simp [hwp]) ?_
    · simp [Table.has, hx]
    · simp only [State.entered_lace, hx] <;> rfl
  · intro s t e m d r h hk hwp hlen hd hzero hself hmem hroom he
    subst hd he
    refine (State.Asked.journaled_later _ h hk rfl (check_of_form hlen ?_) (by simp [hwp]) rfl).trans ?_
    · have hother : (decide (leAt r.data 0 1 = 0) || (decide (leAt r.data 0 1 = 1) && decide (t.self = 1) && t.isManager) ||
          !t.lace.members.has (leAt r.data 0 1)) = false := by
        simpa [hzero, hmem] using hself
      simp only [hother, Nat.not_lt.mpr hroom, Bool.false_eq_true, if_false]
    · rw [h.box]
  · intro s t e m k r x h hk hlen hx hlost he
    subst he
    refine State.Asked.journaled_changes _ h hk rfl (check_of_form hlen ?_) rfl ?_
    · simp only [hx, hlost, if_true]
    · simp only [State.entered_mem, hx]
  · intro s t e m r h hk hdata hmgr hdev hcur he
    subst he
    refine (State.Asked.journaled_later _ h hk rfl (check_of_form (lengthIs_of_nil hdata) (if_pos ?_)) rfl rfl).trans ?_
    · simp [hmgr, hcur, Option.isSome_iff_ne_none.mpr hdev]
    · simp only [hdata, h.box]
  · intro s t e m i r x h hk hlen hact hfrom hto hroom he hi hx
    subst he hi hx
    refine State.Asked.journaled_done _ h hk rfl (check_of_form hlen ?_) rfl rfl
    have hact' : (decide (leAt r.data 16 2 = 0) || decide (3 ≤ leAt r.data 16 2)) = false := by rcases hact with h | h <;> simp [h]
    have hat : (decide (leAt r.data 0 8 < (t.rd Reg.hopTime).toNat + 100000) ||
        decide ((t.rd Reg.hopTime).toNat + 7 * 86400 * 1000000 < leAt r.data 0 8)) = false := by
      rw [decide_eq_false (Nat.not_lt.mpr hfrom), decide_eq_false (Nat.not_lt.mpr hto), Bool.or_self]
    simp only [hact', hat, Nat.not_le.mpr hroom, Bool.false_eq_true, if_false]
  · intro s t e m i r h hk hlen hi hhas he
    subst hi he
    exact State.Asked.journaled_done _ h hk rfl (check_of_form hlen (if_pos hhas)) rfl rfl
  · intro s t m i r x h hlen hi hx
    subst hi
    refine State.Asked.done _ h rfl (check_of_form hlen (if_pos ?_)) rfl ?_
    · simp [Table.has, hx]
    · simp only [hx]

end Sys2Proof.Machine
end

section
/-!
PROOF. The tenant keys and the rekey walker.
-/
namespace Sys2Proof.Machine
set_option Elab.async false

/-- Settles O54. -/
theorem keyCommandsAndRekeyWalkerAct : Obligations.KeyCommandsAndRekeyWalkerAct := by
  refine ⟨?_, ?_, ?_, ?_, ?_, ?_, ?_⟩
  · intro s t e m r k key h hk hform hbad hadm hwp he hslot hkey
    subst he hslot
    refine ⟨fun hhas => ?_, fun hnone hst => ?_, fun hnone hst => ?_, fun hnone hst1 hst2 => ?_⟩
    all_goals
      refine State.Asked.journaled_done _ h hk rfl (check_of_form hform (if_neg (by simp [hbad, hadm]))) (Bool.and_eq_false_imp.mpr hwp) ?_
    · simp only [Option.isSome_iff_ne_none.mpr hhas, if_true]
    · simp only [hnone, hkey, hst, Option.isSome_none, Bool.false_eq_true, if_false]
    · simp only [hnone, hkey, hst, Option.isSome_none, Bool.false_eq_true, if_false]
    · simp only [hnone, hkey, Option.isSome_none, Bool.false_eq_true, if_false]
  · intro s t e u m r k h hk hlen h0 h255 hreg hdir hwp he hslot hu
    subst he hslot
    have hid : (decide (r.keyId = 0) || decide (r.keyId = 255)) = false := by simp [h0, h255]
    have hfree : (t.mem.regions.any (fun x => x.2.keyId == r.keyId) || t.mem.dir.any (fun x => x.2.keyId == r.keyId)) = false := by
      rw [hreg, hdir, Bool.or_self]
    refine ⟨fun hother => ?_, fun w hw hmine => ?_⟩
    all_goals
      refine State.Asked.journaled_done _ h hk rfl (check_of_form hlen ?_) (Bool.and_eq_false_imp.mpr hwp) ?_
    · simp only [hid, hfree, Bool.false_eq_true, if_false]
    · rw [hu]
      cases hw : t.mem.rekey with
      | none => simp only [State.entered_mem, hw, Bool.false_eq_true, if_false]
      | some w => simp only [State.entered_mem, hw, beq_eq_false_iff_ne.mpr (hother w hw), Bool.false_eq_true, if_false]
    · simp only [hid, hfree, Bool.false_eq_true, if_false]
    · simp only [hu, State.entered_mem, hw, hmine, beq_self_eq_true, if_true]
  · intro s t m r h hlen h0 h255
    have hid : (decide (r.keyId = 0) || decide (r.keyId = 255)) = false := by simp [h0, h255]
    refine ⟨fun hother => ?_, fun w hw hmine => ?_⟩
    all_goals refine State.Asked.done _ h rfl (check_of_form hlen (if_neg (by simp [h0, h255]))) rfl ?_
    · cases hw : t.mem.rekey with
      | none => simp only [hw]
      | some w => simp only [hw, if_neg (hother w hw)]
    · simp only [hw, if_pos hmine]
  · intro s t e u m a r k key l h hk hform hver hmine hst hbad hwp he hslot hkey hl ha hu
    subst he hslot hl ha hu
    refine State.Asked.journaled_done _ h hk rfl (check_of_form hform ?_) (Bool.and_eq_false_imp.mpr hwp) ?_
    · simp only [if_neg hver, hst, hbad]
      cases hw : t.mem.rekey with
      | none => simp
      | some w => simp [hmine w hw]
    · simp only [hkey]
  · intro s t e u m r h hk hlen h0 h255 he hu
    subst he hu
    refine ⟨fun hmgr => ?_, fun hmgr => ?_⟩
    all_goals refine State.Asked.journaled_done _ h hk rfl (check_of_form hlen (if_neg (by simp [h0, h255]))) rfl ?_
    · simp only [State.unlockKey, hmgr, Bool.false_eq_true, if_false]
    · simp only [State.unlockKey, hmgr, if_true]
  · intro s w k hw hslot
    subst hslot
    have hrow : exec .rekeyNode s = .next (s.walkNode w) := by
      refine next_eq ?_
      simp only [hw]
    have hgoes : (s.keySlot w.keyId).locked = false → (s.keySlot w.keyId).key0 ≠ none → (s.keySlot w.keyId).key1 ≠ none →
        ((s.keySlot w.keyId).locked || (s.keySlot w.keyId).key0.isNone || (s.keySlot w.keyId).key1.isNone) = false := by
      intro hl h0 h1
      simp [hl, Option.isSome_iff_ne_none, h0, h1]
    refine ⟨fun hwait => hrow.trans (next_eq ?_), fun hl h0 h1 hend => ⟨fun hconv => hrow.trans (next_eq ?_), fun hconv => hrow.trans (next_eq ?_)⟩,
      fun n hl h0 h1 hn ln hln => ⟨fun hnew => hrow.trans (next_eq ?_), fun hold hin => hrow.trans (next_eq ?_), fun hold hin => hrow.trans (next_eq ?_)⟩⟩
    · rw [State.walkNode, if_pos (by simpa [or_assoc] using hwait)]
    · simp only [State.walkNode, hgoes hl h0 h1, hend, hconv, Bool.false_eq_true, if_false, if_true]
    · simp only [State.walkNode, hgoes hl h0 h1, hend, hconv, Bool.false_eq_true, if_false]
    · simp only [State.walkNode, hgoes hl h0 h1, hn, hln, hnew, Bool.false_eq_true, if_false, if_true]
    · simp only [State.walkNode, hgoes hl h0 h1, hn, hln, hold, hin, Bool.eq_not_self, Bool.false_eq_true, if_false, if_true]
    · simp only [State.walkNode, hgoes hl h0 h1, hn, hln, hold, hin, Bool.eq_not_self, Bool.false_eq_true, if_false]
  · intro s w hw hripe
    refine next_eq ?_
    simp only [hw, State.periodic, hripe, if_true]

end Sys2Proof.Machine
end

section
/-!
PROOF. MACsec associations, the JTAG lock, and refused accesses of DMA and JTAG.
-/
namespace Sys2Proof.Machine
set_option Elab.async false

variable {s t u : State} {m : Nat} {r : Req} {resp o n : List Byte}

/-- A journaled command that ends at once, with the old and new value of its journal entry given. -/
theorem State.Asked.entered_done (c : Command) (h : s.Asked m c.code c.cls r t) (hk : t.KeepOpen) (hm : c.mark = .yes)
    (hc : c.check t r = none) (hw : (c.wp t r && t.kept.wp) = false) (ho : c.old t r = o) (hn : c.new t r = n)
    (he : c.eff (t.entered r c.code o n) r = .done .ok resp u) : s.command m c = .next (u.mbxComplete m .ok resp) := by
  subst ho hn
  exact h.journaled_done c hk hm hc hw he

/-- One whose response is held. -/
theorem State.Asked.entered_later (c : Command) (h : s.Asked m c.code c.cls r t) (hk : t.KeepOpen) (hm : c.mark = .yes)
    (hc : c.check t r = none) (hw : (c.wp t r && t.kept.wp) = false) (ho : c.old t r = o) (hn : c.new t r = n)
    (he : c.eff (t.entered r c.code o n) r = .later .ok resp u) : s.command m c = .next (u.running m resp) := by
  subst ho hn
  exact h.journaled_later c hk hm hc hw he

end Sys2Proof.Machine

namespace Sys2Proof.Machine
set_option Elab.async false

/-- Settles O55. -/
theorem macsecJtagAndDmaAct : Obligations.MacsecJtagAndDmaAct := by
  refine ⟨?_, ?_, ?_, ?_, ?_, ?_, ?_, ?_, ?_, ?_⟩
  · intro s t e m p i r key h hk hlen hp hxpn hport hnew htx han hx hmode hkey hroom he hfree
    subst hp he
    have hform : (!(leAt r.data 3 1 == 1) && !zeroAt r.data 24 16) = false := by
      rcases hxpn with hone | hzero
      · simp [hone]
      · simp [hzero]
    have hplace : (decide (t.portCount ≤ leAt r.data 0 1) || (t.host.sas.any fun x => x.1 / 32 == leAt r.data 0 1 &&
        x.2.tx == (leAt r.data 1 1 == 1) && x.2.an == leAt r.data 2 1 && x.2.sci == leAt r.data 8 8)) = false := by
      rw [hnew, decide_eq_false (Nat.not_le.mpr hport), Bool.or_self]
    have hop : (decide (2 ≤ leAt r.data 1 1) || decide (4 ≤ leAt r.data 2 1) || decide (2 ≤ leAt r.data 3 1) ||
        (leAt r.data 3 1 == 1) != t.flag (Reg.ethMsecCfg (leAt r.data 0 1)) 16) = false := by
      rw [decide_eq_false (Nat.not_le.mpr htx), decide_eq_false (Nat.not_le.mpr han), decide_eq_false (Nat.not_le.mpr hx), hmode, bne_self_eq_false]
      rfl
    refine State.Asked.journaled_done _ h hk rfl (check_of_form hlen ?_) rfl ?_
    · simp only [hform, hplace, hop, hkey, Nat.not_le.mpr hroom, Option.isNone_some, Bool.false_eq_true, if_false]
    · simp only [hfree, hkey]
  · intro s t e m i r a h hk hlen hsa he
    subst he
    refine State.Asked.entered_done (o := saEntry (i / 32) a.tx a.an a.sci) (n := saEntry (i / 32) a.tx a.an a.sci) _ h hk rfl (check_of_form hlen ?_) rfl ?_ ?_ ?_
    · simp only [hsa, Option.isNone_some, Bool.false_eq_true, if_false]
    · simp only [hsa]
    · simp only [hsa]
    · simp only [State.entered_saOf, hsa]
  · intro s t e m i r a h hk hlen hsa htx he
    subst he
    refine State.Asked.entered_done (o := saEntry (i / 32) a.tx a.an a.sci) (n := saEntry (i / 32) a.tx a.an a.sci) _ h hk rfl (check_of_form hlen ?_) rfl ?_ ?_ ?_
    · simp only [hsa, htx, if_true]
    · simp only [hsa]
    · simp only [hsa]
    · simp only [State.entered_saOf, hsa]
  · intro s t m i r a h hlen hsa
    refine State.Asked.done _ h rfl (check_of_form hlen ?_) rfl ?_
    · simp only [hsa, Option.isNone_some, Bool.false_eq_true, if_false]
    · simp only [hsa]
  · intro s t e m r h hk hlen hscope he
    subst he
    exact State.Asked.journaled_done _ h hk rfl (check_of_form hlen (if_neg (Nat.not_le.mpr hscope))) rfl rfl
  · intro s t e m r h hk hdata he
    subst he
    refine State.Asked.always_done _ h hk rfl (lengthIs_of_nil hdata) rfl ?_
    simp only [hdata, State.jtagLock]
  · intro s t ht
    subst ht
    exact rfl
  · intro s t scope key sig hscope hkey hsig ht
    have hform : (decide (scope < 256) && decide (key < 256) && sig.length == 96) = true := by simp [hscope, hkey, hsig]
    refine ⟨fun hclosed => within_eq hform (if_pos hclosed), fun hopen hnot => within_eq hform ?_,
      fun u n k hopen hn hk hs => ⟨fun hbad => within_eq hform ?_, fun hgood => ⟨fun hfull => within_eq hform ?_, fun hfull hu => within_eq hform ?_⟩⟩⟩
    · cases hn : s.mbx.jtagNonce with
      | none => simp only [hopen, Bool.not_false, Bool.false_eq_true, if_false, if_true, ht]
      | some n =>
        cases hk : s.kept.adminKeys.find key with
        | none => simp only [hopen, Bool.not_false, Bool.false_eq_true, if_false, if_true, ht]
        | some k =>
          have hs : ¬ scope < 4 := by simpa [hn, hk] using hnot
          simp only [hopen, hs, decide_false, Bool.false_and, Bool.not_false, Bool.false_eq_true, if_false, if_true, ht]
    · simp only [hopen, hn, hk, hs, hbad, Bool.and_false, Bool.not_false, Bool.false_eq_true, if_false, if_true, ht]
    · simp only [hopen, hn, hk, hs, hgood, Bool.and_true, decide_true, Bool.not_true, Bool.false_eq_true, if_false, ← ht, hfull, if_true]
    · simp only [hopen, hn, hk, hs, hgood, Bool.and_true, decide_true, Bool.not_true, Bool.false_eq_true, if_false, ← ht, hfull, hu]
  · intro s d hd hle
    refine next_eq ?_
    simp only [hd, State.due_of_le hle, if_true]
  · intro s x a hx ha
    have hform : ((x == 1 || x == 2) && decide (a < 2 ^ 64)) = true := by
      rcases hx with rfl | rfl <;> exact decide_eq_true ha
    refine ⟨fun hz => within_eq hform (if_pos hz), fun hz => within_eq hform (if_neg hz)⟩

end Sys2Proof.Machine
end

section
/-!
PROOF. Power modes, the cap and temperature. A request whose command depends on its first byte (R482, R501) is taken by the row of that byte.
-/
namespace Sys2Proof.Machine
set_option Elab.async false

/-- The row of a choice runs the command of a request that makes this choice. -/
theorem State.choice_of_byte {s : State} {m k : Nat} (c : Command) (h : leAt (s.box m).req 0 1 = k) : s.choice m k c = s.command m c := by
  refine if_neg ?_
  simp [State.selects, h]

/-- Settles O56. -/
theorem powerModesCapAndTemperature : Obligations.PowerModesCapAndTemperature := by
  refine ⟨?_, ?_, ?_, ?_, ?_, ?_, ?_, ?_, ?_, ?_, ?_, ?_⟩
  · intro c hc s t u m r d st h hsel hmode hlen hidle hd hwrite
    have hrow : exec (c.1 m) s = s.choice m c.2 powerModeCmd := by
      iterate 3
        obtain _ | ⟨_, hc⟩ := hc
        · rfl
      nomatch hc
    have hle : c.2 < 3 := by
      iterate 3
        obtain _ | ⟨_, hc⟩ := hc
        · decide
      nomatch hc
    rw [hrow, State.choice_of_byte _ hsel]
    refine State.Asked.ends _ h rfl (check_of_form hlen ?_) rfl ?_
    · have hgo : (decide (c.2 = 2) && (decide (t.power = .held) || t.jobRuns)) = false := by
        by_cases h2 : c.2 = 2
        · simp [(hidle h2).1, (hidle h2).2]
        · simp [h2]
      simp only [hmode, if_neg (Nat.not_le.mpr hle), hgo, Bool.false_eq_true, if_false]
    · simp only [powerModeCmd, hd, hmode, hwrite]
  · intro s t e m c r h hk hlen hc hrange he
    subst hc he
    refine State.Asked.journaled_done _ h hk rfl (check_of_form hlen (if_pos ?_)) rfl rfl
    simpa using hrange
  · intro s t e m k r h hk hlen hsel hkind he
    subst he
    have hcheck : k < 3 → shutdownCmd.check t r = none := fun hlt => check_of_form hlen (if_neg (by omega))
    refine ⟨fun hk0 => ?_, fun hk1 => ?_, fun hk2 => ?_⟩
    · refine (State.choice_of_byte _ (hsel.trans hk0)).trans (State.Asked.always_done _ h hk rfl (hcheck (by omega)) rfl ?_)
      simp only [shutdownCmd, hkind, hk0]
    · refine (State.choice_of_byte _ (hsel.trans hk1)).trans (State.Asked.always_done _ h hk rfl (hcheck (by omega)) rfl ?_)
      simp only [shutdownCmd, hkind, hk1]
    · refine (State.choice_of_byte _ (hsel.trans hk2)).trans (State.Asked.always_done _ h hk rfl (hcheck (by omega)) rfl ?_)
      simp only [shutdownCmd, hkind, hk2]
  · intro s t m r h hdata
    refine State.Asked.later _ h rfl (lengthIs_of_nil hdata) rfl ?_
    simp only [h.box]
  · intro s t u m r d h h8 hz1 hz7 h0 h2a h2b h4a h4b h5a h5b h6a h6b hd
    refine ⟨fun hw => ?_, fun st hw => ?_⟩
    · refine State.Asked.later _ h rfl (if_pos ?_) rfl ?_
      · simp [*]
      · simp only [h.box, hd, hw]
    · refine State.Asked.ends _ h rfl (if_pos ?_) rfl ?_
      · simp [*]
      · simp only [h.box, hd, hw]
  · intro s l h
    exact next_eq (if_pos h)
  · intro s l
    exact ⟨fun h => next_eq (if_pos h), fun h => next_eq (if_neg (by simp [h]))⟩
  · intro s x hstep htest hloc
    exact next_eq (if_pos (by simp [hstep, htest, hloc]))
  · intro s hmode hset hops hjobs hidle hdue hover
    refine next_eq (if_pos ?_)
    have hfires := State.fires_of hdue hover
    rcases hmode with hmode | hmode <;> simp [hmode, hset, hops, hjobs, hidle, hfires]
  · intro s t p q l h ht
    subst ht
    exact next_eq (if_pos h)
  · intro s h
    exact next_eq (if_pos h)
  · intro s h
    exact next_eq (if_pos h)

end Sys2Proof.Machine
end

section
/-!
PROOF. The end of a long-running mailbox command, the update, boot and the diagnostics. The rows of a long-running command's end go through two
lemmas: what the end does once nothing is waited for, and that it does nothing before.
-/
namespace Sys2Proof.Machine
set_option Elab.async false

/-- The state in which the end of a long-running command looks at what it waits for: the panels of a deleted region go first (R174). -/
def State.panelsGone (r : State) (m : Nat) : State :=
  if (r.box m).st = .busy && (r.box m).begun && (r.box m).code == 0x0202 && !r.lace.jobs.any (fun j => j.act == .mailbox m) then
    r.clearPanels (.mailbox m)
  else r

/-- What the end of a long-running command does once nothing is waited for. -/
def State.endRunning (s : State) (m : Nat) (b : Mailbox) : State :=
  if b.code = 0x0904 && s.boot.stage = 5 then
    if leAt b.req 0 1 = 0 then (s.sealPending (leAt b.req 0 1)).startSwap (some m) 0
    else
      let u := (s.sealPending (leAt b.req 0 1)).mbxComplete m b.status b.resp
      if leAt b.req 0 1 = 1 then (({ u with pwr := { u.pwr with onReq := true } } : State).askOff 1) else u
  else
    (if b.code = 0x0802 && s.clearing then s.clearEnd (b.keyIndex.getD 0) (leAt b.resp 0 2)
      else if b.code = 0x0903 && s.boot.stage = 3 then
        { s with boot := { s.boot with verify := leAt b.resp 0 1, stage := if leAt b.resp 0 1 = 1 then 4 else 2 } }
      else s).mbxComplete m b.status b.resp

variable {r s : State} {m : Nat} {b : Mailbox}

/-- Once nothing is waited for, a long-running command ends. -/
theorem exec_mbxCommandDone_of_mayEnd (hs : s = r.panelsGone m) (h : s.MayEnd m (r.box m)) :
    exec (.mbxCommandDone m) r = .next (s.endRunning m (r.box m)) := by
  obtain ⟨hm, hbusy, hbegun, hjobs, hpanels, hhand, hmat, hswatch, hpages, ⟨hsweep, hmore⟩, hswap, hclear⟩ := h
  have hretire : ((r.box m).code == 0x0320 && s.retiring (leAt (r.box m).req 0 4)) = false := by
    simpa using hswatch
  have hcleared : ((r.box m).code == 0x0202 && !s.allCleared) = false := by
    simpa using hclear
  refine within_eq (decide_eq_true hm) ?_
  extract_lets b t moving passing matrix retiring swap waits
  have ht : s = t := hs
  have hb : b = r.box m := rfl
  clear_value t b
  subst ht hb
  have hmoving : moving = false := by
    unfold moving
    split
    next d x hx => exact beq_false_of_ne fun e => hpanels d (e ▸ hx)
    next => rfl
  have hpassing : passing = false := by
    unfold passing
    split
    next x hx => exact beq_false_of_ne (hhand x hx)
    next => rfl
  have hswapping : swap = false := by
    unfold swap
    split
    next x hx => exact beq_false_of_ne (hswap x hx)
    next => rfl
  have hwaits : waits = false := by
    unfold waits
    rw [hjobs, hmoving, hpassing, hpages, hsweep, hmore, hswapping, hcleared, show matrix = false from hmat, show retiring = false from hretire]
    rfl
  exact if_pos (by rw [decide_eq_true hbusy, hbegun, hwaits]; rfl)

/-- Before that nothing ends. -/
theorem exec_mbxCommandDone_of_waits (hm : m < 16) (hs : s = r.panelsGone m) (h : ¬ s.MayEnd m (r.box m)) :
    exec (.mbxCommandDone m) r = .next s := by
  refine within_eq (decide_eq_true hm) ?_
  extract_lets b t moving passing matrix retiring swap waits
  have ht : s = t := hs
  have hb : b = r.box m := rfl
  clear_value t b
  subst ht hb
  refine if_neg fun hgo => h ?_
  simp only [Bool.and_eq_true, decide_eq_true_eq, Bool.not_eq_true', waits, Bool.or_eq_false_iff] at hgo
  obtain ⟨⟨hbusy, hbegun⟩, ⟨⟨⟨⟨⟨⟨⟨⟨⟨hjobs, hmoving⟩, hpassing⟩, hmat⟩, hretire⟩, hpages⟩, hsweep⟩, hmore⟩, hswapping⟩, hcleared⟩⟩ := hgo
  refine ⟨hm, hbusy, hbegun, hjobs, fun d hd => ?_, fun x hx hmine => ?_, hmat, fun hc => ?_, hpages, ⟨hsweep, hmore⟩, fun x hx hmine => ?_, fun hc => ?_⟩
  · simp only [moving, hd, beq_self_eq_true, Bool.true_eq_false] at hmoving
  · simp only [passing, hx, hmine, beq_self_eq_true, Bool.true_eq_false] at hpassing
  · simpa only [retiring, hc, beq_self_eq_true, Bool.true_and] using hretire
  · simp only [swap, hx, hmine, beq_self_eq_true, Bool.true_eq_false] at hswapping
  · simpa [hc] using hcleared

end Sys2Proof.Machine

namespace Sys2Proof.Machine
set_option Elab.async false

/-- Settles O57. -/
theorem firmwareUpdateAndDiagnostics : Obligations.FirmwareUpdateAndDiagnostics := by
  refine ⟨?_, ?_, ?_, ?_, ?_, ?_, ?_, ?_, ?_, ?_, ?_, ?_, ?_, ?_, ?_⟩
  · intro s t e m a n r h hk hlen ha hn hoff htotal hend hstage he
    subst ha hn he
    refine State.Asked.journaled_done _ h hk rfl ?_ rfl rfl
    have hplace : (decide (leAt r.data 0 4 ≠ 0) && decide (leAt r.data 0 4 ≠ t.boot.staging.length)) = false := by
      rcases hoff with h0 | ⟨h0, _⟩ <;> simp [h0]
    have hsize : (decide (20 * 2 ^ 20 < leAt r.data 4 4) || (decide (leAt r.data 0 4 ≠ 0) && decide (leAt r.data 4 4 ≠ t.boot.total)) ||
        decide (leAt r.data 4 4 < leAt r.data 0 4 + (r.data.length - 8))) = false := by
      rw [decide_eq_false (Nat.not_lt.mpr htotal), decide_eq_false (Nat.not_lt.mpr hend)]
      rcases hoff with h0 | ⟨_, h0⟩ <;> simp [h0]
    simp only [if_neg (Nat.not_lt.mpr hlen), hplace, hsize, hstage, Bool.false_eq_true, if_false]
  · intro s t e u m r h hk hdata hstage he hu
    subst he
    have hcheck : (lengthIs 0 r).orElse (fun _ => if decide (t.boot.stage = 2) || decide (t.boot.stage = 4) then none else some .address) = none :=
      check_of_form (lengthIs_of_nil hdata) (if_pos (by rcases hstage with h2 | h2 <;> simp [h2]))
    refine (State.Asked.runs_journaled _ h rfl hcheck rfl hk).trans (next_eq ?_)
    simp only [State.finishCmd, hdata, h.box, ← hu]
  · intro c hc s t e m r h hk hlen hsel hmode hstage hrom hlive he
    have hrow : exec (c.1 m) s = s.choice m c.2 activateCmd := by
      iterate 3
        obtain _ | ⟨_, hc⟩ := hc
        · rfl
      nomatch hc
    have hlt : c.2 < 3 := by
      iterate 3
        obtain _ | ⟨_, hc⟩ := hc
        · decide
      nomatch hc
    subst he
    rw [hrow, State.choice_of_byte _ hsel]
    refine State.Asked.journaled_later _ h hk rfl (check_of_form hlen ?_) rfl rfl
    have hop : (decide (3 ≤ c.2) || (decide (t.boot.active = 2) && decide (c.2 ≠ 1))) = false := by
      rcases hrom with h2 | h1
      · simp [Nat.not_le.mpr hlt, h2]
      · simp [h1]
    have hgo : (decide (c.2 = 0) && (!(pkgOf t.boot.staging).liveOk || t.swapping)) = false := by
      by_cases h0 : c.2 = 0
      · simp [(hlive h0).1, (hlive h0).2]
      · simp [h0]
    simp only [hmode, hop, hstage, hgo, ne_eq, not_true_eq_false, Bool.false_eq_true, if_false]
  · intro s t e m r h hk hdata hpend he
    subst he
    refine State.Asked.entered_done (o := []) (n := []) _ h hk rfl (check_of_form (lengthIs_of_nil hdata) (if_pos hpend)) rfl rfl hdata rfl
  · intro s t e m r h hk hdata h0 h5 he
    subst he
    have hplace : (decide (t.boot.stage = 0) || decide (t.boot.stage = 5)) = false := by simp [h0, h5]
    refine ⟨fun h6 => ?_, fun h6 hswap hact => ?_, fun h6 hswap hact => ?_⟩
    · refine State.Asked.entered_done (o := []) (n := []) _ h hk rfl (check_of_form (lengthIs_of_nil hdata) ?_) rfl rfl hdata ?_
      · simp only [hplace, h6, decide_false, Bool.false_and, Bool.false_eq_true, if_false]
      · simp only [State.entered_boot, h6, if_false]
    · refine State.Asked.entered_done (o := []) (n := []) _ h hk rfl (check_of_form (lengthIs_of_nil hdata) ?_) rfl rfl hdata ?_
      · simp only [hplace, hswap, Bool.and_false, Bool.false_eq_true, if_false]
      · simp only [State.entered_boot, h6, hact, if_true, if_false]
    · refine State.Asked.entered_later (o := []) (n := []) _ h hk rfl (check_of_form (lengthIs_of_nil hdata) ?_) rfl rfl hdata ?_
      · simp only [hplace, hswap, Bool.and_false, Bool.false_eq_true, if_false]
      · simp only [State.entered_boot, h6, hact, h.box, if_true]
  · intro r s u m b hm hb hs
    subst hb
    have hgone : s = r.panelsGone m := hs
    refine ⟨fun hwaits => exec_mbxCommandDone_of_waits hm hgone hwaits, fun hend => ⟨fun hclear hverify hact => ?_, fun hc hclear => ?_,
      fun hc hverify => ?_, fun hc hact hu => ⟨fun h0 => ?_, fun h1 => ?_, fun h0 h1 => ?_⟩⟩⟩
    all_goals refine (exec_mbxCommandDone_of_mayEnd hgone hend).trans (next_eq ?_)
    · have h1 : ¬ ((decide ((r.box m).code = 0x0904) && decide (s.boot.stage = 5)) = true) := by simpa using hact
      have h2 : ¬ ((decide ((r.box m).code = 0x0802) && s.clearing) = true) := by simpa using hclear
      have h3 : ¬ ((decide ((r.box m).code = 0x0903) && decide (s.boot.stage = 3)) = true) := by simpa using hverify
      rw [State.endRunning, if_neg h1, if_neg h2, if_neg h3]
    · simp [State.endRunning, hc, hclear]
    · simp [State.endRunning, hc, hverify]
    · simp [State.endRunning, hc, hact, h0]
    · simp [State.endRunning, hc, hact, h1, hu]
    · simp [State.endRunning, hc, hact, h0, h1, hu]
  · intro s u v a b c d alive hload hpow hc hd
    subst hc hd
    have hcopies : (fun k => (if k = 0 then a else b).take 3) = fun k : Nat => if k = 0 then a.take 3 else b.take 3 := by
      funext k
      split <;> rfl
    have hrun : (!s.boot.loading || decide (s.power = .off)) = false := by simp [hload, hpow]
    refine ⟨fun x hx => ⟨fun hbusy => next_eq ?_, fun hbusy => next_eq ?_⟩, fun hx hu hv => ?_⟩
    · simp only [hrun, hx, hbusy, Bool.false_eq_true, if_false, if_true]
    · simp only [hrun, hx, hbusy, hcopies, Bool.false_eq_true, if_false]
    · refine ⟨fun h2 h11 => next_eq ?_, fun h2 h11 => next_eq ?_, fun h2 hdead => next_eq ?_, fun h2 hup h11 => next_eq ?_, fun h2 hup h11 => next_eq ?_⟩
      all_goals simp only [hrun, hx, Bool.false_eq_true, if_false, if_true, hcopies, Nat.one_ne_zero, ← hu, ← hv]
      · rw [if_pos h2, if_pos h11]
      · rw [if_pos h2, if_neg h11]
      · rw [if_neg h2, if_pos (by rw [hdead]; rfl)]
      · rw [if_neg h2, if_neg (by rw [hup]; decide), if_pos h11]
      · rw [if_neg h2, if_neg (by rw [hup]; decide), if_neg h11]
  · intro s c hfrom hto hloc hact hload hok
    exact next_eq (if_pos (by simp [hfrom, hto, hloc, hact, hload, hok]))
  · intro s x hx hhand hdue hover hbusy
    refine next_eq ?_
    simp only [hx, hhand, State.fires_of hdue hover, hbusy, Bool.not_false, Bool.and_self, if_true]
  · intro s u x d hx hd hdue hover hu
    subst hu
    refine next_eq ?_
    simp only [hx, hd, State.fires_of hdue hover, if_true]
  · intro s a ha hpend hdue hswap hup
    refine next_eq ?_
    simp only [ha, hpend, hdue, hswap, hup, decide_true, Bool.not_false, Bool.and_self, if_true]
  · intro s t e u m r d x h hk hlen hitem hheld he hu
    subst he hu
    refine State.Asked.always_done _ h hk rfl (check_of_form hlen ?_) rfl rfl
    rw [if_neg (Nat.not_le.mpr hitem), if_neg (Classical.not_not.mpr hheld)]
  · intro s t e m k i r h hk hlen hz hkind h0 h8 hunit hruns hidle he hi
    subst hkind he hi
    refine State.Asked.journaled_done _ h hk rfl ?_ rfl rfl
    have hfree : (t.diagRuns || (decide (t.power ≠ .held) && !t.diagIdle (leAt r.data 0 2) (leAt r.data 4 4))) = false := by
      rcases hidle with h1 | h1 <;> simp [hruns, h1]
    have hop : (decide (leAt r.data 0 2 = 0) || decide (8 ≤ leAt r.data 0 2)) = false := by simp [h0, Nat.not_le.mpr h8]
    have hform : (decide (r.data.length ≠ 8) || decide (leAt r.data 2 2 ≠ 0)) = false := by simp [hlen, hz]
    simp only [hform, hop, hunit, hfree, Bool.not_true, Bool.false_eq_true, if_false]
  · intro s u ok k d hd hend hu
    subst hu
    refine ⟨fun hok => next_eq ?_, fun hok => next_eq ?_⟩
    · simp only [hd, hend, hok, Option.isNone_none, if_true]
    · simp only [hd, hend, hok, Option.isNone_none, if_true, Bool.false_eq_true, if_false]
  · intro s t m r d x h hlen hd hid hx
    subst hx
    refine State.Asked.done _ h rfl (check_of_form hlen ?_) rfl ?_
    · simp only [hd, hid, if_true]
    · simp only [hd]

end Sys2Proof.Machine
end

section
/-!
PROOF. The SMBus rows, the mailbox timers and the end of a keep page write.
-/
namespace Sys2Proof.Machine
set_option Elab.async false

section
variable {s : State} {f : State → State}

/-- Without VSTBY an SMBus write does nothing. -/
theorem State.smbWrite_off {q : Bool} (h : s.power = .off) : s.smbWrite q f = s := if_pos h

/-- One whose PEC fails is counted (R443). -/
theorem State.smbWrite_badPec (h : s.power ≠ .off) : s.smbWrite false f = s.count (Reg.mbxCount 7) 1 := if_neg h

theorem State.smbWrite_good (h : s.power ≠ .off) : s.smbWrite true f = f s := if_neg h

/-- Without VSTBY an SMBus read does nothing. -/
theorem State.smbRead_off {g : State → List Byte × State} (h : s.power = .off) : s.smbRead g = s := if_pos h

theorem State.smbRead_on {g : State → List Byte × State} (h : s.power ≠ .off) :
    s.smbRead g = (g s).2.modSmb (fun x => { x with out := [(g s).1] }) := if_neg h

end
end Sys2Proof.Machine

namespace Sys2Proof.Machine
set_option Elab.async false

/-- Settles O58. -/
theorem smbusRowsMailboxTimersAndKeepPages : Obligations.SmbusRowsMailboxTimersAndKeepPages := by
  refine ⟨?_, ?_, ?_, ?_, ?_, ?_, ?_, ?_, ?_, ?_, ?_, ?_, ?_, ?_, ?_, ?_, ?_⟩
  · intro s a b k n v l q
    refine ⟨fun h c hc => ?_, fun h c hc => ?_⟩
    · simp only [List.mem_cons, List.not_mem_nil, or_false] at hc
      obtain rfl | rfl | rfl | rfl | rfl := hc
      all_goals exact next_eq (State.smbWrite_badPec h)
    · simp only [List.mem_cons, List.not_mem_nil, or_false] at hc
      obtain rfl | rfl | rfl | rfl | rfl | rfl | rfl | rfl | rfl | rfl | rfl := hc
      iterate 5 exact next_eq (State.smbWrite_off h)
      · exact next_eq (ite_eq_left_iff.mpr fun _ => State.smbRead_off h)
      · exact next_eq (if_pos h)
      · exact next_eq (State.smbRead_off h)
      · exact next_eq (State.smbRead_off h)
      · exact next_eq (if_pos h)
      · exact next_eq (State.smbRead_off h)
  · intro s a b c h
    exact next_eq (State.smbWrite_good h)
  · intro s a h
    exact next_eq (State.smbWrite_good h)
  · intro s t b m l h hm hb hne hlen ht
    subst hm hb ht
    have hfits : (l.isEmpty || decide (32 < l.length)) = false := by simp [hne, Nat.not_lt.mpr hlen]
    refine ⟨fun hbuf => next_eq ((State.smbWrite_good h).trans ?_), fun hheld hown => next_eq ((State.smbWrite_good h).trans ?_),
      fun hbuf hfree => next_eq ((State.smbWrite_good h).trans ?_)⟩
    · simp only [hfits, hbuf, decide_true, Bool.true_or, Bool.false_eq_true, if_false, if_true]
    · have hno : (((s.box s.mbx.smb.mailbox).st == .idle && !(s.box s.mbx.smb.mailbox).claimed) || (s.box s.mbx.smb.mailbox).owner == .smbus) = false := by
        rcases hheld with h1 | h1 <;> simp [h1, hown]
      simp only [hfits, hno, Bool.not_false, Bool.or_true, Bool.false_eq_true, if_false, if_true]
    · have hyes : (((s.box s.mbx.smb.mailbox).st == .idle && !(s.box s.mbx.smb.mailbox).claimed) || (s.box s.mbx.smb.mailbox).owner == .smbus) = true := by
        rcases hfree with ⟨h1, h2⟩ | h1
        · simp [h1, h2]
        · simp [h1]
      simp only [hfits, hyes, hbuf, decide_false, Bool.not_true, Bool.or_false, Bool.false_eq_true, if_false]
  · intro s t n o b buf h h1 h32 hb ho hbuf ht
    subst hb ho
    have hn : (decide (n = 0) || decide (32 < n)) = false := by simp; omega
    refine next_eq ((if_neg (by rw [hn]; decide)).trans ((State.smbRead_on h).trans ?_))
    subst hbuf ht
    simp only [bne_iff_ne, Bool.and_eq_true, beq_iff_eq, decide_eq_true_eq, Bool.not_eq_true', List.isEmpty_eq_false_iff, and_assoc]
  · intro s b m h hm hb
    subst hm hb
    refine ⟨fun hno => next_eq ((State.smbWrite_good h).trans (if_pos ?_)), fun hserve hown => next_eq ((State.smbWrite_good h).trans (if_neg ?_))⟩
    · rcases hno with h1 | h1 <;> simp [h1]
    · simp [hserve, hown]
  · intro s v h
    exact next_eq (State.smbWrite_good h)
  · intro s h
    exact next_eq (if_neg h)
  · intro s h
    exact next_eq (State.smbRead_on h)
  · intro s h
    exact next_eq (State.smbRead_on h)
  · intro s
    exact ⟨fun h => next_eq (if_pos h), fun h hon => next_eq ((if_neg h).trans (State.smbRead_on hon))⟩
  · intro s h
    exact next_eq (if_neg h)
  · intro s b h hb
    subst hb
    exact next_eq (State.smbRead_on h)
  · intro s m d b hm hb hbusy hearly hdue hover
    subst hb
    refine within_eq (decide_eq_true hm) ?_
    simp only [hearly, hbusy, State.fires_of hdue hover, decide_true, Bool.and_self, if_true]
  · intro s m b hm hb hst hdue hover
    subst hb
    refine within_eq (decide_eq_true hm) (if_pos ?_)
    rw [State.fires_of hdue hover, Bool.and_true]
    simpa [or_assoc] using hst
  · intro s d hd hdue
    refine next_eq ?_
    simp only [hd, State.due_of_le hdue, if_true]
  · intro s t q rest hq ht
    subst ht
    refine ⟨fun e w hw => next_eq ?_, fun off w v hw => next_eq ?_⟩
    · simp only [hq, hw]
    · simp only [hq, hw]

end Sys2Proof.Machine
end

section
/-!
PROOF. The rows of register accesses: the register each names, and how a write of a register, of a word and of a keep register ends.
-/
namespace Sys2Proof.Machine
set_option Elab.async false

section
variable {s u : State} {a : Author} {p : Path} {off w : Nat} {v : Word} {d : RegDesc}

/-- A path that is not open changes nothing. -/
theorem State.writeRow_closed (h : s.pathOpen p = false) : s.writeRow p off v = s := if_pos (by rw [h]; rfl)

theorem State.readRow_closed (h : s.pathOpen p = false) : s.readRow p off = s := if_pos (by rw [h]; rfl)

/-- A write by an open path, other than over SMBus, is the write of the register. -/
theorem State.writeRow_open (h : s.pathOpen p = true) (hp : p ≠ .smbus) : s.writeRow p off v = (s.writeReg p 0 off v).2 := by
  simp only [State.writeRow, h, hp, Bool.not_true, Bool.false_eq_true, if_false]

/-- A write of a register below the parameter window goes by the register's description. -/
theorem State.writeReg_described (hoff : off < 0x800000) (hd : regDesc off = some d) :
    s.writeReg p w off v =
      (if !s.reach p off then (.done .unavailable, s)
       else if bobWindow off then (.done (s.writeWindow p off v).1, (s.writeWindow p off v).2)
       else if d.rw + d.kp + d.w1c = 0 && !d.wo then (.done .denied, s)
       else if d.lk && !s.kept.factory then (.done .denied, s)
       else if s.deadWindow off then (.done .ok, s)
       else if d.kp ≠ 0 then s.writeKeep (s.pathAuthor p) (pathRetries p) w off d v
       else (.done (s.writeWord (s.pathAuthor p) off d v).1, (s.writeWord (s.pathAuthor p) off d v).2)) := by
  simp only [State.writeReg, if_neg (Nat.not_le.mpr hoff), hd]

/-- A value out of range, or at odds with a related field, is ignored. -/
theorem State.writeWord_ignored (h : (d.inRange v && s.related off v) = false) : s.writeWord a off d v = (.ok, s.ignoredWrite off) :=
  if_pos (by rw [← Bool.not_and, h]; rfl)

/-- A value within its range goes on as the fields it changes say. -/
theorem State.writeWord_inRange (h : (d.inRange v && s.related off v) = true) :
    s.writeWord a off d v =
      (if !d.wo && (s.view off ^^^ v) &&& word d.rw == 0 then (.ok, s.acknowledge off d v)
       else if s.kept.closed then (.unavailable, s)
       else if s.jnlFull then (.journalFull, s.jRefuse)
       else match s.regEffect (a.iface == 4) off d v with
         | none => (.ok, s.ignoredWrite off)
         | some t =>
           if !d.wo && t.view off == s.view off then (.ok, t)
           else
             let j := s.jChange a false off (leBytes 8 (s.view off).toNat) (leBytes 8 v.toNat)
             (.ok, (j.regEffect (a.iface == 4) off d v).getD j)) :=
  if_neg (by rw [← Bool.not_and, h]; decide)

/-- How the write of a keep register ends, by what its value would be (R458). -/
theorem State.writeKeep_of_value {retry : Bool} {x : Word} (hx : x = (s.kpCurrent off &&& ~~~(word d.kp)) ||| (v &&& word d.kp)) :
    s.writeKeep a retry w off d v =
      (if s.kept.wp then (.done .writeProtected, s.count (Reg.kepCount 4) 1)
       else if 100000 ≤ s.kept.counts.get off 0 then (.done .keepWorn, s.count (Reg.kepCount 5) 1)
       else if !d.inRange v || !s.related off v then (.done .ok, s.ignoredWrite off)
       else if x = s.kpCurrent off then (.done .ok, s)
       else if s.kept.closed then (.done .unavailable, s)
       else if s.jnlFull then (.done .journalFull, s.jRefuse)
       else if retry && decide (31 < s.kept.queue.length) then (.done .retry, s.count (Reg.kepCount 6) 1)
       else (.queued, { s with kept := { s.kept with
         queue := s.kept.queue ++ [.journal (s.jEntry a false off .ok (leBytes 8 (s.kpCurrent off).toNat) (leBytes 8 x.toNat)) w, .regPage off x w] } })) := by
  rw [hx]
  rfl

end
end Sys2Proof.Machine

namespace Sys2Proof.Machine
set_option Elab.async false

/-- Settles O59. -/
theorem registerRowsWrite : Obligations.RegisterRowsWrite := by
  refine ⟨?_, ?_, ?_, ?_, ?_, ?_, ?_⟩
  · intro s p off n v
    exact ⟨rfl, rfl, rfl, rfl, fun h => within_next (decide_eq_true h) _, fun h => within_next (decide_eq_true h) _,
      fun h => within_next (decide_eq_true h) _, fun h => within_next (decide_eq_true h) _⟩
  · intro c hc s p v
    have hrow : exec (c.1 p v) s = s.actionRow (c.2.2 v) p c.2.1 v := by
      iterate 15
        obtain _ | ⟨_, hc⟩ := hc
        · rfl
      nomatch hc
    rw [hrow]
    exact ⟨fun h => next_eq (if_pos h), fun h => next_eq (if_neg (by rw [h]; decide))⟩
  · intro s p off v h
    exact ⟨State.writeRow_closed h, State.readRow_closed h⟩
  · intro s p off v h
    refine ⟨State.writeRow_open h, fun e u hw hp => ?_⟩
    subst hp
    simp only [State.writeRow, h, hw, Bool.not_true, Bool.false_eq_true, if_false, if_true] <;> rfl
  · intro s p w off v d hoff hd
    rw [State.writeReg_described hoff hd]
    refine ⟨fun hr => ?_, fun hr hb => ?_, fun hr hb => ⟨fun h0 hwo => ?_, fun hrw hlk hf => ?_, fun hrw hlk => ⟨fun hdead => ?_, fun hdead hkp => ?_,
      fun hdead hkp => ?_⟩⟩⟩
    · simp only [hr, Bool.not_false, if_true]
    · simp only [hr, hb, Bool.not_true, Bool.false_eq_true, if_false, if_true]
    · simp only [hr, hb, h0, hwo, decide_true, Bool.not_true, Bool.not_false, Bool.and_self, Bool.false_eq_true, if_false, if_true]
    all_goals
      have hwrites : (decide (d.rw + d.kp + d.w1c = 0) && !d.wo) = false := by
        rcases hrw with h | h
        · rw [decide_eq_false h, Bool.false_and]
        · rw [h, Bool.not_true, Bool.and_false]
    · simp only [hr, hb, hwrites, hlk, hf, Bool.not_true, Bool.not_false, Bool.and_self, Bool.false_eq_true, if_false, if_true]
    all_goals have hopen : (d.lk && !s.kept.factory) = false := by rcases hlk with h | h <;> simp [h]
    · simp only [hr, hb, hwrites, hopen, hdead, Bool.not_true, Bool.false_eq_true, if_false, if_true]
    · simp only [hr, hb, hwrites, hopen, hdead, if_pos hkp, Bool.not_true, Bool.false_eq_true, if_false]
    · simp only [hr, hb, hwrites, hopen, hdead, if_neg (Classical.not_not.mpr hkp), Bool.not_true, Bool.false_eq_true, if_false]
  · intro s u j a off v d same hsame hj
    subst hj
    refine ⟨State.writeWord_ignored, fun hin => ?_⟩
    rw [State.writeWord_inRange hin, ← hsame]
    refine ⟨fun h1 => ?_, fun h1 hcl => ?_, fun h1 hcl => ⟨fun hf => ?_, fun hf he => ?_, fun hf he => ⟨fun hwo hview => ?_, fun hch => ?_⟩⟩⟩
    · simp only [h1, if_true]
    · simp only [h1, hcl, Bool.false_eq_true, if_false, if_true]
    · simp only [h1, hcl, hf, Bool.false_eq_true, if_false, if_true]
    · simp only [h1, hcl, hf, he, Bool.false_eq_true, if_false]
    · simp only [h1, hcl, hf, he, hwo, hview, beq_self_eq_true, Bool.not_false, Bool.and_self, Bool.false_eq_true, if_false, if_true]
    · have hno : (!d.wo && u.view off == s.view off) = false := by rcases hch with h | h <;> simp [h]
      simp only [h1, hcl, hf, he, hno, Bool.false_eq_true, if_false]
  · intro s a retry w off v x d hx
    rw [State.writeKeep_of_value hx]
    refine ⟨fun hwp => ?_, fun hwp hworn => ?_, fun hwp hworn => ⟨fun hin => ?_, fun hin => ⟨fun hsame => ?_, fun hnew hcl => ?_, fun hnew hcl hf => ?_,
      fun hnew hcl hf => ⟨fun hr hq => ?_, fun hwaits => ?_⟩⟩⟩⟩
    · simp only [hwp, if_true]
    · simp only [hwp, hworn, Bool.false_eq_true, if_false, if_true]
    all_goals have hgood : ¬ 100000 ≤ s.kept.counts.get off 0 := Nat.not_le.mpr hworn
    · have hbad : (!d.inRange v || !s.related off v) = true := by rw [← Bool.not_and, hin, Bool.not_false]
      simp only [hwp, hgood, hbad, Bool.false_eq_true, if_false, if_true]
    all_goals have hok : (!d.inRange v || !s.related off v) = false := by rw [← Bool.not_and, hin, Bool.not_true]
    · simp only [hwp, hgood, hok, hsame, Bool.false_eq_true, if_false, if_true]
    · simp only [hwp, hgood, hok, hnew, hcl, Bool.false_eq_true, if_false, if_true]
    · simp only [hwp, hgood, hok, hnew, hcl, hf, Bool.false_eq_true, if_false, if_true]
    · simp only [hwp, hgood, hok, hnew, hcl, hf, hr, hq, decide_true, Bool.and_self, Bool.false_eq_true, if_false, if_true]
    · have hno : (retry && decide (31 < s.kept.queue.length)) = false := by
        rcases hwaits with h | h
        · rw [h, Bool.false_and]
        · rw [decide_eq_false (Nat.not_lt.mpr h), Bool.and_false]
      simp only [hwp, hgood, hok, hnew, hcl, hf, hno, Bool.false_eq_true, if_false]

end Sys2Proof.Machine
end

section
/-!
PROOF. The sequencer's rows: requests, the work of each step, its end and its failure, rail faults, the hold-up save and VSTBY.
-/
namespace Sys2Proof.Machine
set_option Elab.async false

/-- Settles O60. -/
theorem powerSequenceAdvances : Obligations.PowerSequenceAdvances := by
  refine ⟨?_, ?_, ?_, ?_, ?_, ?_, ?_, ?_, ?_, ?_, ?_, ?_, ?_, ?_, ?_, ?_, ?_, ?_⟩
  · intro s n hon
    have hshort : n < 8000 → (decide (s.power = .off) || decide (8000 ≤ n)) = false := fun h => by simp [hon, h]
    refine ⟨fun h50 h4 hstep => next_eq ?_, fun h50 h4 h0 h13 => next_eq ?_, fun hlen => next_eq ?_, fun h8 => next_eq (if_pos (by simp [h8]))⟩
    · have hheld : (decide (50 ≤ n) && decide (n ≤ 4000)) = true := by simp [h50, h4]
      have hasks : (decide (s.stepNo = 0) || decide (13 ≤ s.stepNo)) = true := by simpa using hstep
      simp only [hshort (by omega), hheld, hasks, Bool.false_eq_true, if_false, if_true]
    · have hheld : (decide (50 ≤ n) && decide (n ≤ 4000)) = true := by simp [h50, h4]
      have hasks : (decide (s.stepNo = 0) || decide (13 ≤ s.stepNo)) = false := by simp [h0, h13]
      simp only [hshort (by omega), hheld, hasks, Bool.false_eq_true, if_false, if_true]
    · have hheld : (decide (50 ≤ n) && decide (n ≤ 4000)) = false := by simp; omega
      simp only [hshort (by omega), hheld, Bool.false_eq_true, if_false]
  · intro s hon
    exact ⟨next_eq (if_neg hon), next_eq (if_neg hon)⟩
  · intro s t hon h0 ht
    subst ht
    exact next_eq ((if_neg hon).trans (if_neg h0))
  · intro s t hon h0 ht
    subst ht
    exact next_eq ((if_neg hon).trans (if_pos h0))
  · intro s hoff c hc
    simp only [List.mem_cons, List.not_mem_nil, or_false] at hc
    have hoff' : ∀ b : Bool, (decide (s.power = .off) || b) = true := fun b => by simp [hoff]
    obtain rfl | rfl | rfl | rfl | rfl | rfl | rfl | rfl := hc
    · exact next_eq (if_pos (hoff' _))
    · exact next_eq (if_pos hoff)
    · exact next_eq (if_pos hoff)
    · exact next_eq (if_pos hoff)
    · exact next_eq (if_pos (by simp [hoff]))
    · exact next_eq (if_pos (hoff' _))
    · refine next_eq ?_
      split
      · exact if_neg (by simp [hoff])
      · rfl
    · exact next_eq (if_pos hoff)
  · intro s t hon ht
    subst ht
    refine ⟨fun h0 => next_eq ?_, fun h0 hstays => next_eq ?_, fun h1 h11 hloc => next_eq ?_, fun hstep hloc => next_eq ?_⟩
    · simp only [hon, h0, if_false, if_true]
    · simp only [hon, h0, if_false]
      rcases hstays with hl | h15 | ⟨h14, hf⟩
      · rw [if_pos hl]
      · simp [h15]
      · simp [h14, hf]
    · simp only [hon, if_neg (Nat.one_le_iff_ne_zero.mp h1), hloc, h11, if_false, if_true, Bool.false_eq_true]
    · simp only [hon, hloc, if_false, Bool.false_eq_true]
      rcases hstep with h12 | h13 | ⟨h14, hf⟩
      · simp [h12]
      · simp [h13]
      · simp [h14, hf]
  · intro s n k hon hn
    subst hn
    refine ⟨fun hd => next_eq ?_, fun d hd h15 hr hh hl => next_eq ?_⟩
    · simp only [hon, hd, if_false]
    · simp only [hon, hd, h15, hr, hh, hl, decide_true, Bool.not_false, Bool.and_self, if_false, if_true]
  · intro s n hon hn hd hh hl
    have hgo : (!s.pwr.hold || s.local') = false := by rw [hh, hl]; rfl
    refine ⟨fun a b c e h1 => next_eq ?_, fun t l h2 ht => ⟨fun hcool => next_eq ?_, fun hhot => next_eq ?_⟩, fun h3 h8 => next_eq ?_,
      fun h910 => next_eq ?_, fun t x h11 hload hheld ht => next_eq ?_, fun h13 href hops hforks => next_eq ?_, fun h14 hf => next_eq ?_,
      fun k h14 hf => next_eq ?_⟩
    all_goals simp only [hon, hd, hgo, ← hn, Bool.false_eq_true, if_false]
    · simp only [h1]
    · simp only [h2, ← ht, hcool, Bool.false_eq_true, if_false]
    · simp only [h2, ← ht, hhot, if_true]
    · obtain rfl | rfl | rfl | rfl | rfl | rfl : n = 3 ∨ n = 4 ∨ n = 5 ∨ n = 6 ∨ n = 7 ∨ n = 8 := by omega
      all_goals rfl
    · rcases h910 with h9 | h10
      · simp only [h9]
      · simp only [h10]
    · have hready : (s.boot.loading || !(s.pwr.held || s.flag Reg.plcCeilingOvr 0)) = false := by
        rcases hheld with h | h <;> simp [hload, h]
      simp only [h11, hready, ← ht, Bool.false_eq_true, if_false]
    · have hquiet : (s.pwr.refuse.isSome && s.host.ops.isEmpty && (s.pwr.forced || s.forksCovered)) = true := by
        have hrefused : s.pwr.refuse.isSome = true := Option.isSome_iff_ne_none.mpr href
        rcases hforks with h | h <;> simp [hrefused, hops, h]
      simp only [h13, hquiet, if_true]
    · simp only [h14, hf, Bool.false_eq_true, if_false]
    · simp only [h14, hf, if_true]
  · intro s hon hh
    refine ⟨fun h15 => next_eq ?_, fun h0 h12 h15 => next_eq ?_⟩
    · have hgo : (decide (s.power = .off) || s.pwr.hold || decide (s.stepNo = 0) || decide (s.stepNo = 12)) = false := by simp [hon, hh, h15]
      exact (if_neg (by rw [hgo]; decide)).trans (by rw [if_pos h15])
    · have hgo : (decide (s.power = .off) || s.pwr.hold || decide (s.stepNo = 0) || decide (s.stepNo = 12)) = false := by simp [hon, hh, h0, h12]
      simp only [hgo, h15, Bool.false_eq_true, if_false]
  · intro s n hon hl hn hdue hover
    refine next_eq ?_
    simp only [hn, hon, hl, State.fires_of hdue hover, ne_eq, not_false_eq_true, decide_true, Bool.not_false, Bool.and_self, if_true]
  · intro s hon hl
    have hgo : (decide (s.power = .off) || s.local') = false := by simp [hon, hl]
    refine ⟨fun h0 hdeaf => next_eq ?_, fun h12 hh => next_eq ?_, fun h12 hh => next_eq ?_⟩
    · simp [hgo, h0, hdeaf]
    · simp only [hgo, h12, hh, Bool.false_eq_true, if_false, if_true]
    · simp only [hgo, h12, hh, Bool.false_eq_true, if_false, if_true]
  · intro s d hd hle h0
    refine next_eq ?_
    cases hreq : s.pwr.onReq with
    | true => simp only [hd, State.due_of_le hle, h0, decide_true, Bool.and_self, if_true, Bool.or_true]
    | false => simp only [hd, State.due_of_le hle, h0, decide_true, Bool.and_self, if_true, Bool.or_false, Bool.false_eq_true, if_false]
  · intro s d hd
    refine ⟨fun hr => next_eq ?_, fun hr hl => next_eq ?_⟩
    · simp only [hd, hr, if_false]
    · simp only [hd, hr, hl, if_true]
  · intro s d hd hle
    refine next_eq ?_
    simp only [hd, State.due_of_le hle, if_true]
  · intro s t d hd hle ht
    refine ⟨fun hstays => next_eq ?_, fun hpin h0 => next_eq ?_⟩
    · have hno : (t.flag Reg.pwrStatus 8 || decide (t.stepNo ≠ 0)) = true := by simpa using hstays
      simp only [hd, State.due_of_le hle, ← ht, hno, if_true]
    · have hgo : (t.flag Reg.pwrStatus 8 || decide (t.stepNo ≠ 0)) = false := by simp [hpin, h0]
      simp only [hd, State.due_of_le hle, ← ht, hgo, Bool.false_eq_true, if_false, if_true]
  · intro s t u k hk ht hu
    have hrecord : (if s.railsSound && !s.kept.closed then
        (t.wr Reg.pwrLastFault (word (k + 2 ^ 8 * s.stepNo + 2 ^ 32 * s.fld Reg.kepCycle 31 0))).setFlag Reg.pwrStatus 10 else t) = u := by
      rw [hu]
      simp only [Bool.and_eq_true, Bool.not_eq_true']
    have hrow : exec (.railFault k) s = .next (if !s.monitored k || s.flag (Reg.pwrRail k) 34 then s
        else if s.local' || s.stepNo = 15 then u else u.localSequence 4) := by
      rw [← hrecord, ht]
      exact within_next (decide_eq_true hk) _
    rw [hrow]
    refine ⟨fun hno => next_eq (if_pos ?_), fun hm hf hstays => next_eq ?_, fun hm hf hl h15 => next_eq ?_⟩
    · rcases hno with h | h <;> simp [h]
    · have hin : (s.local' || decide (s.stepNo = 15)) = true := by simpa using hstays
      simp only [hm, hf, hin, Bool.not_true, Bool.or_self, Bool.false_eq_true, if_false, if_true]
    · simp only [hm, hf, hl, h15, decide_false, Bool.not_true, Bool.or_self, Bool.false_eq_true, if_false]
  · intro s k
    exact ⟨_, rfl, rfl, rfl, rfl, rfl, rfl, rfl, rfl, rfl, rfl⟩
  · intro s
    refine ⟨fun hon => next_eq (if_pos hon), fun hoff => ⟨_, next_eq (if_neg (Classical.not_not.mpr hoff)), ?_⟩⟩
    generalize s.porReset = t
    exact ⟨rfl, rfl, rfl, rfl, rfl, rfl⟩

end Sys2Proof.Machine
end
